-- ==== Sys2Proof/Word.lean ====
section
/-! DEFINITION. The word types of the block: registers are 32 bits wide (R16), memories are read by bytes. -/

namespace Sys2Proof

/-- A register word (R16). -/
abbrev Word := BitVec 32

/-- One byte of memory. -/
abbrev Byte := BitVec 8

end Sys2Proof
end

