-- ==== Sys2Proof/Syntax.lean ====
section
/-! DEFINITION. The commands of the block: one constructor per row of `spec/opcode_table.json`, in the table's order. -/

namespace Sys2Proof

/-- Which core a Porlon syllable runs on: an element core (PE profile) or the scheme pair (SL profile). -/
inductive CoreSel where
  | pe (n : Fin 8)
  | sl
  deriving DecidableEq, Repr

/-- The guard of a syllable: p[pr] XOR pn (R207). -/
structure Guard where
  pn : Bool
  pr : Fin 8
  deriving DecidableEq, Repr

/-- A scalar register number, a predicate number, a complex register number (R201). -/
abbrev SReg := Fin 32
abbrev PReg := Fin 8
abbrev CReg := Fin 16

/-- Where a scheme output point goes (R285). -/
inductive OutDst where
  | trip (o : Nat)
  | gpo (k : Nat)
  | goose (gcb member : Nat)
  | sg (bay : Nat)
  | mode (bay : Nat)
  | recSig (i : Nat)
  deriving DecidableEq, Repr

/-- The initial state of a timer (R230). -/
structure TimerInit where
  pre : Nat
  run : Bool := false
  q : Bool := false
  prev : Bool := false
  elapsed : Nat := 0
  /-- 0 on-delay, 1 off-delay, 2 pulse (R545) -/
  kind : Nat := 0
  deriving DecidableEq, Repr

/-- The type of a GOOSE member (R325). -/
inductive GType where
  | boolean | int32 | float32 | dbpos | quality | timestamp
  deriving DecidableEq, Repr

/-- The source of a member that NET publishes (R324); `bit` is the first bit of a BOOLEAN or Dbpos in its source word. -/
inductive GSrc where
  /-- a class-0 verdict word of a bay: 0 TRIPOUT, 1 START, 2 TRIP -/
  | verdict (bay field bit : Nat)
  /-- word `word` of a bay's verdict snapshot: 0 TRIPOUT, 1 START, 2 TRIP, 4 to 35 M0 to M31 -/
  | snap (bay word bit : Nat)
  /-- a scheme output point that the image binds to this member -/
  | point (bit : Nat)
  | bayQuality (bay : Nat) (class0 : Bool)
  | schemeQuality
  | bayTime (bay : Nat)
  | taskTime (task : Nat)
  | const (v : BitVec 64)
  deriving DecidableEq, Repr

/-- A GOOSE control block of the image (R323). -/
structure Gcb where
  dst : Nat
  appid : Nat
  vid : Nat
  pcp : Nat
  gocbRef : List (BitVec 8)
  datSet : List (BitVec 8)
  goID : List (BitVec 8)
  confRev : Nat
  members : List (GType × GSrc)
  deriving DecidableEq, Repr

/-- A GOOSE subscription of the image (R330). -/
structure Gsub where
  dst : Nat
  appid : Nat
  gocbRef : List (BitVec 8)
  datSet : List (BitVec 8)
  goID : List (BitVec 8)
  confRev : Nat
  types : List GType
  deriving DecidableEq, Repr

/-- What a verified image holds, as far as the hardware acts on it: its identity, the L fields it loads, and the programs and
tables that no register shows. -/
structure Image where
  /-- image identity: hash and version; 0 is no image -/
  ident : Nat := 0
  /-- the identity an exchange image was built against (R294) -/
  base : Nat := 0
  version : Nat := 0
  /-- the L fields the image loads: (field key, value); the others take the values their tables state (R21) -/
  fields : List (Nat × Nat) := []
  /-- placement blocks of section kinds 5 to 8: address in the model's memory → bytes (R545) -/
  blocks : List (Nat × List (BitVec 8)) := []
  /-- placement blocks of section kind 4: address in the configuration memories → bytes (R545) -/
  cfg : List (Nat × List (BitVec 8)) := []
  /-- initial values of the retained regions, section kind 9: address in SC SRAM → bytes (R291, R545) -/
  retInit : List (Nat × List (BitVec 8)) := []
  /-- entry bundle of each section: 12·core + 3·class + local bay; not listed: empty (R178) -/
  entry : List (Nat × Nat) := []
  /-- last bundle of each section, numbered as its entry (R183); not listed: the entry bundle alone -/
  secLast : List (Nat × Nat) := []
  /-- shared routines of a core: first and last bundle (R239) -/
  routines : List (Nat × (List (Nat × Nat))) := []
  /-- the recorded bound b_j of each class-0 section: 3·core + local bay (R183) -/
  bounds : List (Nat × Nat) := []
  /-- the curve instances that a bay declares (R239) -/
  cvDecl : List (Nat × List Nat) := []
  /-- bundles of each core's program (R217); not listed: the whole instruction memory -/
  progLen : List (Nat × Nat) := []
  /-- settings base: 24·core + 8·local bay + group → address (R227 SGBASE) -/
  sgBase : List (Nat × Nat) := []
  /-- tabulated curves: 16·core + table → points (G, t) (R251) -/
  curves : List (Nat × List (BitVec 32 × BitVec 32)) := []
  /-- core groups to which the image assigns a bay, as a bitmap (R40) -/
  used : Nat := 0
  /-- hash of each bay's element-state layout (R300) -/
  layout : List (Nat × Nat) := []
  /-- what an input word of a task shows: 4096·task + word → (point of the live store, quality byte instead of value) (R283) -/
  inMap : List (Nat × (Nat × Bool)) := []
  /-- bit-valued output points: 32·(4096·task + word) + bit; word-valued ones: 4096·task + word (R285) -/
  outBits : List (Nat × OutDst) := []
  outWords : List (Nat × OutDst) := []
  /-- entry syllable by task, syllables of the program, retained region (address, bytes) by task (R287) -/
  taskEntry : List (Nat × Nat) := []
  /-- last syllable by task; shared routines of SL: first and last syllable; words of a task's input and output image (R239) -/
  taskLast : List (Nat × Nat) := []
  slRoutines : List (Nat × Nat) := []
  taskIo : List (Nat × (Nat × Nat)) := []
  slLen : Nat := 131072
  retained : List (Nat × (Nat × Nat)) := []
  /-- initial timers and edge detectors that are not cleared -/
  timers : List (Nat × TimerInit) := []
  edges : List (Nat × Bool) := []
  /-- survivors of an exchange: timers and edge detectors (old, new), variables (old address, new address, bytes) (R299) -/
  carryTm : List (Nat × Nat) := []
  carryEd : List (Nat × Nat) := []
  carryVar : List (Nat × (Nat × Nat)) := []
  /-- svID and, where given, datSet of each SV subscription (R118) -/
  svIdent : List (Nat × (List (BitVec 8) × Option (List (BitVec 8)))) := []
  /-- interface revision and node ID (R463, R10) -/
  ifrev : Nat := 0
  node : Nat := 0
  /-- GOOSE control blocks and subscriptions, by number (R323, R330) -/
  gcbs : List (Nat × Gcb) := []
  gsubs : List (Nat × Gsub) := []
  /-- multicast addresses of the host filter (R337) -/
  hostFilter : List Nat := []
  /-- tasks whose retained regions are compared between twins (R493) -/
  twinTasks : List Nat := []
  deriving DecidableEq, Repr


/-- A bank request's or a fade's target: half-band stage `st` of chain `n`, or resampler `m` (R107). -/
inductive BankSel where
  | hb (n : Fin 48) (st : Fin 8)
  | rs (m : Fin 192)
  deriving DecidableEq, Repr


/-- The IEC 62351-6 security extension of a frame: algorithm (SEC_KCFG.ALG codes), key ID, and whether the tag verifies under
the receiver's key of that ID (R128). -/
structure SecExt where
  alg : Nat
  kid : Nat
  tagOk : Bool
  deriving DecidableEq, Repr

/-- An ASDU of a sampled-value frame (R118, R120): its quantities are value and quality. -/
structure SvAsdu where
  svid : List (BitVec 8)
  dset : List (BitVec 8)
  cnt : Nat
  confrev : Nat
  sync : Nat
  vals : List (BitVec 32 × BitVec 32)
  deriving DecidableEq, Repr

/-- A frame of Ethertype 0x88BA as NET hands it to SVI: port 0 PA, 1 PB, 2 SB; its stamp is taken in the command's NET cycle (R118
to R131, R346). -/
structure SvFrame where
  port : Fin 3
  src : Nat
  dst : Nat
  appid : Nat
  wellFormed : Bool
  sim : Bool
  ext : Option SecExt
  asdus : List SvAsdu
  /-- position of its stamp within the NET cycle (R346) -/
  pos : Fin 8
  deriving DecidableEq, Repr

/-- The RWL registers of an SV subscription (R145). -/
inductive SvReg where
  | cfg | id | macLo | macHi | confrev | mudly | nomdly | maxdly
  deriving DecidableEq, Repr

/-- The redundancy tag or trailer of a frame (R310, R312). -/
inductive RedTag where
  | none
  | hsr (seq : Fin 65536)
  | rct (lanB : Bool) (seq : Fin 65536)
  deriving DecidableEq, Repr

/-- A frame of Ethertype 0x88B8 as NET hands it to the subscriber (R330, R331); members are type and value. -/
structure GFrame where
  port : Fin 3
  src : Nat
  dst : Nat
  appid : Nat
  wellFormed : Bool
  sim : Bool
  ext : Option SecExt
  gocbRef : List (BitVec 8)
  datSet : List (BitVec 8)
  goID : List (BitVec 8)
  confRev : Nat
  stNum : Fin 4294967296
  sqNum : Fin 4294967296
  tal : Nat
  members : List (GType × BitVec 64)
  /-- position of its stamp within the NET cycle (R346) -/
  pos : Fin 8
  deriving DecidableEq, Repr

/-- The common part of a beacon or twin frame (R335): `tag` is the key slot of a present tag, and whether it verifies. -/
structure B5Head where
  port : Fin 3
  version : Nat
  node : Fin 4096
  ifrev : Nat
  devId : Nat
  seq : Fin 4294967296
  ident : Nat
  tag : Option (Fin 256 × Bool)
  deriving DecidableEq, Repr

/-- A beacon: its publishers by APPID and source MAC (R335). -/
structure Beacon where
  head : B5Head
  pubs : List (Nat × Nat)
  deriving DecidableEq, Repr

/-- A twin frame (R483). -/
structure TwinFrame where
  head : B5Head
  roleB : Bool
  extra : Bool
  partner : Fin 4096
  inst : Nat
  len : Nat
  start : BitVec 24
  trip : BitVec 24
  valid : BitVec 24
  health : BitVec 32
  digest : BitVec 32
  records : Nat
  aus : BitVec 4
  deriving DecidableEq, Repr

/-- What a frame carries, as far as NET tells frames apart (R337). -/
inductive FrameKind where
  | sv (f : SvFrame)
  | goose (f : GFrame)
  /-- a Sync of a domain -/
  | ptpSync (domain : Nat)
  | ptpGeneral
  /-- a message of the peer-delay exchange; a Pdelay_Resp_Follow_Up is a general message -/
  | peerDelay (general : Bool)
  | supervision
  | beacon (f : Beacon)
  | twin (f : TwinFrame)
  | pause
  | other
  deriving DecidableEq, Repr

/-- A frame on the wire (R305 to R314): addresses, PCP of its VLAN tag, redundancy tag, whether its FCS is good, its content,
its octets from the destination MAC on without redundancy tag and FCS, and the position of its raw event in the NET cycle (R346). -/
structure Frame where
  dst : Nat
  src : Nat
  pcp : Option (Fin 8)
  tag : RedTag
  fcsOk : Bool
  kind : FrameKind
  bytes : List (BitVec 8)
  pos : Fin 8 := 0
  deriving DecidableEq, Repr

/-- A Sync (R351, R352, R355): port, domain, sourcePortIdentity, sequence number; in one-step form its origin time in ns, else none;
correctionField in 2^−16 ns; the position of its raw event in the NET cycle (R346). -/
structure SyncMsg where
  port : Fin 3
  domain : Fin 256
  srcId : Nat
  srcPort : Nat
  seq : Fin 65536
  origin : Option Nat
  corr : Int
  pos : Fin 8
  deriving DecidableEq, Repr

/-- A Follow_Up (R352). -/
structure FollowUp where
  port : Fin 3
  domain : Fin 256
  srcId : Nat
  srcPort : Nat
  seq : Fin 65536
  origin : Nat
  corr : Int
  deriving DecidableEq, Repr

/-- A Pdelay_Req of a peer (R353): the port it came in on, domain, sourcePortIdentity, sequence number, the position of t2's raw event. -/
structure PdReq where
  port : Fin 3
  domain : Fin 256
  srcId : Nat
  srcPort : Nat
  seq : Fin 65536
  pos : Fin 8
  deriving DecidableEq, Repr

/-- A complete response of a peer, in one step or two (R353): sequence number, t3 − t2 with the correctionFields in 2^−16 ns, the peer's
t3 in ns where it gives one, the position of t4's raw event. -/
structure PdResp where
  seq : Fin 65536
  turn : Int
  t3 : Option Nat
  pos : Fin 8
  deriving DecidableEq, Repr

/-- The register that a MASTER_SELECT writes (R351). -/
inductive MasterSel where
  | midLo | midHi | mpn | port
  deriving DecidableEq, Repr

/-- The initiators of Hedgerow, in the order of R26: 0 SEC, 1 image load engine, 2 SC, 3 TWN, 4 REC, 5 NET DMA, 6 HST, 7 MSPI,
8 JTAG. -/
inductive Ini where
  | sec | load | sc | twn | recorder | dma | hst | mspi | jtag
  deriving DecidableEq, Repr

/-- What the diagnostic port reads (R29, R31, R160): a word at an offset of the Espalier planes, or of the data or the element-state
memory of a core. -/
inductive DiagSel where
  | esp (off : Nat)
  | ecData (n : Fin 8) (off : Nat)
  | ecElem (n : Fin 8) (off : Nat)
  deriving DecidableEq, Repr

/-- What the host has written into the configuration space (R502): Bus Master Enable, MSI-X Enable and Function Mask, D3hot, ASPM L1, and
the larger of the two payload sizes. -/
structure PciCfg where
  busMaster : Bool := false
  msixEn : Bool := false
  funcMask : Bool := false
  d3hot : Bool := false
  aspmL1 : Bool := false
  mps256 : Bool := false
  deriving DecidableEq, Repr

/-- The link's speed code, and the configuration space as the host leaves it with this change (R502, assumption 159). -/
structure LinkCfg where
  speed : Fin 8
  cfg : PciCfg := {}
  deriving DecidableEq, Repr

/-- The command byte and the address of an MSPI transaction that is none of the four with data: 5, status, or an unknown command (R517). -/
structure MspiHead where
  cmd : BitVec 8 := 5
  addr : BitVec 32
  deriving DecidableEq, Repr

/-- The commands of the OX24: the operations and events of the table, each with the rule it is stated in. -/
inductive Instr where
  /-- REGISTER_WRITE (R18): A host or initiator write to a register field that has no row of its own, applied by its access code. -/
  | registerWrite (x : Ini) (a : Nat) (v : BitVec 32)
  /-- BAR0_NARROW_ACCESS (R16): A narrower or unaligned BAR0 access completes with zero data and no other effect. -/
  | bar0NarrowAccess (write : Option (BitVec 64)) (a n : Nat)
  /-- WIDE_LOW_READ (R17): A read of the low word of a 64-bit quantity captures the high word for the next high read. -/
  | wideLowRead (a : Nat)
  /-- READ_CLEAR (R18): A read of an RC field returns its value and returns the field to its reset value. -/
  | readClear (a : Nat)
  /-- BLOCK_LOCK (R18): Writing a block's LOCK bit makes its RWL fields read-only until SYS. -/
  | blockLock (k : Fin 23)
  /-- CLOCK_MONITOR_WINDOW (R33): At the end of each 1,024-AON-cycle window Privet compares each clock's count with its band and raises a clock-monitor fault if outside. -/
  | clockMonitorWindow (c : Fin 9) (count : Nat)
  /-- TIME_SHADOW_CORRECTION (R37): Every 1,024 NET cycles TIM sends a correction word that places each FAB time shadow on its base. -/
  | timeShadowCorrection
  /-- DOMAIN_POWER_GOOD (R42): A power domain reports power-good; Privet unmasks its sources and its crossing FIFOs start empty. -/
  | domainPowerGood (d : Fin 12)
  /-- REF_WINDOW_EXIT (R51): A group's buffered reference leaves its window; the group's bits are tagged I and U and a VMON_REF fault is raised, or for group 12 all checkers fail. -/
  | refWindowExit (g : Fin 13)
  /-- REF_RECOVERY_END (R51): A reference has stayed inside its window for 2 ms and the group's I and U tagging ends. -/
  | refRecoveryEnd (g : Fin 13)
  /-- REF_SETTLE_END (R53): The 2 ms reference settling time after PD10 power-good ends and AFE_STAT.REF_RDY is set. -/
  | refSettleEnd
  /-- LPM_REQUEST (R55): A write of AFE_CTL.LPM requests a change of AFE mode and is checked against the resampler rate bound. -/
  | lpmRequest (v : Bool)
  /-- LPM_CHANGE_EFFECT (R56): An accepted mode change takes effect for all modulators at one fm edge, tagging the next 32 bits U and voiding checker dwells. -/
  | lpmChangeEffect
  /-- OVERLOAD_DETECT (R59): A modulator produces 48 identical bits, resets its loop and starts an overload interval with O, U and neighbour N tags. -/
  | overloadDetect (x : Fin 52 × Bool)
  /-- OVERLOAD_INTERVAL_END (R60): The first bit transition after the latest loop reset ends the overload interval and its O tagging. -/
  | overloadIntervalEnd (m : Fin 52)
  /-- NEIGHBOUR_TAG_END (R61): Twenty microseconds after a neighbour's overload interval ends, N tagging of the group's other modulators ends. -/
  | neighbourTagEnd (m : Fin 52)
  /-- GAIN_WRITE (R63): A write of AFE_CHn_CFG.GAIN on a running input takes effect at the next fm edge and tags 32 bits U. -/
  | gainWrite (n : Fin 48) (g : Fin 4)
  /-- REFSEL_CHANGE (R64): A write changing AFE_CTL.REFSEL switches all groups' reference at one fm edge and voids all checker dwells. -/
  | refselChange (v : Bool)
  /-- AFE_INPUT_ENABLE (R65): Setting AFE_CHn_CFG.EN starts the modulator at the next fm edge with 32 U-tagged bits. -/
  | afeInputEnable (n : Fin 48)
  /-- AFE_INPUT_DISABLE (R65): Clearing AFE_CHn_CFG.EN stops the modulator, feeds an I-tagged alternating pattern and ends any overload interval. -/
  | afeInputDisable (n : Fin 48)
  /-- ACCUMULATOR_SWAP (R69): At a window boundary the working accumulator set becomes the closed set and AFE_CHn_SEQ increments. -/
  | accumulatorSwap (n : Fin 48)
  /-- CHECKER_SETTLE_END (R72): The checker's settle time on a new input ends and its dwell begins. -/
  | checkerSettleEnd (k : Fin 4)
  /-- CHECKER_DWELL_END (R73): A checker dwell ends and is judged pass, fail or void, updating the input's failure count. -/
  | checkerDwellEnd (k : Fin 4)
  /-- CHECKER_RESTART (R78): Writing AFE_CKk_CTL.RESTART clears FAILED, SUSPECT bits and failure counts and restarts the sweep. -/
  | checkerRestart (k : Fin 4)
  /-- RESAMPLER_RELEASE (R97): A local grid sample is released at t_g + A and written to Espalier. -/
  | resamplerRelease (m : Fin 192) (tick : Nat)
  /-- SV_SAMPLE_ENTER (R98): An SV sample enters its resampler from the NET to FAB FIFO and any grid sample whose window it completes is written. -/
  | svSampleEnter
  /-- DCH_LOAD_OPEN (R115): DCH_LD_CMD.OPEN latches DCH_LD_SEL and empties the staging buffer. -/
  | dchLoadOpen
  /-- DCH_LOAD_DATA (R115): A write of DCH_LD_DATA stages the next coefficient while the load window is open. -/
  | dchLoadData (v : BitVec 32)
  /-- DCH_LOAD_COMMIT (R546): DCH_LD_CMD.COMMIT checks the staged bank in order LOCKED, SELECT, COUNT, RUNNING, NORM and starts writing it. -/
  | dchLoadCommit
  /-- DCH_LOAD_COMMIT_DONE (R115): The commit completes, BUSY clears, RESULT is set and the load window closes. -/
  | dchLoadCommitDone
  /-- BANK_REQUEST (R107): A write to DCH_CHn_BREQ or DCH_RSm_BREQ requests a bank, which is refused, switched at once, held pending or starts a fade. -/
  | bankRequest (t : BankSel) (b : Bool)
  /-- FADE_START (R108): A cross-fade starts at the first output of the stage completed after the accepted request. -/
  | fadeStart (t : BankSel)
  /-- FADE_END (R109): Output F of a fade makes the target bank active and starts any differing pending fade. -/
  | fadeEnd (t : BankSel)
  /-- CHAIN_SRST (R111): DCH_CHn_CTL.SRST zeroes the chain and its resampler history at the next fm edge as a restart event. -/
  | chainSrst (n : Fin 48)
  /-- RESAMPLER_SRST (R111): DCH_RSm_CTL.SRST zeroes one resampler's input history as a restart event. -/
  | resamplerSrst (m : Fin 192)
  /-- CHAIN_RUN_CLEAR (R112): Clearing DCH_CHn_CTL.RUN stops the chain and its resampler, making the channel known absent. -/
  | chainRunClear (n : Fin 48)
  /-- CHAIN_RUN_SET (R112): Setting DCH_CHn_CTL.RUN is checked, then restarts the chain and resampler and rejoins the waiting set. -/
  | chainRunSet (n : Fin 48)
  /-- RESAMPLER_RUN_CLEAR (R112): Clearing DCH_RSm_CTL.RUN stops one resampler and makes its channel known absent. -/
  | resamplerRunClear (m : Fin 192)
  /-- RESAMPLER_RUN_SET (R112): Setting DCH_RSm_CTL.RUN restarts the resampler's history and rejoins the waiting set. -/
  | resamplerRunSet (m : Fin 192)
  /-- NHB_WRITE (R113): A write of DCH_CHn_CFG.NHB is checked on a running chain or stored on a stopped one. -/
  | nhbWrite (n : Fin 48) (v : Fin 8)
  /-- NHB_CHANGE_EFFECT (R113): An accepted NHB change takes effect at the next HB1 output, restarting HB2 to HB5 and the resampler. -/
  | nhbChangeEffect (n : Fin 48)
  /-- RESAMPLER_SOURCE_WRITE (R93): A write of SRC or SRCSEL is refused if it duplicates a local source, otherwise restarts the resampler. -/
  | resamplerSourceWrite (m : Fin 192) (sv : Bool) (src : Fin 64)
  /-- SV_FRAME_RECEIVE (R124): A subscribed SV frame is checked in order, authenticated, timed and its ASDUs passed to FAB. -/
  | svFrameReceive (f : SvFrame)
  /-- SAMPLE_DEADLINE (R132): A sample's deadline passes without acceptance and the sample becomes missing. -/
  | sampleDeadline (n : Fin 64)
  /-- SV_SUB_CONFIG_WRITE (R123): A write to an RWL field of an enabled subscription puts it in WAIT as if re-enabled. -/
  | svSubConfigWrite (n : Fin 64) (r : SvReg) (v : BitVec 32)
  /-- SV_MAP_WRITE (R145): A change of SVI_MAPm restarts the channel's SV resampler. -/
  | svMapWrite (m : Fin 192) (en : Bool) (sub : Fin 64) (qty : Fin 32)
  /-- DIRECTORY_AGE_OUT (R139): An unlinked directory entry silent for AGE seconds is removed, or a linked one is marked SILENT. -/
  | directoryAgeOut (x : Fin 4096)
  /-- DIRECTORY_SNAPSHOT (R141): Every SNAP seconds the snapshot engine writes the directory to the alternate MRAM copy. -/
  | directorySnapshot
  /-- SNAPSHOT_REQUEST (R144): SVI_CTL.SNAPREQ starts a directory snapshot unless one is busy. -/
  | snapshotRequest
  /-- SNAPSHOT_COMPLETE (R141): A directory snapshot ends with its completion word. -/
  | snapshotComplete
  /-- DIRECTORY_FLUSH (R144): SVI_CTL.DIRFLUSH removes every entry not linked to a subscription. -/
  | directoryFlush
  /-- DIRECTORY_FETCH (R142): SVI_DIR_SEL.FETCH copies a directory entry into SVI_DIR_BUF and sets READY. -/
  | directoryFetch (x : Fin 4096)
  /-- FTG_CONFIG_WRITE (R148): A write of N, MODE or FNOM of an enabled FTG is checked against the rate rule. -/
  | ftgConfigWrite (g : Fin 4) (fixed : Bool) (fnom : Fin 2) (n : Fin 16)
  /-- FTG_CONFIG_EFFECT (R148): An accepted FTG change takes effect at the next cycle boundary, marking STEP and on a change of N restarting tick index and resamplers. -/
  | ftgConfigEffect (g : Fin 4)
  /-- TICK_DEADLINE (R163): A tick's effective deadline passes and triggers its close with fills. -/
  | tickDeadline (g : Fin 4)
  /-- GRID_CLOSE (R162): A tick's close trigger fills missing samples, writes the instant record, advances HEAD and notifies the tick. -/
  | gridClose (g : Fin 4)
  /-- C0_BUDGET_BREACH (R185): The class-0 budget counter reaches 1,200, aborting class 0 and blocking the core's TRIP outputs. -/
  | c0BudgetBreach (n : Fin 8)
  /-- BAY_MODE_REQUEST (R188): A write of ELCn_BAYj_MODE.REQ requests a bay mode for the next notification. -/
  | bayModeRequest (n : Fin 8) (j : Fin 3) (m : Fin 8)
  /-- BAY_REINIT_DONE (R189): The element-state rewrite after leaving OFF completes; sections resume at the next cycle boundary. -/
  | bayReinitDone (n : Fin 8) (j : Fin 3)
  /-- SETTING_GROUP_REQUEST (R190): A host or scheme write of ELCn_BAYj_SG.REQ requests a setting group. -/
  | settingGroupRequest (n : Fin 8) (j : Fin 3) (g : Fin 8)
  /-- CORE_BLOCK_RESET (R194): ELCn_CTL.BRST or a Privet reaction resets the core's B fields and starts its reload. -/
  | coreBlockReset (n : Fin 8)
  /-- CORE_RELOAD_DONE (R194): The core reload ends, setting RUN on success or FAILED with cause RELOAD. -/
  | coreReloadDone (n : Fin 8) (readOk : Bool)
  /-- NOP (R208): The all-zero syllable does nothing. -/
  | nop (k : CoreSel) (last : Bool)
  /-- ADD (R213): d = a + b modulo 2^32. -/
  | add (k : CoreSel) (g : Guard) (rd ra rb : SReg) (last : Bool)
  /-- SUB (R213): d = a − b modulo 2^32. -/
  | sub (k : CoreSel) (g : Guard) (rd ra rb : SReg) (last : Bool)
  /-- AND (R213): Bitwise and. -/
  | and (k : CoreSel) (g : Guard) (rd ra rb : SReg) (last : Bool)
  /-- OR (R213): Bitwise or. -/
  | or (k : CoreSel) (g : Guard) (rd ra rb : SReg) (last : Bool)
  /-- XOR (R213): Bitwise exclusive or. -/
  | xor (k : CoreSel) (g : Guard) (rd ra rb : SReg) (last : Bool)
  /-- ANDN (R213): d = a & ~b. -/
  | andn (k : CoreSel) (g : Guard) (rd ra rb : SReg) (last : Bool)
  /-- SLL (R213): Shift left by b & 31. -/
  | sll (k : CoreSel) (g : Guard) (rd ra rb : SReg) (last : Bool)
  /-- SRL (R213): Logical shift right by b & 31. -/
  | srl (k : CoreSel) (g : Guard) (rd ra rb : SReg) (last : Bool)
  /-- SRA (R213): Arithmetic shift right by b & 31. -/
  | sra (k : CoreSel) (g : Guard) (rd ra rb : SReg) (last : Bool)
  /-- SLT (R213): Signed set-less-than. -/
  | slt (k : CoreSel) (g : Guard) (rd ra rb : SReg) (last : Bool)
  /-- SLTU (R213): Unsigned set-less-than. -/
  | sltu (k : CoreSel) (g : Guard) (rd ra rb : SReg) (last : Bool)
  /-- MIN (R213): Signed minimum. -/
  | min (k : CoreSel) (g : Guard) (rd ra rb : SReg) (last : Bool)
  /-- MAX (R213): Signed maximum. -/
  | max (k : CoreSel) (g : Guard) (rd ra rb : SReg) (last : Bool)
  /-- MINU (R213): Unsigned minimum. -/
  | minu (k : CoreSel) (g : Guard) (rd ra rb : SReg) (last : Bool)
  /-- MAXU (R213): Unsigned maximum. -/
  | maxu (k : CoreSel) (g : Guard) (rd ra rb : SReg) (last : Bool)
  /-- MUL (R213): Low 32 bits of the product. -/
  | mul (k : CoreSel) (g : Guard) (rd ra rb : SReg) (last : Bool)
  /-- MULH (R213): High 32 bits of the signed product. -/
  | mulh (k : CoreSel) (g : Guard) (rd ra rb : SReg) (last : Bool)
  /-- MULHU (R213): High 32 bits of the unsigned product. -/
  | mulhu (k : CoreSel) (g : Guard) (rd ra rb : SReg) (last : Bool)
  /-- DIV (R214): Signed quotient with defined results for zero and overflow. -/
  | div (k : CoreSel) (g : Guard) (rd ra rb : SReg) (last : Bool)
  /-- DIVU (R214): Unsigned quotient with defined result for zero. -/
  | divu (k : CoreSel) (g : Guard) (rd ra rb : SReg) (last : Bool)
  /-- REM (R214): Signed remainder with defined results for exceptional operands. -/
  | rem (k : CoreSel) (g : Guard) (rd ra rb : SReg) (last : Bool)
  /-- REMU (R214): Unsigned remainder with defined result for zero. -/
  | remu (k : CoreSel) (g : Guard) (rd ra rb : SReg) (last : Bool)
  /-- CLZ (R213): Count leading zeros. -/
  | clz (k : CoreSel) (g : Guard) (rd ra : SReg) (last : Bool)
  /-- POPC (R213): Count set bits. -/
  | popc (k : CoreSel) (g : Guard) (rd ra : SReg) (last : Bool)
  /-- ADDI (R215): Add sign-extended immediate. -/
  | addi (k : CoreSel) (g : Guard) (rd ra : SReg) (imm : BitVec 12) (last : Bool)
  /-- ANDI (R215): And with zero-extended immediate. -/
  | andi (k : CoreSel) (g : Guard) (rd ra : SReg) (imm : BitVec 12) (last : Bool)
  /-- ORI (R215): Or with zero-extended immediate. -/
  | ori (k : CoreSel) (g : Guard) (rd ra : SReg) (imm : BitVec 12) (last : Bool)
  /-- XORI (R215): Exclusive or with zero-extended immediate. -/
  | xori (k : CoreSel) (g : Guard) (rd ra : SReg) (imm : BitVec 12) (last : Bool)
  /-- SLLI (R215): Shift left by immediate. -/
  | slli (k : CoreSel) (g : Guard) (rd ra : SReg) (sh : Fin 32) (last : Bool)
  /-- SRLI (R215): Logical shift right by immediate. -/
  | srli (k : CoreSel) (g : Guard) (rd ra : SReg) (sh : Fin 32) (last : Bool)
  /-- SRAI (R215): Arithmetic shift right by immediate. -/
  | srai (k : CoreSel) (g : Guard) (rd ra : SReg) (sh : Fin 32) (last : Bool)
  /-- LI (R215): Load sign-extended 21-bit immediate. -/
  | li (k : CoreSel) (rd : SReg) (imm : BitVec 21) (last : Bool)
  /-- LIH (R215): Load the upper half, keeping the lower half. -/
  | lih (k : CoreSel) (rd : SReg) (imm : BitVec 16) (last : Bool)
  /-- FLI (R215): Load the upper 21 bits of a binary32 constant. -/
  | fli (k : CoreSel) (rd : SReg) (imm : BitVec 21) (last : Bool)
  /-- CMP_EQ (R216): Predicate from a == b. -/
  | cmpEq (k : CoreSel) (g : Guard) (pd : PReg) (ra rb : SReg) (last : Bool)
  /-- CMP_NE (R216): Predicate from a != b. -/
  | cmpNe (k : CoreSel) (g : Guard) (pd : PReg) (ra rb : SReg) (last : Bool)
  /-- CMP_LT (R216): Predicate from signed a < b. -/
  | cmpLt (k : CoreSel) (g : Guard) (pd : PReg) (ra rb : SReg) (last : Bool)
  /-- CMP_GE (R216): Predicate from signed a >= b. -/
  | cmpGe (k : CoreSel) (g : Guard) (pd : PReg) (ra rb : SReg) (last : Bool)
  /-- CMP_LTU (R216): Predicate from unsigned a < b. -/
  | cmpLtu (k : CoreSel) (g : Guard) (pd : PReg) (ra rb : SReg) (last : Bool)
  /-- CMP_GEU (R216): Predicate from unsigned a >= b. -/
  | cmpGeu (k : CoreSel) (g : Guard) (pd : PReg) (ra rb : SReg) (last : Bool)
  /-- PAND (R216): Predicate and. -/
  | pand (k : CoreSel) (g : Guard) (pd pa pb : PReg) (last : Bool)
  /-- POR (R216): Predicate or. -/
  | por (k : CoreSel) (g : Guard) (pd pa pb : PReg) (last : Bool)
  /-- PXOR (R216): Predicate exclusive or. -/
  | pxor (k : CoreSel) (g : Guard) (pd pa pb : PReg) (last : Bool)
  /-- PANDN (R216): Predicate and-not. -/
  | pandn (k : CoreSel) (g : Guard) (pd pa pb : PReg) (last : Bool)
  /-- PNOT (R216): Predicate not. -/
  | pnot (k : CoreSel) (g : Guard) (pd pa : PReg) (last : Bool)
  /-- BR (R217): Relative branch under guard, popping loop entries when leaving them. -/
  | br (k : CoreSel) (g : Guard) (off : BitVec 21) (last : Bool)
  /-- CALL (R217): Relative call pushing the return address. -/
  | call (k : CoreSel) (g : Guard) (off : BitVec 21) (last : Bool)
  /-- JR (R217): Jump to the register address. -/
  | jr (k : CoreSel) (g : Guard) (ra : SReg) (last : Bool)
  /-- CALLR (R217): Call the register address. -/
  | callr (k : CoreSel) (g : Guard) (ra : SReg) (last : Bool)
  /-- RET (R217): Pop the return stack into pc. -/
  | ret (k : CoreSel) (g : Guard) (last : Bool)
  /-- LOOP (R218): Run the following body n times using the loop stack. -/
  | loop (k : CoreSel) (rs : SReg) (count : BitVec 12) (body : BitVec 9) (last : Bool)
  /-- FADD (R219): Binary32 add. -/
  | fadd (k : CoreSel) (g : Guard) (rd ra rb : SReg) (last : Bool)
  /-- FSUB (R219): Binary32 subtract. -/
  | fsub (k : CoreSel) (g : Guard) (rd ra rb : SReg) (last : Bool)
  /-- FMUL (R219): Binary32 multiply. -/
  | fmul (k : CoreSel) (g : Guard) (rd ra rb : SReg) (last : Bool)
  /-- FDIV (R219): Binary32 divide. -/
  | fdiv (k : CoreSel) (g : Guard) (rd ra rb : SReg) (last : Bool)
  /-- FSQRT (R219): Binary32 square root. -/
  | fsqrt (k : CoreSel) (g : Guard) (rd ra : SReg) (last : Bool)
  /-- FABS (R219): Clear the sign bit. -/
  | fabs (k : CoreSel) (g : Guard) (rd ra : SReg) (last : Bool)
  /-- FNEG (R219): Invert the sign bit. -/
  | fneg (k : CoreSel) (g : Guard) (rd ra : SReg) (last : Bool)
  /-- FMIN (R219): Binary32 minimum with defined NaN and zero handling. -/
  | fmin (k : CoreSel) (g : Guard) (rd ra rb : SReg) (last : Bool)
  /-- FMAX (R219): Binary32 maximum with defined NaN and zero handling. -/
  | fmax (k : CoreSel) (g : Guard) (rd ra rb : SReg) (last : Bool)
  /-- FCVT_WS (R219): Saturating binary32 to i32 toward zero. -/
  | fcvtWs (k : CoreSel) (g : Guard) (rd ra : SReg) (last : Bool)
  /-- FCVT_SW (R219): i32 to binary32. -/
  | fcvtSw (k : CoreSel) (g : Guard) (rd ra : SReg) (last : Bool)
  /-- FCVT_SWU (R219): u32 to binary32. -/
  | fcvtSwu (k : CoreSel) (g : Guard) (rd ra : SReg) (last : Bool)
  /-- FMADD (R219): d = d + a × b with one rounding. -/
  | fmadd (k : CoreSel) (g : Guard) (rd ra rb : SReg) (last : Bool)
  /-- FMSUB (R219): d = d − a × b with one rounding. -/
  | fmsub (k : CoreSel) (g : Guard) (rd ra rb : SReg) (last : Bool)
  /-- FCMP_EQ (R219): Predicate from a == b. -/
  | fcmpEq (k : CoreSel) (g : Guard) (pd : PReg) (ra rb : SReg) (last : Bool)
  /-- FCMP_LT (R219): Predicate from a < b. -/
  | fcmpLt (k : CoreSel) (g : Guard) (pd : PReg) (ra rb : SReg) (last : Bool)
  /-- FCMP_LE (R219): Predicate from a <= b. -/
  | fcmpLe (k : CoreSel) (g : Guard) (pd : PReg) (ra rb : SReg) (last : Bool)
  /-- FCMP_UN (R219): Predicate true if either operand is NaN. -/
  | fcmpUn (k : CoreSel) (g : Guard) (pd : PReg) (ra rb : SReg) (last : Bool)
  /-- CADD (R220): Complex add. -/
  | cadd (n : Fin 8) (g : Guard) (cd ca cb : CReg) (last : Bool)
  /-- CSUB (R220): Complex subtract. -/
  | csub (n : Fin 8) (g : Guard) (cd ca cb : CReg) (last : Bool)
  /-- CMUL (R220): Complex multiply with defined rounding. -/
  | cmul (n : Fin 8) (g : Guard) (cd ca cb : CReg) (last : Bool)
  /-- CMULC (R220): Complex multiply by the conjugate. -/
  | cmulc (n : Fin 8) (g : Guard) (cd ca cb : CReg) (last : Bool)
  /-- CCONJ (R220): Complex conjugate. -/
  | cconj (n : Fin 8) (g : Guard) (cd ca : CReg) (last : Bool)
  /-- CSCALE (R220): Scale a complex value by a scalar. -/
  | cscale (n : Fin 8) (g : Guard) (cd ca : CReg) (rb : SReg) (last : Bool)
  /-- CMAG2 (R220): Squared magnitude. -/
  | cmag2 (n : Fin 8) (g : Guard) (rd : SReg) (ca : CReg) (last : Bool)
  /-- CABS (R220): Magnitude, correctly rounded. -/
  | cabs (n : Fin 8) (g : Guard) (rd : SReg) (ca : CReg) (last : Bool)
  /-- CARG (R220): Argument in (−π, π] with defined zero and NaN cases. -/
  | carg (n : Fin 8) (g : Guard) (rd : SReg) (ca : CReg) (last : Bool)
  /-- CRE (R220): Real part. -/
  | cre (n : Fin 8) (g : Guard) (rd : SReg) (ca : CReg) (last : Bool)
  /-- CIM (R220): Imaginary part. -/
  | cim (n : Fin 8) (g : Guard) (rd : SReg) (ca : CReg) (last : Bool)
  /-- CPACK (R220): Pack two scalars into a complex register. -/
  | cpack (n : Fin 8) (g : Guard) (cd : CReg) (ra rb : SReg) (last : Bool)
  /-- LD_W (R222): Load a word from the PE or SL data map. -/
  | ldW (k : CoreSel) (g : Guard) (rd ra : SReg) (imm : BitVec 12) (last : Bool)
  /-- ST_W (R222): Store a word to the data map. -/
  | stW (k : CoreSel) (g : Guard) (rd ra : SReg) (imm : BitVec 12) (last : Bool)
  /-- LD_C (R222): Load a complex pair. -/
  | ldC (n : Fin 8) (g : Guard) (cd : CReg) (ra : SReg) (imm : BitVec 12) (last : Bool)
  /-- ST_C (R222): Store a complex pair. -/
  | stC (n : Fin 8) (g : Guard) (cd : CReg) (ra : SReg) (imm : BitVec 12) (last : Bool)
  /-- LDG (R223): Load a grid sample and flag byte by immediate channel and age. -/
  | ldg (n : Fin 8) (g : Guard) (rd : SReg) (ch : Fin 24) (age : Fin 256) (last : Bool)
  /-- LDGR (R223): Load a grid sample and flag byte by register channel and age. -/
  | ldgr (n : Fin 8) (g : Guard) (rd ra rb : SReg) (last : Bool)
  /-- VWR (R225): Write a verdict word under the class's write mask, staging class-0 changes. -/
  | vwr (n : Fin 8) (g : Guard) (rs : SReg) (off : BitVec 12) (last : Bool)
  /-- VSET (R225): Set verdict bits under the write mask, staging class-0 changes. -/
  | vset (n : Fin 8) (g : Guard) (rs : SReg) (off : BitVec 12) (last : Bool)
  /-- VCLR (R225): Clear verdict bits under the write mask, staging class-0 changes. -/
  | vclr (n : Fin 8) (g : Guard) (rs : SReg) (off : BitVec 12) (last : Bool)
  /-- VRD (R226): Read a word of the section's verdict record. -/
  | vrd (n : Fin 8) (g : Guard) (rd : SReg) (off : BitVec 12) (last : Bool)
  /-- TICK_END (R227): End the running section. -/
  | tickEnd (n : Fin 8) (g : Guard) (last : Bool)
  /-- RDSR (R227): Read a tick-context or section item. -/
  | rdsr (n : Fin 8) (g : Guard) (rd : SReg) (item : Fin 13) (last : Bool)
  /-- PH_RD (R244): Read a phasor, cosine-filter phasor or window-flag vector from the result store. -/
  | phRd (n : Fin 8) (g : Guard) (cd : CReg) (ch : Fin 32) (h : Fin 16) (cos : Bool) (last : Bool)
  /-- CV_STEP (R250): Advance a curve instance's time-dose accumulator by one tick. -/
  | cvStep (n : Fin 8) (g : Guard) (rd ra : SReg) (x : Fin 32) (last : Bool)
  /-- CV_RD (R250): Read a curve accumulator. -/
  | cvRd (n : Fin 8) (g : Guard) (rd : SReg) (x : Fin 32) (last : Bool)
  /-- CV_CLR (R228): Clear a curve accumulator. -/
  | cvClr (n : Fin 8) (g : Guard) (x : Fin 32) (last : Bool)
  /-- CV_SET (R250): Set a curve accumulator from a clamped scalar. -/
  | cvSet (n : Fin 8) (g : Guard) (x : Fin 32) (ra : SReg) (last : Bool)
  /-- SQ_SEQ (R246): Form zero, positive and negative sequence components. -/
  | sqSeq (n : Fin 8) (g : Guard) (cd ca : CReg) (last : Bool)
  /-- SQ_PWR (R247): Form three-phase complex power. -/
  | sqPwr (n : Fin 8) (g : Guard) (cd ca cb : CReg) (last : Bool)
  /-- SQ_PWR1 (R247): Form single-phase complex power. -/
  | sqPwr1 (n : Fin 8) (g : Guard) (cd ca cb : CReg) (last : Bool)
  /-- ILD (R229): Load an input-image word. -/
  | ild (g : Guard) (rd : SReg) (w : BitVec 12)
  /-- IST (R229): Store a staging output-image word. -/
  | ist (g : Guard) (w : BitVec 12) (rs : SReg)
  /-- ILDB (R229): Load an input-image bit into a predicate. -/
  | ildb (g : Guard) (pd : PReg) (w : BitVec 12) (b : Fin 32)
  /-- ISTB (R229): Store a predicate into a staging output-image bit. -/
  | istb (g : Guard) (w : BitVec 12) (b : Fin 32) (ps : PReg)
  /-- TON (R230): Evaluate an on-delay timer. -/
  | ton (g : Guard) (pd pa : PReg) (t : Fin 2048)
  /-- TOF (R230): Evaluate an off-delay timer. -/
  | tof (g : Guard) (pd pa : PReg) (t : Fin 2048)
  /-- TPL (R230): Evaluate a non-retriggerable pulse timer. -/
  | tpl (g : Guard) (pd pa : PReg) (t : Fin 2048)
  /-- TPRE (R230): Set a timer's preset. -/
  | tpre (g : Guard) (t : Fin 2048) (rs : SReg)
  /-- TEL (R230): Read a timer's elapsed time. -/
  | tel (g : Guard) (rd : SReg) (t : Fin 2048)
  /-- TRST (R230): Clear a timer's run, q and prev. -/
  | trst (g : Guard) (t : Fin 2048)
  /-- EDG (R231): Evaluate an edge detector. -/
  | edg (g : Guard) (pd pa : PReg) (e : Fin 4096) (kind : Fin 3)
  /-- TK_END (R285): End the SL instance, committing changed output points and journalling. -/
  | tkEnd (g : Guard)
  /-- TK_ACT (R232): Request activation of an event task at commit. -/
  | tkAct (g : Guard) (n : Fin 16)
  /-- RDTIME (R232): Read the instance's now in µs. -/
  | rdtime (g : Guard) (rd : SReg)
  /-- BMX_OR (R232): Bit-matrix or-form logic. -/
  | bmxOr (g : Guard) (rd ra rb : SReg)
  /-- BMX_AND (R232): Bit-matrix and-form logic. -/
  | bmxAnd (g : Guard) (rd ra rb : SReg)
  /-- MIN_PULSE_END (R259): A TRIP output's minimum-pulse stretch counter reaches zero. -/
  | minPulseEnd (o : Fin 48)
  /-- READBACK_MISMATCH (R261): A TRIP pad readback mismatch persists 1 µs, raising THN_RB and setting its bit. -/
  | readbackMismatch (o : Fin 48)
  /-- BIN_EDGE (R263): A synchronised binary-input edge starts or breaks a debounce interval. -/
  | binEdge (x : Fin 64) (pin : Bool)
  /-- BIN_DEBOUNCE_ACCEPT (R263): A level held for the debounce time is accepted, stamped and queued. -/
  | binDebounceAccept (x : Fin 64)
  /-- BIN_CHATTER_THAW (R264): A 1 s interval without edges thaws a frozen input, queueing a CHATREL change if needed. -/
  | binChatterThaw (x : Fin 64)
  /-- BIN_EVENT_POP (R265): THN_BEV_POP removes the oldest binary-input event. -/
  | binEventPop
  /-- GPO_HOST_WRITE (R267): A write of THN_GPO_HOSTW drives host-owned GPO pads. -/
  | gpoHostWrite (v : BitVec 16)
  /-- LOCKSTEP_MISMATCH (R273): SC0 and SC1 disagree; the pair halts, scheme outputs are forced to 0 and LOCKSTEP is raised. -/
  | lockstepMismatch
  /-- SCHEME_BLOCK_RESET (R274): SCH_CTL.BRST or a Privet reaction resets SC and starts its reload. -/
  | schemeBlockReset
  /-- SCHEME_RELOAD_DONE (R274): The SC reload ends and the scheme restarts warm or cold, or stays HALTED on failure. -/
  | schemeReloadDone (readOk : Bool)
  /-- MAJOR_FRAME_START (R277): A major frame starts on TB2, incrementing SCH_FCNT. -/
  | majorFrameStart
  /-- TASK_RELEASE_PERIODIC (R277): A periodic task is released at its TB2 instant. -/
  | taskReleasePeriodic (t : Fin 16)
  /-- TK0_RELEASE (R278): TK0 is released when the tick's snapshots reach SCH or the next notification arrives. -/
  | tk0Release (tick : Nat)
  /-- EVENT_TASK_TRIGGER (R279): An event task's trigger source activates it. -/
  | eventTaskTrigger
  /-- TASK_HOST_ACTIVATE (R279): SCH_TKn_ACT.ACT activates an event task. -/
  | taskHostActivate (t : Fin 16)
  /-- TASK_DISPATCH (R283): An instance is dispatched and latches its input image. -/
  | taskDispatch
  /-- TASK_BUDGET_EXPIRY (R281): An instance exceeds its budget and ends without commit. -/
  | taskBudgetExpiry
  /-- JOURNAL_RECORD_DURABLE (R288): A journal record becomes durable and the task's next instance may dispatch. -/
  | journalRecordDurable
  /-- CHECKPOINT_COMPLETE (R289): A checkpoint completes into the other copy. -/
  | checkpointComplete
  /-- EXCHANGE_REQUEST (R293): SCH_EXCH_CTL.REQ starts an on-line image exchange in CHECKING. -/
  | exchangeRequest
  /-- EXCHANGE_CHECK_DONE (R294): CHECKING ends, refusing the image or entering PRELOAD. -/
  | exchangeCheckDone (sigOk readOk tablesOk : Bool) (x : Image)
  /-- EXCHANGE_PRELOAD_DONE (R295): Preload completes and the exchange is READY. -/
  | exchangePreloadDone
  /-- EXCHANGE_BOUNDARY (R296): At the switch boundary new instances are held while running ones complete. -/
  | exchangeBoundary
  /-- EXCHANGE_QUIESCE_TIMEOUT (R297): Instances not ended within 1 ms defer the switch; the eighth deferral ends with QUIESCE. -/
  | exchangeQuiesceTimeout
  /-- EXCHANGE_SWITCH (R298): With all instances ended the switch carries state, swaps tables and dispatches held releases. -/
  | exchangeSwitch
  /-- EXCHANGE_CANCEL (R301): SCH_EXCH_CTL.CANCEL ends an exchange before SWITCHING. -/
  | exchangeCancel
  /-- LINK_DOWN (R307): A port loses lock; it goes down, flushes its queues and logs NET_LINK_DOWN. -/
  | linkDown (p : Fin 3)
  /-- LINK_UP (R307): After 10 ms of unbroken lock a port comes up and logs NET_LINK_UP. -/
  | linkUp (p : Fin 3)
  /-- FRAME_RECEIVE (R310): A frame received on a port is forwarded and delivered to internal ports by class. -/
  | frameReceive (p : Fin 3) (f : Frame)
  /-- DUP_ENTRY_EXPIRE (R313): A duplicate-discard entry is forgotten 400 ms after creation. -/
  | dupEntryExpire (src : Nat) (seq : Fin 65536)
  /-- SUPERVISION_SEND (R314): A supervision frame is sent every INTV ms on both ports. -/
  | supervisionSend
  /-- EGRESS_TRANSMIT (R318): A port starts transmitting the next frame by strict priority among open gates. -/
  | egressTransmit (x : Fin 3 × Fin 8)
  /-- GATE_ENTRY_ADVANCE (R319): A gate control list entry's interval ends and the next entry's gate states apply. -/
  | gateEntryAdvance (p : Fin 3)
  /-- GATE_LIST_SWAP (R319): NET_Pp_GCTL.SWAP makes the inactive bank active at the change time. -/
  | gateListSwap (p : Fin 3)
  /-- GATE_LIST_STOP (R341): NET_Pp_GCTL.STOP deactivates the lists at the next cycle start. -/
  | gateListStop (p : Fin 3)
  /-- PREEMPT_VERIFY (R321): The 802.3br verify exchange succeeds or times out, setting VSTATE. -/
  | preemptVerify (p : Fin 3) (ok : Bool)
  /-- GOOSE_C0_WORD_READ (R326): The GOOSE engine reads class-0 words and builds one GCB0 frame into queue 7, removing older unsent ones. -/
  | gooseC0WordRead
  /-- GOOSE_BUILD (R326): A changed GCB1 to GCB127 member starts a new state frame on the second encoder. -/
  | gooseBuild (c : Fin 128)
  /-- GOOSE_RETRANSMIT (R328): A retransmission falls due on the ladder and is sent with incremented sqNum. -/
  | gooseRetransmit (c : Fin 128)
  /-- GOOSE_FRAME_RECEIVE (R331): A subscribed GOOSE frame is checked and handled by stNum and sqNum. -/
  | gooseFrameReceive (f : GFrame)
  /-- GOOSE_EXPIRED (R332): A subscription's time allowed to live plus margin passes and it becomes EXPIRED. -/
  | gooseExpired (n : Fin 1024)
  /-- BEACON_SEND (R334): A beacon is sent once per second of TB2. -/
  | beaconSend
  /-- BEACON_RECEIVE (R336): A received beacon is checked and updates the directory and clash check. -/
  | beaconReceive (f : Beacon)
  /-- HOST_TX_DESCRIPTOR (R338): A host TX descriptor is taken, refused or sent, and its status written. -/
  | hostTxDescriptor
  /-- COARSE_CLOCK_LOAD (R345): At each whole second of active time following a LOCKED base the coarse clock is loaded. -/
  | coarseClockLoad
  /-- PDELAY_REQ_SEND (R353): A port sends Pdelay_Req every 2^LOGINT s. -/
  | pdelayReqSend (p : Fin 3)
  /-- PDELAY_REQ_RECEIVE (R353): A received Pdelay_Req is answered with a one-step Pdelay_Resp. -/
  | pdelayReqReceive (m : PdReq)
  /-- PDELAY_RESP_RECEIVE (R353): A response updates the port's link delay and rate ratio. -/
  | pdelayRespReceive (p : Fin 3) (m : PdResp)
  /-- SYNC_RECEIVE (R355): A usable Sync yields an offset that passes the guard and servo or steps the base. -/
  | syncReceive (m : SyncMsg)
  /-- FOLLOW_UP_RECEIVE (R352): A Follow_Up is paired with its Sync to complete a two-step offset. -/
  | followUpReceive (m : FollowUp)
  /-- PATH_SLEW_END (R359): A path slew completes and PATHSLEW clears. -/
  | pathSlewEnd (b : Fin 4)
  /-- SYNC_TIMEOUT (R360): No offset accepted for SYNCTO puts the base in HOLDOVER. -/
  | syncTimeout (b : Fin 4)
  /-- HOLDOVER_TIMEOUT (R360): After HOLDMAX in HOLDOVER the base enters NOMASTER. -/
  | holdoverTimeout (b : Fin 4)
  /-- MASTER_SELECT (R351): A write of MID, MPN or PORT selects a base's master from the next Sync. -/
  | masterSelect (b : Fin 4) (w : MasterSel) (v : BitVec 32)
  /-- TIME_DOMAIN_SWITCH (R362): A write of TIM_ACT.SEL switches active time immediately or by slew. -/
  | timeDomainSwitch (sel : Fin 2)
  /-- SWITCH_SLEW_END (R362): The residual reaches zero and SLEWING clears. -/
  | switchSlewEnd
  /-- BASE_SET (R373): TIM_TBb_CTL.SET loads SETV into a free-running base as a time step. -/
  | baseSet (b : Fin 4)
  /-- BASE_REACQUIRE (R373): TIM_TBb_CTL.REACQ puts the base in ACQUIRE at the next usable offset. -/
  | baseReacquire (b : Fin 4)
  /-- TPO_ARM (R367): TIM_TPOk_CTL.ARM arms a pulse output or reports it late. -/
  | tpoArm (k : Fin 8)
  /-- TPO_DISARM (R375): TIM_TPOk_CTL.DISARM stops the output after any pulse in progress. -/
  | tpoDisarm (k : Fin 8)
  /-- TPO_EDGE (R366): A pulse output reaches its edge instant or E + WID and switches level. -/
  | tpoEdge (k : Fin 8)
  /-- TCI_CAPTURE (R369): A TCI edge is stamped, queued and passed to scheme triggers and REC. -/
  | tciCapture (x : Fin 8) (rise : Bool)
  /-- TCI_POP (R375): TIM_TCI_POP removes the oldest capture. -/
  | tciPop
  /-- PPS_EDGE (R370): A PPS_IN edge yields a TB3 offset for its servo. -/
  | ppsEdge (rise : Bool)
  /-- FAST_ROW (R376): A fast-mode acquisition unit forms a row every 64 fm edges and evaluates triggers and masks. -/
  | fastRow (u : Fin 4)
  /-- REC_RECORD_END (R388): A record's last row is written; the header completes and hold-off starts. -/
  | recRecordEnd (u : Fin 4)
  /-- REC_HOLDOFF_END (R388): Hold-off ends by time or count and the AU enters READY or FILL. -/
  | recHoldoffEnd (u : Fin 4)
  /-- REC_ARM (R386): REC_AUu_CTL.ARM checks the configuration and enters FILL. -/
  | recArm (u : Fin 4) (edge : Fin 64)
  /-- REC_DISARM (R386): REC_AUu_CTL.DISARM truncates any record and returns to IDLE. -/
  | recDisarm (u : Fin 4)
  /-- REC_HOST_TRIGGER (R395): REC_AUu_CTL.HTRIG fires kind-7 trigger units. -/
  | recHostTrigger (u : Fin 4)
  /-- REC_PIN (R391): A write of REC_AUu_PIN pins or unpins record slots, unstalling the AU. -/
  | recPin (u : Fin 4) (v : BitVec 16)
  /-- YEW_EVENT_ADMIT (R401): An event reaching Yew is admitted with the next sequence number, merged or lost. -/
  | yewEventAdmit (k : Nat)
  /-- YEW_RECORD_WRITTEN (R405): The head record's valid mark is written and it leaves the FIFO. -/
  | yewRecordWritten
  /-- YEW_SCAN_END (R406): The boot scan ends, setting NEXT and OLDEST and numbering waiting entries. -/
  | yewScanEnd
  /-- YEW_FETCH (R407): YEW_RD_SEL_HI.FETCH copies a record and classifies it in RESULT. -/
  | yewFetch
  /-- YEW_CLEAR_GO (R408): YEW_CLR_CMD.GO starts verification of a clear token. -/
  | yewClearGo
  /-- YEW_CLEAR_VERIFY_DONE (R408): Token verification ends, renewing the nonce and clearing or refusing. -/
  | yewClearVerifyDone (sigOk : Bool)
  /-- YEW_ZEROING_DONE (R409): Zeroing of cleared slots' valid marks completes. -/
  | yewZeroingDone
  /-- PRIVET_FAULT_OCCURRENCE (R416): A fault-line occurrence reaches Privet, which records, classes and reacts to it. -/
  | privetFaultOccurrence (occs : List (Fin 25 × BitVec 32))
  /-- CROSSING_STALL (R413): A crossing FIFO holds an entry unread for 100 µs and XWD is raised. -/
  | crossingStall (k : Fin 22)
  /-- CONSEQ_WINDOW_CLOSE (R427): A block reset's consequential window closes 10 µs after the target leaves RELOAD. -/
  | conseqWindowClose (t : Fin 9)
  /-- BAY_BLOCK_CLEAR (R418): A W1C write of PRV_BAYBLK unblocks bays unless a live level source or safe state forbids. -/
  | bayBlockClear (mask : BitVec 24)
  /-- SAFE_REQUEST (R431): PRV_CTL.SAFEREQ enters safe state. -/
  | safeRequest
  /-- FIRST_FAULT_REARM (R423): PRV_FF_CTL.REARM releases the first-fault capture. -/
  | firstFaultRearm
  /-- PRIVET_SELFCHECK (R430): A copy or parity difference in Privet configuration forces safe state. -/
  | privetSelfcheck
  /-- ALIVE_TOGGLE (R434): ALIVE's half-period expires and it toggles or holds by mode. -/
  | aliveToggle
  /-- TEMPERATURE_CROSSING (R548): Tj crosses the warning or critical threshold and the TMON item becomes live or ends. -/
  | temperatureCrossing (tj : BitVec 9)
  /-- SUPPLY_RAIL_FAULT (R528): A rail stays outside its monitor window over 2 µs and raises VMON_SUP. -/
  | supplyRailFault (r : Fin 10)
  /-- ATTEST (R440): SEC_CMD ATTEST signs an attestation report over the challenge. -/
  | attest
  /-- ADVANCE (R443): A token command moving PROVISIONED to FIELD. -/
  | advance
  /-- REKEY (R443): A token command replacing the owner key. -/
  | rekey
  /-- RMA (R443): A token command moving FIELD to RMA and zeroing key slots. -/
  | rma
  /-- MINVER (R443): A token command raising the minimum image version. -/
  | minver
  /-- STAGE (R445): SEC_CMD STAGE zeroes the inactive slot header, copies and verifies an image. -/
  | stage
  /-- ENROLL (R442): SEC_CMD ENROLL stores the owner key and enters PROVISIONED. -/
  | enroll
  /-- KEYLOAD (R447): SEC_CMD KEYLOAD loads a slot's next key and rollover instant. -/
  | keyload
  /-- KEYCLR (R447): SEC_CMD KEYCLR empties all keys of the selected slot. -/
  | keyclr
  /-- SEC_OPERATION_DONE (R453): A SEC operation completes, SEC_RES is set and BUSY falls. -/
  | secOperationDone (ok : Bool)
  /-- KEY_ROLLOVER (R448): Active time reaches T and the slot's keys roll over. -/
  | keyRollover (k : Fin 256)
  /-- TAMPER_SENSOR (R450): A tamper sensor becomes active, records it and raises SEC_TAMPER. -/
  | tamperSensor (k : Fin 5)
  /-- RST_N_ASSERT (R455): RST_N held low starts SYS, or exits HIBERNATE. -/
  | rstNAssert
  /-- SYSREQ (R475): GLB_RST.SYSREQ asserts SYS. -/
  | sysreq
  /-- WATCHDOG_EXPIRY (R457): No refresh for TO asserts WDR. -/
  | watchdogExpiry
  /-- RESET_RELEASE (R459): The reset hold ends and boot starts with PD0, PLLs and straps. -/
  | resetRelease (straps : Fin 4)
  /-- IMAGE_VERIFY_DONE (R459): SEC finishes verifying a slot and proceeds to load, the other slot or maintenance. -/
  | imageVerifyDone (sigOk : Bool)
  /-- IMAGE_LOAD_DONE (R461): The load engine finishes or refuses the sections. -/
  | imageLoadDone (readOk tablesOk : Bool) (x : Image)
  /-- STANDBY_REQUEST (R469): GLB_PWR.REQ STANDBY starts entry to STANDBY. -/
  | standbyRequest
  /-- HIBERNATE_REQUEST (R471): GLB_PWR.REQ HIBERNATE starts entry to HIBERNATE. -/
  | hibernateRequest
  /-- RUN_REQUEST (R470): GLB_PWR.REQ RUN starts the return from STANDBY. -/
  | runRequest
  /-- POWER_TRANSITION_DONE (R469): A power-state transition completes its steps. -/
  | powerTransitionDone
  /-- HIBERNATE_WAKE (R471): The coarse clock reaches GLB_WAKE and the device wakes. -/
  | hibernateWake (straps : Fin 4)
  /-- TWIN_FRAME_SEND (R480): A twin frame for a cycle is sent once snapshots arrive or 2 ms pass. -/
  | twinFrameSend
  /-- TWIN_IDLE_FRAME_SEND (R481): While the FTG closes no ticks a twin frame is sent every 20 ms. -/
  | twinIdleFrameSend
  /-- TWIN_FRAME_RECEIVE (R485): A partner twin frame is checked, updates mode and points and judges windows. -/
  | twinFrameReceive (f : TwinFrame)
  /-- TWIN_RELEARN (R486): TWN_CTL.RELEARN forgets the learned partner ID. -/
  | twinRelearn
  /-- TWIN_SILENT_EXPIRY (R488): SILENT ms without an accepted frame puts the cross-check in LOST. -/
  | twinSilentExpiry
  /-- TWIN_WINDOW_DEADLINE (R491): A window's deadline passes with a frame missing and it is counted unchecked. -/
  | twinWindowDeadline
  /-- TWN_MIXED (R496): Every 3,600 s continuously in MONITOR for differing identities is logged. -/
  | twnMixed
  /-- PERST_ASSERT (R503): PERST_N low resets the PCIe controller and configuration space only. -/
  | perstAssert
  /-- HOST_LINK_CHANGE (R503): The PCIe link goes down or up, updating HST_STAT and logging it. -/
  | hostLinkChange (up : Bool) (speed : LinkCfg) (width : Fin 4)
  /-- BAR2_WRITE (R507): A BAR2 write updates DRAM with ECC, using read-modify-write for partial words. -/
  | bar2Write (x : Nat) (l : List (Option (BitVec 8)))
  /-- RING_INDEX_WRITE (R513): A host write of a ring's PROD or CONS is checked and applied. -/
  | ringIndexWrite (r : Fin 4) (prod : Bool) (v : BitVec 32)
  /-- RING_IRQ_HOLDOFF_END (R515): A ring's interrupt holdoff ends and a pending vector fires. -/
  | ringIrqHoldoffEnd (r : Fin 4)
  /-- MSPI_WRITE_BAR0 (R517): MSPI command 0x01 writes BAR0 words after a good CRC. -/
  | mspiWriteBar0 (a : BitVec 32) (l : List (BitVec 32)) (crc : BitVec 8) (quick : Nat)
  /-- MSPI_READ_BAR0 (R517): MSPI command 0x02 reads BAR0 words. -/
  | mspiReadBar0 (a : BitVec 32) (n : Fin 64) (crc : BitVec 8) (quick : Bool)
  /-- MSPI_WRITE_DRAM (R517): MSPI command 0x03 writes DRAM within the host-ring area. -/
  | mspiWriteDram (a : BitVec 32) (l : List (BitVec 32)) (crc : BitVec 8) (quick : Nat)
  /-- MSPI_READ_DRAM (R517): MSPI command 0x04 reads DRAM. -/
  | mspiReadDram (a : BitVec 32) (n : Fin 64) (crc : BitVec 8) (quick : Bool)
  /-- MSPI_STATUS (R517): MSPI command 0x05 returns the status word. -/
  | mspiStatus (a : MspiHead) (n : Fin 64) (crc : BitVec 8) (quick : Bool)
  /-- DRAM_TRAINING_DONE (R519): DRAM training ends, setting TRAINED or FAIL. -/
  | dramTrainingDone (ok : Bool) (density : Nat)
  /-- POR_ASSERT (R454): PORST_N held low, or the PD0 supply rising through its threshold, resets the whole device, PD0 included. -/
  | porAssert
  /-- SUPPLY_RAIL_RECOVER (R548): A supply rail returns inside its monitor window and its VMON_SUP item stops being live. -/
  | supplyRailRecover (r : Fin 10)
  /-- TAMPER_SENSOR_CLEAR (R450): A tamper sensor becomes inactive, clearing its SEC_TAMP.LIVE bit and ending its SEC_TAMPER item. -/
  | tamperSensorClear (k : Fin 5)
  /-- READBACK_MISMATCH_END (R548): A TRIP pad's readback again matches its pad term, ending the output's THN_RB live item. -/
  | readbackMismatchEnd (o : Fin 48)
  /-- RETIRING_KEY_EXPIRY (R448): Active time reaches T + GRACE, the retiring key of a slot expires and SEC_KSTAT.RET clears. -/
  | retiringKeyExpiry (k : Fin 256)
  /-- FAST_TAP_VALUE (R67): An HB1 output completes a fast-tap value, which updates the input's accumulators and min-max tracker and adds a pair to any checker dwell. -/
  | fastTapValue (n : Fin 48) (bits cbits : List Bool)
  /-- DIAGNOSTIC_PORT_READ (R161): A host read of the Espalier planes or EC memories through the diagnostic port checks parity and raises ESP_PAR on an error. -/
  | diagnosticPortRead (d : DiagSel)
  /-- BAR2_READ (R506): A BAR2 read returns DRAM bytes, writing back corrected ECC errors and completing poisoned, counted and logged on an uncorrectable one. -/
  | bar2Read (x n : Nat)
  deriving DecidableEq, Repr

end Sys2Proof
end

