-- ==== Sys2Proof/Decode.lean ====
section
/-! DEFINITION. The commands that words spell: the table gives no row bits, so no word spells a command. -/

namespace Sys2Proof

/-- The command a word of `nbits` bits spells by the table's bits: none, since every row of the table is without bits. -/
def decodeTableWord (_nbits _w : Nat) : Option Instr := none

end Sys2Proof
end

