-- ==== Sys2Proof/Config.lean ====
section
/-! DEFINITION. What an implementation fixes and the spec leaves open: each free value is an opaque constant with no
body, so no proof can see which value it is. -/

namespace Sys2Proof.Config

/-- A fresh value of `w` bits that nothing constrains; the argument is a counter the machine holds (assumption 1). -/
opaque free : (w : Nat) → Nat → BitVec w

/-- GLB_ID.CODE of this part, 0 OX24-BI or 1 OX24-BE (R474; fixed per part). -/
opaque partCode : BitVec 1

/-- The factory trim of modulator `m` (0 to 47 primaries, 48 to 51 checkers) at a gain code, from the calibration region: gain
correction as a fraction `num / (den + 1)` and offset correction `off / (den + 1)` in codes (R91; the values are per part). -/
opaque trimNum : (m gain : Nat) → Int
opaque trimDen : (m gain : Nat) → Nat
opaque trimOff : (m gain : Nat) → Int

/-- The error of carg for a complex operand, the same on every core (R220): five values, from 2 units in the last place below. -/
opaque argError : (re im : BitVec 32) → BitVec 8

/-- The silicon latency of a port's receive or transmit stamp, in 2^−32 ns, from the calibration region (R347). -/
opaque portLatency : (port : Nat) → (transmit : Bool) → Nat

end Sys2Proof.Config
end

