-- ==== Sys2Proof/Machine/Reg.lean ====
section
/-! DEFINITION. How register fields are named and held: the access codes of R18, the reset domains of R21, a field of
a register (`Fld`), a register as a list of fields (`RegDef`), and the sparse sorted maps the state is written in. -/

namespace Sys2Proof.Machine

/-- The access codes of R18. -/
inductive Acc where
  | rw | ro | wo | w1c | w1s | rc | rwl
  deriving DecidableEq, Repr

/-- The reset-domain letters of R21: P, S, B, K, L. -/
inductive Dom where
  | por | sys | blk | kept | img
  deriving DecidableEq, Repr

/-- The number of a reset domain inside a field's key. -/
def Dom.num : Dom → Nat
  | .por => 0 | .sys => 1 | .blk => 2 | .kept => 3 | .img => 4

/-- A field of a register: its reset domain, the BAR0 byte offset of its register, its lowest bit, its width, its
access code and the value its domain's reset returns it to. -/
structure Fld where
  dom : Dom
  addr : Nat
  lo : Nat
  w : Nat
  acc : Acc
  rst : Nat
  deriving DecidableEq, Repr

/-- The key a field is stored under: domain, then register offset, then lowest bit. -/
def Fld.key (f : Fld) : Nat := f.dom.num * 0x10000000000 + f.addr * 32 + f.lo

/-- The same field, `d` bytes further on (the next copy of an indexed register). -/
def Fld.shift (f : Fld) (d : Nat) : Fld := { f with addr := f.addr + d }

/-- A register of a register map: its first offset, the (count, stride) of each of its indices, its fields. -/
structure RegDef where
  off : Nat
  dims : List (Nat × Nat)
  flds : List Fld
  deriving DecidableEq, Repr

/-! ### Sparse maps: lists of (key, value) pairs, keys strictly rising -/

/-- The value under `k`, or `d`. -/
def mget {α : Type} (m : List (Nat × α)) (k : Nat) (d : α) : α :=
  match m with
  | [] => d
  | (a, v) :: t => if a = k then v else mget t k d

/-- `m` with nothing under `k`. -/
def mdel {α : Type} (m : List (Nat × α)) (k : Nat) : List (Nat × α) :=
  match m with
  | [] => []
  | (a, v) :: t => if a = k then mdel t k else (a, v) :: mdel t k

/-- `m` with `v` under `k`, in its place in the order. -/
def mput {α : Type} (m : List (Nat × α)) (k : Nat) (v : α) : List (Nat × α) :=
  match m with
  | [] => [(k, v)]
  | (a, x) :: t => if k < a then (k, v) :: (a, x) :: t
    else if k = a then (k, v) :: t
    else (a, x) :: mput t k v

/-- Keys strictly rising. -/
def msorted {α : Type} : List (Nat × α) → Bool
  | [] => true
  | (a, _) :: t => (match t with | [] => true | (b, _) :: _ => decide (a < b)) && msorted t

/-- `m` with the value under `k` changed by `f` (from `d` where nothing is listed). -/
def mmod {α : Type} (m : List (Nat × α)) (k : Nat) (d : α) (f : α → α) : List (Nat × α) :=
  mput m k (f (mget m k d))

end Sys2Proof.Machine
end

