-- ==== Sys2Proof/Machine/Flags.lean ====
section
/-! DEFINITION. Binary32 arithmetic as R219 and R220 fix it: IEEE 754, round to nearest with ties to even, subnormals in
full, every NaN result 0x7FC0_0000. Values are computed exactly as integers times powers of two and rounded once. -/

namespace Sys2Proof.Machine.F32

/-- The quiet NaN that every NaN result is (R219). -/
def nan : Word := 0x7FC00000#32

/-- A binary32 value taken apart: NaN, infinity, or (−1)^sign × m × 2^e. -/
inductive Val where
  | nan
  | inf (sign : Bool)
  | fin (sign : Bool) (m : Nat) (e : Int)
  deriving DecidableEq, Repr

def signBit (a : Word) : Bool := a.getLsbD 31
def expField (a : Word) : Nat := (a.toNat / 2 ^ 23) % 256
def manField (a : Word) : Nat := a.toNat % 2 ^ 23

/-- Takes a binary32 word apart. -/
def unpack (a : Word) : Val :=
  if expField a = 255 then (if manField a = 0 then .inf (signBit a) else .nan)
  else if expField a = 0 then .fin (signBit a) (manField a) (-149)
  else .fin (signBit a) (2 ^ 23 + manField a) ((expField a : Int) - 150)

def isNaN (a : Word) : Bool := expField a == 255 && manField a != 0

/-- Number of significant bits. -/
def bitLen (n : Nat) : Nat := if n = 0 then 0 else n.log2 + 1

def signWord (s : Bool) : Nat := if s then 2 ^ 31 else 0

def infWord (s : Bool) : Word := BitVec.ofNat 32 (signWord s + 0x7F800000)

/-- The word of (−1)^s × m × 2^q, where m < 2^24 or m = 2^24, and q is the exponent of a 24-bit significand or −149. -/
def encode (s : Bool) (m : Nat) (q : Int) : Word :=
  let m1 := if m = 2 ^ 24 then 2 ^ 23 else m
  let q1 := if m = 2 ^ 24 then q + 1 else q
  if m1 < 2 ^ 23 then BitVec.ofNat 32 (signWord s + m1)
  else if 104 < q1 then infWord s
  else BitVec.ofNat 32 (signWord s + (q1 + 150).toNat * 2 ^ 23 + (m1 - 2 ^ 23))

/-- Rounds (−1)^s × m × 2^e to nearest, ties to even; `sticky` says the exact magnitude lies above m × 2^e by less than one
unit of m. -/
def round (s : Bool) (m : Nat) (e : Int) (sticky : Bool) : Word :=
  if m = 0 then BitVec.ofNat 32 (signWord s)
  else
    let q : Int := max (e + (bitLen m : Int) - 24) (-149)
    if q ≤ e then encode s (m * 2 ^ (e - q).toNat) q
    else
      let sh := (q - e).toNat
      let t := m / 2 ^ sh
      let r := m % 2 ^ sh
      let h := 2 ^ (sh - 1)
      let up := decide (h < r) || (r == h && (sticky || t % 2 == 1))
      encode s (if up then t + 1 else t) q

/-- The signed integer of a finite value at exponent `e0`, not above its own exponent. -/
def atExp (s : Bool) (m : Nat) (e e0 : Int) : Int :=
  let v : Int := (m * 2 ^ (e - e0).toNat : Nat)
  if s then -v else v

/-- Rounds the integer `i` times 2^e; an exact zero takes the sign `z`. -/
def roundInt (i : Int) (e : Int) (z : Bool) : Word :=
  if i = 0 then BitVec.ofNat 32 (signWord z) else round (decide (i < 0)) i.natAbs e false

/-- Exact sum of two finite values, rounded once; a zero sum is −0 only when both are negative. -/
def addFin (s1 : Bool) (m1 : Nat) (e1 : Int) (s2 : Bool) (m2 : Nat) (e2 : Int) : Word :=
  let e0 := min e1 e2
  roundInt (atExp s1 m1 e1 e0 + atExp s2 m2 e2 e0) e0 (s1 && s2)

def addVal (x y : Val) : Word :=
  match x, y with
  | .nan, _ => nan
  | _, .nan => nan
  | .inf s, .inf t => if s = t then infWord s else nan
  | .inf s, .fin .. => infWord s
  | .fin .., .inf t => infWord t
  | .fin s1 m1 e1, .fin s2 m2 e2 => addFin s1 m1 e1 s2 m2 e2

/-- The exact product of two values. -/
def mulVal (x y : Val) : Val :=
  match x, y with
  | .nan, _ => .nan
  | _, .nan => .nan
  | .inf s, .inf t => .inf (s != t)
  | .inf s, .fin t m _ => if m = 0 then .nan else .inf (s != t)
  | .fin s m _, .inf t => if m = 0 then .nan else .inf (s != t)
  | .fin s1 m1 e1, .fin s2 m2 e2 => .fin (s1 != s2) (m1 * m2) (e1 + e2)

/-- A value rounded to binary32. -/
def ofVal (x : Val) : Word :=
  match x with
  | .nan => nan
  | .inf s => infWord s
  | .fin s m e => round s m e false

def negVal (x : Val) : Val :=
  match x with
  | .nan => .nan
  | .inf s => .inf (!s)
  | .fin s m e => .fin (!s) m e

/-- fadd, fsub, fmul (R219). -/
def add (a b : Word) : Word := addVal (unpack a) (unpack b)
def sub (a b : Word) : Word := addVal (unpack a) (negVal (unpack b))
def mul (a b : Word) : Word := ofVal (mulVal (unpack a) (unpack b))

/-- a × b + c, rounded once (R219). -/
def fma (a b c : Word) : Word := addVal (mulVal (unpack a) (unpack b)) (unpack c)

/-- −(a × b) + c, rounded once (R219). -/
def fnma (a b c : Word) : Word := addVal (negVal (mulVal (unpack a) (unpack b))) (unpack c)

/-- fabs, fneg change only the sign bit (R219). -/
def abs (a : Word) : Word := a &&& 0x7FFFFFFF#32
def neg (a : Word) : Word := a ^^^ 0x80000000#32

/-- fdiv (R219). -/
def div (a b : Word) : Word :=
  match unpack a, unpack b with
  | .nan, _ => nan
  | _, .nan => nan
  | .inf s, .fin t _ _ => infWord (s != t)
  | .inf _, .inf _ => nan
  | .fin s _ _, .inf t => BitVec.ofNat 32 (signWord (s != t))
  | .fin s m1 e1, .fin t m2 e2 =>
    if m2 = 0 then (if m1 = 0 then nan else infWord (s != t))
    else round (s != t) (m1 * 2 ^ 64 / m2) (e1 - e2 - 64) (m1 * 2 ^ 64 % m2 != 0)

/-- The integer square root, `k` result bits from the top. -/
def isqrt (k n r : Nat) : Nat :=
  match k with
  | 0 => r
  | k + 1 => let c := r + 2 ^ k; isqrt k n (if c * c ≤ n then c else r)

/-- The rounded square root of m × 2^e, exact but for the one rounding. -/
def sqrtMag (m : Nat) (e : Int) : Word :=
  if m = 0 then 0#32
  else
    -- an even exponent and at least 60 bits
    let e1 : Int := if e % 2 = 0 then e - 64 else e - 65
    let m1 := m * 2 ^ (e - e1).toNat
    let r := isqrt (bitLen m1 / 2 + 1) m1 0
    round false r (e1 / 2) (r * r != m1)

/-- fsqrt (R219): the root of −0.0 is −0.0 and of another negative value a NaN, as IEEE 754 has them. -/
def sqrt (a : Word) : Word :=
  match unpack a with
  | .nan => nan
  | .inf s => if s then nan else infWord false
  | .fin s m e => if m = 0 then BitVec.ofNat 32 (signWord s) else if s then nan else sqrtMag m e

/-- a < b, with −0.0 equal to +0.0 and false for a NaN (R219). -/
def ltVal (x y : Val) : Bool :=
  match x, y with
  | .nan, _ => false
  | _, .nan => false
  | .inf s, .inf t => s && !t
  | .inf s, .fin .. => s
  | .fin .., .inf t => !t
  | .fin s1 m1 e1, .fin s2 m2 e2 => decide (atExp s1 m1 e1 (min e1 e2) < atExp s2 m2 e2 (min e1 e2))

def eqVal (x y : Val) : Bool :=
  match x, y with
  | .nan, _ => false
  | _, .nan => false
  | .inf s, .inf t => s == t
  | .inf _, .fin .. => false
  | .fin .., .inf _ => false
  | .fin s1 m1 e1, .fin s2 m2 e2 => decide (atExp s1 m1 e1 (min e1 e2) = atExp s2 m2 e2 (min e1 e2))

def lt (a b : Word) : Bool := ltVal (unpack a) (unpack b)
def eq (a b : Word) : Bool := eqVal (unpack a) (unpack b)
def le (a b : Word) : Bool := lt a b || eq a b
def un (a b : Word) : Bool := isNaN a || isNaN b

/-- fmin, fmax (R219): one NaN gives the other operand, two give the quiet NaN; −0.0 is ordered below +0.0. -/
def min (a b : Word) : Word :=
  if isNaN a && isNaN b then nan
  else if isNaN a then b
  else if isNaN b then a
  else if lt a b then a
  else if lt b a then b
  else if signBit a then a else b

def max (a b : Word) : Word :=
  if isNaN a && isNaN b then nan
  else if isNaN a then b
  else if isNaN b then a
  else if lt a b then b
  else if lt b a then a
  else if signBit a then b else a

/-- The magnitude m × 2^e cut toward zero. -/
def truncMag (m : Nat) (e : Int) : Nat := if 0 ≤ e then m * 2 ^ e.toNat else m / 2 ^ (-e).toNat

/-- fcvt.ws: i32 from a, toward zero, saturating; NaN gives 0 (R219). -/
def toI32 (a : Word) : Word :=
  match unpack a with
  | .nan => 0
  | .inf s => if s then 0x80000000#32 else 0x7FFFFFFF#32
  | .fin s m e =>
    let t := truncMag m (if 64 < e then 64 else e)
    if s then (if 2 ^ 31 ≤ t then 0x80000000#32 else -(BitVec.ofNat 32 t))
    else if 2 ^ 31 ≤ t then 0x7FFFFFFF#32 else BitVec.ofNat 32 t

/-- binary32 from an integer, rounded. -/
def ofInt (i : Int) : Word := roundInt i 0 false

/-- fcvt.sw, fcvt.swu. -/
def ofI32 (a : Word) : Word := ofInt a.toInt
def ofU32 (a : Word) : Word := ofInt a.toNat

/-! ### Complex (R220) -/

abbrev Cx := Word × Word

def cadd (a b : Cx) : Cx := (add a.1 b.1, add a.2 b.2)
def csub (a b : Cx) : Cx := (sub a.1 b.1, sub a.2 b.2)
/-- cmul: (fma(a.re, b.re, −rnd(a.im × b.im)), fma(a.re, b.im, rnd(a.im × b.re))). -/
def cmul (a b : Cx) : Cx := (fma a.1 b.1 (neg (mul a.2 b.2)), fma a.1 b.2 (mul a.2 b.1))
def cmulc (a b : Cx) : Cx := cmul a (b.1, neg b.2)
def cconj (a : Cx) : Cx := (a.1, neg a.2)
def cscale (a : Cx) (k : Word) : Cx := (mul a.1 k, mul a.2 k)
def cmag2 (a : Cx) : Word := fma a.1 a.1 (mul a.2 a.2)

/-- cabs: the root of the exact sum of squares, rounded once. A NaN part gives the NaN (assumption 9). -/
def cabs (a : Cx) : Word :=
  match unpack a.1, unpack a.2 with
  | .nan, _ => nan
  | _, .nan => nan
  | .inf _, _ => infWord false
  | _, .inf _ => infWord false
  | .fin _ m1 e1, .fin _ m2 e2 =>
    let e0 := Min.min e1 e2
    let x := m1 * 2 ^ (e1 - e0).toNat
    let y := m2 * 2 ^ (e2 - e0).toNat
    sqrtMag (x * x + y * y) (2 * e0)

/-! ### The argument of a complex number (R220), in fixed point with 96 fraction bits -/

def one96 : Int := 2 ^ 96
/-- π with 96 fraction bits. -/
def pi96 : Int := 248902613312231085230521944622

/-- t × (1 − u/3 + u²/5 − …) by its terms from the n-th down; `u` = t² in 96-bit fixed point: the sum without the factor t. -/
def atanSum (n k : Nat) (u : Int) : Int :=
  match n with
  | 0 => 0
  | n + 1 => one96 / (2 * (k : Int) + 1) - u * atanSum n (k + 1) u / one96

/-- atan(num / den) × 2^(96 + x), for 0 ≤ num ≤ den and 0 < den, to about 80 significant bits; the exponent x is answered with it. -/
def atanPos (num den : Nat) : Int × Nat :=
  if num * 5 ≤ den * 2 then
    -- small ratio: keep its significant bits by an exponent of its own
    let x := bitLen den - bitLen num
    let t : Int := (num * 2 ^ (96 + x) / den : Nat)
    let u : Int := t * t / one96 / (2 ^ (2 * x) : Nat)
    (t * atanSum 40 0 u / one96, x)
  else
    -- atan t = π/4 + atan((t − 1)/(t + 1))
    let z : Int := ((num : Int) - den) * one96 / ((num : Int) + den)
    let u : Int := z * z / one96
    (pi96 / 4 + z * atanSum 40 0 u / one96, 0)

/-- The angle of (x, y) with y ≠ 0, x and y integers at one scale, as i × 2^−k. -/
def angle (x y : Int) : Int × Nat :=
  let ax := x.natAbs
  let ay := y.natAbs
  let r : Int × Nat :=
    if ay ≤ ax then
      let p := atanPos ay ax
      if 0 ≤ x then (p.1, 96 + p.2) else (pi96 - p.1 / (2 ^ p.2 : Nat), 96)
    else
      let p := atanPos ax ay
      let q := p.1 / (2 ^ p.2 : Nat)
      if 0 ≤ x then (pi96 / 2 - q, 96) else (pi96 / 2 + q, 96)
  if y < 0 then (-r.1, r.2) else r

/-- A word `d` units in the last place away from `a`, magnitudes only (d from −2 to 2). -/
def ulps (a : Word) (d : Int) : Word :=
  let m : Int := (a.toNat % 2 ^ 31 : Nat)
  BitVec.ofNat 32 (signWord (signBit a) + (m + d).toNat)

/-- The angle of a complex number whose parts are no NaN and whose imaginary part is not zero, as i × 2^−k. -/
def argExact (a : Cx) : Int × Nat :=
  match unpack a.1, unpack a.2 with
  | .inf s, .inf t => let p := if s then pi96 * 3 / 4 else pi96 / 4; (if t then -p else p, 96)
  | .inf s, .fin t .. => (if s then (if t then -pi96 else pi96) else 0, 96)
  | .fin .., .inf t => (if t then -(pi96 / 2) else pi96 / 2, 96)
  | .fin s1 m1 e1, .fin s2 m2 e2 => let e0 := Min.min e1 e2; angle (atExp s1 m1 e1 e0) (atExp s2 m2 e2 e0)
  | _, _ => (0, 96)

/-- Does the finite word `r` lie within two units in the last place of `w`, the rounded value of i × 2^−k, from that value? -/
def within2 (w r : Word) (p : Int × Nat) : Bool :=
  match unpack w, unpack r with
  | .fin _ _ eu, .fin s m e =>
    let e0 := Min.min (Min.min eu e) (-(p.2 : Int))
    let diff := (atExp s m e e0 - atExp (decide (p.1 < 0)) p.1.natAbs (-(p.2 : Int)) e0).natAbs
    decide (diff ≤ 2 * 2 ^ (eu - e0).toNat)
  | _, _ => false

/-- The greatest magnitudes in (−π, π]: the binary32 nearest π, and for a negative angle the one below it, which π exceeds. -/
def argLimit (neg : Bool) : Nat := if neg then 0x40490FDA else 0x40490FDB

/-- The word that the argument unit gives with an error of `d` units in the last place: nearer by one where that is more than two units
from the angle itself, and in (−π, π] (R220). -/
def argNear (p : Int × Nat) (d : Int) : Word :=
  let w := roundInt p.1 (-(p.2 : Int)) (decide (p.1 < 0))
  let r := if within2 w (ulps w d) p then ulps w d else ulps w (d - d.sign)
  let top := argLimit (signBit r)
  if top < r.toNat % 2 ^ 31 then BitVec.ofNat 32 (signWord (signBit r) + top) else r

/-- carg with the unit's own error `d` in units in the last place; the exact cases of R220 are exact. -/
def carg (a : Cx) (d : Int) : Word :=
  if isNaN a.1 || isNaN a.2 then nan
  else if a.2.toNat % 2 ^ 31 = 0 then (if signBit a.1 then 0x40490FDB#32 else 0#32)
  else
    match unpack a.1, unpack a.2 with
    | .inf false, .fin t .. => BitVec.ofNat 32 (signWord t)
    | _, _ => argNear (argExact a) d

/-- The error that this part's argument units make for an operand, −2 to 2: a function of the operand, so that results are
bit-exact on every core (R220, assumption 129). -/
def argErr (a : Cx) : Int := ((Config.argError a.1 a.2).toNat % 5 : Nat) - (2 : Int)

end Sys2Proof.Machine.F32
end

