-- ==== Sys2Proof/Machine/RegMap.lean ====
section
/-! DEFINITION. The register maps of the block map of R508: one `Fld` per field of the field tables of `spec/`
(the rule of each block's table is named above its fields), and `regTable`, the registers by BAR0 offset. -/

namespace Sys2Proof.Machine

/-- R412's table of Privet fault sources: (kind is level, class 1 C 2 U 3 F, allowed reactions as bits, default reaction). -/
def prvSrcTable : List (Bool × Nat × Nat × Nat) := [
  (false, 1, 1, 0)  /- 0 ECC_CORR -/,
  (false, 2, 7, 2)  /- 1 ECC_EC -/,
  (false, 2, 9, 0)  /- 2 ECC_NET -/,
  (false, 2, 9, 0)  /- 3 ECC_MRAM -/,
  (false, 3, 28, 2)  /- 4 LOCKSTEP -/,
  (false, 2, 7, 0)  /- 5 C0_BUDGET -/,
  (false, 2, 7, 0)  /- 6 TICK_OVR -/,
  (false, 2, 3, 0)  /- 7 ESP_PAR -/,
  (true, 3, 16, 4)  /- 8 CLK_AON -/,
  (true, 3, 24, 4)  /- 9 CLK_FAB -/,
  (true, 3, 24, 3)  /- 10 CLK_SCH -/,
  (true, 3, 24, 3)  /- 11 CLK_NET -/,
  (true, 2, 1, 0)  /- 12 CLK_HST -/,
  (true, 2, 9, 0)  /- 13 CLK_MEM -/,
  (true, 2, 3, 0)  /- 14 VMON_REF -/,
  (true, 3, 24, 4)  /- 15 VMON_SUP -/,
  (true, 2, 1, 0)  /- 16 TMON_WARN -/,
  (true, 3, 24, 4)  /- 17 TMON_CRIT -/,
  (true, 2, 3, 0)  /- 18 CK_PLAUS -/,
  (true, 3, 26, 4)  /- 19 THN_RB -/,
  (true, 2, 1, 0)  /- 20 LINK -/,
  (false, 2, 1, 0)  /- 21 TWN_DIS -/,
  (true, 3, 24, 4)  /- 22 SEC_TAMPER -/,
  (false, 2, 1, 0)  /- 23 GOOSE_C0 -/,
  (false, 2, 9, 0)  /- 24 XWD -/]

/-- The row of R412's table for source `s` (a source the table does not have reads as a harmless event source). -/
def prvSrcRow (s : Nat) : Bool × Nat × Nat × Nat := prvSrcTable.getD s (false, 0, 0, 0)
def prvKindRst (s : Nat) : Nat := if (prvSrcRow s).1 then 1 else 0
def prvClassRst (s : Nat) : Nat := (prvSrcRow s).2.1
def prvAllowedRst (s : Nat) : Nat := (prvSrcRow s).2.2.1
def prvActionRst (s : Nat) : Nat := (prvSrcRow s).2.2.2
/-- R437: the defaults of PRV_SRCs_CFG.IRQ. -/
def prvIrqRst (s : Nat) : Nat := if prvClassRst s = 1 then 0 else 1

namespace R

-- GLB, field tables of R474
def GLB_CTL_LOCK : Fld := ⟨.sys, 0x0, 31, 1, .w1s, 0⟩
def GLB_ID_PART : Fld := ⟨.kept, 0x4, 16, 16, .ro, 0x24⟩
def GLB_ID_STEP : Fld := ⟨.kept, 0x4, 8, 8, .ro, 0xb0⟩
def GLB_ID_CODE : Fld := ⟨.kept, 0x4, 0, 1, .ro, 0⟩
def GLB_RST_SYSREQ : Fld := ⟨.sys, 0x8, 31, 1, .w1s, 0⟩
def GLB_RSTCAUSE_CAUSE : Fld := ⟨.por, 0xc, 28, 4, .ro, 0⟩
def GLB_RSTCAUSE_PRVSRC : Fld := ⟨.por, 0xc, 20, 5, .ro, 0⟩
def GLB_RSTCAUSE_COUNT : Fld := ⟨.por, 0xc, 0, 16, .ro, 0⟩
def GLB_BOOT_DONE : Fld := ⟨.sys, 0x10, 31, 1, .ro, 0⟩
def GLB_BOOT_MAINT : Fld := ⟨.sys, 0x10, 30, 1, .ro, 0⟩
def GLB_BOOT_FALLBACK : Fld := ⟨.sys, 0x10, 29, 1, .ro, 0⟩
def GLB_BOOT_SLOT : Fld := ⟨.sys, 0x10, 28, 1, .ro, 0⟩
def GLB_BOOT_PREF : Fld := ⟨.kept, 0x10, 27, 1, .rw, 0⟩
def GLB_BOOT_FAILA : Fld := ⟨.sys, 0x10, 24, 3, .ro, 0⟩
def GLB_BOOT_FAILB : Fld := ⟨.sys, 0x10, 20, 3, .ro, 0⟩
def GLB_PWR_REQ : Fld := ⟨.sys, 0x14, 30, 2, .rw, 0⟩
def GLB_PWR_STATE : Fld := ⟨.sys, 0x14, 27, 3, .ro, 0⟩
def GLB_PWR_REFUSED_STK : Fld := ⟨.sys, 0x14, 26, 1, .w1c, 0⟩
def GLB_PWRSTAT_PG : Fld := ⟨.sys, 0x18, 0, 12, .ro, 0⟩
def GLB_WDT_TO : Fld := ⟨.img, 0x1c, 20, 10, .rwl, 0x64⟩
def GLB_WDT_REMAIN : Fld := ⟨.sys, 0x1c, 0, 16, .ro, 0⟩
def GLB_WAKE_LO_WAKE : Fld := ⟨.por, 0x20, 0, 32, .rw, 0⟩
def GLB_WAKE_HI_EN : Fld := ⟨.por, 0x24, 31, 1, .rw, 0⟩
def GLB_WAKE_HI_WAKEHI : Fld := ⟨.por, 0x24, 0, 31, .rw, 0⟩
def GLB_COARSE_LO_COARSE : Fld := ⟨.por, 0x28, 0, 32, .ro, 0⟩
def GLB_COARSE_HI_COARSE : Fld := ⟨.por, 0x2c, 0, 32, .ro, 0⟩
def GLB_ACC_INIT_VALID : Fld := ⟨.sys, 0x30, 31, 1, .w1c, 0⟩
def GLB_ACC_INIT_WRITE : Fld := ⟨.sys, 0x30, 30, 1, .ro, 0⟩
def GLB_ACC_INIT_INIT : Fld := ⟨.sys, 0x30, 24, 4, .ro, 0⟩
def GLB_ACC_INIT_COUNT : Fld := ⟨.sys, 0x30, 0, 16, .ro, 0⟩
def GLB_ACC_ADDR_ADDR : Fld := ⟨.sys, 0x34, 0, 32, .ro, 0⟩
def GLB_STRAP_BOOT : Fld := ⟨.sys, 0x38, 0, 2, .ro, 0⟩

-- PRV, field tables of R435
def PRV_CTL_LOCK : Fld := ⟨.sys, 0x100000, 31, 1, .w1s, 0⟩
def PRV_CTL_SAFEREQ : Fld := ⟨.sys, 0x100000, 30, 1, .w1s, 0⟩
def PRV_STAT_SAFE : Fld := ⟨.sys, 0x100004, 31, 1, .ro, 0⟩
def PRV_STAT_ALIVE : Fld := ⟨.sys, 0x100004, 28, 3, .ro, 0⟩
def PRV_STAT_SELF_STK : Fld := ⟨.por, 0x100004, 27, 1, .w1c, 0⟩
def PRV_STAT_ESC_STK : Fld := ⟨.por, 0x100004, 26, 1, .w1c, 0⟩
def PRV_STAT_IRQ : Fld := ⟨.sys, 0x100004, 25, 1, .ro, 0⟩
def PRV_STAT_SAFE_CAUSE : Fld := ⟨.por, 0x100004, 16, 6, .ro, 0x3f⟩
def PRV_STAT_SAFE_CNT : Fld := ⟨.por, 0x100004, 0, 16, .ro, 0⟩
def PRV_STK_STK : Fld := ⟨.por, 0x100008, 0, 25, .w1c, 0⟩
def PRV_LIVE_LIVE : Fld := ⟨.sys, 0x10000c, 0, 25, .ro, 0⟩
def PRV_MASKED_MASKED : Fld := ⟨.sys, 0x100010, 0, 25, .ro, 0⟩
def PRV_BAYBLK_BLK : Fld := ⟨.sys, 0x100014, 0, 24, .w1c, 0⟩
def PRV_BRST_LASTESC : Fld := ⟨.por, 0x100018, 16, 4, .ro, 0xf⟩
def PRV_BRST_INWIN : Fld := ⟨.sys, 0x100018, 0, 9, .ro, 0⟩
def PRV_FF_CTL_REARM : Fld := ⟨.por, 0x100020, 31, 1, .w1s, 0⟩
def PRV_FF_CTL_VALID : Fld := ⟨.por, 0x100020, 30, 1, .ro, 0⟩
def PRV_FF_CTL_MULTI : Fld := ⟨.por, 0x100020, 29, 1, .ro, 0⟩
def PRV_FF_SRC_SRC : Fld := ⟨.por, 0x100024, 24, 5, .ro, 0⟩
def PRV_FF_SRC_CLASS : Fld := ⟨.por, 0x100024, 22, 2, .ro, 0⟩
def PRV_FF_SRC_ACTION : Fld := ⟨.por, 0x100024, 19, 3, .ro, 0⟩
def PRV_FF_SRC_SUPER : Fld := ⟨.por, 0x100024, 18, 1, .ro, 0⟩
def PRV_FF_DET_DET : Fld := ⟨.por, 0x100028, 0, 32, .ro, 0⟩
def PRV_FF_TIME_LO_TIME : Fld := ⟨.por, 0x10002c, 0, 32, .ro, 0⟩
def PRV_FF_TIME_HI_TIME : Fld := ⟨.por, 0x100030, 0, 32, .ro, 0⟩
def PRV_FF_TB2_LO_TB2 : Fld := ⟨.por, 0x100034, 0, 32, .ro, 0⟩
def PRV_FF_TB2_HI_TB2 : Fld := ⟨.por, 0x100038, 0, 32, .ro, 0⟩
def PRV_FF_SEQ_LO_SEQ : Fld := ⟨.por, 0x10003c, 0, 32, .ro, 0⟩
def PRV_FF_SEQ_HI_SEQ : Fld := ⟨.por, 0x100040, 0, 16, .ro, 0⟩
def PRV_TMON_WARN : Fld := ⟨.img, 0x100044, 24, 8, .rwl, 0x73⟩
def PRV_TMON_TEMP : Fld := ⟨.sys, 0x100044, 0, 8, .ro, 0⟩
def PRV_SRCs_CFG_IRQ (s : Nat) : Fld := ⟨.img, 0x100100 + 0x10 * s, 31, 1, .rwl, (prvIrqRst s)⟩
def PRV_SRCs_CFG_ACTION (s : Nat) : Fld := ⟨.img, 0x100100 + 0x10 * s, 28, 3, .rwl, (prvActionRst s)⟩
def PRV_SRCs_CFG_ALLOWED (s : Nat) : Fld := ⟨.kept, 0x100100 + 0x10 * s, 16, 5, .ro, (prvAllowedRst s)⟩
def PRV_SRCs_CFG_CLASS (s : Nat) : Fld := ⟨.kept, 0x100100 + 0x10 * s, 8, 2, .ro, (prvClassRst s)⟩
def PRV_SRCs_CFG_KIND (s : Nat) : Fld := ⟨.kept, 0x100100 + 0x10 * s, 7, 1, .ro, (prvKindRst s)⟩
def PRV_SRCs_CNT_OCC (s : Nat) : Fld := ⟨.por, 0x100104 + 0x10 * s, 16, 16, .ro, 0⟩
def PRV_SRCs_CNT_CONSQ (s : Nat) : Fld := ⟨.por, 0x100104 + 0x10 * s, 0, 16, .ro, 0⟩
def PRV_SRCs_BAYS_BAYS (s : Nat) : Fld := ⟨.img, 0x100108 + 0x10 * s, 0, 24, .rwl, 0⟩
def PRV_SRCs_DET_DET (s : Nat) : Fld := ⟨.por, 0x10010c + 0x10 * s, 0, 32, .ro, 0⟩

-- YEW, field tables of R410
def YEW_CTL_LOCK : Fld := ⟨.sys, 0x200000, 31, 1, .w1s, 0⟩
def YEW_CFG_HOSTRING : Fld := ⟨.img, 0x200004, 31, 1, .rwl, 0⟩
def YEW_STAT_SCAN : Fld := ⟨.por, 0x200008, 31, 1, .ro, 0x1⟩
def YEW_STAT_ZEROING : Fld := ⟨.por, 0x200008, 30, 1, .ro, 0⟩
def YEW_STAT_OVF_STK : Fld := ⟨.por, 0x200008, 29, 1, .w1c, 0⟩
def YEW_STAT_CLRREF_STK : Fld := ⟨.por, 0x200008, 28, 1, .w1c, 0⟩
def YEW_STAT_OVF_PER : Fld := ⟨.por, 0x200008, 27, 1, .ro, 0⟩
def YEW_STAT_LEVEL : Fld := ⟨.por, 0x200008, 0, 10, .ro, 0⟩
def YEW_NEXT_LO_NEXT : Fld := ⟨.kept, 0x20000c, 0, 32, .ro, 0x1⟩
def YEW_NEXT_HI_NEXT : Fld := ⟨.kept, 0x200010, 0, 16, .ro, 0⟩
def YEW_OLDEST_LO_OLDEST : Fld := ⟨.kept, 0x200014, 0, 32, .ro, 0x1⟩
def YEW_OLDEST_HI_OLDEST : Fld := ⟨.kept, 0x200018, 0, 16, .ro, 0⟩
def YEW_LOST0_INFO : Fld := ⟨.por, 0x20001c, 0, 32, .ro, 0⟩
def YEW_LOST1_C : Fld := ⟨.por, 0x200020, 16, 16, .ro, 0⟩
def YEW_LOST1_U : Fld := ⟨.por, 0x200020, 0, 16, .ro, 0⟩
def YEW_NONCE_NONCE : Fld := ⟨.por, 0x200024, 0, 32, .ro, 0⟩
def YEW_CLR_CMD_GO : Fld := ⟨.por, 0x200028, 0, 1, .w1s, 0⟩
def YEW_CLR_STAT_BUSY : Fld := ⟨.por, 0x20002c, 31, 1, .ro, 0⟩
def YEW_CLR_STAT_RESULT : Fld := ⟨.por, 0x20002c, 0, 3, .ro, 0⟩
def YEW_RD_SEL_LO_SEQLO : Fld := ⟨.por, 0x200040, 0, 32, .rw, 0⟩
def YEW_RD_SEL_HI_FETCH : Fld := ⟨.por, 0x200044, 31, 1, .w1s, 0⟩
def YEW_RD_SEL_HI_SEQHI : Fld := ⟨.por, 0x200044, 0, 16, .rw, 0⟩
def YEW_RD_STAT_READY : Fld := ⟨.por, 0x200048, 31, 1, .ro, 0⟩
def YEW_RD_STAT_RESULT : Fld := ⟨.por, 0x200048, 0, 2, .ro, 0⟩
def YEW_CLR_BUFw_TOKEN (w : Nat) : Fld := ⟨.por, 0x200080 + 0x4 * w, 0, 32, .wo, 0⟩
def YEW_RD_BUFw_DATA (w : Nat) : Fld := ⟨.por, 0x200100 + 0x4 * w, 0, 32, .ro, 0⟩

-- TIM, field tables of R371
def TIM_CTL_LOCK : Fld := ⟨.sys, 0x300000, 31, 1, .w1s, 0⟩
def TIM_ACT_AUTO : Fld := ⟨.img, 0x300004, 1, 1, .rw, 0⟩
def TIM_ACT_SEL : Fld := ⟨.img, 0x300004, 0, 1, .rw, 0⟩
def TIM_ACT_STAT_FOLLOW : Fld := ⟨.sys, 0x300008, 31, 1, .ro, 0⟩
def TIM_ACT_STAT_SLEWING : Fld := ⟨.sys, 0x300008, 30, 1, .ro, 0⟩
def TIM_ACT_STAT_TQ : Fld := ⟨.sys, 0x300008, 28, 2, .ro, 0x3⟩
def TIM_ACT_STAT_SW_STK : Fld := ⟨.sys, 0x300008, 27, 1, .w1c, 0⟩
def TIM_ACT_STAT_STEP_STK : Fld := ⟨.sys, 0x300008, 26, 1, .w1c, 0⟩
def TIM_SWCFG_SLEW : Fld := ⟨.img, 0x30000c, 0, 17, .rwl, 0x3e8⟩
def TIM_ACT_TIME_LO_TIME : Fld := ⟨.sys, 0x300010, 0, 32, .ro, 0⟩
def TIM_ACT_TIME_HI_TIME : Fld := ⟨.sys, 0x300014, 0, 32, .ro, 0⟩
def TIM_ACT_RESID_LO_RESID : Fld := ⟨.sys, 0x300018, 0, 32, .ro, 0⟩
def TIM_ACT_RESID_HI_RESID : Fld := ⟨.sys, 0x30001c, 0, 32, .ro, 0⟩
def TIM_DIFF_LO_DIFF : Fld := ⟨.sys, 0x300020, 0, 32, .ro, 0⟩
def TIM_DIFF_HI_DIFF : Fld := ⟨.sys, 0x300024, 0, 32, .ro, 0⟩
def TIM_UTC_VALID : Fld := ⟨.sys, 0x300028, 31, 1, .rw, 0⟩
def TIM_UTC_OFFSET : Fld := ⟨.sys, 0x300028, 0, 16, .rw, 0⟩
def TIM_PDCFG_PDDOM : Fld := ⟨.img, 0x30002c, 24, 8, .rwl, 0⟩
def TIM_PDCFG_LOGINT : Fld := ⟨.img, 0x30002c, 8, 8, .rwl, 0⟩
def TIM_TC_CNT_CORR : Fld := ⟨.sys, 0x300030, 16, 16, .ro, 0⟩
def TIM_TC_CNT_NOLD : Fld := ⟨.sys, 0x300030, 0, 16, .ro, 0⟩
def TIM_TBb_CFG_MODE (b : Nat) : Fld := ⟨.img, 0x300100 + 0x40 * b, 30, 2, .rwl, 0⟩
def TIM_TBb_CFG_PORT (b : Nat) : Fld := ⟨.img, 0x300100 + 0x40 * b, 28, 2, .rwl, 0⟩
def TIM_TBb_CFG_PPSPOL (b : Nat) : Fld := ⟨.img, 0x300100 + 0x40 * b, 27, 1, .rwl, 0⟩
def TIM_TBb_CFG_DOMAIN (b : Nat) : Fld := ⟨.img, 0x300100 + 0x40 * b, 0, 8, .rwl, 0⟩
def TIM_TBb_CTL_REACQ (b : Nat) : Fld := ⟨.sys, 0x300104 + 0x40 * b, 31, 1, .w1s, 0⟩
def TIM_TBb_CTL_SET (b : Nat) : Fld := ⟨.sys, 0x300104 + 0x40 * b, 30, 1, .w1s, 0⟩
def TIM_TBb_STAT_STATE (b : Nat) : Fld := ⟨.sys, 0x300108 + 0x40 * b, 29, 3, .ro, 0⟩
def TIM_TBb_STAT_PATHSLEW (b : Nat) : Fld := ⟨.sys, 0x300108 + 0x40 * b, 28, 1, .ro, 0⟩
def TIM_TBb_STAT_STEP_STK (b : Nat) : Fld := ⟨.sys, 0x300108 + 0x40 * b, 27, 1, .w1c, 0⟩
def TIM_TBb_STAT_PATH_STK (b : Nat) : Fld := ⟨.sys, 0x300108 + 0x40 * b, 26, 1, .w1c, 0⟩
def TIM_TBb_STAT_LOCKLOSS_STK (b : Nat) : Fld := ⟨.sys, 0x300108 + 0x40 * b, 25, 1, .w1c, 0⟩
def TIM_TBb_TIME_LO_TIME (b : Nat) : Fld := ⟨.sys, 0x30010c + 0x40 * b, 0, 32, .ro, 0⟩
def TIM_TBb_TIME_HI_TIME (b : Nat) : Fld := ⟨.sys, 0x300110 + 0x40 * b, 0, 32, .ro, 0⟩
def TIM_TBb_SETV_LO_SETV (b : Nat) : Fld := ⟨.sys, 0x300114 + 0x40 * b, 0, 32, .rw, 0⟩
def TIM_TBb_SETV_HI_SETV (b : Nat) : Fld := ⟨.sys, 0x300118 + 0x40 * b, 0, 32, .rw, 0⟩
def TIM_TBb_FADJ_FADJ (b : Nat) : Fld := ⟨.sys, 0x30011c + 0x40 * b, 0, 32, .rw, 0⟩
def TIM_TBb_SERVO_KP (b : Nat) : Fld := ⟨.img, 0x300120 + 0x40 * b, 16, 16, .rwl, 0x800⟩
def TIM_TBb_SERVO_KI (b : Nat) : Fld := ⟨.img, 0x300120 + 0x40 * b, 0, 16, .rwl, 0x1000⟩
def TIM_TBb_GUARD_LOCKTH (b : Nat) : Fld := ⟨.img, 0x300124 + 0x40 * b, 16, 16, .rwl, 0x64⟩
def TIM_TBb_GUARD_GUARD (b : Nat) : Fld := ⟨.img, 0x300124 + 0x40 * b, 0, 16, .rwl, 0x1f4⟩
def TIM_TBb_TO_HOLDMAX (b : Nat) : Fld := ⟨.img, 0x300128 + 0x40 * b, 16, 16, .rwl, 0x3c⟩
def TIM_TBb_TO_SYNCTO (b : Nat) : Fld := ⟨.img, 0x300128 + 0x40 * b, 0, 8, .rwl, 0x1e⟩
def TIM_TBb_OFFS_OFFS (b : Nat) : Fld := ⟨.sys, 0x30012c + 0x40 * b, 0, 32, .ro, 0⟩
def TIM_TBb_MID_LO_MID (b : Nat) : Fld := ⟨.sys, 0x300130 + 0x40 * b, 0, 32, .rw, 0⟩
def TIM_TBb_MID_HI_MID (b : Nat) : Fld := ⟨.sys, 0x300134 + 0x40 * b, 0, 32, .rw, 0⟩
def TIM_TBb_MPN_MPN (b : Nat) : Fld := ⟨.sys, 0x300138 + 0x40 * b, 0, 16, .rw, 0⟩
def TIM_TBb_CNT_REJECT (b : Nat) : Fld := ⟨.sys, 0x30013c + 0x40 * b, 16, 16, .ro, 0⟩
def TIM_TBb_CNT_PATHCHG (b : Nat) : Fld := ⟨.sys, 0x30013c + 0x40 * b, 8, 8, .ro, 0⟩
def TIM_TBb_CNT_STEPS (b : Nat) : Fld := ⟨.sys, 0x30013c + 0x40 * b, 0, 8, .ro, 0⟩
def TIM_Pp_ASYM_ASYM (p : Nat) : Fld := ⟨.img, 0x300400 + 0x20 * p, 0, 32, .rwl, 0⟩
def TIM_Pp_LAT_RXLAT (p : Nat) : Fld := ⟨.img, 0x300404 + 0x20 * p, 16, 16, .rwl, 0⟩
def TIM_Pp_LAT_TXLAT (p : Nat) : Fld := ⟨.img, 0x300404 + 0x20 * p, 0, 16, .rwl, 0⟩
def TIM_Pp_MLD_MLD (p : Nat) : Fld := ⟨.sys, 0x300408 + 0x20 * p, 0, 32, .ro, 0⟩
def TIM_Pp_NRR_NRR (p : Nat) : Fld := ⟨.sys, 0x30040c + 0x20 * p, 0, 32, .ro, 0⟩
def TIM_Pp_PDSTAT_VALID (p : Nat) : Fld := ⟨.sys, 0x300410 + 0x20 * p, 31, 1, .ro, 0⟩
def TIM_Pp_PDSTAT_PDFAIL_STK (p : Nat) : Fld := ⟨.sys, 0x300410 + 0x20 * p, 30, 1, .w1c, 0⟩
def TIM_Pp_PDSTAT_LOST (p : Nat) : Fld := ⟨.sys, 0x300410 + 0x20 * p, 0, 16, .ro, 0⟩
def TIM_TPOk_CFG_EN (k : Nat) : Fld := ⟨.img, 0x300800 + 0x20 * k, 31, 1, .rw, 0⟩
def TIM_TPOk_CFG_PERIODIC (k : Nat) : Fld := ⟨.img, 0x300800 + 0x20 * k, 30, 1, .rw, 0⟩
def TIM_TPOk_CFG_POL (k : Nat) : Fld := ⟨.img, 0x300800 + 0x20 * k, 29, 1, .rw, 0⟩
def TIM_TPOk_CFG_BASE (k : Nat) : Fld := ⟨.img, 0x300800 + 0x20 * k, 26, 3, .rw, 0x4⟩
def TIM_TPOk_CTL_ARM (k : Nat) : Fld := ⟨.sys, 0x300804 + 0x20 * k, 31, 1, .w1s, 0⟩
def TIM_TPOk_CTL_DISARM (k : Nat) : Fld := ⟨.sys, 0x300804 + 0x20 * k, 30, 1, .w1s, 0⟩
def TIM_TPOk_START_LO_START (k : Nat) : Fld := ⟨.sys, 0x300808 + 0x20 * k, 0, 32, .rw, 0⟩
def TIM_TPOk_START_HI_START (k : Nat) : Fld := ⟨.sys, 0x30080c + 0x20 * k, 0, 32, .rw, 0⟩
def TIM_TPOk_PER_PER (k : Nat) : Fld := ⟨.sys, 0x300810 + 0x20 * k, 0, 32, .rw, 0x3b9aca00⟩
def TIM_TPOk_WID_WID (k : Nat) : Fld := ⟨.sys, 0x300814 + 0x20 * k, 0, 32, .rw, 0x2710⟩
def TIM_TPOk_STAT_ARMED (k : Nat) : Fld := ⟨.sys, 0x300818 + 0x20 * k, 31, 1, .ro, 0⟩
def TIM_TPOk_STAT_LATE_STK (k : Nat) : Fld := ⟨.sys, 0x300818 + 0x20 * k, 30, 1, .w1c, 0⟩
def TIM_TPOk_STAT_SKIP (k : Nat) : Fld := ⟨.sys, 0x300818 + 0x20 * k, 0, 16, .ro, 0⟩
def TIM_TPOk_NEXT_NEXT (k : Nat) : Fld := ⟨.sys, 0x30081c + 0x20 * k, 0, 32, .ro, 0⟩
def TIM_TCIi_CFG_EN (i : Nat) : Fld := ⟨.img, 0x300c00 + 0x4 * i, 31, 1, .rwl, 0⟩
def TIM_TCIi_CFG_EDGE (i : Nat) : Fld := ⟨.img, 0x300c00 + 0x4 * i, 29, 2, .rwl, 0x1⟩
def TIM_TCIi_CFG_BASE (i : Nat) : Fld := ⟨.img, 0x300c00 + 0x4 * i, 26, 3, .rwl, 0x4⟩
def TIM_TCI_STAT_LOST : Fld := ⟨.sys, 0x300c40, 16, 16, .ro, 0⟩
def TIM_TCI_STAT_OVF_STK : Fld := ⟨.sys, 0x300c40, 15, 1, .w1c, 0⟩
def TIM_TCI_STAT_COUNT : Fld := ⟨.sys, 0x300c40, 0, 7, .ro, 0⟩
def TIM_TCI_INFO_VALID : Fld := ⟨.sys, 0x300c44, 31, 1, .ro, 0⟩
def TIM_TCI_INFO_RISE : Fld := ⟨.sys, 0x300c44, 30, 1, .ro, 0⟩
def TIM_TCI_INFO_BASE : Fld := ⟨.sys, 0x300c44, 27, 3, .ro, 0⟩
def TIM_TCI_INFO_INPUT : Fld := ⟨.sys, 0x300c44, 24, 3, .ro, 0⟩
def TIM_TCI_INFO_SEQ : Fld := ⟨.sys, 0x300c44, 0, 16, .ro, 0⟩
def TIM_TCI_TS_TS : Fld := ⟨.sys, 0x300c48, 0, 32, .ro, 0⟩
def TIM_TCI_POP_POP : Fld := ⟨.sys, 0x300c4c, 0, 1, .w1s, 0⟩

-- NET, field tables of R339
def NET_CTL_LOCK : Fld := ⟨.sys, 0x400000, 31, 1, .w1s, 0⟩
def NET_CFG_RMODE : Fld := ⟨.img, 0x400004, 31, 1, .rwl, 0⟩
def NET_CFG_HOSTMC : Fld := ⟨.img, 0x400004, 30, 1, .rwl, 0⟩
def NET_STAT_C0OK : Fld := ⟨.sys, 0x400008, 31, 1, .ro, 0⟩
def NET_STAT_HOSTDROP : Fld := ⟨.sys, 0x400008, 0, 16, .ro, 0⟩
def NET_C0CFG_RESV7 : Fld := ⟨.img, 0x40000c, 31, 1, .rwl, 0x1⟩
def NET_MAC_LO_MAC_LO : Fld := ⟨.kept, 0x400010, 0, 32, .ro, 0⟩
def NET_MAC_HI_MAC_HI : Fld := ⟨.kept, 0x400014, 0, 16, .ro, 0⟩
def NET_BCN_CFG_TAUTH : Fld := ⟨.img, 0x400018, 31, 1, .rwl, 0⟩
def NET_BCN_CFG_RAUTH : Fld := ⟨.img, 0x400018, 30, 1, .rwl, 0⟩
def NET_BCN_CFG_PCP : Fld := ⟨.img, 0x400018, 27, 3, .rwl, 0x5⟩
def NET_BCN_CFG_BCNBAD : Fld := ⟨.sys, 0x400018, 8, 16, .ro, 0⟩
def NET_BCN_CFG_KSLOT : Fld := ⟨.img, 0x400018, 0, 8, .rwl, 0⟩
def NET_SUP_CFG_INTV : Fld := ⟨.img, 0x40001c, 0, 14, .rwl, 0x7d0⟩
def NET_RED_CNT0_DUP : Fld := ⟨.sys, 0x400020, 16, 16, .ro, 0⟩
def NET_RED_CNT0_WRONGLAN : Fld := ⟨.sys, 0x400020, 0, 16, .ro, 0⟩
def NET_RED_CNT1_UNTAG : Fld := ⟨.sys, 0x400024, 16, 16, .ro, 0⟩
def NET_RED_CNT1_EVICT : Fld := ⟨.sys, 0x400024, 0, 16, .ro, 0⟩
def NET_C0DROP_C0DROP : Fld := ⟨.sys, 0x400028, 0, 32, .ro, 0⟩
def NET_Pp_CFG_SPEED (p : Nat) : Fld := ⟨.img, 0x401000 + 0x100 * p, 30, 2, .rwl, 0⟩
def NET_Pp_CFG_PREEMPT (p : Nat) : Fld := ⟨.img, 0x401000 + 0x100 * p, 29, 1, .rwl, 0⟩
def NET_Pp_CFG_ADDFRAG (p : Nat) : Fld := ⟨.img, 0x401000 + 0x100 * p, 27, 2, .rwl, 0⟩
def NET_Pp_CFG_DPCP (p : Nat) : Fld := ⟨.img, 0x401000 + 0x100 * p, 24, 3, .rwl, 0⟩
def NET_Pp_STAT_LINK (p : Nat) : Fld := ⟨.sys, 0x401004 + 0x100 * p, 31, 1, .ro, 0⟩
def NET_Pp_STAT_LINKCHG_STK (p : Nat) : Fld := ⟨.sys, 0x401004 + 0x100 * p, 30, 1, .w1c, 0⟩
def NET_Pp_STAT_VSTATE (p : Nat) : Fld := ⟨.sys, 0x401004 + 0x100 * p, 28, 2, .ro, 0⟩
def NET_Pp_STAT_GBANK (p : Nat) : Fld := ⟨.sys, 0x401004 + 0x100 * p, 27, 1, .ro, 0⟩
def NET_Pp_STAT_GRUN (p : Nat) : Fld := ⟨.sys, 0x401004 + 0x100 * p, 26, 1, .ro, 0⟩
def NET_Pp_PCPMAP_MAP (p : Nat) : Fld := ⟨.img, 0x401008 + 0x100 * p, 0, 32, .rwl, 0x76543210⟩
def NET_Pp_GCTL_SWAP (p : Nat) : Fld := ⟨.sys, 0x40100c + 0x100 * p, 31, 1, .w1s, 0⟩
def NET_Pp_GCTL_STOP (p : Nat) : Fld := ⟨.sys, 0x40100c + 0x100 * p, 30, 1, .w1s, 0⟩
def NET_Pp_GCTL_BASESEL (p : Nat) : Fld := ⟨.sys, 0x40100c + 0x100 * p, 29, 1, .rw, 0⟩
def NET_Pp_GCTL_LEN (p : Nat) : Fld := ⟨.sys, 0x40100c + 0x100 * p, 0, 6, .rw, 0⟩
def NET_Pp_GCYC_CYC (p : Nat) : Fld := ⟨.sys, 0x401010 + 0x100 * p, 0, 30, .rw, 0⟩
def NET_Pp_GBASE_LO_NS (p : Nat) : Fld := ⟨.sys, 0x401014 + 0x100 * p, 0, 32, .rw, 0⟩
def NET_Pp_GBASE_HI_NS (p : Nat) : Fld := ⟨.sys, 0x401018 + 0x100 * p, 0, 32, .rw, 0⟩
def NET_Pp_RX_RX (p : Nat) : Fld := ⟨.sys, 0x401020 + 0x100 * p, 0, 32, .ro, 0⟩
def NET_Pp_TX_TX (p : Nat) : Fld := ⟨.sys, 0x401024 + 0x100 * p, 0, 32, .ro, 0⟩
def NET_Pp_ERR_FCS (p : Nat) : Fld := ⟨.sys, 0x401028 + 0x100 * p, 16, 16, .ro, 0⟩
def NET_Pp_ERR_OVERSIZE (p : Nat) : Fld := ⟨.sys, 0x401028 + 0x100 * p, 8, 8, .ro, 0⟩
def NET_Pp_ERR_STOMP (p : Nat) : Fld := ⟨.sys, 0x401028 + 0x100 * p, 0, 8, .ro, 0⟩
def NET_Pp_DROP_Q (p : Nat) : Fld := ⟨.sys, 0x40102c + 0x100 * p, 0, 32, .ro, 0⟩
def NET_Pp_GCLe_GATES (p : Nat) (e : Nat) : Fld := ⟨.sys, 0x402000 + 0x100 * p + 0x4 * e, 24, 8, .rw, 0xff⟩
def NET_Pp_GCLe_INTV (p : Nat) (e : Nat) : Fld := ⟨.sys, 0x402000 + 0x100 * p + 0x4 * e, 0, 24, .rw, 0⟩
def NET_GCBc_CFG_PORTS (c : Nat) : Fld := ⟨.img, 0x408000 + 0x10 * c, 29, 3, .ro, 0⟩
def NET_GCBc_CFG_AUTH (c : Nat) : Fld := ⟨.img, 0x408000 + 0x10 * c, 28, 1, .ro, 0⟩
def NET_GCBc_CFG_KSLOT (c : Nat) : Fld := ⟨.img, 0x408000 + 0x10 * c, 20, 8, .ro, 0⟩
def NET_GCBc_TIM_T0 (c : Nat) : Fld := ⟨.img, 0x408004 + 0x10 * c, 16, 16, .ro, 0x7d0⟩
def NET_GCBc_TIM_T1 (c : Nat) : Fld := ⟨.img, 0x408004 + 0x10 * c, 0, 16, .ro, 0x4⟩
def NET_GCBc_ST_ST (c : Nat) : Fld := ⟨.sys, 0x408008 + 0x10 * c, 0, 32, .ro, 0⟩
def NET_GCBc_CNT_SENT (c : Nat) : Fld := ⟨.sys, 0x40800c + 0x10 * c, 16, 16, .ro, 0⟩
def NET_GCBc_CNT_SUPER (c : Nat) : Fld := ⟨.sys, 0x40800c + 0x10 * c, 0, 16, .ro, 0⟩
def NET_GSUBs_STAT_STATE (s : Nat) : Fld := ⟨.sys, 0x410000 + 0x10 * s, 29, 3, .ro, 0⟩
def NET_GSUBs_STAT_EXP_STK (s : Nat) : Fld := ⟨.sys, 0x410000 + 0x10 * s, 28, 1, .w1c, 0⟩
def NET_GSUBs_STAT_CONFREV_STK (s : Nat) : Fld := ⟨.sys, 0x410000 + 0x10 * s, 27, 1, .w1c, 0⟩
def NET_GSUBs_STAT_SIM_SEEN (s : Nat) : Fld := ⟨.sys, 0x410000 + 0x10 * s, 26, 1, .w1c, 0⟩
def NET_GSUBs_STAT_SPORT (s : Nat) : Fld := ⟨.img, 0x410000 + 0x10 * s, 24, 2, .ro, 0⟩
def NET_GSUBs_STAT_KSLOT (s : Nat) : Fld := ⟨.img, 0x410000 + 0x10 * s, 16, 8, .ro, 0⟩
def NET_GSUBs_STAT_AUTH (s : Nat) : Fld := ⟨.img, 0x410000 + 0x10 * s, 15, 1, .ro, 0⟩
def NET_GSUBs_STAT_SIMOK (s : Nat) : Fld := ⟨.img, 0x410000 + 0x10 * s, 14, 1, .ro, 0⟩
def NET_GSUBs_STAT_TALMARGIN (s : Nat) : Fld := ⟨.img, 0x410000 + 0x10 * s, 0, 14, .ro, 0⟩
def NET_GSUBs_ST_ST (s : Nat) : Fld := ⟨.sys, 0x410004 + 0x10 * s, 0, 32, .ro, 0⟩
def NET_GSUBs_CNT_DUP (s : Nat) : Fld := ⟨.sys, 0x410008 + 0x10 * s, 16, 16, .ro, 0⟩
def NET_GSUBs_CNT_OOS (s : Nat) : Fld := ⟨.sys, 0x410008 + 0x10 * s, 0, 16, .ro, 0⟩
def NET_GSUBs_ERR_AUTHFAIL (s : Nat) : Fld := ⟨.sys, 0x41000c + 0x10 * s, 16, 16, .ro, 0⟩
def NET_GSUBs_ERR_FORMAT (s : Nat) : Fld := ⟨.sys, 0x41000c + 0x10 * s, 0, 16, .ro, 0⟩

-- SVI, field tables of R143
def SVI_CTL_LOCK : Fld := ⟨.sys, 0x500000, 31, 1, .w1s, 0⟩
def SVI_CTL_SNAPREQ : Fld := ⟨.sys, 0x500000, 1, 1, .w1s, 0⟩
def SVI_CTL_DIRFLUSH : Fld := ⟨.sys, 0x500000, 0, 1, .w1s, 0⟩
def SVI_STAT_SNAP_BUSY : Fld := ⟨.sys, 0x500004, 31, 1, .ro, 0⟩
def SVI_STAT_RESTORED : Fld := ⟨.sys, 0x500004, 30, 1, .ro, 0⟩
def SVI_STAT_LASTCOPY : Fld := ⟨.sys, 0x500004, 29, 1, .ro, 0⟩
def SVI_DIR_CFG_AGE : Fld := ⟨.img, 0x500008, 16, 16, .rwl, 0x12c⟩
def SVI_DIR_CFG_SNAP : Fld := ⟨.img, 0x500008, 0, 12, .rwl, 0x3c⟩
def SVI_DIR_STAT_EVICT : Fld := ⟨.sys, 0x50000c, 16, 16, .ro, 0⟩
def SVI_DIR_STAT_USED : Fld := ⟨.sys, 0x50000c, 0, 13, .ro, 0⟩
def SVI_DIR_SEL_FETCH : Fld := ⟨.sys, 0x500010, 31, 1, .w1s, 0⟩
def SVI_DIR_SEL_READY : Fld := ⟨.sys, 0x500010, 30, 1, .ro, 0⟩
def SVI_DIR_SEL_EMPTY : Fld := ⟨.sys, 0x500010, 29, 1, .ro, 0⟩
def SVI_DIR_SEL_IDX : Fld := ⟨.sys, 0x500010, 0, 12, .rw, 0⟩
def SVI_DIR_BUFw_WORD (w : Nat) : Fld := ⟨.sys, 0x500200 + 0x4 * w, 0, 32, .ro, 0⟩
def SVI_SUBs_CFG_EN (s : Nat) : Fld := ⟨.img, 0x501000 + 0x40 * s, 31, 1, .rwl, 0⟩
def SVI_SUBs_CFG_AUTH (s : Nat) : Fld := ⟨.img, 0x501000 + 0x40 * s, 30, 1, .rwl, 0⟩
def SVI_SUBs_CFG_SIMOK (s : Nat) : Fld := ⟨.img, 0x501000 + 0x40 * s, 29, 1, .rwl, 0⟩
def SVI_SUBs_CFG_LOCALQ (s : Nat) : Fld := ⟨.img, 0x501000 + 0x40 * s, 28, 1, .rwl, 0⟩
def SVI_SUBs_CFG_RATE (s : Nat) : Fld := ⟨.img, 0x501000 + 0x40 * s, 25, 3, .rwl, 0x1⟩
def SVI_SUBs_CFG_NASDU (s : Nat) : Fld := ⟨.img, 0x501000 + 0x40 * s, 21, 4, .rwl, 0x1⟩
def SVI_SUBs_CFG_NQTY (s : Nat) : Fld := ⟨.img, 0x501000 + 0x40 * s, 16, 5, .rwl, 0x8⟩
def SVI_SUBs_CFG_RECOV (s : Nat) : Fld := ⟨.img, 0x501000 + 0x40 * s, 8, 8, .rwl, 0x8⟩
def SVI_SUBs_CFG_KSLOT (s : Nat) : Fld := ⟨.img, 0x501000 + 0x40 * s, 0, 8, .rwl, 0⟩
def SVI_SUBs_ID_APPID (s : Nat) : Fld := ⟨.img, 0x501004 + 0x40 * s, 0, 16, .rwl, 0x4000⟩
def SVI_SUBs_MAC_LO_MAC_LO (s : Nat) : Fld := ⟨.img, 0x501008 + 0x40 * s, 0, 32, .rwl, 0⟩
def SVI_SUBs_MAC_HI_MAC_HI (s : Nat) : Fld := ⟨.img, 0x50100c + 0x40 * s, 0, 16, .rwl, 0⟩
def SVI_SUBs_CONFREV_CONFREV (s : Nat) : Fld := ⟨.img, 0x501010 + 0x40 * s, 0, 32, .rwl, 0x1⟩
def SVI_SUBs_SVIDH_SVIDH (s : Nat) : Fld := ⟨.img, 0x501014 + 0x40 * s, 0, 32, .ro, 0⟩
def SVI_SUBs_MUDLY_MUDLY (s : Nat) : Fld := ⟨.img, 0x501018 + 0x40 * s, 0, 32, .rwl, 0⟩
def SVI_SUBs_NOMDLY_NOMDLY (s : Nat) : Fld := ⟨.img, 0x50101c + 0x40 * s, 0, 32, .rwl, 0⟩
def SVI_SUBs_MAXDLY_MAXDLY (s : Nat) : Fld := ⟨.img, 0x501020 + 0x40 * s, 0, 32, .rwl, 0x1e8480⟩
def SVI_SUBs_STAT_STATE (s : Nat) : Fld := ⟨.sys, 0x501024 + 0x40 * s, 29, 3, .ro, 0⟩
def SVI_SUBs_STAT_SYNC (s : Nat) : Fld := ⟨.sys, 0x501024 + 0x40 * s, 27, 2, .ro, 0⟩
def SVI_SUBs_STAT_LOST_STK (s : Nat) : Fld := ⟨.sys, 0x501024 + 0x40 * s, 26, 1, .w1c, 0⟩
def SVI_SUBs_STAT_CONFREV_STK (s : Nat) : Fld := ⟨.sys, 0x501024 + 0x40 * s, 25, 1, .w1c, 0⟩
def SVI_SUBs_STAT_SIM_SEEN (s : Nat) : Fld := ⟨.sys, 0x501024 + 0x40 * s, 24, 1, .w1c, 0⟩
def SVI_SUBs_STAT_DIRV (s : Nat) : Fld := ⟨.sys, 0x501024 + 0x40 * s, 23, 1, .ro, 0⟩
def SVI_SUBs_STAT_DIRIDX (s : Nat) : Fld := ⟨.sys, 0x501024 + 0x40 * s, 0, 12, .ro, 0⟩
def SVI_SUBs_DLY_DLY (s : Nat) : Fld := ⟨.sys, 0x501028 + 0x40 * s, 0, 32, .ro, 0⟩
def SVI_SUBs_DLYMAX_DLYMAX (s : Nat) : Fld := ⟨.sys, 0x50102c + 0x40 * s, 0, 32, .rc, 0x80000000⟩
def SVI_SUBs_RX_RX (s : Nat) : Fld := ⟨.sys, 0x501030 + 0x40 * s, 0, 32, .ro, 0⟩
def SVI_SUBs_MISS_MISSING (s : Nat) : Fld := ⟨.sys, 0x501034 + 0x40 * s, 16, 16, .ro, 0⟩
def SVI_SUBs_MISS_LOSSES (s : Nat) : Fld := ⟨.sys, 0x501034 + 0x40 * s, 0, 16, .ro, 0⟩
def SVI_SUBs_ERR_AUTHFAIL (s : Nat) : Fld := ⟨.sys, 0x501038 + 0x40 * s, 16, 16, .ro, 0⟩
def SVI_SUBs_ERR_FORMAT (s : Nat) : Fld := ⟨.sys, 0x501038 + 0x40 * s, 0, 16, .ro, 0⟩
def SVI_SUBs_LATE_LATE (s : Nat) : Fld := ⟨.sys, 0x50103c + 0x40 * s, 16, 16, .ro, 0⟩
def SVI_SUBs_LATE_DUP (s : Nat) : Fld := ⟨.sys, 0x50103c + 0x40 * s, 0, 16, .ro, 0⟩
def SVI_MAPm_EN (m : Nat) : Fld := ⟨.img, 0x504000 + 0x4 * m, 31, 1, .rwl, 0⟩
def SVI_MAPm_SUB (m : Nat) : Fld := ⟨.img, 0x504000 + 0x4 * m, 16, 6, .rwl, 0⟩
def SVI_MAPm_QTY (m : Nat) : Fld := ⟨.img, 0x504000 + 0x4 * m, 0, 5, .rwl, 0⟩

-- AFE, field tables of R80
def AFE_CTL_LOCK : Fld := ⟨.sys, 0x600000, 31, 1, .w1s, 0⟩
def AFE_CTL_LPM : Fld := ⟨.img, 0x600000, 8, 1, .rw, 0⟩
def AFE_CTL_REFSEL : Fld := ⟨.img, 0x600000, 4, 1, .rwl, 0⟩
def AFE_STAT_REF_RDY : Fld := ⟨.sys, 0x600004, 31, 1, .ro, 0⟩
def AFE_STAT_LPM_ACT : Fld := ⟨.sys, 0x600004, 30, 1, .ro, 0⟩
def AFE_STAT_LPM_REFUSED : Fld := ⟨.sys, 0x600004, 29, 1, .w1c, 0⟩
def AFE_STAT_REFSEL_ACT : Fld := ⟨.sys, 0x600004, 28, 1, .ro, 0⟩
def AFE_STAT_LPM_CH : Fld := ⟨.sys, 0x600004, 0, 6, .ro, 0⟩
def AFE_GRP_STAT_REF_FAIL_STK : Fld := ⟨.sys, 0x600008, 0, 13, .w1c, 0⟩
def AFE_GRP_LIVE_OVL : Fld := ⟨.sys, 0x60000c, 16, 12, .ro, 0⟩
def AFE_GRP_LIVE_REF_FAIL : Fld := ⟨.sys, 0x60000c, 0, 13, .ro, 0⟩
def AFE_CKk_CTL_EN (k : Nat) : Fld := ⟨.img, 0x600100 + 0x10 * k, 31, 1, .rwl, 0x1⟩
def AFE_CKk_CTL_RESTART (k : Nat) : Fld := ⟨.sys, 0x600100 + 0x10 * k, 30, 1, .w1s, 0⟩
def AFE_CKk_CTL_TOL_ABS (k : Nat) : Fld := ⟨.img, 0x600100 + 0x10 * k, 16, 8, .rwl, 0x32⟩
def AFE_CKk_CTL_TOL_REL (k : Nat) : Fld := ⟨.img, 0x600100 + 0x10 * k, 8, 8, .rwl, 0x14⟩
def AFE_CKk_CTL_DWELL (k : Nat) : Fld := ⟨.img, 0x600100 + 0x10 * k, 0, 8, .rwl, 0x14⟩
def AFE_CKk_STAT_FAILED (k : Nat) : Fld := ⟨.sys, 0x600104 + 0x10 * k, 31, 1, .ro, 0⟩
def AFE_CKk_STAT_FAILED_STK (k : Nat) : Fld := ⟨.sys, 0x600104 + 0x10 * k, 30, 1, .w1c, 0⟩
def AFE_CKk_STAT_POS (k : Nat) : Fld := ⟨.sys, 0x600104 + 0x10 * k, 24, 4, .ro, 0⟩
def AFE_CKk_STAT_INVAL (k : Nat) : Fld := ⟨.sys, 0x600104 + 0x10 * k, 12, 12, .ro, 0⟩
def AFE_CKk_STAT_SUSPECT (k : Nat) : Fld := ⟨.sys, 0x600104 + 0x10 * k, 0, 12, .ro, 0⟩
def AFE_CKk_LASTD_RESULT (k : Nat) : Fld := ⟨.sys, 0x600108 + 0x10 * k, 30, 2, .ro, 0⟩
def AFE_CKk_LASTD_POS (k : Nat) : Fld := ⟨.sys, 0x600108 + 0x10 * k, 24, 4, .ro, 0⟩
def AFE_CKk_LASTD_DIFF (k : Nat) : Fld := ⟨.sys, 0x600108 + 0x10 * k, 0, 24, .ro, 0⟩
def AFE_CKk_CNT_SWEEPS (k : Nat) : Fld := ⟨.sys, 0x60010c + 0x10 * k, 24, 8, .ro, 0⟩
def AFE_CKk_CNT_FAILS (k : Nat) : Fld := ⟨.sys, 0x60010c + 0x10 * k, 12, 12, .ro, 0⟩
def AFE_CKk_CNT_VOIDS (k : Nat) : Fld := ⟨.sys, 0x60010c + 0x10 * k, 0, 12, .ro, 0⟩
def AFE_CHn_CFG_EN (n : Nat) : Fld := ⟨.img, 0x601000 + 0x20 * n, 31, 1, .rwl, 0⟩
def AFE_CHn_CFG_GAIN (n : Nat) : Fld := ⟨.img, 0x601000 + 0x20 * n, 24, 2, .rw, 0⟩
def AFE_CHn_CFG_WMODE (n : Nat) : Fld := ⟨.img, 0x601000 + 0x20 * n, 21, 1, .rwl, 0⟩
def AFE_CHn_CFG_WK (n : Nat) : Fld := ⟨.img, 0x601000 + 0x20 * n, 16, 5, .rwl, 0x10⟩
def AFE_CHn_CFG_CKEXCL (n : Nat) : Fld := ⟨.img, 0x601000 + 0x20 * n, 8, 1, .rwl, 0⟩
def AFE_CHn_STAT_OVL (n : Nat) : Fld := ⟨.sys, 0x601004 + 0x20 * n, 31, 1, .ro, 0⟩
def AFE_CHn_STAT_OVL_STK (n : Nat) : Fld := ⟨.sys, 0x601004 + 0x20 * n, 30, 1, .w1c, 0⟩
def AFE_CHn_STAT_NBR (n : Nat) : Fld := ⟨.sys, 0x601004 + 0x20 * n, 29, 1, .ro, 0⟩
def AFE_CHn_STAT_CK_INVAL (n : Nat) : Fld := ⟨.sys, 0x601004 + 0x20 * n, 28, 1, .ro, 0⟩
def AFE_CHn_STAT_WFB (n : Nat) : Fld := ⟨.sys, 0x601004 + 0x20 * n, 27, 1, .ro, 0⟩
def AFE_CHn_STAT_OVL_CNT (n : Nat) : Fld := ⟨.sys, 0x601004 + 0x20 * n, 0, 16, .ro, 0⟩
def AFE_CHn_SEQ_SEQ (n : Nat) : Fld := ⟨.sys, 0x601008 + 0x20 * n, 0, 32, .ro, 0⟩
def AFE_CHn_CNT_UFLG (n : Nat) : Fld := ⟨.sys, 0x60100c + 0x20 * n, 31, 1, .ro, 0⟩
def AFE_CHn_CNT_OFLG (n : Nat) : Fld := ⟨.sys, 0x60100c + 0x20 * n, 30, 1, .ro, 0⟩
def AFE_CHn_CNT_NFLG (n : Nat) : Fld := ⟨.sys, 0x60100c + 0x20 * n, 29, 1, .ro, 0⟩
def AFE_CHn_CNT_COUNT (n : Nat) : Fld := ⟨.sys, 0x60100c + 0x20 * n, 0, 21, .ro, 0⟩
def AFE_CHn_SUM_LO_SUM (n : Nat) : Fld := ⟨.sys, 0x601010 + 0x20 * n, 0, 32, .ro, 0⟩
def AFE_CHn_SUM_HI_SUM (n : Nat) : Fld := ⟨.sys, 0x601014 + 0x20 * n, 0, 32, .ro, 0⟩
def AFE_CHn_SQ_LO_SQ (n : Nat) : Fld := ⟨.sys, 0x601018 + 0x20 * n, 0, 32, .ro, 0⟩
def AFE_CHn_SQ_HI_SQ (n : Nat) : Fld := ⟨.sys, 0x60101c + 0x20 * n, 0, 32, .ro, 0⟩
def AFE_CHn_MIN_MIN (n : Nat) : Fld := ⟨.sys, 0x602000 + 0x8 * n, 0, 32, .ro, 0⟩
def AFE_CHn_MAX_MAX (n : Nat) : Fld := ⟨.sys, 0x602004 + 0x8 * n, 0, 32, .ro, 0⟩

-- DCH, field tables of R114
def DCH_CTL_LOCK : Fld := ⟨.sys, 0x700000, 31, 1, .w1s, 0⟩
def DCH_LD_SEL_KIND : Fld := ⟨.sys, 0x700004, 31, 1, .rw, 0⟩
def DCH_LD_SEL_STAGE : Fld := ⟨.sys, 0x700004, 28, 3, .rw, 0x1⟩
def DCH_LD_SEL_IDX : Fld := ⟨.sys, 0x700004, 20, 8, .rw, 0⟩
def DCH_LD_SEL_K : Fld := ⟨.sys, 0x700004, 16, 4, .rw, 0x4⟩
def DCH_LD_SEL_BANK : Fld := ⟨.sys, 0x700004, 8, 1, .rw, 0⟩
def DCH_LD_SEL_PROF : Fld := ⟨.sys, 0x700004, 0, 1, .rw, 0⟩
def DCH_LD_DATA_DATA : Fld := ⟨.sys, 0x700008, 0, 32, .wo, 0⟩
def DCH_LD_CMD_COMMIT : Fld := ⟨.sys, 0x70000c, 1, 1, .wo, 0⟩
def DCH_LD_CMD_OPEN : Fld := ⟨.sys, 0x70000c, 0, 1, .wo, 0⟩
def DCH_LD_STAT_BUSY : Fld := ⟨.sys, 0x700010, 31, 1, .ro, 0⟩
def DCH_LD_STAT_OPENED : Fld := ⟨.sys, 0x700010, 30, 1, .ro, 0⟩
def DCH_LD_STAT_COUNT : Fld := ⟨.sys, 0x700010, 12, 13, .ro, 0⟩
def DCH_LD_STAT_RESULT : Fld := ⟨.sys, 0x700010, 0, 3, .ro, 0⟩
def DCH_CHn_CTL_RUN (n : Nat) : Fld := ⟨.img, 0x701000 + 0x40 * n, 31, 1, .rw, 0⟩
def DCH_CHn_CTL_SRST (n : Nat) : Fld := ⟨.sys, 0x701000 + 0x40 * n, 30, 1, .w1s, 0⟩
def DCH_CHn_CFG_NHB (n : Nat) : Fld := ⟨.img, 0x701004 + 0x40 * n, 8, 3, .rw, 0x2⟩
def DCH_CHn_CFG_FADE (n : Nat) : Fld := ⟨.img, 0x701004 + 0x40 * n, 0, 8, .rw, 0xf⟩
def DCH_CHn_BREQ_STAGE (n : Nat) : Fld := ⟨.sys, 0x701008 + 0x40 * n, 1, 3, .wo, 0⟩
def DCH_CHn_BREQ_BANK (n : Nat) : Fld := ⟨.sys, 0x701008 + 0x40 * n, 0, 1, .wo, 0⟩
def DCH_CHn_BSTAT_LOADED (n : Nat) : Fld := ⟨.img, 0x70100c + 0x40 * n, 20, 10, .ro, 0⟩
def DCH_CHn_BSTAT_PENDBANK5 (n : Nat) : Fld := ⟨.sys, 0x70100c + 0x40 * n, 19, 1, .ro, 0⟩
def DCH_CHn_BSTAT_PEND5 (n : Nat) : Fld := ⟨.sys, 0x70100c + 0x40 * n, 18, 1, .ro, 0⟩
def DCH_CHn_BSTAT_FADE_BUSY5 (n : Nat) : Fld := ⟨.sys, 0x70100c + 0x40 * n, 17, 1, .ro, 0⟩
def DCH_CHn_BSTAT_ACT5 (n : Nat) : Fld := ⟨.img, 0x70100c + 0x40 * n, 16, 1, .ro, 0⟩
def DCH_CHn_BSTAT_PENDBANK4 (n : Nat) : Fld := ⟨.sys, 0x70100c + 0x40 * n, 15, 1, .ro, 0⟩
def DCH_CHn_BSTAT_PEND4 (n : Nat) : Fld := ⟨.sys, 0x70100c + 0x40 * n, 14, 1, .ro, 0⟩
def DCH_CHn_BSTAT_FADE_BUSY4 (n : Nat) : Fld := ⟨.sys, 0x70100c + 0x40 * n, 13, 1, .ro, 0⟩
def DCH_CHn_BSTAT_ACT4 (n : Nat) : Fld := ⟨.img, 0x70100c + 0x40 * n, 12, 1, .ro, 0⟩
def DCH_CHn_BSTAT_PENDBANK3 (n : Nat) : Fld := ⟨.sys, 0x70100c + 0x40 * n, 11, 1, .ro, 0⟩
def DCH_CHn_BSTAT_PEND3 (n : Nat) : Fld := ⟨.sys, 0x70100c + 0x40 * n, 10, 1, .ro, 0⟩
def DCH_CHn_BSTAT_FADE_BUSY3 (n : Nat) : Fld := ⟨.sys, 0x70100c + 0x40 * n, 9, 1, .ro, 0⟩
def DCH_CHn_BSTAT_ACT3 (n : Nat) : Fld := ⟨.img, 0x70100c + 0x40 * n, 8, 1, .ro, 0⟩
def DCH_CHn_BSTAT_PENDBANK2 (n : Nat) : Fld := ⟨.sys, 0x70100c + 0x40 * n, 7, 1, .ro, 0⟩
def DCH_CHn_BSTAT_PEND2 (n : Nat) : Fld := ⟨.sys, 0x70100c + 0x40 * n, 6, 1, .ro, 0⟩
def DCH_CHn_BSTAT_FADE_BUSY2 (n : Nat) : Fld := ⟨.sys, 0x70100c + 0x40 * n, 5, 1, .ro, 0⟩
def DCH_CHn_BSTAT_ACT2 (n : Nat) : Fld := ⟨.img, 0x70100c + 0x40 * n, 4, 1, .ro, 0⟩
def DCH_CHn_BSTAT_PENDBANK1 (n : Nat) : Fld := ⟨.sys, 0x70100c + 0x40 * n, 3, 1, .ro, 0⟩
def DCH_CHn_BSTAT_PEND1 (n : Nat) : Fld := ⟨.sys, 0x70100c + 0x40 * n, 2, 1, .ro, 0⟩
def DCH_CHn_BSTAT_FADE_BUSY1 (n : Nat) : Fld := ⟨.sys, 0x70100c + 0x40 * n, 1, 1, .ro, 0⟩
def DCH_CHn_BSTAT_ACT1 (n : Nat) : Fld := ⟨.img, 0x70100c + 0x40 * n, 0, 1, .ro, 0⟩
def DCH_CHn_STAT_UNSET (n : Nat) : Fld := ⟨.sys, 0x701010 + 0x40 * n, 31, 1, .ro, 0⟩
def DCH_CHn_STAT_NHB_REFUSED (n : Nat) : Fld := ⟨.sys, 0x701010 + 0x40 * n, 30, 1, .w1c, 0⟩
def DCH_CHn_STAT_BREQ_REFUSED (n : Nat) : Fld := ⟨.sys, 0x701010 + 0x40 * n, 29, 1, .w1c, 0⟩
def DCH_CHn_STAT_SAT_STK (n : Nat) : Fld := ⟨.sys, 0x701010 + 0x40 * n, 28, 1, .w1c, 0⟩
def DCH_CHn_STAT_RUN_REFUSED (n : Nat) : Fld := ⟨.sys, 0x701010 + 0x40 * n, 27, 1, .w1c, 0⟩
def DCH_CHn_STAT_SATCNT (n : Nat) : Fld := ⟨.sys, 0x701010 + 0x40 * n, 0, 16, .ro, 0⟩
def DCH_CHn_KACT_KACT (n : Nat) : Fld := ⟨.img, 0x701014 + 0x40 * n, 0, 20, .ro, 0⟩
def DCH_RSm_CTL_RUN (m : Nat) : Fld := ⟨.img, 0x704000 + 0x40 * m, 31, 1, .rw, 0⟩
def DCH_RSm_CTL_SRST (m : Nat) : Fld := ⟨.sys, 0x704000 + 0x40 * m, 30, 1, .w1s, 0⟩
def DCH_RSm_CFG_SRCSEL (m : Nat) : Fld := ⟨.img, 0x704004 + 0x40 * m, 31, 1, .rwl, 0⟩
def DCH_RSm_CFG_SRC (m : Nat) : Fld := ⟨.img, 0x704004 + 0x40 * m, 24, 6, .rwl, 0⟩
def DCH_RSm_CFG_FADE (m : Nat) : Fld := ⟨.img, 0x704004 + 0x40 * m, 0, 8, .rw, 0x7⟩
def DCH_RSm_SCALE_SCALE (m : Nat) : Fld := ⟨.img, 0x704008 + 0x40 * m, 0, 32, .rw, 0x3f800000⟩
def DCH_RSm_BREQ_BANK (m : Nat) : Fld := ⟨.sys, 0x70400c + 0x40 * m, 0, 1, .wo, 0⟩
def DCH_RSm_STAT_UNSET (m : Nat) : Fld := ⟨.sys, 0x704010 + 0x40 * m, 31, 1, .ro, 0⟩
def DCH_RSm_STAT_BREQ_REFUSED (m : Nat) : Fld := ⟨.sys, 0x704010 + 0x40 * m, 30, 1, .w1c, 0⟩
def DCH_RSm_STAT_CFG_REFUSED (m : Nat) : Fld := ⟨.sys, 0x704010 + 0x40 * m, 29, 1, .w1c, 0⟩
def DCH_RSm_STAT_LOADED_B (m : Nat) : Fld := ⟨.img, 0x704010 + 0x40 * m, 7, 1, .ro, 0⟩
def DCH_RSm_STAT_LOADED_A (m : Nat) : Fld := ⟨.img, 0x704010 + 0x40 * m, 6, 1, .ro, 0⟩
def DCH_RSm_STAT_PROF_B (m : Nat) : Fld := ⟨.img, 0x704010 + 0x40 * m, 5, 1, .ro, 0⟩
def DCH_RSm_STAT_PROF_A (m : Nat) : Fld := ⟨.img, 0x704010 + 0x40 * m, 4, 1, .ro, 0⟩
def DCH_RSm_STAT_PENDBANK (m : Nat) : Fld := ⟨.sys, 0x704010 + 0x40 * m, 3, 1, .ro, 0⟩
def DCH_RSm_STAT_PEND (m : Nat) : Fld := ⟨.sys, 0x704010 + 0x40 * m, 2, 1, .ro, 0⟩
def DCH_RSm_STAT_FADE_BUSY (m : Nat) : Fld := ⟨.sys, 0x704010 + 0x40 * m, 1, 1, .ro, 0⟩
def DCH_RSm_STAT_ACT (m : Nat) : Fld := ⟨.img, 0x704010 + 0x40 * m, 0, 1, .ro, 0⟩
def DCH_RSm_DELAY_DELAY (m : Nat) : Fld := ⟨.sys, 0x704014 + 0x40 * m, 0, 32, .ro, 0⟩
def DCH_RSm_REL_REL (m : Nat) : Fld := ⟨.sys, 0x704018 + 0x40 * m, 0, 32, .ro, 0⟩
def DCH_RSm_CNT_BRIDGED (m : Nat) : Fld := ⟨.sys, 0x70401c + 0x40 * m, 16, 16, .ro, 0⟩
def DCH_RSm_CNT_UNWRITTEN (m : Nat) : Fld := ⟨.sys, 0x70401c + 0x40 * m, 0, 16, .ro, 0⟩

-- ESP, field tables of R168
def ESP_CTL_LOCK : Fld := ⟨.sys, 0x800000, 31, 1, .w1s, 0⟩
def ESP_GRP_FTG_FTG : Fld := ⟨.img, 0x800004, 0, 16, .ro, 0⟩
def ESP_STAT_PERR_STK : Fld := ⟨.sys, 0x800008, 31, 1, .w1c, 0⟩
def ESP_STAT_FTG_EN : Fld := ⟨.img, 0x800008, 0, 4, .ro, 0⟩
def ESP_PERR_CNT : Fld := ⟨.sys, 0x80000c, 20, 12, .ro, 0⟩
def ESP_PERR_ADDR : Fld := ⟨.sys, 0x80000c, 0, 20, .ro, 0⟩
def ESP_FTGg_CFG_MODE (g : Nat) : Fld := ⟨.img, 0x800100 + 0x40 * g, 31, 1, .rwl, 0⟩
def ESP_FTGg_CFG_FNOM (g : Nat) : Fld := ⟨.img, 0x800100 + 0x40 * g, 30, 1, .rwl, 0⟩
def ESP_FTGg_CFG_N (g : Nat) : Fld := ⟨.img, 0x800100 + 0x40 * g, 24, 4, .rwl, 0x4⟩
def ESP_FTGg_CFG_HOLDC (g : Nat) : Fld := ⟨.img, 0x800100 + 0x40 * g, 12, 12, .rwl, 0x64⟩
def ESP_FTGg_TRK_VMODE (g : Nat) : Fld := ⟨.img, 0x800104 + 0x40 * g, 31, 1, .rwl, 0⟩
def ESP_FTGg_TRK_IMODE (g : Nat) : Fld := ⟨.img, 0x800104 + 0x40 * g, 30, 1, .rwl, 0⟩
def ESP_FTGg_TRK_STEP (g : Nat) : Fld := ⟨.img, 0x800104 + 0x40 * g, 0, 16, .rwl, 0x1f4⟩
def ESP_FTGg_VSRC_C2 (g : Nat) : Fld := ⟨.img, 0x800108 + 0x40 * g, 16, 8, .rwl, 0⟩
def ESP_FTGg_VSRC_C1 (g : Nat) : Fld := ⟨.img, 0x800108 + 0x40 * g, 8, 8, .rwl, 0⟩
def ESP_FTGg_VSRC_C0 (g : Nat) : Fld := ⟨.img, 0x800108 + 0x40 * g, 0, 8, .rwl, 0⟩
def ESP_FTGg_ISRC_C2 (g : Nat) : Fld := ⟨.img, 0x80010c + 0x40 * g, 16, 8, .rwl, 0⟩
def ESP_FTGg_ISRC_C1 (g : Nat) : Fld := ⟨.img, 0x80010c + 0x40 * g, 8, 8, .rwl, 0⟩
def ESP_FTGg_ISRC_C0 (g : Nat) : Fld := ⟨.img, 0x80010c + 0x40 * g, 0, 8, .rwl, 0⟩
def ESP_FTGg_VMIN_VMIN (g : Nat) : Fld := ⟨.img, 0x800110 + 0x40 * g, 0, 32, .rwl, 0⟩
def ESP_FTGg_IMIN_IMIN (g : Nat) : Fld := ⟨.img, 0x800114 + 0x40 * g, 0, 32, .rwl, 0⟩
def ESP_FTGg_LATE_LATE (g : Nat) : Fld := ⟨.img, 0x800118 + 0x40 * g, 0, 14, .rwl, 0x7d0⟩
def ESP_FTGg_STAT_STATE (g : Nat) : Fld := ⟨.sys, 0x80011c + 0x40 * g, 29, 3, .ro, 0⟩
def ESP_FTGg_STAT_LIMIT (g : Nat) : Fld := ⟨.sys, 0x80011c + 0x40 * g, 28, 1, .ro, 0⟩
def ESP_FTGg_STAT_NACT (g : Nat) : Fld := ⟨.sys, 0x80011c + 0x40 * g, 24, 4, .ro, 0x4⟩
def ESP_FTGg_STAT_MODEACT (g : Nat) : Fld := ⟨.sys, 0x80011c + 0x40 * g, 23, 1, .ro, 0⟩
def ESP_FTGg_STAT_LIMIT_STK (g : Nat) : Fld := ⟨.sys, 0x80011c + 0x40 * g, 22, 1, .w1c, 0⟩
def ESP_FTGg_STAT_HOLD_STK (g : Nat) : Fld := ⟨.sys, 0x80011c + 0x40 * g, 21, 1, .w1c, 0⟩
def ESP_FTGg_STAT_CFG_REFUSED (g : Nat) : Fld := ⟨.sys, 0x80011c + 0x40 * g, 20, 1, .w1c, 0⟩
def ESP_FTGg_STAT_STEP_STK (g : Nat) : Fld := ⟨.sys, 0x80011c + 0x40 * g, 19, 1, .w1c, 0⟩
def ESP_FTGg_FREQ_FREQ (g : Nat) : Fld := ⟨.sys, 0x800120 + 0x40 * g, 0, 32, .ro, 0⟩
def ESP_FTGg_HEAD_VALID (g : Nat) : Fld := ⟨.sys, 0x800124 + 0x40 * g, 31, 1, .ro, 0⟩
def ESP_FTGg_HEAD_SLOT (g : Nat) : Fld := ⟨.sys, 0x800124 + 0x40 * g, 0, 9, .ro, 0⟩
def ESP_FTGg_DLN_DLN (g : Nat) : Fld := ⟨.sys, 0x800128 + 0x40 * g, 0, 32, .ro, 0⟩
def ESP_FTGg_LAG_LAG (g : Nat) : Fld := ⟨.sys, 0x80012c + 0x40 * g, 0, 32, .ro, 0⟩
def ESP_FTGg_LAGMAX_LAGMAX (g : Nat) : Fld := ⟨.sys, 0x800130 + 0x40 * g, 0, 32, .rc, 0⟩
def ESP_FTGg_CNT_DLCLOSE (g : Nat) : Fld := ⟨.sys, 0x800134 + 0x40 * g, 16, 16, .ro, 0⟩
def ESP_FTGg_CNT_LATEWR (g : Nat) : Fld := ⟨.sys, 0x800134 + 0x40 * g, 0, 16, .ro, 0⟩
def ESP_FTGg_FILL_FILL (g : Nat) : Fld := ⟨.sys, 0x800138 + 0x40 * g, 0, 32, .ro, 0⟩
def ESP_FTGg_FMEAS_VALID (g : Nat) : Fld := ⟨.sys, 0x80013c + 0x40 * g, 31, 1, .ro, 0⟩
def ESP_FTGg_FMEAS_FMEAS (g : Nat) : Fld := ⟨.sys, 0x80013c + 0x40 * g, 0, 27, .ro, 0⟩

-- ELC, field tables of R198
def ELCn_CTL_LOCK (n : Nat) : Fld := ⟨.sys, 0x900000 + 0x10000 * n, 31, 1, .w1s, 0⟩
def ELCn_CTL_BRST (n : Nat) : Fld := ⟨.sys, 0x900000 + 0x10000 * n, 30, 1, .w1s, 0⟩
def ELCn_STAT_STATE (n : Nat) : Fld := ⟨.blk, 0x900004 + 0x10000 * n, 29, 3, .ro, 0⟩
def ELCn_STAT_QTIMED (n : Nat) : Fld := ⟨.blk, 0x900004 + 0x10000 * n, 28, 1, .ro, 0⟩
def ELCn_STAT_BREACH_STK (n : Nat) : Fld := ⟨.blk, 0x900004 + 0x10000 * n, 27, 1, .w1c, 0⟩
def ELCn_STAT_LAG_STK (n : Nat) : Fld := ⟨.blk, 0x900004 + 0x10000 * n, 26, 1, .w1c, 0⟩
def ELCn_STAT_VWR_STK (n : Nat) : Fld := ⟨.blk, 0x900004 + 0x10000 * n, 25, 1, .w1c, 0⟩
def ELCn_STAT_ECC_STK (n : Nat) : Fld := ⟨.blk, 0x900004 + 0x10000 * n, 24, 1, .w1c, 0⟩
def ELCn_STAT_CAUSE (n : Nat) : Fld := ⟨.blk, 0x900004 + 0x10000 * n, 20, 4, .ro, 0⟩
def ELCn_C0BOUND_BUDGET (n : Nat) : Fld := ⟨.img, 0x900008 + 0x10000 * n, 16, 11, .ro, 0x4b0⟩
def ELCn_C0BOUND_BOUND (n : Nat) : Fld := ⟨.img, 0x900008 + 0x10000 * n, 0, 11, .ro, 0⟩
def ELCn_C0LAST_LAST (n : Nat) : Fld := ⟨.blk, 0x90000c + 0x10000 * n, 0, 11, .ro, 0⟩
def ELCn_C0MAX_MAX (n : Nat) : Fld := ⟨.blk, 0x900010 + 0x10000 * n, 0, 11, .rc, 0⟩
def ELCn_CNT_BREACH (n : Nat) : Fld := ⟨.sys, 0x900014 + 0x10000 * n, 16, 16, .ro, 0⟩
def ELCn_CNT_LAGF (n : Nat) : Fld := ⟨.sys, 0x900014 + 0x10000 * n, 0, 16, .ro, 0⟩
def ELCn_DROP_C3 (n : Nat) : Fld := ⟨.sys, 0x900018 + 0x10000 * n, 0, 32, .ro, 0⟩
def ELCn_TICK_OPEN (n : Nat) : Fld := ⟨.blk, 0x90001c + 0x10000 * n, 0, 4, .ro, 0⟩
def ELCn_ECC_CORR (n : Nat) : Fld := ⟨.sys, 0x900020 + 0x10000 * n, 16, 16, .ro, 0⟩
def ELCn_ECC_UNCORR (n : Nat) : Fld := ⟨.sys, 0x900020 + 0x10000 * n, 0, 16, .ro, 0⟩
def ELCn_TICKIX_TICK (n : Nat) : Fld := ⟨.blk, 0x900024 + 0x10000 * n, 0, 32, .ro, 0⟩
def ELCn_BAYj_MODE_ACT (n : Nat) (j : Nat) : Fld := ⟨.sys, 0x900100 + 0x10000 * n + 0x20 * j, 16, 3, .ro, 0x5⟩
def ELCn_BAYj_MODE_REQ (n : Nat) (j : Nat) : Fld := ⟨.img, 0x900100 + 0x10000 * n + 0x20 * j, 0, 3, .rw, 0x5⟩
def ELCn_BAYj_SG_DEF (n : Nat) (j : Nat) : Fld := ⟨.img, 0x900104 + 0x10000 * n + 0x20 * j, 16, 8, .ro, 0x1⟩
def ELCn_BAYj_SG_PEND (n : Nat) (j : Nat) : Fld := ⟨.sys, 0x900104 + 0x10000 * n + 0x20 * j, 15, 1, .ro, 0⟩
def ELCn_BAYj_SG_SG_REFUSED (n : Nat) (j : Nat) : Fld := ⟨.sys, 0x900104 + 0x10000 * n + 0x20 * j, 14, 1, .w1c, 0⟩
def ELCn_BAYj_SG_ACT (n : Nat) (j : Nat) : Fld := ⟨.sys, 0x900104 + 0x10000 * n + 0x20 * j, 8, 3, .ro, 0⟩
def ELCn_BAYj_SG_REQ (n : Nat) (j : Nat) : Fld := ⟨.img, 0x900104 + 0x10000 * n + 0x20 * j, 0, 3, .rw, 0⟩
def ELCn_BAYj_VST_QTIMED (n : Nat) (j : Nat) : Fld := ⟨.blk, 0x900108 + 0x10000 * n + 0x20 * j, 31, 1, .ro, 0⟩
def ELCn_BAYj_VST_TEST (n : Nat) (j : Nat) : Fld := ⟨.blk, 0x900108 + 0x10000 * n + 0x20 * j, 30, 1, .ro, 0⟩
def ELCn_BAYj_VST_OUTBLK (n : Nat) (j : Nat) : Fld := ⟨.blk, 0x900108 + 0x10000 * n + 0x20 * j, 29, 1, .ro, 0x1⟩
def ELCn_BAYj_VST_INVALID (n : Nat) (j : Nat) : Fld := ⟨.blk, 0x900108 + 0x10000 * n + 0x20 * j, 28, 1, .ro, 0x1⟩
def ELCn_BAYj_VST_TRIPOUT (n : Nat) (j : Nat) : Fld := ⟨.blk, 0x900108 + 0x10000 * n + 0x20 * j, 24, 2, .ro, 0⟩
def ELCn_BAYj_VST_SNAPTK (n : Nat) (j : Nat) : Fld := ⟨.blk, 0x900108 + 0x10000 * n + 0x20 * j, 0, 16, .ro, 0⟩

-- THN, field tables of R268
def THN_CTL_LOCK : Fld := ⟨.sys, 0xa00000, 31, 1, .w1s, 0⟩
def THN_STAT_SAFE : Fld := ⟨.sys, 0xa00004, 31, 1, .ro, 0⟩
def THN_STAT_RB_STK : Fld := ⟨.sys, 0xa00004, 30, 1, .w1c, 0⟩
def THN_STAT_BEV_OVF_STK : Fld := ⟨.sys, 0xa00004, 29, 1, .w1c, 0⟩
def THN_STAT_CHAT_STK : Fld := ⟨.sys, 0xa00004, 28, 1, .w1c, 0⟩
def THN_STAT_STRFAIL_STK : Fld := ⟨.sys, 0xa00004, 27, 1, .w1c, 0⟩
def THN_TRIP_LO_LEVEL : Fld := ⟨.sys, 0xa00008, 0, 32, .ro, 0⟩
def THN_TRIP_HI_LEVEL : Fld := ⟨.sys, 0xa0000c, 0, 16, .ro, 0⟩
def THN_RB_LO_MISM : Fld := ⟨.sys, 0xa00010, 0, 32, .w1c, 0⟩
def THN_RB_HI_MISM : Fld := ⟨.sys, 0xa00014, 0, 16, .w1c, 0⟩
def THN_GPO_LEVEL : Fld := ⟨.sys, 0xa00018, 0, 16, .ro, 0⟩
def THN_GPO_HOSTW_VAL : Fld := ⟨.sys, 0xa0001c, 0, 16, .rw, 0⟩
def THN_GPO_OWN_HOST : Fld := ⟨.img, 0xa00020, 0, 16, .ro, 0⟩
def THN_BIN_LO_LEVEL : Fld := ⟨.sys, 0xa00024, 0, 32, .ro, 0⟩
def THN_BIN_HI_LEVEL : Fld := ⟨.sys, 0xa00028, 0, 32, .ro, 0⟩
def THN_BCHAT_LO_FROZEN : Fld := ⟨.sys, 0xa0002c, 0, 32, .ro, 0⟩
def THN_BCHAT_HI_FROZEN : Fld := ⟨.sys, 0xa00030, 0, 32, .ro, 0⟩
def THN_BEV_STAT_LOST : Fld := ⟨.sys, 0xa00034, 16, 16, .ro, 0⟩
def THN_BEV_STAT_COUNT : Fld := ⟨.sys, 0xa00034, 0, 9, .ro, 0⟩
def THN_BEV_INFO_VALID : Fld := ⟨.sys, 0xa00038, 31, 1, .ro, 0⟩
def THN_BEV_INFO_LEVEL : Fld := ⟨.sys, 0xa00038, 30, 1, .ro, 0⟩
def THN_BEV_INFO_CHATREL : Fld := ⟨.sys, 0xa00038, 29, 1, .ro, 0⟩
def THN_BEV_INFO_BIN : Fld := ⟨.sys, 0xa00038, 16, 6, .ro, 0⟩
def THN_BEV_INFO_SEQ : Fld := ⟨.sys, 0xa00038, 0, 16, .ro, 0⟩
def THN_BEV_TS_LO_TS : Fld := ⟨.sys, 0xa0003c, 0, 32, .ro, 0⟩
def THN_BEV_TS_HI_TS : Fld := ⟨.sys, 0xa00040, 0, 32, .ro, 0⟩
def THN_BEV_POP_POP : Fld := ⟨.sys, 0xa00044, 0, 1, .w1s, 0⟩
def THN_BAYb_CFG_ARM (b : Nat) : Fld := ⟨.img, 0xa01000 + 0x10 * b, 31, 1, .rwl, 0⟩
def THN_BAYb_CFG_SMODE (b : Nat) : Fld := ⟨.img, 0xa01000 + 0x10 * b, 30, 1, .rwl, 0⟩
def THN_BAYb_CFG_FAILMODE (b : Nat) : Fld := ⟨.img, 0xa01000 + 0x10 * b, 29, 1, .rwl, 0⟩
def THN_BAYb_CFG_CHMASK (b : Nat) : Fld := ⟨.img, 0xa01000 + 0x10 * b, 16, 8, .rwl, 0⟩
def THN_BAYb_CFG_FMASK (b : Nat) : Fld := ⟨.img, 0xa01000 + 0x10 * b, 8, 8, .rwl, 0x88⟩
def THN_BAYb_TIM_TMIN (b : Nat) : Fld := ⟨.img, 0xa01004 + 0x10 * b, 16, 16, .rwl, 0⟩
def THN_BAYb_TIM_HOLD (b : Nat) : Fld := ⟨.img, 0xa01004 + 0x10 * b, 0, 16, .rwl, 0x64⟩
def THN_BAYb_THR_THR (b : Nat) : Fld := ⟨.img, 0xa01008 + 0x10 * b, 0, 32, .rwl, 0x7f800000⟩
def THN_BAYb_STAT_PERMIT (b : Nat) : Fld := ⟨.sys, 0xa0100c + 0x10 * b, 31, 1, .ro, 0⟩
def THN_BAYb_STAT_STRFAIL (b : Nat) : Fld := ⟨.sys, 0xa0100c + 0x10 * b, 30, 1, .ro, 0⟩
def THN_BAYb_STAT_PERMIT_STK (b : Nat) : Fld := ⟨.sys, 0xa0100c + 0x10 * b, 29, 1, .w1c, 0⟩
def THN_BAYb_STAT_STRFAIL_STK (b : Nat) : Fld := ⟨.sys, 0xa0100c + 0x10 * b, 28, 1, .w1c, 0⟩
def THN_BAYb_STAT_PICKUPS (b : Nat) : Fld := ⟨.sys, 0xa0100c + 0x10 * b, 0, 16, .ro, 0⟩
def THN_BINi_CFG_INV (i : Nat) : Fld := ⟨.img, 0xa02000 + 0x4 * i, 31, 1, .rwl, 0⟩
def THN_BINi_CFG_CHEN (i : Nat) : Fld := ⟨.img, 0xa02000 + 0x4 * i, 30, 1, .rwl, 0⟩
def THN_BINi_CFG_CHATN (i : Nat) : Fld := ⟨.img, 0xa02000 + 0x4 * i, 16, 8, .rwl, 0x14⟩
def THN_BINi_CFG_DEB (i : Nat) : Fld := ⟨.img, 0xa02000 + 0x4 * i, 0, 7, .rwl, 0xa⟩

-- SCH, field tables of R302
def SCH_CTL_LOCK : Fld := ⟨.sys, 0xb00000, 31, 1, .w1s, 0⟩
def SCH_CTL_BRST : Fld := ⟨.sys, 0xb00000, 30, 1, .w1s, 0⟩
def SCH_STAT_STATE : Fld := ⟨.blk, 0xb00004, 29, 3, .ro, 0⟩
def SCH_STAT_LS_STK : Fld := ⟨.sys, 0xb00004, 28, 1, .w1c, 0⟩
def SCH_STAT_WARM : Fld := ⟨.blk, 0xb00004, 27, 1, .ro, 0⟩
def SCH_STAT_LASTRST : Fld := ⟨.blk, 0xb00004, 24, 3, .ro, 0⟩
def SCH_STAT_RETAIN_MISMATCH_STK : Fld := ⟨.sys, 0xb00004, 23, 1, .w1c, 0⟩
def SCH_STAT_JSTALL_STK : Fld := ⟨.sys, 0xb00004, 22, 1, .w1c, 0⟩
def SCH_FRAME_HRATIO : Fld := ⟨.img, 0xb00008, 16, 16, .ro, 0x1⟩
def SCH_FRAME_MFRAME : Fld := ⟨.img, 0xb00008, 0, 10, .ro, 0x64⟩
def SCH_RSTPOL_WARM : Fld := ⟨.img, 0xb0000c, 0, 6, .ro, 0x3e⟩
def SCH_FCNT_FCNT : Fld := ⟨.blk, 0xb00010, 0, 32, .ro, 0⟩
def SCH_EXCH_CTL_REQ : Fld := ⟨.sys, 0xb00020, 31, 1, .w1s, 0⟩
def SCH_EXCH_CTL_CANCEL : Fld := ⟨.sys, 0xb00020, 30, 1, .w1s, 0⟩
def SCH_EXCH_CTL_SLOT : Fld := ⟨.sys, 0xb00020, 0, 1, .rw, 0⟩
def SCH_EXCH_STAT_STATE : Fld := ⟨.sys, 0xb00024, 29, 3, .ro, 0⟩
def SCH_EXCH_STAT_RESULT : Fld := ⟨.sys, 0xb00024, 25, 4, .ro, 0⟩
def SCH_EXCH_STAT_DEFERS : Fld := ⟨.sys, 0xb00024, 16, 4, .ro, 0⟩
def SCH_JRN_STAT_CKPT_BUSY : Fld := ⟨.sys, 0xb00030, 31, 1, .ro, 0⟩
def SCH_JRN_STAT_CKCOPY : Fld := ⟨.sys, 0xb00030, 30, 1, .ro, 0⟩
def SCH_JRN_STAT_STALL : Fld := ⟨.sys, 0xb00030, 29, 1, .ro, 0⟩
def SCH_JRN_STAT_FILL : Fld := ⟨.sys, 0xb00030, 0, 14, .ro, 0⟩
def SCH_JRN_SEQ_LO_SEQ : Fld := ⟨.sys, 0xb00034, 0, 32, .ro, 0⟩
def SCH_JRN_SEQ_HI_SEQ : Fld := ⟨.sys, 0xb00038, 0, 32, .ro, 0⟩
def SCH_TKn_CFG_KIND (n : Nat) : Fld := ⟨.img, 0xb01000 + 0x20 * n, 30, 2, .ro, 0⟩
def SCH_TKn_CFG_TRIG (n : Nat) : Fld := ⟨.img, 0xb01000 + 0x20 * n, 26, 4, .ro, 0⟩
def SCH_TKn_CFG_FTG (n : Nat) : Fld := ⟨.img, 0xb01000 + 0x20 * n, 24, 2, .ro, 0⟩
def SCH_TKn_CFG_PARAM (n : Nat) : Fld := ⟨.img, 0xb01000 + 0x20 * n, 0, 24, .ro, 0⟩
def SCH_TKn_STAT_STATE (n : Nat) : Fld := ⟨.blk, 0xb01004 + 0x20 * n, 30, 2, .ro, 0⟩
def SCH_TKn_STAT_OVR_STK (n : Nat) : Fld := ⟨.blk, 0xb01004 + 0x20 * n, 29, 1, .w1c, 0⟩
def SCH_TKn_STAT_EXC_STK (n : Nat) : Fld := ⟨.blk, 0xb01004 + 0x20 * n, 28, 1, .w1c, 0⟩
def SCH_TKn_STAT_BUD_STK (n : Nat) : Fld := ⟨.blk, 0xb01004 + 0x20 * n, 27, 1, .w1c, 0⟩
def SCH_TKn_STAT_LASTCAUSE (n : Nat) : Fld := ⟨.blk, 0xb01004 + 0x20 * n, 0, 4, .ro, 0⟩
def SCH_TKn_CNT_OVR (n : Nat) : Fld := ⟨.sys, 0xb01008 + 0x20 * n, 16, 16, .ro, 0⟩
def SCH_TKn_CNT_MERGED (n : Nat) : Fld := ⟨.sys, 0xb01008 + 0x20 * n, 0, 16, .ro, 0⟩
def SCH_TKn_BUDGET_BUDGET (n : Nat) : Fld := ⟨.img, 0xb0100c + 0x20 * n, 0, 24, .ro, 0x2710⟩
def SCH_TKn_EXLAST_EXLAST (n : Nat) : Fld := ⟨.sys, 0xb01010 + 0x20 * n, 0, 24, .ro, 0⟩
def SCH_TKn_EXMAX_EXMAX (n : Nat) : Fld := ⟨.sys, 0xb01014 + 0x20 * n, 0, 24, .rc, 0⟩
def SCH_TKn_ACT_ACT (n : Nat) : Fld := ⟨.sys, 0xb01018 + 0x20 * n, 0, 1, .w1s, 0⟩
def SCH_TKn_RUNS_RUNS (n : Nat) : Fld := ⟨.sys, 0xb0101c + 0x20 * n, 0, 32, .ro, 0⟩

-- REC, field tables of R394
def REC_CTL_LOCK : Fld := ⟨.sys, 0xc00000, 31, 1, .w1s, 0⟩
def REC_AUu_CTL_ARM (u : Nat) : Fld := ⟨.sys, 0xc00100 + 0x100 * u, 31, 1, .w1s, 0⟩
def REC_AUu_CTL_DISARM (u : Nat) : Fld := ⟨.sys, 0xc00100 + 0x100 * u, 30, 1, .w1s, 0⟩
def REC_AUu_CTL_HTRIG (u : Nat) : Fld := ⟨.sys, 0xc00100 + 0x100 * u, 29, 1, .w1s, 0⟩
def REC_AUu_CFG_MODE (u : Nat) : Fld := ⟨.img, 0xc00104 + 0x100 * u, 31, 1, .rwl, 0⟩
def REC_AUu_CFG_FTG (u : Nat) : Fld := ⟨.img, 0xc00104 + 0x100 * u, 29, 2, .rwl, 0⟩
def REC_AUu_CFG_RETRIG (u : Nat) : Fld := ⟨.img, 0xc00104 + 0x100 * u, 28, 1, .rwl, 0x1⟩
def REC_AUu_CFG_HMODE (u : Nat) : Fld := ⟨.img, 0xc00104 + 0x100 * u, 27, 1, .rwl, 0⟩
def REC_AUu_CFG_BINEN (u : Nat) : Fld := ⟨.img, 0xc00104 + 0x100 * u, 26, 1, .rwl, 0x1⟩
def REC_AUu_CFG_TXTWIN (u : Nat) : Fld := ⟨.img, 0xc00104 + 0x100 * u, 25, 1, .rwl, 0⟩
def REC_AUu_CFG_K (u : Nat) : Fld := ⟨.img, 0xc00104 + 0x100 * u, 8, 11, .rwl, 0x1⟩
def REC_AUu_CFG_ANDWIN (u : Nat) : Fld := ⟨.img, 0xc00104 + 0x100 * u, 0, 8, .rwl, 0x1⟩
def REC_AUu_PART_BASE (u : Nat) : Fld := ⟨.img, 0xc00108 + 0x100 * u, 16, 12, .rwl, 0⟩
def REC_AUu_PART_SIZE (u : Nat) : Fld := ⟨.img, 0xc00108 + 0x100 * u, 0, 11, .rwl, 0x40⟩
def REC_AUu_PRE_PRE (u : Nat) : Fld := ⟨.img, 0xc0010c + 0x100 * u, 0, 24, .rwl, 0x1e0⟩
def REC_AUu_POST_POST (u : Nat) : Fld := ⟨.img, 0xc00110 + 0x100 * u, 0, 24, .rwl, 0x960⟩
def REC_AUu_HOLD_HOLD (u : Nat) : Fld := ⟨.img, 0xc00114 + 0x100 * u, 0, 32, .rwl, 0x3e8⟩
def REC_AUu_NSRC_NSIG (u : Nat) : Fld := ⟨.img, 0xc00118 + 0x100 * u, 16, 9, .ro, 0⟩
def REC_AUu_NSRC_NCH (u : Nat) : Fld := ⟨.img, 0xc00118 + 0x100 * u, 0, 8, .ro, 0⟩
def REC_AUu_STAT_STATE (u : Nat) : Fld := ⟨.sys, 0xc0011c + 0x100 * u, 29, 3, .ro, 0⟩
def REC_AUu_STAT_RESULT (u : Nat) : Fld := ⟨.sys, 0xc0011c + 0x100 * u, 26, 3, .ro, 0⟩
def REC_AUu_STAT_OVF_STK (u : Nat) : Fld := ⟨.sys, 0xc0011c + 0x100 * u, 25, 1, .w1c, 0⟩
def REC_AUu_STAT_TRUNC_STK (u : Nat) : Fld := ⟨.sys, 0xc0011c + 0x100 * u, 24, 1, .w1c, 0⟩
def REC_AUu_STAT_STALL_STK (u : Nat) : Fld := ⟨.sys, 0xc0011c + 0x100 * u, 23, 1, .w1c, 0⟩
def REC_AUu_STAT_NEWEST (u : Nat) : Fld := ⟨.sys, 0xc0011c + 0x100 * u, 0, 4, .ro, 0⟩
def REC_AUu_CNT_RECORDS (u : Nat) : Fld := ⟨.sys, 0xc00120 + 0x100 * u, 16, 16, .ro, 0⟩
def REC_AUu_CNT_HOLDTRIG (u : Nat) : Fld := ⟨.sys, 0xc00120 + 0x100 * u, 8, 8, .ro, 0⟩
def REC_AUu_CNT_LOST (u : Nat) : Fld := ⟨.sys, 0xc00120 + 0x100 * u, 0, 8, .ro, 0⟩
def REC_AUu_ROWB_ROWB (u : Nat) : Fld := ⟨.sys, 0xc00124 + 0x100 * u, 0, 16, .ro, 0⟩
def REC_AUu_PIN_PIN (u : Nat) : Fld := ⟨.sys, 0xc00128 + 0x100 * u, 0, 16, .rw, 0⟩
def REC_AUu_VALID_COMPLETE (u : Nat) : Fld := ⟨.sys, 0xc0012c + 0x100 * u, 16, 16, .ro, 0⟩
def REC_AUu_VALID_VALID (u : Nat) : Fld := ⟨.sys, 0xc0012c + 0x100 * u, 0, 16, .ro, 0⟩
def REC_AUu_TRGt_CFG_KIND (u : Nat) (t : Nat) : Fld := ⟨.img, 0xc00140 + 0x100 * u + 0x8 * t, 28, 4, .rwl, 0⟩
def REC_AUu_TRGt_CFG_GROUP (u : Nat) (t : Nat) : Fld := ⟨.img, 0xc00140 + 0x100 * u + 0x8 * t, 27, 1, .rwl, 0⟩
def REC_AUu_TRGt_CFG_EDGE (u : Nat) (t : Nat) : Fld := ⟨.img, 0xc00140 + 0x100 * u + 0x8 * t, 25, 2, .rwl, 0⟩
def REC_AUu_TRGt_CFG_M (u : Nat) (t : Nat) : Fld := ⟨.img, 0xc00140 + 0x100 * u + 0x8 * t, 16, 8, .rwl, 0x1⟩
def REC_AUu_TRGt_CFG_SEL (u : Nat) (t : Nat) : Fld := ⟨.img, 0xc00140 + 0x100 * u + 0x8 * t, 0, 16, .rwl, 0⟩
def REC_AUu_TRGt_THR_THR (u : Nat) (t : Nat) : Fld := ⟨.img, 0xc00144 + 0x100 * u + 0x8 * t, 0, 32, .rwl, 0x7f800000⟩
def REC_AUu_MSKm_CFG_EN (u : Nat) (m : Nat) : Fld := ⟨.img, 0xc001c0 + 0x100 * u + 0x4 * m, 31, 1, .rwl, 0⟩
def REC_AUu_MSKm_CFG_ACT (u : Nat) (m : Nat) : Fld := ⟨.img, 0xc001c0 + 0x100 * u + 0x4 * m, 30, 1, .rwl, 0⟩
def REC_AUu_MSKm_CFG_M (u : Nat) (m : Nat) : Fld := ⟨.img, 0xc001c0 + 0x100 * u + 0x4 * m, 16, 8, .rwl, 0x1⟩
def REC_AUu_MSKm_CFG_CH (u : Nat) (m : Nat) : Fld := ⟨.img, 0xc001c0 + 0x100 * u + 0x4 * m, 0, 8, .rwl, 0⟩
def REC_AUu_CHi_SRC (u : Nat) (i : Nat) : Fld := ⟨.img, 0xc01000 + 0x400 * u + 0x4 * i, 0, 8, .ro, 0⟩
def REC_AUu_SIGi_CODE1 (u : Nat) (i : Nat) : Fld := ⟨.img, 0xc02000 + 0x200 * u + 0x4 * i, 16, 16, .ro, 0⟩
def REC_AUu_SIGi_CODE0 (u : Nat) (i : Nat) : Fld := ⟨.img, 0xc02000 + 0x200 * u + 0x4 * i, 0, 16, .ro, 0⟩
def REC_AUu_MASKmp_MASK (u : Nat) (m : Nat) (p : Nat) : Fld := ⟨.img, 0xc10000 + 0x4000 * u + 0x800 * m + 0x8 * p, 0, 32, .rw, 0⟩
def REC_AUu_MASKLmp_MASK (u : Nat) (m : Nat) (p : Nat) : Fld := ⟨.img, 0xc10004 + 0x4000 * u + 0x800 * m + 0x8 * p, 0, 32, .rw, 0⟩

-- SEC, field tables of R452
def SEC_CTL_LOCK : Fld := ⟨.sys, 0xd00000, 31, 1, .w1s, 0⟩
def SEC_STAT_BUSY : Fld := ⟨.sys, 0xd00004, 31, 1, .ro, 0⟩
def SEC_STAT_TAMP_STK : Fld := ⟨.por, 0xd00004, 30, 1, .ro, 0⟩
def SEC_STAT_NOKEY : Fld := ⟨.sys, 0xd00004, 0, 16, .ro, 0⟩
def SEC_LC_OWNER : Fld := ⟨.kept, 0xd00008, 2, 1, .ro, 0⟩
def SEC_LC_STATE : Fld := ⟨.kept, 0xd00008, 0, 2, .ro, 0⟩
def SEC_DEVID_LO_DEVID : Fld := ⟨.kept, 0xd0000c, 0, 32, .ro, 0⟩
def SEC_DEVID_HI_DEVID : Fld := ⟨.kept, 0xd00010, 0, 32, .ro, 0⟩
def SEC_MINVER_MINVER : Fld := ⟨.kept, 0xd00014, 0, 32, .ro, 0⟩
def SEC_NONCE_NONCE : Fld := ⟨.por, 0xd00018, 0, 32, .ro, 0⟩
def SEC_CMD_OP : Fld := ⟨.sys, 0xd0001c, 0, 3, .w1s, 0⟩
def SEC_RES_OP : Fld := ⟨.sys, 0xd00020, 28, 4, .ro, 0⟩
def SEC_RES_RESULT : Fld := ⟨.sys, 0xd00020, 0, 4, .ro, 0⟩
def SEC_STG_CFG_SLOT : Fld := ⟨.sys, 0xd00024, 31, 1, .rw, 0⟩
def SEC_STG_CFG_LEN : Fld := ⟨.sys, 0xd00024, 0, 23, .rw, 0⟩
def SEC_STG_ADDR_LO_ADDR : Fld := ⟨.sys, 0xd00028, 0, 32, .rw, 0⟩
def SEC_STG_ADDR_HI_ADDR : Fld := ⟨.sys, 0xd0002c, 0, 32, .rw, 0⟩
def SEC_TAMP_STK : Fld := ⟨.por, 0xd00030, 16, 5, .ro, 0⟩
def SEC_TAMP_LIVE : Fld := ⟨.sys, 0xd00030, 0, 5, .ro, 0⟩
def SEC_CERTLEN_LEN : Fld := ⟨.kept, 0xd00034, 0, 11, .ro, 0⟩
def SEC_KGRACE_GRACE : Fld := ⟨.img, 0xd00038, 0, 10, .rwl, 0xa⟩
def SEC_BUFw_WORD (w : Nat) : Fld := ⟨.sys, 0xd00100 + 0x4 * w, 0, 32, .rw, 0⟩
def SEC_KSEL_SLOT : Fld := ⟨.sys, 0xd00200, 0, 8, .rw, 0⟩
def SEC_KCFG_ALG : Fld := ⟨.sys, 0xd00204, 29, 3, .rw, 0⟩
def SEC_KROLL_LO_KROLL : Fld := ⟨.sys, 0xd00208, 0, 32, .rw, 0⟩
def SEC_KROLL_HI_KROLL : Fld := ⟨.sys, 0xd0020c, 0, 32, .rw, 0⟩
def SEC_KSTAT_ALG : Fld := ⟨.kept, 0xd00210, 29, 3, .ro, 0⟩
def SEC_KSTAT_CUR : Fld := ⟨.kept, 0xd00210, 28, 1, .ro, 0⟩
def SEC_KSTAT_NXT : Fld := ⟨.kept, 0xd00210, 27, 1, .ro, 0⟩
def SEC_KSTAT_RET : Fld := ⟨.kept, 0xd00210, 26, 1, .ro, 0⟩
def SEC_KIDC_KID : Fld := ⟨.kept, 0xd00214, 0, 32, .ro, 0⟩
def SEC_KIDN_KID : Fld := ⟨.kept, 0xd00218, 0, 32, .ro, 0⟩
def SEC_KIDR_KID : Fld := ⟨.kept, 0xd0021c, 0, 32, .ro, 0⟩
def SEC_KEYw_KEY (w : Nat) : Fld := ⟨.sys, 0xd00220 + 0x4 * w, 0, 32, .wo, 0⟩
def SEC_KIDL_KIDL : Fld := ⟨.sys, 0xd00240, 0, 32, .rw, 0⟩
def SEC_CERTw_CERT (w : Nat) : Fld := ⟨.kept, 0xd01000 + 0x4 * w, 0, 32, .ro, 0⟩

-- TWN, field tables of R500
def TWN_CTL_LOCK : Fld := ⟨.sys, 0xe00000, 31, 1, .w1s, 0⟩
def TWN_CTL_RELEARN : Fld := ⟨.sys, 0xe00000, 30, 1, .w1s, 0⟩
def TWN_CFG_EN : Fld := ⟨.img, 0xe00004, 31, 1, .rwl, 0⟩
def TWN_CFG_ROLE : Fld := ⟨.img, 0xe00004, 30, 1, .rwl, 0⟩
def TWN_CFG_FTG : Fld := ⟨.img, 0xe00004, 28, 2, .rwl, 0⟩
def TWN_CFG_PARTNER : Fld := ⟨.img, 0xe00004, 12, 12, .rwl, 0⟩
def TWN_CFG_LATE : Fld := ⟨.img, 0xe00004, 0, 8, .rwl, 0x5⟩
def TWN_TIM_SILENT : Fld := ⟨.img, 0xe00008, 16, 16, .rwl, 0x64⟩
def TWN_TIM_RDCYC : Fld := ⟨.img, 0xe00008, 0, 8, .rwl, 0xa⟩
def TWN_STAT_XMODE : Fld := ⟨.sys, 0xe0000c, 29, 3, .ro, 0⟩
def TWN_STAT_DIS_STK : Fld := ⟨.sys, 0xe0000c, 28, 1, .w1c, 0⟩
def TWN_STAT_RDIFF_STK : Fld := ⟨.sys, 0xe0000c, 27, 1, .w1c, 0⟩
def TWN_STAT_PCHG_STK : Fld := ⟨.sys, 0xe0000c, 26, 1, .w1c, 0⟩
def TWN_STAT_ROLE_STK : Fld := ⟨.sys, 0xe0000c, 25, 1, .w1c, 0⟩
def TWN_STAT_LEARNED : Fld := ⟨.sys, 0xe0000c, 24, 1, .ro, 0⟩
def TWN_PDEVID_LO_PDEVID : Fld := ⟨.sys, 0xe00010, 0, 32, .ro, 0⟩
def TWN_PDEVID_HI_PDEVID : Fld := ⟨.sys, 0xe00014, 0, 32, .ro, 0⟩
def TWN_PHEALTH_HEALTH : Fld := ⟨.sys, 0xe00018, 0, 32, .ro, 0⟩
def TWN_PSTART_START : Fld := ⟨.sys, 0xe0001c, 0, 24, .ro, 0⟩
def TWN_PTRIP_TRIP : Fld := ⟨.sys, 0xe00020, 0, 24, .ro, 0⟩
def TWN_PVALID_VALID : Fld := ⟨.sys, 0xe00024, 0, 24, .ro, 0⟩
def TWN_PREV_REV : Fld := ⟨.sys, 0xe00028, 0, 16, .ro, 0⟩
def TWN_DISBAY_BAY : Fld := ⟨.sys, 0xe0002c, 0, 24, .w1c, 0⟩
def TWN_CNT0_TX : Fld := ⟨.sys, 0xe00030, 16, 16, .ro, 0⟩
def TWN_CNT0_RX : Fld := ⟨.sys, 0xe00030, 0, 16, .ro, 0⟩
def TWN_CNT1_DIS : Fld := ⟨.sys, 0xe00034, 16, 16, .ro, 0⟩
def TWN_CNT1_UNCHK : Fld := ⟨.sys, 0xe00034, 0, 16, .ro, 0⟩
def TWN_CNT2_BAD : Fld := ⟨.sys, 0xe00038, 24, 8, .ro, 0⟩
def TWN_CNT2_ROLECLASH : Fld := ⟨.sys, 0xe00038, 16, 8, .ro, 0⟩
def TWN_CNT2_SEGX : Fld := ⟨.sys, 0xe00038, 8, 8, .ro, 0⟩
def TWN_AGE_AGE : Fld := ⟨.sys, 0xe0003c, 0, 32, .ro, 0xffffffff⟩
def TWN_PIDw_PID (w : Nat) : Fld := ⟨.sys, 0xe00100 + 0x4 * w, 0, 32, .ro, 0⟩

-- MEM, field tables of R522
def MEM_STAT_TRAINED : Fld := ⟨.sys, 0xf00000, 31, 1, .ro, 0⟩
def MEM_STAT_FAIL : Fld := ⟨.sys, 0xf00000, 30, 1, .ro, 0⟩
def MEM_STAT_SR : Fld := ⟨.sys, 0xf00000, 29, 1, .ro, 0⟩
def MEM_STAT_UNCORR_STK : Fld := ⟨.sys, 0xf00000, 28, 1, .w1c, 0⟩
def MEM_STAT_CORR_STK : Fld := ⟨.sys, 0xf00000, 27, 1, .w1c, 0⟩
def MEM_SIZE_DETECT : Fld := ⟨.sys, 0xf00004, 16, 13, .ro, 0⟩
def MEM_SIZE_USABLE : Fld := ⟨.sys, 0xf00004, 0, 13, .ro, 0⟩
def MEM_ECC_CORR : Fld := ⟨.sys, 0xf00008, 16, 16, .ro, 0⟩
def MEM_ECC_UNCORR : Fld := ⟨.sys, 0xf00008, 0, 16, .ro, 0⟩
def MEM_EADDR_LO_EADDR : Fld := ⟨.sys, 0xf0000c, 0, 32, .ro, 0⟩
def MEM_EADDR_HI_EADDR : Fld := ⟨.sys, 0xf00010, 0, 32, .ro, 0⟩

-- HST, field tables of R522
def HST_CTL_LOCK : Fld := ⟨.sys, 0xf80000, 31, 1, .w1s, 0⟩
def HST_STAT_LINK : Fld := ⟨.sys, 0xf80004, 31, 1, .ro, 0⟩
def HST_STAT_SPEED : Fld := ⟨.sys, 0xf80004, 28, 3, .ro, 0⟩
def HST_STAT_WIDTH : Fld := ⟨.sys, 0xf80004, 26, 2, .ro, 0⟩
def HST_STAT_LINKCHG_STK : Fld := ⟨.sys, 0xf80004, 25, 1, .w1c, 0⟩
def HST_STAT_PERST_STK : Fld := ⟨.sys, 0xf80004, 24, 1, .w1c, 0⟩
def HST_AREA_BASE : Fld := ⟨.img, 0xf80008, 16, 12, .rwl, 0⟩
def HST_AREA_SIZE : Fld := ⟨.img, 0xf80008, 0, 13, .rwl, 0⟩
def HST_SUBSYS_SSID : Fld := ⟨.img, 0xf8000c, 16, 16, .ro, 0⟩
def HST_SUBSYS_SSVID : Fld := ⟨.img, 0xf8000c, 0, 16, .ro, 0⟩
def HST_Rr_CFG_BASE (r : Nat) : Fld := ⟨.img, 0xf80100 + 0x20 * r, 12, 20, .rwl, 0⟩
def HST_Rr_CFG_LOG2E (r : Nat) : Fld := ⟨.img, 0xf80100 + 0x20 * r, 0, 5, .rwl, 0⟩
def HST_Rr_PROD_PROD (r : Nat) : Fld := ⟨.sys, 0xf80104 + 0x20 * r, 0, 32, .ro, 0⟩
def HST_Rr_CONS_CONS (r : Nat) : Fld := ⟨.sys, 0xf80108 + 0x20 * r, 0, 32, .ro, 0⟩
def HST_Rr_IRQ_HOLD (r : Nat) : Fld := ⟨.sys, 0xf8010c + 0x20 * r, 0, 16, .rw, 0⟩
def HST_Rr_STAT_OVR_STK (r : Nat) : Fld := ⟨.sys, 0xf80110 + 0x20 * r, 31, 1, .w1c, 0⟩
def HST_Rr_STAT_LOST (r : Nat) : Fld := ⟨.sys, 0xf80110 + 0x20 * r, 0, 16, .ro, 0⟩

end R

open R in
/-- The registers of block GLB, in the order of its register map. -/
def regsGlb : List RegDef := [
  ⟨0x0, [], [GLB_CTL_LOCK]⟩,
  ⟨0x4, [], [GLB_ID_PART, GLB_ID_STEP, GLB_ID_CODE]⟩,
  ⟨0x8, [], [GLB_RST_SYSREQ]⟩,
  ⟨0xc, [], [GLB_RSTCAUSE_CAUSE, GLB_RSTCAUSE_PRVSRC, GLB_RSTCAUSE_COUNT]⟩,
  ⟨0x10, [], [GLB_BOOT_DONE, GLB_BOOT_MAINT, GLB_BOOT_FALLBACK, GLB_BOOT_SLOT, GLB_BOOT_PREF, GLB_BOOT_FAILA, GLB_BOOT_FAILB]⟩,
  ⟨0x14, [], [GLB_PWR_REQ, GLB_PWR_STATE, GLB_PWR_REFUSED_STK]⟩,
  ⟨0x18, [], [GLB_PWRSTAT_PG]⟩,
  ⟨0x1c, [], [GLB_WDT_TO, GLB_WDT_REMAIN]⟩,
  ⟨0x20, [], [GLB_WAKE_LO_WAKE]⟩,
  ⟨0x24, [], [GLB_WAKE_HI_EN, GLB_WAKE_HI_WAKEHI]⟩,
  ⟨0x28, [], [GLB_COARSE_LO_COARSE]⟩,
  ⟨0x2c, [], [GLB_COARSE_HI_COARSE]⟩,
  ⟨0x30, [], [GLB_ACC_INIT_VALID, GLB_ACC_INIT_WRITE, GLB_ACC_INIT_INIT, GLB_ACC_INIT_COUNT]⟩,
  ⟨0x34, [], [GLB_ACC_ADDR_ADDR]⟩,
  ⟨0x38, [], [GLB_STRAP_BOOT]⟩]

open R in
/-- The registers of block PRV, in the order of its register map. -/
def regsPrv : List RegDef := [
  ⟨0x100000, [], [PRV_CTL_LOCK, PRV_CTL_SAFEREQ]⟩,
  ⟨0x100004, [], [PRV_STAT_SAFE, PRV_STAT_ALIVE, PRV_STAT_SELF_STK, PRV_STAT_ESC_STK, PRV_STAT_IRQ, PRV_STAT_SAFE_CAUSE, PRV_STAT_SAFE_CNT]⟩,
  ⟨0x100008, [], [PRV_STK_STK]⟩,
  ⟨0x10000c, [], [PRV_LIVE_LIVE]⟩,
  ⟨0x100010, [], [PRV_MASKED_MASKED]⟩,
  ⟨0x100014, [], [PRV_BAYBLK_BLK]⟩,
  ⟨0x100018, [], [PRV_BRST_LASTESC, PRV_BRST_INWIN]⟩,
  ⟨0x100020, [], [PRV_FF_CTL_REARM, PRV_FF_CTL_VALID, PRV_FF_CTL_MULTI]⟩,
  ⟨0x100024, [], [PRV_FF_SRC_SRC, PRV_FF_SRC_CLASS, PRV_FF_SRC_ACTION, PRV_FF_SRC_SUPER]⟩,
  ⟨0x100028, [], [PRV_FF_DET_DET]⟩,
  ⟨0x10002c, [], [PRV_FF_TIME_LO_TIME]⟩,
  ⟨0x100030, [], [PRV_FF_TIME_HI_TIME]⟩,
  ⟨0x100034, [], [PRV_FF_TB2_LO_TB2]⟩,
  ⟨0x100038, [], [PRV_FF_TB2_HI_TB2]⟩,
  ⟨0x10003c, [], [PRV_FF_SEQ_LO_SEQ]⟩,
  ⟨0x100040, [], [PRV_FF_SEQ_HI_SEQ]⟩,
  ⟨0x100044, [], [PRV_TMON_WARN, PRV_TMON_TEMP]⟩,
  ⟨0x100100, [], [PRV_SRCs_CFG_IRQ 0, PRV_SRCs_CFG_ACTION 0, PRV_SRCs_CFG_ALLOWED 0, PRV_SRCs_CFG_CLASS 0, PRV_SRCs_CFG_KIND 0]⟩,
  ⟨0x100110, [], [PRV_SRCs_CFG_IRQ 1, PRV_SRCs_CFG_ACTION 1, PRV_SRCs_CFG_ALLOWED 1, PRV_SRCs_CFG_CLASS 1, PRV_SRCs_CFG_KIND 1]⟩,
  ⟨0x100120, [], [PRV_SRCs_CFG_IRQ 2, PRV_SRCs_CFG_ACTION 2, PRV_SRCs_CFG_ALLOWED 2, PRV_SRCs_CFG_CLASS 2, PRV_SRCs_CFG_KIND 2]⟩,
  ⟨0x100130, [], [PRV_SRCs_CFG_IRQ 3, PRV_SRCs_CFG_ACTION 3, PRV_SRCs_CFG_ALLOWED 3, PRV_SRCs_CFG_CLASS 3, PRV_SRCs_CFG_KIND 3]⟩,
  ⟨0x100140, [], [PRV_SRCs_CFG_IRQ 4, PRV_SRCs_CFG_ACTION 4, PRV_SRCs_CFG_ALLOWED 4, PRV_SRCs_CFG_CLASS 4, PRV_SRCs_CFG_KIND 4]⟩,
  ⟨0x100150, [], [PRV_SRCs_CFG_IRQ 5, PRV_SRCs_CFG_ACTION 5, PRV_SRCs_CFG_ALLOWED 5, PRV_SRCs_CFG_CLASS 5, PRV_SRCs_CFG_KIND 5]⟩,
  ⟨0x100160, [], [PRV_SRCs_CFG_IRQ 6, PRV_SRCs_CFG_ACTION 6, PRV_SRCs_CFG_ALLOWED 6, PRV_SRCs_CFG_CLASS 6, PRV_SRCs_CFG_KIND 6]⟩,
  ⟨0x100170, [], [PRV_SRCs_CFG_IRQ 7, PRV_SRCs_CFG_ACTION 7, PRV_SRCs_CFG_ALLOWED 7, PRV_SRCs_CFG_CLASS 7, PRV_SRCs_CFG_KIND 7]⟩,
  ⟨0x100180, [], [PRV_SRCs_CFG_IRQ 8, PRV_SRCs_CFG_ACTION 8, PRV_SRCs_CFG_ALLOWED 8, PRV_SRCs_CFG_CLASS 8, PRV_SRCs_CFG_KIND 8]⟩,
  ⟨0x100190, [], [PRV_SRCs_CFG_IRQ 9, PRV_SRCs_CFG_ACTION 9, PRV_SRCs_CFG_ALLOWED 9, PRV_SRCs_CFG_CLASS 9, PRV_SRCs_CFG_KIND 9]⟩,
  ⟨0x1001a0, [], [PRV_SRCs_CFG_IRQ 10, PRV_SRCs_CFG_ACTION 10, PRV_SRCs_CFG_ALLOWED 10, PRV_SRCs_CFG_CLASS 10, PRV_SRCs_CFG_KIND 10]⟩,
  ⟨0x1001b0, [], [PRV_SRCs_CFG_IRQ 11, PRV_SRCs_CFG_ACTION 11, PRV_SRCs_CFG_ALLOWED 11, PRV_SRCs_CFG_CLASS 11, PRV_SRCs_CFG_KIND 11]⟩,
  ⟨0x1001c0, [], [PRV_SRCs_CFG_IRQ 12, PRV_SRCs_CFG_ACTION 12, PRV_SRCs_CFG_ALLOWED 12, PRV_SRCs_CFG_CLASS 12, PRV_SRCs_CFG_KIND 12]⟩,
  ⟨0x1001d0, [], [PRV_SRCs_CFG_IRQ 13, PRV_SRCs_CFG_ACTION 13, PRV_SRCs_CFG_ALLOWED 13, PRV_SRCs_CFG_CLASS 13, PRV_SRCs_CFG_KIND 13]⟩,
  ⟨0x1001e0, [], [PRV_SRCs_CFG_IRQ 14, PRV_SRCs_CFG_ACTION 14, PRV_SRCs_CFG_ALLOWED 14, PRV_SRCs_CFG_CLASS 14, PRV_SRCs_CFG_KIND 14]⟩,
  ⟨0x1001f0, [], [PRV_SRCs_CFG_IRQ 15, PRV_SRCs_CFG_ACTION 15, PRV_SRCs_CFG_ALLOWED 15, PRV_SRCs_CFG_CLASS 15, PRV_SRCs_CFG_KIND 15]⟩,
  ⟨0x100200, [], [PRV_SRCs_CFG_IRQ 16, PRV_SRCs_CFG_ACTION 16, PRV_SRCs_CFG_ALLOWED 16, PRV_SRCs_CFG_CLASS 16, PRV_SRCs_CFG_KIND 16]⟩,
  ⟨0x100210, [], [PRV_SRCs_CFG_IRQ 17, PRV_SRCs_CFG_ACTION 17, PRV_SRCs_CFG_ALLOWED 17, PRV_SRCs_CFG_CLASS 17, PRV_SRCs_CFG_KIND 17]⟩,
  ⟨0x100220, [], [PRV_SRCs_CFG_IRQ 18, PRV_SRCs_CFG_ACTION 18, PRV_SRCs_CFG_ALLOWED 18, PRV_SRCs_CFG_CLASS 18, PRV_SRCs_CFG_KIND 18]⟩,
  ⟨0x100230, [], [PRV_SRCs_CFG_IRQ 19, PRV_SRCs_CFG_ACTION 19, PRV_SRCs_CFG_ALLOWED 19, PRV_SRCs_CFG_CLASS 19, PRV_SRCs_CFG_KIND 19]⟩,
  ⟨0x100240, [], [PRV_SRCs_CFG_IRQ 20, PRV_SRCs_CFG_ACTION 20, PRV_SRCs_CFG_ALLOWED 20, PRV_SRCs_CFG_CLASS 20, PRV_SRCs_CFG_KIND 20]⟩,
  ⟨0x100250, [], [PRV_SRCs_CFG_IRQ 21, PRV_SRCs_CFG_ACTION 21, PRV_SRCs_CFG_ALLOWED 21, PRV_SRCs_CFG_CLASS 21, PRV_SRCs_CFG_KIND 21]⟩,
  ⟨0x100260, [], [PRV_SRCs_CFG_IRQ 22, PRV_SRCs_CFG_ACTION 22, PRV_SRCs_CFG_ALLOWED 22, PRV_SRCs_CFG_CLASS 22, PRV_SRCs_CFG_KIND 22]⟩,
  ⟨0x100270, [], [PRV_SRCs_CFG_IRQ 23, PRV_SRCs_CFG_ACTION 23, PRV_SRCs_CFG_ALLOWED 23, PRV_SRCs_CFG_CLASS 23, PRV_SRCs_CFG_KIND 23]⟩,
  ⟨0x100280, [], [PRV_SRCs_CFG_IRQ 24, PRV_SRCs_CFG_ACTION 24, PRV_SRCs_CFG_ALLOWED 24, PRV_SRCs_CFG_CLASS 24, PRV_SRCs_CFG_KIND 24]⟩,
  ⟨0x100104, [(25, 0x10)], [PRV_SRCs_CNT_OCC 0, PRV_SRCs_CNT_CONSQ 0]⟩,
  ⟨0x100108, [(25, 0x10)], [PRV_SRCs_BAYS_BAYS 0]⟩,
  ⟨0x10010c, [(25, 0x10)], [PRV_SRCs_DET_DET 0]⟩]

open R in
/-- The registers of block YEW, in the order of its register map. -/
def regsYew : List RegDef := [
  ⟨0x200000, [], [YEW_CTL_LOCK]⟩,
  ⟨0x200004, [], [YEW_CFG_HOSTRING]⟩,
  ⟨0x200008, [], [YEW_STAT_SCAN, YEW_STAT_ZEROING, YEW_STAT_OVF_STK, YEW_STAT_CLRREF_STK, YEW_STAT_OVF_PER, YEW_STAT_LEVEL]⟩,
  ⟨0x20000c, [], [YEW_NEXT_LO_NEXT]⟩,
  ⟨0x200010, [], [YEW_NEXT_HI_NEXT]⟩,
  ⟨0x200014, [], [YEW_OLDEST_LO_OLDEST]⟩,
  ⟨0x200018, [], [YEW_OLDEST_HI_OLDEST]⟩,
  ⟨0x20001c, [], [YEW_LOST0_INFO]⟩,
  ⟨0x200020, [], [YEW_LOST1_C, YEW_LOST1_U]⟩,
  ⟨0x200024, [], [YEW_NONCE_NONCE]⟩,
  ⟨0x200028, [], [YEW_CLR_CMD_GO]⟩,
  ⟨0x20002c, [], [YEW_CLR_STAT_BUSY, YEW_CLR_STAT_RESULT]⟩,
  ⟨0x200040, [], [YEW_RD_SEL_LO_SEQLO]⟩,
  ⟨0x200044, [], [YEW_RD_SEL_HI_FETCH, YEW_RD_SEL_HI_SEQHI]⟩,
  ⟨0x200048, [], [YEW_RD_STAT_READY, YEW_RD_STAT_RESULT]⟩,
  ⟨0x200080, [(24, 0x4)], [YEW_CLR_BUFw_TOKEN 0]⟩,
  ⟨0x200100, [(16, 0x4)], [YEW_RD_BUFw_DATA 0]⟩]

open R in
/-- The registers of block TIM, in the order of its register map. -/
def regsTim : List RegDef := [
  ⟨0x300000, [], [TIM_CTL_LOCK]⟩,
  ⟨0x300004, [], [TIM_ACT_AUTO, TIM_ACT_SEL]⟩,
  ⟨0x300008, [], [TIM_ACT_STAT_FOLLOW, TIM_ACT_STAT_SLEWING, TIM_ACT_STAT_TQ, TIM_ACT_STAT_SW_STK, TIM_ACT_STAT_STEP_STK]⟩,
  ⟨0x30000c, [], [TIM_SWCFG_SLEW]⟩,
  ⟨0x300010, [], [TIM_ACT_TIME_LO_TIME]⟩,
  ⟨0x300014, [], [TIM_ACT_TIME_HI_TIME]⟩,
  ⟨0x300018, [], [TIM_ACT_RESID_LO_RESID]⟩,
  ⟨0x30001c, [], [TIM_ACT_RESID_HI_RESID]⟩,
  ⟨0x300020, [], [TIM_DIFF_LO_DIFF]⟩,
  ⟨0x300024, [], [TIM_DIFF_HI_DIFF]⟩,
  ⟨0x300028, [], [TIM_UTC_VALID, TIM_UTC_OFFSET]⟩,
  ⟨0x30002c, [], [TIM_PDCFG_PDDOM, TIM_PDCFG_LOGINT]⟩,
  ⟨0x300030, [], [TIM_TC_CNT_CORR, TIM_TC_CNT_NOLD]⟩,
  ⟨0x300100, [(4, 0x40)], [TIM_TBb_CFG_MODE 0, TIM_TBb_CFG_PORT 0, TIM_TBb_CFG_PPSPOL 0, TIM_TBb_CFG_DOMAIN 0]⟩,
  ⟨0x300104, [(4, 0x40)], [TIM_TBb_CTL_REACQ 0, TIM_TBb_CTL_SET 0]⟩,
  ⟨0x300108, [(4, 0x40)], [TIM_TBb_STAT_STATE 0, TIM_TBb_STAT_PATHSLEW 0, TIM_TBb_STAT_STEP_STK 0, TIM_TBb_STAT_PATH_STK 0, TIM_TBb_STAT_LOCKLOSS_STK 0]⟩,
  ⟨0x30010c, [(4, 0x40)], [TIM_TBb_TIME_LO_TIME 0]⟩,
  ⟨0x300110, [(4, 0x40)], [TIM_TBb_TIME_HI_TIME 0]⟩,
  ⟨0x300114, [(4, 0x40)], [TIM_TBb_SETV_LO_SETV 0]⟩,
  ⟨0x300118, [(4, 0x40)], [TIM_TBb_SETV_HI_SETV 0]⟩,
  ⟨0x30011c, [(4, 0x40)], [TIM_TBb_FADJ_FADJ 0]⟩,
  ⟨0x300120, [(4, 0x40)], [TIM_TBb_SERVO_KP 0, TIM_TBb_SERVO_KI 0]⟩,
  ⟨0x300124, [(4, 0x40)], [TIM_TBb_GUARD_LOCKTH 0, TIM_TBb_GUARD_GUARD 0]⟩,
  ⟨0x300128, [(4, 0x40)], [TIM_TBb_TO_HOLDMAX 0, TIM_TBb_TO_SYNCTO 0]⟩,
  ⟨0x30012c, [(4, 0x40)], [TIM_TBb_OFFS_OFFS 0]⟩,
  ⟨0x300130, [(4, 0x40)], [TIM_TBb_MID_LO_MID 0]⟩,
  ⟨0x300134, [(4, 0x40)], [TIM_TBb_MID_HI_MID 0]⟩,
  ⟨0x300138, [(4, 0x40)], [TIM_TBb_MPN_MPN 0]⟩,
  ⟨0x30013c, [(4, 0x40)], [TIM_TBb_CNT_REJECT 0, TIM_TBb_CNT_PATHCHG 0, TIM_TBb_CNT_STEPS 0]⟩,
  ⟨0x300400, [(3, 0x20)], [TIM_Pp_ASYM_ASYM 0]⟩,
  ⟨0x300404, [(3, 0x20)], [TIM_Pp_LAT_RXLAT 0, TIM_Pp_LAT_TXLAT 0]⟩,
  ⟨0x300408, [(3, 0x20)], [TIM_Pp_MLD_MLD 0]⟩,
  ⟨0x30040c, [(3, 0x20)], [TIM_Pp_NRR_NRR 0]⟩,
  ⟨0x300410, [(3, 0x20)], [TIM_Pp_PDSTAT_VALID 0, TIM_Pp_PDSTAT_PDFAIL_STK 0, TIM_Pp_PDSTAT_LOST 0]⟩,
  ⟨0x300800, [(8, 0x20)], [TIM_TPOk_CFG_EN 0, TIM_TPOk_CFG_PERIODIC 0, TIM_TPOk_CFG_POL 0, TIM_TPOk_CFG_BASE 0]⟩,
  ⟨0x300804, [(8, 0x20)], [TIM_TPOk_CTL_ARM 0, TIM_TPOk_CTL_DISARM 0]⟩,
  ⟨0x300808, [(8, 0x20)], [TIM_TPOk_START_LO_START 0]⟩,
  ⟨0x30080c, [(8, 0x20)], [TIM_TPOk_START_HI_START 0]⟩,
  ⟨0x300810, [(8, 0x20)], [TIM_TPOk_PER_PER 0]⟩,
  ⟨0x300814, [(8, 0x20)], [TIM_TPOk_WID_WID 0]⟩,
  ⟨0x300818, [(8, 0x20)], [TIM_TPOk_STAT_ARMED 0, TIM_TPOk_STAT_LATE_STK 0, TIM_TPOk_STAT_SKIP 0]⟩,
  ⟨0x30081c, [(8, 0x20)], [TIM_TPOk_NEXT_NEXT 0]⟩,
  ⟨0x300c00, [(8, 0x4)], [TIM_TCIi_CFG_EN 0, TIM_TCIi_CFG_EDGE 0, TIM_TCIi_CFG_BASE 0]⟩,
  ⟨0x300c40, [], [TIM_TCI_STAT_LOST, TIM_TCI_STAT_OVF_STK, TIM_TCI_STAT_COUNT]⟩,
  ⟨0x300c44, [], [TIM_TCI_INFO_VALID, TIM_TCI_INFO_RISE, TIM_TCI_INFO_BASE, TIM_TCI_INFO_INPUT, TIM_TCI_INFO_SEQ]⟩,
  ⟨0x300c48, [], [TIM_TCI_TS_TS]⟩,
  ⟨0x300c4c, [], [TIM_TCI_POP_POP]⟩]

open R in
/-- The registers of block NET, in the order of its register map. -/
def regsNet : List RegDef := [
  ⟨0x400000, [], [NET_CTL_LOCK]⟩,
  ⟨0x400004, [], [NET_CFG_RMODE, NET_CFG_HOSTMC]⟩,
  ⟨0x400008, [], [NET_STAT_C0OK, NET_STAT_HOSTDROP]⟩,
  ⟨0x40000c, [], [NET_C0CFG_RESV7]⟩,
  ⟨0x400010, [], [NET_MAC_LO_MAC_LO]⟩,
  ⟨0x400014, [], [NET_MAC_HI_MAC_HI]⟩,
  ⟨0x400018, [], [NET_BCN_CFG_TAUTH, NET_BCN_CFG_RAUTH, NET_BCN_CFG_PCP, NET_BCN_CFG_BCNBAD, NET_BCN_CFG_KSLOT]⟩,
  ⟨0x40001c, [], [NET_SUP_CFG_INTV]⟩,
  ⟨0x400020, [], [NET_RED_CNT0_DUP, NET_RED_CNT0_WRONGLAN]⟩,
  ⟨0x400024, [], [NET_RED_CNT1_UNTAG, NET_RED_CNT1_EVICT]⟩,
  ⟨0x400028, [], [NET_C0DROP_C0DROP]⟩,
  ⟨0x401000, [(3, 0x100)], [NET_Pp_CFG_SPEED 0, NET_Pp_CFG_PREEMPT 0, NET_Pp_CFG_ADDFRAG 0, NET_Pp_CFG_DPCP 0]⟩,
  ⟨0x401004, [(3, 0x100)], [NET_Pp_STAT_LINK 0, NET_Pp_STAT_LINKCHG_STK 0, NET_Pp_STAT_VSTATE 0, NET_Pp_STAT_GBANK 0, NET_Pp_STAT_GRUN 0]⟩,
  ⟨0x401008, [(3, 0x100)], [NET_Pp_PCPMAP_MAP 0]⟩,
  ⟨0x40100c, [(3, 0x100)], [NET_Pp_GCTL_SWAP 0, NET_Pp_GCTL_STOP 0, NET_Pp_GCTL_BASESEL 0, NET_Pp_GCTL_LEN 0]⟩,
  ⟨0x401010, [(3, 0x100)], [NET_Pp_GCYC_CYC 0]⟩,
  ⟨0x401014, [(3, 0x100)], [NET_Pp_GBASE_LO_NS 0]⟩,
  ⟨0x401018, [(3, 0x100)], [NET_Pp_GBASE_HI_NS 0]⟩,
  ⟨0x401020, [(3, 0x100)], [NET_Pp_RX_RX 0]⟩,
  ⟨0x401024, [(3, 0x100)], [NET_Pp_TX_TX 0]⟩,
  ⟨0x401028, [(3, 0x100)], [NET_Pp_ERR_FCS 0, NET_Pp_ERR_OVERSIZE 0, NET_Pp_ERR_STOMP 0]⟩,
  ⟨0x40102c, [(3, 0x100)], [NET_Pp_DROP_Q 0]⟩,
  ⟨0x402000, [(3, 0x100), (64, 0x4)], [NET_Pp_GCLe_GATES 0 0, NET_Pp_GCLe_INTV 0 0]⟩,
  ⟨0x408000, [(128, 0x10)], [NET_GCBc_CFG_PORTS 0, NET_GCBc_CFG_AUTH 0, NET_GCBc_CFG_KSLOT 0]⟩,
  ⟨0x408004, [(128, 0x10)], [NET_GCBc_TIM_T0 0, NET_GCBc_TIM_T1 0]⟩,
  ⟨0x408008, [(128, 0x10)], [NET_GCBc_ST_ST 0]⟩,
  ⟨0x40800c, [(128, 0x10)], [NET_GCBc_CNT_SENT 0, NET_GCBc_CNT_SUPER 0]⟩,
  ⟨0x410000, [(1024, 0x10)], [NET_GSUBs_STAT_STATE 0, NET_GSUBs_STAT_EXP_STK 0, NET_GSUBs_STAT_CONFREV_STK 0, NET_GSUBs_STAT_SIM_SEEN 0, NET_GSUBs_STAT_SPORT 0, NET_GSUBs_STAT_KSLOT 0, NET_GSUBs_STAT_AUTH 0, NET_GSUBs_STAT_SIMOK 0, NET_GSUBs_STAT_TALMARGIN 0]⟩,
  ⟨0x410004, [(1024, 0x10)], [NET_GSUBs_ST_ST 0]⟩,
  ⟨0x410008, [(1024, 0x10)], [NET_GSUBs_CNT_DUP 0, NET_GSUBs_CNT_OOS 0]⟩,
  ⟨0x41000c, [(1024, 0x10)], [NET_GSUBs_ERR_AUTHFAIL 0, NET_GSUBs_ERR_FORMAT 0]⟩]

open R in
/-- The registers of block SVI, in the order of its register map. -/
def regsSvi : List RegDef := [
  ⟨0x500000, [], [SVI_CTL_LOCK, SVI_CTL_SNAPREQ, SVI_CTL_DIRFLUSH]⟩,
  ⟨0x500004, [], [SVI_STAT_SNAP_BUSY, SVI_STAT_RESTORED, SVI_STAT_LASTCOPY]⟩,
  ⟨0x500008, [], [SVI_DIR_CFG_AGE, SVI_DIR_CFG_SNAP]⟩,
  ⟨0x50000c, [], [SVI_DIR_STAT_EVICT, SVI_DIR_STAT_USED]⟩,
  ⟨0x500010, [], [SVI_DIR_SEL_FETCH, SVI_DIR_SEL_READY, SVI_DIR_SEL_EMPTY, SVI_DIR_SEL_IDX]⟩,
  ⟨0x500200, [(128, 0x4)], [SVI_DIR_BUFw_WORD 0]⟩,
  ⟨0x501000, [(64, 0x40)], [SVI_SUBs_CFG_EN 0, SVI_SUBs_CFG_AUTH 0, SVI_SUBs_CFG_SIMOK 0, SVI_SUBs_CFG_LOCALQ 0, SVI_SUBs_CFG_RATE 0, SVI_SUBs_CFG_NASDU 0, SVI_SUBs_CFG_NQTY 0, SVI_SUBs_CFG_RECOV 0, SVI_SUBs_CFG_KSLOT 0]⟩,
  ⟨0x501004, [(64, 0x40)], [SVI_SUBs_ID_APPID 0]⟩,
  ⟨0x501008, [(64, 0x40)], [SVI_SUBs_MAC_LO_MAC_LO 0]⟩,
  ⟨0x50100c, [(64, 0x40)], [SVI_SUBs_MAC_HI_MAC_HI 0]⟩,
  ⟨0x501010, [(64, 0x40)], [SVI_SUBs_CONFREV_CONFREV 0]⟩,
  ⟨0x501014, [(64, 0x40)], [SVI_SUBs_SVIDH_SVIDH 0]⟩,
  ⟨0x501018, [(64, 0x40)], [SVI_SUBs_MUDLY_MUDLY 0]⟩,
  ⟨0x50101c, [(64, 0x40)], [SVI_SUBs_NOMDLY_NOMDLY 0]⟩,
  ⟨0x501020, [(64, 0x40)], [SVI_SUBs_MAXDLY_MAXDLY 0]⟩,
  ⟨0x501024, [(64, 0x40)], [SVI_SUBs_STAT_STATE 0, SVI_SUBs_STAT_SYNC 0, SVI_SUBs_STAT_LOST_STK 0, SVI_SUBs_STAT_CONFREV_STK 0, SVI_SUBs_STAT_SIM_SEEN 0, SVI_SUBs_STAT_DIRV 0, SVI_SUBs_STAT_DIRIDX 0]⟩,
  ⟨0x501028, [(64, 0x40)], [SVI_SUBs_DLY_DLY 0]⟩,
  ⟨0x50102c, [(64, 0x40)], [SVI_SUBs_DLYMAX_DLYMAX 0]⟩,
  ⟨0x501030, [(64, 0x40)], [SVI_SUBs_RX_RX 0]⟩,
  ⟨0x501034, [(64, 0x40)], [SVI_SUBs_MISS_MISSING 0, SVI_SUBs_MISS_LOSSES 0]⟩,
  ⟨0x501038, [(64, 0x40)], [SVI_SUBs_ERR_AUTHFAIL 0, SVI_SUBs_ERR_FORMAT 0]⟩,
  ⟨0x50103c, [(64, 0x40)], [SVI_SUBs_LATE_LATE 0, SVI_SUBs_LATE_DUP 0]⟩,
  ⟨0x504000, [(192, 0x4)], [SVI_MAPm_EN 0, SVI_MAPm_SUB 0, SVI_MAPm_QTY 0]⟩]

open R in
/-- The registers of block AFE, in the order of its register map. -/
def regsAfe : List RegDef := [
  ⟨0x600000, [], [AFE_CTL_LOCK, AFE_CTL_LPM, AFE_CTL_REFSEL]⟩,
  ⟨0x600004, [], [AFE_STAT_REF_RDY, AFE_STAT_LPM_ACT, AFE_STAT_LPM_REFUSED, AFE_STAT_REFSEL_ACT, AFE_STAT_LPM_CH]⟩,
  ⟨0x600008, [], [AFE_GRP_STAT_REF_FAIL_STK]⟩,
  ⟨0x60000c, [], [AFE_GRP_LIVE_OVL, AFE_GRP_LIVE_REF_FAIL]⟩,
  ⟨0x600100, [(4, 0x10)], [AFE_CKk_CTL_EN 0, AFE_CKk_CTL_RESTART 0, AFE_CKk_CTL_TOL_ABS 0, AFE_CKk_CTL_TOL_REL 0, AFE_CKk_CTL_DWELL 0]⟩,
  ⟨0x600104, [(4, 0x10)], [AFE_CKk_STAT_FAILED 0, AFE_CKk_STAT_FAILED_STK 0, AFE_CKk_STAT_POS 0, AFE_CKk_STAT_INVAL 0, AFE_CKk_STAT_SUSPECT 0]⟩,
  ⟨0x600108, [(4, 0x10)], [AFE_CKk_LASTD_RESULT 0, AFE_CKk_LASTD_POS 0, AFE_CKk_LASTD_DIFF 0]⟩,
  ⟨0x60010c, [(4, 0x10)], [AFE_CKk_CNT_SWEEPS 0, AFE_CKk_CNT_FAILS 0, AFE_CKk_CNT_VOIDS 0]⟩,
  ⟨0x601000, [(48, 0x20)], [AFE_CHn_CFG_EN 0, AFE_CHn_CFG_GAIN 0, AFE_CHn_CFG_WMODE 0, AFE_CHn_CFG_WK 0, AFE_CHn_CFG_CKEXCL 0]⟩,
  ⟨0x601004, [(48, 0x20)], [AFE_CHn_STAT_OVL 0, AFE_CHn_STAT_OVL_STK 0, AFE_CHn_STAT_NBR 0, AFE_CHn_STAT_CK_INVAL 0, AFE_CHn_STAT_WFB 0, AFE_CHn_STAT_OVL_CNT 0]⟩,
  ⟨0x601008, [(48, 0x20)], [AFE_CHn_SEQ_SEQ 0]⟩,
  ⟨0x60100c, [(48, 0x20)], [AFE_CHn_CNT_UFLG 0, AFE_CHn_CNT_OFLG 0, AFE_CHn_CNT_NFLG 0, AFE_CHn_CNT_COUNT 0]⟩,
  ⟨0x601010, [(48, 0x20)], [AFE_CHn_SUM_LO_SUM 0]⟩,
  ⟨0x601014, [(48, 0x20)], [AFE_CHn_SUM_HI_SUM 0]⟩,
  ⟨0x601018, [(48, 0x20)], [AFE_CHn_SQ_LO_SQ 0]⟩,
  ⟨0x60101c, [(48, 0x20)], [AFE_CHn_SQ_HI_SQ 0]⟩,
  ⟨0x602000, [(48, 0x8)], [AFE_CHn_MIN_MIN 0]⟩,
  ⟨0x602004, [(48, 0x8)], [AFE_CHn_MAX_MAX 0]⟩]

open R in
/-- The registers of block DCH, in the order of its register map. -/
def regsDch : List RegDef := [
  ⟨0x700000, [], [DCH_CTL_LOCK]⟩,
  ⟨0x700004, [], [DCH_LD_SEL_KIND, DCH_LD_SEL_STAGE, DCH_LD_SEL_IDX, DCH_LD_SEL_K, DCH_LD_SEL_BANK, DCH_LD_SEL_PROF]⟩,
  ⟨0x700008, [], [DCH_LD_DATA_DATA]⟩,
  ⟨0x70000c, [], [DCH_LD_CMD_COMMIT, DCH_LD_CMD_OPEN]⟩,
  ⟨0x700010, [], [DCH_LD_STAT_BUSY, DCH_LD_STAT_OPENED, DCH_LD_STAT_COUNT, DCH_LD_STAT_RESULT]⟩,
  ⟨0x701000, [(48, 0x40)], [DCH_CHn_CTL_RUN 0, DCH_CHn_CTL_SRST 0]⟩,
  ⟨0x701004, [(48, 0x40)], [DCH_CHn_CFG_NHB 0, DCH_CHn_CFG_FADE 0]⟩,
  ⟨0x701008, [(48, 0x40)], [DCH_CHn_BREQ_STAGE 0, DCH_CHn_BREQ_BANK 0]⟩,
  ⟨0x70100c, [(48, 0x40)], [DCH_CHn_BSTAT_LOADED 0, DCH_CHn_BSTAT_PENDBANK5 0, DCH_CHn_BSTAT_PEND5 0, DCH_CHn_BSTAT_FADE_BUSY5 0, DCH_CHn_BSTAT_ACT5 0, DCH_CHn_BSTAT_PENDBANK4 0, DCH_CHn_BSTAT_PEND4 0, DCH_CHn_BSTAT_FADE_BUSY4 0, DCH_CHn_BSTAT_ACT4 0, DCH_CHn_BSTAT_PENDBANK3 0, DCH_CHn_BSTAT_PEND3 0, DCH_CHn_BSTAT_FADE_BUSY3 0, DCH_CHn_BSTAT_ACT3 0, DCH_CHn_BSTAT_PENDBANK2 0, DCH_CHn_BSTAT_PEND2 0, DCH_CHn_BSTAT_FADE_BUSY2 0, DCH_CHn_BSTAT_ACT2 0, DCH_CHn_BSTAT_PENDBANK1 0, DCH_CHn_BSTAT_PEND1 0, DCH_CHn_BSTAT_FADE_BUSY1 0, DCH_CHn_BSTAT_ACT1 0]⟩,
  ⟨0x701010, [(48, 0x40)], [DCH_CHn_STAT_UNSET 0, DCH_CHn_STAT_NHB_REFUSED 0, DCH_CHn_STAT_BREQ_REFUSED 0, DCH_CHn_STAT_SAT_STK 0, DCH_CHn_STAT_RUN_REFUSED 0, DCH_CHn_STAT_SATCNT 0]⟩,
  ⟨0x701014, [(48, 0x40)], [DCH_CHn_KACT_KACT 0]⟩,
  ⟨0x704000, [(192, 0x40)], [DCH_RSm_CTL_RUN 0, DCH_RSm_CTL_SRST 0]⟩,
  ⟨0x704004, [(192, 0x40)], [DCH_RSm_CFG_SRCSEL 0, DCH_RSm_CFG_SRC 0, DCH_RSm_CFG_FADE 0]⟩,
  ⟨0x704008, [(192, 0x40)], [DCH_RSm_SCALE_SCALE 0]⟩,
  ⟨0x70400c, [(192, 0x40)], [DCH_RSm_BREQ_BANK 0]⟩,
  ⟨0x704010, [(192, 0x40)], [DCH_RSm_STAT_UNSET 0, DCH_RSm_STAT_BREQ_REFUSED 0, DCH_RSm_STAT_CFG_REFUSED 0, DCH_RSm_STAT_LOADED_B 0, DCH_RSm_STAT_LOADED_A 0, DCH_RSm_STAT_PROF_B 0, DCH_RSm_STAT_PROF_A 0, DCH_RSm_STAT_PENDBANK 0, DCH_RSm_STAT_PEND 0, DCH_RSm_STAT_FADE_BUSY 0, DCH_RSm_STAT_ACT 0]⟩,
  ⟨0x704014, [(192, 0x40)], [DCH_RSm_DELAY_DELAY 0]⟩,
  ⟨0x704018, [(192, 0x40)], [DCH_RSm_REL_REL 0]⟩,
  ⟨0x70401c, [(192, 0x40)], [DCH_RSm_CNT_BRIDGED 0, DCH_RSm_CNT_UNWRITTEN 0]⟩]

open R in
/-- The registers of block ESP, in the order of its register map. -/
def regsEsp : List RegDef := [
  ⟨0x800000, [], [ESP_CTL_LOCK]⟩,
  ⟨0x800004, [], [ESP_GRP_FTG_FTG]⟩,
  ⟨0x800008, [], [ESP_STAT_PERR_STK, ESP_STAT_FTG_EN]⟩,
  ⟨0x80000c, [], [ESP_PERR_CNT, ESP_PERR_ADDR]⟩,
  ⟨0x800100, [(4, 0x40)], [ESP_FTGg_CFG_MODE 0, ESP_FTGg_CFG_FNOM 0, ESP_FTGg_CFG_N 0, ESP_FTGg_CFG_HOLDC 0]⟩,
  ⟨0x800104, [(4, 0x40)], [ESP_FTGg_TRK_VMODE 0, ESP_FTGg_TRK_IMODE 0, ESP_FTGg_TRK_STEP 0]⟩,
  ⟨0x800108, [(4, 0x40)], [ESP_FTGg_VSRC_C2 0, ESP_FTGg_VSRC_C1 0, ESP_FTGg_VSRC_C0 0]⟩,
  ⟨0x80010c, [(4, 0x40)], [ESP_FTGg_ISRC_C2 0, ESP_FTGg_ISRC_C1 0, ESP_FTGg_ISRC_C0 0]⟩,
  ⟨0x800110, [(4, 0x40)], [ESP_FTGg_VMIN_VMIN 0]⟩,
  ⟨0x800114, [(4, 0x40)], [ESP_FTGg_IMIN_IMIN 0]⟩,
  ⟨0x800118, [(4, 0x40)], [ESP_FTGg_LATE_LATE 0]⟩,
  ⟨0x80011c, [(4, 0x40)], [ESP_FTGg_STAT_STATE 0, ESP_FTGg_STAT_LIMIT 0, ESP_FTGg_STAT_NACT 0, ESP_FTGg_STAT_MODEACT 0, ESP_FTGg_STAT_LIMIT_STK 0, ESP_FTGg_STAT_HOLD_STK 0, ESP_FTGg_STAT_CFG_REFUSED 0, ESP_FTGg_STAT_STEP_STK 0]⟩,
  ⟨0x800120, [(4, 0x40)], [ESP_FTGg_FREQ_FREQ 0]⟩,
  ⟨0x800124, [(4, 0x40)], [ESP_FTGg_HEAD_VALID 0, ESP_FTGg_HEAD_SLOT 0]⟩,
  ⟨0x800128, [(4, 0x40)], [ESP_FTGg_DLN_DLN 0]⟩,
  ⟨0x80012c, [(4, 0x40)], [ESP_FTGg_LAG_LAG 0]⟩,
  ⟨0x800130, [(4, 0x40)], [ESP_FTGg_LAGMAX_LAGMAX 0]⟩,
  ⟨0x800134, [(4, 0x40)], [ESP_FTGg_CNT_DLCLOSE 0, ESP_FTGg_CNT_LATEWR 0]⟩,
  ⟨0x800138, [(4, 0x40)], [ESP_FTGg_FILL_FILL 0]⟩,
  ⟨0x80013c, [(4, 0x40)], [ESP_FTGg_FMEAS_VALID 0, ESP_FTGg_FMEAS_FMEAS 0]⟩]

open R in
/-- The registers of block ELC, in the order of its register map. -/
def regsElc : List RegDef := [
  ⟨0x900000, [(8, 0x10000)], [ELCn_CTL_LOCK 0, ELCn_CTL_BRST 0]⟩,
  ⟨0x900004, [(8, 0x10000)], [ELCn_STAT_STATE 0, ELCn_STAT_QTIMED 0, ELCn_STAT_BREACH_STK 0, ELCn_STAT_LAG_STK 0, ELCn_STAT_VWR_STK 0, ELCn_STAT_ECC_STK 0, ELCn_STAT_CAUSE 0]⟩,
  ⟨0x900008, [(8, 0x10000)], [ELCn_C0BOUND_BUDGET 0, ELCn_C0BOUND_BOUND 0]⟩,
  ⟨0x90000c, [(8, 0x10000)], [ELCn_C0LAST_LAST 0]⟩,
  ⟨0x900010, [(8, 0x10000)], [ELCn_C0MAX_MAX 0]⟩,
  ⟨0x900014, [(8, 0x10000)], [ELCn_CNT_BREACH 0, ELCn_CNT_LAGF 0]⟩,
  ⟨0x900018, [(8, 0x10000)], [ELCn_DROP_C3 0]⟩,
  ⟨0x90001c, [(8, 0x10000)], [ELCn_TICK_OPEN 0]⟩,
  ⟨0x900020, [(8, 0x10000)], [ELCn_ECC_CORR 0, ELCn_ECC_UNCORR 0]⟩,
  ⟨0x900024, [(8, 0x10000)], [ELCn_TICKIX_TICK 0]⟩,
  ⟨0x900100, [(8, 0x10000), (3, 0x20)], [ELCn_BAYj_MODE_ACT 0 0, ELCn_BAYj_MODE_REQ 0 0]⟩,
  ⟨0x900104, [(8, 0x10000), (3, 0x20)], [ELCn_BAYj_SG_DEF 0 0, ELCn_BAYj_SG_PEND 0 0, ELCn_BAYj_SG_SG_REFUSED 0 0, ELCn_BAYj_SG_ACT 0 0, ELCn_BAYj_SG_REQ 0 0]⟩,
  ⟨0x900108, [(8, 0x10000), (3, 0x20)], [ELCn_BAYj_VST_QTIMED 0 0, ELCn_BAYj_VST_TEST 0 0, ELCn_BAYj_VST_OUTBLK 0 0, ELCn_BAYj_VST_INVALID 0 0, ELCn_BAYj_VST_TRIPOUT 0 0, ELCn_BAYj_VST_SNAPTK 0 0]⟩,
  ⟨0x908000, [(8, 0x10000), (3, 0x100)], []⟩]

open R in
/-- The registers of block THN, in the order of its register map. -/
def regsThn : List RegDef := [
  ⟨0xa00000, [], [THN_CTL_LOCK]⟩,
  ⟨0xa00004, [], [THN_STAT_SAFE, THN_STAT_RB_STK, THN_STAT_BEV_OVF_STK, THN_STAT_CHAT_STK, THN_STAT_STRFAIL_STK]⟩,
  ⟨0xa00008, [], [THN_TRIP_LO_LEVEL]⟩,
  ⟨0xa0000c, [], [THN_TRIP_HI_LEVEL]⟩,
  ⟨0xa00010, [], [THN_RB_LO_MISM]⟩,
  ⟨0xa00014, [], [THN_RB_HI_MISM]⟩,
  ⟨0xa00018, [], [THN_GPO_LEVEL]⟩,
  ⟨0xa0001c, [], [THN_GPO_HOSTW_VAL]⟩,
  ⟨0xa00020, [], [THN_GPO_OWN_HOST]⟩,
  ⟨0xa00024, [], [THN_BIN_LO_LEVEL]⟩,
  ⟨0xa00028, [], [THN_BIN_HI_LEVEL]⟩,
  ⟨0xa0002c, [], [THN_BCHAT_LO_FROZEN]⟩,
  ⟨0xa00030, [], [THN_BCHAT_HI_FROZEN]⟩,
  ⟨0xa00034, [], [THN_BEV_STAT_LOST, THN_BEV_STAT_COUNT]⟩,
  ⟨0xa00038, [], [THN_BEV_INFO_VALID, THN_BEV_INFO_LEVEL, THN_BEV_INFO_CHATREL, THN_BEV_INFO_BIN, THN_BEV_INFO_SEQ]⟩,
  ⟨0xa0003c, [], [THN_BEV_TS_LO_TS]⟩,
  ⟨0xa00040, [], [THN_BEV_TS_HI_TS]⟩,
  ⟨0xa00044, [], [THN_BEV_POP_POP]⟩,
  ⟨0xa01000, [(24, 0x10)], [THN_BAYb_CFG_ARM 0, THN_BAYb_CFG_SMODE 0, THN_BAYb_CFG_FAILMODE 0, THN_BAYb_CFG_CHMASK 0, THN_BAYb_CFG_FMASK 0]⟩,
  ⟨0xa01004, [(24, 0x10)], [THN_BAYb_TIM_TMIN 0, THN_BAYb_TIM_HOLD 0]⟩,
  ⟨0xa01008, [(24, 0x10)], [THN_BAYb_THR_THR 0]⟩,
  ⟨0xa0100c, [(24, 0x10)], [THN_BAYb_STAT_PERMIT 0, THN_BAYb_STAT_STRFAIL 0, THN_BAYb_STAT_PERMIT_STK 0, THN_BAYb_STAT_STRFAIL_STK 0, THN_BAYb_STAT_PICKUPS 0]⟩,
  ⟨0xa02000, [(64, 0x4)], [THN_BINi_CFG_INV 0, THN_BINi_CFG_CHEN 0, THN_BINi_CFG_CHATN 0, THN_BINi_CFG_DEB 0]⟩]

open R in
/-- The registers of block SCH, in the order of its register map. -/
def regsSch : List RegDef := [
  ⟨0xb00000, [], [SCH_CTL_LOCK, SCH_CTL_BRST]⟩,
  ⟨0xb00004, [], [SCH_STAT_STATE, SCH_STAT_LS_STK, SCH_STAT_WARM, SCH_STAT_LASTRST, SCH_STAT_RETAIN_MISMATCH_STK, SCH_STAT_JSTALL_STK]⟩,
  ⟨0xb00008, [], [SCH_FRAME_HRATIO, SCH_FRAME_MFRAME]⟩,
  ⟨0xb0000c, [], [SCH_RSTPOL_WARM]⟩,
  ⟨0xb00010, [], [SCH_FCNT_FCNT]⟩,
  ⟨0xb00020, [], [SCH_EXCH_CTL_REQ, SCH_EXCH_CTL_CANCEL, SCH_EXCH_CTL_SLOT]⟩,
  ⟨0xb00024, [], [SCH_EXCH_STAT_STATE, SCH_EXCH_STAT_RESULT, SCH_EXCH_STAT_DEFERS]⟩,
  ⟨0xb00030, [], [SCH_JRN_STAT_CKPT_BUSY, SCH_JRN_STAT_CKCOPY, SCH_JRN_STAT_STALL, SCH_JRN_STAT_FILL]⟩,
  ⟨0xb00034, [], [SCH_JRN_SEQ_LO_SEQ]⟩,
  ⟨0xb00038, [], [SCH_JRN_SEQ_HI_SEQ]⟩,
  ⟨0xb01000, [(16, 0x20)], [SCH_TKn_CFG_KIND 0, SCH_TKn_CFG_TRIG 0, SCH_TKn_CFG_FTG 0, SCH_TKn_CFG_PARAM 0]⟩,
  ⟨0xb01004, [(16, 0x20)], [SCH_TKn_STAT_STATE 0, SCH_TKn_STAT_OVR_STK 0, SCH_TKn_STAT_EXC_STK 0, SCH_TKn_STAT_BUD_STK 0, SCH_TKn_STAT_LASTCAUSE 0]⟩,
  ⟨0xb01008, [(16, 0x20)], [SCH_TKn_CNT_OVR 0, SCH_TKn_CNT_MERGED 0]⟩,
  ⟨0xb0100c, [(16, 0x20)], [SCH_TKn_BUDGET_BUDGET 0]⟩,
  ⟨0xb01010, [(16, 0x20)], [SCH_TKn_EXLAST_EXLAST 0]⟩,
  ⟨0xb01014, [(16, 0x20)], [SCH_TKn_EXMAX_EXMAX 0]⟩,
  ⟨0xb01018, [(16, 0x20)], [SCH_TKn_ACT_ACT 0]⟩,
  ⟨0xb0101c, [(16, 0x20)], [SCH_TKn_RUNS_RUNS 0]⟩]

open R in
/-- The registers of block REC, in the order of its register map. -/
def regsRec : List RegDef := [
  ⟨0xc00000, [], [REC_CTL_LOCK]⟩,
  ⟨0xc00100, [(4, 0x100)], [REC_AUu_CTL_ARM 0, REC_AUu_CTL_DISARM 0, REC_AUu_CTL_HTRIG 0]⟩,
  ⟨0xc00104, [(4, 0x100)], [REC_AUu_CFG_MODE 0, REC_AUu_CFG_FTG 0, REC_AUu_CFG_RETRIG 0, REC_AUu_CFG_HMODE 0, REC_AUu_CFG_BINEN 0, REC_AUu_CFG_TXTWIN 0, REC_AUu_CFG_K 0, REC_AUu_CFG_ANDWIN 0]⟩,
  ⟨0xc00108, [(4, 0x100)], [REC_AUu_PART_BASE 0, REC_AUu_PART_SIZE 0]⟩,
  ⟨0xc0010c, [(4, 0x100)], [REC_AUu_PRE_PRE 0]⟩,
  ⟨0xc00110, [(4, 0x100)], [REC_AUu_POST_POST 0]⟩,
  ⟨0xc00114, [(4, 0x100)], [REC_AUu_HOLD_HOLD 0]⟩,
  ⟨0xc00118, [(4, 0x100)], [REC_AUu_NSRC_NSIG 0, REC_AUu_NSRC_NCH 0]⟩,
  ⟨0xc0011c, [(4, 0x100)], [REC_AUu_STAT_STATE 0, REC_AUu_STAT_RESULT 0, REC_AUu_STAT_OVF_STK 0, REC_AUu_STAT_TRUNC_STK 0, REC_AUu_STAT_STALL_STK 0, REC_AUu_STAT_NEWEST 0]⟩,
  ⟨0xc00120, [(4, 0x100)], [REC_AUu_CNT_RECORDS 0, REC_AUu_CNT_HOLDTRIG 0, REC_AUu_CNT_LOST 0]⟩,
  ⟨0xc00124, [(4, 0x100)], [REC_AUu_ROWB_ROWB 0]⟩,
  ⟨0xc00128, [(4, 0x100)], [REC_AUu_PIN_PIN 0]⟩,
  ⟨0xc0012c, [(4, 0x100)], [REC_AUu_VALID_COMPLETE 0, REC_AUu_VALID_VALID 0]⟩,
  ⟨0xc00140, [(4, 0x100), (16, 0x8)], [REC_AUu_TRGt_CFG_KIND 0 0, REC_AUu_TRGt_CFG_GROUP 0 0, REC_AUu_TRGt_CFG_EDGE 0 0, REC_AUu_TRGt_CFG_M 0 0, REC_AUu_TRGt_CFG_SEL 0 0]⟩,
  ⟨0xc00144, [(4, 0x100), (16, 0x8)], [REC_AUu_TRGt_THR_THR 0 0]⟩,
  ⟨0xc001c0, [(4, 0x100), (8, 0x4)], [REC_AUu_MSKm_CFG_EN 0 0, REC_AUu_MSKm_CFG_ACT 0 0, REC_AUu_MSKm_CFG_M 0 0, REC_AUu_MSKm_CFG_CH 0 0]⟩,
  ⟨0xc01000, [(4, 0x400), (192, 0x4)], [REC_AUu_CHi_SRC 0 0]⟩,
  ⟨0xc02000, [(4, 0x200), (128, 0x4)], [REC_AUu_SIGi_CODE1 0 0, REC_AUu_SIGi_CODE0 0 0]⟩,
  ⟨0xc10000, [(4, 0x4000), (8, 0x800), (256, 0x8)], [REC_AUu_MASKmp_MASK 0 0 0]⟩,
  ⟨0xc10004, [(4, 0x4000), (8, 0x800), (256, 0x8)], [REC_AUu_MASKLmp_MASK 0 0 0]⟩]

open R in
/-- The registers of block SEC, in the order of its register map. -/
def regsSec : List RegDef := [
  ⟨0xd00000, [], [SEC_CTL_LOCK]⟩,
  ⟨0xd00004, [], [SEC_STAT_BUSY, SEC_STAT_TAMP_STK, SEC_STAT_NOKEY]⟩,
  ⟨0xd00008, [], [SEC_LC_OWNER, SEC_LC_STATE]⟩,
  ⟨0xd0000c, [], [SEC_DEVID_LO_DEVID]⟩,
  ⟨0xd00010, [], [SEC_DEVID_HI_DEVID]⟩,
  ⟨0xd00014, [], [SEC_MINVER_MINVER]⟩,
  ⟨0xd00018, [], [SEC_NONCE_NONCE]⟩,
  ⟨0xd0001c, [], [SEC_CMD_OP]⟩,
  ⟨0xd00020, [], [SEC_RES_OP, SEC_RES_RESULT]⟩,
  ⟨0xd00024, [], [SEC_STG_CFG_SLOT, SEC_STG_CFG_LEN]⟩,
  ⟨0xd00028, [], [SEC_STG_ADDR_LO_ADDR]⟩,
  ⟨0xd0002c, [], [SEC_STG_ADDR_HI_ADDR]⟩,
  ⟨0xd00030, [], [SEC_TAMP_STK, SEC_TAMP_LIVE]⟩,
  ⟨0xd00034, [], [SEC_CERTLEN_LEN]⟩,
  ⟨0xd00038, [], [SEC_KGRACE_GRACE]⟩,
  ⟨0xd00100, [(64, 0x4)], [SEC_BUFw_WORD 0]⟩,
  ⟨0xd00200, [], [SEC_KSEL_SLOT]⟩,
  ⟨0xd00204, [], [SEC_KCFG_ALG]⟩,
  ⟨0xd00208, [], [SEC_KROLL_LO_KROLL]⟩,
  ⟨0xd0020c, [], [SEC_KROLL_HI_KROLL]⟩,
  ⟨0xd00210, [], [SEC_KSTAT_ALG, SEC_KSTAT_CUR, SEC_KSTAT_NXT, SEC_KSTAT_RET]⟩,
  ⟨0xd00214, [], [SEC_KIDC_KID]⟩,
  ⟨0xd00218, [], [SEC_KIDN_KID]⟩,
  ⟨0xd0021c, [], [SEC_KIDR_KID]⟩,
  ⟨0xd00220, [(8, 0x4)], [SEC_KEYw_KEY 0]⟩,
  ⟨0xd00240, [], [SEC_KIDL_KIDL]⟩,
  ⟨0xd01000, [(256, 0x4)], [SEC_CERTw_CERT 0]⟩]

open R in
/-- The registers of block TWN, in the order of its register map. -/
def regsTwn : List RegDef := [
  ⟨0xe00000, [], [TWN_CTL_LOCK, TWN_CTL_RELEARN]⟩,
  ⟨0xe00004, [], [TWN_CFG_EN, TWN_CFG_ROLE, TWN_CFG_FTG, TWN_CFG_PARTNER, TWN_CFG_LATE]⟩,
  ⟨0xe00008, [], [TWN_TIM_SILENT, TWN_TIM_RDCYC]⟩,
  ⟨0xe0000c, [], [TWN_STAT_XMODE, TWN_STAT_DIS_STK, TWN_STAT_RDIFF_STK, TWN_STAT_PCHG_STK, TWN_STAT_ROLE_STK, TWN_STAT_LEARNED]⟩,
  ⟨0xe00010, [], [TWN_PDEVID_LO_PDEVID]⟩,
  ⟨0xe00014, [], [TWN_PDEVID_HI_PDEVID]⟩,
  ⟨0xe00018, [], [TWN_PHEALTH_HEALTH]⟩,
  ⟨0xe0001c, [], [TWN_PSTART_START]⟩,
  ⟨0xe00020, [], [TWN_PTRIP_TRIP]⟩,
  ⟨0xe00024, [], [TWN_PVALID_VALID]⟩,
  ⟨0xe00028, [], [TWN_PREV_REV]⟩,
  ⟨0xe0002c, [], [TWN_DISBAY_BAY]⟩,
  ⟨0xe00030, [], [TWN_CNT0_TX, TWN_CNT0_RX]⟩,
  ⟨0xe00034, [], [TWN_CNT1_DIS, TWN_CNT1_UNCHK]⟩,
  ⟨0xe00038, [], [TWN_CNT2_BAD, TWN_CNT2_ROLECLASH, TWN_CNT2_SEGX]⟩,
  ⟨0xe0003c, [], [TWN_AGE_AGE]⟩,
  ⟨0xe00100, [(8, 0x4)], [TWN_PIDw_PID 0]⟩]

open R in
/-- The registers of block MEM, in the order of its register map. -/
def regsMem : List RegDef := [
  ⟨0xf00000, [], [MEM_STAT_TRAINED, MEM_STAT_FAIL, MEM_STAT_SR, MEM_STAT_UNCORR_STK, MEM_STAT_CORR_STK]⟩,
  ⟨0xf00004, [], [MEM_SIZE_DETECT, MEM_SIZE_USABLE]⟩,
  ⟨0xf00008, [], [MEM_ECC_CORR, MEM_ECC_UNCORR]⟩,
  ⟨0xf0000c, [], [MEM_EADDR_LO_EADDR]⟩,
  ⟨0xf00010, [], [MEM_EADDR_HI_EADDR]⟩]

open R in
/-- The registers of block HST, in the order of its register map. -/
def regsHst : List RegDef := [
  ⟨0xf80000, [], [HST_CTL_LOCK]⟩,
  ⟨0xf80004, [], [HST_STAT_LINK, HST_STAT_SPEED, HST_STAT_WIDTH, HST_STAT_LINKCHG_STK, HST_STAT_PERST_STK]⟩,
  ⟨0xf80008, [], [HST_AREA_BASE, HST_AREA_SIZE]⟩,
  ⟨0xf8000c, [], [HST_SUBSYS_SSID, HST_SUBSYS_SSVID]⟩,
  ⟨0xf80100, [(4, 0x20)], [HST_Rr_CFG_BASE 0, HST_Rr_CFG_LOG2E 0]⟩,
  ⟨0xf80104, [(4, 0x20)], [HST_Rr_PROD_PROD 0]⟩,
  ⟨0xf80108, [(4, 0x20)], [HST_Rr_CONS_CONS 0]⟩,
  ⟨0xf8010c, [(4, 0x20)], [HST_Rr_IRQ_HOLD 0]⟩,
  ⟨0xf80110, [(4, 0x20)], [HST_Rr_STAT_OVR_STK 0, HST_Rr_STAT_LOST 0]⟩]

/-- Every register of BAR0 (R508). -/
def regTable : List RegDef :=
  regsGlb ++ regsPrv ++ regsYew ++ regsTim ++ regsNet ++ regsSvi ++ regsAfe ++ regsDch ++ regsEsp ++ regsElc ++ regsThn ++ regsSch ++ regsRec ++ regsSec ++ regsTwn ++ regsMem ++ regsHst

end Sys2Proof.Machine
end

