-- ==== Sys2Proof/Machine/State.lean ====
section
/-! DEFINITION. The machine state as plain data: the register fields of every block, the memories, and what each
block holds beside its registers; the reasons a step can stop; and the state after power-on reset. -/

namespace Sys2Proof.Machine

/-- Why the block stops with a fault. No command of this model raises one. -/
inductive Fault where
  /-- Kept for a step whose memory would break its canonical form; no meaning answers it. Safe. -/
  | brokenMemory
  deriving DecidableEq, Repr

/-- Why a command is refused. -/
inductive Refusal where
  /-- A command whose meaning has not been written; raised by no arm once all are written. Safe. -/
  | notModelled (mnemonic : String)
  deriving DecidableEq, Repr

/-! ### Event recorder and fault collector -/

/-- The stamps of an event (R400): followed base, time-quality code, taken from the coarse clock, active time, TB2. -/
structure Stamp where
  actb : Nat := 0
  tq : Nat := 3
  coarse : Bool := false
  act : Nat := 0
  tb2 : Nat := 0
  deriving DecidableEq, Repr

/-- Who is told the sequence number of an event's record (R401). -/
inductive SeqTo where
  | nobody
  | firstFault
  | recHeader (au slot : Nat)
  deriving DecidableEq, Repr

/-- An event on its way to Yew through an any→AON FIFO (R401). An event raised in AON carries no stamp yet (R400). -/
structure Ev where
  cls : Nat
  src : Nat
  code : Nat
  stamp : Option Stamp := none
  payload : List Byte := []
  tell : SeqTo := .nobody
  deriving DecidableEq, Repr

/-- An entry of Yew's ingress FIFO (R397, R401): a record in the making. -/
structure YEntry where
  cls : Nat
  src : Nat
  code : Nat
  seq : Option Nat
  rep : Nat := 0
  occ : Nat := 0
  stamp : Stamp
  payload : List Byte
  tell : SeqTo := .nobody
  deriving DecidableEq, Repr

/-- An overflow period of Yew (R404): the losses by class, the sources that lost, the stamp of the first loss. -/
structure YOvf where
  info : Nat := 0
  c : Nat := 0
  u : Nat := 0
  srcs : Nat := 0
  first : Nat := 0
  deriving DecidableEq, Repr

/-- What Yew holds beside its registers. -/
structure Yew where
  /-- events that have not reached Yew yet, oldest first (R36, R401) -/
  cross : List Ev := []
  /-- the ingress FIFO, head first (R401) -/
  fifo : List YEntry := []
  /-- losses of the overflow period in progress (R404) -/
  ovf : YOvf := {}
  /-- the nonce of the next clear token (R408) -/
  nonce : Word := 0
  /-- the numbers [lo, hi) whose slots are still to be zeroed after a clear (R409) -/
  zero : Option (Nat × Nat) := none
  deriving DecidableEq, Repr

/-- What Privet holds beside its registers. -/
structure Prv where
  /-- fault occurrences on their way to Privet: source and detail, oldest first (R416) -/
  lines : List (Nat × Word) := []
  /-- the live items of the level sources: (source, item) (R548) -/
  items : List (Nat × Nat) := []
  /-- TB2 at the start of each target's latest block reset (R429) -/
  lastBrst : List (Nat × Nat) := []
  /-- targets whose block reset is in progress (R427) -/
  inRst : List Nat := []
  /-- targets whose window is in its 10 µs tail, each with the TB2 at which it left RELOAD (R427) -/
  tail : List (Nat × Nat) := []
  /-- TB2 of the latest record of each source (R426) -/
  lastRec : List (Nat × Nat) := []
  /-- occurrences of each source since its latest record (R426) -/
  unsent : List (Nat × Nat) := []
  /-- the FAB or the AON clock monitor holds the safe-state gate closed (R34, R548) -/
  fabGate : Bool := false
  /-- the level of the ALIVE pin, and the TB2 from which it is held (R434) -/
  alivePin : Bool := false
  aliveAt : Nat := 0
  /-- ports whose receive-clock monitor reports (R33) -/
  rxBad : List Nat := []
  /-- the second copy of Privet's protected fields, where it is not equal to the first: the bits that differ, by field (R430) -/
  copy2 : List (Nat × Nat) := []
  /-- protected fields of which a parity bit is wrong (R430) -/
  parity : List Nat := []
  deriving DecidableEq, Repr

/-! ### Time unit -/

/-- A Sync whose Follow_Up is awaited (R352): sequence number, port, ingress stamp in the base, correctionField. -/
structure PendSync where
  seq : Nat
  port : Nat
  /-- the master it came from: domain, sourcePortIdentity (R351) -/
  domain : Nat
  srcId : Nat
  srcPort : Nat
  t2 : Int
  corr : Int
  deriving DecidableEq, Repr

/-- One time base (R343): its value in units of 2^−32 ns, the addend of its next cycles, and its servo (R355 to R360). -/
structure TBase where
  val : Nat := 0
  addend : Nat := 0x66666666
  /-- binary32, in ppb (R357) -/
  integ : Word := 0
  adj : Word := 0
  /-- the latest accepted offset in 1/16 ns, and the instant on TB2 it was taken at -/
  last : Option (Int × Nat) := none
  /-- consecutive accepted offsets within LOCKTH -/
  run : Nat := 0
  /-- the latest values of adj, newest first, 16 at most -/
  hist : List Word := []
  /-- deviations of a run of rejected offsets in 1/16 ns (R359) -/
  devs : List Int := []
  /-- what is left of a path change to be slewed, in 2^−32 ns (R359) -/
  path : Int := 0
  /-- Syncs awaiting their Follow_Up -/
  pend : List PendSync := []
  reacq : Bool := false
  /-- TB2 at which SYNCTO counts from, and at which HOLDOVER was entered, 2^−32 ns -/
  usedAt : Nat := 0
  heldAt : Nat := 0
  deriving DecidableEq, Repr

/-- A port's peer delay (R353). -/
structure PDelay where
  /-- sequence number of the latest Pdelay_Req, whether its exchange is open, its egress stamp on TB2 -/
  seq : Nat := 0
  open_ : Bool := false
  t1 : Option Int := none
  /-- TB2 at the latest request -/
  sentAt : Option Nat := none
  /-- exchanges in a row without a response -/
  missed : Nat := 0
  /-- the latest response: the peer's t3 in ns, this end's t4 in 2^−32 ns -/
  prev : Option (Nat × Int) := none
  /-- neighborRateRatio, as a fraction -/
  num : Nat := 1
  den : Nat := 1
  deriving DecidableEq, Repr

/-- A pulse output (R366 to R368): the pending edge E and the end of the pulse in progress, ns of its base. -/
structure Tpo where
  edge : Option Nat := none
  off : Option Nat := none
  /-- pulses end and the output disarms (R367) -/
  stopping : Bool := false
  /-- at its active level -/
  high : Bool := false
  deriving DecidableEq, Repr

/-- An entry of the capture FIFO (R369). -/
structure TciEnt where
  rise : Bool
  base : Nat
  input : Nat
  seq : Nat
  ts : Nat
  deriving DecidableEq, Repr

/-- What TIM and the always-on coarse clock hold beside their registers. Time is in units of 2^−32 ns. -/
structure Tim where
  /-- TB0 to TB3 -/
  tb : List (Nat × TBase) := []
  /-- the residual: followed base less active time (R362) -/
  resid : Int := 0
  /-- the coarse clock of PD0 (R345) -/
  coarse : Nat := 0
  pd : List (Nat × PDelay) := []
  tpo : List (Nat × Tpo) := []
  tci : List TciEnt := []
  tciSeq : Nat := 0
  /-- the first capture loss since the FIFO was empty has been logged -/
  tciLost : Bool := false
  /-- the time shadows of FAB (R37), TB0 to TB3 and 4 active time: value, increment of a FAB cycle -/
  shadow : List (Nat × (Nat × Nat)) := []
  /-- NET cycles since the latest correction words; how far the FAB cycle has gone, in 1/25 of it -/
  netCnt : Nat := 0
  fabPhase : Nat := 0
  /-- the rate trim of the AON counts, as the addend of TB2 that GLB last measured (R466) -/
  trim : Nat := 0x66666666
  /-- the second of active time that was last written into the coarse clock (R345) -/
  coarseSec : Option Nat := none
  deriving DecidableEq, Repr

/-! ### Host interface -/

/-- One entry of the MSI-X table (R509): message address, data, mask bit, pending bit. -/
structure Msix where
  addr : Nat := 0
  data : Nat := 0
  ctl : Nat := 1
  pend : Bool := false
  deriving DecidableEq, Repr

/-- What HST and MEM hold beside their registers. -/
structure Hst where
  /-- the MSI-X table -/
  msix : List (Nat × Msix) := []
  /-- messages sent so far, by vector (an observation of the model's: what left the part) -/
  sent : List (Nat × Nat) := []
  /-- the configuration space as the host has written it (R502) -/
  cfg : PciCfg := {}
  /-- the latest host write of each device ring's CONS: TB2 then, and CONS at the start of that SCH cycle (R513) -/
  conWas : List (Nat × (Nat × Nat)) := []
  /-- rings inside their interrupt holdoff, each with the TB2 of its latest message (R515) -/
  hold : List (Nat × Nat) := []
  /-- rings whose vector fires when the holdoff ends (R515) -/
  holdPend : List Nat := []
  /-- the delivery number of the next RX descriptor (R514) -/
  delivery : Nat := 0
  /-- DRAM 64-bit words that hold an uncorrectable error (R507, R521) -/
  badWords : List Nat := []
  /-- DRAM 64-bit words that hold a correctable error (R521) -/
  softWords : List Nat := []
  /-- the data bits and the EP bit of the latest read completion; the model's view of what a read returned (R506) -/
  rdata : List Byte := []
  poison : Bool := false
  /-- the latest MSPI response: the result byte and, for a read, the data bytes (R517) -/
  mspi : List Byte := []
  deriving DecidableEq, Repr

/-! ### Disturbance recorder -/

/-- A trigger unit's progress (R384, R385). -/
structure TrgSt where
  /-- consecutive rows the condition has held -/
  cnt : Nat := 0
  /-- the condition has been false since the unit fired -/
  ready : Bool := true
  /-- asserted for the AND group, in rows still to come for edge-type units -/
  left : Nat := 0
  asserted : Bool := false
  /-- level at the previous row (kinds 1 and 9) -/
  prev : Bool := false
  /-- values of the last M rows, newest first (kind 4) -/
  hist : List Word := []
  deriving DecidableEq, Repr

/-- A record in progress (R387, R388, R393). -/
structure CurRec where
  slot : Nat
  /-- byte offset of its first row, rows stored so far, pre-trigger rows among them -/
  first : Nat
  count : Nat
  preRows : Nat
  /-- rows of the record up to and with the last one -/
  last : Nat
  /-- a kept row at or after the trigger, or the latest retrigger that counts, has been stored (TRIGROW, R378) -/
  begun : Bool := false
  flags : Nat := 0
  trgAct : Nat := 0
  trgTb2 : Nat := 0
  firstAct : Nat := 0
  tq : Nat := 0
  units : Nat := 0
  masks : Nat := 0
  fword : Nat := 0
  ncode : Nat := 0
  ctr : Nat := 0
  /-- what its header keeps from the record's start (R388, R393): channel table, signal list, word 0x014, NCH, ROWB, PRE, POST, image -/
  chans : List Byte := []
  codes : List Byte := []
  w14 : Nat := 0
  nch : Nat := 0
  rowb : Nat := 8
  pre : Nat := 0
  post : Nat := 1
  ident : Nat := 0
  deriving DecidableEq, Repr

/-- Where a record lies in the data region, in bytes, in a circle of `cap` bytes; the order of its making (R391). -/
structure RecExt where
  first : Nat := 0
  len : Nat := 0
  cap : Nat := 1
  order : Nat := 0
  deriving DecidableEq, Repr

/-- An acquisition unit beside its registers. -/
structure Au where
  /-- source rows since arm, byte offset in the circle of the next row, row number of the next kept row (R378) -/
  src : Nat := 0
  pos : Nat := 0
  num : Nat := 0
  /-- TB2 at the row edge of the latest row in fast mode (R376) -/
  edgeAt : Option Nat := none
  /-- kept rows of the pre-trigger store, with the active-time instants of the latest of them, newest first (R387) -/
  store : Nat := 0
  times : List Nat := []
  cur : Option CurRec := none
  /-- where each slot's record lies -/
  slots : List (Nat × RecExt) := []
  made : Nat := 0
  /-- rows in the staging buffer that DRAM has not taken, oldest first: DRAM byte address and bytes (R382) -/
  stg : List (Nat × List Byte) := []
  trg : List (Nat × TrgSt) := []
  andWas : Bool := false
  /-- consecutive outside rows by mask slot -/
  mask : List (Nat × Nat) := []
  skew : List (Nat × Nat) := []
  /-- hold-off: TB2 at which it began, triggers ignored in it -/
  holdAt : Nat := 0
  holdN : Nat := 0
  /-- hold-off triggers not logged yet; TB2 of the latest REC_HOLDOFF_TRIG and REC_OVERFLOW -/
  unsent : Nat := 0
  holdLog : Option Nat := none
  ovfLog : Option Nat := none
  deriving DecidableEq, Repr

/-- What REC holds beside its registers. -/
structure Rec where
  /-- numbers Yew returned for REC_RECORD events: (AU, slot) and number (R387, R401) -/
  seqBack : List ((Nat × Nat) × Nat) := []
  au : List (Nat × Au) := []
  /-- events that fire in the next source row: unit, kind, selector -/
  ev : List (Nat × Nat × Nat) := []
  /-- units whose next kept row bears STEP -/
  step : List Nat := []
  deriving DecidableEq, Repr

/-! ### Sampled-value ingest -/

/-- The samples of one accepted ASDU on their way to FAB (R127): subscription, running number of the sample, sample time in
ns, whether the mapped resamplers restart at it, each quantity's value and flag byte. -/
structure SvIn where
  sub : Nat
  idx : Nat
  t : Nat
  restart : Bool := false
  vals : List (Int × Nat)
  deriving DecidableEq, Repr

/-- A subscription (R131 to R136). Samples are numbered on from 4,096, one number per sampling period. -/
structure SvSub where
  /-- number, smpCnt and sample time (ns) of the last accepted sample, with its whole second where it was timed -/
  last : Option (Nat × Nat × Nat × Nat) := none
  /-- numbers from `due` on that have been accepted, newest first (R124) -/
  seen : List Nat := []
  /-- number of the oldest sample neither accepted nor missing: the next one whose deadline is to pass (R132) -/
  due : Nat := 4096
  /-- number of the first sample accepted since WAIT or INVALID, and of the first one since the latest return (R134): an earlier one
  that is missing is only counted -/
  start : Nat := 4096
  back : Nat := 4096
  /-- missing samples, as runs from a number up to one past the last, newest first (R132) -/
  gone : List (Nat × Nat) := []
  /-- the confRev configured when the subscription became INVALID (R136) -/
  rev : Option Nat := none
  /-- consecutive missing samples, consecutive accepted ones while RECOVERING -/
  miss : Nat := 0
  run : Nat := 0
  /-- was the last accepted frame timed (R135)? -/
  timed : Option Bool := none
  /-- the next accepted sample restarts the mapped resamplers (R123, R134, R135) -/
  restart : Bool := false
  /-- drops since, and TB2 at, the latest SV_FORMAT and SV_AUTH_FAIL event (R125) -/
  fmtN : Nat := 0
  fmtAt : Option Nat := none
  authN : Nat := 0
  authAt : Option Nat := none
  deriving DecidableEq, Repr

/-- An entry of the publisher directory (R138 to R140). -/
structure DirEnt where
  /-- GOOSE publisher, else SV -/
  goose : Bool := false
  src : Nat := 0
  dst : Nat := 0
  appid : Nat := 0
  /-- svID or goID, datSet -/
  ident : List Byte := []
  dset : List Byte := []
  confrev : Nat := 0
  sig : Word := 0
  first : Nat := 0
  lastSeen : Nat := 0
  /-- TB2 at the latest frame, ns (R139) -/
  heard : Nat := 0
  frames : Nat := 0
  linked : Bool := false
  /-- the subscription it is linked to, where the link was made since boot -/
  sub : Option Nat := none
  owner : Option Nat := none
  conflict : Bool := false
  changed : Bool := false
  silent : Bool := false
  restored : Bool := false
  auth : Bool := false
  sim : Bool := false
  /-- ports seen: bit 0 PA, 1 PB, 2 SB -/
  ports : Nat := 0
  deriving DecidableEq, Repr

/-- What SVI holds beside its registers. -/
structure Svi where
  /-- the NET→FAB FIFO, oldest first -/
  fifo : List SvIn := []
  sub : List (Nat × SvSub) := []
  /-- the directory, by entry index -/
  dir : List (Nat × DirEnt) := []
  /-- the copy that is being written, with the directory as it is written (R141) -/
  snap : Option (Nat × List (Nat × DirEnt)) := none
  /-- MRAM copies whose completion word is in place, newest first -/
  copies : List Nat := []
  /-- TB2, ns, at which the running period of SVI_DIR_CFG.SNAP began (R141) -/
  snapAt : Nat := 0
  deriving DecidableEq, Repr

/-! ### Analogue front end and decimation chains -/

/-- The working accumulator and tracker of an input (R67). -/
structure Accum where
  sum : Int := 0
  sq : Nat := 0
  cnt : Nat := 0
  u : Bool := false
  o : Bool := false
  n : Bool := false
  mn : Int := 8388607
  mx : Int := -8388608
  /-- the length of a fixed window, settled when its first value enters (R69); none for a cycle window -/
  len : Option Nat := none
  /-- physical instant of the window's first value, in units of 2^−32 ns of active time (R68, R87) -/
  t0 : Nat := 0
  deriving DecidableEq, Repr

/-- A checker converter (R71 to R77). -/
structure Ck where
  /-- 0 idle, 1 settling, 2 dwelling -/
  phase : Nat := 0
  pos : Nat := 0
  /-- TB2 at which the settling or the dwell began, 2^−32 ns (R72) -/
  since : Nat := 0
  void : Bool := false
  sd : Nat := 0
  sr : Nat := 0
  m : Nat := 0
  /-- primary groups, 0 to 2, with a failed dwell in this sweep (R77) -/
  failed : List Nat := []
  deriving DecidableEq, Repr

/-- What the AFE holds beside its registers. Modulators 0 to 47 are the primaries, 48 to 51 the checkers. -/
structure Afe where
  /-- modulators in an overload interval, with TB2 at the detection that began it (R60) -/
  ovl : List (Nat × Nat) := []
  /-- the latest loop resets of a modulator, newest first, two at most: TB2 at the reset's end, sign (R59) -/
  rst : List (Nat × List (Nat × Bool)) := []
  /-- modulators whose interval ended less than 20 µs ago, with TB2 at its detection and at its end (R61) -/
  ntail : List (Nat × (Nat × Nat)) := []
  /-- TB2 at the latest change of an input's EN (R65) -/
  enAt : List (Nat × Nat) := []
  /-- the finished runs of tagged bits of the latest 40 ms, TB2 at begin and end: 4·modulator + letter (0 U, 1 O, 2 N, 3 I) -/
  runs : List (Nat × List (Nat × Nat)) := []
  /-- TB2 at which a group's reference was last handled as failed (R51) -/
  refAt : List (Nat × Nat) := []
  /-- groups whose reference is outside its window, or has not been back inside for 2 ms, with TB2 at the latest exit (R51) -/
  refBad : List (Nat × Nat) := []
  /-- TB2 at which PD10 last reported power-good (R53) -/
  pgAt : Nat := 0
  /-- an accepted change of AFE mode that waits for its edge, and TB2 at the write (R56) -/
  lpmReq : Option (Bool × Nat) := none
  acc : List (Nat × Accum) := []
  ck : List (Nat × Ck) := []
  /-- consecutive failed dwells by input (R75) -/
  fails : List (Nat × Nat) := []
  deriving DecidableEq, Repr

/-- A CIC stage (R89): integrators, the previous inputs of the combs, bits counted modulo 32. -/
structure Cic where
  i1 : Word := 0
  i2 : Word := 0
  i3 : Word := 0
  i4 : Word := 0
  c1 : Word := 0
  c2 : Word := 0
  c3 : Word := 0
  c4 : Word := 0
  cnt : Nat := 0
  deriving DecidableEq, Repr

/-- A cross-fade (R108): the bank it leads to, outputs made, its length F; `busy` from output 1. -/
structure Fade where
  bank : Nat
  j : Nat := 0
  len : Nat := 1
  busy : Bool := false
  /-- TB2 at output 1 (R102) -/
  at1 : Nat := 0
  deriving DecidableEq, Repr

/-- A half-band stage (R90, R91): its delay line, newest first; whether an odd input waits; its fade. -/
structure Hb where
  line : List Int := []
  odd : Bool := false
  fade : Option Fade := none
  deriving DecidableEq, Repr

/-- A decimation chain: CIC, and the stages by number 1 to 5. -/
structure Chain where
  cic : Cic := {}
  hb : List (Nat × Hb) := []
  /-- NHB in effect while an accepted change waits for the next HB1 output (R113) -/
  nhb : Option Nat := none
  /-- TB2 at the latest SRST (R110) -/
  srstAt : Option Nat := none
  deriving DecidableEq, Repr

/-- An input of a resampler: its number, its instant in units of 2^−32 ns of active time, its value as binary32, its
integer (SV only) and its flag byte. -/
structure RsIn where
  idx : Nat
  t : Nat
  v : Word
  i : Int := 0
  fl : Nat := 0
  deriving DecidableEq, Repr

/-- A resampler (R93 to R101). -/
structure Rs where
  /-- inputs since the latest restart, newest first -/
  hist : List RsIn := []
  fade : Option Fade := none
  /-- number of the next input of a local source -/
  idx : Nat := 0
  /-- SV: instant of the newest input that has reached the resampler, running or not (R112) -/
  top : Option Nat := none
  /-- number of the first input accepted since the latest restart (R105) -/
  cut : Nat := 0
  /-- ticks that will not be written for missing inputs (R100) -/
  skip : List Nat := []
  /-- TB2 at the latest SRST (R110) -/
  srstAt : Option Nat := none
  deriving DecidableEq, Repr

/-- What DCH holds beside its registers. -/
structure Dch where
  chain : List (Nat × Chain) := []
  ckChain : List (Nat × Chain) := []
  rs : List (Nat × Rs) := []
  /-- half-band banks: 10·chain + 2·(stage − 1) + bank → k and its k + 1 coefficients (Q2.18) -/
  hbBank : List (Nat × (Nat × List Int)) := []
  /-- resampler banks: 2·channel + bank → low-delay profile?, coefficients by phase -/
  rsBank : List (Nat × (Bool × List Word)) := []
  /-- latest fast-tap value and flags by input (R376) -/
  tap : List (Nat × (Int × Nat)) := []
  /-- the load window: DCH_LD_SEL as latched by OPEN, values staged (R115) -/
  sel : Nat := 0
  stage : List Word := []
  /-- the commit in progress: its RESULT, and the selection and values it writes where they are accepted -/
  res : Nat := 0
  com : Nat × List Word := (0, [])
  deriving DecidableEq, Repr

/-! ### Network -/

/-- What an egress queue's frame is, as far as its sending has an effect (R316, R326, R354). -/
inductive EgKind where
  /-- a forwarded frame -/
  | forwarded
  /-- a forwarded Sync: ingress port, base of its residence time, ingress stamp in that base (R354) -/
  | sync (port base : Nat) (stamp : Int)
  /-- a GOOSE frame of a control block: state number, sequence number, number of the build -/
  | goose (gcb st sq no : Nat)
  /-- the frame of the TX descriptor with an index -/
  | host (k : Nat)
  /-- a Pdelay_Req of a domain; a Pdelay_Resp to a request whose ingress stamp on TB2 is given (R353) -/
  | pdReq (seq domain : Nat)
  | pdResp (req : PdReq) (arrived : Int)
  | beacon
  | twin
  | supervision
  deriving DecidableEq, Repr

/-- A frame in an egress queue: its octets on the wire from destination MAC to FCS, redundancy tag, octets without it and
without FCS, what is added to a correctionField, in 2^−32 ns, and whether it ends with the inverse of the correct FCS (R311). -/
structure EgFrame where
  kind : EgKind
  len : Nat
  tag : RedTag := .none
  bytes : List Byte := []
  corr : Int := 0
  /-- algorithm and key ID of the security extension (R449) -/
  sign : Option (Nat × Nat) := none
  stomp : Bool := false
  deriving DecidableEq, Repr

/-- What a port holds beside its registers (R316 to R321). -/
structure NPort where
  /-- frames waiting by queue, oldest first -/
  queues : List (Nat × List EgFrame) := []
  /-- queue of the frame in transmission, the instant on TB2 at which the wire is free of it, whether it is preemptable -/
  q : Nat := 0
  fin : Nat := 0
  pre : Bool := false
  /-- the instant on TB2 at which the fragment of a preemptable frame that is on the wire began (R321) -/
  frag : Nat := 0
  /-- a frame held at a closed gate: what is left of it, in 2^−32 ns (R320) -/
  held : Option Nat := none
  /-- the latest frame sent -/
  last : Option EgFrame := none
  /-- the active gate list's entries, as the words of NET_Pp_GCLe, and its LEN (R319) -/
  act : List Nat := []
  actLen : Nat := 0
  /-- the running entry; none before the first cycle start -/
  entry : Option Nat := none
  /-- active time, ns: the end of the running entry or the cycle start waited for; the end of the running cycle -/
  till : Nat := 0
  cycEnd : Nat := 0
  /-- base time and change time behind NET_Pp_GBASE (R341) -/
  base : Nat := 0
  change : Nat := 0
  swap : Bool := false
  stop : Bool := false
  /-- verify attempts that timed out, and TB2 at which the running one began (R321) -/
  verify : Nat := 0
  vAt : Nat := 0
  deriving DecidableEq, Repr

/-- An entry of the duplicate-discard table (R313). -/
structure DupEnt where
  src : Nat
  seq : Nat
  born : Nat
  loc : Bool := false
  /-- ports it was forwarded out of -/
  fwd : List Nat := []
  deriving DecidableEq, Repr

/-- A control block's state (R327, R328). -/
structure Pub where
  st : Nat := 0
  sq : Nat := 0
  /-- encoded members of the latest state; none before the first frame -/
  data : Option (List (List Byte)) := none
  /-- interval to the next frame and the TB2 instant it is due at, ns -/
  step : Nat := 0
  due : Nat := 0
  /-- UTC stamp of the latest state change (R329) -/
  t : Nat := 0
  /-- builds so far, and the number of the latest one counted in SENT -/
  no : Nat := 0
  counted : Nat := 0
  deriving DecidableEq, Repr

/-- A GOOSE subscription's state beside its registers (R331, R332). -/
structure GSubSt where
  /-- a new state has been taken: NET_GSUBs_ST and `sq` are held -/
  held : Bool := false
  sq : Nat := 0
  /-- TB2 of the last accepted frame and its timeAllowedToLive in ms -/
  arr : Nat := 0
  tal : Nat := 0
  /-- quality letters of the received members (R333) -/
  letters : Nat := 0
  oosAt : Option Nat := none
  deriving DecidableEq, Repr

/-- A TX descriptor that was taken and is not answered yet (R338, R514). -/
structure TxDesc where
  k : Nat
  /-- copies still queued -/
  wait : Nat
  sent : Bool := false
  stamp : Bool := false
  stamps : List (Nat × Nat) := []
  result : Option Nat := none
  deriving DecidableEq, Repr

/-- Where NET hands received frames (R337). -/
inductive Dest where
  | svi | goose | tim | twn
  deriving DecidableEq, Repr

/-- What NET holds beside its registers. -/
structure Net where
  /-- the class-0 GOOSE FIFO, 64 entries: (bay, offset, value), oldest first (R24, R175) -/
  c0 : List (Nat × Nat × Word) := []
  /-- the core whose staging queue is asked first (R175) -/
  c0Turn : Nat := 0
  /-- GCB1 to GCB127 with a change since their latest build, in order of change (R326) -/
  dirty : List Nat := []
  /-- control blocks whose frame of the safe state is still to come (R432) -/
  safeDue : List Nat := []
  /-- class-0 words that the GOOSE engine has read: 3·bay + 0 TRIPOUT, 1 START, 2 TRIP -/
  c0val : List (Nat × Word) := []
  /-- TB2 at the reading of the first word that no build of GCB0 holds yet (R326) -/
  c0at : Option Nat := none
  /-- UTC stamp of the latest reading that changed a member of GCB0 since its latest build, and the bays so changed (R329) -/
  c0t : Option Nat := none
  c0own : List Nat := []
  ports : List (Nat × NPort) := []
  /-- duplicate-discard table, newest first -/
  dup : List DupEnt := []
  /-- redundancy sequence number of the next frame of local origin (R310, R312) -/
  seq : Nat := 0
  /-- sequence numbers of the next beacon and twin frame (R335) -/
  bcnSeq : Nat := 0
  twnSeq : Nat := 0
  /-- sequence number of the next supervision frame (R314) -/
  supSeq : Nat := 0
  /-- TB2, ns, at the latest supervision frame and the latest beacon (R314, R334) -/
  supAt : Option Nat := none
  /-- frames of Ethertype 0x88B5 received with another format version (R336); no register shows the count -/
  b5Other : Nat := 0
  bcnAt : Option Nat := none
  /-- frames handed to internal ports and not taken yet: receiving port and frame, oldest first -/
  deliv : List (Dest × Nat × Frame) := []
  pub : List (Nat × Pub) := []
  /-- UTC stamps of timestamp members: 64·gcb + bay, or 64·gcb + 32 + task (R329) -/
  ts : List (Nat × Nat) := []
  gsub : List (Nat × GSubSt) := []
  tx : List TxDesc := []
  deriving DecidableEq, Repr
/-! ### Espalier -/

/-- A placed grid instant (R153 to R158): tick index, active time in units of 2^−32 ns, frequency word, N and number of its
cycle; whether the tick has closed; the channels a resampler has written for it, and those known absent since a restart. -/
structure Inst where
  tick : Nat
  t : Nat
  fw : Nat
  n : Nat
  cyc : Nat
  done : Bool := false
  written : List Nat := []
  /-- channels whose resampler started after it could still write the sample (R112) -/
  absent : List Nat := []
  deriving DecidableEq, Repr

/-- What a cycle of an FTG runs at (R151, R152): f_g in µHz, at limit, HOLD or DRIFT, current source. -/
structure Cyc where
  f : Nat
  limit : Bool := false
  hold : Bool := false
  fall : Bool := false
  deriving DecidableEq, Repr

/-- One frequency-tracking group. -/
structure Ftg where
  /-- an instant sequence runs since PD1 power-good -/
  started : Bool := false
  /-- tick index of the next instant to be placed, and its time -/
  next : Nat := 0
  nextT : Nat := 0
  /-- the previous instant, in active time as it stands (R155) -/
  prev : Option Nat := none
  /-- number of the cycle that holds the next instant, counted since PD1 power-good -/
  cycNo : Nat := 0
  /-- placed instants, newest first, at most 512 -/
  insts : List Inst := []
  /-- f_g and the rest by cycle number; a cycle not listed runs at f_nom in HOLD -/
  cyc : List (Nat × Cyc) := []
  /-- the next instant carries STEP -/
  step : Bool := false
  /-- f_nom in effect: code of FNOM -/
  fnom : Nat := 0
  /-- an accepted configuration that waits for the cycle boundary (R148): MODE, FNOM, N code -/
  cfg : Option (Bool × Nat × Nat) := none
  /-- phase of the voltage and the current source in the previous cycle, where it was valid (R149 to R151) -/
  thV : Option Word := none
  thI : Option Word := none
  /-- the previous cycle held an instant with STEP -/
  lastStep : Bool := false
  /-- consecutive cycles without a usable f_meas (R152) -/
  miss : Nat := 0
  /-- ticks closed since PD1 power-good or a change of N (R254) -/
  closedN : Nat := 0
  /-- TB2 at the latest close (R434) -/
  closedAt : Option Nat := none
  deriving DecidableEq, Repr

/-- What Espalier holds beside its registers and planes. -/
structure Esp where
  ftg : List (Nat × Ftg) := []
  deriving DecidableEq, Repr

/-! ### Twin unit -/

/-- What a verdict snapshot of a core tells TWN (R480, R483): instant in ns, bitmaps over its three bays. -/
structure TwSnap where
  core : Nat
  t : Nat
  start : Nat
  trip : Nat
  /-- neither INVALID nor TEST, and no safe state -/
  valid : Nat
  deriving DecidableEq, Repr

/-- A regular twin frame of one side, as the windows need it (R491). -/
structure TwSpan where
  t : Nat
  len : Nat
  start : Nat
  trip : Nat
  valid : Nat
  digest : Word
  deriving DecidableEq, Repr

/-- A window of a trip rise in an own or a partner frame (R490). -/
structure TwWin where
  own : Bool
  bay : Nat
  t : Nat
  len : Nat
  valid : Bool
  deriving DecidableEq, Repr

/-- What TWN holds beside its registers. -/
structure Twn where
  /-- snapshots newest first; the latest instant of each core -/
  snaps : List TwSnap := []
  latest : List (Nat × Nat) := []
  /-- active time, ns, at which the latest frame's span ended; the boundary from which the next one counts -/
  bound : Option Nat := none
  /-- TB2, ns, at which the latest regular frame was sent (R481) -/
  sentAt : Option Nat := none
  /-- regular frames sent and accepted, newest first -/
  own : List TwSpan := []
  part : List TwSpan := []
  wins : List TwWin := []
  /-- TB2, ns: enable, SYS or RELEARN; latest accepted frame -/
  since : Nat := 0
  heard : Option Nat := none
  /-- sequence number of the latest accepted frame -/
  seq : Option Nat := none
  /-- TB2, ns, of the latest accepted frame since SYS or power-good of PD8 (R488, R501) -/
  lastAt : Option Nat := none
  /-- a frame has been accepted since a different partner was last reported (R486) -/
  accepted : Bool := false
  pident : Nat := 0
  /-- consecutive digest mismatches; the latest run has been logged (R493) -/
  diff : Nat := 0
  diffLogged : Bool := false
  /-- TB2 at which the present 3,600 s of MONITOR for differing identities began (R496) -/
  mixed : Option Nat := none
  /-- TB2 of the latest beacon that clashed, by node ID (R12) -/
  clash : List (Nat × Nat) := []
  roleAt : Option Nat := none
  segAt : Option Nat := none
  /-- records started with TXTWIN, AUs that started one since the previous frame, the latest regular frame sent -/
  records : Nat := 0
  aus : Nat := 0
  last : Option TwinFrame := none
  /-- that frame's FTG and time-quality code, in their places of offset 0x44, which an extra frame repeats (R482) -/
  w44 : Nat := 0
  /-- active time, ns, at which the safe state in force began (R483) -/
  safeAt : Nat := 0
  deriving DecidableEq, Repr
/-! ### Element cores -/

/-- An entry of a loop stack (R201, R218). -/
structure LoopEnt where
  start : Nat
  last : Nat
  left : Nat
  deriving DecidableEq, Repr

/-- The registers of a Porlon program (R201): what is not listed is zero, false or (0.0, 0.0) (R202). -/
structure RegFile where
  s : List (Nat × Word) := []
  p : List (Nat × Bool) := []
  c : List (Nat × (Word × Word)) := []
  /-- loop stack, innermost first -/
  ls : List LoopEnt := []
  /-- return stack, newest first -/
  rs : List Nat := []
  pc : Nat := 0
  deriving DecidableEq, Repr

/-- A control transfer of a bundle or syllable (R217, R218). -/
inductive Flow where
  | jump (t : Nat)
  | call (t : Nat)
  | ret
  | loop (e : LoopEnt)
  | skip (t : Nat)
  deriving DecidableEq, Repr

/-- An effect of a syllable, taken together with the others of its bundle (R209). -/
inductive Eff where
  | setS (r : Nat) (v : Word)
  | setP (r : Nat) (b : Bool)
  | setC (r : Nat) (v : Word × Word)
  /-- a word stored at an address of the model's memory -/
  | store (a : Nat) (v : Word)
  /-- a verdict word written at an offset -/
  | verdict (off : Nat) (v : Word)
  /-- a time-dose accumulator written -/
  | dose (i : Nat) (acc : Nat)
  | flow (f : Flow)
  | tickEnd
  /-- CYCLE into s[r]: the issue cycle of the bundle, known when it is whole (R227) -/
  | cycle (r : Nat)
  deriving DecidableEq, Repr

/-- The slots of a PE bundle (R208). -/
inductive Slot where
  | a | f | l | x
  deriving DecidableEq, Repr

/-- What a syllable asks of the pipeline (R233, R234, R547): the registers it waits for and those it writes, by the keys of
`regKey`, its unit where that is not pipelined, latency, occupancy, and the cycles from its bundle's issue to the next; and the slot of
its bundle that it fills, none for nop, which any slot takes (R208). -/
structure SylTime where
  slot : Option Slot := none
  src : List Nat := []
  dst : List Nat := []
  unit : Option Nat := none
  lat : Nat := 1
  occ : Nat := 1
  next : Nat := 1
  deriving DecidableEq, Repr

/-- The pipeline of a section, in FAB cycles from the issue of its first bundle (R234, R235): the first cycle the next bundle may
issue in, those in which registers are ready and units free, and the cycles used up to the latest bundle. -/
structure Pipe where
  next : Nat := 0
  ready : List (Nat × Nat) := []
  units : List (Nat × Nat) := []
  used : Nat := 0
  deriving DecidableEq, Repr

/-- A section that runs or is suspended (R178, R203): its tick, class and local bay, its registers, the bundle in issue
(effects so far, newest last, the first exception, what its syllables ask of the pipeline) and the pipeline. -/
structure Section where
  tick : Nat
  cls : Nat
  bay : Nat
  rf : RegFile := {}
  buf : List Eff := []
  exc : Option Nat := none
  syls : List SylTime := []
  pipe : Pipe := {}
  deriving DecidableEq, Repr

/-- A tick context (R177): the instant record, group and mode of each local bay, the sections that have not ended. -/
structure Ctx where
  tick : Nat
  stamp : Nat := 0
  fword : Nat := 0
  /-- N of the tick's instant -/
  n : Nat := 0
  sg : List (Nat × Nat) := []
  mode : List (Nat × Nat) := []
  /-- notifications received since it opened -/
  lag : Nat := 0
  /-- (class, local bay), in the order of R178 -/
  rest : List (Nat × Nat) := []
  /-- the verdict snapshot of this tick has been taken (R176) -/
  snapped : Bool := false
  /-- the entry table of the old program, in a context opened before an exchange's swap (R300) -/
  tbl : Option (List (Nat × Nat)) := none
  deriving DecidableEq, Repr

/-- What an element core holds beside its registers and memories. -/
structure Core where
  /-- open tick contexts, oldest first -/
  ctxs : List Ctx := []
  run : Option Section := none
  /-- the shadow context (R179, R203) -/
  shadow : Option Section := none
  /-- notifications held back while class 0 of an older context runs (R182), oldest first -/
  held : List Ctx := []
  /-- the budget-breach block of the core's outputs (R185) -/
  breach : Bool := false
  /-- tick whose class-0 words are no longer staged after a breach (R185) -/
  noStage : Option Nat := none
  /-- verdict records, word (64·j + offset/4) (R174) -/
  ver : List (Nat × Word) := []
  /-- local bays whose element state is being rewritten after OFF (R189) -/
  reinit : List Nat := []
  /-- local bays whose sections wait for the next cycle boundary (R189, R194) -/
  await : List Nat := []
  /-- a reload has succeeded and ACT waits for the cycle boundary (R194) -/
  reloaded : Bool := false
  /-- requests that have reached FAB and wait for a notification: modes (R188) -/
  modeReq : List Nat := []
  /-- open ticks with an ELC_EXCEPTION event, and the exceptions counted since the latest event (R237) -/
  excTicks : List Nat := []
  excMore : Nat := 0
  /-- the class-0 staging queue: (bay, offset, value), oldest first (R175) -/
  stage : List (Nat × Nat × Word) := []
  /-- FAB cycles of the class-0 budget counter, and the local bay after the latest class-0 section started (R185) -/
  c0Cnt : Nat := 0
  c0Bay : Nat := 0
  /-- TB2 when the counter started, ns (R185) -/
  c0From : Nat := 0
  /-- the latest exception of a class-0 section: its tick and the instant on TB2 (R237) -/
  c0Exc : Option (Nat × Nat) := none
  /-- local bays whose element-state layout an exchange has changed, until the first notification after the swap (R300) -/
  relayout : List Nat := []
  /-- class 0 of a tick has ended since the latest watchdog refresh (R457); TB2 when it last did (R434) -/
  c0Done : Bool := false
  c0At : Option Nat := none
  deriving DecidableEq, Repr

/-- The phasor unit of a core (R240 to R245): what has not been computed since the restart is not listed. -/
structure Phasor where
  /-- samples entered since the restart: channel → newest-first list of tick and (value, flags), at most N + 1 -/
  hist : List (Nat × List (Nat × (Word × Nat))) := []
  /-- samples entered since the restart, by channel -/
  count : List (Nat × Nat) := []
  /-- recursions X and fresh sums F: 16·channel + h -/
  x : List (Nat × (Word × Word)) := []
  f : List (Nat × (Word × Word)) := []
  /-- complete cycles since the restart, by channel (R242) -/
  cyc : List (Nat × Nat) := []
  /-- result store: (tick mod 8)·512 + 16·channel + h → phasor; the tick it belongs to under 512·(tick mod 8) + 16·channel -/
  store : List (Nat × (Word × Word)) := []
  storeTick : List (Nat × Nat) := []
  /-- window flags with the result: DFT and cosine filter -/
  win : List (Nat × (Nat × Nat)) := []
  deriving DecidableEq, Repr

/-! ### Thorn -/

/-- An accepted change of a binary input (R265). -/
structure Bev where
  level : Bool
  chatrel : Bool
  bin : Nat
  seq : Nat
  ts : Nat
  deriving DecidableEq, Repr

/-- One binary input (R263, R264). -/
structure Bin where
  /-- the pin after inversion -/
  sync : Bool := false
  deb : Bool := false
  /-- the first edge away from the debounced level since the last accepted change, active time in µs -/
  first : Option Nat := none
  /-- TB2 at the latest synchronised edge -/
  edgeAt : Nat := 0
  /-- accepted changes in the running 1 s interval, the interval's number, edges in it -/
  changes : Nat := 0
  interval : Nat := 0
  frozen : Bool := false
  deriving DecidableEq, Repr

/-- What Thorn holds beside its registers. -/
structure Thn where
  /-- committed scheme outputs to TRIP0–TRIP47 -/
  sch : Nat := 0
  /-- the gated drive of each TRIP output, `drv` of R258 -/
  drv : Nat := 0
  /-- outputs whose minimum pulse is running, with TB2, ns, at which it ends: when the stretch counter of R258 comes to 0 -/
  stretch : List (Nat × Nat) := []
  /-- committed scheme values of the GPO points (R267) -/
  gpoSch : Nat := 0
  /-- active time of the latest exceeding evaluation, by bay, in ns of TB2 (R255) -/
  lastExc : List (Nat × Nat) := []
  bin : List (Nat × Bin) := []
  fifo : List Bev := []
  seq : Nat := 0
  /-- an event has been lost since the FIFO was last emptied (R265) -/
  lostSince : Bool := false
  deriving DecidableEq, Repr

/-! ### Scheme cores -/

/-- A hardware timer (R230). After a warm restart `carry` holds the stored elapsed time until the first evaluation (R290). -/
structure Timer where
  pre : Nat := 0
  start : Nat := 0
  run : Bool := false
  q : Bool := false
  prev : Bool := false
  carry : Option Nat := none
  /-- the kind that the image gives it: 0 on-delay, 1 off-delay, 2 pulse (R545) -/
  kind : Nat := 0
  deriving DecidableEq, Repr

/-- An SL task's activity from its dispatch to its end (R229, R283). -/
structure TaskRun where
  task : Nat
  rf : RegFile := {}
  /-- TB2 at the latch, whole µs -/
  now : Nat := 0
  /-- the latched input image, by word -/
  inp : List (Nat × Word) := []
  /-- the staging copy, words that differ from the committed image or were written -/
  stg : List (Nat × Word) := []
  /-- tasks asked for by tk.act (R279) -/
  acts : List Nat := []
  /-- 32-byte lines of the retained region written, by address (R288) -/
  lines : List Nat := []
  /-- timers and edge detectors evaluated -/
  tms : List Nat := []
  eds : List Nat := []
  /-- SRAM words as they stood before the task run wrote them: what a failed run restores (R238) -/
  undo : List (Nat × Word) := []
  deriving DecidableEq, Repr

/-- A journal record (R288): sequence number, task, now, the retained lines and timer and detector states it holds. A
timer's start field holds its elapsed time. -/
structure JRec where
  /-- its position in the ring -/
  pos : Nat := 0
  seq : Nat
  task : Nat
  now : Nat
  lines : List (Nat × List Byte)
  tms : List (Nat × Timer)
  eds : List (Nat × Bool)
  deriving DecidableEq, Repr

/-- A checkpoint (R287): identity, number of the last record it includes, retained regions by address, timers (start holds
the elapsed time), edge detectors. -/
structure Ckpt where
  ident : Nat
  seq : Nat
  regions : List (Nat × List Byte)
  tms : List (Nat × Timer)
  eds : List (Nat × Bool)
  deriving DecidableEq, Repr

/-- What SCH holds beside its registers and the SC SRAM. -/
structure Sch where
  /-- the running instance of R280 -/
  cur : Option TaskRun := none
  /-- preempted ones, highest priority first -/
  pre : List TaskRun := []
  /-- tasks released and not yet started -/
  rel : List Nat := []
  /-- event tasks whose trigger has occurred and has not activated them yet (R279) -/
  trig : List Nat := []
  /-- releases held at a switch boundary (R296) -/
  heldRel : List Nat := []
  /-- a switch boundary has been reached and instances are completing (R296) -/
  quiesce : Bool := false
  /-- the live input store: point → value and quality (R282) -/
  live : List (Nat × (Word × Nat)) := []
  /-- output images as last committed: 4096·task + word -/
  out : List (Nat × Word) := []
  tm : List (Nat × Timer) := []
  ed : List (Nat × Bool) := []
  /-- records written and not yet durable, oldest first; records that wait for a checkpoint (R289) -/
  jrn : List JRec := []
  jwait : List JRec := []
  /-- number of the next journal record (R288) -/
  jseq : Nat := 1
  /-- bytes journalled since the last completed checkpoint, and when the one in progress was taken (R289) -/
  jfill : Nat := 0
  jfillCk : Nat := 0
  /-- position in the ring of the next record, and of the one after the checkpoint in progress (R288) -/
  jpos : Nat := 0
  ckPos : Nat := 0
  /-- the checkpoint in progress, as it stood when it was taken (R289) -/
  ckpt : Option Ckpt := none
  /-- cores whose snapshot had not arrived at TK0's release (R278) -/
  tk0Miss : List Nat := []
  /-- the image that an exchange has checked (R294), and the boundary count of its deferrals -/
  cand : Option Image := none
  /-- a cold restart's checkpoint must complete before any task is released (R291) -/
  coldWait : Bool := false
  /-- scheme outputs stay forced to 0 until the first commit after a restart (R273, R274) -/
  forced : Bool := false
  /-- retained words a failed run of a task leaves to be restored before its next run (R238) -/
  restore : List (Nat × List (Nat × Word)) := []
  /-- TB2 of the latest SCH_OVERRUN event by task (R280) -/
  ovrAt : List (Nat × Nat) := []
  /-- TB2 at the scheme's start, and at the start of the running frame, ns; none before the first frame (R277) -/
  startAt : Nat := 0
  frame : Option Nat := none
  /-- the slot of an exchange, as its request found it (R293) -/
  exSlot : Nat := 0
  /-- it was requested while that slot was being staged, so that its header was zeroed (R445) -/
  exStg : Bool := false
  /-- TB2, ns, at READY of an exchange or at its latest deferral (R296) -/
  readyAt : Nat := 0
  /-- TB2, ns, of the release instant that a periodic task took last (R277) -/
  relAt : List (Nat × Nat) := []
  /-- the tick that TK0 was released for last (R278) -/
  tk0Tick : Option Nat := none
  /-- scheme values of GOOSE members and recorder signals as last applied: 1024·gcb + member; signal -/
  goose : List (Nat × Word) := []
  recSig : List (Nat × Bool) := []
  /-- releases have stopped on the way to STANDBY (R469) -/
  stopping : Bool := false
  /-- the running slot's kind of start in progress (R292): code of LASTRST -/
  startKind : Nat := 0
  deriving DecidableEq, Repr

/-! ### Resets, boot and power -/

/-- What GLB and the power sequencer hold beside their registers. -/
structure Glb where
  /-- the reset that is held: 0 none, 1 POR, 2 SYS, 3 WDR (R455) -/
  hold : Nat := 1
  /-- TB2 at which SYS or WDR was last asserted (R455) -/
  holdAt : Nat := 0
  /-- the boot step in progress (R459): 0 none, 3 verifying, 6 loading -/
  step : Nat := 0
  /-- slot being tried, and whether it is the second one (R459, R460) -/
  trying : Nat := 0
  second : Bool := false
  /-- kind of start the scheme will make: the code of SCH_STAT.LASTRST (R292) -/
  start : Nat := 0
  /-- HIBERNATE has been reached: only PD0 is powered (R471) -/
  hib : Bool := false
  /-- power state from which the transition in progress began, and where it leads: 1 STANDBY, 2 HIBERNATE, 3 RUN (R469 to R471) -/
  trans : Nat := 0
  /-- TB2, ns, at the request of that transition (R469) -/
  transAt : Nat := 0
  /-- TB2 at the latest watchdog refresh; none while the watchdog is paused (R457) -/
  wdt : Option Nat := none
  deriving DecidableEq, Repr

/-! ### Security -/

/-- A key: its ID and its bytes. -/
structure AuthKey where
  kid : Nat
  bytes : List Byte
  deriving DecidableEq, Repr

/-- A frame-authentication key slot (R446). -/
structure KeySlot where
  alg : Nat := 0
  cur : Option AuthKey := none
  nxt : Option AuthKey := none
  /-- the rollover instant T, active time in ns -/
  roll : Nat := 0
  ret : Option AuthKey := none
  /-- expiry of the retiring key, active time in ns -/
  expiry : Nat := 0
  /-- the retiring key has expired -/
  gone : Bool := false
  /-- a key has been present since a frame was last sent without one (R449) -/
  had : Bool := false
  deriving DecidableEq, Repr

/-- What SEC holds beside its registers. The key slots, the owner key and the lifecycle lie in the secure store and
survive everything. -/
structure Sec where
  slots : List (Nat × KeySlot) := []
  /-- the device key pair of P-256 in the secure store (R438): the private key, and the public point (assumption 59) -/
  priv : Nat := 1
  pubX : Nat := 0x6b17d1f2e12c4247f8bce6e563a440f277037d812deb33a0f4a13945d898c296
  pubY : Nat := 0x4fe342e2fe1a7f9b8ee7eb4a7c0f9e162bce33576b315ececbb6406837bf51f5
  /-- the owner key, x then y -/
  owner : List Byte := []
  /-- the operation in progress (R453): 0 none, else its SEC_CMD.OP -/
  op : Nat := 0
  /-- a RESULT that the start of the operation has settled (R445, R450): 0 none -/
  early : Nat := 0
  /-- the staging in progress: slot, DRAM byte address, length (R445) -/
  stg : Nat × Nat × Nat := (0, 0, 0)
  /-- sensors that are active (R450) -/
  active : List Nat := []
  deriving DecidableEq, Repr

/-! ### The machine -/

/-- Everything the spec gives the machine, and the queue of waiting commands. -/
structure State where
  /-- register fields that differ from their reset values, by `Fld.key` -/
  regs : List (Nat × Nat) := []
  /-- high words captured by a read of their low register, by offset (R17) -/
  wide : List (Nat × Nat) := []
  /-- MRAM, DRAM, core memories, Espalier planes: bytes that are not 0 -/
  mem : List Host.Cell := []
  yew : Yew := {}
  prv : Prv := {}
  tim : Tim := {}
  hst : Hst := {}
  dr : Rec := {}
  /-- the running image -/
  img : Image := {}
  /-- element cores EC0 to EC7 -/
  ec : List (Nat × Core) := []
  ph : List (Nat × Phasor) := []
  /-- tick of each core's latest verdict snapshot (R176) -/
  snapTick : List (Nat × Nat) := []
  thn : Thn := {}
  sch : Sch := {}
  glb : Glb := {}
  sec : Sec := {}
  net : Net := {}
  twn : Twn := {}
  esp : Esp := {}
  svi : Svi := {}
  afe : Afe := {}
  dch : Dch := {}
  /-- words of ECC-protected memory that hold an uncorrectable, a correctable error, by address (R44, R172) -/
  eccBad : List Nat := []
  eccSoft : List Nat := []
  /-- words of the Espalier planes whose parity is wrong, by address (R161) -/
  parBad : List Nat := []
  /-- the model's own counter of free values drawn (assumption 1) -/
  freeCnt : Nat := 0
  /-- commands that are waiting, first in first out -/
  pending : List Instr := []
  deriving DecidableEq, Repr

/-- The machine right after power-on reset: every register at its stated value, memory with nothing listed (assumption 2). -/
def State.reset : State := {}

end Sys2Proof.Machine
end

