-- ==== Sys2Proof/Machine/Ops.lean ====
section
/-! DEFINITION. The named operations every family uses: register fields, memory, bytes and CRC-32, the clocks and their
stamps, events on their way to Yew, fault lines on their way to Privet, interrupt vectors. -/

namespace Sys2Proof.Machine

/-! ### Register fields -/

/-- The value of a field: what was written, or its reset value. -/
def State.rd (s : State) (f : Fld) : Nat := mget s.regs f.key f.rst

/-- Sets a field, keeping its low `w` bits; a field at its reset value is not listed. -/
def State.wr (s : State) (f : Fld) (v : Nat) : State :=
  { s with regs := if v % 2 ^ f.w = f.rst then mdel s.regs f.key else mput s.regs f.key (v % 2 ^ f.w) }

/-- Is a one-bit field set? -/
def State.on (s : State) (f : Fld) : Bool := s.rd f != 0

/-- Sets a one-bit field to a truth value. -/
def State.wrb (s : State) (f : Fld) (b : Bool) : State := s.wr f (if b then 1 else 0)

/-- A saturating counter takes `n` more. -/
def State.satAdd (s : State) (f : Fld) (n : Nat) : State := s.wr f (min (s.rd f + n) (2 ^ f.w - 1))

/-- A saturating counter takes one more. -/
def State.sat1 (s : State) (f : Fld) : State := s.satAdd f 1

/-- A wrapping counter takes one more. -/
def State.inc (s : State) (f : Fld) : State := s.wr f (s.rd f + 1)

/-- Sets bit `k` of a bitmap field. -/
def State.setBit (s : State) (f : Fld) (k : Nat) : State := s.wr f (s.rd f ||| 2 ^ k)

/-- Clears bit `k` of a bitmap field. -/
def State.clrBit (s : State) (f : Fld) (k : Nat) : State :=
  s.wr f (if (s.rd f).testBit k then s.rd f - 2 ^ k else s.rd f)

/-- Sets or clears bit `k` of a bitmap field. -/
def State.putBit (s : State) (f : Fld) (k : Nat) (b : Bool) : State := if b then s.setBit f k else s.clrBit f k

/-- A quantity held in two registers, low word first (R17). -/
def State.rd64 (s : State) (lo hi : Fld) : Nat := s.rd lo + s.rd hi * 2 ^ 32

def State.wr64 (s : State) (lo hi : Fld) (v : Nat) : State := (s.wr lo (v % 2 ^ 32)).wr hi (v / 2 ^ 32)

/-- Does a key belong to reset domain `d`? -/
def keyDom (d : Dom) (k : Nat) : Bool := k / 0x10000000000 == d.num

/-- Every field of domain `d` returns to its stated value (R21). -/
def State.resetDom (s : State) (d : Dom) : State := { s with regs := s.regs.filter fun e => !keyDom d e.1 }

/-- The fields of domain `d` whose registers lie in [lo, hi) return to their stated values (R21, a block reset). -/
def State.resetDomIn (s : State) (d : Dom) (lo hi : Nat) : State :=
  { s with regs := s.regs.filter fun e =>
      !(keyDom d e.1 && decide (lo ≤ e.1 % 0x10000000000 / 32) && decide (e.1 % 0x10000000000 / 32 < hi)) }

/-! ### Signed values held in unsigned fields -/

/-- The two's complement reading of the low `w` bits. -/
def sgn (w n : Nat) : Int := if n % 2 ^ w < 2 ^ (w - 1) then (n % 2 ^ w : Int) else (n % 2 ^ w : Int) - 2 ^ w

/-- The low `w` bits of an integer, as a natural number. -/
def usg (w : Nat) (i : Int) : Nat := (i % 2 ^ w).toNat

/-- The nearer end of a range for a value outside it. -/
def clamp (lo hi n : Nat) : Nat := max lo (min hi n)

def clampI (lo hi n : Int) : Int := max lo (min hi n)

/-- Division rounded to the nearest integer, an exact half away from zero (R543); `d` is positive. -/
def rdiv (n : Int) (d : Nat) : Int :=
  if 0 ≤ n then (n + (d / 2 : Nat)) / d else -((-n + (d / 2 : Nat)) / d)

/-! ### Bytes -/

/-- The `n` low bytes of a number, least significant first (R16). -/
def leBytes (n : Nat) (v : Nat) : List Byte :=
  match n with
  | 0 => []
  | n + 1 => BitVec.ofNat 8 v :: leBytes n (v / 256)

/-- The number that bytes spell, least significant first. -/
def leNat (l : List Byte) : Nat :=
  match l with
  | [] => 0
  | b :: t => b.toNat + 256 * leNat t

/-- Bytes cut or filled with zeros to length `n`. -/
def padTo (n : Nat) (l : List Byte) : List Byte :=
  match n with
  | 0 => []
  | n + 1 => (match l with | [] => 0 | b :: _ => b) :: padTo n l.tail

/-- One bit step of the reflected CRC-32 of R542. -/
def crcBit (c : BitVec 32) : BitVec 32 := if c.getLsbD 0 then (c >>> 1) ^^^ 0xEDB88320#32 else c >>> 1

/-- One byte of the CRC-32 of R542 (the polynomial 0x04C1_1DB7 reflected). -/
def crcByte (c : BitVec 32) (b : Byte) : BitVec 32 :=
  crcBit (crcBit (crcBit (crcBit (crcBit (crcBit (crcBit (crcBit (c ^^^ b.zeroExtend 32))))))))

/-- CRC-32 over bytes in ascending order (R542). -/
def crc32 (l : List Byte) : BitVec 32 := (l.foldl crcByte 0xFFFFFFFF#32) ^^^ 0xFFFFFFFF#32

/-! ### Memory -/

/-- The byte at `a`; a byte that nothing has written reads 0 (assumption 2). -/
def memRd (m : List Host.Cell) (a : Nat) : Byte := mget m a 0

/-- `m` with byte `b` at `a`; a zero byte is not listed. -/
def memWr (m : List Host.Cell) (a : Nat) (b : Byte) : List Host.Cell := if b = 0 then mdel m a else mput m a b

/-- `m` with `l` stored from `a` upwards. -/
def memWrs (m : List Host.Cell) (a : Nat) (l : List Byte) : List Host.Cell :=
  match l with
  | [] => m
  | b :: t => memWrs (memWr m a b) (a + 1) t

/-- The `n` bytes from `a` upwards. -/
def memRds (m : List Host.Cell) (a n : Nat) : List Byte :=
  match n with
  | 0 => []
  | n + 1 => memRd m a :: memRds m (a + 1) n

/-- `m` with nothing listed in [lo, hi): every byte there reads 0. -/
def memClear (m : List Host.Cell) (lo hi : Nat) : List Host.Cell :=
  m.filter fun e => !(decide (lo ≤ e.1) && decide (e.1 < hi))

/-- The canonical form: addresses strictly rising, no entry equal to what an unlisted address reads as. -/
abbrev Memory.wf (m : List Host.Cell) : Prop := msorted m = true ∧ ∀ e ∈ m, e.2 ≠ 0

def State.rdMem (s : State) (a n : Nat) : List Byte := memRds s.mem a n

def State.wrMem (s : State) (a : Nat) (l : List Byte) : State := { s with mem := memWrs s.mem a l }

/-- Words of an ECC memory written anew: what was wrong with the old ones is gone. -/
def State.putBytes (s : State) (a : Nat) (l : List Byte) : State :=
  let outside (x : Nat) : Bool := !(decide (a ≤ x) && decide (x < a + l.length))
  { s with mem := memWrs s.mem a l, eccBad := s.eccBad.filter outside, eccSoft := s.eccSoft.filter outside }

/-- A 32-bit little-endian word of memory. -/
def State.rdW (s : State) (a : Nat) : Word := BitVec.ofNat 32 (leNat (s.rdMem a 4))

def State.wrW (s : State) (a : Nat) (v : Word) : State := s.wrMem a (leBytes 4 v.toNat)

/-! The memories of "Memories" and R44 lie at distinct bases of the one address space the model keeps bytes in. -/

/-- The embedded MRAM (R44). -/
def mramBase : Nat := 0
/-- The external DRAM (R506). -/
def dramBase : Nat := 0x100000000
/-- The memories of element core `n`: instruction memory, data memory, element-state memory (R172). -/
def ecInstrBase (n : Nat) : Nat := 0x200000000 + n * 0x100000
def ecDataBase (n : Nat) : Nat := 0x200000000 + n * 0x100000 + 0x40000
def ecElemBase (n : Nat) : Nat := 0x200000000 + n * 0x100000 + 0x80000
/-- The SRAM of the scheme cores. -/
def scBase : Nat := 0x300000000
/-- The value plane of Espalier (R158). -/
def espValBase : Nat := 0x400000000
/-- The flag plane of Espalier (R158). -/
def espFlagBase : Nat := 0x410000000
/-- The instant records of Espalier. -/
def espInstBase : Nat := 0x420000000
/-- The configuration memories that section kind 4 fills (R545): 0 SVI subscription strings, 1 GOOSE templates of control blocks, 2 of
subscriptions; their sizes the spec does not give (assumption 168). -/
def cfgBase (t : Nat) : Nat := 0x8000000000 + t * 0x100000000

/-! ### Free values (assumption 1) -/

/-- A free value of `w` bits, and the counter moved on. -/
def State.fresh (s : State) (w : Nat) : BitVec w × State := (Config.free w s.freeCnt, { s with freeCnt := s.freeCnt + 1 })

/-! ### Clocks -/

/-- 2^32: one ns in the units the clocks are held in (R343). -/
def nsU : Nat := 0x100000000

def State.tbOf (s : State) (b : Nat) : TBase := mget s.tim.tb b {}

def State.setTb (s : State) (b : Nat) (t : TBase) : State := { s with tim := { s.tim with tb := mput s.tim.tb b t } }

/-- The nanoseconds of base `b` (R343). -/
def State.tbNs (s : State) (b : Nat) : Nat := (s.tbOf b).val / nsU

/-- The base active time follows (R362). -/
def State.followed (s : State) : Nat := s.rd R.TIM_ACT_STAT_FOLLOW

/-- Active time in nanoseconds: the followed base less the residual (R362). -/
def State.activeNs (s : State) : Nat := ((((s.tbOf s.followed).val : Int) - s.tim.resid) / (nsU : Int)).toNat

/-- TB2 in nanoseconds. -/
def State.tb2Ns (s : State) : Nat := s.tbNs 2

/-- The coarse clock in nanoseconds (R345). -/
def State.coarseNs (s : State) : Nat := s.tim.coarse / nsU

/-- Is power domain `d` powered and good (GLB_PWRSTAT)? -/
def State.pg (s : State) (d : Nat) : Bool := (s.rd R.GLB_PWRSTAT_PG).testBit d

/-- What FAB reads of base `b`, 4 being active time, in units of 2^−32 ns: its time shadow (R37); before the first correction the base. -/
def State.fabTime (s : State) (b : Nat) : Nat :=
  match s.tim.shadow.find? fun e => e.1 == b with
  | some e => e.2.1
  | none => if b < 4 then (s.tbOf b).val else (((s.tbOf s.followed).val : Int) - s.tim.resid).toNat

/-- The stamps of an event raised now (R400): from the time shadows, or from the coarse clock while PD8 is off. -/
def State.stampNow (s : State) : Stamp :=
  if s.pg 8 then { actb := s.followed, tq := s.rd R.TIM_ACT_STAT_TQ, coarse := false, act := s.activeNs, tb2 := s.tb2Ns }
  else { actb := s.followed, tq := 3, coarse := true, act := s.coarseNs, tb2 := s.coarseNs }

/-- The stamps of an event of a SOURCE: AFE, DCH, ESP, ELC and THN read the time shadows of FAB (R37, R400). -/
def State.stampIn (s : State) (src : Nat) : Stamp :=
  if s.pg 8 ∧ 6 ≤ src ∧ src ≤ 10 then { s.stampNow with act := s.fabTime 4 / nsU, tb2 := s.fabTime 2 / nsU } else s.stampNow

/-! ### Events and faults on their way to PD0 -/

/-- Classes of R397. -/
def clsInfo : Nat := 0
def clsF : Nat := 3
def clsTrip : Nat := 4

/-- An event enters the crossing to Yew, stamped now (R400, R401). -/
def State.logEv (s : State) (src code : Nat) (payload : List Byte) (cls : Nat := 0) (tell : SeqTo := .nobody) : State :=
  { s with yew := { s.yew with cross := s.yew.cross ++ [{ cls := cls, src := src, code := code, stamp := some (s.stampIn src),
                                                          payload := padTo 24 payload, tell := tell }] } }

/-- An event of a block in AON, which Yew stamps at admission (R400). -/
def State.logAon (s : State) (src code : Nat) (payload : List Byte) (cls : Nat := 0) (tell : SeqTo := .nobody) : State :=
  { s with yew := { s.yew with cross := s.yew.cross ++ [{ cls := cls, src := src, code := code, stamp := none,
                                                          payload := padTo 24 payload, tell := tell }] } }

/-- An event whose home rule gives no payload carries an index in payload bytes 0–3 (R398). -/
def State.logIx (s : State) (src code ix : Nat) : State := s.logEv src code (leBytes 4 ix)

/-- An occurrence of an event source starts towards Privet (R416). -/
def State.raiseLine (s : State) (src : Nat) (detail : Nat) : State :=
  { s with prv := { s.prv with lines := s.prv.lines ++ [(src, BitVec.ofNat 32 detail)] } }

/-- Is an item of a level source live (R548)? -/
def State.itemLive (s : State) (src item : Nat) : Bool := s.prv.items.contains (src, item)

/-- An item of a level source becomes live: one occurrence, with the item as detail (R548); `detail` where it differs. -/
def State.itemOn (s : State) (src item : Nat) (detail : Nat) : State :=
  if s.itemLive src item then s
  else ({ s with prv := { s.prv with items := (src, item) :: s.prv.items } }).raiseLine src detail

/-- An item becomes live without an occurrence (R548, the THN_RB exception). -/
def State.itemOnQuiet (s : State) (src item : Nat) : State :=
  if s.itemLive src item then s else { s with prv := { s.prv with items := (src, item) :: s.prv.items } }

/-- The condition of an item ends (R548). -/
def State.itemOff (s : State) (src item : Nat) : State :=
  { s with prv := { s.prv with items := s.prv.items.filter (· ≠ (src, item)) } }

/-! ### Interrupt vectors (R509, R510) -/

/-- May the endpoint send messages at all: MSI-X enabled, Bus Master Enable set, not in D3hot (R502, R510; assumption 159)? -/
def State.msgOn (s : State) : Bool := s.hst.cfg.msixEn && s.hst.cfg.busMaster && !s.hst.cfg.d3hot

/-- Is vector `v` masked, by itself or with the whole function? -/
def State.vecMasked (s : State) (v : Nat) : Bool := s.hst.cfg.funcMask || (mget s.hst.msix v {}).ctl % 2 == 1

/-- The message of vector `v` leaves; that of a ring starts its holdoff (R515). -/
def State.sendVec (s : State) (v : Nat) : State :=
  let h := s.hst
  { s with hst := { h with
      sent := mmod h.sent v 0 (· + 1)
      msix := if (mget h.msix v {}).pend then mmod h.msix v {} fun e => { e with pend := false } else h.msix
      hold := if 1 ≤ v ∧ v ≤ 4 ∧ s.rd (R.HST_Rr_IRQ_HOLD (v - 1)) ≠ 0 then mput h.hold (v - 1) s.tb2Ns else h.hold } }

/-- A vector's condition rises: a message leaves, or waits while the vector is masked (R510). -/
def State.fireVec (s : State) (v : Nat) : State :=
  if !s.msgOn then s
  else if s.vecMasked v then { s with hst := { s.hst with msix := mmod s.hst.msix v {} fun e => { e with pend := true } } }
  else s.sendVec v

/-- A message that waits leaves where its vector is not masked any more. -/
def State.sendPending (s : State) (v : Nat) : State :=
  if s.msgOn && (mget s.hst.msix v {}).pend && !s.vecMasked v then s.sendVec v else s

/-- The PRV interrupt condition (R421). -/
def State.prvIrq (s : State) : Bool :=
  s.on R.PRV_STAT_ESC_STK || s.on R.PRV_STAT_SELF_STK ||
    (List.range 25).any fun k => (s.rd R.PRV_STK_STK).testBit k && s.on (R.PRV_SRCs_CFG_IRQ k)

/-- Vector 0 after a change that may have raised the PRV interrupt; `was` is the condition before it. -/
def State.prvIrqEdge (s : State) (was : Bool) : State := if !was && s.prvIrq then s.fireVec 0 else s

/-- Bit count of the registers' TRIP bitmaps and others: bit `k` of a number. -/
def bitN (n k : Nat) : Nat := if n.testBit k then 1 else 0

/-- The indices below `n` at which `p` holds, as a bitmap. -/
def bitmap (n : Nat) (p : Nat → Bool) : Nat := (List.range n).foldl (fun a k => if p k then a + 2 ^ k else a) 0

/-! ### Events on their way to the recorder (R384) -/

/-- The acquisition units that are armed. -/
def State.armedAus (s : State) : List Nat := (List.range 4).filter fun u => s.rd (R.REC_AUu_STAT_STATE u) != 0

/-- An event of a trigger kind reaches the recorder's front end: it fires in the next source row of each armed unit. -/
def State.recEvent (s : State) (kind sel : Nat) : State :=
  { s with dr := { s.dr with ev := s.dr.ev ++ s.armedAus.map fun u => (u, kind, sel) } }

/-- Active time has stepped: the next kept row of each armed unit bears STEP (R392). -/
def State.recStep (s : State) : State := { s with dr := { s.dr with step := s.armedAus } }

/-! ### Frames handed to internal ports (R337) -/

/-- NET hands frame `f` of port `p` to an internal port. -/
def State.deliver (s : State) (d : Dest) (p : Nat) (f : Frame) : State :=
  { s with net := { s.net with deliv := s.net.deliv ++ [(d, p, f)] } }

/-- The internal port takes the oldest frame handed to it. -/
def State.takeFrame (s : State) (d : Dest) : State :=
  match s.net.deliv.find? fun e => e.1 == d with
  | none => s
  | some e => { s with net := { s.net with deliv := s.net.deliv.erase e } }

/-- A word of an image's L fields: what the image loads, or the value its table states (R21). -/
def imgField (i : Image) (f : Fld) : Nat := mget i.fields f.key f.rst

end Sys2Proof.Machine
end

