-- ==== Sys2Proof/Machine/Trip.lean ====
section
/-! DEFINITION. Verdict records, bay status words and Thorn's output gating (R174, R187, R189, R258 to R262): the
operations that every change of a gate term shares. -/

namespace Sys2Proof.Machine

/-! ### Cores, bays, groups (R9, R171) -/

def State.core (s : State) (n : Nat) : Core := mget s.ec n {}

def State.setCore (s : State) (n : Nat) (c : Core) : State := { s with ec := mput s.ec n c }

def State.modCore (s : State) (n : Nat) (f : Core → Core) : State := s.setCore n (f (s.core n))

/-- The FTG of core group `n` (R146). -/
def ftgOf (s : State) (n : Nat) : Nat := s.rd R.ESP_GRP_FTG_FTG / 4 ^ n % 4

/-- R147: samples per cycle by code. -/
def nOfCode (c : Nat) : Nat :=
  match c with
  | 0 => 32 | 1 => 48 | 2 => 64 | 3 => 80 | 4 => 96 | 5 => 128 | 6 => 160 | 7 => 192 | _ => 256

/-- Tick indices run modulo 559,240 × 7,680 (R153). -/
def tickMod : Nat := 4294963200

/-- N in effect of FTG `g`. -/
def ftgN (s : State) (g : Nat) : Nat := nOfCode (s.rd (R.ESP_FTGg_STAT_NACT g))

/-- The active mode of bay `b` (R187). -/
def bayAct (s : State) (b : Nat) : Nat := s.rd (R.ELCn_BAYj_MODE_ACT (b / 3) (b % 3))

/-- Word of the verdict record of local bay `j` at offset `off`, status word apart (R174). -/
def verWord (s : State) (n j off : Nat) : Word := mget (s.core n).ver (64 * j + off / 4) 0

def setVer (s : State) (n j off : Nat) (v : Word) : State :=
  s.modCore n fun c => { c with ver := mput c.ver (64 * j + off / 4) v }

/-! ### The pads -/

/-- Is the safe-state or FAB-clock gate closed (R34, R262)? -/
def gateClosed (s : State) : Bool := s.on R.PRV_STAT_SAFE || s.prv.fabGate

/-- `src` of R258 for output `o`: the TRIPOUT bit or the committed scheme output. -/
def tripSrc (s : State) (o : Nat) : Bool :=
  (verWord s (o / 2 / 3) (o / 2 % 3) 0).getLsbD (o % 2) || s.thn.sch.testBit o

/-- `open` of R258 for bay `b`. -/
def gateOpen (s : State) (b : Nat) : Bool :=
  (!s.on (R.THN_BAYb_CFG_ARM b) || s.on (R.THN_BAYb_STAT_PERMIT b))
    && (bayAct s b == 1 || bayAct s b == 3)
    && !(s.core (b / 3)).breach
    && !(s.rd R.PRV_BAYBLK_BLK).testBit b

/-- `drv` of R258. -/
def tripDrv (s : State) (o : Nat) : Bool := (tripSrc s o || s.thn.stretch.any (·.1 == o)) && gateOpen s (o / 2)

/-- TMIN of bay `b`, ms: larger values act as 500 (THN_BAYb_TIM). -/
def tminOf (s : State) (b : Nat) : Nat := min 500 (s.rd (R.THN_BAYb_TIM_TMIN b))

/-- The minimum pulse of output `o` after an evaluation of R258 in which the drives are `d`: a closed gate cancels it, a rising drive
starts it anew with TMIN, of which 0 is none. -/
def stretchOf (s : State) (d o : Nat) : Option (Nat × Nat) :=
  if !gateOpen s (o / 2) then none
  else if d.testBit o && !s.thn.drv.testBit o then
    (if 0 < tminOf s (o / 2) then some (o, s.tb2Ns + tminOf s (o / 2) * 1000000) else none)
  else s.thn.stretch.find? (·.1 == o)

def stretchNext (s : State) (d : Nat) : List (Nat × Nat) := (List.range 48).filterMap (stretchOf s d)

/-- The pad terms that THN_TRIP shows (R258, R262); while PD1 is off the pads are clamped low (R42). -/
def padTerms (s : State) (d : Nat) : Nat := if gateClosed s || !s.pg 1 then 0 else d

/-- The pad terms now shown. -/
def padsNow (s : State) : Nat := s.rd R.THN_TRIP_LO_LEVEL + s.rd R.THN_TRIP_HI_LEVEL * 2 ^ 32

/-- The pad terms of the GPOs: the owner's value, gated by the safe-state and FAB-clock gate only (R267). -/
def gpoTerms (s : State) : Nat :=
  if gateClosed s || !s.pg 1 then 0
  else bitmap 16 fun k => if (s.rd R.THN_GPO_OWN_HOST).testBit k then (s.rd R.THN_GPO_HOSTW_VAL).testBit k
    else s.thn.gpoSch.testBit k

/-- THN_TRIP with the pads that `rose` and every pad term `now`: one event of a FAB cycle, which a further rise in the cycle joins (R399). -/
def tripEvent (s : State) (rose now : Nat) : State :=
  let st := some (s.stampIn 0x0A)
  let own (e : Ev) : Bool := e.src == 0x0A && e.code == 1 && e.stamp == st
  let bytes (r : Nat) : List Byte := padTo 24 (leBytes 6 r ++ leBytes 2 0 ++ leBytes 6 now)
  let join (e : Ev) : Ev := if own e then { e with payload := bytes (rose ||| leNat (e.payload.take 6)) } else e
  if s.yew.cross.any own then { s with yew := { s.yew with cross := s.yew.cross.map join } }
  else s.logEv 0x0A 1 (bytes rose) clsTrip

/-- Evaluates R258 after a change of any of its terms: drives, minimum pulses, pad terms, THN_TRIP event on a rise (R399). -/
def gateUpdate (s : State) : State :=
  let d := bitmap 48 (tripDrv s)
  let st := stretchNext s d
  let old := padsNow s
  let new := padTerms s d
  let rose := bitmap 48 fun o => new.testBit o && !old.testBit o
  let s1 := { s with thn := { s.thn with drv := d, stretch := st } }
  let s2 := (s1.wr R.THN_TRIP_LO_LEVEL (new % 2 ^ 32)).wr R.THN_TRIP_HI_LEVEL (new / 2 ^ 32)
  let s3 := (s2.wr R.THN_GPO_LEVEL (gpoTerms s2)).wrb R.THN_STAT_SAFE (gateClosed s2)
  if rose = 0 then s3 else tripEvent s3 rose new

/-! ### GOOSE changes on their way (R326) -/

/-- Control blocks GCB1 to GCB127 with a member that `hit` names have changed, in the order of their numbers where they change at once
(assumption 139). A change in GCB0 outside the class-0 words is due in a frame as a word read now is (assumption 78). -/
def noteGcbs (s : State) (hit : GType × GSrc → Bool) : State :=
  let l := (s.img.gcbs.filter fun e => e.1 != 0 && !s.net.dirty.contains e.1 && e.2.members.any hit).map (·.1)
  let c0 := s.img.gcbs.any fun e => e.1 == 0 && e.2.members.any hit
  { s with net := { s.net with dirty := s.net.dirty ++ l, c0at := if c0 then some (s.net.c0at.getD (s.tbOf 2).val) else s.net.c0at } }

/-- The quality of a bay: invalid while INVALID or in safe state (R432), questionable while QTIMED for class-1/2 data, test while TEST. -/
def bayQ13 (s : State) (b : Nat) (class0 : Bool) : Nat :=
  let n := b / 3
  let j := b % 3
  (if s.on R.PRV_STAT_SAFE || s.on (R.ELCn_BAYj_VST_INVALID n j) then 0x0800
    else if !class0 && s.on (R.ELCn_BAYj_VST_QTIMED n j) then 0x1800 else 0)
    + (if s.on (R.ELCn_BAYj_VST_TEST n j) then 0x0002 else 0)

/-- Is this a quality member of bay `b` whose derived quality differs between two states (R329)? -/
def qualHit (s t : State) (b : Nat) (x : GType × GSrc) : Bool :=
  match x.2 with | .bayQuality c k => c == b && bayQ13 s c k != bayQ13 t c k | _ => false

/-- What a member of a type shows of its source word: one bit, two for Dbpos, or the word. -/
def shownOf (t : GType) (w : Word) (bit : Nat) : Nat :=
  match t with | .boolean => w.toNat / 2 ^ bit % 2 | .dbpos => w.toNat / 2 ^ bit % 4 | _ => w.toNat

/-- Is this a member that a verdict snapshot of bay `b` feeds, and does it show two snapshots differently? -/
def snapHit (old new : Nat → Word) (b : Nat) (x : GType × GSrc) : Bool :=
  match x.2 with | .snap c w bit => c == b && shownOf x.1 (old w) bit != shownOf x.1 (new w) bit | _ => false

/-- SCH_STAT.STATE takes a value; members that bear the quality of a scheme-owned group change where HALTED begins or ends (R324). -/
def setScState (s : State) (k : Nat) : State :=
  let s1 := s.wr R.SCH_STAT_STATE k
  if decide (s.rd R.SCH_STAT_STATE = 2) = decide (k = 2) then s1 else noteGcbs s1 fun x => x.2 == .schemeQuality

/-! ### Bay status words (ELCn_BAYj_VST, R187) -/

/-- Brings the mode-dependent bits of local bay `j`'s status word up to date. -/
def vstUpdate (s : State) (n j : Nat) : State :=
  let a := s.rd (R.ELCn_BAYj_MODE_ACT n j)
  let c := s.core n
  let s1 := s.wrb (R.ELCn_BAYj_VST_TEST n j) (a == 3 || a == 4)
  let s2 := s1.wrb (R.ELCn_BAYj_VST_OUTBLK n j) (!(a == 1 || a == 3) || c.breach)
  let s3 := s2.wrb (R.ELCn_BAYj_VST_INVALID n j) (a == 5 || a == 6 || a == 0 || c.await.contains j || c.reinit.contains j)
  let s4 := s3.wr (R.ELCn_BAYj_VST_TRIPOUT n j) (verWord s3 n j 0).toNat
  noteGcbs s4 (qualHit s s4 (3 * n + j))

def vstAll (s : State) (n : Nat) : State := vstUpdate (vstUpdate (vstUpdate s n 0) n 1) n 2

/-- R189: TRIPOUT, START and TRIP of a bay are cleared; measurands keep their values. -/
def clearVerdicts (s : State) (n j : Nat) : State := setVer (setVer (setVer s n j 0 0) n j 4 0) n j 8 0

/-- ACT of a local bay takes a value, with the effects of R187 and R189; the gate is evaluated by the caller. -/
def setAct (s : State) (n j m : Nat) : State :=
  let s1 := s.wr (R.ELCn_BAYj_MODE_ACT n j) m
  vstUpdate (if m == 5 || m == 6 then clearVerdicts s1 n j else s1) n j

/-- The status word a program or a snapshot reads (R174 offset 0x0C). -/
def statusWord (s : State) (n j : Nat) : Word :=
  BitVec.ofNat 32 (s.rd (R.ELCn_BAYj_VST_QTIMED n j) * 2 ^ 31 + s.rd (R.ELCn_BAYj_VST_TEST n j) * 2 ^ 30
    + s.rd (R.ELCn_BAYj_VST_OUTBLK n j) * 2 ^ 29 + s.rd (R.ELCn_BAYj_VST_INVALID n j) * 2 ^ 28
    + s.rd (R.ELCn_BAYj_VST_TRIPOUT n j) * 2 ^ 24 + s.rd (R.ELCn_BAYj_VST_SNAPTK n j))

/-- A core becomes FAILED with a cause (R193): it stops, closes its contexts, and its bays' ACT becomes FAILED. -/
def coreFail (s : State) (n cause : Nat) : State :=
  let s1 := s.modCore n fun c => { c with ctxs := [], run := none, shadow := none, held := [], await := [], reinit := [],
                                          reloaded := false }
  let s2 := ((s1.wr (R.ELCn_STAT_STATE n) 3).wr (R.ELCn_STAT_CAUSE n) cause).wr (R.ELCn_TICK_OPEN n) 0
  gateUpdate (setAct (setAct (setAct s2 n 0 6) n 1 6) n 2 6)

/-! ### Verdict writes (R175, R225) -/

/-- The write mask by offset and class (R225). -/
def verdictMask (off cls : Nat) : Word :=
  if off = 0 then (if cls = 0 then 3 else 0)
  else if off = 4 ∨ off = 8 then (if cls = 0 then 0xFFFF else if cls = 3 then 0 else 0xFFFF0000)
  else if 0x10 ≤ off ∧ off ≤ 0x8C ∧ off % 4 = 0 then (if cls = 0 then 0 else 0xFFFFFFFF)
  else 0

/-- A class-0 word goes to its core's staging queue (R175). -/
def stageC0 (s : State) (n bay off : Nat) (v : Word) : State := s.modCore n fun c => { c with stage := c.stage ++ [(bay, off, v)] }

/-- A word of core `n` enters the class-0 GOOSE FIFO; a full FIFO drops it (R24, R25). -/
def enterC0 (s : State) (n : Nat) (w : Nat × Nat × Word) : State :=
  if s.net.c0.length < 64 then { s with net := { s.net with c0 := s.net.c0 ++ [w] } }
  else (s.inc R.NET_C0DROP_C0DROP).raiseLine 23 n

/-- One FAB cycle of the feed: the first core from `c0Turn` on whose staging queue is not empty gives a word (R175). -/
def feedOne (s : State) : State :=
  match ((List.range 8).map fun k => (s.net.c0Turn + k) % 8).find? fun n => !(s.core n).stage.isEmpty with
  | none => s
  | some n => match (s.core n).stage with
    | [] => s
    | w :: t =>
      let s1 := enterC0 (s.modCore n fun c => { c with stage := t }) n w
      { s1 with net := { s1.net with c0Turn := (n + 1) % 8 } }

/-- The feed runs for a number of cycles. -/
def feedFor (s : State) : Nat → State
  | 0 => s
  | k + 1 => feedFor (feedOne s) k

/-- The staging queues empty into the FIFO, round robin (assumption 12). -/
def feedC0 (s : State) : State := feedFor s ((List.range 8).map fun n => (s.core n).stage.length).sum

/-- The part of a verdict word that class 0 stages (R225). -/
def c0Part (off : Nat) (v : Word) : Word := if off = 0 then v else v &&& 0xFFFF

/-- A verdict word takes a value: Thorn sees it, and a class-0 change is staged (R175, R225). -/
def verdictWrite (s : State) (n j cls tick off : Nat) (v : Word) : State :=
  let old := verWord s n j off
  let s1 := setVer s n j off v
  let s2 := if off = 0 then gateUpdate (vstUpdate s1 n j) else s1
  if cls = 0 ∧ (off = 0 ∨ off = 4 ∨ off = 8) ∧ c0Part off old ≠ c0Part off v ∧ (s.core n).noStage ≠ some tick
    ∧ s.rd (R.ELCn_STAT_STATE n) ≠ 3 then
    stageC0 s2 n (3 * n + j) off v
  else s2

end Sys2Proof.Machine
end

