-- ==== Sys2Proof/Machine/Filt.lean ====
section
/-! DEFINITION. The arithmetic of decimation chains and resamplers (R86 to R95, R99, R102): CIC, half-band stages, the
polyphase evaluation, spans and delays. -/

namespace Sys2Proof.Machine

/-! ### Registers of a chain's stages and of a resampler -/

/-- The bank fields of half-band stage `st` (1 to 5) of chain `n`. -/
def hbAct (n st : Nat) : Fld :=
  match st with
  | 1 => R.DCH_CHn_BSTAT_ACT1 n | 2 => R.DCH_CHn_BSTAT_ACT2 n | 3 => R.DCH_CHn_BSTAT_ACT3 n | 4 => R.DCH_CHn_BSTAT_ACT4 n
  | _ => R.DCH_CHn_BSTAT_ACT5 n
def hbBusy (n st : Nat) : Fld :=
  match st with
  | 1 => R.DCH_CHn_BSTAT_FADE_BUSY1 n | 2 => R.DCH_CHn_BSTAT_FADE_BUSY2 n | 3 => R.DCH_CHn_BSTAT_FADE_BUSY3 n
  | 4 => R.DCH_CHn_BSTAT_FADE_BUSY4 n | _ => R.DCH_CHn_BSTAT_FADE_BUSY5 n
def hbPend (n st : Nat) : Fld :=
  match st with
  | 1 => R.DCH_CHn_BSTAT_PEND1 n | 2 => R.DCH_CHn_BSTAT_PEND2 n | 3 => R.DCH_CHn_BSTAT_PEND3 n | 4 => R.DCH_CHn_BSTAT_PEND4 n
  | _ => R.DCH_CHn_BSTAT_PEND5 n
def hbPendBank (n st : Nat) : Fld :=
  match st with
  | 1 => R.DCH_CHn_BSTAT_PENDBANK1 n | 2 => R.DCH_CHn_BSTAT_PENDBANK2 n | 3 => R.DCH_CHn_BSTAT_PENDBANK3 n
  | 4 => R.DCH_CHn_BSTAT_PENDBANK4 n | _ => R.DCH_CHn_BSTAT_PENDBANK5 n

def chainOf (s : State) (n : Nat) : Chain := mget s.dch.chain n { cic := { cnt := n % 32 } }
def setChain (s : State) (n : Nat) (c : Chain) : State := { s with dch := { s.dch with chain := mput s.dch.chain n c } }
def hbOf (c : Chain) (st : Nat) : Hb := mget c.hb st {}
def setHb (c : Chain) (st : Nat) (h : Hb) : Chain := { c with hb := mput c.hb st h }
def rsOf (s : State) (m : Nat) : Rs := mget s.dch.rs m {}
def setRs (s : State) (m : Nat) (r : Rs) : State := { s with dch := { s.dch with rs := mput s.dch.rs m r } }
def modRs (s : State) (m : Nat) (f : Rs → Rs) : State := setRs s m (f (rsOf s m))

/-- Bank `b` of stage `st` of chain `n`: k and coefficients. -/
def hbBankOf (s : State) (n st b : Nat) : Nat × List Int := mget s.dch.hbBank (10 * n + 2 * (st - 1) + b) (0, [])
/-- Is bank `b` of stage `st` loaded (DCH_CHn_BSTAT.LOADED)? -/
def hbLoaded (s : State) (n st b : Nat) : Bool := (s.rd (R.DCH_CHn_BSTAT_LOADED n)).testBit (2 * (st - 1) + b)
def rsBankOf (s : State) (m b : Nat) : Bool × List Word := mget s.dch.rsBank (2 * m + b) (false, [])
def rsLoaded (s : State) (m b : Nat) : Bool :=
  if b = 0 then s.on (R.DCH_RSm_STAT_LOADED_A m) else s.on (R.DCH_RSm_STAT_LOADED_B m)

/-- NHB in effect: the old one while an accepted change waits (R113). -/
def nhbOf (s : State) (n : Nat) : Nat := (chainOf s n).nhb.getD (s.rd (R.DCH_CHn_CFG_NHB n))

def namesInput (s : State) (n m : Nat) : Bool := !s.on (R.DCH_RSm_CFG_SRCSEL m) && s.rd (R.DCH_RSm_CFG_SRC m) == n

/-- The resampler whose SRCSEL = 0 names input `n` (R93: at most one); where several do, as after a reset, the first that
runs, else the first of a used core group (assumption 24). -/
def rsOfInput (s : State) (n : Nat) : Option Nat :=
  match (List.range 192).find? fun m => namesInput s n m && s.on (R.DCH_RSm_CTL_RUN m) with
  | some m => some m
  | none =>
    match (List.range 192).find? fun m => namesInput s n m && s.img.used.testBit (m / 24) with
    | some m => some m
    | none => (List.range 192).find? (namesInput s n)

def isLocal (s : State) (m : Nat) : Bool := !s.on (R.DCH_RSm_CFG_SRCSEL m)
def srcOf (s : State) (m : Nat) : Nat := s.rd (R.DCH_RSm_CFG_SRC m)
def rsRun (s : State) (m : Nat) : Bool := s.on (R.DCH_RSm_CTL_RUN m)

/-- The core group, and its FTG, that grid channel `m` belongs to (R9, R93). -/
def groupOfCh (m : Nat) : Nat := m / 24
def ftgOfCh (s : State) (m : Nat) : Nat := ftgOf s (groupOfCh m)
/-- Is the core group used, so that its channels belong to a running FTG (R146)? -/
def usedGroup (s : State) (n : Nat) : Bool := s.img.used.testBit n

/-! ### Time -/

/-- TB2 and active time in units of 2^−32 ns. -/
def tb2U (s : State) : Nat := (s.tbOf 2).val
def actU (s : State) : Nat := ((((s.tbOf s.followed).val : Int) - s.tim.resid)).toNat

/-! ### Stamps (R346 to R349) -/

/-- The value of base `b` at a raw event of this NET cycle (R346). -/
def rawStamp (s : State) (b pos : Nat) : Int :=
  let x := s.tbOf b
  (x.val + pos * (6 * nsU + x.addend) / 8 : Nat)

/-- What R347 subtracts from every stamp of a port: its silicon latency and its board latency of TIM_Pp_LAT. -/
def stampLatency (s : State) (port : Nat) (tx : Bool) : Nat :=
  Config.portLatency port tx + s.rd (if tx then R.TIM_Pp_LAT_TXLAT port else R.TIM_Pp_LAT_RXLAT port) * nsU / 10

/-- The ingress and the egress stamp of a frame in base `b`. -/
def ingressStamp (s : State) (b port pos : Nat) : Int := rawStamp s b pos - stampLatency s port false
def egressStamp (s : State) (b port pos : Nat) : Int := rawStamp s b pos - stampLatency s port true

/-- A stamp in the followed base as a short stamp of active time (R348, R349). -/
def shortOf (s : State) (u : Int) : Nat := (((u - s.tim.resid) / (nsU : Int)) % 2 ^ 32).toNat

/-- The arrival stamp of a frame whose first octet came in this NET cycle, in ns of active time (R131, R348). -/
def arrivalNs (s : State) (port pos : Nat) : Nat := ((ingressStamp s s.followed port pos - s.tim.resid) / (nsU : Int)).toNat

/-! ### fm periods -/

/-- T_m in ns (R54). -/
def tmNs (lpm : Bool) : Nat := if lpm then 400 else 100
def lpmAct (s : State) : Bool := s.on R.AFE_STAT_LPM_ACT

/-! ### CIC and half-band arithmetic -/

/-- Saturation to ±8,388,607: the value, and whether it saturated. -/
def sat24 (x : Int) : Int × Bool := (clampI (-8388607) 8388607 x, decide (x < -8388607) || decide (8388607 < x))

/-- HB1's output corrected with the trim of modulator `m` at a gain code, rounded to the nearest code, a half away from zero (R91,
R543). -/
def trimmed (m gain : Nat) (x : Int) : Int :=
  rdiv (x * Config.trimNum m gain + Config.trimOff m gain) (Config.trimDen m gain + 1)

/-- One modulator bit enters the CIC (R89): the stage, and its output with every 32nd bit. -/
def cicBit (c : Cic) (b : Bool) : Cic × Option Int :=
  let x : Word := if b then 1 else BitVec.allOnes 32
  let i1 := c.i1 + x
  let i2 := c.i2 + i1
  let i3 := c.i3 + i2
  let i4 := c.i4 + i3
  if c.cnt + 1 < 32 then ({ c with i1 := i1, i2 := i2, i3 := i3, i4 := i4, cnt := c.cnt + 1 }, none)
  else
    let d1 := i4 - c.c1
    let d2 := d1 - c.c2
    let d3 := d2 - c.c3
    ({ i1 := i1, i2 := i2, i3 := i3, i4 := i4, c1 := i4, c2 := d1, c3 := d2, c4 := d3, cnt := 0 }, some ((d3 - c.c4).toInt * 8))

/-- The odd-offset products of a half-band stage: c(2j+1) with the inputs at offsets ±(2j + 1) from the centre (R90). -/
def hbSum (line : List Int) (mid j : Nat) (cs : List Int) : Int :=
  match cs with
  | [] => 0
  | c :: t => c * (line.getD (mid - (2 * j + 1)) 0 + line.getD (mid + (2 * j + 1)) 0) + hbSum line mid (j + 1) t

/-- A stage's output from its delay line with one bank (R91), before saturation. -/
def hbOut (line : List Int) (bank : Nat × List Int) : Int :=
  let mid := 2 * bank.1 + 1
  (131072 * line.getD mid 0 + hbSum line mid 0 bank.2 + 131072) / 262144

/-- L, the taps of a bank of k. -/
def hbTaps (k : Nat) : Nat := 4 * k + 3

/-- Output j of a fade over F (R108): floor(((F − j)·old + j·new) / F + 1/2). -/
def fadeMix (old new : Int) (j f : Nat) : Int := (2 * (((f : Int) - j) * old + j * new) + f) / (2 * f)

/-- One input enters half-band stage `st` of chain `n`: every second one completes an output (R86, R91, R108), counted as a
saturation where it saturates. DESIGN CHOICE (unsafe; assumption 119): an output of a fade counts once, whichever of its two banks'
sums saturate. -/
def hbStep (s : State) (n st : Nat) (h : Hb) (x : Int) : Hb × Option (Int × Bool) :=
  let line := (x :: h.line).take 47
  if !h.odd then ({ h with line := line, odd := true }, none)
  else
    let act := s.rd (hbAct n st)
    let old := sat24 (hbOut line (hbBankOf s n st act))
    match h.fade with
    | some f =>
      if f.busy then
        let new := sat24 (hbOut line (hbBankOf s n st f.bank))
        let j := min (f.j + 1) f.len
        ({ h with line := line, odd := false, fade := some { f with j := j } }, some (fadeMix old.1 new.1 j f.len, old.2 || new.2))
      else ({ h with line := line, odd := false }, some old)
    | none => ({ h with line := line, odd := false }, some old)

/-- A saturation in chain `n` is counted (R89, R91). -/
def countSat (s : State) (n : Nat) (b : Bool) : State :=
  if b then (s.sat1 (R.DCH_CHn_STAT_SATCNT n)).wrb (R.DCH_CHn_STAT_SAT_STK n) true else s

/-! ### Spans and delays (R102) -/

/-- Taps of a stage as T_settle and A take them: the larger bank from output 1 to output F of a fade. -/
def tapsWide (s : State) (n st : Nat) : Nat :=
  let a := (hbBankOf s n st (s.rd (hbAct n st))).1
  match (hbOf (chainOf s n) st).fade with
  | some f => if f.busy then hbTaps (max a (hbBankOf s n st f.bank).1) else hbTaps a
  | none => hbTaps a

/-- Taps of a stage as D and D_up take them: the target bank from output 1. -/
def tapsPlace (s : State) (n st : Nat) : Nat :=
  let a := (hbBankOf s n st (s.rd (hbAct n st))).1
  match (hbOf (chainOf s n) st).fade with
  | some f => if f.busy then hbTaps (hbBankOf s n st f.bank).1 else hbTaps a
  | none => hbTaps a

/-- Resampler taps: 4 for the low-delay profile, 16 for standard (R94). -/
def profTaps (low : Bool) : Nat := if low then 4 else 16
def rsTapsAct (s : State) (m : Nat) : Nat := profTaps (rsBankOf s m (s.rd (R.DCH_RSm_STAT_ACT m))).1
def rsTapsWide (s : State) (m : Nat) : Nat :=
  match (rsOf s m).fade with
  | some f => if f.busy then max (rsTapsAct s m) (profTaps (rsBankOf s m f.bank).1) else rsTapsAct s m
  | none => rsTapsAct s m
def rsTapsPlace (s : State) (m : Nat) : Nat :=
  match (rsOf s m).fade with
  | some f => if f.busy then profTaps (rsBankOf s m f.bank).1 else rsTapsAct s m
  | none => rsTapsAct s m

/-- Σ 2^(i−1)·g(i) over the stages HB1 to HB(1+H). -/
def stageSum (g : Nat → Nat) (h : Nat) : Nat := ((List.range (h + 1)).map fun i => 2 ^ i * g (i + 1)).sum

/-- T_settle of local channel `m` fed by chain `n`, ns (R102). -/
def tSettle (s : State) (n m : Nat) : Nat :=
  let h := nhbOf s n
  tmNs (lpmAct s) * (128 + 32 * stageSum (tapsWide s n) h + 2 ^ (h + 6) * rsTapsWide s m)

/-- D_up, the group delay of the chain, ns (R96, R102). -/
def dUp (s : State) (n : Nat) : Nat :=
  let h := nhbOf s n
  tmNs (lpmAct s) * (62 + 16 * stageSum (fun i => tapsPlace s n i - 1) h)

/-- D of local channel `m`, ns. -/
def dDelay (s : State) (n m : Nat) : Nat :=
  dUp s n + tmNs (lpmAct s) * 2 ^ (nhbOf s n + 5) * (rsTapsPlace s m - 1)

/-- A, the release delay of local channel `m`, ns (R97, R102). -/
def relDelay (s : State) (n m : Nat) : Nat :=
  let h := nhbOf s n
  tmNs (lpmAct s) * (62 + 16 * stageSum (fun i => tapsWide s n i - 1) h + 2 ^ (h + 5) * rsTapsWide s m)

/-- T_in of a local resampler, ns (R86). -/
def tInNs (s : State) (n : Nat) : Nat := tmNs (lpmAct s) * 2 ^ (nhbOf s n + 6)

/-! ### The rate rule (R99) -/

/-- f_max of an FTG in mHz-free form: 70 for tracking, f_nom in fixed mode. -/
def fMax (fixed : Bool) (fnom : Nat) : Nat := if fixed then (if fnom = 0 then 50 else 60) else 70

/-- R99: is the resampler input rate at least 1.25 × N × f_max? The rate is 10^9 / T_in Hz. -/
def rateOk (tm nhb n fmax : Nat) : Bool := decide (5 * n * fmax * (tm * 2 ^ (nhb + 6)) ≤ 4 * 1000000000)

/-- The FNOM code in effect: the configured one until the FTG has started (R148). -/
def fnomOf (s : State) (g : Nat) : Nat :=
  let f := mget s.esp.ftg g {}
  if f.started then f.fnom else s.rd (R.ESP_FTGg_CFG_FNOM g)

/-- R99 for chain `n` feeding channel `m`, at a given T_m, stage count and FTG configuration in effect. -/
def rateOkNow (s : State) (tm nhb m : Nat) : Bool :=
  let g := ftgOfCh s m
  rateOk tm nhb (ftgN s g) (fMax (s.on (R.ESP_FTGg_STAT_MODEACT g)) (fnomOf s g))

/-! ### The polyphase evaluation (R95) -/

/-- Coefficient j of phase `phi`; phase 256 is phase 0 one input on. -/
def coefAt (l : Nat) (cs : List Word) (phi j : Nat) : Word :=
  if phi < 256 then cs.getD (phi * l + j) 0 else if j = 0 then 0 else cs.getD (j - 1) 0

/-- Input x[i] of a history; zero where the history holds none (R111). -/
def histAt (l : List RsIn) (i : Int) : Word :=
  match l.find? fun e => (e.idx : Int) == i with | some e => e.v | none => 0

/-- The sum of R95 over taps j, in binary32 in the order shown. -/
def polySum (hist : List RsIn) (l : Nat) (cs : List Word) (phi : Nat) (fr : Word) (base : Int) (js : List Nat) : Word :=
  js.foldl (fun y j =>
    let c0 := coefAt l cs phi j
    let c := F32.add c0 (F32.mul fr (F32.sub (coefAt l cs (phi + 1) j) c0))
    F32.add y (F32.mul c (histAt hist (base + j)))) 0

/-- y of R95 for one bank: input number n, position p. -/
def polyY (hist : List RsIn) (bank : Bool × List Word) (n p : Nat) : Word :=
  let l := profTaps bank.1
  let fr := F32.div (F32.ofU32 (BitVec.ofNat 32 (p % 2 ^ 24))) (F32.ofU32 16777216)
  polySum hist l bank.2 (p / 2 ^ 24) fr ((n : Int) - (l / 2 : Nat) + 1) (List.range l)

/-- The latest input at or before an instant (R95 step 1). -/
def latestAt (hist : List RsIn) (tg : Nat) : Option RsIn := hist.find? fun e => decide (e.t ≤ tg)

/-- p = floor(2^32 · (t_g − t_n) / T_in), T_in = num/den in units of 2^−32 ns (R95 step 2), as 32 bits. -/
def posOf (tg tn num den : Nat) : Nat := (2 ^ 32 * (tg - tn) * den / num) % 2 ^ 32

/-! ### Channels of an FTG, sampled-value channels, deadlines (R120, R146, R163) -/

/-- The core groups that follow FTG `g`, and their grid channels; those of an unused group belong to none (R146). -/
def groupsOf (s : State) (g : Nat) : List Nat := (List.range 8).filter fun n => usedGroup s n && ftgOf s n == g
def chsOf (s : State) (g : Nat) : List Nat := (List.range 192).filter fun m => usedGroup s (groupOfCh m) && ftgOfCh s m == g

/-- Samples per second of SVI_SUBs_CFG.RATE (R120). -/
def svRate (code : Nat) : Nat :=
  match code with | 0 => 4000 | 1 => 4800 | 2 => 12800 | 3 => 14400 | _ => 15360

def svSub (s : State) (m : Nat) : Nat := s.rd (R.SVI_MAPm_SUB m)
def svSubRate (s : State) (n : Nat) : Nat := svRate (s.rd (R.SVI_SUBs_CFG_RATE n))

/-- The largest release delay among the running local resamplers of the FTG (R163), where there is one. -/
def aMax (s : State) (g : Nat) : Option Nat :=
  ((chsOf s g).filter fun m => rsRun s m && isLocal s m).foldl
    (fun a m => some (max (a.getD 0) (relDelay s (srcOf s m) m))) none

/-- LATE in µs: values outside 50…8,000 act as the nearer limit. -/
def lateUs (s : State) (g : Nat) : Nat := clamp 50 8000 (s.rd (R.ESP_FTGg_LATE_LATE g))

/-- The effective deadline offset in ns (R163). -/
def dlnNs (s : State) (g : Nat) : Nat :=
  match aMax s g with
  | some a => max (lateUs s g * 1000) (a + 1000)
  | none => lateUs s g * 1000

def stagesOf (s : State) (n : Nat) : List Nat := (List.range (nhbOf s n + 1)).map (· + 1)

/-! ### What the status registers show -/

/-- DCH_CHn_KACT: k of the active bank of each stage in use (R116). -/
def kact (s : State) (n : Nat) : Nat :=
  (stagesOf s n).foldl (fun a st => a + (hbBankOf s n st (s.rd (hbAct n st))).1 * 16 ^ (st - 1)) 0

/-- Are the banks loaded that the delays of channel `m` are computed from: the resampler's active one and, for a local source, those
of the chain's stages in use? -/
def delaysKnown (s : State) (m : Nat) : Bool :=
  rsLoaded s m (s.rd (R.DCH_RSm_STAT_ACT m)) &&
    (!isLocal s m || (stagesOf s (srcOf s m)).all fun st => hbLoaded s (srcOf s m) st (s.rd (hbAct (srcOf s m) st)))

/-- DCH_RSm_DELAY: D in ns; for an SV source (L_r − 1)/2 periods, rounded to nearest (R117). Its reset value 0 while a bank that it
rests on is not loaded (assumption 118). -/
def delayNs (s : State) (m : Nat) : Nat :=
  if !delaysKnown s m then 0
  else if isLocal s m then dDelay s (srcOf s m) m
  else let r := svSubRate s (svSub s m); ((rsTapsPlace s m - 1) * 1000000000 + r) / (2 * r)

/-- DCH_RSm_REL: A, or h periods (R117). DESIGN CHOICE (unsafe; assumption 171): h periods that are no whole number of ns are rounded to the
nearest, as the spec says of DELAY. -/
def relNs (s : State) (m : Nat) : Nat :=
  if !delaysKnown s m then 0
  else if isLocal s m then relDelay s (srcOf s m) m
  else let r := svSubRate s (svSub s m); (rsTapsWide s m * 1000000000 + r) / (2 * r)

end Sys2Proof.Machine
end

