-- ==== Sys2Proof/Machine/Pipe.lean ====
section
/-! DEFINITION. The registers and the pipeline of a Porlon program (R201, R207, R217, R218, R233 to R235, R547): reading and writing
registers, control transfers, loops, and what each syllable asks of the pipeline. -/

namespace Sys2Proof.Machine

/-! ### Register files (R201) -/

/-- s[r]: s0 reads 0. -/
def RegFile.gs (f : RegFile) (r : Nat) : Word := if r = 0 then 0 else mget f.s r 0

/-- Writes s[r]: a write of s0 is discarded. -/
def RegFile.ps (f : RegFile) (r : Nat) (v : Word) : RegFile := if r = 0 then f else { f with s := mput f.s r v }

/-- p[r]: p0 reads true. -/
def RegFile.gp (f : RegFile) (r : Nat) : Bool := if r = 0 then true else mget f.p r false

/-- Writes p[r]: p0 may not be written. -/
def RegFile.pp (f : RegFile) (r : Nat) (b : Bool) : RegFile := if r = 0 then f else { f with p := mput f.p r b }

/-- c[r], and writing it. -/
def RegFile.gc (f : RegFile) (r : Nat) : Word × Word := mget f.c r (0, 0)
def RegFile.pcx (f : RegFile) (r : Nat) (v : Word × Word) : RegFile := { f with c := mput f.c r v }

/-- R207: the guard p[pr] XOR pn. -/
def RegFile.guard (f : RegFile) (g : Guard) : Bool := f.gp g.pr.val != g.pn

/-! ### Control flow (R217, R218) -/

/-- pc arithmetic: 12 bits in PE, 17 bits in SL (R201). -/
def pcMod (k : CoreSel) : Nat := match k with | .pe _ => 4096 | .sl => 131072

/-- Drops the outermost loop entry whose range does not hold the target, and every entry above it (R217). -/
def popLoops (ls : List LoopEnt) (t : Nat) : List LoopEnt :=
  match ls with
  | [] => []
  | e :: r =>
    let r' := popLoops r t
    if r'.length < r.length then r' else if e.start ≤ t ∧ t ≤ e.last then e :: r' else r'

/-- Loop entries whose last address is `pc` count down as its bundle completes: the innermost first, an outer one only when
the inner pops (R218). Answers the stack and where the program goes on. -/
def loopEnd (ls : List LoopEnt) (pc nxt : Nat) : List LoopEnt × Nat :=
  match ls with
  | [] => ([], nxt)
  | e :: r =>
    if e.last = pc then (if e.left - 1 ≠ 0 then ({ e with left := e.left - 1 } :: r, e.start) else loopEnd r pc nxt)
    else (e :: r, nxt)

/-- The register file after a bundle or syllable without a control transfer: the next address, loops counted (R218). The address past
the last of a full program memory is past the end of the program, and its fetch ILLEGAL (R236). -/
def RegFile.advance (f : RegFile) : RegFile :=
  let p := loopEnd f.ls f.pc (f.pc + 1)
  { f with ls := p.1, pc := p.2 }

/-- A control transfer takes effect (R217, R218). A fault of a stack has been found before. -/
def RegFile.take (f : RegFile) (fl : Flow) : RegFile :=
  match fl with
  | .jump t => { f with pc := t, ls := popLoops f.ls t }
  | .call t => { f with pc := t, rs := (f.pc + 1) :: f.rs }
  | .ret => match f.rs with
    | [] => f
    | a :: r => { f with pc := a, rs := r, ls := popLoops f.ls a }
  | .loop e => { f with ls := e :: f.ls, pc := f.pc + 1 }
  | .skip t => { f with pc := t }

/-! ### Effects -/

/-- An effect on the register file alone. -/
def RegFile.eff (f : RegFile) (e : Eff) : RegFile :=
  match e with
  | .setS r v => f.ps r v
  | .setP r b => f.pp r b
  | .setC r v => f.pcx r v
  | _ => f

/-- The control transfer among a bundle's effects. -/
def flowOf (l : List Eff) : Option Flow :=
  match l with
  | [] => none
  | .flow f :: _ => some f
  | _ :: t => flowOf t

def hasTickEnd (l : List Eff) : Bool := l.any (· == .tickEnd)

/-! ### The pipeline (R233 to R235, R547) -/

/-- Keys of registers: s, p and c. s0 and p0, which never change, are never waited for. -/
def sKey (r : SReg) : Nat := r.val
def pKey (r : PReg) : Nat := 32 + r.val
def cKey (r : CReg) : Nat := 64 + r.val
def regKey (k : Nat) : Bool := k != 0 && k != 32

/-- A pipelined syllable under a guard: its other sources, what it writes, its latency. -/
def timed (g : Guard) (src dst : List Nat) (lat : Nat) : SylTime :=
  { src := pKey g.pr :: src, dst := dst.filter regKey, lat := lat }

/-- A syllable of a unit that it holds for its occupancy (R547). -/
def timedU (g : Guard) (src dst : List Nat) (lat unit occ : Nat) : SylTime :=
  { timed g src dst lat with unit := some unit, occ := occ }

/-- Units that are not pipelined (R547): divider, divide and square root, argument, curve, sequence and power. -/
def uDiv : Nat := 0
def uRoot : Nat := 1
def uArg : Nat := 2
def uCurve : Nat := 3
def uSeq : Nat := 4

/-- Latency of an integer division of magnitudes A and B: 2 + n (R547). -/
def divLat (a b : Nat) : Nat := if b = 0 ∨ a < b then 2 else 2 + (Nat.log2 a - Nat.log2 b + 1)

/-- The magnitude of a signed word; 0x8000_0000 counts as 2^31. -/
def magnitude (w : Word) : Nat := w.toInt.natAbs

/-- A control transfer: three cycles, but one for a forward branch that is not taken (R233). -/
def timedJump (g : Guard) (src : List Nat) (cost : Nat) : SylTime := { timed g src [] 1 with next := cost }

/-- Three c registers from a base. -/
def cThree (c : CReg) : List Nat := [64 + c.val, 64 + (c.val + 1) % 16, 64 + (c.val + 2) % 16]

/-- The slot of a PE bundle that takes a syllable (R208, R211); none for nop, which every slot takes. -/
def slotOf (i : Instr) : Option Slot :=
  match i with
  | .add .. | .sub .. | .and .. | .or .. | .xor .. | .andn .. | .sll .. | .srl .. | .sra .. | .slt .. | .sltu .. | .min .. | .max ..
  | .minu .. | .maxu .. | .mul .. | .mulh .. | .mulhu .. | .div .. | .divu .. | .rem .. | .remu .. | .clz .. | .popc .. => some .a
  | .addi .. | .andi .. | .ori .. | .xori .. | .slli .. | .srli .. | .srai .. | .cmpEq .. | .cmpNe .. | .cmpLt .. | .cmpGe .. | .cmpLtu ..
  | .cmpGeu .. | .pand .. | .por .. | .pxor .. | .pandn .. | .pnot .. | .li .. | .lih .. => some .a
  | .br .. | .call .. | .loop .. | .jr .. | .callr .. | .ret .. => some .a
  | .fadd .. | .fsub .. | .fmul .. | .fdiv .. | .fsqrt .. | .fabs .. | .fneg .. | .fmin .. | .fmax .. | .fcvtWs .. | .fcvtSw ..
  | .fcvtSwu .. | .fmadd .. | .fmsub .. | .fcmpEq .. | .fcmpLt .. | .fcmpLe .. | .fcmpUn .. | .fli .. => some .f
  | .cadd .. | .csub .. | .cmul .. | .cmulc .. | .cconj .. | .cscale .. | .cmag2 .. | .cabs .. | .carg .. | .cre .. | .cim .. | .cpack .. =>
    some .f
  | .ldW .. | .stW .. | .ldC .. | .stC .. | .ldg .. | .ldgr .. => some .l
  | .vwr .. | .vset .. | .vclr .. | .vrd .. | .phRd .. | .cvStep .. | .cvRd .. | .cvClr .. | .cvSet .. | .sqSeq .. | .sqPwr .. | .sqPwr1 ..
  | .tickEnd .. | .rdsr .. => some .x
  | _ => none

/-- What an element core's syllable asks of the pipeline, with registers `f` before its bundle (R233, R547); nothing for commands
that are not. The cosine filter of ph.rd stalls 3 cycles more (R244). -/
def sylCost (f : RegFile) (i : Instr) : SylTime :=
  match i with
  | .add _ g d a b _ | .sub _ g d a b _ | .and _ g d a b _ | .or _ g d a b _ | .xor _ g d a b _ | .andn _ g d a b _
  | .sll _ g d a b _ | .srl _ g d a b _ | .sra _ g d a b _ | .slt _ g d a b _ | .sltu _ g d a b _
  | .min _ g d a b _ | .max _ g d a b _ | .minu _ g d a b _ | .maxu _ g d a b _ => timed g [sKey a, sKey b] [sKey d] 1
  | .clz _ g d a _ | .popc _ g d a _ => timed g [sKey a] [sKey d] 1
  | .addi _ g d a _ _ | .andi _ g d a _ _ | .ori _ g d a _ _ | .xori _ g d a _ _ => timed g [sKey a] [sKey d] 1
  | .slli _ g d a _ _ | .srli _ g d a _ _ | .srai _ g d a _ _ => timed g [sKey a] [sKey d] 1
  | .mul _ g d a b _ | .mulh _ g d a b _ | .mulhu _ g d a b _ => timed g [sKey a, sKey b] [sKey d] 3
  | .divu _ g d a b _ | .remu _ g d a b _ =>
    let n := divLat (f.gs a.val).toNat (f.gs b.val).toNat
    timedU g [sKey a, sKey b] [sKey d] n uDiv n
  | .div _ g d a b _ | .rem _ g d a b _ =>
    let n := divLat (magnitude (f.gs a.val)) (magnitude (f.gs b.val))
    timedU g [sKey a, sKey b] [sKey d] n uDiv n
  | .li _ d _ _ | .fli _ d _ _ => { dst := [sKey d].filter regKey }
  | .lih _ d _ _ => { src := [sKey d], dst := [sKey d].filter regKey }
  | .cmpEq _ g p a b _ | .cmpNe _ g p a b _ | .cmpLt _ g p a b _ | .cmpGe _ g p a b _ | .cmpLtu _ g p a b _ | .cmpGeu _ g p a b _ =>
    timed g [sKey a, sKey b] [pKey p] 1
  | .pand _ g d a b _ | .por _ g d a b _ | .pxor _ g d a b _ | .pandn _ g d a b _ => timed g [pKey a, pKey b] [pKey d] 1
  | .pnot _ g d a _ => timed g [pKey a] [pKey d] 1
  | .br _ g off _ => timedJump g [] (if off.msb || f.guard g then 3 else 1)
  | .call _ g _ _ => timedJump g [] 3
  | .jr _ g a _ | .callr _ g a _ => timedJump g [sKey a] 3
  | .ret _ g _ => timedJump g [] 3
  | .loop _ r _ _ _ => { src := [sKey r] }
  | .fabs _ g d a _ | .fneg _ g d a _ => timed g [sKey a] [sKey d] 1
  | .fmin _ g d a b _ | .fmax _ g d a b _ => timed g [sKey a, sKey b] [sKey d] 2
  | .fcvtWs _ g d a _ | .fcvtSw _ g d a _ | .fcvtSwu _ g d a _ => timed g [sKey a] [sKey d] 2
  | .fcmpEq _ g p a b _ | .fcmpLt _ g p a b _ | .fcmpLe _ g p a b _ | .fcmpUn _ g p a b _ => timed g [sKey a, sKey b] [pKey p] 2
  | .fadd _ g d a b _ | .fsub _ g d a b _ | .fmul _ g d a b _ => timed g [sKey a, sKey b] [sKey d] 3
  | .fmadd _ g d a b _ | .fmsub _ g d a b _ => timed g [sKey d, sKey a, sKey b] [sKey d] 4
  | .fdiv _ g d a b _ => timedU g [sKey a, sKey b] [sKey d] 12 uRoot 12
  | .fsqrt _ g d a _ => timedU g [sKey a] [sKey d] 12 uRoot 12
  | .cconj _ g d a _ => timed g [cKey a] [cKey d] 1
  | .cre _ g d a _ | .cim _ g d a _ => timed g [cKey a] [sKey d] 1
  | .cpack _ g d a b _ => timed g [sKey a, sKey b] [cKey d] 1
  | .cadd _ g d a b _ | .csub _ g d a b _ => timed g [cKey a, cKey b] [cKey d] 3
  | .cscale _ g d a b _ => timed g [cKey a, sKey b] [cKey d] 3
  | .cmul _ g d a b _ | .cmulc _ g d a b _ => timed g [cKey a, cKey b] [cKey d] 4
  | .cmag2 _ g d a _ => timed g [cKey a] [sKey d] 4
  | .cabs _ g d a _ => timedU g [cKey a] [sKey d] 12 uRoot 12
  | .carg _ g d a _ => timedU g [cKey a] [sKey d] 14 uArg 14
  | .ldW _ g d a _ _ => timed g [sKey a] [sKey d] 2
  | .ldC _ g d a _ _ => timed g [sKey a] [cKey d] 2
  | .stW _ g d a _ _ => timed g [sKey d, sKey a] [] 1
  | .stC _ g d a _ _ => timed g [cKey d, sKey a] [] 1
  | .ldg _ g d _ _ _ => timed g [] [d.val, (d.val + 1) % 32] 2
  | .ldgr _ g d a b _ => timed g [sKey a, sKey b] [d.val, (d.val + 1) % 32] 2
  | .vwr _ g r _ _ | .vset _ g r _ _ | .vclr _ g r _ _ => timed g [sKey r] [] 1
  | .vrd _ g d _ _ => timed g [] [sKey d] 1
  | .rdsr _ g d _ _ => timed g [] [sKey d] 1
  | .phRd _ g d ch _ cos _ => timed g [] [cKey d] (if cos && decide (ch.val < 24) then 6 else 3)
  | .cvStep _ g d a _ _ => timedU g [sKey a] [sKey d] 10 uCurve 10
  | .cvRd _ g d _ _ => timedU g [] [sKey d] 1 uCurve 1
  | .cvClr _ g _ _ => timedU g [] [] 1 uCurve 1
  | .cvSet _ g _ a _ => timedU g [sKey a] [] 1 uCurve 1
  | .sqSeq _ g d a _ => timedU g (cThree a) (cThree d) 6 uSeq 2
  | .sqPwr _ g d a b _ => timedU g (cThree a ++ cThree b) [cKey d] 6 uSeq 2
  | .sqPwr1 _ g d a b _ => timedU g [cKey a, cKey b] [cKey d] 4 uSeq 1
  | .tickEnd _ g _ => timed g [] [] 1
  | _ => {}

/-- What a syllable asks of the pipeline and of its bundle. -/
def sylTime (f : RegFile) (i : Instr) : SylTime := { sylCost f i with slot := slotOf i }

/-- Does a syllable join the bundle in issue: a bundle has four slots, each with one syllable (R208)? -/
def fitsBundle (x : Section) (i : Instr) : Bool :=
  decide (x.syls.length < 4) && (slotOf i).all fun k => !x.syls.any fun y => y.slot == some k

/-- The cycle a syllable can issue in, `t` or later: its sources ready, its results landing after earlier ones of the same register,
its unit free (R234). -/
def Pipe.ask (p : Pipe) (t : Nat) (x : SylTime) : Nat :=
  let t1 := x.src.foldl (fun a k => max a (mget p.ready k 0)) t
  let t2 := x.dst.foldl (fun a k => max a (mget p.ready k 0 + 1 - x.lat)) t1
  match x.unit with
  | some u => max t2 (mget p.units u 0)
  | none => t2

/-- The issue cycle of a bundle (R234). -/
def Pipe.issueAt (p : Pipe) (l : List SylTime) : Nat := l.foldl p.ask p.next

/-- What a syllable that issues in cycle `t` leaves. -/
def Pipe.book (t : Nat) (p : Pipe) (x : SylTime) : Pipe :=
  { p with ready := x.dst.foldl (fun a k => mput a k (t + x.lat)) p.ready,
           units := match x.unit with | some u => mput p.units u (t + x.occ) | none => p.units }

/-- A bundle issues (R234, R235). -/
def Pipe.issue (p : Pipe) (l : List SylTime) : Pipe :=
  let t := p.issueAt l
  { l.foldl (Pipe.book t) p with next := t + l.foldl (fun a x => max a x.next) 1, used := t + 1 }

end Sys2Proof.Machine
end

