-- ==== Sys2Proof/Machine/Acc.lean ====
section
/-! DEFINITION. Access rights on Hedgerow (R26, R29, R30) and what a denied access does. -/

namespace Sys2Proof.Machine

/-- The initiator's number in GLB_ACC_INIT.INIT: the order of R26. -/
def iniNo : Ini → Nat
  | .sec => 0 | .load => 1 | .sc => 2 | .twn => 3 | .recorder => 4 | .dma => 5 | .hst => 6 | .mspi => 7 | .jtag => 8

/-- A denied access (R29): captured where none is since the last clear, counted, logged (assumption 46). -/
def denied (s : State) (i : Ini) (write : Bool) (a : Nat) : State :=
  let s1 :=
    if s.on R.GLB_ACC_INIT_VALID then s
    else (((s.wrb R.GLB_ACC_INIT_VALID true).wrb R.GLB_ACC_INIT_WRITE write).wr R.GLB_ACC_INIT_INIT (iniNo i)).wr R.GLB_ACC_ADDR_ADDR a
  (s1.sat1 R.GLB_ACC_INIT_COUNT).logIx 0 1 (iniNo i)

/-- Does the ESP offset lie in the instant records, the flag plane or the value plane (R168)? -/
def inPlanes (o : Nat) : Bool :=
  (decide (0x10000 ≤ o) && decide (o < 0x18000)) || (decide (0x20000 ≤ o) && decide (o < 0x38000)) || (decide (0x40000 ≤ o) && decide (o < 0xA0000))

/-- Does the BAR0 offset lie in the Espalier planes or in a core's verdict records? -/
def isPlane (a : Nat) : Bool := decide (0x800000 ≤ a) && inPlanes (a - 0x800000)
def isVerdict (a : Nat) : Bool := decide (0x900000 ≤ a) && decide (a < 0x980000) && decide (0x8000 ≤ a % 0x10000) && decide (a % 0x10000 < 0x8300)

/-- May the initiator read BAR0 offset `a` (R29)? TWN reads the verdict records; JTAG has no access at all in FIELD (R441). -/
def mayRead (s : State) (i : Ini) (a : Nat) : Bool :=
  match i with
  | .sec => true
  | .sc => !isPlane a
  | .twn => isVerdict a
  | .hst => true
  | .mspi => true
  | .jtag => s.rd R.SEC_LC_STATE != 2
  | _ => false

/-- The lifecycle states in which MSPI and JTAG may write (R29): MANUFACTURE, PROVISIONED and maintenance state; MANUFACTURE
and RMA. -/
def iniWrites (s : State) (i : Ini) : Bool :=
  match i with
  | .hst => true
  | .mspi => decide (s.rd R.SEC_LC_STATE ≤ 1) || s.on R.GLB_BOOT_MAINT
  | .jtag => s.rd R.SEC_LC_STATE == 0 || s.rd R.SEC_LC_STATE == 3
  | _ => false

/-- May the initiator write BAR0 offset `a` (R29, R30)? The load engine writes L fields, TWN its own registers; the host and
what has its rights write registers, but not the planes or the verdict records. -/
def mayWrite (s : State) (i : Ini) (a : Nat) : Bool :=
  match i with
  | .load => !isPlane a && !isVerdict a
  | .twn => decide (0xE00000 ≤ a) && decide (a < 0xF00000)
  | _ => iniWrites s i && !isPlane a && !isVerdict a

end Sys2Proof.Machine
end

