-- ==== Sys2Proof/Machine/Live.lean ====
section
/-! DEFINITION. The live input store of the scheme cores and the trigger sources of event tasks (R279, R282), and the
verdict snapshot that feeds them (R176). -/

namespace Sys2Proof.Machine

/-! Points of the scheme's live input store are numbered by their source (assumption 13). -/

/-- Word `w` of the verdict snapshot of bay `b`: 0 TRIPOUT, 1 START, 2 TRIP, 3 status, 4…35 M0–M31, 36 the tick index. -/
def ptVerdict (b w : Nat) : Nat := 64 * b + w
/-- Binary input `i`: its level, and its stamp in µs, low and high word. -/
def ptBin (i : Nat) : Nat := 0x1000 + i
def ptBinTs (i : Nat) : Nat := 0x1100 + i
def ptBinTsHi (i : Nat) : Nat := 0x1180 + i
/-- SV subscription `n`, frequency of FTG `g`, mode and group of bay `b`. -/
def ptSv (n : Nat) : Nat := 0x1200 + n
def ptFtg (g : Nat) : Nat := 0x1300 + g
def ptMode (b : Nat) : Nat := 0x1400 + b
def ptGroup (b : Nat) : Nat := 0x1500 + b
/-- Twin points (R494): 0 START, 1 TRIP, 2 VALID of the partner, 3 its health word, 4 XMODE. -/
def ptTwin (k : Nat) : Nat := 0x1600 + k
/-- Member `m` of GOOSE subscription `n`, low and high word (a Timestamp has both). -/
def ptGoose (n m : Nat) : Nat := 0x10000 + 256 * n + m
def ptGooseHi (n m : Nat) : Nat := 0x50000 + 256 * n + m

/-- A point of the live store takes a value and a quality byte (R282). -/
def setLive (s : State) (p : Nat) (v : Word) (q : Nat) : State :=
  { s with sch := { s.sch with live := mput s.sch.live p (v, q) } }

/-- A value of 64 bits fills two points, which bear one quality. -/
def setLive64 (s : State) (lo hi : Nat) (v : BitVec 64) (q : Nat) : State := setLive (setLive s lo (v.extractLsb' 0 32) q) hi (v.extractLsb' 32 32) q

/-- Quality letters of R14 that the store uses: I, Q, T (R282). -/
def qI : Nat := 0x08
def qQ : Nat := 0x10
def qT : Nat := 0x02

def liveVal (s : State) (p : Nat) : Word := (mget s.sch.live p (0, 0)).1

/-- The value stays, the quality changes. -/
def setLiveQ (s : State) (p q : Nat) : State := setLive s p (liveVal s p) q

/-- A trigger source of kind `k`, selector `sel`, has fired: each event task it is set for is to be activated (R279). -/
def trigEvent (s : State) (k sel : Nat) : State :=
  let ts := (List.range 16).filter fun n =>
    s.rd (R.SCH_TKn_CFG_KIND n) == 3 && s.rd (R.SCH_TKn_CFG_TRIG n) == k && s.rd (R.SCH_TKn_CFG_PARAM n) % 4096 == sel
  { s with sch := { s.sch with trig := s.sch.trig ++ ts } }

/-- Rising edges of a verdict word's bits fire kind 3: SEL[11:7] bay, SEL[5] START or TRIP, SEL[4:0] bit (R279). -/
def trigVerdictBits (s : State) (b isTrip : Nat) (old new : Word) : State :=
  (List.range 32).foldl
    (fun a k => if new.getLsbD k && !old.getLsbD k then trigEvent a 3 (b * 128 + isTrip * 32 + k) else a) s

/-- Quality of the points of bay `b` (R282): I while INVALID, Q on class-1 data while QTIMED, T while TEST. -/
def bayQuality (s : State) (n j : Nat) (class1 : Bool) : Nat :=
  (if s.on (R.ELCn_BAYj_VST_INVALID n j) then qI else 0)
    + (if class1 && s.on (R.ELCn_BAYj_VST_QTIMED n j) then qQ else 0)
    + (if s.on (R.ELCn_BAYj_VST_TEST n j) then qT else 0)

/-- Is the word of a verdict snapshot class-1 data: START, TRIP or a measurand (R282)? -/
def class1Word (w : Nat) : Bool := w == 1 || w == 2 || (decide (4 ≤ w) && decide (w < 36))

/-- A point as the store shows it (R282): a verdict snapshot's value with the quality its bay's status word gives now; the STATE, mode
and group that their registers hold; for every other point what its source has put there. -/
def livePoint (s : State) (p : Nat) : Word × Nat :=
  let e := mget s.sch.live p (0, 0)
  if p < ptVerdict 24 0 then (e.1, bayQuality s (p / 64 / 3) (p / 64 % 3) (class1Word (p % 64)))
  else if ptSv 0 ≤ p ∧ p < ptSv 64 then (BitVec.ofNat 32 (s.rd (R.SVI_SUBs_STAT_STATE (p - ptSv 0))), 0)
  else if ptMode 0 ≤ p ∧ p < ptMode 24 then (BitVec.ofNat 32 (bayAct s (p - ptMode 0)), 0)
  else if ptGroup 0 ≤ p ∧ p < ptGroup 24 then
    (BitVec.ofNat 32 (s.rd (R.ELCn_BAYj_SG_ACT ((p - ptGroup 0) / 3) ((p - ptGroup 0) % 3))), 0)
  else e

/-- The measurands of a bay into the store. -/
def snapM (s : State) (n j k : Nat) : State :=
  match k with
  | 0 => s
  | k + 1 => setLive (snapM s n j k) (ptVerdict (3 * n + j) (4 + k)) (verWord s n j (0x10 + 4 * k)) 0

/-- One bay's record of a verdict snapshot arrives in the live store; rising bits fire their triggers, the members that change go to GOOSE
(R326). -/
def snapBay (s : State) (n tick j : Nat) : State :=
  let b := 3 * n + j
  let s0 := s.wr (R.ELCn_BAYj_VST_SNAPTK n j) tick
  let oldS := liveVal s0 (ptVerdict b 1)
  let oldT := liveVal s0 (ptVerdict b 2)
  let s1 := setLive s0 (ptVerdict b 0) (verWord s0 n j 0) 0
  let s2 := setLive s1 (ptVerdict b 1) (verWord s0 n j 4) 0
  let s3 := setLive s2 (ptVerdict b 2) (verWord s0 n j 8) 0
  let s4 := setLive s3 (ptVerdict b 3) (statusWord s0 n j) 0
  let s5 := setLive (snapM s4 n j 32) (ptVerdict b 36) (BitVec.ofNat 32 tick) 0
  let s6 := trigVerdictBits s5 b 0 oldS (verWord s0 n j 4)
  let s7 := trigVerdictBits s6 b 1 oldT (verWord s0 n j 8)
  noteGcbs s7 (snapHit (fun w => liveVal s0 (ptVerdict b w)) (fun w => liveVal s7 (ptVerdict b w)) b)

/-- What a snapshot tells TWN (R480, R483), kept while the unit is enabled. -/
def twinSnap (s : State) (n stamp : Nat) : State :=
  if !s.on R.TWN_CFG_EN then s
  else
    let w := fun j k => liveVal s (ptVerdict (3 * n + j) k) != 0
    let x : TwSnap := { core := n, t := stamp, start := bitmap 3 fun j => w j 1 || w j 2, trip := bitmap 3 fun j => w j 2 || w j 0,
                        valid := bitmap 3 fun j => !s.on (R.ELCn_BAYj_VST_INVALID n j) && !s.on (R.ELCn_BAYj_VST_TEST n j) }
    { s with twn := { s.twn with snaps := (x :: s.twn.snaps).take 8192, latest := mput s.twn.latest n stamp } }

/-- The verdict snapshot of core `n` for a tick stamped `stamp` (R176): to the scheme input images, to REC and to TWN. -/
def verdictSnapshot (s : State) (n tick stamp : Nat) : State :=
  let s1 := snapBay (snapBay (snapBay s n tick 0) n tick 1) n tick 2
  twinSnap { s1 with snapTick := mput s1.snapTick n tick } n stamp

end Sys2Proof.Machine
end

