-- ==== Sys2Proof/Machine/Syllable.lean ====
section
/-! DEFINITION. The encoding of Porlon syllables (R204 to R206, R208, R211 to R232): the fields of a 32-bit word by format, the
opcode map, and the syllable that a word in instruction memory or SC SRAM stands for. -/

namespace Sys2Proof.Machine

/-! ### Fields (R204, R205) -/

/-- The formats of R204. -/
inductive Fmt where
  | r | i | s | li | b | lp
  deriving DecidableEq, Repr

/-- Bits [hi:lo] of a word. -/
def bitsOf (w : Word) (hi lo : Nat) : Nat := w.toNat / 2 ^ lo % 2 ^ (hi + 1 - lo)

/-- The fields of a syllable by format. In S the field rb is the shift amount; imm12 is put together from [15:11] and [6:0] (R205). -/
inductive Fields where
  | r (rd ra rb : Nat) (g : Guard) (fn : Nat)
  | i (rd ra : Nat) (imm : BitVec 12) (g : Guard)
  | s (rd ra sh : Nat) (g : Guard) (fn : Nat)
  | li (rd : Nat) (imm : BitVec 21)
  | b (g : Guard) (link : Bool) (off : BitVec 21)
  | lp (rs : Nat) (count : BitVec 12) (body : BitVec 9)
  deriving DecidableEq, Repr

/-- The guard fields pn [10] and pr [9:7] of formats R, I and S. -/
def guardIn (w : Word) : Guard := { pn := bitsOf w 10 10 == 1, pr := ⟨bitsOf w 9 7 % 8, Nat.mod_lt _ (by decide)⟩ }

/-- imm12 = {[15:11], [6:0]} (R205). -/
def imm12In (w : Word) : BitVec 12 := BitVec.ofNat 12 (bitsOf w 15 11 * 2 ^ 7 + bitsOf w 6 0)

/-- The fields of a word of a format (R204). -/
def fieldsOf (f : Fmt) (w : Word) : Fields :=
  match f with
  | .r => .r (bitsOf w 25 21) (bitsOf w 20 16) (bitsOf w 15 11) (guardIn w) (bitsOf w 6 0)
  | .i => .i (bitsOf w 25 21) (bitsOf w 20 16) (imm12In w) (guardIn w)
  | .s => .s (bitsOf w 25 21) (bitsOf w 20 16) (bitsOf w 15 11) (guardIn w) (bitsOf w 6 0)
  | .li => .li (bitsOf w 25 21) (BitVec.ofNat 21 (bitsOf w 20 0))
  | .b => .b { pn := bitsOf w 25 25 == 1, pr := ⟨bitsOf w 24 22 % 8, Nat.mod_lt _ (by decide)⟩ } (bitsOf w 21 21 == 1)
      (BitVec.ofNat 21 (bitsOf w 20 0))
  | .lp => .lp (bitsOf w 25 21) (BitVec.ofNat 12 (bitsOf w 20 9)) (BitVec.ofNat 9 (bitsOf w 8 0))

/-! ### The opcode map (R208, R211) -/

/-- A row of the opcode map: format, the PE slot that takes the major, whether SL takes it. -/
structure MajorRow where
  major : Nat
  fmt : Fmt
  slot : Option Slot
  sl : Bool
  deriving DecidableEq, Repr

/-- The majors of R211 but 0x00, whose one syllable is the all-zero nop; a major that is not listed is reserved. -/
def majors : List MajorRow :=
  [⟨0x01, .r, some .a, true⟩, ⟨0x02, .i, some .a, true⟩, ⟨0x03, .i, some .a, true⟩, ⟨0x04, .i, some .a, true⟩,
   ⟨0x05, .i, some .a, true⟩, ⟨0x06, .s, some .a, true⟩, ⟨0x07, .r, some .a, true⟩, ⟨0x09, .r, some .a, true⟩,
   ⟨0x0A, .li, some .a, true⟩, ⟨0x0B, .li, some .a, true⟩, ⟨0x0C, .b, some .a, true⟩, ⟨0x0D, .lp, some .a, true⟩,
   ⟨0x0E, .r, some .a, true⟩, ⟨0x10, .r, some .f, true⟩, ⟨0x11, .r, some .f, true⟩, ⟨0x12, .r, some .f, true⟩]
    ++ [⟨0x13, .r, some .f, false⟩, ⟨0x14, .li, some .f, true⟩, ⟨0x20, .i, some .l, true⟩, ⟨0x21, .i, some .l, true⟩,
   ⟨0x22, .i, some .l, false⟩, ⟨0x23, .i, some .l, false⟩, ⟨0x24, .i, some .l, false⟩, ⟨0x25, .r, some .l, false⟩,
   ⟨0x30, .i, some .x, false⟩, ⟨0x31, .i, some .x, false⟩, ⟨0x32, .i, some .x, false⟩, ⟨0x33, .i, some .x, false⟩,
   ⟨0x34, .r, some .x, false⟩, ⟨0x35, .r, some .x, false⟩, ⟨0x36, .r, some .x, false⟩, ⟨0x37, .r, some .x, false⟩]
    ++ [⟨0x38, .i, none, true⟩, ⟨0x39, .i, none, true⟩, ⟨0x3A, .i, none, true⟩, ⟨0x3B, .i, none, true⟩,
   ⟨0x3C, .i, none, true⟩, ⟨0x3D, .i, none, true⟩, ⟨0x3E, .i, none, true⟩, ⟨0x3F, .r, none, true⟩]

/-- The row of a major, none where it is reserved. -/
def majorRow (m : Nat) : Option MajorRow := majors.find? fun r => r.major == m

/-- The slot of a word of a bundle: A in bits [31:0], F in [63:32], L in [95:64], X in [127:96] (R208). -/
def slotAt (k : Nat) : Slot := match k with | 0 => .a | 1 => .f | 2 => .l | _ => .x

/-! ### Registers in fields (R206) -/

def sregOf (x : Nat) : SReg := ⟨x % 32, Nat.mod_lt _ (by decide)⟩

/-- A predicate field: its upper 2 bits shall be zero. -/
def pregOf (x : Nat) : Option PReg := if h : x < 8 then some ⟨x, h⟩ else none

/-- A c field: bit 4 shall be zero. -/
def cregOf (x : Nat) : Option CReg := if h : x < 16 then some ⟨x, h⟩ else none

/-- A field that the syllable does not use shall be zero. -/
def unused (x : Nat) (i : Option Instr) : Option Instr := if x = 0 then i else none

/-- A syllable of PE alone. -/
def onPe (k : CoreSel) (i : Fin 8 → Option Instr) : Option Instr := match k with | .pe n => i n | .sl => none

/-- A syllable of SL alone. -/
def onSl (k : CoreSel) (i : Option Instr) : Option Instr := match k with | .sl => i | .pe _ => none

/-! ### Operations by major and fn (R212 to R232) -/

/-- Major 0x01 (R213). -/
def intOf (k : CoreSel) (last : Bool) (g : Guard) (d a b : SReg) (fn : Nat) : Option Instr :=
  match fn with
  | 0x00 => some (.add k g d a b last)
  | 0x01 => some (.sub k g d a b last)
  | 0x02 => some (.and k g d a b last)
  | 0x03 => some (.or k g d a b last)
  | 0x04 => some (.xor k g d a b last)
  | 0x05 => some (.andn k g d a b last)
  | 0x06 => some (.sll k g d a b last)
  | 0x07 => some (.srl k g d a b last)
  | 0x08 => some (.sra k g d a b last)
  | 0x09 => some (.slt k g d a b last)
  | 0x0A => some (.sltu k g d a b last)
  | 0x0B => some (.min k g d a b last)
  | 0x0C => some (.max k g d a b last)
  | 0x0D => some (.minu k g d a b last)
  | 0x0E => some (.maxu k g d a b last)
  | 0x10 => some (.mul k g d a b last)
  | 0x11 => some (.mulh k g d a b last)
  | 0x12 => some (.mulhu k g d a b last)
  | 0x13 => some (.div k g d a b last)
  | 0x14 => some (.divu k g d a b last)
  | 0x15 => some (.rem k g d a b last)
  | 0x16 => some (.remu k g d a b last)
  | 0x17 => unused b.val (some (.clz k g d a last))
  | 0x18 => unused b.val (some (.popc k g d a last))
  | _ => none

/-- Major 0x07 (R216). -/
def cmpOf (k : CoreSel) (last : Bool) (g : Guard) (p : PReg) (a b : SReg) (fn : Nat) : Option Instr :=
  match fn with
  | 0 => some (.cmpEq k g p a b last)
  | 1 => some (.cmpNe k g p a b last)
  | 2 => some (.cmpLt k g p a b last)
  | 3 => some (.cmpGe k g p a b last)
  | 4 => some (.cmpLtu k g p a b last)
  | 5 => some (.cmpGeu k g p a b last)
  | _ => none

/-- Major 0x09 (R216). -/
def predOf (k : CoreSel) (last : Bool) (g : Guard) (d a b : PReg) (fn : Nat) : Option Instr :=
  match fn with
  | 0 => some (.pand k g d a b last)
  | 1 => some (.por k g d a b last)
  | 2 => some (.pxor k g d a b last)
  | 3 => some (.pandn k g d a b last)
  | 4 => unused b.val (some (.pnot k g d a last))
  | _ => none

/-- Major 0x10 (R219). -/
def fltOf (k : CoreSel) (last : Bool) (g : Guard) (d a b : SReg) (fn : Nat) : Option Instr :=
  match fn with
  | 0 => some (.fadd k g d a b last)
  | 1 => some (.fsub k g d a b last)
  | 2 => some (.fmul k g d a b last)
  | 3 => some (.fdiv k g d a b last)
  | 4 => unused b.val (some (.fsqrt k g d a last))
  | 5 => unused b.val (some (.fabs k g d a last))
  | 6 => unused b.val (some (.fneg k g d a last))
  | 7 => some (.fmin k g d a b last)
  | 8 => some (.fmax k g d a b last)
  | 9 => unused b.val (some (.fcvtWs k g d a last))
  | 10 => unused b.val (some (.fcvtSw k g d a last))
  | 11 => unused b.val (some (.fcvtSwu k g d a last))
  | _ => none

/-- Major 0x12 (R219). -/
def fcmpOf (k : CoreSel) (last : Bool) (g : Guard) (p : PReg) (a b : SReg) (fn : Nat) : Option Instr :=
  match fn with
  | 0 => some (.fcmpEq k g p a b last)
  | 1 => some (.fcmpLt k g p a b last)
  | 2 => some (.fcmpLe k g p a b last)
  | 3 => some (.fcmpUn k g p a b last)
  | _ => none

/-- Major 0x13 (R220). -/
def cxOf (n : Fin 8) (last : Bool) (g : Guard) (rd ra rb fn : Nat) : Option Instr :=
  match fn with
  | 0 => do some (.cadd n g (← cregOf rd) (← cregOf ra) (← cregOf rb) last)
  | 1 => do some (.csub n g (← cregOf rd) (← cregOf ra) (← cregOf rb) last)
  | 2 => do some (.cmul n g (← cregOf rd) (← cregOf ra) (← cregOf rb) last)
  | 3 => do some (.cmulc n g (← cregOf rd) (← cregOf ra) (← cregOf rb) last)
  | 4 => unused rb (do some (.cconj n g (← cregOf rd) (← cregOf ra) last))
  | 5 => do some (.cscale n g (← cregOf rd) (← cregOf ra) (sregOf rb) last)
  | 6 => unused rb (do some (.cmag2 n g (sregOf rd) (← cregOf ra) last))
  | 7 => unused rb (do some (.cabs n g (sregOf rd) (← cregOf ra) last))
  | 8 => unused rb (do some (.carg n g (sregOf rd) (← cregOf ra) last))
  | 9 => unused rb (do some (.cre n g (sregOf rd) (← cregOf ra) last))
  | 10 => unused rb (do some (.cim n g (sregOf rd) (← cregOf ra) last))
  | 11 => do some (.cpack n g (← cregOf rd) (sregOf ra) (sregOf rb) last)
  | _ => none

/-- ph.rd (R228): fn[6:5] is 0, k is fn[4], the harmonic fn[3:0] lies in 1 to 15. -/
def phOpOf (n : Fin 8) (last : Bool) (g : Guard) (rd ra rb fn : Nat) : Option Instr :=
  if 32 ≤ fn ∨ fn % 16 = 0 ∨ rb ≠ 0 then none
  else do some (.phRd n g (← cregOf rd) (sregOf ra) ⟨fn % 16, Nat.mod_lt _ (by decide)⟩ (fn / 16 == 1) last)

/-- Major 0x35 (R228): the instance is the rb field. -/
def cvOf (n : Fin 8) (last : Bool) (g : Guard) (rd ra : Nat) (i : Fin 32) (fn : Nat) : Option Instr :=
  match fn with
  | 0 => some (.cvStep n g (sregOf rd) (sregOf ra) i last)
  | 1 => unused ra (some (.cvRd n g (sregOf rd) i last))
  | 2 => unused rd (unused ra (some (.cvClr n g i last)))
  | 3 => unused rd (some (.cvSet n g i (sregOf ra) last))
  | _ => none

/-- Major 0x36 (R228); a base register of three lies at most at c13 (R239). -/
def sqOf (n : Fin 8) (last : Bool) (g : Guard) (rd ra rb fn : Nat) : Option Instr :=
  match fn with
  | 0 => if rd ≤ 13 ∧ ra ≤ 13 then unused rb (do some (.sqSeq n g (← cregOf rd) (← cregOf ra) last)) else none
  | 1 => if ra ≤ 13 ∧ rb ≤ 13 then do some (.sqPwr n g (← cregOf rd) (← cregOf ra) (← cregOf rb) last) else none
  | 2 => do some (.sqPwr1 n g (← cregOf rd) (← cregOf ra) (← cregOf rb) last)
  | _ => none

/-- Major 0x37 (R227): tick.end, and rdsr with its number in the ra field. -/
def tickOf (n : Fin 8) (last : Bool) (g : Guard) (rd ra rb fn : Nat) : Option Instr :=
  match fn with
  | 0 => unused rd (unused ra (unused rb (some (.tickEnd n g last))))
  | 1 => unused rb (if h : ra < 13 then some (.rdsr n g (sregOf rd) ⟨ra, h⟩ last) else none)
  | _ => none

/-- Major 0x3F (R232): tk.act names an event task, 8 to 15. -/
def taskOf (g : Guard) (rd ra rb fn : Nat) : Option Instr :=
  match fn with
  | 0x00 => unused rd (unused ra (unused rb (some (.tkEnd g))))
  | 0x01 => unused rd (unused rb (if h : ra < 16 then (if 8 ≤ ra then some (.tkAct g ⟨ra, h⟩) else none) else none))
  | 0x02 => unused ra (unused rb (some (.rdtime g (sregOf rd))))
  | 0x10 => some (.bmxOr g (sregOf rd) (sregOf ra) (sregOf rb))
  | 0x11 => some (.bmxAnd g (sregOf rd) (sregOf ra) (sregOf rb))
  | _ => none

/-- Major 0x0E (R217). -/
def jumpOf (k : CoreSel) (last : Bool) (g : Guard) (rd ra rb fn : Nat) : Option Instr :=
  match fn with
  | 0 => unused rd (unused rb (some (.jr k g (sregOf ra) last)))
  | 1 => unused rd (unused rb (some (.callr k g (sregOf ra) last)))
  | 2 => unused rd (unused ra (unused rb (some (.ret k g last))))
  | _ => none

/-- Syllables of format R by major and fn. -/
def rOf (k : CoreSel) (last : Bool) (major rd ra rb : Nat) (g : Guard) (fn : Nat) : Option Instr :=
  let d := sregOf rd
  let a := sregOf ra
  let b := sregOf rb
  match major with
  | 0x01 => intOf k last g d a b fn
  | 0x07 => do cmpOf k last g (← pregOf rd) a b fn
  | 0x09 => do predOf k last g (← pregOf rd) (← pregOf ra) (← pregOf rb) fn
  | 0x0E => jumpOf k last g rd ra rb fn
  | 0x10 => fltOf k last g d a b fn
  | 0x11 => match fn with
    | 0 => some (.fmadd k g d a b last)
    | 1 => some (.fmsub k g d a b last)
    | _ => none
  | 0x12 => do fcmpOf k last g (← pregOf rd) a b fn
  | 0x13 => onPe k fun n => cxOf n last g rd ra rb fn
  | 0x25 => onPe k fun n => unused fn (unused (rd % 2) (some (.ldgr n g d a b last)))
  | 0x34 => onPe k fun n => phOpOf n last g rd ra rb fn
  | 0x35 => onPe k fun n => cvOf n last g rd ra b fn
  | 0x36 => onPe k fun n => sqOf n last g rd ra rb fn
  | 0x37 => onPe k fun n => tickOf n last g rd ra rb fn
  | 0x3F => onSl k (taskOf g rd ra rb fn)
  | _ => none

/-- Timer syllables (R230): [20:19] of the word is `ra / 8`, pa its low 3 bits; the timer number is imm12. -/
def timerOf (major rd ra : Nat) (t : Fin 2048) (g : Guard) : Option Instr :=
  match major, ra / 8 with
  | 0x3C, 0 => do some (.ton g (← pregOf rd) (← pregOf (ra % 8)) t)
  | 0x3C, 1 => do some (.tof g (← pregOf rd) (← pregOf (ra % 8)) t)
  | 0x3C, 2 => do some (.tpl g (← pregOf rd) (← pregOf (ra % 8)) t)
  | 0x3D, 0 => unused (ra % 8) (some (.tpre g t (sregOf rd)))
  | 0x3D, 1 => unused (ra % 8) (some (.tel g (sregOf rd) t))
  | 0x3D, 2 => unused rd (unused (ra % 8) (some (.trst g t)))
  | _, _ => none

/-- edg (R231). -/
def edgeOf (rd ra : Nat) (imm : BitVec 12) (g : Guard) : Option Instr :=
  if h : ra / 8 < 3 then do some (.edg g (← pregOf rd) (← pregOf (ra % 8)) ⟨imm.toNat, imm.isLt⟩ ⟨ra / 8, h⟩) else none

/-- Verdict access (R225, R226): ra shall be s0. -/
def verdictOf (n : Fin 8) (last : Bool) (major rd ra : Nat) (imm : BitVec 12) (g : Guard) : Option Instr :=
  match major with
  | 0x30 => unused ra (some (.vwr n g (sregOf rd) imm last))
  | 0x31 => unused ra (some (.vset n g (sregOf rd) imm last))
  | 0x32 => unused ra (some (.vclr n g (sregOf rd) imm last))
  | _ => unused ra (some (.vrd n g (sregOf rd) imm last))

/-- ldg (R223): channel in the ra field, age in imm12, an even destination. -/
def ldgOf (n : Fin 8) (last : Bool) (rd ra : Nat) (imm : BitVec 12) (g : Guard) : Option Instr :=
  if h : ra < 24 ∧ imm.toNat < 256 then unused (rd % 2) (some (.ldg n g (sregOf rd) ⟨ra, h.1⟩ ⟨imm.toNat, h.2⟩ last)) else none

/-- Syllables of format I by major. -/
def iOf (k : CoreSel) (last : Bool) (major rd ra : Nat) (imm : BitVec 12) (g : Guard) : Option Instr :=
  let d := sregOf rd
  let a := sregOf ra
  match major with
  | 0x02 => some (.addi k g d a imm last)
  | 0x03 => some (.andi k g d a imm last)
  | 0x04 => some (.ori k g d a imm last)
  | 0x05 => some (.xori k g d a imm last)
  | 0x20 => some (.ldW k g d a imm last)
  | 0x21 => some (.stW k g d a imm last)
  | 0x22 => onPe k fun n => do some (.ldC n g (← cregOf rd) a imm last)
  | 0x23 => onPe k fun n => do some (.stC n g (← cregOf rd) a imm last)
  | 0x24 => onPe k fun n => ldgOf n last rd ra imm g
  | 0x30 => onPe k fun n => verdictOf n last 0x30 rd ra imm g
  | 0x31 => onPe k fun n => verdictOf n last 0x31 rd ra imm g
  | 0x32 => onPe k fun n => verdictOf n last 0x32 rd ra imm g
  | 0x33 => onPe k fun n => verdictOf n last 0x33 rd ra imm g
  | 0x38 => onSl k (unused ra (some (.ild g d imm)))
  | 0x39 => onSl k (unused ra (some (.ist g imm d)))
  | 0x3A => onSl k (do some (.ildb g (← pregOf rd) imm a))
  | 0x3B => onSl k (do some (.istb g imm a (← pregOf rd)))
  | 0x3E => onSl k (edgeOf rd ra imm g)
  | _ => onSl k (if h : imm.toNat < 2048 then timerOf major rd ra ⟨imm.toNat, h⟩ g else none)

/-- Shifts by an immediate (R215). -/
def sOf (k : CoreSel) (last : Bool) (rd ra sh : Nat) (g : Guard) (fn : Nat) : Option Instr :=
  match fn with
  | 0 => some (.slli k g (sregOf rd) (sregOf ra) (sregOf sh) last)
  | 1 => some (.srli k g (sregOf rd) (sregOf ra) (sregOf sh) last)
  | 2 => some (.srai k g (sregOf rd) (sregOf ra) (sregOf sh) last)
  | _ => none

/-- li, lih and fli (R215); imm21[20:16] of lih shall be zero. -/
def liOf (k : CoreSel) (last : Bool) (major rd : Nat) (imm : BitVec 21) : Option Instr :=
  match major with
  | 0x0A => some (.li k (sregOf rd) imm last)
  | 0x0B => unused (imm.toNat / 2 ^ 16) (some (.lih k (sregOf rd) (BitVec.ofNat 16 imm.toNat) last))
  | _ => some (.fli k (sregOf rd) imm last)

/-- The syllable a word's fields stand for. A loop whose count stands in a register does not use its count field (R206, R218). -/
def opOf (k : CoreSel) (last : Bool) (major : Nat) (x : Fields) : Option Instr :=
  match x with
  | .r rd ra rb g fn => rOf k last major rd ra rb g fn
  | .i rd ra imm g => iOf k last major rd ra imm g
  | .s rd ra sh g fn => sOf k last rd ra sh g fn
  | .li rd imm => liOf k last major rd imm
  | .b g link off => some (if link then .call k g off last else .br k g off last)
  | .lp rs count body => if rs % 32 ≠ 0 ∧ count ≠ 0 then none else some (.loop k (sregOf rs) count body last)

/-- The syllable that a word stands for in a slot of a PE bundle, or in SL code (R204, R208, R210, R211); none for a reserved major
or fn, a major that the slot or profile does not take, and a field that shall be zero and is not. -/
def decodeSyl (k : CoreSel) (slot : Slot) (last : Bool) (w : Word) : Option Instr :=
  if w = 0 then some (.nop k last)
  else match majorRow (bitsOf w 31 26) with
    | none => none
    | some m =>
      let taken := match k with | .pe _ => m.slot == some slot | .sl => m.sl
      if taken then opOf k last m.major (fieldsOf m.fmt w) else none

/-- The four syllables of a PE bundle from its words, slot A first (R208); none where one of them stands for nothing. -/
def decodeBundle (n : Fin 8) (w : Nat → Word) : Option (List Instr) := do
  let a ← decodeSyl (.pe n) .a false (w 0)
  let f ← decodeSyl (.pe n) .f false (w 1)
  let l ← decodeSyl (.pe n) .l false (w 2)
  let x ← decodeSyl (.pe n) .x true (w 3)
  some [a, f, l, x]

end Sys2Proof.Machine
end

