-- ==== Sys2Proof/Machine/ProgCheck.lean ====
section
/-! DEFINITION. What the load engine checks of an image's programs (R183, R184, R239, R248): rows 1 to 12 of R239 over sections,
shared routines and tasks, and the class-0 bound of each section from the instructions themselves. -/

namespace Sys2Proof.Machine

/-! ### Code -/

/-- A program's code by address: the syllables of a bundle, or the one syllable of SL; none where a word there stands for nothing. -/
abbrev Code := Nat → Option (List Instr)

/-- Word at `a` of a memory. -/
def memWord (m : List Host.Cell) (a : Nat) : Word := BitVec.ofNat 32 (leNat (memRds m a 4))

/-- The load engine rewrites [lo, hi) of the model's memory from the parts of an image's placement blocks that lie there
(R465, R545). -/
def loadRange (m : List Host.Cell) (bl : List (Nat × List Byte)) (lo hi : Nat) : List Host.Cell :=
  bl.foldl (fun a b => memWrs a (max lo b.1) ((b.2.drop (lo - b.1)).take (hi - max lo b.1))) (memClear m lo hi)

/-- The code that an image places in a core's instruction memory (R545 kind 5). -/
def peCode (i : Image) (n : Fin 8) : Code :=
  let m := loadRange [] i.blocks (ecInstrBase n) (ecInstrBase n + 0x10000)
  fun pc => decodeBundle n fun k => memWord m (ecInstrBase n + 16 * pc + 4 * k)

/-- The code that an image places in SC SRAM (R545 kind 8). -/
def slCode (i : Image) : Code :=
  let m := loadRange [] i.blocks scBase (scBase + 0x80000)
  fun pc => (decodeSyl .sl .a true (memWord m (scBase + 4 * pc))).map fun x => [x]

/-- A stretch of code, both ends included: a section, a shared routine, a task. -/
structure CodeRange where
  first : Nat
  last : Nat
  deriving DecidableEq, Repr

def CodeRange.holds (u : CodeRange) (pc : Nat) : Bool := decide (u.first ≤ pc) && decide (pc ≤ u.last)

/-- The addresses of a stretch of code. -/
def CodeRange.addrs (u : CodeRange) : List Nat := (List.range (u.last + 1 - u.first)).map (u.first + ·)

/-- The syllables at an address; nothing where there is no code. -/
def sylsAt (c : Code) (pc : Nat) : List Instr := (c pc).getD []

/-! ### Rows 3 and 4: registers written -/

/-- The predicate that a syllable writes. -/
def writesP (i : Instr) : Option PReg :=
  match i with
  | .cmpEq _ _ p _ _ _ | .cmpNe _ _ p _ _ _ | .cmpLt _ _ p _ _ _ | .cmpGe _ _ p _ _ _ | .cmpLtu _ _ p _ _ _ | .cmpGeu _ _ p _ _ _ => some p
  | .pand _ _ p _ _ _ | .por _ _ p _ _ _ | .pxor _ _ p _ _ _ | .pandn _ _ p _ _ _ | .pnot _ _ p _ _ => some p
  | .fcmpEq _ _ p _ _ _ | .fcmpLt _ _ p _ _ _ | .fcmpLe _ _ p _ _ _ | .fcmpUn _ _ p _ _ _ => some p
  | .ildb _ p _ _ | .ton _ p _ _ | .tof _ p _ _ | .tpl _ p _ _ | .edg _ p _ _ _ => some p
  | _ => none

/-- Row 3: no register but s0 is written twice in a bundle, and p0 is not written. -/
def writesOk (l : List Instr) : Bool :=
  let d := l.flatMap fun i => (sylTime {} i).dst
  decide d.Nodup && l.all fun i => (writesP i).all fun p => p.val != 0

/-! ### Rows 5 and 6: operands against the section -/

/-- The offset of a verdict write, and of any verdict access. -/
def verdictWriteOff (i : Instr) : Option Nat :=
  match i with
  | .vwr _ _ _ o _ | .vset _ _ _ o _ | .vclr _ _ _ o _ => some o.toNat
  | _ => none

def verdictOff (i : Instr) : Option Nat :=
  match i with
  | .vrd _ _ _ o _ => some o.toNat
  | i => verdictWriteOff i

/-- The curve instance that a syllable names. -/
def cvInst (i : Instr) : Option Nat :=
  match i with
  | .cvStep _ _ _ _ x _ | .cvRd _ _ _ x _ | .cvClr _ _ x _ | .cvSet _ _ x _ _ => some x.val
  | _ => none

/-- Rows 5 and 6 for a syllable that runs for class `cls` with the curve instances `cv` declared. -/
def operandsOk (cls : Nat) (cv : List Nat) (i : Instr) : Bool :=
  ((verdictOff i).all fun o => o % 4 == 0 && decide (o ≤ 0x8C)) && ((verdictWriteOff i).all fun o => verdictMask o cls != 0)
    && (cvInst i).all cv.contains

/-! ### Rows 7 and 8: branches and loops -/

/-- The body of the loop at `pc`, first and last address. -/
def loopAt (c : Code) (pc : Nat) : Option CodeRange :=
  (sylsAt c pc).findSome? fun i => match i with | .loop _ _ _ b _ => some ⟨pc + 1, pc + 1 + b.toNat⟩ | _ => none

/-- Does the loop at `pc` have an immediate count of 0 (row 5)? -/
def loopZero (c : Code) (pc : Nat) : Bool :=
  (sylsAt c pc).any fun i => match i with | .loop _ r k _ _ => r.val == 0 && k == 0 | _ => false

/-- The offset of the branch or call at `pc`. -/
def branchOff (c : Code) (pc : Nat) : Option Int :=
  (sylsAt c pc).findSome? fun i => match i with | .br _ _ o _ => some o.toInt | .call _ _ o _ => some o.toInt | _ => none

/-- Is the syllable a control transfer, a loop or tick.end (row 8)? -/
def steers (i : Instr) : Bool :=
  match i with
  | .br .. | .call .. | .jr .. | .callr .. | .ret .. | .loop .. | .tickEnd .. => true
  | _ => false

/-- Row 7 for the branch at `pc` of a program of `len` addresses with the loop bodies `bodies`. -/
def branchOk (len : Nat) (bodies : List CodeRange) (pc : Nat) (o : Int) : Bool :=
  let t := (pc : Int) + o
  o != 0 && decide (0 ≤ t) && decide (t < len) && bodies.all fun b => !b.holds t.toNat || b.holds pc

/-- Rows 1, 2, 4 and 7, with row 5 for loops, at one address. -/
def placeOk (c : Code) (len : Nat) (bodies : List CodeRange) (pc : Nat) : Bool :=
  (c pc).isSome && writesOk (sylsAt c pc) && !loopZero c pc && (branchOff c pc).all (branchOk len bodies pc)

/-- Rows 7 and 8 for a loop body. -/
def bodyOk (c : Code) (len : Nat) (b : CodeRange) : Bool := decide (b.last < len) && !(sylsAt c b.last).any steers

/-! ### Row 9: loops and calls -/

/-- The target of the call at `pc`. -/
def callAt (c : Code) (pc : Nat) : Option Nat :=
  (sylsAt c pc).findSome? fun i => match i with | .call _ _ o _ => some ((pc : Int) + o.toInt).toNat | _ => none

/-- The routine that holds an address. -/
def routineOf (rs : List CodeRange) (pc : Nat) : Option CodeRange := rs.find? (·.holds pc)

/-- Row 9, over the stretches of code `rs`, for one of them entered inside `encl` loops, `fuel` more calls allowed: at most 4 loops nest, and the calls reach
neither depth 9 nor, by it, a cycle. -/
def nestOk (c : Code) (rs : List CodeRange) : (fuel : Nat) → (encl : Nat) → CodeRange → Bool
  | 0, _, _ => false
  | k + 1, encl, u =>
    let bodies := u.addrs.filterMap (loopAt c)
    u.addrs.all fun pc =>
      let e := encl + (bodies.filter (·.holds pc)).length
      (loopAt c pc).all (fun _ => decide (e + 1 ≤ 4))
        && match (callAt c pc).bind (routineOf rs) with
          | some v => nestOk c rs k e v
          | none => true

/-! ### Row 10: class 0 (R183) -/

/-- Is the syllable one that class 0 may not use: its cycle count varies, or it is a call or an indirect transfer (R183, R233)? -/
def class0Bars (i : Instr) : Bool :=
  match i with
  | .div .. | .divu .. | .rem .. | .remu .. | .call .. | .jr .. | .callr .. | .ret .. => true
  | .loop _ r _ _ _ => r.val != 0
  | _ => false

/-- Rules 1 to 4 of R183 at one address of a class-0 section. -/
def class0At (c : Code) (u : CodeRange) (pc : Nat) : Bool :=
  !(sylsAt c pc).any class0Bars
    && (branchOff c pc).all (fun o => decide (0 < o) && u.holds ((pc : Int) + o).toNat)
    && (loopAt c pc).all (fun b => u.holds b.last)
    && (sylsAt c pc).all fun i => match i with
      | .tickEnd _ g _ => pc == u.last && g == { pr := 0, pn := false }
      | _ => true

/-- Does the stretch end with tick.end (R183)? -/
def endsTick (c : Code) (u : CodeRange) : Bool := (sylsAt c u.last).any fun i => match i with | .tickEnd .. => true | _ => false

/-- The verdict writes of a bundle that go to TRIPOUT, START or TRIP. -/
def c0Writes (l : List Instr) : Nat := (l.filter fun i => (verdictWriteOff i).any fun o => decide (o ≤ 8)).length

/-- The greater of two counts, none where one is missing. -/
def bothMax : Option Nat → Option Nat → Option Nat
  | some a, some b => some (max a b)
  | _, _ => none

/-- A bundle of a path: what its branch or loop does to the registers, with the guard of a branch decided. -/
def pathFlow (l : List Instr) (f : RegFile) : Option Flow :=
  l.findSome? fun i => match i with
    | .br _ g o _ => if f.guard g then some (.jump ((f.pc : Int) + o.toInt).toNat) else none
    | .loop _ _ k b _ => some (.loop ⟨f.pc + 1, f.pc + 1 + b.toNat, k.toNat⟩)
    | _ => none

/-- The register files that decide the guard of a bundle's branch, each way it may go: one where there is no branch, or its guard is
p0. -/
def pathWays (l : List Instr) (f : RegFile) : List RegFile :=
  match l.findSome? fun i => match i with | .br _ g _ _ => some g | _ => none with
  | some g => if g.pr.val = 0 then [f] else [f.pp g.pr.val true, f.pp g.pr.val false]
  | none => [f]

/-- The largest cycle count over all paths from a point of a section, at most `fuel` bundles long; none where a path is longer, leaves
the code, or makes more than 4 verdict writes (R183, R235). -/
def pathMax (c : Code) : (fuel : Nat) → RegFile → Pipe → (writes : Nat) → Option Nat
  | 0, _, _, _ => none
  | k + 1, f, p, w =>
    match c f.pc with
    | none => none
    | some l =>
      let w1 := w + c0Writes l
      if 4 < w1 then none
      else if l.any (fun i => match i with | .tickEnd .. => true | _ => false) then some (p.issue (l.map (sylTime f))).used
      else
        (pathWays l f).foldl (fun a g =>
          let g1 := match pathFlow l g with | some fl => g.take fl | none => g.advance
          bothMax a (pathMax c k g1 (p.issue (l.map (sylTime g))) w1)) (some 0)

/-- b_j of a class-0 section, none where a rule of R183 fails. Each bundle takes a cycle, so no path within the budget is longer than
it. -/
def boundOf (c : Code) (u : CodeRange) : Option Nat :=
  if u.addrs.all (class0At c u) && endsTick c u then pathMax c 1200 { pc := u.first } {} 0 else none

/-! ### The programs of an image -/

/-- The stretch of section `e` of core `n`, none where it is empty. -/
def sectionUnit (i : Image) (n : Nat) (e : Nat × Nat) : Option CodeRange :=
  let k := 12 * n + 3 * e.1 + e.2
  if i.entry.any (·.1 == k) then some ⟨mget i.entry k 0, max (mget i.entry k 0) (mget i.secLast k (mget i.entry k 0))⟩ else none

def unitsOf (l : List (Nat × Nat)) : List CodeRange := l.map fun e => ⟨e.1, e.2⟩

def routinesOf (i : Image) (n : Nat) : List CodeRange := unitsOf (mget i.routines n [])

/-- The twelve sections of a core, by class and local bay. -/
def secNames : List (Nat × Nat) := (List.range 12).map fun k => (k / 3, k % 3)

/-- The routines that a stretch of code reaches by calls, `fuel` deep, itself among them. -/
def reaches (c : Code) (rs : List CodeRange) : (fuel : Nat) → CodeRange → List CodeRange
  | 0, u => [u]
  | k + 1, u => u :: (u.addrs.filterMap fun pc => (callAt c pc).bind (routineOf rs)).flatMap (reaches c rs k)

/-- Rows 5 and 6 for a section and the routines it calls. -/
def sectionOperands (i : Image) (n : Nat) (c : Code) (e : Nat × Nat) (u : CodeRange) : Bool :=
  (reaches c (routinesOf i n) 8 u).all fun v => v.addrs.all fun pc => (sylsAt c pc).all (operandsOk e.1 (mget i.cvDecl (3 * n + e.2) []))

/-- Rows 5 and 6 for a shared routine, called or not: its syllables may run for some class and bay of the core (DEDUCED, assumption 185). -/
def routineOperands (i : Image) (n : Nat) (c : Code) (u : CodeRange) : Bool :=
  secNames.any fun e => u.addrs.all fun pc => (sylsAt c pc).all (operandsOk e.1 (mget i.cvDecl (3 * n + e.2) []))

/-- Rows 1 to 5, 7 and 8 over stretches of code of a program of `len` addresses. -/
def unitsOk (c : Code) (len : Nat) (us : List CodeRange) : Bool :=
  let bodies := us.flatMap fun u => u.addrs.filterMap (loopAt c)
  (us.all fun u => decide (u.last < len) && u.addrs.all (placeOk c len bodies)) && bodies.all (bodyOk c len)

/-- The bound of a class-0 section; an empty one counts 0 (R183). -/
def sectionBound (i : Image) (n : Fin 8) (j : Nat) : Option Nat :=
  match sectionUnit i n (0, j) with
  | none => some 0
  | some u => boundOf (peCode i n) u

/-- Does the image record the recomputed bound of a class-0 section (R184)? -/
def boundRecorded (i : Image) (n : Fin 8) (j : Nat) : Bool :=
  match sectionUnit i n (0, j) with
  | none => true
  | some _ => (sectionBound i n j).isSome && (i.bounds.find? fun e => e.1 == 3 * n.val + j).map (·.2) == sectionBound i n j

/-- B of a core (R183). -/
def totalBound (i : Image) (n : Fin 8) : Nat := ((List.range 3).map fun j => 2 + (sectionBound i n j).getD 0).sum

/-- R248: the parameter block of every declared curve instance lies in data memory, for every setting group that the bay defines. -/
def curveBlocksOk (i : Image) (n j : Nat) : Bool :=
  (mget i.cvDecl (3 * n + j) []).all fun x => (List.range 8).all fun g =>
    !(mget i.fields (R.ELCn_BAYj_SG_DEF n j).key (R.ELCn_BAYj_SG_DEF n j).rst).testBit g
      || decide (mget i.sgBase (24 * n + 8 * j + g) 0 + 32 * x + 32 ≤ 0x20000)

/-- R239 and R184 for an element core. -/
def coreCodeOk (i : Image) (n : Fin 8) : Bool :=
  let c := peCode i n
  let rs := routinesOf i n
  let secs := secNames.filterMap fun e => (sectionUnit i n e).map fun u => (e, u)
  let us := secs.map (·.2) ++ rs
  unitsOk c (mget i.progLen n 4096) us && us.all (nestOk c us 9 0)
    && (secs.all fun e => sectionOperands i n c e.1 e.2) && rs.all (routineOperands i n c)
    && (List.range 3).all (fun j => boundRecorded i n j && curveBlocksOk i n j) && decide (totalBound i n ≤ 1200)

/-! ### Rows 11 and 12: SL tasks -/

/-- The stretch of a task, none where it is empty. -/
def taskUnit (i : Image) (t : Nat) : Option CodeRange :=
  if i.taskEntry.any (·.1 == t) then some ⟨mget i.taskEntry t 0, max (mget i.taskEntry t 0) (mget i.taskLast t (mget i.taskEntry t 0))⟩ else none

/-- Everything a task can run by static calls. -/
def taskCode (i : Image) (c : Code) (u : CodeRange) : List Instr :=
  (reaches c (unitsOf i.slRoutines) 8 u).flatMap fun v => v.addrs.flatMap (sylsAt c)

/-- Row 11: image words within the declared sizes. -/
def imageWordOk (io : Nat × Nat) (i : Instr) : Bool :=
  match i with
  | .ild _ _ w | .ildb _ _ w _ => decide (w.toNat < io.1)
  | .ist _ w _ | .istb _ w _ _ => decide (w.toNat < io.2)
  | _ => true

/-- The timer that a syllable evaluates, with its kind; any timer or edge detector it names, detectors numbered from 2,048 on. -/
def timerKind (i : Instr) : Option (Nat × Nat) :=
  match i with
  | .ton _ _ _ t => some (t.val, 0)
  | .tof _ _ _ t => some (t.val, 1)
  | .tpl _ _ _ t => some (t.val, 2)
  | _ => none

def timerUsed (i : Instr) : Option Nat :=
  match i with
  | .tpre _ t _ | .tel _ _ t | .trst _ t => some t.val
  | .edg _ _ _ e _ => some (2048 + e.val)
  | i => (timerKind i).map (·.1)

/-- Row 12: no timer is evaluated with two kinds, in the tasks' code `ts` or the routines' code `rs`, and none, nor an edge detector, is
used by two tasks. -/
def timersOk (ts : List (Nat × List Instr)) (rs : List Instr) : Bool :=
  let kinds := (ts.flatMap fun e => e.2.filterMap timerKind) ++ rs.filterMap timerKind
  let uses := ts.flatMap fun e => (e.2.filterMap timerUsed).map fun k => (k, e.1)
  (kinds.all fun a => kinds.all fun b => a.1 != b.1 || a.2 == b.2) && uses.all fun a => uses.all fun b => a.1 != b.1 || a.2 == b.2

/-- R286: each output point has one owning task. -/
def outputsOwned (i : Image) : Bool :=
  let own := i.outBits.map (fun e => (e.1 / 32 / 4096, e.2)) ++ i.outWords.map fun e => (e.1 / 4096, e.2)
  own.all fun e => own.all fun f => e.2 != f.2 || e.1 == f.1

/-- Row 11 for a shared routine, called or not: its image words lie within the declared sizes of some task (DEDUCED, assumption 185). -/
def routineWords (i : Image) (l : List Instr) : Bool := (List.range 16).any fun t => l.all (imageWordOk (mget i.taskIo t (0, 0)))

/-- R239 for the scheme cores. -/
def schemeCodeOk (i : Image) : Bool :=
  let c := slCode i
  let rs := unitsOf i.slRoutines
  let us := (List.range 16).filterMap fun t => (taskUnit i t).map fun u => (t, u)
  let all := us.map (·.2) ++ rs
  let code (u : CodeRange) : List Instr := u.addrs.flatMap (sylsAt c)
  unitsOk c i.slLen all && all.all (nestOk c all 9 0)
    && (us.all fun e => (taskCode i c e.2).all (imageWordOk (mget i.taskIo e.1 (0, 0)))) && (rs.all fun u => routineWords i (code u))
    && timersOk (us.map fun e => (e.1, taskCode i c e.2)) (rs.flatMap code)

/-- R239 and R184: the load engine's verdict on an image's programs. -/
def codeOk (i : Image) : Bool := schemeCodeOk i && (List.finRange 8).all (coreCodeOk i)

/-- ELCn_C0BOUND shows B as accepted (R184). -/
def showBounds (i : Image) (s : State) : State := (List.finRange 8).foldl (fun a (n : Fin 8) => a.wr (R.ELCn_C0BOUND_BOUND n.val) (totalBound i n)) s

end Sys2Proof.Machine
end

