-- ==== Sys2Proof/Machine/Elc.lean ====
section
/-! DEFINITION. The sequencer of an element core (R177 to R200): tick contexts, the order of sections, notifications,
budget breaches, bay modes, setting groups, block resets. -/

namespace Sys2Proof.Machine

/-- The sections a new context has to run or pass, in the order of R178. -/
def allSections : List (Nat × Nat) :=
  [(0, 0), (0, 1), (0, 2), (1, 0), (1, 1), (1, 2), (2, 0), (2, 1), (2, 2), (3, 0), (3, 1), (3, 2)]

/-- The entry bundle of a section, none where the image leaves it empty (R178); a context opened before an
exchange keeps the old table (R300). -/
def entryOf (s : State) (n : Nat) (x : Ctx) (e : Nat × Nat) : Option Nat :=
  let k := 12 * n + 3 * e.1 + e.2
  let t := x.tbl.getD s.img.entry
  if t.any (·.1 == k) then some (mget t k 0) else none

/-- Does a section run in context `x`: neither empty, nor of a bay that is OFF or FAILED in the context or waits for a
cycle boundary (R178, R187, R189)? -/
def runnable (s : State) (n : Nat) (x : Ctx) (e : Nat × Nat) : Bool :=
  (entryOf s n x e).isSome && decide (mget x.mode e.2 5 < 5) && decide (0 < mget x.mode e.2 5)
    && !(s.core n).await.contains e.2 && !(s.core n).reinit.contains e.2

/-- The sections of `x` with the ones it passes over taken out. -/
def trimCtx (s : State) (n : Nat) (x : Ctx) : Ctx := { x with rest := x.rest.filter (runnable s n x) }

/-- The budget counter over the dispatch of a class-0 section of local bay `j`: 2 cycles, and 1 for each bay passed since the one
before (R178, R185). -/
def Core.dispatchC0 (c : Core) (j : Nat) : Core := { c with c0Cnt := c.c0Cnt + 2 + (j - c.c0Bay), c0Bay := j + 1 }

/-- Starts section `e` of context `x` with the state of R202; it leaves the context's list when it ends. -/
def startSection (s : State) (n : Nat) (x : Ctx) (e : Nat × Nat) : State :=
  let r : Section := { tick := x.tick, cls := e.1, bay := e.2, rf := { pc := (entryOf s n x e).getD 0 } }
  s.modCore n fun c => { (if e.1 = 0 then c.dispatchC0 e.2 else c) with run := some r }

/-- Removes an ended section from its context. -/
def dropSection (c : Core) (tick : Nat) (e : Nat × Nat) : Core :=
  { c with ctxs := c.ctxs.map fun x => if x.tick = tick then { x with rest := x.rest.filter (· ≠ e) } else x }

/-- Is a context's class-2 work done, so that its snapshot is due (R176)? -/
def snapDue (x : Ctx) : Bool := !x.snapped && x.rest.all fun e => e.1 == 3

/-- Takes the snapshots that are due, oldest context first (R176). -/
def takeSnaps (s : State) (n : Nat) : List Ctx → State
  | [] => s
  | x :: t =>
    if snapDue x then
      takeSnaps ((verdictSnapshot s n x.tick x.stamp).modCore n fun c =>
        { c with ctxs := c.ctxs.map fun y => if y.tick = x.tick then { y with snapped := true } else y }) n t
    else takeSnaps s n t

/-- The tick contexts a core holds open, a held notification's included (R177, R181). -/
def Core.openCtxs (c : Core) : Nat := c.ctxs.length + c.held.length

/-- Closes the contexts whose sections have all ended or been dropped (R177). -/
def closeCtxs (s : State) (n : Nat) : State :=
  let s1 := takeSnaps s n (s.core n).ctxs
  let s2 := s1.modCore n fun c =>
    let l := c.ctxs.filter fun x => !x.rest.isEmpty
    { c with ctxs := l, excTicks := c.excTicks.filter fun t => l.any (·.tick == t) }
  s2.wr (R.ELCn_TICK_OPEN n) (s2.core n).openCtxs

/-- The first section of class 1 or 2 in the oldest context that has one (R179 step 5). -/
def firstMid (l : List Ctx) : Option (Ctx × (Nat × Nat)) :=
  match l with
  | [] => none
  | x :: t => match x.rest.find? fun e => e.1 == 1 || e.1 == 2 with
    | some e => some (x, e)
    | none => firstMid t

/-- The next section after the running one has ended (R178, R179): class 0 of the newest context, then the suspended
section, then classes 1 and 2 oldest context first, then class 3 of the newest context. -/
def dispatchNext (s : State) (n : Nat) : State :=
  let c := s.core n
  if c.run.isSome then s
  else
    match c.ctxs.getLast? with
    | none => s
    | some nw =>
      match nw.rest.find? fun e => e.1 == 0 with
      | some e => startSection s n nw e
      | none =>
        match c.shadow with
        | some sec => s.setCore n { c with run := some sec, shadow := none }
        | none =>
          match firstMid c.ctxs with
          | some (x, e) => startSection s n x e
          | none => match nw.rest.head? with
            | some e => startSection s n nw e
            | none => s

/-- Is a class-0 section of a context running, so that a notification is held (R182)? -/
def class0Running (c : Core) : Bool := match c.run with | some x => x.cls == 0 | none => false

/-- Does class 0 of the newest context still wait or run (R182)? -/
def class0Busy (c : Core) : Bool :=
  class0Running c || (match c.ctxs.getLast? with | some x => x.rest.any fun e => e.1 == 0 | none => false)

/-- R180: class-1 sections that have not ended when the second notification after their tick arrives. -/
def lagging (c : Core) : Bool := c.ctxs.any fun x => decide (2 ≤ x.lag) && x.rest.any fun e => e.1 == 1

/-- R180: QTIMED of the core and of its three status words. -/
def setQtimed (s : State) (n : Nat) (b : Bool) : State :=
  let s1 := (((s.wrb (R.ELCn_STAT_QTIMED n) b).wrb (R.ELCn_BAYj_VST_QTIMED n 0) b).wrb (R.ELCn_BAYj_VST_QTIMED n 1) b).wrb
    (R.ELCn_BAYj_VST_QTIMED n 2) b
  noteGcbs s1 fun x => qualHit s s1 (3 * n) x || qualHit s s1 (3 * n + 1) x || qualHit s s1 (3 * n + 2) x

/-- R179 steps 1 and 2: the running section goes to the shadow context, class-3 sections of older contexts are dropped. -/
def suspendOlder (s : State) (n : Nat) : State :=
  let c := s.core n
  let isC3 (x : Section) : Bool := x.cls == 3
  let dropped := (c.ctxs.map fun x => (x.rest.filter fun e => e.1 == 3).length).sum
  let live := c.run.filter fun x => !isC3 x
  let shadow := match live with | some x => some x | none => c.shadow.filter fun x => !isC3 x
  let c1 := { c with run := none, shadow := shadow,
                     ctxs := c.ctxs.map fun x => { x with rest := x.rest.filter fun e => e.1 != 3 } }
  let s1 := s.setCore n c1
  s1.wr (R.ELCn_DROP_C3 n) (s1.rd (R.ELCn_DROP_C3 n) + dropped)

/-- The budget counter's final value of a tick is recorded (R185), and class 0 of the tick is over (R434, R457). -/
def recordC0 (s : State) (n v : Nat) : State :=
  let s1 := s.wr (R.ELCn_C0LAST_LAST n) v
  (s1.wr (R.ELCn_C0MAX_MAX n) (max (s1.rd (R.ELCn_C0MAX_MAX n)) v)).modCore n fun c => { c with c0Done := true, c0At := some s.tb2Ns }

/-- The class-0 dispatch of a context begins: earlier work is suspended, the block of a breach ends, the budget counter starts
(R179, R185). A tick without a class-0 section passes three of them (assumption 130). -/
def openContext (s : State) (n : Nat) (x : Ctx) : State :=
  let s1 := suspendOlder s n
  let y := trimCtx s1 n x
  let s2 := s1.modCore n fun c => { c with ctxs := c.ctxs ++ [y], breach := false, c0Cnt := 0, c0Bay := 0, c0From := s.tb2Ns }
  let s3 := if y.rest.any fun e => e.1 == 0 then s2 else recordC0 s2 n 3
  closeCtxs (gateUpdate (vstAll s3 n)) n

/-- Held notifications follow one another as long as no class-0 section of an older tick waits or runs (R182). -/
def openHeld (s : State) (n : Nat) : List Ctx → State
  | [] => s
  | x :: t => if class0Busy (s.core n) then s else openHeld (openContext (s.modCore n fun c => { c with held := t }) n x) n t

/-- What follows once nothing runs: held notifications, then the next section (R178, R182). -/
def goOn (s : State) (n : Nat) : State :=
  let s1 := closeCtxs s n
  closeCtxs (dispatchNext (openHeld s1 n (s1.core n).held) n) n

/-- A notification's context opens, and its sections begin (R177, R179). -/
def beginContext (s : State) (n : Nat) (x : Ctx) : State := goOn (openContext s n x) n

/-- A tick notification that core `n` takes (R177 to R182): overrun, then the new context, held while class 0 of an older one
runs. -/
def notifyCore (s : State) (n : Nat) (x : Ctx) : State :=
  let s0 := s.wr (R.ELCn_TICKIX_TICK n) x.tick
  let s1 := s0.modCore n fun c => { c with ctxs := c.ctxs.map fun y => { y with lag := y.lag + 1 },
                                           held := c.held.map fun y => { y with lag := y.lag + 1 } }
  let s2 := if lagging (s1.core n) then
      ((setQtimed s1 n true).wrb (R.ELCn_STAT_LAG_STK n) true).sat1 (R.ELCn_CNT_LAGF n) |>.raiseLine 6 n
    else if s1.on (R.ELCn_STAT_QTIMED n) then setQtimed s1 n false else s1
  if class0Busy (s2.core n) || !(s2.core n).held.isEmpty then
    let s3 := s2.modCore n fun c => { c with held := c.held ++ [x] }
    s3.wr (R.ELCn_TICK_OPEN n) (s3.core n).openCtxs
  else beginContext s2 n x

/-- The running section ends (R178). A class-0 section adds its cycles to the budget counter, and the last one of its tick stops
it (R185, R235). -/
def endSection (s : State) (n : Nat) : State :=
  match (s.core n).run with
  | none => s
  | some x =>
    let s1 := s.modCore n fun c => dropSection { c with run := none, c0Cnt := c.c0Cnt + (if x.cls = 0 then x.pipe.used else 0) } x.tick
      (x.cls, x.bay)
    let lastC0 := x.cls == 0 && (s1.core n).ctxs.all fun y => y.tick != x.tick || y.rest.all fun e => e.1 != 0
    goOn (if lastC0 then recordC0 s1 n (s1.core n).c0Cnt else s1) n

/-- The core's latest tick, where its class 0 has ended by an exception in this very cycle (R237). -/
def excNow (s : State) (n : Nat) : Option Nat :=
  match (s.core n).c0Exc with
  | some e => if e.2 = (s.tbOf 2).val ∧ s.rd (R.ELCn_TICKIX_TICK n) = e.1 then some e.1 else none
  | none => none

/-- The tick whose class 0 a breach of the budget hits: the one that runs or waits, or has ended in the same cycle by an exception
(R185, R237). -/
def breachTick (s : State) (n : Nat) : Option Nat :=
  let c := s.core n
  if class0Running c then c.run.map (·.tick)
  else if class0Busy c then c.ctxs.getLast?.map (·.tick) else excNow s n

/-- The budget of class 0, in FAB cycles of 10 ns (R183, R185). -/
def c0Budget : Nat := 1200

/-- Has the budget counter of the tick in class 0 reached 1,200: FAB cycles since its dispatch, on TB2 (assumption 184)? -/
def budgetOut (s : State) (n : Nat) : Bool := decide ((s.core n).c0From + 10 * c0Budget ≤ s.tb2Ns)

/-- The budget breach of tick `t` (R185): the running class-0 section is aborted, the remaining ones do not run, the outputs are blocked,
no further class-0 word is staged, and the tick goes on with class 1. -/
def budgetBreach (s : State) (n t : Nat) : State :=
  let s1 := s.modCore n fun c => { c with
    run := if class0Running c then none else c.run,
    breach := true, noStage := some t,
    ctxs := c.ctxs.map fun x => if x.tick = t then { x with rest := x.rest.filter fun e => e.1 != 0 } else x }
  let s2 := ((s1.wrb (R.ELCn_STAT_BREACH_STK n) true).sat1 (R.ELCn_CNT_BREACH n)).raiseLine 5 n
  let s3 := (s2.wr (R.ELCn_C0LAST_LAST n) c0Budget).wr (R.ELCn_C0MAX_MAX n) (max (s2.rd (R.ELCn_C0MAX_MAX n)) c0Budget)
  goOn (gateUpdate (vstAll s3 n)) n

/-- C0_BUDGET_BREACH (R185): the counter reaches 1,200 before class 0 has ended; nothing where it has not. -/
def execC0BudgetBreach (n : Fin 8) (s : State) : Host.Outcome State Fault Refusal :=
  .next <|
    match breachTick s n with
    | none => s
    | some t => if budgetOut s n then budgetBreach s n t else s

/-! ### Bay modes and setting groups (R187 to R191) -/

/-- A request of a bay's mode, which BAY_MODE_REQUEST writes to REQ; 0, 6 and 7 are ignored. It reaches FAB for the next notification
(R187, R188). -/
def modeRequest (s : State) (n j m : Nat) : State :=
  if 1 ≤ m ∧ m ≤ 5 then
    let s1 := s.wr (R.ELCn_BAYj_MODE_REQ n j) m
    s1.modCore n fun c => { c with modeReq := if c.modeReq.contains j then c.modeReq else j :: c.modeReq }
  else s

/-- Does the image bind the mode of bay `b` to a scheme output point, so that host writes do not reach it (R286)? -/
def schemeMode (s : State) (b : Nat) : Bool := s.img.outWords.any (fun e => e.2 == .mode b) || s.img.outBits.any fun e => e.2 == .mode b

/-- A host write of a bay's mode request. -/
def hostMode (s : State) (n j m : Nat) : State := if schemeMode s (3 * n + j) then s else modeRequest s n j m

def execBayModeRequest (n : Fin 8) (j : Fin 3) (m : Fin 8) (s : State) : Host.Outcome State Fault Refusal :=
  .next (hostMode s n j m)

/-- The mode a bay is to take: REQ, or OFF on the way to STANDBY or HIBERNATE (R469). -/
def modeWanted (s : State) (n j : Nat) : Nat := if s.glb.trans = 1 ∨ s.glb.trans = 2 then 5 else s.rd (R.ELCn_BAYj_MODE_REQ n j)

/-- A pending mode request changes ACT at a notification, unless the core is FAILED, off or reloading (R188, R194). Leaving
OFF starts the reinitialisation of R189. -/
def applyMode (s : State) (n j : Nat) : State :=
  let c := s.core n
  if !c.modeReq.contains j ∨ s.rd (R.ELCn_STAT_STATE n) ≠ 1 ∨ c.reloaded then s
  else
    let m := modeWanted s n j
    let was := s.rd (R.ELCn_BAYj_MODE_ACT n j)
    let s1 := s.modCore n fun c => { c with
      modeReq := c.modeReq.filter (· ≠ j),
      reinit := if was = 5 ∧ m ≠ 5 then (if c.reinit.contains j then c.reinit else j :: c.reinit) else c.reinit }
    setAct s1 n j m

/-- [lo, hi) of the model's memory as the running image has it, without errors. -/
def rewrite (s : State) (lo hi : Nat) : State :=
  let outside (a : Nat) : Bool := !(decide (lo ≤ a) && decide (a < hi))
  { s with mem := loadRange s.mem s.img.blocks lo hi, eccBad := s.eccBad.filter outside, eccSoft := s.eccSoft.filter outside }

/-- BAY_REINIT_DONE: the bay's region of element-state memory holds the running image's initial values (R189); the sections
wait for the next cycle boundary. -/
def execBayReinitDone (n : Fin 8) (j : Fin 3) (s : State) : Host.Outcome State Fault Refusal :=
  .next <|
    if !(s.core n).reinit.contains j then s
    else
      let a := ecElemBase n + 0x2800 * j.val
      let s1 := rewrite s a (a + 0x2800)
      vstUpdate (s1.modCore n fun c => { c with reinit := c.reinit.filter (· ≠ j.val), await := j.val :: c.await }) n j

/-- SETTING_GROUP_REQUEST (R190): an undefined group is refused; the active group cancels a pending request. -/
def groupRequest (s : State) (n j g : Nat) : State :=
  if (s.rd (R.ELCn_BAYj_SG_DEF n j)).testBit g then
    (s.wr (R.ELCn_BAYj_SG_REQ n j) g).wrb (R.ELCn_BAYj_SG_PEND n j) (g != s.rd (R.ELCn_BAYj_SG_ACT n j))
  else (s.wrb (R.ELCn_BAYj_SG_SG_REFUSED n j) true).logIx 0x09 1 (3 * n + j)

def execSettingGroupRequest (n : Fin 8) (j : Fin 3) (g : Fin 8) (s : State) : Host.Outcome State Fault Refusal :=
  .next (groupRequest s n j g)

/-- A pending group takes effect at a cycle boundary: a tick that is a multiple of its N (R191). -/
def applyGroup (s : State) (n j tick nn : Nat) : State :=
  if s.on (R.ELCn_BAYj_SG_PEND n j) && tick % nn == 0 then
    let g := s.rd (R.ELCn_BAYj_SG_REQ n j)
    (s.wr (R.ELCn_BAYj_SG_ACT n j) g).wrb (R.ELCn_BAYj_SG_PEND n j) false
  else s

/-- At a cycle boundary after a reload ACT takes REQ and the sections start (R194); sections that awaited the boundary run
again (R189). -/
def applyBoundary (s : State) (n tick nn : Nat) : State :=
  if tick % nn ≠ 0 then s
  else
    let c := s.core n
    let s1 := s.setCore n { c with await := [], reloaded := false, modeReq := if c.reloaded then [] else c.modeReq }
    if c.reloaded then
      setAct (setAct (setAct s1 n 0 (modeWanted s1 n 0)) n 1 (modeWanted s1 n 1)) n 2 (modeWanted s1 n 2)
    else s1

/-- The setting group and mode of each local bay as a notification fixes them (R177). -/
def ctxOf (s : State) (n tick stamp fword nn : Nat) : Ctx :=
  { tick := tick, stamp := stamp, fword := fword, n := nn,
    sg := [0, 1, 2].map fun j => (j, s.rd (R.ELCn_BAYj_SG_ACT n j)),
    mode := [0, 1, 2].map fun j => (j, s.rd (R.ELCn_BAYj_MODE_ACT n j)),
    rest := allSections }

/-- Everything the notification of a tick with `nn` samples per cycle does in core `n` (R177, R188, R189, R191, R194), for a core in state
RUN. At the first one after an
exchange's swap a bay with a changed element-state layout is handled as on leaving OFF (R300). A ninth open context fails the core,
and the notification is not taken (R181). -/
def tickNotify (s : State) (n tick stamp fword nn : Nat) : State :=
  if s.rd (R.ELCn_STAT_STATE n) ≠ 1 then s
  else if 8 ≤ (s.core n).openCtxs then coreFail s n 4
  else
    let s0 := s.modCore n fun c => { c with reinit := c.relayout ++ c.reinit.filter (!c.relayout.contains ·), relayout := [] }
    let s1 := applyBoundary s0 n tick nn
    let s2 := applyMode (applyMode (applyMode s1 n 0) n 1) n 2
    let s3 := applyGroup (applyGroup (applyGroup s2 n 0 tick nn) n 1 tick nn) n 2 tick nn
    let s4 := gateUpdate (vstAll s3 n)
    notifyCore s4 n (ctxOf s4 n tick stamp fword nn)

/-! ### Block resets of a core (R194, R427, R429) -/

/-- The first step of a block reset: every B field of the core at its reset value, STATE is RELOAD, nothing runs, the
phasor unit restarts (R245). Its bays' ACT is FAILED until the reload has succeeded (assumption 14). -/
def coreResetStart (s : State) (n : Nat) : State :=
  let a := 0x900000 + 0x10000 * n
  let s1 := s.resetDomIn .blk a (a + 0x10000)
  let s2 := (s1.setCore n {}).wr (R.ELCn_STAT_STATE n) 2
  gateUpdate (setAct (setAct (setAct { s2 with ph := mdel s2.ph n } n 0 6) n 1 6) n 2 6)

end Sys2Proof.Machine
end

