-- ==== Sys2Proof/Machine/LiveReg.lean ====
section
/-! DEFINITION. What registers show that no field holds: clocks, FIFO heads, the states of Privet, the selected key slot, the
pending lists of the gates, the Espalier planes and the verdict records. -/

namespace Sys2Proof.Machine

/-- The power domains a source lies in; a source is masked while all of them are off (R42, assumption 21). A source in
PD0 has none. -/
def srcDomains (k : Nat) : List Nat :=
  match k with
  | 1 => [2, 3, 4, 5] | 2 => [8] | 4 => [6] | 5 => [2, 3, 4, 5] | 6 => [2, 3, 4, 5, 6] | 7 => [1] | 9 => [1] | 10 => [11]
  | 11 => [8] | 12 => [11] | 13 => [11] | 14 => [10] | 18 => [10] | 19 => [1] | 20 => [9] | 21 => [8] | 22 => [7] | 23 => [1]
  | _ => []

def srcMasked (s : State) (k : Nat) : Bool := !(srcDomains k).isEmpty && (srcDomains k).all fun d => !s.pg d

/-- The domain that one line of a source with a detail word comes from, where the detail tells it (R412). -/
def lineDomain (k det : Nat) : Option Nat :=
  match k with
  | 0 => if det / 2 ^ 28 < 3 then some (2 + det / 2 ^ 25 % 8 / 2) else if det / 2 ^ 28 = 3 then some 6
    else if det / 2 ^ 28 < 6 then some 8 else none
  | 1 => some (2 + det % 8 / 2)
  | 5 => some (2 + det % 8 / 2)
  | 6 => if det.testBit 3 then some 6 else some (2 + det % 8 / 2)
  | _ => none

/-- Is a line clamped and masked: its source, or the domain it comes from, is off (R42)? -/
def lineMasked (s : State) (k det : Nat) : Bool :=
  srcMasked s k || (match lineDomain k det with | some d => !s.pg d | none => false)

/-- PRV_MASKED and PRV_LIVE as they read (R422, R435). -/
def maskedWord (s : State) : Nat := bitmap 25 (srcMasked s)
def liveSources (s : State) : Nat := bitmap 25 fun k => s.prv.items.any fun e => e.1 == k

/-- Is an event that TB2 saw at `t` at most 2 ms old? -/
def within2ms (s : State) (t : Option Nat) : Bool := match t with | some x => decide (s.tb2Ns ≤ x + 2000000) | none => false

/-- Progress (R434): every enabled FTG has closed a tick and every core in RUN has ended class 0 of one within 2 ms. -/
def progress (s : State) : Bool :=
  ((List.range 4).all fun g => !(s.rd R.ESP_STAT_FTG_EN).testBit g || within2ms s (mget s.esp.ftg g {}).closedAt)
    && (List.range 8).all fun n => s.rd (R.ELCn_STAT_STATE n) != 1 || within2ms s (s.core n).c0At

/-- Is there a bay with ACT 1 to 4? -/
def bayActive (s : State) : Bool := (List.range 24).any fun b => decide (1 ≤ bayAct s b) && decide (bayAct s b ≤ 4)

/-- PRV_STAT.ALIVE (R434): 0 low, 1 10 Hz, 2 1 kHz, 3 held. -/
def aliveMode (s : State) : Nat :=
  if s.on R.PRV_STAT_SAFE || s.glb.hold != 0 || s.glb.hib || !s.on R.GLB_BOOT_DONE || s.on R.GLB_BOOT_MAINT then 0
  else if s.rd R.GLB_PWR_STATE = 2 then 1
  else if !bayActive s then 1
  else if progress s then 2
  else 3

/-- THN_BEV_INFO and the stamp in ns as they show the oldest entry (R265). -/
def bevInfo (s : State) : Nat :=
  match s.thn.fifo with
  | [] => 0
  | e :: _ => 2 ^ 31 + (if e.level then 2 ^ 30 else 0) + (if e.chatrel then 2 ^ 29 else 0) + e.bin * 2 ^ 16 + e.seq
def bevTs (s : State) : Nat := match s.thn.fifo with | [] => 0 | e :: _ => e.ts * 1000

def keySlot (s : State) (k : Nat) : KeySlot := mget s.sec.slots k {}
/-- The bits of SEC_KSTAT and the key IDs of the selected slot (R453). -/
def keyShown (s : State) : KeySlot := keySlot s (s.rd R.SEC_KSEL_SLOT)
def retShown (x : KeySlot) : Option AuthKey := if x.gone then none else x.ret
def kidOf (o : Option AuthKey) : Nat := match o with | some y => y.kid | none => 0

def tpoOf (s : State) (k : Nat) : Tpo := mget s.tim.tpo k {}

/-! ### The Espalier planes and the memories behind the diagnostic port (R31, R158, R160, R161) -/

/-- A parity error found at ESP offset `o` (R161): sticky, counted, its offset kept, the fault raised. -/
def parityErr (s : State) (o : Nat) : State :=
  ((s.wrb R.ESP_STAT_PERR_STK true).sat1 R.ESP_PERR_CNT |>.wr R.ESP_PERR_ADDR o).raiseLine 7 o

/-- A flag byte as a reader of the flag plane gets it (R161). -/
def flagSeen (s : State) (a : Nat) : Nat := if s.parBad.contains a then (memRd s.mem a).toNat ||| 0x88 else (memRd s.mem a).toNat

/-- A word of the planes as a read delivers it, at ESP offset `o` (R160, R161). -/
def planeWord (s : State) (o : Nat) : Nat :=
  if o < 0x20000 then (s.rdW (espInstBase + (o - 0x10000))).toNat
  else if o < 0x40000 then
    let a := espFlagBase + (o - 0x20000)
    flagSeen s a + flagSeen s (a + 1) * 2 ^ 8 + flagSeen s (a + 2) * 2 ^ 16 + flagSeen s (a + 3) * 2 ^ 24
  else (s.rdW (espValBase + (o - 0x40000))).toNat

/-- The addresses whose parity a read at ESP offset `o` checks, with the offsets reported (R161). -/
def planeChecks (o : Nat) : List (Nat × Nat) :=
  if o < 0x20000 then [(espInstBase + (o - 0x10000), o)]
  else if o < 0x40000 then [0, 1, 2, 3].map fun k => (espFlagBase + (o - 0x20000) + k, o + k)
  else [(espValBase + (o - 0x40000), o)]

/-- What reading the planes at ESP offset `o` does: each parity error found is reported (R161). -/
def planeTouch (s : State) (o : Nat) : State :=
  (planeChecks o).foldl (fun a e => if s.parBad.contains e.1 then parityErr a e.2 else a) s

/-! ### Words with no field behind them, and fields that show something live -/

/-- The index of the register at `a` among `n` copies from `b` on, `st` apart. -/
def copyAt (a b st n : Nat) : Option Nat := if b ≤ a ∧ (a - b) % st = 0 ∧ (a - b) / st < n then some ((a - b) / st) else none

/-- The low, then the high word of a 64-bit quantity at `a`. -/
def wide64 (a lo v : Nat) : Option Nat := if a = lo then some (v % 2 ^ 32) else if a = lo + 4 then some (v / 2 ^ 32 % 2 ^ 32) else none

/-- M in ms (R276). -/
def frameMs (s : State) : Nat := s.rd R.SCH_FRAME_MFRAME

/-- The watchdog timeout in ms (R457, R458): 0 disables; 1…19 act as 20, above 1,000 as 1,000, all in 10 ms; below 2 × M
as 2 × M. -/
def wdtMs (s : State) : Nat :=
  let t := s.rd R.GLB_WDT_TO
  if t = 0 then 0 else max (10 * clamp 20 1000 t) (2 * frameMs s)

/-- GLB_WDT.REMAIN: ms to expiry; 0 while the watchdog does not count. -/
def wdtRemain (s : State) : Nat :=
  match s.glb.wdt with
  | some t => if wdtMs s = 0 then 0 else min 0xFFFF ((t + wdtMs s * 1000000 - s.tb2Ns) / 1000000)
  | none => 0

/-- TWN_AGE: ms since the latest accepted frame, saturating; all ones where there has been none (R500). -/
def twinAge (s : State) : Nat := match s.twn.lastAt with | some t => min 0xFFFFFFFF ((s.tb2Ns - t) / 1000000) | none => 0xFFFFFFFF

/-- TIM_TCI_INFO: the oldest capture (R375). -/
def tciInfo (s : State) : Nat :=
  match s.tim.tci with
  | [] => 0
  | e :: _ => 2 ^ 31 + (if e.rise then 2 ^ 30 else 0) + e.base % 8 * 2 ^ 27 + e.input % 8 * 2 ^ 24 + e.seq % 65536
def tciTs (s : State) : Nat := match s.tim.tci with | [] => 0 | e :: _ => e.ts

/-- NET_Pp_GBASE: the base time, or the change time of the pending list, as BASESEL chooses (R341). -/
def gbaseShown (s : State) (p : Nat) : Nat :=
  let x := mget s.net.ports p {}
  if s.on (R.NET_Pp_GCTL_BASESEL p) then x.change else x.base

/-- SEC_KSTAT of the selected slot (R453). -/
def kstatWord (s : State) : Nat :=
  let x := keyShown s
  x.alg % 8 * 2 ^ 29 + (if x.cur.isSome then 2 ^ 28 else 0) + (if x.nxt.isSome then 2 ^ 27 else 0)
    + (if (retShown x).isSome then 2 ^ 26 else 0)

/-- A word of an entry of the MSI-X table (R509): message address, data, vector control. -/
def msixWord (s : State) (a : Nat) : Nat :=
  let x := mget s.hst.msix ((a - 0xFC0000) / 16) {}
  match (a - 0xFC0000) % 16 with
  | 0 => x.addr % 2 ^ 32
  | 4 => x.addr / 2 ^ 32 % 2 ^ 32
  | 8 => x.data
  | _ => x.ctl

/-- The pending bits of 32 vectors from `k` on (R509). -/
def pbaWord (s : State) (k : Nat) : Nat := bitmap 32 fun v => (mget s.hst.msix (k + v) {}).pend

/-- The value an indexed register shows. -/
def shownBy (o : Option Nat) (f : Nat → Nat) : Option Nat := match o with | some k => some (f k) | none => none

/-- TIM's words. -/
def liveTim (s : State) (a : Nat) : Option Nat :=
  (wide64 a R.TIM_ACT_TIME_LO_TIME.addr s.activeNs).orElse fun _ =>
  (wide64 a R.TIM_ACT_RESID_LO_RESID.addr (usg 64 (rdiv s.tim.resid nsU))).orElse fun _ =>
  (wide64 a R.TIM_DIFF_LO_DIFF.addr (usg 64 ((s.tbNs 1 : Int) - s.tbNs 0))).orElse fun _ =>
  ([0, 1, 2, 3].findSome? fun b => wide64 a (R.TIM_TBb_TIME_LO_TIME b).addr (s.tbNs b)).orElse fun _ =>
  (shownBy (copyAt a (R.TIM_TPOk_NEXT_NEXT 0).addr 0x20 8) fun k => (tpoOf s k).edge.getD 0 % 2 ^ 32).orElse fun _ =>
  if a = R.TIM_TCI_INFO_VALID.addr then some (tciInfo s) else if a = R.TIM_TCI_TS_TS.addr then some (tciTs s) else none

/-- The words of NET, TWN and SEC. -/
def liveSys (s : State) (a : Nat) : Option Nat :=
  ([0, 1, 2].findSome? fun p => wide64 a (R.NET_Pp_GBASE_LO_NS p).addr (gbaseShown s p)).orElse fun _ =>
  if a = R.TWN_AGE_AGE.addr then some (twinAge s)
  else if (copyAt a (R.SEC_CERTw_CERT 0).addr 4 256).any fun w => decide (s.rd R.SEC_CERTLEN_LEN ≤ 4 * w) then some 0
  else if a = R.SEC_KSTAT_ALG.addr then some (kstatWord s)
  else if a = R.SEC_KIDC_KID.addr then some (kidOf (keyShown s).cur)
  else if a = R.SEC_KIDN_KID.addr then some (kidOf (keyShown s).nxt)
  else if a = R.SEC_KIDR_KID.addr then some (kidOf (retShown (keyShown s)))
  else if a = R.YEW_NONCE_NONCE.addr then some s.yew.nonce.toNat
  else if 0xFC0000 ≤ a ∧ a < 0xFC0400 then some (msixWord s a)
  else if a = 0xFC1000 then some (pbaWord s 0)
  else if a = 0xFC1004 then some (pbaWord s 32)
  else none

/-- The words of the FAB blocks. -/
def liveFab (s : State) (a : Nat) : Option Nat :=
  (wide64 a R.THN_BEV_TS_LO_TS.addr (bevTs s)).orElse fun _ =>
  (shownBy (copyAt a (R.DCH_CHn_KACT_KACT 0).addr 0x40 48) (kact s)).orElse fun _ =>
  (shownBy (copyAt a (R.DCH_RSm_DELAY_DELAY 0).addr 0x40 192) (delayNs s)).orElse fun _ =>
  (shownBy (copyAt a (R.DCH_RSm_REL_REL 0).addr 0x40 192) (relNs s)).orElse fun _ =>
  (shownBy (copyAt a (R.ESP_FTGg_DLN_DLN 0).addr 0x40 4) (dlnNs s)).orElse fun _ =>
  if a = R.THN_BEV_INFO_VALID.addr then some (bevInfo s)
  else if 0x800000 ≤ a ∧ inPlanes (a - 0x800000) then some (planeWord s (a - 0x800000))
  else if 0x900000 ≤ a ∧ a < 0x980000 ∧ 0x8000 ≤ a % 0x10000 ∧ a % 0x10000 < 0x8300 then
    let o := a % 0x10000 - 0x8000
    some (if o % 256 = 12 then statusWord s ((a - 0x900000) / 0x10000) (o / 256) else verWord s ((a - 0x900000) / 0x10000) (o / 256) (o % 256)).toNat
  else none

/-- Live words: registers whose content the state holds elsewhere than in fields. -/
def liveWord (s : State) (a : Nat) : Option Nat :=
  if a = R.PRV_LIVE_LIVE.addr then some (liveSources s)
  else if a = R.PRV_MASKED_MASKED.addr then some (maskedWord s)
  else (wide64 a R.GLB_COARSE_LO_COARSE.addr s.coarseNs).orElse fun _ =>
    (liveTim s a).orElse fun _ => (liveSys s a).orElse fun _ => liveFab s a

/-- Fields that show something live, in words whose other fields are held as fields. -/
def liveBits (s : State) (a : Nat) : Nat :=
  if a = R.GLB_ID_CODE.addr then Config.partCode.toNat
  else if a = R.GLB_WDT_REMAIN.addr then wdtRemain s
  else if a = R.PRV_STAT_ALIVE.addr then aliveMode s * 2 ^ 28 + (if s.prvIrq then 2 ^ 25 else 0)
  else if a = R.TIM_TCI_STAT_COUNT.addr then s.tim.tci.length % 128
  else 0

end Sys2Proof.Machine
end

