-- ==== Sys2Proof/Machine/RegRead.lean ====
section
/-! DEFINITION. Reads of BAR0 (R16 to R20): a register is found by its offset and assembled from its fields; a 64-bit
quantity's high word is captured; RC fields return to their reset value; some registers show what the state holds elsewhere. -/

namespace Sys2Proof.Machine

/-- Is `d` a multiple of the indices' strides within their counts (the offset of a copy of an indexed register)? -/
def inDims (d : Nat) : List (Nat × Nat) → Bool
  | [] => d == 0
  | (c, st) :: t => decide (d / st < c) && inDims (d % st) t

/-- The register at BAR0 offset `a`: its fields there (R508). -/
def findReg (l : List RegDef) (a : Nat) : Option (List Fld) :=
  match l with
  | [] => none
  | r :: t => if decide (r.off ≤ a) && inDims (a - r.off) r.dims then some (r.flds.map (·.shift (a - r.off))) else findReg t a

/-- A word from its fields; WO fields read zero (R18), reserved bits read zero (R20). -/
def wordOf (s : State) (l : List Fld) : Nat :=
  match l with
  | [] => 0
  | f :: t => (if f.acc = .wo then 0 else s.rd f * 2 ^ f.lo) + wordOf s t

/-- The low registers of the 64-bit quantities: first offset and indices (R17). Pairs of registers that
hold bitmaps, MAC addresses or a selection are no 64-bit quantity (assumption 15). -/
def wideLow : List (Nat × List (Nat × Nat)) := [
  (0x601010, [(48, 0x20)])  /- AFE_CHn_SUM_LO -/,
  (0x601018, [(48, 0x20)])  /- AFE_CHn_SQ_LO -/,
  (0xa0003c, [])  /- THN_BEV_TS_LO -/,
  (0xb00034, [])  /- SCH_JRN_SEQ_LO -/,
  (0x401014, [(3, 0x100)])  /- NET_Pp_GBASE_LO -/,
  (0x300010, [])  /- TIM_ACT_TIME_LO -/,
  (0x300018, [])  /- TIM_ACT_RESID_LO -/,
  (0x300020, [])  /- TIM_DIFF_LO -/,
  (0x30010c, [(4, 0x40)])  /- TIM_TBb_TIME_LO -/,
  (0x300114, [(4, 0x40)])  /- TIM_TBb_SETV_LO -/,
  (0x300130, [(4, 0x40)])  /- TIM_TBb_MID_LO -/,
  (0x300808, [(8, 0x20)])  /- TIM_TPOk_START_LO -/,
  (0x20000c, [])  /- YEW_NEXT_LO -/,
  (0x200014, [])  /- YEW_OLDEST_LO -/,
  (0x10002c, [])  /- PRV_FF_TIME_LO -/,
  (0x100034, [])  /- PRV_FF_TB2_LO -/,
  (0x10003c, [])  /- PRV_FF_SEQ_LO -/,
  (0xd0000c, [])  /- SEC_DEVID_LO -/,
  (0xd00028, [])  /- SEC_STG_ADDR_LO -/,
  (0xd00208, [])  /- SEC_KROLL_LO -/,
  (0x20, [])  /- GLB_WAKE_LO -/,
  (0x28, [])  /- GLB_COARSE_LO -/,
  (0xe00010, [])  /- TWN_PDEVID_LO -/,
  (0xf0000c, [])  /- MEM_EADDR_LO -/]

/-- Is `a` the low register of a 64-bit quantity? -/
def isWideLow (l : List (Nat × List (Nat × Nat))) (a : Nat) : Bool :=
  match l with
  | [] => false
  | (o, ds) :: t => (decide (o ≤ a) && inDims (a - o) ds) || isWideLow t a

/-- The value of the 32-bit register at `a`, without the effects of reading it; unlisted offsets read zero (R20). -/
def peek (s : State) (a : Nat) : Nat :=
  match liveWord s a with
  | some v => v % 2 ^ 32
  | none => match findReg regTable a with
    | some l => (wordOf s l + liveBits s a) % 2 ^ 32
    | none => 0

/-- RC fields return to their reset values at a read (R18). -/
def clearRc (s : State) (l : List Fld) : State :=
  match l with
  | [] => s
  | f :: t => clearRc (if f.acc = .rc then s.wr f f.rst else s) t

/-- What a read of the planes checks (R161): the word, and the high word of a stamp that the read of its low word captures (R17). -/
def touchPlanes (s : State) (a : Nat) : State :=
  if 0x800000 ≤ a ∧ inPlanes (a - 0x800000) then
    let s1 := planeTouch s (a - 0x800000)
    if a - 0x800000 < 0x20000 ∧ a % 16 = 0 then planeTouch s1 (a + 4 - 0x800000) else s1
  else s

/-- Is `a` the low register of a 64-bit quantity, an instant record's stamp among them (R160)? -/
def lowOf64 (a : Nat) : Bool := isWideLow wideLow a || (decide (0x810000 ≤ a) && decide (a < 0x818000) && a % 16 == 0)

/-- A read of the register at `a` (R16, R17, R18): the value and what the read does. -/
def regRead (s : State) (a : Nat) : Nat × State :=
  if a % 4 ≠ 0 then (0, s)
  else if s.wide.any (·.1 == a) then (mget s.wide a 0, { s with wide := mdel s.wide a })
  else
    let v := peek s a
    let s0 := touchPlanes s a
    let s1 := match findReg regTable a with | some l => clearRc s0 l | none => s0
    (v, if lowOf64 a then { s1 with wide := mput s1.wide (a + 4) (peek s (a + 4)) } else s1)

/-- Is `a` a gap of BAR0, where no register, plane or verdict record lies (R508)? -/
def isGap (a : Nat) : Bool :=
  decide (0x1000000 ≤ a) || ((findReg regTable (a / 4 * 4)).isNone && !isPlane a && !isVerdict a && !(decide (0xFC0000 ≤ a) && decide (a < 0xFC1008)))

/-- A read of BAR0 by an initiator (R29): the scheme cores may read register blocks but not the planes; a gap reads zero to everyone (R508). -/
def busRead (s : State) (i : Ini) (a : Nat) : Nat × State :=
  if mayRead s i a then regRead s a else if isGap a then (0, s) else (0, denied s i false a)

end Sys2Proof.Machine
end

