-- ==== Sys2Proof/Machine/Operands.lean ====
section
/-! DEFINITION. Operands and issue of Porlon syllables (R201 to R210, R217, R218, R236 to R238): reading the registers of
the running section or task instance, guards, how a bundle's effects are kept back and taken together, control transfers,
loops, exceptions. -/

namespace Sys2Proof.Machine

/-- Cause numbers of R236. -/
def excIllegal : Nat := 1
def excAccess : Nat := 2
def excVwr : Nat := 3
def excStack : Nat := 4
def excLoop : Nat := 5

/-- Where the bits of a time-dose accumulator lie (R248): 8 bytes at offset 8·i of the bay's element-state region. -/
def doseAddr (n j i : Nat) : Nat := ecElemBase n + 0x2800 * j + 8 * i

/-- A word is stored with its own ECC: what was wrong with the old word is gone (R172). -/
def State.putWord (s : State) (a : Nat) (v : Word) : State :=
  { s.wrW a v with eccBad := s.eccBad.filter (· ≠ a), eccSoft := s.eccSoft.filter (· ≠ a) }

/-- An effect outside the register file. -/
def peOutside (s : State) (n : Nat) (x : Section) (e : Eff) : State :=
  match e with
  | .store a v => s.putWord a v
  | .verdict off v => verdictWrite s n x.bay x.cls x.tick off v
  | .dose i acc =>
    let a := doseAddr n x.bay i
    (s.putWord a (BitVec.ofNat 32 acc)).putWord (a + 4) (BitVec.ofNat 32 (acc / 2 ^ 32))
  | _ => s

/-! ### ECC of the core memories (R172) -/

/-- The memory number of a model address in an ECC fault's detail: 0 instruction, 1 data, 2 element state (R412). -/
def ecMemNo (n a : Nat) : Nat := if a < ecDataBase n then 0 else if a < ecElemBase n then 1 else 2

/-- A word of an element core's memory is read: a corrected error is counted and reported, an uncorrectable one fails the
core (R172). Answers the state and whether the word may be used. -/
def ecRead (s : State) (n a : Nat) : State × Bool :=
  if s.eccBad.contains a then
    let m := ecMemNo n a
    (coreFail ((s.sat1 (R.ELCn_ECC_UNCORR n)).raiseLine 1 (m * 16 + n)) n (m + 1), false)
  else if s.eccSoft.contains a then
    let m := ecMemNo n a
    ((((s.sat1 (R.ELCn_ECC_CORR n)).wrb (R.ELCn_STAT_ECC_STK n) true)).raiseLine 0
      (m * 2 ^ 28 + n * 2 ^ 25 + (a - ecInstrBase n) % 0x40000 / 4), true)
  else (s, true)

/-- Words read one after another, up to one that fails the core. -/
def ecReads (s : State) (n : Nat) : List Nat → State × Bool
  | [] => (s, true)
  | a :: t => let p := ecRead s n a; if p.2 then ecReads p.1 n t else p

/-! ### Exceptions -/

/-- What an exception leaves beside the end of its section (R237): VWR_STK, and ELC_EXCEPTION at most once per core and tick. -/
def excReport (s : State) (n cause : Nat) (x : Section) : State :=
  let c := s.core n
  let s1 := if cause = excVwr then s.wrb (R.ELCn_STAT_VWR_STK n) true else s
  let s2 := if c.excTicks.contains x.tick then s1.modCore n fun c => { c with excMore := c.excMore + 1 }
    else (s1.logEv 0x09 2 (leBytes 1 n ++ leBytes 1 x.bay ++ leBytes 1 x.cls ++ leBytes 1 cause ++ leBytes 4 x.tick
            ++ leBytes 4 x.rf.pc ++ leBytes 4 c.excMore)).modCore n fun c => { c with excTicks := x.tick :: c.excTicks, excMore := 0 }
  if x.cls = 0 then s2.modCore n fun c => { c with c0Exc := some (x.tick, (s.tbOf 2).val) } else s2

/-- R237: a PE exception: the bundle is void, the section ends, Yew logs ELC_EXCEPTION. -/
def peException (s : State) (n cause : Nat) : State :=
  match (s.core n).run with
  | none => s
  | some x => endSection (excReport s n cause x) n

/-- The state bits of a task's status register: 0 idle, 1 released, 2 running, 3 preempted. -/
def taskState (s : State) (t : Nat) : State :=
  let c := s.sch
  let isT (x : TaskRun) : Bool := x.task == t
  s.wr (R.SCH_TKn_STAT_STATE t)
    (if (c.cur.filter isT).isSome then 2 else if c.pre.any isT then 3 else if c.rel.contains t then 1 else 0)

/-- The lowest of some task numbers. -/
def lowest (l : List Nat) : Option Nat :=
  match l with
  | [] => none
  | a :: t => some (t.foldl min a)

/-- May the released instance of task `t` be dispatched: the scheme runs, no boundary or checkpoint holds it, and its
predecessor's journal record is durable (R288, R291, R296)? -/
def dispatchable (s : State) (t : Nat) : Bool :=
  s.rd R.SCH_STAT_STATE == 1 && !s.sch.quiesce && !s.sch.coldWait
    && !(s.sch.jrn.any fun r => r.task == t) && !(s.sch.jwait.any fun r => r.task == t)

/-- The highest-priority released task that may be dispatched (R280). -/
def bestReleased (s : State) : Option Nat := lowest (s.sch.rel.filter (dispatchable s))

/-- The core goes to the highest-priority instance (R280): a running one gives way to a released task of higher priority,
which TASK_DISPATCH then starts; with nothing better released, the highest preempted one goes on. -/
def schedule (s : State) : State :=
  let best := (bestReleased s).getD 16
  match s.sch.cur with
  | some x =>
    if best < x.task then
      taskState { s with sch := { s.sch with cur := none, pre := x :: s.sch.pre } } x.task
    else s
  | none => match s.sch.pre with
    | [] => s
    | x :: t => if best < x.task then s
      else taskState { s with sch := { s.sch with cur := some x, pre := t } } x.task

/-- The running task run ends without commit (R238, R281): its retained words are to be restored before the task's next run,
its core time is recorded (a free value: assumption 10). -/
def slAbort (s : State) (cause : Nat) : State :=
  match s.sch.cur with
  | none => s
  | some x =>
    let s1 := { s with sch := { s.sch with cur := none, restore := mput s.sch.restore x.task x.undo } }
    let p := s1.fresh 24
    let s2 := (p.2.wr (R.SCH_TKn_EXLAST_EXLAST x.task) p.1.toNat).wr (R.SCH_TKn_STAT_LASTCAUSE x.task) cause
    let s3 := s2.wr (R.SCH_TKn_EXMAX_EXMAX x.task) (max (s2.rd (R.SCH_TKn_EXMAX_EXMAX x.task)) p.1.toNat)
    schedule (taskState s3 x.task)

/-- R238: an SL exception. -/
def slException (s : State) (cause : Nat) : State :=
  match s.sch.cur with
  | none => s
  | some x =>
    (slAbort (s.wrb (R.SCH_TKn_STAT_EXC_STK x.task) true) cause).logEv 0x0B 3
      (leBytes 1 x.task ++ leBytes 2 0 ++ leBytes 1 cause ++ leBytes 4 x.rf.pc)

/-- R273: a lockstep mismatch halts the pair: every scheme term and scheme-owned GPO is forced to 0, members owned by scheme
tasks carry invalid, and the LOCKSTEP fault is raised. `addr` is the syllable address. -/
def lockstepHalt (s : State) (addr : Nat) : State :=
  if s.rd R.SCH_STAT_STATE = 2 then s
  else
    let s1 := (setScState s 2).wrb R.SCH_STAT_LS_STK true
    let s2 := { s1 with sch := { s1.sch with forced := true }, thn := { s1.thn with sch := 0, gpoSch := 0 } }
    (gateUpdate s2).raiseLine 4 addr

/-- A word of SC SRAM is read by the syllable at `pc`: a corrected error is reported, an uncorrectable one is a lockstep mismatch (R272).
Answers the state and whether the word may be used. -/
def scRead (s : State) (a pc : Nat) : State × Bool :=
  if s.eccBad.contains a then (lockstepHalt s pc, false)
  else if s.eccSoft.contains a then (s.raiseLine 0 (3 * 2 ^ 28 + (a - scBase) / 4), true)
  else (s, true)

/-- Words read one after another, up to one that is a mismatch. -/
def scReads (s : State) (pc : Nat) : List Nat → State × Bool
  | [] => (s, true)
  | a :: t => let p := scRead s a pc; if p.2 then scReads p.1 pc t else p

/-- The words of regions of SC SRAM, given as offset and length. -/
def scWords (l : List (Nat × Nat)) : List Nat :=
  l.flatMap fun e => (List.range ((e.1 % 4 + e.2 + 3) / 4)).map fun k => scBase + e.1 / 4 * 4 + 4 * k

/-- Regions of SC SRAM read for the journal, a checkpoint or an exchange, under R272 like a syllable's reads; the syllable address is the
running instance's (assumption 186). -/
def scRegions (s : State) (l : List (Nat × Nat)) : State × Bool :=
  scReads s (match s.sch.cur with | some x => x.rf.pc | none => 0) (scWords l)

/-! ### Issue -/

/-- The program length: fetch beyond it is ILLEGAL (R217, R236). -/
def progLen (s : State) (k : CoreSel) : Nat :=
  match k with
  | .pe n => mget s.img.progLen n.val 4096
  | .sl => s.img.slLen

/-- The words a core fetches at a program address: a bundle of four, or a syllable (R208, R210). -/
def codeWords (k : CoreSel) (pc : Nat) : List Nat :=
  match k with
  | .pe n => (List.range 4).map fun i => ecInstrBase n.val + 16 * pc + 4 * i
  | .sl => [scBase + 4 * pc]

/-- Does the program address lie inside the program and hold no reserved encoding (R217, R236)? -/
def fetchOk (s : State) (k : CoreSel) (pc : Nat) : Bool :=
  decide (pc < progLen s k) && match k with
    | .pe n => (decodeBundle n fun i => s.rdW (ecInstrBase n.val + 16 * pc + 4 * i)).isSome
    | .sl => (decodeSyl .sl .a true (s.rdW (scBase + 4 * pc))).isSome

/-- Does the program address hold an uncorrectable word (R172, R272)? -/
def fetchBad (s : State) (k : CoreSel) (pc : Nat) : Bool := (codeWords k pc).any fun a => s.eccBad.contains a

/-- Is the next address to fetch no exception: what lies there can issue, or its fetch meets an uncorrectable word, which is none but
fails the core or halts the pair at the fetch (R172, R236, R272)? -/
def fetchGoes (s : State) (k : CoreSel) (pc : Nat) : Bool := fetchOk s k pc || (decide (pc < progLen s k) && fetchBad s k pc)

/-- The fetch of what is about to issue (R172, R272): an uncorrectable word fails the element core, and is a lockstep mismatch of the
scheme cores. -/
def fetch (s : State) (k : CoreSel) (pc : Nat) : State :=
  match k with
  | .pe n => (ecReads s n.val (codeWords k pc)).1
  | .sl =>
    (scRead s (scBase + 4 * pc) pc).1

/-- The register file of what runs on a core, if anything runs. -/
def rfOf (s : State) (k : CoreSel) : Option RegFile :=
  match k with
  | .pe n => (s.core n.val).run.map (·.rf)
  | .sl => if s.rd R.SCH_STAT_STATE = 1 then s.sch.cur.map (·.rf) else none

/-- CYCLE is the cycle in which its bundle issues (R227). -/
def withCycle (t : Nat) (e : Eff) : Eff :=
  match e with
  | .cycle r => .setS r (BitVec.ofNat 32 t)
  | e => e

/-- The section once its bundle has issued and is out of the way (R234). -/
def Section.issued (x : Section) : Section := { x with buf := [], exc := none, syls := [], pipe := x.pipe.issue x.syls }

/-- What a bundle does at its end: an exception voids it; otherwise its effects take place together, then its control transfer or
the next bundle, then the end of the section (R209, R237). The staged class-0 words go on to the GOOSE FIFO (R175). A fetch past
the program's end or of a reserved encoding is ILLEGAL; no store reaches instruction memory. -/
def peRetire (s : State) (n : Fin 8) : State :=
  match (s.core n.val).run with
  | none => s
  | some x =>
    match x.exc with
    | some cause => peException (s.modCore n.val fun c => { c with run := some x.issued }) n.val cause
    | none =>
      let l := x.buf.map (withCycle (x.pipe.issueAt x.syls))
      let f0 := l.foldl RegFile.eff x.rf
      let f1 := match flowOf l with
        | some fl => f0.take fl
        | none => f0.advance
      let s1 := feedC0 (l.foldl (fun a e => peOutside a n.val x e) s)
      let s2 := s1.modCore n.val fun c => { c with run := some { x.issued with rf := f1 } }
      if hasTickEnd l then endSection s2 n.val
      else if fetchGoes s (.pe n) f1.pc then s2
      else peException s2 n.val excIllegal

/-- FAB cycles of the class-0 budget counter once the bundle in issue has completed; 0 for a section of another class (R185). -/
def c0Cycles (c : Core) (x : Section) : Nat := if x.cls = 0 then c.c0Cnt + x.pipe.issueAt x.syls + 1 else 0

/-- Does class 0 of tick `t` still run or wait? -/
def c0Left (c : Core) (t : Nat) : Bool :=
  c.run.any (fun x => x.cls == 0 && x.tick == t) || c.ctxs.any fun y => y.tick == t && y.rest.any fun e => e.1 == 0

/-- The end of a PE bundle under the class-0 budget (R185). The breach takes effect in the cycle after the counter has reached 1,200: a
bundle that would complete then or later does not, and an exception of that very cycle is reported beside the breach (R237); where
the counter reaches 1,200 with a bundle after which class 0 goes on, the breach follows it. -/
def peCommit (s : State) (n : Fin 8) : State :=
  match (s.core n.val).run with
  | none => s
  | some x =>
    let t := c0Cycles (s.core n.val) x
    if c0Budget < t then
      budgetBreach (match x.exc with | some e => if t = c0Budget + 1 then excReport s n.val e x else s | none => s) n.val x.tick
    else
      let s1 := peRetire s n
      if t = c0Budget ∧ c0Left (s1.core n.val) x.tick = true then budgetBreach s1 n.val x.tick else s1

/-- What a syllable answers: the cause of an exception, or its effects; with the state, where it draws a free value. -/
abbrev SylRes := Except Nat (List Eff) × State

/-- A PE syllable `i` adds its effects, or its exception, to the bundle in issue; `last` completes the bundle. -/
def peIssue (i : Instr) (n : Fin 8) (last : Bool) (r : SylRes) : State :=
  let s1 := r.2.modCore n.val fun c => { c with run := c.run.map fun x =>
    let y := { x with syls := x.syls ++ [sylTime x.rf i] }
    match r.1 with
    | .ok l => { y with buf := x.buf ++ l }
    | .error e => { y with exc := some (x.exc.getD e) } }
  match (s1.core n.val).run with
  | none => s1
  | some _ => if last then peCommit s1 n else s1

/-- Marks a store of a task run: the line, and the word as it stood before the first store (R238, R288). -/
def TaskRun.wrote (x : TaskRun) (a : Nat) (old : Word) : TaskRun :=
  { x with lines := if x.lines.contains (a / 32 * 32) then x.lines else x.lines ++ [a / 32 * 32],
           undo := if x.undo.any (·.1 == a) then x.undo else x.undo ++ [(a, old)] }

/-- Is SC SRAM address `a` inside the task's retained region (R287)? -/
def isRetained (s : State) (t a : Nat) : Bool :=
  let r := mget s.img.retained t (0, 0)
  decide (r.1 ≤ a) && decide (a < r.1 + r.2)

/-- An SL syllable's effects take place at once (R210). -/
def slEff (s : State) (e : Eff) : State :=
  match e with
  | .store a v =>
    let s1 := s.putWord a v
    let mark (x : TaskRun) : TaskRun :=
      if isRetained s x.task (a - scBase) then x.wrote (a - scBase) (s.rdW a) else x
    { s1 with sch := { s1.sch with cur := s1.sch.cur.map mark } }
  | _ => { s with sch := { s.sch with cur := s.sch.cur.map fun x => { x with rf := x.rf.eff e } } }

/-- An SL syllable completes or ends its task run by an exception (R210, R238); one that halted the pair has no effect (R273). -/
def slIssue (r : SylRes) : State :=
  match r.1 with
  | .error e => slException r.2 e
  | .ok l =>
    if r.2.rd R.SCH_STAT_STATE ≠ 1 then r.2 else
    let s1 := l.foldl slEff r.2
    let go (x : TaskRun) : TaskRun :=
      { x with rf := match flowOf l with | some fl => x.rf.take fl | none => x.rf.advance }
    let s2 := { s1 with sch := { s1.sch with cur := s1.sch.cur.map go } }
    match s2.sch.cur with
    | none => s2
    | some x => if fetchGoes s2 .sl x.rf.pc then s2 else slException s2 excIllegal

/-- Has the bundle in issue been fetched already? A syllable of SL is a fetch of its own (R208, R210). -/
def midBundle (s : State) (k : CoreSel) : Bool :=
  match k with
  | .pe n => match (s.core n.val).run with | some x => !x.syls.isEmpty | none => false
  | .sl => false

/-- Can the syllable join what its core has in issue (R208, assumption 183)? -/
def joins (s : State) (k : CoreSel) (i : Instr) : Bool :=
  match k with
  | .pe n => (s.core n.val).run.all fun x => fitsBundle x i
  | .sl => true

/-- Runs syllable `i` on a core: nothing where nothing runs there, or where its slot in the bundle is taken; the bundle or syllable is
fetched first; a false guard has no effect and raises nothing (R207). -/
def issue (i : Instr) (s : State) (k : CoreSel) (last guardOk : Bool) (f : RegFile → SylRes) : State :=
  match rfOf s k with
  | none => s
  | some rf =>
    if !joins s k i then s
    else if midBundle s k then
      match k with
      | .pe n => peIssue i n last (if guardOk then f rf else (.ok [], s))
      | .sl => s
    else if decide (rf.pc < progLen s k) && fetchBad s k rf.pc then fetch s k rf.pc
    else
      let r : SylRes := if !fetchOk s k rf.pc then (.error excIllegal, s) else if guardOk then f rf else (.ok [], s)
      match k with
      | .pe n => peIssue i n last (r.1, fetch r.2 k rf.pc)
      | .sl => slIssue (r.1, fetch r.2 k rf.pc)

/-- A guarded syllable that draws no free value. -/
def syl (i : Instr) (s : State) (k : CoreSel) (g : Guard) (last : Bool) (f : RegFile → Except Nat (List Eff)) : State :=
  issue i s k last (match rfOf s k with | some rf => rf.guard g | none => false) fun rf => (f rf, s)

/-- An unguarded syllable (LI and LP formats, R205). -/
def sylU (i : Instr) (s : State) (k : CoreSel) (last : Bool) (f : RegFile → Except Nat (List Eff)) : State :=
  issue i s k last true fun rf => (f rf, s)

/-- A guarded syllable that may draw free values or act on the state by reading. -/
def sylF (i : Instr) (s : State) (k : CoreSel) (g : Guard) (last : Bool) (f : RegFile → SylRes) : State :=
  issue i s k last (match rfOf s k with | some rf => rf.guard g | none => false) f

/-! ### Common shapes of operands (R212) -/

/-- d = op(a, b) on scalar registers. -/
def sylR (i : Instr) (s : State) (k : CoreSel) (g : Guard) (rd ra rb : SReg) (last : Bool) (op : Word → Word → Word) : State :=
  syl i s k g last fun f => .ok [.setS rd.val (op (f.gs ra.val) (f.gs rb.val))]

/-- d = op(a). -/
def sylR1 (i : Instr) (s : State) (k : CoreSel) (g : Guard) (rd ra : SReg) (last : Bool) (op : Word → Word) : State :=
  syl i s k g last fun f => .ok [.setS rd.val (op (f.gs ra.val))]

/-- pd from two scalars. -/
def sylCmp (i : Instr) (s : State) (k : CoreSel) (g : Guard) (pd : PReg) (ra rb : SReg) (last : Bool) (op : Word → Word → Bool) : State :=
  syl i s k g last fun f => .ok [.setP pd.val (op (f.gs ra.val) (f.gs rb.val))]

/-- pd from two predicates. -/
def sylPred (i : Instr) (s : State) (k : CoreSel) (g : Guard) (pd pa pb : PReg) (last : Bool) (op : Bool → Bool → Bool) : State :=
  syl i s k g last fun f => .ok [.setP pd.val (op (f.gp pa.val) (f.gp pb.val))]

/-- cd from two complex registers. -/
def sylCx (i : Instr) (s : State) (n : Fin 8) (g : Guard) (cd ca cb : CReg) (last : Bool) (op : F32.Cx → F32.Cx → F32.Cx) : State :=
  syl i s (.pe n) g last fun f => .ok [.setC cd.val (op (f.gc ca.val) (f.gc cb.val))]

/-- sd from a complex register. -/
def sylCs (i : Instr) (s : State) (n : Fin 8) (g : Guard) (rd : SReg) (ca : CReg) (last : Bool) (op : F32.Cx → Word) : State :=
  syl i s (.pe n) g last fun f => .ok [.setS rd.val (op (f.gc ca.val))]

/-- R205: a 12-bit immediate sign-extended, zero-extended; a 21-bit one sign-extended. -/
def sext12 (i : BitVec 12) : Word := i.signExtend 32
def zext12 (i : BitVec 12) : Word := i.zeroExtend 32
def sext21 (i : BitVec 21) : Word := i.signExtend 32

/-- The target of a relative transfer (R205, R217). -/
def relTarget (m pc : Nat) (off : BitVec 21) : Nat := (((pc : Int) + off.toInt) % (m : Int)).toNat

end Sys2Proof.Machine
end

