-- ==== Sys2Proof/Machine/PorlonSl.lean ====
section
/-! DEFINITION. The SL syllables of the scheme cores: images, timers, edge detectors, time and bit matrices (R229 to R232);
tk.end is with the scheduler. -/

namespace Sys2Proof.Machine

/-- A word of the running task's input image as latched (R229, R283). -/
def inWord (s : State) (w : Nat) : Word := match s.sch.cur with | some x => mget x.inp w 0 | none => 0

/-- A word of the staging copy: what was written, or the image as last committed (R229). -/
def stgWord (s : State) (w : Nat) : Word :=
  match s.sch.cur with
  | some x => mget x.stg w (mget s.sch.out (4096 * x.task + w) 0)
  | none => 0

def modCur (s : State) (f : TaskRun → TaskRun) : State := { s with sch := { s.sch with cur := s.sch.cur.map f } }

/-- The now of R230, whole µs. -/
def slNow (s : State) : Nat := match s.sch.cur with | some x => x.now | none => 0

/-- ild (R229). -/
def execIld (g : Guard) (rd : SReg) (w : BitVec 12) (s : State) : Host.Outcome State Fault Refusal :=
  .next (syl (.ild g rd w) s .sl g true fun _ => .ok [.setS rd.val (inWord s w.toNat)])

/-- ildb: bit b of an input word (R229). -/
def execIldb (g : Guard) (pd : PReg) (w : BitVec 12) (b : Fin 32) (s : State) : Host.Outcome State Fault Refusal :=
  .next (syl (.ildb g pd w b) s .sl g true fun _ => .ok [.setP pd.val ((inWord s w.toNat).getLsbD b.val)])

/-- ist: a word of the staging copy (R229). -/
def execIst (g : Guard) (w : BitVec 12) (rs : SReg) (s : State) : Host.Outcome State Fault Refusal :=
  .next (sylF (.ist g w rs) s .sl g true fun f => (.ok [], modCur s fun x => { x with stg := mput x.stg w.toNat (f.gs rs.val) }))

/-- A word with bit `b` set or cleared. -/
def withBit (v : Word) (b : Nat) (on : Bool) : Word :=
  if on then v ||| BitVec.ofNat 32 (2 ^ b) else v &&& ~~~BitVec.ofNat 32 (2 ^ b)

/-- istb: one bit of a staging word (R229). -/
def execIstb (g : Guard) (w : BitVec 12) (b : Fin 32) (ps : PReg) (s : State) : Host.Outcome State Fault Refusal :=
  .next (sylF (.istb g w b ps) s .sl g true fun f =>
    (.ok [], modCur s fun x => { x with stg := mput x.stg w.toNat (withBit (stgWord s w.toNat) b.val (f.gp ps.val)) }))

/-! ### Timers (R230) -/

def tmOf (s : State) (t : Nat) : Timer := mget s.sch.tm t {}
def setTm (s : State) (t : Nat) (x : Timer) : State := { s with sch := { s.sch with tm := mput s.sch.tm t x } }

/-- Marks a timer as evaluated by the running task (R288). -/
def markTm (s : State) (t : Nat) : State := modCur s fun x => { x with tms := if x.tms.contains t then x.tms else x.tms ++ [t] }

/-- The difference of two u64 times, modulo 2^64 (the arithmetic of R230). -/
def u64Sub (a b : Nat) : Nat := (a + 2 ^ 64 - b % 2 ^ 64) % 2 ^ 64

/-- A timer restored by a warm restart starts from its stored elapsed time at its first evaluation (R290). -/
def Timer.wake (x : Timer) (now : Nat) : Timer :=
  match x.carry with
  | some e => { x with start := u64Sub now e, carry := none }
  | none => x

/-- ton of R230: the timer and q. -/
def Timer.ton (x : Timer) (now : Nat) (i : Bool) : Timer × Bool :=
  if !i then ({ x with run := false, prev := i }, false)
  else
    let x1 := if x.run then x else { x with run := true, start := now }
    ({ x1 with prev := i }, decide (x1.pre ≤ u64Sub now x1.start))

/-- tof of R230. -/
def Timer.tof (x : Timer) (now : Nat) (i : Bool) : Timer × Bool :=
  if i then ({ x with run := false, q := true, prev := i }, true)
  else if x.q then
    let x1 := if x.run then x else { x with run := true, start := now }
    let x2 := if x1.pre ≤ u64Sub now x1.start then { x1 with q := false, run := false } else x1
    ({ x2 with prev := i }, x2.q)
  else ({ x with prev := i }, false)

/-- tpl of R230: a pulse that is not retriggerable. -/
def Timer.tpl (x : Timer) (now : Nat) (i : Bool) : Timer × Bool :=
  let x1 := if i && !x.prev && !x.run then { x with run := true, start := now } else x
  let x2 := if x1.run && decide (x1.pre ≤ u64Sub now x1.start) then { x1 with run := false } else x1
  ({ x2 with prev := i }, x2.run)

/-- The evaluation of a timer by one of the three kinds. -/
def tmEval (i : Instr) (s : State) (g : Guard) (pd pa : PReg) (t : Nat) (op : Timer → Nat → Bool → Timer × Bool) : State :=
  sylF i s .sl g true fun f =>
    let r := op ((tmOf s t).wake (slNow s)) (slNow s) (f.gp pa.val)
    (.ok [.setP pd.val r.2], markTm (setTm s t r.1) t)

def execTon (g : Guard) (pd pa : PReg) (t : Fin 2048) (s : State) : Host.Outcome State Fault Refusal :=
  .next (tmEval (.ton g pd pa t) s g pd pa t.val Timer.ton)

def execTof (g : Guard) (pd pa : PReg) (t : Fin 2048) (s : State) : Host.Outcome State Fault Refusal :=
  .next (tmEval (.tof g pd pa t) s g pd pa t.val Timer.tof)

def execTpl (g : Guard) (pd pa : PReg) (t : Fin 2048) (s : State) : Host.Outcome State Fault Refusal :=
  .next (tmEval (.tpl g pd pa t) s g pd pa t.val Timer.tpl)

/-- tpre: sets the preset, in µs (R230). -/
def execTpre (g : Guard) (t : Fin 2048) (rs : SReg) (s : State) : Host.Outcome State Fault Refusal :=
  .next (sylF (.tpre g t rs) s .sl g true fun f => (.ok [], setTm s t.val { tmOf s t.val with pre := (f.gs rs.val).toNat }))

/-- The elapsed time of a running timer, saturating at 32 bits; 0 where it does not run (R230). -/
def Timer.elapsed (x : Timer) (now : Nat) : Nat :=
  if x.run then min (u64Sub now (x.wake now).start) 0xFFFFFFFF else 0

/-- tel (R230). -/
def execTel (g : Guard) (rd : SReg) (t : Fin 2048) (s : State) : Host.Outcome State Fault Refusal :=
  .next (syl (.tel g rd t) s .sl g true fun _ => .ok [.setS rd.val (BitVec.ofNat 32 ((tmOf s t.val).elapsed (slNow s)))])

/-- trst: clears run, q and prev (R230). -/
def execTrst (g : Guard) (t : Fin 2048) (s : State) : Host.Outcome State Fault Refusal :=
  .next (sylF (.trst g t) s .sl g true fun _ =>
    (.ok [], setTm s t.val { tmOf s t.val with run := false, q := false, prev := false, carry := none }))

/-! ### Edge detectors, time, bit matrices (R231, R232) -/

/-- edg: rising, falling or either edge against the detector's memory bit (R231). -/
def execEdg (g : Guard) (pd pa : PReg) (e : Fin 4096) (kind : Fin 3) (s : State) : Host.Outcome State Fault Refusal :=
  .next (sylF (.edg g pd pa e kind) s .sl g true fun f =>
    let i := f.gp pa.val
    let m := mget s.sch.ed e.val false
    let r := if kind.val = 0 then i && !m else if kind.val = 1 then !i && m else i != m
    let s1 := { s with sch := { s.sch with ed := mput s.sch.ed e.val i } }
    (.ok [.setP pd.val r], modCur s1 fun x => { x with eds := if x.eds.contains e.val then x.eds else x.eds ++ [e.val] }))

/-- rdtime: bits [31:0] of now in µs (R232). -/
def execRdtime (g : Guard) (rd : SReg) (s : State) : Host.Outcome State Fault Refusal :=
  .next (syl (.rdtime g rd) s .sl g true fun _ => .ok [.setS rd.val (BitVec.ofNat 32 (slNow s))])

/-- tk.act: asks for an activation of an event task, effective when the run commits (R232, R279). -/
def execTkAct (g : Guard) (n : Fin 16) (s : State) : Host.Outcome State Fault Refusal :=
  .next (sylF (.tkAct g n) s .sl g true fun _ => (.ok [], modCur s fun x => { x with acts := x.acts ++ [n.val] }))

/-- The bit-matrix product of R232 over 32 words at SC SRAM address `b`. -/
def bmx (s : State) (a : Word) (b : Nat) (hit : Word → Word → Bool) : Word :=
  BitVec.ofNat 32 (bitmap 32 fun k => hit a (s.rdW (scBase + b + 4 * k)))

/-- A bit-matrix syllable: a matrix outside SC SRAM or misaligned raises ACCESS (R232, R236). -/
def bmxSyl (i : Instr) (s : State) (g : Guard) (rd ra rb : SReg) (hit : Word → Word → Bool) : State :=
  sylF i s .sl g true fun f =>
    let b := (f.gs rb.val).toNat
    if b % 4 ≠ 0 ∨ 0x80000 < b + 128 then (.error excAccess, s)
    else (.ok [.setS rd.val (bmx s (f.gs ra.val) b hit)], (scReads s f.pc ((List.range 32).map fun k => scBase + b + 4 * k)).1)

def execBmxOr (g : Guard) (rd ra rb : SReg) (s : State) : Host.Outcome State Fault Refusal :=
  .next (bmxSyl (.bmxOr g rd ra rb) s g rd ra rb fun a row => a &&& row != 0)

def execBmxAnd (g : Guard) (rd ra rb : SReg) (s : State) : Host.Outcome State Fault Refusal :=
  .next (bmxSyl (.bmxAnd g rd ra rb) s g rd ra rb fun a row => a &&& row == row)

end Sys2Proof.Machine
end

