-- ==== Sys2Proof/Machine/Journal.lean ====
section
/-! DEFINITION. The retained area of MRAM (R287, R288, R290, R542): checkpoints and journal records as bytes, each with its CRC-32, and
how they are read back. -/

namespace Sys2Proof.Machine

/-- Base of the retained area, of a checkpoint copy, of the journal ring; the ring's size (R287). -/
def retBase : Nat := mramBase + 0xA00000
def ckBase (copy : Nat) : Nat := retBase + 0x40000 * copy
def ringBase0 : Nat := retBase + 0x80000
def ringSize : Nat := 0x80000

/-- A timer as it is stored: its elapsed time stands in the start field. -/
def storeTimer (x : Timer) (now : Nat) : Timer := { x with start := x.elapsed now, carry := none }

/-! ### Entries: the sizes and places of section kind 9 (R545, assumption 16) -/

def boolNat (b : Bool) : Nat := if b then 1 else 0

/-- The 12 bytes of a timer, whose start field holds its elapsed time. -/
def timerBytes (e : Nat × Timer) : List Byte :=
  leBytes 2 e.1 ++ leBytes 2 (boolNat e.2.run + 2 * boolNat e.2.q + 4 * boolNat e.2.prev) ++ leBytes 4 e.2.pre ++ leBytes 4 e.2.start

/-- The 4 bytes of an edge detector. -/
def edgeBytes (e : Nat × Bool) : List Byte := leBytes 2 e.1 ++ leBytes 2 (boolNat e.2)

/-- `n` timers, and the bytes after them. -/
def readTimers : Nat → List Byte → List (Nat × Timer) × List Byte
  | 0, d => ([], d)
  | n + 1, d =>
    let fl := leNat ((d.drop 2).take 2)
    let x : Timer := { pre := leNat ((d.drop 4).take 4), run := fl.testBit 0, q := fl.testBit 1, prev := fl.testBit 2,
                       start := leNat ((d.drop 8).take 4) }
    let r := readTimers n (d.drop 12)
    ((leNat (d.take 2), x) :: r.1, r.2)

/-- `n` edge detectors, and the bytes after them. -/
def readEdges : Nat → List Byte → List (Nat × Bool) × List Byte
  | 0, d => ([], d)
  | n + 1, d => let r := readEdges n (d.drop 4); ((leNat (d.take 2), leNat ((d.drop 2).take 2) != 0) :: r.1, r.2)

/-- `n` blocks of an address, for `head` bytes of length, and data. -/
def readBlocks (lenOf : List Byte → Nat) (head : Nat) : Nat → List Byte → List (Nat × List Byte) × List Byte
  | 0, d => ([], d)
  | n + 1, d =>
    let k := lenOf d
    let r := readBlocks lenOf head n (d.drop (head + k))
    ((leNat (d.take 4), (d.drop head).take k) :: r.1, r.2)

/-! ### Checkpoints (R287) -/

/-- The body of a checkpoint: identity, record number, length and counts, retained regions, timers, edge detectors (assumption 18). A
timer or detector that is cleared, with preset 0, has no entry. -/
def ckptBody (k : Ckpt) : List Byte :=
  let parts := k.regions.flatMap (fun e => leBytes 4 e.1 ++ leBytes 4 e.2.length ++ e.2) ++ k.tms.flatMap timerBytes ++ k.eds.flatMap edgeBytes
  leBytes 32 k.ident ++ leBytes 8 k.seq ++ leBytes 4 parts.length ++ leBytes 4 k.regions.length ++ leBytes 4 k.tms.length
    ++ leBytes 4 k.eds.length ++ parts

/-- A checkpoint as written, without its completion word: the body and its CRC-32. -/
def ckptBytes (k : Ckpt) : List Byte := ckptBody k ++ leBytes 4 (crc32 (ckptBody k)).toNat

/-- Where the completion word of a copy stands, and what it reads: 0 is an incomplete checkpoint; [12:0] the ring position of the next
record in units of 64 bytes, [31:13] the checkpoint's number (assumption 18). -/
def doneAddr (copy : Nat) : Nat := ckBase copy + 0x3FFFC
def doneWord (s : State) (copy : Nat) : Nat := (s.rdW (doneAddr copy)).toNat

/-- The checkpoint in a copy, where its completion word and CRC-32 are good (R290). -/
def ckptAt (s : State) (copy : Nat) : Option Ckpt :=
  let b := ckBase copy
  let len := 56 + leNat (s.rdMem (b + 40) 4)
  if doneWord s copy = 0 ∨ 0x3FFF8 < len then none
  else
    let d := s.rdMem b len
    if leNat (s.rdMem (b + len) 4) ≠ (crc32 d).toNat then none
    else
      let r := readBlocks (fun x => leNat ((x.drop 4).take 4)) 8 (leNat ((d.drop 44).take 4)) (d.drop 56)
      let t := readTimers (leNat ((d.drop 48).take 4)) r.2
      let e := readEdges (leNat ((d.drop 52).take 4)) t.2
      some { ident := leNat (d.take 32), seq := leNat ((d.drop 32).take 8), regions := r.1, tms := t.1, eds := e.1 }

/-- Does copy 1 hold the newer number? Numbers follow one another and pass from 2^19 − 1 to 1. -/
def newer1 (s : State) : Bool := doneWord s 1 / 8192 == doneWord s 0 / 8192 % 524287 + 1

/-- The copies that are good, newest first. -/
def goodCkpts (s : State) : List (Nat × Ckpt) :=
  let l := if newer1 s then [1, 0] else [0, 1]
  l.filterMap fun c => (ckptAt s c).map fun k => (c, k)

/-- The copy the next checkpoint is written into: not the newest good one (R289). -/
def nextCopy (s : State) : Nat := match goodCkpts s with | e :: _ => 1 - e.1 | [] => 0

/-- The number of the next checkpoint. -/
def nextNo (s : State) : Nat := match goodCkpts s with | e :: _ => doneWord s e.1 / 8192 % 524287 + 1 | [] => 1

/-- A checkpoint is written whole into copy `c`, its completion word last; the ring goes on at `pos` (R287). -/
def putCkpt (s : State) (c : Nat) (k : Ckpt) (pos : Nat) : State :=
  (s.wrMem (ckBase c) (ckptBytes k)).wrW (doneAddr c) (BitVec.ofNat 32 (nextNo s * 8192 + pos / 64))

/-! ### Journal records (R288) -/

/-- Header, lines, timers and edge detectors of a record. -/
def jrecBody (r : JRec) : List Byte :=
  leBytes 8 r.seq ++ leBytes 2 r.task ++ leBytes 2 r.lines.length ++ leBytes 2 r.tms.length ++ leBytes 2 r.eds.length ++ leBytes 8 r.now
    ++ leBytes 8 0 ++ r.lines.flatMap (fun e => leBytes 4 e.1 ++ padTo 32 e.2) ++ r.tms.flatMap timerBytes ++ r.eds.flatMap edgeBytes

/-- The bytes of a journal record: padded to a multiple of 64 (R288). -/
def jrecBytes (r : JRec) : Nat :=
  (32 + 36 * r.lines.length + 12 * r.tms.length + 4 * r.eds.length + 4 + 63) / 64 * 64

/-- A record as written: body, CRC-32, zeros. -/
def recWords (r : JRec) : List Byte := padTo (jrecBytes r) (jrecBody r ++ leBytes 4 (crc32 (jrecBody r)).toNat)

/-- Bytes into the ring from position `p`, round its end. -/
def putRing (s : State) (p : Nat) (l : List Byte) : State :=
  let n := ringSize - p % ringSize
  (s.wrMem (ringBase0 + p % ringSize) (l.take n)).wrMem ringBase0 (l.drop n)

/-- `n` bytes of the ring from position `p`. -/
def getRing (s : State) (p n : Nat) : List Byte :=
  let k := ringSize - p % ringSize
  s.rdMem (ringBase0 + p % ringSize) (min n k) ++ s.rdMem ringBase0 (n - k)

/-- The record at position `p` of the ring, where its CRC-32 is good. -/
def jrecAt (s : State) (p : Nat) : Option JRec :=
  let h := getRing s p 32
  let nl := leNat ((h.drop 10).take 2)
  let nt := leNat ((h.drop 12).take 2)
  let ne := leNat ((h.drop 14).take 2)
  let len := 32 + 36 * nl + 12 * nt + 4 * ne
  if ringSize < len + 4 then none
  else
    let d := getRing s p len
    if leNat (getRing s (p + len) 4) ≠ (crc32 d).toNat then none
    else
      let r := readBlocks (fun _ => 32) 4 nl (d.drop 32)
      let t := readTimers nt r.2
      some { seq := leNat (d.take 8), task := leNat ((d.drop 8).take 2), now := leNat ((d.drop 16).take 8), lines := r.1, tms := t.1,
             eds := (readEdges ne t.2).1, pos := p % ringSize }

/-- The records that follow number `q` from position `p` on, in sequence, up to the first whose CRC fails or that is another one
(R290). -/
def recsFrom (s : State) : (fuel : Nat) → (q p : Nat) → List JRec
  | 0, _, _ => []
  | k + 1, q, p => match jrecAt s p with
    | some r => if r.seq = q + 1 then r :: recsFrom s k (q + 1) ((p + jrecBytes r) % ringSize) else []
    | none => []

end Sys2Proof.Machine
end

