-- ==== Sys2Proof/Machine/Sch.lean ====
section
/-! DEFINITION. The scheme cores (R272 to R301): releases, dispatch, commit, the journal and checkpoints, warm and cold
restarts, block resets, and the exchange up to its switch. -/

namespace Sys2Proof.Machine

def modSch (s : State) (f : Sch → Sch) : State := { s with sch := f s.sch }

/-! ### Releases (R277 to R280) -/

/-- Has task `t` an instance that runs or is preempted? -/
def hasInstance (s : State) (t : Nat) : Bool :=
  (match s.sch.cur with | some x => x.task == t | none => false) || s.sch.pre.any fun x => x.task == t

def isReleased (s : State) (t : Nat) : Bool := s.sch.rel.contains t || s.sch.heldRel.contains t

/-- A skipped release of TK0 or a periodic task (R280): counted, logged at most once per second and task; TK0 also raises
TICK_OVR with scheme detail. -/
def overrun (s : State) (t : Nat) : State :=
  let s1 := (s.sat1 (R.SCH_TKn_CNT_OVR t)).wrb (R.SCH_TKn_STAT_OVR_STK t) true
  let s2 := if mget s1.sch.ovrAt t 0 + 1000000000 ≤ s1.tb2Ns ∨ !s1.sch.ovrAt.any (·.1 == t) then
      modSch (s1.logIx 0x0B 1 t) fun c => { c with ovrAt := mput c.ovrAt t s1.tb2Ns }
    else s1
  if t = 0 then s2.raiseLine 6 8 else s2

/-- An instance of `t` is released; from a switch boundary on it is held (R296). -/
def enqueue (s : State) (t : Nat) : State :=
  if s.sch.quiesce then modSch s fun c => { c with heldRel := c.heldRel ++ [t] }
  else schedule (taskState (modSch s fun c => { c with rel := c.rel ++ [t] }) t)

/-- A release or an activation of task `t` (R280). Nothing is released while the scheme does not run, stops for STANDBY
(R469) or waits for the first checkpoint of a cold restart (R291), and a task that the image leaves empty never is (R275). -/
def release (s : State) (t : Nat) : State :=
  if s.rd R.SCH_STAT_STATE ≠ 1 ∨ s.sch.stopping ∨ s.sch.coldWait ∨ s.rd (R.SCH_TKn_CFG_KIND t) = 0 then s
  else if s.rd (R.SCH_TKn_CFG_KIND t) = 3 then
    if isReleased s t then s.sat1 (R.SCH_TKn_CNT_MERGED t) else enqueue s t
  else if isReleased s t || (!s.sch.quiesce && hasInstance s t) then overrun s t
  else enqueue s t

/-- M in ns. -/
def frameNs (s : State) : Nat := s.rd R.SCH_FRAME_MFRAME * 1000000

/-- The latest release instant of periodic task `t` in the running frame, TB2 in ns (R277): with P ≤ M the frame's start and each P after
it, with P = q·M the start of a frame whose count mod q is 0. -/
def releaseDue (s : State) (t : Nat) : Option Nat :=
  let p := s.rd (R.SCH_TKn_CFG_PARAM t) * 1000
  match s.sch.frame with
  | none => none
  | some f =>
    if p = 0 then none
    else if p ≤ frameNs s then some (f + min ((s.tb2Ns - f) / p) (frameNs s / p - 1) * p)
    else if s.rd R.SCH_FCNT_FCNT % (p / frameNs s) = 0 then some f else none

/-- TASK_RELEASE_PERIODIC: a release instant of a periodic task has come on TB2 and has not been taken (R277). -/
def execTaskReleasePeriodic (t : Fin 16) (s : State) : Host.Outcome State Fault Refusal :=
  .next <|
    match releaseDue s t with
    | some d =>
      if s.rd (R.SCH_TKn_CFG_KIND t) = 2 ∧ mget s.sch.relAt t 0 < d then
        release (modSch s fun c => { c with relAt := mput c.relAt t d }) t
      else s
    | none => s

/-- The ticks of FTG `g` that have closed, newest first (R166). -/
def closedTicks (s : State) (g : Nat) : List Nat := ((mget s.esp.ftg g {}).insts.filter (·.done)).map (·.tick)

/-- The ticks of an FTG that were notified after `tick`. -/
def ticksAfter (s : State) (g tick : Nat) : List Nat := (closedTicks s g).takeWhile (· ≠ tick)

/-- Has the snapshot of core `n` for `tick` arrived: it is the latest one, or a later tick's is (R278)? -/
def snapArrived (s : State) (g tick n : Nat) : Bool := s.snapTick.any fun e => e.1 == n && (e.2 == tick || (ticksAfter s g tick).contains e.2)

/-- The cores of FTG `g` whose snapshot of `tick` has not arrived (R278). -/
def missing (s : State) (g tick : Nat) : List Nat :=
  (List.range 8).filter fun n => s.img.used.testBit n && ftgOf s n == g && !snapArrived s g tick n

/-- Is TK0 to be released for a tick: the snapshots of all cores in RUN have arrived, or the next notification has; and it has not been
released for it or a later one (R278)? -/
def tk0Due (s : State) (g tick : Nat) : Bool :=
  (closedTicks s g).contains tick
    && (!(ticksAfter s g tick).isEmpty || (missing s g tick).all fun n => s.rd (R.ELCn_STAT_STATE n) != 1)
    && s.sch.tk0Tick.all fun k => k != tick && !(ticksAfter s g tick).contains k

/-- TK0_RELEASE: the snapshots of a tick have reached SCH, or the next notification has (R278). -/
def execTk0Release (tick : Nat) (s : State) : Host.Outcome State Fault Refusal :=
  let n := s.rd (R.SCH_TKn_CFG_PARAM 0)
  let g := s.rd (R.SCH_TKn_CFG_FTG 0)
  .next (if s.rd (R.SCH_TKn_CFG_KIND 0) = 1 ∧ n ≠ 0 ∧ tick % n = 0 ∧ tk0Due s g tick = true then
      (let s1 := release (modSch s fun c => { c with tk0Tick := some tick }) 0
       if isReleased s 0 then s1 else modSch s1 fun c => { c with tk0Miss := missing s g tick })
    else s)

/-- EVENT_TASK_TRIGGER: the oldest trigger that has reached SCH activates its task (R279). -/
def execEventTaskTrigger (s : State) : Host.Outcome State Fault Refusal :=
  .next <|
    match s.sch.trig with
    | [] => s
    | t :: r => release (modSch s fun c => { c with trig := r }) t

/-- TASK_HOST_ACTIVATE: a write of 1 to SCH_TKn_ACT.ACT; ignored for kinds other than event (R279, R304). -/
def execTaskHostActivate (t : Fin 16) (s : State) : Host.Outcome State Fault Refusal :=
  .next (if s.rd (R.SCH_TKn_CFG_KIND t) = 3 then release s t else s)

/-- Has every element core in RUN ended class 0 of a tick since the latest refresh (R457)? -/
def coresAlive (s : State) : Bool :=
  (List.range 8).all fun n => s.rd (R.ELCn_STAT_STATE n) != 1 || (s.core n).c0Done

/-- The watchdog is refreshed, and the cores' marks start again (R457). -/
def wdtRefresh (s : State) : State :=
  { s with glb := { s.glb with wdt := some s.tb2Ns }, ec := s.ec.map fun e => (e.1, { e.2 with c0Done := false }) }

/-- The watchdog at a frame start (R457): refreshed where the scheme and the cores are alive; started from full where a pause has ended. -/
def wdtFrame (s : State) : State :=
  if (s.rd R.SCH_STAT_STATE == 1 && coresAlive s) || (s.glb.wdt.isNone && s.rd R.GLB_PWR_STATE == 1) then wdtRefresh s else s

/-- MAJOR_FRAME_START: TB2 has reached a frame start: the first whole multiple of M after the scheme's start, counted 0, then one every
M (R277). -/
def execMajorFrameStart (s : State) : Host.Outcome State Fault Refusal :=
  .next <|
    match s.sch.frame with
    | none =>
      let f := (s.sch.startAt / max 1 (frameNs s) + 1) * frameNs s
      if s.rd R.SCH_STAT_STATE = 1 ∧ f ≤ s.tb2Ns then wdtFrame (modSch (s.wr R.SCH_FCNT_FCNT 0) fun c => { c with frame := some f }) else s
    | some f =>
      if f + frameNs s ≤ s.tb2Ns then wdtFrame (modSch (s.inc R.SCH_FCNT_FCNT) fun c => { c with frame := some (f + frameNs s) }) else s

/-! ### Dispatch (R280, R283) -/

/-- The word of an input image: the point's value, or its quality byte. TK0 sees I on the bays whose snapshot had not
arrived (R278, R282). -/
def latchWord (s : State) (task : Nat) (p : Nat) (wantQ : Bool) : Word :=
  let e := livePoint s p
  let late := task == 0 && decide (p < 1536) && s.sch.tk0Miss.contains (p / 64 / 3)
  if wantQ then BitVec.ofNat 32 (if late then e.2 ||| qI else e.2) else e.1

/-- The input image of a task, latched from the live store in one cycle (R283). -/
def latch (s : State) (task : Nat) : List (Nat × Word) :=
  (s.img.inMap.filter fun e => e.1 / 4096 == task).map fun e => (e.1 % 4096, latchWord s task e.2.1 e.2.2)

/-- Words a failed run had written are put back before the task's next run (R238). -/
def putBack (m : List Host.Cell) (l : List (Nat × Word)) : List Host.Cell :=
  l.foldl (fun a e => memWrs a (scBase + e.1) (leBytes 4 e.2.toNat)) m

/-- The 32-byte lines that some words lie in. -/
def linesOf (l : List (Nat × Word)) : List Nat :=
  l.foldl (fun a e => if a.contains (e.1 / 32 * 32) then a else a ++ [e.1 / 32 * 32]) []

/-- TASK_DISPATCH: the highest-priority released instance starts (R280, R283). -/
def execTaskDispatch (s : State) : Host.Outcome State Fault Refusal :=
  .next <|
    match s.sch.cur, bestReleased s with
    | none, some t =>
      if s.sch.pre.any fun x => decide (x.task < t) then s
      else
        let back := mget s.sch.restore t []
        let run : TaskRun := { task := t, rf := { pc := mget s.img.taskEntry t 0 }, now := s.tb2Ns / 1000, inp := latch s t,
                               lines := linesOf back }
        let s1 := modSch s fun c => { c with cur := some run, rel := c.rel.filter (· ≠ t), restore := mdel c.restore t }
        taskState (back.foldl (fun a e => a.putWord (scBase + e.1) e.2) s1) t
    | _, _ => s

/-! ### The journal (R287 to R289) -/

/-- SRAM with what running and preempted instances have written taken back. -/
def committedMem (s : State) : List Host.Cell :=
  let runs := (match s.sch.cur with | some x => [x] | none => []) ++ s.sch.pre
  (s.sch.restore.foldl (fun a e => putBack a e.2) (runs.foldl (fun a x => putBack a x.undo) s.mem))

/-- A checkpoint of the state as it stands (R287). -/
def takeCkpt (s : State) : Ckpt :=
  let m := committedMem s
  { ident := s.img.ident, seq := s.sch.jseq - 1,
    regions := s.img.retained.map fun e => (e.2.1, memRds m (scBase + e.2.1) e.2.2),
    tms := s.sch.tm.map fun e => (e.1, storeTimer e.2 (s.tb2Ns / 1000)),
    eds := s.sch.ed }

/-- The retained regions of the running image, as offset and length in SC SRAM. -/
def retRegions (s : State) : List (Nat × Nat) := s.img.retained.map fun e => e.2

/-- A checkpoint starts, unless one is in progress: the copy it goes to is no longer whole (R289). Nothing starts where an uncorrectable
word of a retained region halts the pair (R272). -/
def startCkpt (s : State) : State :=
  let q := scRegions s (retRegions s)
  if s.sch.ckpt.isSome then s
  else if !q.2 then q.1
  else
    let s1 := modSch q.1 fun c => { c with ckpt := some (takeCkpt s), jfillCk := c.jfill, ckPos := c.jpos }
    (s1.wrW (doneAddr (nextCopy s)) 0).wrb R.SCH_JRN_STAT_CKPT_BUSY true

def jrnFill (s : State) : State := s.wr R.SCH_JRN_STAT_FILL (min (s.sch.jfill / 64) 16383)

/-- A record takes its number and its place in the ring, and is written, or waits where the ring is full (R288, R289). -/
def appendRec (s : State) (r : JRec) : State :=
  let n := s.sch.jfill + jrecBytes r
  let s0 := modSch s fun c => { c with jseq := c.jseq + 1, jpos := (c.jpos + jrecBytes r) % ringSize }
  if 524288 < n ∨ s.sch.jwait ≠ [] then
    let s1 := modSch s0 fun c => { c with jwait := c.jwait ++ [r] }
    if s.on R.SCH_JRN_STAT_STALL then s1
    else ((s1.wrb R.SCH_JRN_STAT_STALL true).wrb R.SCH_STAT_JSTALL_STK true).logIx 0x0B 5 r.task
  else
    let s1 := jrnFill (modSch s0 fun c => { c with jrn := c.jrn ++ [r], jfill := n })
    if 262144 < n then startCkpt s1 else s1

/-- The record of a committing instance. -/
def recordOf (s : State) (x : TaskRun) : JRec :=
  { pos := s.sch.jpos, seq := s.sch.jseq, task := x.task, now := x.now,
    lines := x.lines.map fun a => (a, s.rdMem (scBase + a) 32),
    tms := x.tms.map fun t => (t, storeTimer (tmOf s t) x.now),
    eds := x.eds.map fun e => (e, mget s.sch.ed e false) }

/-- JOURNAL_RECORD_DURABLE: the oldest written record stands in the ring; its task's next instance may be dispatched (R288). -/
def execJournalRecordDurable (s : State) : Host.Outcome State Fault Refusal :=
  .next <|
    match s.sch.jrn with
    | [] => s
    | r :: t =>
      let s1 := putRing (modSch s fun c => { c with jrn := t }) r.pos (recWords r)
      schedule (s1.wr64 R.SCH_JRN_SEQ_LO_SEQ R.SCH_JRN_SEQ_HI_SEQ r.seq)

/-- Records that waited are written while they fit (R289). -/
def drainWait (s : State) (l : List JRec) : State :=
  match l with
  | [] => s.wrb R.SCH_JRN_STAT_STALL false
  | r :: t =>
    if 524288 < s.sch.jfill + jrecBytes r then modSch s fun c => { c with jwait := r :: t }
    else drainWait (modSch s fun c => { c with jrn := c.jrn ++ [r], jfill := c.jfill + jrecBytes r }) t

/-- CHECKPOINT_COMPLETE: the checkpoint in progress is whole in the other copy (R289). -/
def execCheckpointComplete (s : State) : Host.Outcome State Fault Refusal :=
  .next <|
    match s.sch.ckpt with
    | none => s
    | some k =>
      let copy := nextCopy s
      let s1 := modSch (putCkpt s copy k s.sch.ckPos) fun c => { c with
        ckpt := none, coldWait := false, jfill := c.jfill - c.jfillCk, jfillCk := 0 }
      let s2 := (s1.wrb R.SCH_JRN_STAT_CKPT_BUSY false).wr R.SCH_JRN_STAT_CKCOPY copy
      let s3 := jrnFill (drainWait (modSch s2 fun c => { c with jwait := [] }) s2.sch.jwait)
      schedule (if 262144 < s3.sch.jfill then startCkpt s3 else s3)

/-! ### Commit (R285) -/

/-- The committed value of a point whose place in the output images is word `k`, bit `b`. -/
def outBit (out : List (Nat × Word)) (kb : Nat) : Bool := (mget out (kb / 32) 0).getLsbD (kb % 32)

/-- The committed scheme terms of the TRIP outputs and of the GPOs, from the images of all tasks. -/
def schTerms (s : State) : Nat :=
  bitmap 48 fun o => s.img.outBits.any fun e => e.2 == .trip o && outBit s.sch.out e.1
def gpoTermsSch (s : State) : Nat :=
  bitmap 16 fun k => s.img.outBits.any fun e => e.2 == .gpo k && outBit s.sch.out e.1

/-- Does member `m` of control block `g` show two values of its scheme point differently? -/
def pointShown (s : State) (g m : Nat) (old new : Word) : Bool :=
  match (((s.img.gcbs.find? fun e => e.1 == g).map fun e => e.2.members.getD m (.int32, .schemeQuality)).getD (.int32, .schemeQuality) : GType × GSrc) with
  | (t, .point bit) => shownOf t old bit != shownOf t new bit
  | _ => false

/-- One changed point arrives at its destination (R285); scheme terms and GPOs are taken together afterwards. -/
def sendPoint (s : State) (d : OutDst) (v : Word) : State :=
  match d with
  | .trip _ => s
  | .gpo _ => s
  | .goose g m => { (modSch s fun c => { c with goose := mput c.goose (1024 * g + m) v }) with
      net := { s.net with dirty := if s.net.dirty.contains g || !pointShown s g m (mget s.sch.goose (1024 * g + m) 0) v then s.net.dirty
        else s.net.dirty ++ [g] } }
  | .sg b => groupRequest s (b / 3) (b % 3) (v.toNat % 8)
  | .mode b => modeRequest s (b / 3) (b % 3) (v.toNat % 8)
  | .recSig i => modSch s fun c => { c with recSig := mput c.recSig i (v != 0) }

/-- Every changed point of a committing instance is sent: bit points, then word points. -/
def sendAll (s : State) (task : Nat) (old : List (Nat × Word)) : State :=
  let bits := s.img.outBits.filter fun e => e.1 / 32 / 4096 == task && outBit s.sch.out e.1 != outBit old e.1
  let words := s.img.outWords.filter fun e => e.1 / 4096 == task && mget s.sch.out e.1 0 != mget old e.1 0
  let s1 := bits.foldl (fun a e => sendPoint a e.2 (if outBit s.sch.out e.1 then 1 else 0)) s
  words.foldl (fun a e => sendPoint a e.2 (mget s.sch.out e.1 0)) s1

/-- The core time of an instance that ends (a free value: assumption 10). -/
def recordTime (s : State) (t : Nat) : State :=
  let p := s.fresh 24
  let s1 := p.2.wr (R.SCH_TKn_EXLAST_EXLAST t) p.1.toNat
  s1.wr (R.SCH_TKn_EXMAX_EXMAX t) (max (s1.rd (R.SCH_TKn_EXMAX_EXMAX t)) p.1.toNat)

/-- The journal's reads of the lines an instance has written (R272, R288). -/
def readLines (s : State) (x : TaskRun) : State × Bool := scRegions s (x.lines.map fun a => (a, 32))

/-- A committing end (R285, R288): the staging copy becomes the committed image, changed points are sent, the first commit
after a restart ends the forcing (R274), the journal takes a record, activations take effect (R279). -/
def commit (s : State) (x : TaskRun) : State :=
  let old := s.sch.out
  let s1 := modSch s fun c => { c with
    cur := none, forced := false,
    out := x.stg.foldl (fun a e => mput a (4096 * x.task + e.1) e.2) c.out }
  let s2 := sendAll s1 x.task old
  let s3 := gateUpdate { s2 with thn := { s2.thn with sch := schTerms s2, gpoSch := gpoTermsSch s2 } }
  let s4 := appendRec s3 (recordOf s3 x)
  let s5 := recordTime (s4.inc (R.SCH_TKn_RUNS_RUNS x.task)) x.task
  let s6 := taskState s5 x.task
  schedule (x.acts.foldl (fun a t => if s.rd (R.SCH_TKn_CFG_KIND t) = 3 then release a t else a) s6)

/-- tk.end (R232, R285): the end of the running instance, with its commit; an uncorrectable word of its lines halts the pair, and it neither
commits nor journals (R272, R273). -/
def execTkEnd (g : Guard) (s : State) : Host.Outcome State Fault Refusal :=
  .next <|
    match s.sch.cur with
    | none => s
    | some x =>
      if s.rd R.SCH_STAT_STATE ≠ 1 then s
      else if x.rf.guard g && fetchOk s .sl x.rf.pc && !fetchBad s .sl x.rf.pc then
        let p := readLines (fetch s .sl x.rf.pc) x
        if p.2 then commit p.1 x else p.1
      else syl (.tkEnd g) s .sl g true fun _ => .ok []

/-- TASK_BUDGET_EXPIRY: the running instance exceeds its budget and ends without commit (R281). -/
def execTaskBudgetExpiry (s : State) : Host.Outcome State Fault Refusal :=
  .next <|
    match s.sch.cur with
    | none => s
    | some x => if s.rd R.SCH_STAT_STATE ≠ 1 then s
      else (slAbort (s.wrb (R.SCH_TKn_STAT_BUD_STK x.task) true) 6).logIx 0x0B 2 x.task

/-- LOCKSTEP_MISMATCH: SC0 and SC1 disagree; the syllable address is the running instance's (R273). -/
def execLockstepMismatch (s : State) : Host.Outcome State Fault Refusal :=
  .next (lockstepHalt s (match s.sch.cur with | some x => x.rf.pc | none => 0))

/-! ### Restarts (R290 to R292) -/

/-- A stored timer as a warm restart leaves it: a running one starts from its stored elapsed time at its first evaluation. -/
def loadTimer (x : Timer) : Timer := if x.run then { x with carry := some x.start, start := 0 } else { x with start := 0 }

/-- The image's initial timer: one that runs starts with the elapsed time the image gives. -/
def initTimer (x : TimerInit) : Timer :=
  { pre := x.pre, run := x.run, q := x.q, prev := x.prev, carry := if x.run then some x.elapsed else none, kind := x.kind }

/-- The newest whole checkpoint of the running image's identity, with its copy (R290). -/
def warmCkpt (s : State) : Option (Nat × Ckpt) := (goodCkpts s).find? fun e => e.2.ident == s.img.ident

/-- Replays one journal record (R290). -/
def replay (s : State) (r : JRec) : State :=
  let s1 := r.lines.foldl (fun a e => a.putBytes (scBase + e.1) e.2) s
  modSch s1 fun c => { c with
    tm := r.tms.foldl (fun a e => mput a e.1 (loadTimer e.2)) c.tm,
    ed := r.eds.foldl (fun a e => mput a e.1 e.2) c.ed }

/-- The records that a warm restart from a checkpoint replays (R290). -/
def newerRecs (s : State) (k : Nat × Ckpt) : List JRec := recsFrom s 8192 k.2.seq (doneWord s k.1 % 8192 * 64)

/-- A warm restart from a checkpoint (R290): its regions, timers and detectors, then the newer records. The journal goes on after the
last one (assumption 131). -/
def warmRestart (s : State) (k : Nat × Ckpt) : State :=
  let s1 := modSch (k.2.regions.foldl (fun a e => a.putBytes (scBase + e.1) e.2) s) fun c => { c with
    tm := k.2.tms.map fun e => (e.1, loadTimer e.2), ed := k.2.eds }
  let l := newerRecs s k
  let n := (l.map jrecBytes).sum
  jrnFill (modSch (l.foldl replay s1) fun c => { c with
    jseq := k.2.seq + l.length + 1, jpos := (doneWord s k.1 % 8192 * 64 + n) % ringSize, jfill := n })

/-- A cold restart (R291): initial values, and a fresh checkpoint before any task is released. -/
def coldRestart (s : State) : State :=
  let s1 := modSch (s.img.retInit.foldl (fun a e => a.putBytes (scBase + e.1) e.2) s) fun c => { c with
    tm := s.img.timers.map fun e => (e.1, initTimer e.2), ed := s.img.edges, coldWait := true }
  startCkpt s1

/-- What a restart begins from: nothing runs, nothing is released, outputs stay forced until the first commit (R274). The place in
the journal, the live store, the committed images and what was sent from them stay (assumption 17). -/
def freshSch (c : Sch) : Sch :=
  { jseq := c.jseq, jpos := c.jpos, jfill := c.jfill, live := c.live, forced := true, cand := c.cand, readyAt := c.readyAt, exSlot := c.exSlot, exStg := c.exStg,
    out := c.out,
    goose := c.goose, recSig := c.recSig }

/-- Every task's STATE is brought up to date. -/
def taskStates (s : State) : State := (List.range 16).foldl taskState s

/-- The scheme restarts after a start of kind `k` (R292), warm or cold. -/
def scRestart (s : State) (k : Nat) : State :=
  let s0 := taskStates (modSch s fun c => { freshSch c with startAt := s.tb2Ns })
  let s1 := (s0.wrb R.SCH_JRN_STAT_CKPT_BUSY false).wrb R.SCH_JRN_STAT_STALL false
  let want := (s1.rd R.SCH_RSTPOL_WARM).testBit k
  let ck := warmCkpt s1
  let s2 := if want && ck.isNone then (s1.wrb R.SCH_STAT_RETAIN_MISMATCH_STK true).logIx 0x0B 6 k else s1
  let warm := want && ck.isSome
  let s3 := match warm, ck with | true, some c => warmRestart s2 c | _, _ => coldRestart s2
  let s4 := ((if s3.rd R.SCH_STAT_STATE = 2 then s3 else setScState s3 1).wrb R.SCH_STAT_WARM warm).wr R.SCH_STAT_LASTRST k
  s4.logEv 0x0B 7 (leBytes 1 k ++ leBytes 1 (if warm then 1 else 0))

/-! ### Block reset of SC (R274) -/

/-- The first steps of a block reset of SC: B fields at their reset values, STATE is RELOAD, nothing runs; the scheme's
terms fall and stay down until the first commit (assumption 17). -/
def scResetStart (s : State) : State :=
  let s1 := setScState (s.resetDomIn .blk 0xB00000 0xC00000) 3
  let s2 := taskStates (modSch s1 freshSch)
  gateUpdate { s2 with thn := { s2.thn with sch := 0, gpoSch := 0 } }

/-! ### Exchange (R293 to R301) -/

def exchState (s : State) : Nat := s.rd R.SCH_EXCH_STAT_STATE

/-- SCH_EXCH_STAT.STATE takes a value; vector 8 fires at the change (R509). -/
def setExch (s : State) (st : Nat) : State := (s.wr R.SCH_EXCH_STAT_STATE st).fireVec 8

/-- An exchange ends with a result. -/
def endExch (s : State) (r : Nat) : State :=
  setExch ((modSch s fun c => { c with cand := none }).wr R.SCH_EXCH_STAT_RESULT r) 0

/-- EXCHANGE_REQUEST: a REQ written while STATE is IDLE starts CHECKING of the image in SLOT (R293). -/
def execExchangeRequest (s : State) : Host.Outcome State Fault Refusal :=
  .next (if exchState s = 0 then
      setExch (modSch (s.wr R.SCH_EXCH_STAT_DEFERS 0) fun c => { c with
        exSlot := s.rd R.SCH_EXCH_CTL_SLOT, exStg := s.on R.SEC_STAT_BUSY && s.sec.op == 3 && s.sec.early == 0 }) 1
    else s)

/-- R276 for one periodic task: P in whole 250 µs from 0.25 ms to 10 s, dividing M or a multiple of M dividing 10 s. -/
def periodOk (m p : Nat) : Bool :=
  p % 250 == 0 && decide (250 ≤ p) && decide (p ≤ 10000000)
    && ((m * 1000) % p == 0 || (p % (m * 1000) == 0 && 10000000 % p == 0))

/-- R276, R278, R287, R458: frame, periods, divisor, retained regions, watchdog. -/
def limitsOk (i : Image) : Bool :=
  let m := imgField i R.SCH_FRAME_MFRAME
  let tmo := imgField i R.GLB_WDT_TO
  decide (10 ≤ m) && decide (m ≤ 1000) && 10000 % m == 0
    && ((List.range 16).all fun t =>
      let k := imgField i (R.SCH_TKn_CFG_KIND t)
      let p := imgField i (R.SCH_TKn_CFG_PARAM t)
      if k = 1 then p != 0 && 7680 % p == 0 else if k = 2 then periodOk m p else true)
    && (i.retained.all fun e => e.2.1 % 32 == 0 && decide (e.2.2 ≤ 8192) && decide (e.2.1 + e.2.2 ≤ 0x80000))
    && (tmo == 0 || decide (2 * m ≤ 10 * max 20 tmo))

/-- The blocks of an image that an exchange places: the element-state initial values of kind 7 are not written (R295, R300). -/
def exchBlocks (i : Image) : List (Nat × List Byte) := i.blocks.filter fun b => decide (scBase ≤ b.1) || decide (b.1 % 0x100000 < 0x80000)

/-- The blocks that an exchange writes: what the running program has in place is not written again (R295). -/
def newBlocks (s : State) (i : Image) : List (Nat × List Byte) := (exchBlocks i).filter fun b => !(exchBlocks s.img).contains b

/-- EXCHANGE_PRELOAD_DONE: the new locations hold the new program (R295). -/
def execExchangePreloadDone (s : State) : Host.Outcome State Fault Refusal :=
  .next <|
    match exchState s, s.sch.cand with
    | 2, some i =>
      setExch (modSch ((newBlocks s i).foldl (fun a b => a.putBytes b.1 b.2) s) fun c => { c with readyAt := s.tb2Ns }) 3
    | _, _ => s

/-- EXCHANGE_BOUNDARY: the start of a frame, after READY and after a deferral, whose count is a multiple of H/M (R296): no new instance
starts. -/
def execExchangeBoundary (s : State) : Host.Outcome State Fault Refusal :=
  .next <|
    match s.sch.frame with
    | none => s
    | some f =>
      if exchState s = 3 ∧ s.sch.quiesce = false ∧ s.sch.readyAt ≤ f ∧ s.rd R.SCH_FCNT_FCNT % max 1 (s.rd R.SCH_FRAME_HRATIO) = 0 then
        schedule (modSch s fun c => { c with quiesce := true })
      else s

/-- The held releases go to the scheduler (R297, R298); a release of a task that the program leaves empty, held or not, is none (R275). -/
def releaseHeld (s : State) : State :=
  let there (t : Nat) : Bool := s.rd (R.SCH_TKn_CFG_KIND t) != 0
  let s1 := modSch s fun c =>
    { c with quiesce := false, heldRel := [], rel := (c.rel ++ c.heldRel.filter (!c.rel.contains ·)).filter there }
  schedule (taskStates s1)

/-- EXCHANGE_QUIESCE_TIMEOUT: instances have not ended within 1 ms of the boundary (R297). -/
def execExchangeQuiesceTimeout (s : State) : Host.Outcome State Fault Refusal :=
  .next <|
    if !s.sch.quiesce ∨ (s.sch.cur.isNone ∧ s.sch.pre = []) ∨ s.tb2Ns < s.sch.frame.getD 0 + 1000000 then s
    else
      let s1 := (releaseHeld (modSch s fun c => { c with readyAt := s.tb2Ns })).inc R.SCH_EXCH_STAT_DEFERS
      if s1.rd R.SCH_EXCH_STAT_DEFERS = 8 then endExch s1 7 else s1

/-- EXCHANGE_CANCEL: ends an exchange in CHECKING, PRELOAD or READY (R301). -/
def execExchangeCancel (s : State) : Host.Outcome State Fault Refusal :=
  .next (if 1 ≤ exchState s ∧ exchState s ≤ 3 then endExch (releaseHeld s) 8 else s)

/-- Carries a surviving timer into the new image (R299). -/
def carryTimer (old : List (Nat × Timer)) (init : List (Nat × Timer)) (e : Nat × Nat) : List (Nat × Timer) :=
  let o := mget old e.1 {}
  mput init e.2 { o with pre := (mget init e.2 {}).pre }

/-- The regions that the survivors are read from. -/
def carryRegions (i : Image) : List (Nat × Nat) := i.carryVar.map fun e => (e.1, e.2.2)

/-- Steps 1 and 2 of R298: survivors carried as they were last committed, new items initialised, the others discarded (R299). -/
def carryOver (s : State) (i : Image) : State :=
  let m := committedMem s
  let s0 := i.retInit.foldl (fun a e => a.putBytes (scBase + e.1) e.2) { s with mem := m }
  let s1 := i.carryVar.foldl (fun a e => a.putBytes (scBase + e.2.1) (memRds m (scBase + e.1) e.2.2)) s0
  modSch s1 fun c => { c with
    restore := [],
    tm := i.carryTm.foldl (carryTimer c.tm) (i.timers.map fun e => (e.1, initTimer e.2)),
    ed := i.carryEd.foldl (fun a e => mput a e.2 (mget c.ed e.1 false)) i.edges }

/-- The element cores' part of step 4 (R300): contexts open now keep the old entry table; a bay whose element-state layout
has changed is reinitialised at the first notification. -/
def swapCores (s : State) (i : Image) : State :=
  let old := s.img.entry
  let keep (x : Ctx) : Ctx := { x with tbl := some (x.tbl.getD old) }
  let changed (n : Nat) : List Nat := [0, 1, 2].filter fun j => mget s.img.layout (3 * n + j) 0 != mget i.layout (3 * n + j) 0
  (List.range 8).foldl (fun a n => a.modCore n fun c =>
    { c with ctxs := c.ctxs.map keep, held := c.held.map keep, relayout := changed n }) s

end Sys2Proof.Machine
end

