-- ==== Sys2Proof/Machine/Crypto.lean ====
section
/-! DEFINITION. The cryptography that the spec names (R48): SHA-256 of FIPS 180-4, HMAC of RFC 2104, ECDSA over P-256 of FIPS 186-4. -/

namespace Sys2Proof.Machine

/-! ### SHA-256 (FIPS 180-4) -/

/-- The 64 round constants: the first 32 bits of the fractional parts of the cube roots of the first 64 primes. -/
def shaK : List Nat := [
  0x428a2f98, 0x71374491, 0xb5c0fbcf, 0xe9b5dba5, 0x3956c25b, 0x59f111f1, 0x923f82a4, 0xab1c5ed5,
  0xd807aa98, 0x12835b01, 0x243185be, 0x550c7dc3, 0x72be5d74, 0x80deb1fe, 0x9bdc06a7, 0xc19bf174,
  0xe49b69c1, 0xefbe4786, 0x0fc19dc6, 0x240ca1cc, 0x2de92c6f, 0x4a7484aa, 0x5cb0a9dc, 0x76f988da,
  0x983e5152, 0xa831c66d, 0xb00327c8, 0xbf597fc7, 0xc6e00bf3, 0xd5a79147, 0x06ca6351, 0x14292967] ++ [
  0x27b70a85, 0x2e1b2138, 0x4d2c6dfc, 0x53380d13, 0x650a7354, 0x766a0abb, 0x81c2c92e, 0x92722c85,
  0xa2bfe8a1, 0xa81a664b, 0xc24b8b70, 0xc76c51a3, 0xd192e819, 0xd6990624, 0xf40e3585, 0x106aa070,
  0x19a4c116, 0x1e376c08, 0x2748774c, 0x34b0bcb5, 0x391c0cb3, 0x4ed8aa4a, 0x5b9cca4f, 0x682e6ff3,
  0x748f82ee, 0x78a5636f, 0x84c87814, 0x8cc70208, 0x90befffa, 0xa4506ceb, 0xbef9a3f7, 0xc67178f2]

/-- A 32-bit rotation to the right by `k`, 0 < k < 32. -/
def rotr (k x : Nat) : Nat := x / 2 ^ k + x % 2 ^ k * 2 ^ (32 - k)

def sig0 (x : Nat) : Nat := (rotr 7 x ^^^ rotr 18 x) ^^^ x / 8
def sig1 (x : Nat) : Nat := (rotr 17 x ^^^ rotr 19 x) ^^^ x / 1024
def Sig0 (x : Nat) : Nat := (rotr 2 x ^^^ rotr 13 x) ^^^ rotr 22 x
def Sig1 (x : Nat) : Nat := (rotr 6 x ^^^ rotr 11 x) ^^^ rotr 25 x
def chF (x y z : Nat) : Nat := (x &&& y) ^^^ ((0xFFFFFFFF - x) &&& z)
def majF (x y z : Nat) : Nat := ((x &&& y) ^^^ (x &&& z)) ^^^ (y &&& z)

/-- The hash value, words a to h. -/
structure Sha where
  a : Nat
  b : Nat
  c : Nat
  d : Nat
  e : Nat
  f : Nat
  g : Nat
  h : Nat
  deriving DecidableEq, Repr

def shaInit : Sha := ⟨0x6a09e667, 0xbb67ae85, 0x3c6ef372, 0xa54ff53a, 0x510e527f, 0x9b05688c, 0x1f83d9ab, 0x5be0cd19⟩

/-- The message schedule, latest word first: `n` words more. -/
def shaSched : (n : Nat) → List Nat → List Nat
  | 0, l => l
  | n + 1, l => shaSched n (((sig1 (l.getD 1 0) + l.getD 6 0 + sig0 (l.getD 14 0) + l.getD 15 0) % 2 ^ 32) :: l)

/-- One round. -/
def shaRound (x : Sha) (k w : Nat) : Sha :=
  let t := x.h + Sig1 x.e + chF x.e x.f x.g + k + w
  ⟨(t + Sig0 x.a + majF x.a x.b x.c) % 2 ^ 32, x.a, x.b, x.c, (x.d + t) % 2 ^ 32, x.e, x.f, x.g⟩

def shaRounds : List (Nat × Nat) → Sha → Sha
  | [], x => x
  | e :: t, x => shaRounds t (shaRound x e.1 e.2)

def Sha.add (x y : Sha) : Sha :=
  ⟨(x.a + y.a) % 2 ^ 32, (x.b + y.b) % 2 ^ 32, (x.c + y.c) % 2 ^ 32, (x.d + y.d) % 2 ^ 32, (x.e + y.e) % 2 ^ 32, (x.f + y.f) % 2 ^ 32,
   (x.g + y.g) % 2 ^ 32, (x.h + y.h) % 2 ^ 32⟩

/-- A number from bytes, most significant first. -/
def beNat (l : List Byte) : Nat := l.foldl (fun a b => a * 256 + b.toNat) 0

/-- Bytes of a number, most significant first. -/
def beBytes (n v : Nat) : List Byte := (leBytes n v).reverse

/-- The 16 words of a block, last first. -/
def blockWords (l : List Byte) : List Nat := ((List.range 16).map fun k => beNat ((l.drop (4 * k)).take 4)).reverse

/-- One 64-byte block. -/
def shaBlock (x : Sha) (l : List Byte) : Sha := x.add (shaRounds (shaK.zip (shaSched 48 (blockWords l)).reverse) x)

/-- The message with its padding. -/
def shaPad (l : List Byte) : List Byte :=
  l ++ [0x80] ++ List.replicate ((119 - l.length % 64) % 64) 0 ++ beBytes 8 (8 * l.length)

def shaBlocks : (n : Nat) → Sha → List Byte → Sha
  | 0, x, _ => x
  | n + 1, x, l => shaBlocks n (shaBlock x (l.take 64)) (l.drop 64)

/-- SHA-256 of a message, 32 bytes. -/
def sha256 (l : List Byte) : List Byte :=
  let x := shaBlocks ((l.length + 72) / 64) shaInit (shaPad l)
  [x.a, x.b, x.c, x.d, x.e, x.f, x.g, x.h].flatMap (beBytes 4)

/-- HMAC-SHA256 under a key of at most 64 bytes (RFC 2104). -/
def hmac256 (key l : List Byte) : List Byte :=
  let k := padTo 64 key
  sha256 (k.map (· ^^^ 0x5C#8) ++ sha256 (k.map (· ^^^ 0x36#8) ++ l))

/-! ### P-256 (FIPS 186-4) -/

def p256p : Nat := 0xffffffff00000001000000000000000000000000ffffffffffffffffffffffff
def p256n : Nat := 0xffffffff00000000ffffffffffffffffbce6faada7179e84f3b9cac2fc632551
def p256b : Nat := 0x5ac635d8aa3a93e7b3ebbd55769886bc651d06b0cc53b0f63bce3c3e27d2604b
def p256gx : Nat := 0x6b17d1f2e12c4247f8bce6e563a440f277037d812deb33a0f4a13945d898c296
def p256gy : Nat := 0x4fe342e2fe1a7f9b8ee7eb4a7c0f9e162bce33576b315ececbb6406837bf51f5

/-- Does (x, y) lie on the curve y² = x³ − 3x + b? -/
def onP256 (x y : Nat) : Bool :=
  decide (x < p256p) && decide (y < p256p) && (y * y) % p256p == (x * x * x + (p256p - 3) * x + p256b) % p256p

/-- A power modulo `m`, bit by bit from the top. -/
def powMod (m b : Nat) : (bits e : Nat) → Nat
  | 0, _ => 1 % m
  | k + 1, e =>
    let r := powMod m b k (e / 2)
    if e % 2 = 1 then r * r % m * b % m else r * r % m

/-- The inverse modulo a prime of 256 bits. -/
def invMod (m a : Nat) : Nat := powMod m a 256 (m - 2)

/-- A point in Jacobian coordinates (X/Z², Y/Z³); Z = 0 is the point at infinity. -/
structure JPt where
  x : Nat
  y : Nat
  z : Nat
  deriving DecidableEq, Repr

/-- Twice a point. -/
def JPt.dbl (a : JPt) : JPt :=
  let p := p256p
  let d := a.z * a.z % p
  let g := a.y * a.y % p
  let b := a.x * g % p
  let m := 3 * (a.x + p - d) * (a.x + d) % p
  let x := (m * m + 8 * (p - b)) % p
  ⟨x, (m * (4 * b + p - x) + 8 * (p - g * g % p)) % p, 2 * a.y * a.z % p⟩

/-- A point and one with Z = 1. -/
def JPt.addAff (a : JPt) (bx b_y : Nat) : JPt :=
  let p := p256p
  if a.z = 0 then ⟨bx, b_y, 1⟩
  else
    let zz := a.z * a.z % p
    let h := (bx * zz + (p - a.x)) % p
    let r := (b_y * (zz * a.z % p) + (p - a.y)) % p
    if h = 0 then (if r = 0 then a.dbl else ⟨1, 1, 0⟩)
    else
      let hh := h * h % p
      let hhh := hh * h % p
      let v := a.x * hh % p
      let x := (r * r + (p - hhh) + 2 * (p - v)) % p
      ⟨x, (r * (v + p - x) + (p - a.y) * hhh) % p, a.z * h % p⟩

/-- k·(x, y), from the top bit of k down. -/
def mulPt (x y : Nat) : (bits k : Nat) → JPt
  | 0, _ => ⟨1, 1, 0⟩
  | n + 1, k =>
    let a := (mulPt x y n (k / 2)).dbl
    if k % 2 = 1 then a.addAff x y else a

/-- The affine coordinates of a point, none at infinity. -/
def JPt.aff (a : JPt) : Option (Nat × Nat) :=
  if a.z = 0 then none
  else
    let i := invMod p256p a.z
    let ii := i * i % p256p
    some (a.x * ii % p256p, a.y * (ii * i % p256p) % p256p)

/-- Does (r, s) verify over a digest under the public key of 64 bytes, x then y, big-endian? -/
def ecdsaOk (key digest sig : List Byte) : Bool :=
  let x := beNat (key.take 32)
  let y := beNat ((key.drop 32).take 32)
  let r := beNat (sig.take 32)
  let s := beNat ((sig.drop 32).take 32)
  if r = 0 ∨ p256n ≤ r ∨ s = 0 ∨ p256n ≤ s ∨ onP256 x y = false then false
  else
    let w := invMod p256n s
    let a := mulPt p256gx p256gy 256 (beNat digest * w % p256n)
    let c := match a.aff with
      | none => mulPt x y 256 (r * w % p256n)
      | some g => (mulPt x y 256 (r * w % p256n)).addAff g.1 g.2
    match c.aff with | some q => q.1 % p256n == r | none => false

/-- The signature of a digest under private key `d` with the random number `k` (r, then s, big-endian). -/
def ecdsaSign (d k : Nat) (digest : List Byte) : List Byte :=
  let r := match (mulPt p256gx p256gy 256 k).aff with | some q => q.1 % p256n | none => 0
  beBytes 32 r ++ beBytes 32 (invMod p256n k * (beNat digest + r * d) % p256n)

end Sys2Proof.Machine
end

