-- ==== Sys2Proof/Machine/Rings.lean ====
section
/-! DEFINITION. The rings of the host-ring area (R511 to R515): their places, what a producer writes, their vectors. -/

namespace Sys2Proof.Machine

/-- log2 of a ring's entries: 0 disabled, 1…3 act as 4, above 16 as 16 (HST_Rr_CFG). -/
def ringLog (s : State) (r : Nat) : Nat :=
  let l := s.rd (R.HST_Rr_CFG_LOG2E r)
  if l = 0 then 0 else clamp 4 16 l

/-- E, the entries of ring `r` (R512). -/
def ringE (s : State) (r : Nat) : Nat := 2 ^ ringLog s r

/-- D, the descriptor size in bytes (R512). -/
def ringD (r : Nat) : Nat := match r with | 0 => 32 | 1 => 32 | 2 => 64 | _ => 16

/-- The DRAM byte address of the host-ring area (R511). -/
def areaBase (s : State) : Nat := s.rd R.HST_AREA_BASE * 0x100000

def areaSize (s : State) : Nat := s.rd R.HST_AREA_SIZE * 0x100000

/-- Where ring `r`'s region starts, a DRAM byte address (R512). -/
def ringBase (s : State) (r : Nat) : Nat := areaBase s + s.rd (R.HST_Rr_CFG_BASE r) * 0x1000

/-- The bytes of ring `r`'s region: descriptors, then buffers where it has them (R512). -/
def ringBytes (s : State) (r : Nat) : Nat :=
  if ringLog s r = 0 then 0 else ringE s r * (ringD r + (if r < 2 then 2048 else 0))

def ringProd (s : State) (r : Nat) : Nat := s.rd (R.HST_Rr_PROD_PROD r)
def ringCons (s : State) (r : Nat) : Nat := s.rd (R.HST_Rr_CONS_CONS r)

/-- How many entries ring `r` holds (R513). -/
def ringCount (s : State) (r : Nat) : Nat := (ringProd s r + 2 ^ 32 - ringCons s r) % 2 ^ 32

/-- The DRAM byte address of descriptor `k` of ring `r`, and of its buffer (R512). -/
def descAddr (s : State) (r k : Nat) : Nat := ringBase s r + ringD r * (k % ringE s r)
def bufAddr (s : State) (r k : Nat) : Nat := ringBase s r + ringD r * ringE s r + 2048 * (k % ringE s r)

/-- Has a message for ring `r` been sent within the last HOLD µs (R515)? -/
def inHold (s : State) (r : Nat) : Bool :=
  s.hst.hold.any fun e => e.1 == r && decide (s.tb2Ns < e.2 + s.rd (R.HST_Rr_IRQ_HOLD r) * 1000)

/-- A drop at ring `r` is counted (R514): RX in NET_STAT.HOSTDROP, EVT and RECN in their LOST. -/
def ringDrop (s : State) (r : Nat) : State :=
  if r = 0 then s.sat1 R.NET_STAT_HOSTDROP else s.sat1 (R.HST_Rr_STAT_LOST r)

def setHst (s : State) (h : Hst) : State := { s with hst := h }

/-! ### Reads of the DRAM with its inline ECC (R506, R521) -/

/-- The usable size in bytes (R521). -/
def usableBytes (s : State) : Nat := s.rd R.MEM_SIZE_USABLE * 0x100000

/-- An uncorrectable error is found in 64-bit word `w` (R521): sticky, counted, its address kept, logged. -/
def eccUncorr (s : State) (w : Nat) : State :=
  ((((s.wrb R.MEM_STAT_UNCORR_STK true).sat1 R.MEM_ECC_UNCORR).wr R.MEM_EADDR_LO_EADDR (8 * w % 2 ^ 32)).wr R.MEM_EADDR_HI_EADDR
    (8 * w / 2 ^ 32)).logEv 0xF 1 (leBytes 8 (8 * w))

/-- A corrected error in word `w`: written back and counted (R521). -/
def eccCorr (s : State) (w : Nat) : State :=
  setHst ((s.wrb R.MEM_STAT_CORR_STK true).sat1 R.MEM_ECC_CORR) { s.hst with softWords := s.hst.softWords.filter (· ≠ w) }

/-- The 64-bit words that `n` bytes from `x` on touch. -/
def wordsOf (x n : Nat) : List Nat := if n = 0 then [] else (List.range ((x + n - 1) / 8 - x / 8 + 1)).map (· + x / 8)

/-- One word of a read request: its eight bytes, whether they are poisoned, and what the read does (R506, R521). A word with an
uncorrectable error delivers bytes that the spec does not state. -/
def readWord (s : State) (w : Nat) : List Byte × Bool × State :=
  if s.hst.badWords.contains w then
    let p := s.fresh 64
    (leBytes 8 p.1.toNat, true, eccUncorr p.2 w)
  else (s.rdMem (dramBase + 8 * w) 8, false, if s.hst.softWords.contains w then eccCorr s w else s)

/-- The words of a read request, in order. -/
def readWords (s : State) : List Nat → List Byte × Bool × State
  | [] => ([], false, s)
  | w :: t =>
    let p := readWord s w
    let q := readWords p.2.2 t
    (p.1 ++ q.1, p.2.1 || q.2.1, q.2.2)

/-- `n` bytes that the device itself reads from DRAM address `x` on (R521). -/
def dramGet (s : State) (x n : Nat) : List Byte × State :=
  if s.hst.badWords.isEmpty && s.hst.softWords.isEmpty then (s.rdMem (dramBase + x) n, s)
  else let p := readWords s (wordsOf x n); ((p.1.drop (x % 8)).take n, p.2.2)

/-! ### Writes of the DRAM (R507) -/

/-- Word `w` is stored whole, with fresh check bits (R507). -/
def freshWord (s : State) (w : Nat) : State :=
  setHst s { s.hst with softWords := s.hst.softWords.filter (· ≠ w), badWords := s.hst.badWords.filter (· ≠ w) }

/-- The bytes of a request that fall into word `w`: enabled ones below the usable size. -/
def wordBytes (s : State) (x : Nat) (l : List (Option Byte)) (w : Nat) : List (Option Byte) :=
  (List.range 8).map fun k =>
    if x ≤ 8 * w + k ∧ 8 * w + k < usableBytes s then (l.getD (8 * w + k - x) none) else none

/-- Stores the enabled bytes from `a` upwards. -/
def putBytes (m : List Host.Cell) (a : Nat) (l : List (Option Byte)) : List Host.Cell :=
  match l with
  | [] => m
  | none :: t => putBytes m (a + 1) t
  | some b :: t => putBytes (memWr m a b) (a + 1) t

/-- One word of a write request (R507): whole, or as a read-modify-write that an uncorrectable error stops. -/
def writeWord (x : Nat) (l : List (Option Byte)) (s : State) (w : Nat) : State :=
  let b := wordBytes s x l w
  if b.all (·.isNone) then s
  else
    let put (a : State) : State := { a with mem := putBytes a.mem (dramBase + 8 * w) b }
    if b.all (·.isSome) then freshWord (put s) w
    else if s.hst.badWords.contains w then eccUncorr s w
    else put (if s.hst.softWords.contains w then eccCorr s w else s)

/-- Bytes that the device itself writes to DRAM address `x` on: whole words with fresh check bits, parts by read-modify-write (R507,
R521). -/
def dramPut (s : State) (x : Nat) (l : List Byte) : State :=
  if s.hst.badWords.isEmpty && s.hst.softWords.isEmpty then s.wrMem (dramBase + x) l
  else (wordsOf x l.length).foldl (writeWord x (l.map some)) s

/-- Whole 64-bit words that the device writes to DRAM address `x` on: they get fresh check bits (R507, R521). -/
def dramPutWords (s : State) (x : Nat) (l : List Byte) : State :=
  let clean (w : List Nat) := w.filter fun k => decide (k < x / 8) || decide (x / 8 + l.length / 8 ≤ k)
  setHst (s.wrMem (dramBase + x) l) { s.hst with softWords := clean s.hst.softWords, badWords := clean s.hst.badWords }

/-! ### Entries (R513 to R515) -/

/-- A ring's index advanced: its vector fires, or waits for the end of the holdoff (R515). -/
def ringVec (s : State) (r : Nat) : State :=
  if inHold s r then
    { s with hst := { s.hst with holdPend := if s.hst.holdPend.contains r then s.hst.holdPend else r :: s.hst.holdPend } }
  else s.fireVec (r + 1)

/-- CONS of ring `r` as it stood at the start of the SCH cycle, 4 ns of TB2 (R513, assumption 160). -/
def consAtStart (s : State) (r : Nat) : Nat :=
  match s.hst.conWas.find? fun e => e.1 == r with
  | some e => if e.2.1 / 4 = s.tb2Ns / 4 then e.2.2 else ringCons s r
  | none => ringCons s r

/-- The device adds an entry to ring `r`: descriptor, buffer, then PROD (R513); a full ring, or DRAM unused under R519,
drops and counts it (R514); a disabled ring takes nothing (R512). -/
def ringPush (s : State) (r : Nat) (desc buf : List Byte) : State :=
  if ringLog s r = 0 then s
  else if !s.on R.MEM_STAT_TRAINED || decide (ringE s r ≤ (ringProd s r + 2 ^ 32 - consAtStart s r) % 2 ^ 32) then ringDrop s r
  else
    let k := ringProd s r
    let s1 := dramPutWords s (descAddr s r k) (padTo (ringD r) desc)
    let s2 := if r < 2 then dramPut s1 (bufAddr s r k) (buf.take 2048) else s1
    ringVec (s2.inc (R.HST_Rr_PROD_PROD r)) r

end Sys2Proof.Machine
end

