-- ==== Sys2Proof/Machine/Yew.lean ====
section
/-! DEFINITION. Yew, the event recorder (R397 to R411): admission, merging, loss, writing, the boot scan, reading, clearing. -/

namespace Sys2Proof.Machine

/-- R402: TRIP and F events and YEW_CLEARED are reserved. -/
def reservedEv (cls src code : Nat) : Bool := cls == 3 || cls == 4 || (src == 2 && code == 2)

/-- NEXT and OLDEST (48 bits). -/
def yewNext (s : State) : Nat := s.rd64 R.YEW_NEXT_LO_NEXT R.YEW_NEXT_HI_NEXT
def yewOldest (s : State) : Nat := s.rd64 R.YEW_OLDEST_LO_OLDEST R.YEW_OLDEST_HI_OLDEST
def setYewNext (s : State) (n : Nat) : State := s.wr64 R.YEW_NEXT_LO_NEXT R.YEW_NEXT_HI_NEXT n
def setYewOldest (s : State) (n : Nat) : State := s.wr64 R.YEW_OLDEST_LO_OLDEST R.YEW_OLDEST_HI_OLDEST n

def setYew (s : State) (y : Yew) : State := { s with yew := y }

/-- YEW_STAT.LEVEL shows the ingress occupancy. -/
def yewLevel (s : State) : State := s.wr R.YEW_STAT_LEVEL s.yew.fifo.length

/-- Where a record's number is returned (R401): the first-fault capture (R423), a recorder header (R387). -/
def returnSeq (s : State) (tell : SeqTo) (n : Nat) : State :=
  match tell with
  | .nobody => s
  | .firstFault => s.wr64 R.PRV_FF_SEQ_LO_SEQ R.PRV_FF_SEQ_HI_SEQ n
  | .recHeader au slot => { s with dr := { s.dr with seqBack := ((au, slot), n) :: s.dr.seqBack } }

/-- Appends an entry to the ingress FIFO. Outside the boot scan it takes NEXT, which moves on, and the number is returned
(R401); during the scan numbering waits (R406). -/
def yewAppend (s : State) (ev : Ev) : State :=
  let st := ev.stamp.getD s.stampNow
  let e : YEntry := { cls := ev.cls, src := ev.src, code := ev.code, seq := none, occ := s.yew.fifo.length, stamp := st,
                      payload := ev.payload, tell := ev.tell }
  if s.on R.YEW_STAT_SCAN then yewLevel (setYew s { s.yew with fifo := s.yew.fifo ++ [e] })
  else
    let n := yewNext s
    returnSeq (yewLevel (setYewNext (setYew s { s.yew with fifo := s.yew.fifo ++ [{ e with seq := some n }] }) (n + 1))) ev.tell n

/-- The union of two bitmaps held in bytes. -/
def orBytes (a b : List Byte) : List Byte :=
  match a, b with
  | [], b => b
  | a, [] => a
  | x :: a, y :: b => (x ||| y) :: orBytes a b

/-- R403: the payload after a merge. For THN_TRIP the bitmaps of pads that rose are OR'd and the latest pad terms stand. -/
def mergePayload (src code : Nat) (old new : List Byte) : List Byte :=
  if src = 0x0A ∧ code = 1 then orBytes (old.take 8) (new.take 8) ++ new.drop 8 else old

/-- R403: merges a reserved event into the first pending entry of the same SOURCE and CODE. The head is being written
except during the boot scan, so it takes no merge (assumption 5). -/
def mergeInto (l : List YEntry) (ev : Ev) : Option (List YEntry × Option Nat) :=
  match l with
  | [] => none
  | e :: t =>
    if e.src = ev.src ∧ e.code = ev.code ∧ reservedEv e.cls e.src e.code then
      some ({ e with rep := min (e.rep + 1) 0xFFFF, payload := mergePayload e.src e.code e.payload ev.payload,
                     tell := if ev.tell = .nobody then e.tell else ev.tell } :: t, e.seq)
    else (mergeInto t ev).map fun p => (e :: p.1, p.2)

/-- The entries a merge may reach: all but the head while it is being written. -/
def yewMerge (s : State) (ev : Ev) : Option (List YEntry × Option Nat) :=
  if s.on R.YEW_STAT_SCAN then mergeInto s.yew.fifo ev
  else match s.yew.fifo with
    | [] => none
    | h :: t => (mergeInto t ev).map fun p => (h :: p.1, p.2)

/-- R404: an event is lost: counted by class, and the overflow period starts or goes on. -/
def yewLose (s : State) (ev : Ev) : State :=
  let s1 := match ev.cls with
    | 0 => s.sat1 R.YEW_LOST0_INFO
    | 1 => s.sat1 R.YEW_LOST1_C
    | _ => s.sat1 R.YEW_LOST1_U
  let o := s.yew.ovf
  let o1 : YOvf := if s.on R.YEW_STAT_OVF_PER then o else { first := (ev.stamp.getD s.stampNow).act }
  let o2 : YOvf := match ev.cls with
    | 0 => { o1 with info := o1.info + 1 }
    | 1 => { o1 with c := o1.c + 1 }
    | _ => { o1 with u := o1.u + 1 }
  let o3 : YOvf := { o2 with srcs := o2.srcs ||| 2 ^ ev.src }
  ((setYew s1 { s1.yew with ovf := o3 }).wrb R.YEW_STAT_OVF_STK true).wrb R.YEW_STAT_OVF_PER true

/-- R404: with 256 entries or fewer the overflow period ends with its record. -/
def yewOvfEnd (s : State) : State :=
  if s.on R.YEW_STAT_OVF_PER && decide (s.yew.fifo.length ≤ 256) then
    let o := s.yew.ovf
    let p := leBytes 4 o.info ++ leBytes 4 o.c ++ leBytes 4 o.u ++ leBytes 2 o.srcs ++ leBytes 2 0 ++ leBytes 8 o.first
    yewAppend ((setYew s { s.yew with ovf := {} }).wrb R.YEW_STAT_OVF_PER false)
      { cls := 0, src := 2, code := 1, stamp := none, payload := padTo 24 p }
  else s

/-- R401 to R404: an event that reaches Yew is admitted, merged or lost. -/
def yewAdmit (s : State) (ev : Ev) : State :=
  if reservedEv ev.cls ev.src ev.code then
    match yewMerge s ev with
    | some (l, n) =>
      let s1 := setYew s { s.yew with fifo := l }
      (match n with | some q => returnSeq s1 ev.tell q | none => s1)
    | none => if s.yew.fifo.length < (if s.on R.YEW_STAT_SCAN then 511 else 512) then yewAppend s ev else yewLose s ev
  else if s.yew.fifo.length < 448 then yewAppend s ev
  else yewLose s ev

/-- Stable insertion by SOURCE: events of one AON cycle are admitted in ascending SOURCE (R401). -/
def insertBySrc (e : Ev) (l : List Ev) : List Ev :=
  match l with
  | [] => [e]
  | x :: t => if e.src < x.src then e :: x :: t else x :: insertBySrc e t

def sortBySrc (l : List Ev) : List Ev := l.foldl (fun a e => insertBySrc e a) []

/-- The `k` oldest events of the crossing reach Yew in one AON cycle (R401). -/
def admitEvents (k : Nat) (s : State) : State :=
  let evs := s.yew.cross.take k
  (sortBySrc evs).foldl yewAdmit (yewOvfEnd (setYew s { s.yew with cross := s.yew.cross.drop k }))

/-! ### Writing -/

/-- The MRAM address of the slot of record `q` (R397). -/
def yewSlot (q : Nat) : Nat := mramBase + 0x800000 + 64 * (q % 32768)

/-- Offsets 0x00 to 0x37 of a record (R397). -/
def recBody (e : YEntry) (q : Nat) : List Byte :=
  leBytes 4 (2 ^ 28 + e.cls * 2 ^ 24 + e.src * 2 ^ 16 + e.code)
  ++ leBytes 8 (q * 2 ^ 16 + e.stamp.actb % 2 * 2 ^ 15 + e.stamp.tq % 4 * 2 ^ 13 + (if e.stamp.coarse then 2 ^ 12 else 0))
  ++ leBytes 4 (e.rep * 2 ^ 16 + e.occ % 512)
  ++ leBytes 8 e.stamp.act ++ leBytes 8 e.stamp.tb2 ++ padTo 24 e.payload

/-- The whole record: body, CRC-32, valid mark 0x5945_5721 (R397). -/
def recBytes (e : YEntry) (q : Nat) : List Byte :=
  recBody e q ++ leBytes 4 (crc32 (recBody e q)).toNat ++ leBytes 4 0x59455721

/-- R409: when YEW_CLEARED's step 3 completes, OLDEST takes the new value, RESULT is 1, and zeroing starts. -/
def yewClearedDone (s : State) (e : YEntry) : State :=
  let first := leNat ((e.payload.drop 8).take 6)
  let new := leNat ((e.payload.drop 14).take 6)
  let s1 := ((setYewOldest s (max (yewOldest s) new)).wr R.YEW_CLR_STAT_RESULT 1).wrb R.YEW_CLR_STAT_BUSY false
  (setYew s1 { s1.yew with zero := some (first, new) }).wrb R.YEW_STAT_ZEROING true |>.fireVec 11

/-- YEW_RECORD_WRITTEN: the head record's valid mark is written and it leaves the FIFO (R405). The record it replaces in
the ring stops being the oldest readable one (assumption 6). While a reset is held the block in
progress is completed, within the 4 µs of R45, and no other is started (R473, R528). With HOSTRING set a copy goes to the EVT ring (R407). -/
def execYewRecordWritten (s : State) : Host.Outcome State Fault Refusal :=
  .next <|
    if s.glb.hold = 1 ∨ (s.glb.hold ≠ 0 ∧ s.glb.holdAt + 4000 < s.tb2Ns) then s
    else match s.yew.fifo with
    | [] => s
    | e :: t =>
      match e.seq with
      | none => s
      | some q =>
        let b := recBytes e q
        let s1 := yewLevel (setYew (s.wrMem (yewSlot q) b) { s.yew with fifo := t })
        let s2 := if yewOldest s1 + 32768 ≤ q then setYewOldest s1 (q - 32767) else s1
        let s3 := if e.src = 2 ∧ e.code = 2 then yewClearedDone s2 e else s2
        let s4 := if s3.on R.YEW_CFG_HOSTRING then ringPush s3 2 b [] else s3
        yewOvfEnd s4

/-! ### The boot scan -/

/-- The SEQ of the record in the slot at `a`, where its mark and CRC are good and the slot is SEQ mod 32,768 (R405). -/
def slotSeq (m : List Host.Cell) (a : Nat) : Option Nat :=
  let b := memRds m a 64
  let q := leNat ((b.drop 6).take 6)
  if leNat (b.drop 60) = 0x59455721 ∧ leNat ((b.drop 56).take 4) = (crc32 (b.take 56)).toNat ∧ yewSlot q = a then some q
  else none

/-- The slots whose valid mark is not zero: only these can hold a readable record. -/
def markedSlots (m : List Host.Cell) : List Nat :=
  (m.filter fun e => decide (mramBase + 0x800000 ≤ e.1) && decide (e.1 < mramBase + 0xA00000) && e.1 % 64 == 60).map (·.1 - 60)

/-- The numbers of the records the scan finds whole. -/
def scanSeqs (m : List Host.Cell) : List Nat := (markedSlots m).filterMap (slotSeq m)

/-- The OLDEST that the latest YEW_CLEARED record among `qs` gives (R406, R409), or 0. -/
def clearedBound (m : List Host.Cell) (qs : List Nat) : Nat :=
  let cl := qs.filter fun q => leNat (memRds m (yewSlot q) 4) % 2 ^ 24 = 0x020002
  match cl with
  | [] => 0
  | _ => leNat (memRds m (yewSlot (cl.foldl max 0) + 0x20 + 14) 6)

/-- The lowest of a list of numbers, or `d`. -/
def minOr (d : Nat) (l : List Nat) : Nat := match l with | [] => d | a :: t => t.foldl min a

/-! ### Reading (R407) -/

/-- The classification of a fetch of record `q` (R407). -/
def fetchResult (s : State) (q : Nat) : Nat :=
  let b := s.rdMem (yewSlot q) 64
  if q < yewOldest s ∨ yewNext s ≤ q then 2
  else if leNat (b.drop 60) = 0x59455721 ∧ leNat ((b.drop 56).take 4) ≠ (crc32 (b.take 56)).toNat then 3
  else if slotSeq s.mem (yewSlot q) = some q then 0
  else 1

/-- The number the host selected (YEW_RD_SEL). -/
def yewSel (s : State) : Nat := s.rd R.YEW_RD_SEL_LO_SEQLO + s.rd R.YEW_RD_SEL_HI_SEQHI * 2 ^ 32

/-- Copies 64 bytes into the 16 words of YEW_RD_BUFw. -/
def yewFillBuf (s : State) (b : List Byte) (w : Nat) : State :=
  match w with
  | 0 => s
  | w + 1 => (yewFillBuf s b w).wr (R.YEW_RD_BUFw_DATA w) (leNat ((b.drop (4 * w)).take 4))

/-- YEW_FETCH: FETCH copies the slot of q as it stands and classifies it (R407). -/
def execYewFetch (s : State) : Host.Outcome State Fault Refusal :=
  let q := yewSel s
  .next (((yewFillBuf s (s.rdMem (yewSlot q) 64) 16).wr R.YEW_RD_STAT_RESULT (fetchResult s q)).wrb R.YEW_RD_STAT_READY true)

/-! ### Clearing (R408, R409) -/

/-- Token bytes 4w to 4w + 3 of the 24 words. -/
def tokenBytes (s : State) : List Byte :=
  (List.range 24).flatMap fun w => leBytes 4 (s.rd (R.YEW_CLR_BUFw_TOKEN w))

/-- YEW_CLEAR_GO: verification starts; a GO while BUSY is ignored (R408). -/
def execYewClearGo (s : State) : Host.Outcome State Fault Refusal :=
  .next (if s.on R.YEW_CLR_STAT_BUSY then s else s.wrb R.YEW_CLR_STAT_BUSY true)

/-- Does the clear token's signature verify with the owner key over SHA-256 of its bytes 0x00 to 0x1F (R408)? -/
def clearSig (s : State) : Bool :=
  let t := tokenBytes s
  ecdsaOk s.sec.owner (sha256 (t.take 32)) (t.drop 32)

/-- YEW_CLR_STAT.RESULT of a refused token, or none for a good one (R408); `sigOk` is SEC's verdict on the signature. OLDEST is not known
while the boot scan runs (assumption 166). -/
def clearCheck (s : State) (sigOk : Bool) : Option Nat :=
  let t := tokenBytes s
  if !s.on R.SEC_LC_OWNER then some 5
  else if leNat (t.take 4) ≠ 0x59434C52 ∨ !sigOk then some 2
  else if leNat ((t.drop 8).take 8) ≠ s.rd64 R.SEC_DEVID_LO_DEVID R.SEC_DEVID_HI_DEVID then some 3
  else if leNat ((t.drop 4).take 4) ≠ s.yew.nonce.toNat then some 4
  else if s.on R.YEW_STAT_SCAN = false ∧ leNat ((t.drop 16).take 6) < yewOldest s then some 6
  else none

/-- A new random nonce from SEC (R408). -/
def yewRenew (s : State) : State :=
  let p := s.fresh 32
  setYew p.2 { p.2.yew with nonce := p.1 }

/-- The payload of YEW_CLEARED (R409) for a clear up to `top` − 1, taken by the record with number `c`. -/
def clearedPayload (s : State) (op nonce : List Byte) (top c : Nat) : List Byte :=
  padTo 24 (op ++ leBytes 6 (yewOldest s) ++ leBytes 6 (min top c) ++ nonce)

/-- YEW_CLEAR_VERIFY_DONE: token verification ends, renewing the nonce and clearing or refusing (R408, R409). `sigOk` is the verdict on the
signature; no verification ends with another (assumption 59). During the boot scan YEW_CLEARED waits for its number. -/
def execYewClearVerifyDone (sigOk : Bool) (s : State) : Host.Outcome State Fault Refusal :=
  .next <|
    if !s.on R.YEW_CLR_STAT_BUSY || sigOk != clearSig s then s
    else
      let t := tokenBytes s
      let op := (t.drop 24).take 8
      match clearCheck s sigOk with
      | some r =>
        ((((yewRenew s).wr R.YEW_CLR_STAT_RESULT r).wrb R.YEW_STAT_CLRREF_STK true).wrb R.YEW_CLR_STAT_BUSY false).fireVec 11
          |>.logAon 2 3 (padTo 8 (leBytes 1 r) ++ op)
      | none =>
        let top := leNat ((t.drop 16).take 6) + 1
        let c := if s.on R.YEW_STAT_SCAN then 2 ^ 48 - 1 else yewNext s
        yewAdmit (yewRenew s) { cls := 0, src := 2, code := 2, stamp := none, payload := clearedPayload s op ((t.drop 4).take 4) top c }

/-- Writes zero to the valid marks of slots lo … lo + n − 1 (R409), leaving a slot whose record is not below `bound`. -/
def zeroMarks (m : List Host.Cell) (bound : Nat) : List Nat → List Host.Cell
  | [] => m
  | a :: t => zeroMarks (match slotSeq m a with
      | some q => if q < bound then memWrs m (a + 60) (leBytes 4 0) else m
      | none => m) bound t

/-- YEW_ZEROING_DONE: every slot of a cleared record has a zero valid mark (R409). -/
def execYewZeroingDone (s : State) : Host.Outcome State Fault Refusal :=
  .next <|
    match s.yew.zero with
    | none => s
    | some (_, hi) =>
      (setYew { s with mem := zeroMarks s.mem hi (markedSlots s.mem) } { s.yew with zero := none }).wrb R.YEW_STAT_ZEROING false

/-! ### The end of the boot scan (R406, R409) -/

/-- A YEW_CLEARED that waited: its payload takes the OLDEST that the scan found, and c is its number (R409). -/
def numbered (s : State) (e : YEntry) (n : Nat) : YEntry :=
  if e.src = 2 ∧ e.code = 2 then
    { e with payload := clearedPayload s (e.payload.take 8) ((e.payload.drop 20).take 4) (leNat ((e.payload.drop 14).take 6)) n }
  else e

/-- Entries that waited during the scan take their numbers in order (R406). -/
def numberEntries (s : State) (l : List YEntry) (n : Nat) : State × List YEntry × Nat :=
  match l with
  | [] => (s, [], n)
  | e :: t =>
    let r := numberEntries (returnSeq s e.tell n) t (n + 1)
    (r.1, { numbered s e n with seq := some n } :: r.2.1, r.2.2)

/-- The boot scan ends (R406); SYS and WDR do not hold it up, POR does. YEW_RESUME is numbered first, then every
event that waited. -/
def scanEnd (s : State) : State :=
    if !s.on R.YEW_STAT_SCAN || s.glb.hold == 1 then s
    else
      let qs := scanSeqs s.mem
      let h := qs.foldl max 0
      let next := match qs with | [] => 1 | _ => h + 514
      let old := match qs with
        | [] => 1
        | _ => max (minOr 1 (qs.filter (clearedBound s.mem qs ≤ ·))) (clearedBound s.mem qs)
      let s1 := (setYewOldest s old).wrb R.YEW_STAT_SCAN false
      let resume : YEntry := { cls := 0, src := 2, code := 4, seq := some next, occ := s.yew.fifo.length, stamp := s.stampNow,
                               payload := padTo 24 (leBytes 8 h ++ leBytes 8 next) }
      let r := numberEntries s1 s1.yew.fifo (next + 1)
      yewOvfEnd (yewLevel (setYewNext (setYew r.1 { r.1.yew with fifo := resume :: r.2.1 }) r.2.2))

end Sys2Proof.Machine
end

