-- ==== Sys2Proof/Machine/Reset.lean ====
section
/-! DEFINITION. What a reset of the device keeps and loses (R454 to R456, R473). -/

namespace Sys2Proof.Machine

/-- The level sources whose conditions are watched in PD0 and go on through SYS and WDR (R42, R454): the AON clock, the
supplies and the temperature. -/
def pd0Sources : List Nat := [8, 15, 16, 17]

/-- The memory that outlives a reset: MRAM always, DRAM through SYS and WDR (R456, R473). -/
def keptMem (m : List Host.Cell) (por : Bool) : List Host.Cell :=
  m.filter fun e => decide (e.1 < 0x1000000) || (!por && decide (dramBase ≤ e.1) && decide (e.1 < dramBase + 0x100000000))

/-- Fields that a reset keeps: K always, P through SYS and WDR (R473). -/
def keptRegs (l : List (Nat × Nat)) (por : Bool) : List (Nat × Nat) :=
  l.filter fun e => keyDom .kept e.1 || (!por && keyDom .por e.1)

/-- What becomes of the record that Yew is writing, the FIFO's head, when POR comes: PORST_N leaves the MRAM controller the time to
complete its block (R528); a loss of the PD0 supply leaves the slot unreadable, its valid mark zero (R405). Which of the two a POR was is
`whole`. -/
def lastWrite (s : State) (whole : Bool) : State :=
  match s.yew.fifo with
  | [] => s
  | e :: _ => match e.seq with
    | some q => if whole then s.wrMem (yewSlot q) (recBytes e q) else s.wrMem (yewSlot q + 60) (leBytes 4 0)
    | none => s

/-- The state while a reset is held: all of it as after power-on but for what R473 keeps. -/
def heldState (s : State) (kind : Nat) : State :=
  let por := kind == 1
  { regs := keptRegs s.regs por
    mem := keptMem s.mem por
    yew := if por then {} else s.yew
    prv := if por then {} else { lines := s.prv.lines, items := s.prv.items.filter fun e => pd0Sources.contains e.1,
                                 lastBrst := s.prv.lastBrst, lastRec := s.prv.lastRec, unsent := s.prv.unsent,
                                 fabGate := s.itemLive 8 0 }
    tim := if por then {} else { tb := [(2, { val := (s.tbOf 2).val })], coarse := s.tim.coarse, trim := s.tim.trim }
    hst := { sent := s.hst.sent, badWords := if por then [] else s.hst.badWords, softWords := if por then [] else s.hst.softWords }
    sch := { jseq := s.sch.jseq, jpos := s.sch.jpos }
    glb := { hold := kind, holdAt := if por then 0 else s.tb2Ns, start := kind - 1 }
    svi := { copies := s.svi.copies }
    sec := { slots := s.sec.slots, owner := s.sec.owner, active := s.sec.active, priv := s.sec.priv, pubX := s.sec.pubX, pubY := s.sec.pubY }
    eccBad := s.eccBad.filter fun a => decide (a < 0x1000000)
    eccSoft := s.eccSoft.filter fun a => decide (a < 0x1000000)
    freeCnt := s.freeCnt
    pending := s.pending }

/-- POR, SYS or WDR is asserted (R454, R455): `kind` is 1, 2 or 3, `cause` and `src` go to GLB_RSTCAUSE. A POR in force
stands against the others; safe state lasts until the release, and DRAM is in self-refresh (R456). -/
def assertReset (s : State) (kind cause src : Nat) : State :=
  if s.glb.hold = 1 ∧ kind ≠ 1 then s
  else
    let s1 := heldState s kind
    let s2 := if kind = 1 then s1 else (s1.wrb R.PRV_STAT_SAFE (s.on R.PRV_STAT_SAFE)).sat1 R.GLB_RSTCAUSE_COUNT
    let s3 := s2.wrb R.MEM_STAT_SR (kind != 1 && (s.pg 11 || s.on R.MEM_STAT_SR))
    (s3.wr R.GLB_RSTCAUSE_CAUSE cause).wr R.GLB_RSTCAUSE_PRVSRC src

/-- A random nonce for YEW_NONCE and one for SEC_NONCE after POR (R408, R443). -/
def freshNonces (s : State) : State :=
  let p := s.fresh 32
  let q := p.2.fresh 32
  { q.2 with yew := { q.2.yew with nonce := p.1 } }.wr R.SEC_NONCE_NONCE q.1.toNat

/-- POR_ASSERT: PORST_N held low, or the PD0 supply rising (R454); which is a free value (assumption 164). -/
def execPorAssert (s : State) : Host.Outcome State Fault Refusal :=
  let p := s.fresh 1
  .next (freshNonces (assertReset (lastWrite p.2 (p.1 == 1)) 1 0 0))

/-- SYSREQ: a write of GLB_RST.SYSREQ asserts SYS, cause 2 (R454, R475). -/
def execSysreq (s : State) : Host.Outcome State Fault Refusal := .next (assertReset s 2 2 0)

/-- WATCHDOG_EXPIRY: no refresh for TO asserts WDR, cause 4; a paused or disabled watchdog does not expire (R457). AON's time is TB2's
(assumption 165). -/
def execWatchdogExpiry (s : State) : Host.Outcome State Fault Refusal :=
  .next <|
    match s.glb.wdt with
    | some t => if wdtMs s ≠ 0 ∧ t + wdtMs s * 1000000 ≤ s.tb2Ns then assertReset s 3 4 0 else s
    | none => s

end Sys2Proof.Machine
end

