-- ==== Sys2Proof/Machine/Prv.lean ====
section
/-! DEFINITION. Privet (R33, R34, R412 to R434, R548): monitors, decisions, reactions, block resets with their windows and
escalation, safe state, the first-fault capture, ALIVE and FAIL_N. -/

namespace Sys2Proof.Machine

/-! ### Safe state (R431, R432) -/

/-- Safe state asks every control block for a new state with its quality members invalid (R432). -/
def safeFrames (s : State) : State :=
  let l := s.img.gcbs.map (·.1)
  { s with net := { s.net with safeDue := l, dirty := s.net.dirty ++ l.filter fun c => c != 0 && !s.net.dirty.contains c,
                               c0at := if l.contains 0 then some (s.net.c0at.getD (s.tbOf 2).val) else s.net.c0at } }

/-- A safe-state cause: recorded by PRV_SAFE; the first one enters safe state. -/
def enterSafe (s : State) (cause detail : Nat) : State :=
  let s1 := if s.on R.PRV_STAT_SAFE then s
    else gateUpdate <| safeFrames (({ s with twn := { s.twn with safeAt := s.activeNs } }.wrb R.PRV_STAT_SAFE true).sat1 R.PRV_STAT_SAFE_CNT |>.wr R.PRV_STAT_SAFE_CAUSE cause)
  s1.logAon 1 3 (leBytes 4 cause ++ leBytes 4 detail) clsF

/-- SAFE_REQUEST: a write of PRV_CTL.SAFEREQ (R431). -/
def execSafeRequest (s : State) : Host.Outcome State Fault Refusal := .next (enterSafe s 0x3C 0)

/-- The fields that Privet holds in two copies with parity (R430): the RW, RWL and W1S ones of PRV_CTL, PRV_SRCs_CFG, PRV_SRCs_BAYS and
PRV_TMON. -/
def protectedFlds : List Fld :=
  [R.PRV_CTL_LOCK, R.PRV_CTL_SAFEREQ, R.PRV_TMON_WARN]
    ++ (List.range 25).flatMap fun k => [R.PRV_SRCs_CFG_ACTION k, R.PRV_SRCs_CFG_IRQ k, R.PRV_SRCs_BAYS_BAYS k]

/-- A write of the register at `a` puts both copies and their parities right (R430). -/
def prvRewrite (s : State) (a : Nat) : State :=
  let k := (protectedFlds.filter fun f => f.addr == a).map Fld.key
  { s with prv := { s.prv with copy2 := s.prv.copy2.filter fun e => !k.contains e.1, parity := s.prv.parity.filter fun e => !k.contains e } }

/-- An upset: a bit of the second copy, or a parity bit, of one of the protected fields turns; which is a free value (assumption 162). -/
def prvUpset (s : State) : State :=
  let p := s.fresh 8
  let q := p.2.fresh 5
  let r := q.2.fresh 1
  let f := protectedFlds.getD (p.1.toNat % protectedFlds.length) R.PRV_CTL_LOCK
  if r.1 = 0 then { r.2 with prv := { r.2.prv with copy2 := mput r.2.prv.copy2 f.key (2 ^ (q.1.toNat % f.w)) } }
  else { r.2 with prv := { r.2.prv with parity := f.key :: r.2.prv.parity } }

/-- Does the check of the copies and their parities find a difference (R430)? -/
def copiesDiffer (s : State) : Bool := !s.prv.copy2.isEmpty || !s.prv.parity.isEmpty

/-- The check fails: the gate closes, and SELF_STK and both records follow (R430). -/
def selfCheckFails (s : State) : State :=
  enterSafe (((s.wrb R.PRV_STAT_SELF_STK true).logAon 1 1 [] clsF).prvIrqEdge s.prvIrq) 0x3E 0

/-- PRIVET_SELFCHECK: a copy or a parity of Privet's configuration comes to differ from the other, where none does yet, and the AON cycle's
check finds it (R430). -/
def execPrivetSelfcheck (s : State) : Host.Outcome State Fault Refusal :=
  .next (selfCheckFails (if copiesDiffer s then s else prvUpset s))

/-! ### Bays and targets of an occurrence (R418, R419) -/

/-- The three bays of core `n` as a bitmap. -/
def coreBays (n : Nat) : Nat := 7 * 8 ^ n

/-- The bays of the cores of FTG `g`. -/
def ftgBays (s : State) (g : Nat) : Nat :=
  ((List.range 8).filter fun n => ftgOf s n == g).foldl (fun a n => a + coreBays n) 0

/-- The bays of an ESP_PAR detail: the owner of the channel, or every bay of the FTG (R418, R160). -/
def parBays (s : State) (o : Nat) : Nat :=
  if 0x40000 ≤ o then 2 ^ ((o - 0x40000) / 4 / 512 / 8)
  else if 0x20000 ≤ o then 2 ^ ((o - 0x20000) / 512 / 8)
  else ftgBays s ((o - 0x10000) / 16 / 512)

/-- The bays of an occurrence (R418). -/
def occBays (s : State) (k det : Nat) : Nat :=
  if k = 5 ∨ k = 1 ∨ (k = 6 ∧ !det.testBit 3) then coreBays (det % 8)
  else if k = 19 then 2 ^ (det / 2)
  else if k = 7 then parBays s det
  else s.rd (R.PRV_SRCs_BAYS_BAYS k)

/-- The block-reset target of an occurrence (R419). -/
def occTarget (k det : Nat) : Option Nat :=
  if k = 1 ∨ k = 5 ∨ (k = 6 ∧ !det.testBit 3) then some (det % 8)
  else if k = 4 ∨ k = 6 then some 8
  else none

/-- BLOCK_BAYS: the bays' bits in PRV_BAYBLK (R418). -/
def blockBays (s : State) (b : Nat) : State := gateUpdate (s.wr R.PRV_BAYBLK_BLK (s.rd R.PRV_BAYBLK_BLK ||| b))

/-- PRV_BRST.INWIN shows the open windows (R427). -/
def showWindows (s : State) : State :=
  s.wr R.PRV_BRST_INWIN (bitmap 9 fun t => s.prv.inRst.contains t || s.prv.tail.any (·.1 == t))

/-! ### Block resets (R427, R429) -/

/-- Is the latest block reset of `t` less than 100 ms old? -/
def recentReset (s : State) (t : Nat) : Bool :=
  s.prv.lastBrst.any fun e => e.1 == t && decide (s.tb2Ns < e.2 + 100000000)

/-- R429: what is done in place of a second reset within 100 ms; `det` is the detail of the occurrence that asked for it, 0 where the
host did (R425). -/
def escalate (s : State) (t det : Nat) : State :=
  let s1 := (s.wrb R.PRV_STAT_ESC_STK true).wr R.PRV_BRST_LASTESC t
  enterSafe ((s1.logAon 1 2 (leBytes 1 t) clsF).prvIrqEdge s.prvIrq) 0x3D det

/-- The reset itself: it opens the window and its start is remembered (R194, R274, R427, R429). -/
def performReset (s : State) (t : Nat) : State :=
  let s1 := { s with prv := { s.prv with lastBrst := mput s.prv.lastBrst t s.tb2Ns, inRst := t :: s.prv.inRst,
                                          tail := mdel s.prv.tail t } }
  showWindows (if t = 8 then scResetStart s1 else coreResetStart s1 t)

/-- A block reset of target `t` is asked for (R427, R429): ignored while one is in progress, escalated within 100 ms of
the previous start. -/
def blockReset (s : State) (t det : Nat) : State :=
  if s.prv.inRst.contains t then s
  else if recentReset s t then escalate s t det
  else performReset s t

/-- CORE_BLOCK_RESET: a write of ELCn_CTL.BRST (R194), which LOCK makes of no effect (R199). -/
def execCoreBlockReset (n : Fin 8) (s : State) : Host.Outcome State Fault Refusal :=
  .next (if s.on (R.ELCn_CTL_LOCK n) then s else blockReset s n 0)

/-- SCHEME_BLOCK_RESET: a write of SCH_CTL.BRST (R274), which LOCK makes of no effect (R303). -/
def execSchemeBlockReset (s : State) : Host.Outcome State Fault Refusal := .next (if s.on R.SCH_CTL_LOCK then s else blockReset s 8 0)

/-- CONSEQ_WINDOW_CLOSE: 10 µs after the target left RELOAD its window closes (R427). -/
def execConseqWindowClose (t : Fin 9) (s : State) : Host.Outcome State Fault Refusal :=
  .next (if s.prv.tail.any fun e => e.1 == t.val && decide (s.tb2Ns < e.2 + 10000) then s
    else showWindows { s with prv := { s.prv with tail := mdel s.prv.tail t.val } })

/-- Is the window of target `t` open? -/
def inWindow (s : State) (t : Nat) : Bool := s.prv.inRst.contains t || s.prv.tail.any (·.1 == t)

/-- Does an occurrence match the list of R428 for target `t`? -/
def matchesTarget (t k det : Nat) : Bool :=
  if t < 8 then
    ((k == 1 || k == 5 || (k == 6 && !det.testBit 3)) && det % 8 == t)
      || (k == 0 && decide (det / 2 ^ 28 ≤ 2) && det / 2 ^ 25 % 8 == t)
      || (k == 24 && [1, 2, 3].contains (det / 256 % 256))
  else
    (k == 6 && det.testBit 3) || (k == 0 && det / 2 ^ 28 == 3) || (k == 24 && [3, 4, 5, 6].contains (det / 256 % 256))

/-- R428: is an occurrence consequential? Never one of class F. -/
def consequential (s : State) (k det : Nat) : Bool :=
  prvClassRst k != 3 && (List.range 9).any fun t => inWindow s t && matchesTarget t k det

/-! ### Recording (R422 to R426) -/

/-- The payload of a fault record (R425). -/
def faultPayload (det act flags target unsent : Nat) : List Byte :=
  leBytes 4 det ++ leBytes 1 act ++ leBytes 1 flags ++ leBytes 1 target ++ leBytes 1 0 ++ leBytes 4 unsent

/-- Submits the record of an occurrence; class C and U at most once per source per 1 ms (R425, R426). -/
def submit (s : State) (k det act flags target : Nat) (tell : SeqTo) : State :=
  let cls := prvClassRst k
  if cls ≠ 3 ∧ s.prv.lastRec.any (fun e => e.1 == k && decide (s.tb2Ns < e.2 + 1000000)) then
    { s with prv := { s.prv with unsent := mmod s.prv.unsent k 0 (· + 1) } }
  else
    let s1 := s.logAon 1 (0x100 + k) (faultPayload det act flags target (mget s.prv.unsent k 0)) cls tell
    { s1 with prv := { s1.prv with unsent := mdel s1.prv.unsent k, lastRec := mput s1.prv.lastRec k s.tb2Ns } }

/-- The ACTION of source `k`. -/
def actionOf (s : State) (k : Nat) : Nat := s.rd (R.PRV_SRCs_CFG_ACTION k)

/-- The action in whose favour action `a` gives way, if any (R417): `eff` is the strongest of the cycle or in force. SAFE supersedes
every other action. -/
def superBy (a eff : Nat) : Option Nat :=
  if a ≠ 4 ∧ eff = 4 then some 4 else if (a = 1 ∨ a = 2) ∧ eff = 3 then some 3 else none

/-- The first-fault capture (R423). -/
def capture (s : State) (k det : Nat) (sup : Option Nat) (multi : Bool) : State :=
  let st := s.stampNow
  let s1 := (((s.wrb R.PRV_FF_CTL_VALID true).wrb R.PRV_FF_CTL_MULTI multi).wr R.PRV_FF_SRC_SRC k).wr R.PRV_FF_SRC_CLASS (prvClassRst k)
  let s2 := ((s1.wr R.PRV_FF_SRC_ACTION (sup.getD (actionOf s k))).wrb R.PRV_FF_SRC_SUPER sup.isSome).wr R.PRV_FF_DET_DET det
  ((s2.wr64 R.PRV_FF_TIME_LO_TIME R.PRV_FF_TIME_HI_TIME st.act).wr64 R.PRV_FF_TB2_LO_TB2 R.PRV_FF_TB2_HI_TB2 st.tb2).wr64
    R.PRV_FF_SEQ_LO_SEQ R.PRV_FF_SEQ_HI_SEQ 0

/-- R424: a consequential occurrence is counted and logged. -/
def recordConseq (s : State) (o : Nat × Nat) : State :=
  submit ((s.wr (R.PRV_SRCs_DET_DET o.1) o.2).sat1 (R.PRV_SRCs_CNT_CONSQ o.1)) o.1 o.2 0xFF 1 0xFF .nobody

/-- R422: an occurrence that is not consequential: sticky bit, count, detail, record; `cap` marks the one captured. -/
def recordOcc (s : State) (eff : Nat) (cap : Bool) (o : Nat × Nat) : State :=
  let a := actionOf s o.1
  let sup := superBy a eff
  let s1 := ((s.setBit R.PRV_STK_STK o.1).sat1 (R.PRV_SRCs_CNT_OCC o.1)).wr (R.PRV_SRCs_DET_DET o.1) o.2
  let flags := (if s.on (R.PRV_SRCs_CFG_IRQ o.1) then 2 else 0) + (if sup.isSome then 4 else 0)
  let target := if a = 2 ∧ sup.isNone then (occTarget o.1 o.2).getD 0xFF else 0xFF
  (submit s1 o.1 o.2 (if sup.isSome then 0xFF else a) flags target (if cap then .firstFault else .nobody)).prvIrqEdge s.prvIrq

/-- Records the occurrences of one cycle, lowest source first; the first of them is captured where no capture is held. -/
def recordAll (s : State) (eff : Nat) (l : List (Nat × Nat)) : State :=
  match l with
  | [] => s
  | o :: t =>
    let cap := !s.on R.PRV_FF_CTL_VALID
    let s1 := if cap then capture s o.1 o.2 (superBy (actionOf s o.1) eff) (!t.isEmpty) else s
    t.foldl (fun a x => recordOcc a eff false x) (recordOcc s1 eff cap o)

/-- Does an occurrence ask for a block reset that R429 turns into safe state? -/
def escalates (s : State) (o : Nat × Nat) : Bool :=
  actionOf s o.1 == 2 && (match occTarget o.1 o.2 with | some t => !s.prv.inRst.contains t && recentReset s t | none => false)

/-- The reactions of BLOCK_BAYS and BLOCK_RESET, each on its own bays or target (R417). -/
def reactLocal (s : State) (o : Nat × Nat) : State :=
  match actionOf s o.1 with
  | 1 => blockBays s (occBays s o.1 o.2)
  | 2 => match occTarget o.1 o.2 with | some t => blockReset s t o.2 | none => s
  | _ => s

/-- Removes one waiting occurrence equal to `o` from the lines. -/
def takeLine (l : List (Nat × Word)) (o : Nat × Word) : List (Nat × Word) :=
  match l with
  | [] => []
  | x :: t => if x = o then t else x :: takeLine t o

/-- Occurrences in ascending source order. -/
def insSrc (o : Nat × Nat) (l : List (Nat × Nat)) : List (Nat × Nat) :=
  match l with
  | [] => [o]
  | x :: t => if o.1 < x.1 then o :: x :: t else x :: insSrc o t

/-- The bays that a live item of a level source with ACTION 1 still holds (R418). -/
def heldBays (s : State) : Nat :=
  (s.prv.items.filter fun e => actionOf s e.1 == 1).foldl (fun a e => a ||| occBays s e.1 e.2) 0

/-- BAY_BLOCK_CLEAR: a W1C write of PRV_BAYBLK (R418, R432). -/
def execBayBlockClear (mask : BitVec 24) (s : State) : Host.Outcome State Fault Refusal :=
  .next <|
    if s.on R.PRV_STAT_SAFE then s
    else
      let h := heldBays s
      let b := s.rd R.PRV_BAYBLK_BLK
      gateUpdate (s.wr R.PRV_BAYBLK_BLK (bitmap 24 fun k => b.testBit k && (!mask.getLsbD k || h.testBit k)))

/-- FIRST_FAULT_REARM: a write of PRV_FF_CTL.REARM releases the capture (R423). -/
def execFirstFaultRearm (s : State) : Host.Outcome State Fault Refusal :=
  .next (s.wrb R.PRV_FF_CTL_VALID false)

/-! ### Monitors -/

/-- The band of R33 by monitored clock: 0 AON, 1 FAB, 2 SCH, 3 NET, 4 PA_RX, 5 PB_RX, 6 SB_RX, 7 HST, 8 MEM. -/
def clockBand (s : State) (c : Nat) : Nat × Nat :=
  match c with
  | 0 => (752, 848)
  | 1 => (3008, 3392)
  | 3 => (4700, 5300)
  | 4 => if s.rd (R.NET_Pp_CFG_SPEED 0) = 0 then (4700, 5300) else (3760, 4240)
  | 5 => if s.rd (R.NET_Pp_CFG_SPEED 1) = 0 then (4700, 5300) else (3760, 4240)
  | 6 => (3760, 4240)
  | 8 => (12032, 13568)
  | _ => (7520, 8480)

/-- The source of a domain clock's monitor. -/
def clockSource (c : Nat) : Nat :=
  match c with | 0 => 8 | 1 => 9 | 2 => 10 | 3 => 11 | 7 => 12 | _ => 13

/-- R34, R548: the AON and FAB monitors hold the safe-state gate closed while they report. -/
def clockGate (s : State) : State :=
  gateUpdate { s with prv := { s.prv with fabGate := s.itemLive 8 0 || s.itemLive 9 0 } }

/-- A port's LINK item: live while the port is down or its receive-clock monitor reports (R548). -/
def linkItem (s : State) (p : Nat) : State :=
  if !s.on (R.NET_Pp_STAT_LINK p) || s.prv.rxBad.contains p then s.itemOn 20 p p else s.itemOff 20 p

/-- CLOCK_MONITOR_WINDOW: the end of a window, with the count of clock `c` (R33). The monitor of a domain that is off is
masked, that of a receive clock active only while its link is up. -/
def execClockMonitorWindow (c : Fin 9) (count : Nat) (s : State) : Host.Outcome State Fault Refusal :=
  .next <|
    let b := clockBand s c
    let bad := decide (count < b.1) || decide (b.2 < count)
    if 4 ≤ c.val ∧ c.val ≤ 6 then
      let p := c.val - 4
      if !s.on (R.NET_Pp_STAT_LINK p) then s
      else linkItem { s with prv := { s.prv with rxBad :=
        (if bad then [p] else []) ++ s.prv.rxBad.filter (· ≠ p) } } p
    else
      let k := clockSource c
      if srcMasked s k then s
      else clockGate (if bad then s.itemOn k 0 count else s.itemOff k 0)

/-- TEMPERATURE_CROSSING: Tj is measured at or across a threshold (R548): WARN with 5 °C of hysteresis, 135 °C critical. TEMP shows the low
eight bits of it (assumption 163). -/
def execTemperatureCrossing (tj : BitVec 9) (s : State) : Host.Outcome State Fault Refusal :=
  .next <|
    let t := tj.toInt
    let warn : Int := (clamp 85 130 (s.rd R.PRV_TMON_WARN) : Nat)
    let det := usg 32 t
    let s1 := s.wr R.PRV_TMON_TEMP tj.toNat
    let s2 := if warn ≤ t then s1.itemOn 16 0 det else if t ≤ warn - 5 then s1.itemOff 16 0 else s1
    if 135 ≤ t then s2.itemOn 17 0 det else s2.itemOff 17 0

/-- SUPPLY_RAIL_FAULT: a rail stays outside its monitor window for more than 2 µs (R412, R527). While RST_N or PORST_N is asserted the
rail's item is live and reports nothing (R528). -/
def execSupplyRailFault (r : Fin 10) (s : State) : Host.Outcome State Fault Refusal :=
  .next (if s.glb.hold = 0 then s.itemOn 15 r r else s.itemOnQuiet 15 r)

/-- SUPPLY_RAIL_RECOVER: the rail is back inside its window (R548). -/
def execSupplyRailRecover (r : Fin 10) (s : State) : Host.Outcome State Fault Refusal := .next (s.itemOff 15 r)

/-- The power domains at the two ends of a crossing FIFO, and its reader's clock domain (R413, R414). -/
def fifoEnds (k : Nat) : List Nat × Nat :=
  match k with
  | 0 => ([8, 1], 1) | 1 => ([1, 8], 3) | 2 => ([1, 8], 3) | 3 => ([1, 6], 2) | 4 => ([6, 1], 1) | 5 => ([6, 8], 3)
  | 6 => ([8, 6], 2) | 7 => ([9, 8], 3) | 8 => ([9, 8], 3) | 9 => ([9, 8], 3) | 10 => ([8, 11], 7) | 11 => ([11, 8], 3)
  | 12 => ([11], 2) | 13 => ([11], 8) | 14 => ([11], 2) | 15 => ([1, 11], 8) | 16 => ([11, 1], 1) | 17 => ([1], 0)
  | 18 => ([6], 0) | 19 => ([8], 0) | _ => ([11], 0)

/-- CROSSING_STALL: FIFO `k` has held an entry unread for 100 µs; once for each stall; a FIFO of a domain that is off is
exempt (R413). -/
def execCrossingStall (k : Fin 22) (s : State) : Host.Outcome State Fault Refusal :=
  .next (if (fifoEnds k).1.all s.pg then s.raiseLine 24 (k.val * 256 + (fifoEnds k).2) else s)

/-! ### ALIVE and FAIL_N (R433, R434) -/

/-- ALIVE_TOGGLE: the half-period of ALIVE expires (R434): 500 µs at 1 kHz, 50 ms at 10 Hz. -/
def execAliveToggle (s : State) : Host.Outcome State Fault Refusal :=
  let half := if aliveMode s = 1 then 50000000 else if aliveMode s = 2 then 500000 else 0
  let lvl := match aliveMode s with
    | 0 => false
    | 3 => s.prv.alivePin
    | _ => !s.prv.alivePin
  .next (if s.tb2Ns < s.prv.aliveAt + half then s else { s with prv := { s.prv with alivePin := lvl, aliveAt := s.tb2Ns } })

/-- The level of ALIVE: low in mode 0 whatever it was. -/
def alivePin (s : State) : Bool := aliveMode s != 0 && s.prv.alivePin

/-- Is FAIL_N asserted (R433)? -/
def failAsserted (s : State) : Bool :=
  s.on R.PRV_STAT_SAFE || s.on R.GLB_BOOT_MAINT || s.glb.hib || s.glb.hold != 0 || !s.on R.GLB_BOOT_DONE

end Sys2Proof.Machine
end

