-- ==== Sys2Proof/Machine/Afe.lean ====
section
/-! DEFINITION. The analogue front end (R49 to R78): tags, overload, references, gain, mode and enable changes, windows of
the accumulators, checker converters. Modulators 0 to 47 are the primaries, 48 to 51 the checkers. -/

namespace Sys2Proof.Machine

/-! ### Tags on the bit stream (R58 to R61) -/

/-- Letters of a tag: 0 U, 1 O, 2 N, 3 I. -/
def setAfe (s : State) (a : Afe) : State := { s with afe := a }

/-- The reference group of a modulator (R50). -/
def refGroup (m : Nat) : Nat := if m < 48 then m / 4 else 12

/-- The modulators of a reference group. -/
def groupMods (g : Nat) : List Nat := if g < 12 then [4 * g, 4 * g + 1, 4 * g + 2, 4 * g + 3] else [48, 49, 50, 51]

/-- Is the reference of a modulator's group failed (AFE_GRP_LIVE.REF_FAIL)? -/
def refFailed (s : State) (m : Nat) : Bool := (s.rd R.AFE_GRP_LIVE_REF_FAIL).testBit (refGroup m)

/-- Is the modulator enabled? A checker's always is. -/
def modEnabled (s : State) (m : Nat) : Bool := decide (48 ≤ m) || s.on (R.AFE_CHn_CFG_EN m)

/-- Is modulator `m` in an overload interval? -/
def inOvl (s : State) (m : Nat) : Bool := s.afe.ovl.any fun e => e.1 == m

/-- Was an overload of a neighbour, begun at or before TB2 instant `t`, tagging modulator `m` with N when last looked at (R61)? -/
def nbrTagged (s : State) (m t : Nat) : Bool :=
  decide (m < 48) && (groupMods (refGroup m)).any fun x => x != m &&
    (s.afe.ovl.any (fun e => e.1 == x && decide (e.2 ≤ t)) || s.afe.ntail.any fun e => e.1 == x && decide (e.2.1 ≤ t))

/-- Are the bits of modulator `m` tagged with a letter now, for a cause that began at or before TB2 instant `t` (R58)? -/
def tagOn (s : State) (m letter t : Nat) : Bool :=
  let ref := (refFailed s m && decide (mget s.afe.refAt (refGroup m) 0 ≤ t)) || !s.on R.AFE_STAT_REF_RDY
  let ovl := s.afe.ovl.any fun e => e.1 == m && decide (e.2 ≤ t)
  match letter with
  | 0 => ovl || ref
  | 1 => ovl
  | 2 => nbrTagged s m t
  | _ => ref || (!modEnabled s m && decide (mget s.afe.enAt m 0 ≤ t))

/-- Modulator `m` bears a letter from TB2 instant `a` to `b`; runs that ended more than 40 ms ago, longer than any window of R102,
are dropped. Keys from 400 on are DCH's own events: 4·(100 + chain) and 4·(200 + channel), letter U. -/
def markTag (s : State) (m letter a b : Nat) : State :=
  let young (e : Nat × Nat) : Bool := decide (tb2U s < e.2 + 40000000 * nsU)
  setAfe s { s.afe with runs := mmod s.afe.runs (4 * m + letter) [] fun l => (a, b) :: l.filter young }

/-- The next 32 bits of modulator `m` are tagged U (R58). -/
def markU32 (s : State) (m : Nat) : State := markTag s m 0 (tb2U s) (tb2U s + 32 * tmNs (lpmAct s) * nsU)

/-- Does a finished run under key `k` lie in, or overlap, the window that reaches back `span` ns from TB2 instant `hi` (R103)? -/
def runIn (s : State) (k hi span : Nat) : Bool :=
  (mget s.afe.runs k []).any fun e => decide (e.1 ≤ hi) && decide (hi < e.2 + span * nsU)

/-- Does a letter's event on modulator `m` overlap that window (R103)? -/
def tagInWindow (s : State) (m letter hi span : Nat) : Bool := tagOn s m letter hi || runIn s (4 * m + letter) hi span

/-- The same for an event of DCH alone: a restart or a fade of chain or resampler `k` in the key space of `markTag`. -/
def eventInWindow (s : State) (k hi span : Nat) : Bool := runIn s (4 * k) hi span

/-- A restart of chain `n`, of resampler `m`, is a U event now (R104); a fade that ends now was one from TB2 instant `a` on (R102). -/
def chainEvent (s : State) (n : Nat) : State := markTag s (100 + n) 0 (tb2U s) (tb2U s)
def rsEvent (s : State) (m : Nat) : State := markTag s (200 + m) 0 (tb2U s) (tb2U s)
def chainFade (s : State) (n a : Nat) : State := markTag s (100 + n) 0 a (tb2U s)
def rsFade (s : State) (m a : Nat) : State := markTag s (200 + m) 0 a (tb2U s)

/-- Is a stage of chain `n`, is resampler `m`, in a fade whose output 1 lies at or before TB2 instant `t`, and whose output F is
still to come? -/
def chainFading (s : State) (n t : Nat) : Bool :=
  (chainOf s n).hb.any fun e => match e.2.fade with | some f => f.busy && decide (f.at1 ≤ t) | none => false
def rsFading (s : State) (m t : Nat) : Bool :=
  match (rsOf s m).fade with | some f => f.busy && decide (f.at1 ≤ t) | none => false

/-! ### Overload (R59 to R62) -/

/-- AFE_CHn_STAT.OVL, NBR and AFE_GRP_LIVE.OVL follow the overload intervals. -/
def showOverload (s : State) (m : Nat) : State :=
  if 48 ≤ m then s
  else
    let s1 := (groupMods (refGroup m)).foldl (fun a x =>
      (a.wrb (R.AFE_CHn_STAT_OVL x) (inOvl a x)).wrb (R.AFE_CHn_STAT_NBR x) (nbrTagged a x (tb2U a))) s
    s1.putBit R.AFE_GRP_LIVE_OVL (refGroup m) ((groupMods (refGroup m)).any (inOvl s1))

/-- A checker's dwell in progress is void (R56, R62 to R64, R74). -/
def voidDwell (s : State) (k : Nat) : State :=
  setAfe s { s.afe with ck := mmod s.afe.ck k {} fun c => { c with void := true } }
def voidAll (s : State) : State := voidDwell (voidDwell (voidDwell (voidDwell s 0) 1) 2) 3

/-- The neighbours of `m` have carried N for its overload from TB2 instant `t` to now (R61). -/
def markNbrEnd (s : State) (m t : Nat) : State :=
  if 48 ≤ m then s else ((groupMods (refGroup m)).filter (· ≠ m)).foldl (fun a x => markTag a x 2 t (tb2U s)) s

/-- Is modulator `m` in a loop reset (R59)? -/
def inLoopReset (s : State) (m : Nat) : Bool :=
  (mget s.afe.rst m []).any fun e => decide (tb2U s < e.1)

/-- A loop reset of modulator `m` starts: 16 fm periods, at the code of the overload's sign (R59). -/
def startLoopReset (s : State) (m : Nat) (pos : Bool) : State :=
  setAfe s { s.afe with rst := mmod s.afe.rst m [] fun l => ((tb2U s + 16 * tmNs (lpmAct s) * nsU, pos) :: l).take 2 }

/-- The bit that a loop reset forces on modulator `m` at TB2 instant `t`, where one does (R59). -/
def forcedBit (s : State) (m t : Nat) : Option Bool :=
  ((mget s.afe.rst m []).find? fun e => decide (t ≤ e.1) && decide (e.1 < t + 16 * tmNs (lpmAct s) * nsU)).map (·.2)

/-- OVERLOAD_DETECT: 48 identical bits of a modulator, 1s if the flag is set (R59, R60): a loop reset starts. Within an interval it extends it; at its
start the interval is counted. A run cannot be complete inside a loop reset (assumption 115). A checker's overload voids its
dwell (R62). -/
def execOverloadDetect (x : Fin 52 × Bool) (s : State) : Host.Outcome State Fault Refusal :=
  .next <|
    let m := x.1
    if !s.pg 10 || !modEnabled s m || inLoopReset s m then s
    else
      let s0 := startLoopReset s m x.2
      if inOvl s m then s0
      else
        let s1 := setAfe s0 { s0.afe with ovl := (m.val, tb2U s) :: s.afe.ovl }
        if m.val < 48 then
          showOverload ((s1.wrb (R.AFE_CHn_STAT_OVL_STK m) true).sat1 (R.AFE_CHn_STAT_OVL_CNT m)) m
        else voidDwell s1 (m.val - 48)

/-- The interval of modulator `m` ends now (R60, R65): O ends, U goes on for 32 bits, N on the neighbours for 20 µs. -/
def endOverload (s : State) (m : Nat) : State :=
  match s.afe.ovl.find? fun e => e.1 == m with
  | none => s
  | some e =>
    let s1 := setAfe s { s.afe with ovl := s.afe.ovl.filter (fun x => x.1 != m), ntail := (m, (e.2, tb2U s)) :: s.afe.ntail }
    showOverload (markU32 (markTag (markTag s1 m 1 e.2 (tb2U s)) m 0 e.2 (tb2U s)) m) m

/-- OVERLOAD_INTERVAL_END: the first bit transition after the latest loop reset (R60): none inside one. -/
def execOverloadIntervalEnd (m : Fin 52) (s : State) : Host.Outcome State Fault Refusal :=
  .next (if !s.pg 10 || inLoopReset s m then s else endOverload s m)

/-- NEIGHBOUR_TAG_END: 20 µs after modulator `m`'s interval ended (R61). -/
def execNeighbourTagEnd (m : Fin 52) (s : State) : Host.Outcome State Fault Refusal :=
  .next <|
    let past (e : Nat × (Nat × Nat)) : Bool := e.1 == m.val && decide (e.2.2 + 20000 * nsU ≤ tb2U s)
    match (if s.pg 10 then s.afe.ntail.find? past else none) with
    | none => s
    | some e => showOverload (markNbrEnd (setAfe s { s.afe with ntail := s.afe.ntail.erase e }) m e.2.1) m

/-! ### Checkers (R52, R71 to R78) -/

/-- Is input `12k + j` eligible for checker `k` (R71)? -/
def eligible (s : State) (k j : Nat) : Bool := s.on (R.AFE_CHn_CFG_EN (12 * k + j)) && !s.on (R.AFE_CHn_CFG_CKEXCL (12 * k + j))

/-- The next eligible input offset after `j`, and whether the sweep wraps. -/
def nextEligible (s : State) (k j : Nat) : Option (Nat × Bool) :=
  match (List.range 12).find? fun x => decide (j < x) && eligible s k x with
  | some x => some (x, false)
  | none => ((List.range 12).find? fun x => eligible s k x).map fun x => (x, true)

def ckOf (s : State) (k : Nat) : Ck := mget s.afe.ck k {}
def setCk (s : State) (k : Nat) (c : Ck) : State := setAfe s { s.afe with ck := mput s.afe.ck k c }

/-- Checker `k` moves to input offset `j` (R72): settling, its decimation counters loaded from the primary's chain. -/
def ckMove (s : State) (k j : Nat) : State :=
  let p := chainOf s (12 * k + j)
  let old := mget s.dch.ckChain k {}
  let c : Chain := setHb { old with cic := { old.cic with cnt := p.cic.cnt } } 1 { hbOf old 1 with odd := (hbOf p 1).odd }
  let s1 := { s with dch := { s.dch with ckChain := mput s.dch.ckChain k c } }
  (setCk s1 k { ckOf s k with phase := 1, pos := j, since := tb2U s, void := false, sd := 0, sr := 0, m := 0 }).wr (R.AFE_CKk_STAT_POS k) j

/-- Checker `k` starts, or restarts, its sweep at the lowest eligible input (R71, R78). -/
def ckSweep (s : State) (k : Nat) : State :=
  match (List.range 12).find? fun x => eligible s k x with
  | some j => ckMove (setCk s k { ckOf s k with failed := [] }) k j
  | none => setCk s k { ckOf s k with phase := 0, failed := [] }

/-- Checker `k` is declared failed (R77). -/
def ckFail (s : State) (k : Nat) : State :=
  ((setCk s k { ckOf s k with phase := 0 }).wrb (R.AFE_CKk_STAT_FAILED k) true).wrb (R.AFE_CKk_STAT_FAILED_STK k) true
    |>.itemOn 18 (128 + k) (128 + k)

/-- May checker `k` sweep? -/
def ckRuns (s : State) (k : Nat) : Bool := s.on (R.AFE_CKk_CTL_EN k) && !s.on (R.AFE_CKk_STAT_FAILED k)

/-- An idle checker that may sweep moves to its lowest eligible input, as soon as there is one (R71, R72). -/
def ckWake (s : State) (k : Nat) : State := if ckRuns s k && (ckOf s k).phase == 0 then ckSweep s k else s

/-- The settle time in ns: 10 µs, and the settle span of CIC and HB1 (R72). -/
def ckSettleNs (s : State) (k : Nat) : Nat :=
  10000 + tmNs (lpmAct s) * (128 + 32 * tapsWide s (12 * k + (ckOf s k).pos) 1)

/-- CHECKER_SETTLE_END: the settle time ends and the dwell begins (R72). -/
def execCheckerSettleEnd (k : Fin 4) (s : State) : Host.Outcome State Fault Refusal :=
  .next <|
    let c := ckOf s k
    if !s.pg 10 || !ckRuns s k then s
    else if c.phase = 0 then ckWake s k
    else if c.phase = 1 ∧ c.since + ckSettleNs s k * nsU ≤ tb2U s then
      setCk s k { c with phase := 2, since := tb2U s, void := false, sd := 0, sr := 0, m := 0 }
    else s

/-- TOL_ABS: 0 is treated as 1. -/
def tolAbs (s : State) (k : Nat) : Nat := max 1 (s.rd (R.AFE_CKk_CTL_TOL_ABS k))

/-- DWELL in ms: values outside 5…200 act as the nearer limit. -/
def dwellMs (s : State) (k : Nat) : Nat := clamp 5 200 (s.rd (R.AFE_CKk_CTL_DWELL k))

/-- Pairs in a dwell: M = floor(DWELL × r_ft / 1,000) (R73). -/
def dwellPairs (s : State) (k : Nat) : Nat := dwellMs s k * 1000000 / (64 * tmNs (lpmAct s))

/-- A dwell has ended: its M pairs are compared, or DWELL ms are over without them, the primary's chain being stopped. -/
def dwellOver (s : State) (k : Nat) (c : Ck) : Bool :=
  decide (dwellPairs s k ≤ c.m) || decide (c.since + dwellMs s k * 1000000 * nsU ≤ tb2U s)

/-- The dwell's verdict (R73, R74): 0 pass, 1 fail, 2 void. DESIGN CHOICE (safe; assumption 116): a dwell of fewer than M pairs
is void. -/
def judge (s : State) (k : Nat) (c : Ck) : Nat :=
  if c.void ∨ c.m < dwellPairs s k ∨ c.m = 0 then 2
  else if tolAbs s k * 8388607 * c.m + s.rd (R.AFE_CKk_CTL_TOL_REL k) * c.sr < c.sd * 10000 then 1
  else 0

/-- INVAL of input `n` as its two copies show it. -/
def showInval (s : State) (n : Nat) (b : Bool) : State :=
  (s.putBit (R.AFE_CKk_STAT_INVAL (n / 12)) (n % 12) b).wrb (R.AFE_CHn_STAT_CK_INVAL n) b

/-- A pass (R75). -/
def ckPass (s : State) (n : Nat) : State :=
  (((showInval s n false).clrBit (R.AFE_CKk_STAT_SUSPECT (n / 12)) (n % 12)).itemOff 18 n |> fun a =>
    setAfe a { a.afe with fails := mdel a.afe.fails n })

/-- A failure (R75): the first sets SUSPECT, the second INVAL and raises CK_PLAUS; each is logged. -/
def ckFailInput (s : State) (n : Nat) : State :=
  let cnt := mget s.afe.fails n 0 + 1
  let s1 := (setAfe s { s.afe with fails := mput s.afe.fails n cnt }).logIx 0x06 2 n
  let s2 := s1.setBit (R.AFE_CKk_STAT_SUSPECT (n / 12)) (n % 12)
  if cnt = 2 then (showInval s2 n true).itemOn 18 n n else s2

/-- R77: a failed dwell on the third of the checker's primary groups within one sweep. -/
def ckGroups (s : State) (k j : Nat) : State :=
  let c := ckOf s k
  let g := j / 4
  if c.failed.contains g || (s.rd R.AFE_GRP_LIVE_REF_FAIL).testBit (3 * k + g) then s
  else
    let s1 := setCk s k { c with failed := g :: c.failed }
    if (g :: c.failed).length = 3 then ckFail s1 k else s1

/-- The move after a dwell (R71): the next eligible input, a wrap counting the sweep. -/
def ckNext (s : State) (k : Nat) : State :=
  if s.on (R.AFE_CKk_STAT_FAILED k) then s
  else match nextEligible s k (ckOf s k).pos with
    | none => setCk s k { ckOf s k with phase := 0 }
    | some (j, w) =>
      let s1 := if w then (setCk s k { ckOf s k with failed := [] }).inc (R.AFE_CKk_CNT_SWEEPS k) else s
      ckMove s1 k j

/-- CHECKER_DWELL_END: a dwell ends and is judged (R73 to R77). DESIGN CHOICE (unsafe; assumption 116): before a checker's first dwell
LASTD.RESULT reads its reset value 0, and the model never shows 0b11. -/
def execCheckerDwellEnd (k : Fin 4) (s : State) : Host.Outcome State Fault Refusal :=
  .next <|
    let c := ckOf s k
    if !s.pg 10 || !ckRuns s k || c.phase != 2 || !dwellOver s k c then s
    else
      let v := judge s k c
      let n := 12 * k.val + c.pos
      let s1 := ((s.wr (R.AFE_CKk_LASTD_RESULT k) v).wr (R.AFE_CKk_LASTD_POS k) c.pos).wr (R.AFE_CKk_LASTD_DIFF k)
        (if v = 2 then 0 else c.sd / c.m)
      let s2 := match v with
        | 0 => ckPass s1 n
        | 1 => ckGroups (ckFailInput (s1.sat1 (R.AFE_CKk_CNT_FAILS k)) n) k c.pos
        | _ => s1.sat1 (R.AFE_CKk_CNT_VOIDS k)
      ckNext s2 k

/-- CHECKER_RESTART: a write of AFE_CKk_CTL.RESTART (R78); with the cause persisting it fails again (R77). -/
def execCheckerRestart (k : Fin 4) (s : State) : Host.Outcome State Fault Refusal :=
  .next <| if !s.pg 10 then s else
    let s1 := (((s.wrb (R.AFE_CKk_STAT_FAILED k) false).wr (R.AFE_CKk_STAT_SUSPECT k) 0).itemOff 18 (128 + k.val))
    let s2 := setAfe s1 { s1.afe with fails := s1.afe.fails.filter fun e => e.1 / 12 != k.val }
    let s3 := ckSweep s2 k
    if (s3.rd R.AFE_GRP_LIVE_REF_FAIL).testBit 12 then ckFail s3 k else s3

/-! ### References (R51 to R53) -/

/-- The reference of group `g` is handled as failed (R51, R52). -/
def refFail (s : State) (g : Nat) : State :=
  let s0 := if (s.rd R.AFE_GRP_LIVE_REF_FAIL).testBit g then s else setAfe s { s.afe with refAt := mput s.afe.refAt g (tb2U s) }
  let s1 := ((s0.setBit R.AFE_GRP_LIVE_REF_FAIL g).setBit R.AFE_GRP_STAT_REF_FAIL_STK g).itemOn 14 g g
  if g = 12 then ckFail (ckFail (ckFail (ckFail s1 0) 1) 2) 3 else s1

/-- REF_WINDOW_EXIT: a buffered reference leaves its window (R51, R52). During the settling time the comparators raise
nothing (R53). -/
def execRefWindowExit (g : Fin 13) (s : State) : Host.Outcome State Fault Refusal :=
  .next <| if !s.pg 10 then s else
    let s1 := setAfe s { s.afe with refBad := (g.val, tb2U s) :: s.afe.refBad.filter fun e => e.1 != g.val }
    if s.on R.AFE_STAT_REF_RDY then refFail s1 g else s1

/-- REF_RECOVERY_END: the reference has been inside its window for 2 ms (R51): no sooner than 2 ms after it left it. -/
def execRefRecoveryEnd (g : Fin 13) (s : State) : Host.Outcome State Fault Refusal :=
  .next <|
    let s1 := setAfe s { s.afe with refBad := s.afe.refBad.filter fun e => e.1 != g.val }
    if !s.pg 10 || s.afe.refBad.any (fun e => e.1 == g.val && decide (tb2U s < e.2 + 2000000 * nsU)) then s
    else if !(s.rd R.AFE_GRP_LIVE_REF_FAIL).testBit g then s1
    else
      let t0 := mget s.afe.refAt g.val 0
      let s2 := (groupMods g).foldl (fun a m => markTag (markTag a m 0 t0 (tb2U s)) m 3 t0 (tb2U s)) s1
      (s2.clrBit R.AFE_GRP_LIVE_REF_FAIL g).itemOff 14 g

/-- Does group `g`, which has left its window in the settling time, lie outside it when REF_RDY is set? No command says that a reference
comes back, so the answer is a free value (R53, assumption 153). One that lies inside proceeds normally. -/
def settleGroup (s : State) (g : Nat) : State :=
  let p := s.fresh 1
  if p.1 = 1 then refFail p.2 g else setAfe p.2 { p.2.afe with refBad := p.2.afe.refBad.filter fun e => e.1 != g }

/-- REF_SETTLE_END: the settling time of 2 ms after PD10's power-good ends (R53); a group outside its window is handled from
now. -/
def execRefSettleEnd (s : State) : Host.Outcome State Fault Refusal :=
  .next <|
    if s.on R.AFE_STAT_REF_RDY || !s.pg 10 || decide (tb2U s < s.afe.pgAt + 2000000 * nsU) then s
    else
      let s1 := (List.range 52).foldl (fun a m => markTag (markTag a m 0 s.afe.pgAt (tb2U s)) m 3 s.afe.pgAt (tb2U s)) s
      (s1.afe.refBad.map (·.1)).foldl settleGroup (s1.wrb R.AFE_STAT_REF_RDY true)

/-! ### Mode, gain, reference, enable (R55, R56, R63 to R66) -/

/-- The lowest enabled input whose resampler writes a grid channel and breaks R99 at the requested T_m (R55). -/
def lpmFail (s : State) (lpm : Bool) : Option Nat :=
  (List.range 48).find? fun n => s.on (R.AFE_CHn_CFG_EN n) &&
    match rsOfInput s n with
    | some m => rsRun s m && usedGroup s (groupOfCh m) && !rateOkNow s (tmNs lpm) (nhbOf s n) m
    | none => false

/-- LPM_REQUEST: a write of AFE_CTL.LPM (R55). DESIGN CHOICE (unsafe; assumption 117): a further request while an accepted change
waits for its edge takes that change's place where it passes, cancels it where it asks for the mode in effect, and leaves it
waiting where it is refused. -/
def execLpmRequest (v : Bool) (s : State) : Host.Outcome State Fault Refusal :=
  .next <| if !s.pg 10 then s else
    let s1 := s.wrb R.AFE_CTL_LPM v
    match lpmFail s1 v with
    | some n => ((s1.wrb R.AFE_STAT_LPM_REFUSED true).wr R.AFE_STAT_LPM_CH n).logIx 0x06 1 n
    | none => setAfe s1 { s1.afe with lpmReq := if v = lpmAct s1 then none else some (v, tb2U s) }

/-- LPM_CHANGE_EFFECT: an accepted change takes effect for all modulators at one edge, at least 1 µs after the write (R56). -/
def execLpmChangeEffect (s : State) : Host.Outcome State Fault Refusal :=
  .next <|
    match (if s.pg 10 then s.afe.lpmReq else none) with
    | none => s
    | some (v, at0) =>
      if tb2U s < at0 + 1000 * nsU then s
      else
      let s1 := (setAfe s { s.afe with lpmReq := none }).wrb R.AFE_STAT_LPM_ACT v
      voidAll ((List.range 52).foldl markU32 s1)

/-- GAIN_WRITE: a write of AFE_CHn_CFG.GAIN (R49, R63): 0b11 is ignored; a change on a running input tags 32 bits U and voids
a dwell on it. -/
def execGainWrite (n : Fin 48) (g : Fin 4) (s : State) : Host.Outcome State Fault Refusal :=
  .next <|
    if s.pg 10 = false ∨ g.val = 3 ∨ s.rd (R.AFE_CHn_CFG_GAIN n) = g.val then s
    else
      let s1 := s.wr (R.AFE_CHn_CFG_GAIN n) g
      if !s.on (R.AFE_CHn_CFG_EN n) then s1
      else
        let s2 := markU32 s1 n
        let k := n.val / 12
        if (ckOf s2 k).pos = n.val % 12 then voidDwell s2 k else s2

/-- REFSEL_CHANGE: a write of AFE_CTL.REFSEL that changes it (R64). -/
def execRefselChange (v : Bool) (s : State) : Host.Outcome State Fault Refusal :=
  .next <|
    if !s.pg 10 || s.on R.AFE_CTL_LOCK || v == s.on R.AFE_CTL_REFSEL then s
    else voidAll ((List.range 52).foldl markU32 ((s.wrb R.AFE_CTL_REFSEL v).wrb R.AFE_STAT_REFSEL_ACT v))

/-- The modulator of input `n` starts now: its I ends, and its first 32 bits are tagged U (R65). -/
def startInput (s : State) (n : Nat) : State :=
  markU32 (markTag (setAfe s { s.afe with enAt := mput s.afe.enAt n (tb2U s) }) n 3 (mget s.afe.enAt n 0) (tb2U s)) n

/-- AFE_INPUT_ENABLE: EN is set and the modulator starts (R65). -/
def execAfeInputEnable (n : Fin 48) (s : State) : Host.Outcome State Fault Refusal :=
  .next <|
    if !s.pg 10 || s.on R.AFE_CTL_LOCK || s.on (R.AFE_CHn_CFG_EN n) then s
    else ckWake (startInput (s.wrb (R.AFE_CHn_CFG_EN n) true) n) (n / 12)

/-- AFE_INPUT_DISABLE: EN is cleared and the modulator stops (R65); an overload interval in progress ends, its loop reset with it. -/
def execAfeInputDisable (n : Fin 48) (s : State) : Host.Outcome State Fault Refusal :=
  .next <|
    if !s.pg 10 || s.on R.AFE_CTL_LOCK || !s.on (R.AFE_CHn_CFG_EN n) then s
    else
      let s1 := endOverload (s.wrb (R.AFE_CHn_CFG_EN n) false) n
      setAfe s1 { s1.afe with enAt := mput s1.afe.enAt n (tb2U s), rst := mmod s1.afe.rst n [] fun l => l.map fun e => (min e.1 (tb2U s), e.2) }

/-! ### Accumulators and trackers (R67 to R69) -/

/-- Does input `n` fall back to the fixed window k = 15 (R68)? -/
def windowFallback (s : State) (n : Nat) : Bool :=
  !s.on (R.AFE_CHn_CFG_WMODE n) && !((rsOfInput s n).any fun m => rsRun s m && usedGroup s (groupOfCh m))

/-- Values in a fixed window of input `n`; none for a cycle window. -/
def windowLen (s : State) (n : Nat) : Option Nat :=
  if windowFallback s n then some 32768
  else if s.on (R.AFE_CHn_CFG_WMODE n) then some (2 ^ s.rd (R.AFE_CHn_CFG_WK n))
  else none

/-- The window in progress keeps the length it opened with: a change of WMODE or WK takes effect at the next boundary (R69). -/
def windowAt (s : State) (n : Nat) : Option Nat :=
  if (mget s.afe.acc n {}).cnt = 0 then windowLen s n else (mget s.afe.acc n {}).len

/-- The working set becomes the closed set (R69). -/
def closeSet (s : State) (n : Nat) (a : Accum) : State :=
  let s1 := ((s.wrb (R.AFE_CHn_CNT_UFLG n) a.u).wrb (R.AFE_CHn_CNT_OFLG n) a.o).wrb (R.AFE_CHn_CNT_NFLG n) a.n
  let s2 := s1.wr (R.AFE_CHn_CNT_COUNT n) (min a.cnt 1048576)
  let s3 := s2.wr64 (R.AFE_CHn_SUM_LO_SUM n) (R.AFE_CHn_SUM_HI_SUM n) (usg 64 a.sum)
  let s4 := s3.wr64 (R.AFE_CHn_SQ_LO_SQ n) (R.AFE_CHn_SQ_HI_SQ n) (a.sq / 8)
  let s5 := (s4.wr (R.AFE_CHn_MIN_MIN n) (usg 32 a.mn)).wr (R.AFE_CHn_MAX_MAX n) (usg 32 a.mx)
  (s5.inc (R.AFE_CHn_SEQ_SEQ n)).wrb (R.AFE_CHn_STAT_WFB n) (windowFallback s n)

/-- The physical instant of a fast-tap value of input `n` that is complete now (R87), in units of 2^−32 ns of active time. -/
def tapInstant (s : State) (n : Nat) : Nat := actU s - tmNs (lpmAct s) * (62 + 16 * (tapsPlace s n 1 - 1)) * nsU

/-- Has a grid instant with tick index mod N = 0 been reached since the window's first value, `t0` (R68)? -/
def cycleOver (s : State) (n t0 : Nat) : Bool :=
  (rsOfInput s n).any fun m => (mget s.esp.ftg (ftgOfCh s m) {}).insts.any fun i =>
    i.tick % i.n == 0 && decide (t0 < i.t) && decide (i.t ≤ tapInstant s n)

/-- ACCUMULATOR_SWAP: a window boundary of input `n`, before the boundary value enters (R69): a fixed window is full; a
cycle window has a cycle boundary behind it (R68). -/
def execAccumulatorSwap (n : Fin 48) (s : State) : Host.Outcome State Fault Refusal :=
  .next <|
    let a := mget s.afe.acc n {}
    if s.pg 10 && a.cnt != 0 && (match windowAt s n with | some l => decide (l ≤ a.cnt) | none => cycleOver s n a.t0) then
      closeSet (setAfe s { s.afe with acc := mput s.afe.acc n {} }) n a
    else s

/-- A fast-tap value enters the working set (R67). -/
def accumulate (a : Accum) (v : Int) (u o nn : Bool) : Accum :=
  { sum := a.sum + v, sq := a.sq + (v * v).toNat, cnt := a.cnt + 1, u := a.u || u, o := a.o || o, n := a.n || nn,
    mn := min a.mn v, mx := max a.mx v, len := a.len, t0 := a.t0 }

/-- A window of input `n` that holds no value yet opens with the window settings of now (R68, R69). -/
def openWindow (s : State) (n : Nat) : State :=
  if (mget s.afe.acc n {}).cnt = 0 then
    (setAfe s { s.afe with acc := mmod s.afe.acc n {} fun a => { a with len := windowLen s n, t0 := tapInstant s n } }).wrb (R.AFE_CHn_STAT_WFB n) (windowFallback s n)
  else s

end Sys2Proof.Machine
end

