-- ==== Sys2Proof/Machine/Curve.lean ====
section
/-! DEFINITION. The arithmetic of the curve unit (R248 to R251) and of the phasor constants (R241, R243): logarithm and
power of two, sines and cosines, in fixed point fine enough that the one rounding to binary32 is right. -/

namespace Sys2Proof.Machine.F32

/-- Rounds num / den, den positive. -/
def ofRat (num den : Nat) : Word :=
  let k := 64 + bitLen den
  round false (num * 2 ^ k / den) (-(k : Int)) (num * 2 ^ k % den != 0)

/-- `n` more fraction bits of log2 x, x = v / 2^160 in [1, 2). -/
def log2Frac (n v acc : Nat) : Nat :=
  match n with
  | 0 => acc
  | n + 1 =>
    let w := v * v / 2 ^ 160
    if 2 ^ 161 ≤ w then log2Frac n (w / 2) (2 * acc + 1) else log2Frac n w (2 * acc)

/-- log2 (m × 2^e) with 80 fraction bits, m > 0. -/
def log2Fix (m : Nat) (e : Int) : Int :=
  let b := bitLen m
  (e + (b : Int) - 1) * 2 ^ 80 + log2Frac 80 (m * 2 ^ 160 / 2 ^ (b - 1)) 0

/-- ln 2 with 96 fraction bits. -/
def ln2Fix : Nat := 54916777467707473351141471128

/-- 1 + y/k × (1 + y/(k+1) × (…)), `n` terms, y with 96 fraction bits. -/
def expSum (n k : Nat) (y : Int) : Int :=
  match n with
  | 0 => 2 ^ 96
  | n + 1 => 2 ^ 96 + y * expSum n (k + 1) y / ((k : Int) * 2 ^ 96)

/-- 2^(i / 2^80) as m × 2^e. -/
def exp2Fix (i : Int) : Nat × Int :=
  let n := i / 2 ^ 80
  let f := i % 2 ^ 80
  ((expSum 40 1 (f * 2 ^ 16 * ln2Fix / 2 ^ 96)).toNat, n - 96)

/-- log2 of a value that is not rounded: for a finite positive one with 80 fraction bits. -/
def log2Val (x : Val) : Val :=
  match x with
  | .nan => .nan
  | .inf s => if s then .nan else .inf false
  | .fin s m e =>
    if m = 0 then .inf true else if s then .nan
    else let l := log2Fix m e; .fin (decide (l < 0)) l.natAbs (-80)

/-- A finite value as an integer with 80 fraction bits, limited to ±1024: beyond it 2^p lies out of every dose's reach (R250). -/
def fix80 (s : Bool) (m : Nat) (e : Int) : Int :=
  let e1 : Int := e + 80
  let v : Int := if 90 < e1 then 2 ^ 90 else if 0 ≤ e1 then ((m * 2 ^ e1.toNat : Nat) : Int) else ((m / 2 ^ (-e1).toNat : Nat) : Int)
  let w := Min.min v (2 ^ 90)
  if s then -w else w

/-- 2^p − 1 of a value, not rounded: for a small p from the series of the exponential, so that its significant bits stay, else from the
power with 80 bits. -/
def exp2m1 (p : Val) : Val :=
  match p with
  | .nan => .nan
  | .inf s => if s then .fin true 1 0 else .inf false
  | .fin s m e =>
    if e + bitLen m ≤ -16 then
      -- y = p × ln 2, u = y × (1 + y/2 × (1 + y/3 × …))
      let y : Int := if 0 ≤ e then 0 else ((m * ln2Fix : Nat) : Int) / 2 ^ (-e).toNat
      .fin s (m * ln2Fix * (expSum 12 2 (if s then -y else y)).toNat) (e - 192)
    else
      let q := exp2Fix (fix80 s m e)
      let v : Int := (q.1 : Int) * 2 ^ (q.2 + 1200).toNat - 2 ^ 1200
      .fin (decide (v < 0)) v.natAbs (-1200)

/-! ### Doses (R250) -/

/-- fix46: limited to [−2, 2], then the nearest multiple of 2^−46 (a NaN never reaches it). -/
def fix46 (a : Word) : Int :=
  match unpack a with
  | .nan => 0
  | .inf s => if s then -(2 ^ 47) else 2 ^ 47
  | .fin s m e =>
    let e1 : Int := e + 46
    let v : Nat := if 24 < e1 then 2 ^ 47 else if 0 ≤ e1 then m * 2 ^ e1.toNat
      else (m + 2 ^ ((-e1).toNat - 1)) / 2 ^ (-e1).toNat
    let w : Int := Nat.min v (2 ^ 47)
    if s then -w else w

/-- f32(acc): an accumulator with 46 fraction bits, rounded. -/
def ofDose (acc : Nat) : Word := roundInt acc (-46) false

/-- The exact sum of two values. -/
def sumVal (x y : Val) : Val :=
  match x, y with
  | .nan, _ => .nan
  | _, .nan => .nan
  | .inf s, .inf t => if s = t then .inf s else .nan
  | .inf s, .fin .. => .inf s
  | .fin .., .inf t => .inf t
  | .fin s1 m1 e1, .fin s2 m2 e2 =>
    let e0 := Min.min e1 e2
    let i := atExp s1 m1 e1 e0 + atExp s2 m2 e2 e0
    .fin (if i = 0 then s1 && s2 else decide (i < 0)) i.natAbs e0

/-- The quotient of two values, rounded once. -/
def divVal (x y : Val) : Word :=
  match x, y with
  | .nan, _ => nan
  | _, .nan => nan
  | .inf s, .fin t _ _ => infWord (s != t)
  | .inf _, .inf _ => nan
  | .fin s _ _, .inf t => BitVec.ofNat 32 (signWord (s != t))
  | .fin s m1 e1, .fin t m2 e2 =>
    if m2 = 0 then (if m1 = 0 then nan else infWord (s != t))
    else
      let k := 64 + bitLen m2
      round (s != t) (m1 * 2 ^ k / m2) (e1 - e2 - (k : Int)) (m1 * 2 ^ k % m2 != 0)

/-- A rounded value moved by `d` units in the last place, but no farther than leaves it within 2^−20 of the exact one, relative to
that (R250). -/
def nudge (w : Word) (d : Int) : Word :=
  match unpack w with
  | .fin _ m _ => let j : Int := ((m / 2 ^ 20 - 1 : Nat) : Int); if m = 0 then w else ulps w (Max.max (-j) (Min.min j d))
  | _ => w

/-- The dose of KIND 1 (R250): T × u / (TMS × (K + C × u)), u = 2^(ALPHA × log2 g) − 1, from its exact value, rounded and moved by an
error of `d` units in the last place within the bound. An infinite or invalid intermediate is one as in binary32. -/
def doseInverse (t g tms kk alpha c : Word) (d : Int) : Word :=
  let u := exp2m1 (mulVal (unpack alpha) (log2Val (unpack g)))
  nudge (divVal (mulVal (unpack t) u) (mulVal (unpack tms) (sumVal (unpack kk) (mulVal (unpack c) u)))) d

/-- log2 t of a tabulated curve at log2 g (R251), 80 fraction bits: linear between points, the last t above the last point.
`p` is the point below, the list the points above it. -/
def tabLog (lg : Int) (p : Int × Int) : List (Int × Int) → Int
  | [] => p.2
  | q :: r => if lg < q.1 then p.2 + (q.2 - p.2) * (lg - p.1) / (q.1 - p.1) else tabLog lg q r

/-- A positive word's log2 with 80 fraction bits, that of +infinity above every finite one; 0 for anything else, which the loader
rejects in a table (R251). -/
def logOf (a : Word) : Int :=
  match unpack a with
  | .fin false m e => if m = 0 then 0 else log2Fix m e
  | .inf false => 2 ^ 90
  | _ => 0

/-- The dose of KIND 3: T / t(g), moved by an error of `d` units in the last place within the bound. -/
def doseTable (t g : Word) (pts : List (Word × Word)) (d : Int) : Word :=
  match pts.map fun x => (logOf x.1, logOf x.2), unpack t with
  | [], _ => nan
  | p :: r, .fin st mt et =>
    let q := exp2Fix (-(tabLog (logOf g) p r))
    nudge (round st (mt * q.1) (et + q.2) false) d
  | _, _ => div t 0x3F800000#32

/-! ### Twiddles (R241, R243) -/

/-- The alternating series 1 − z/(k(k+1)) × (1 − z/((k+2)(k+3)) × …), z and the result with 96 fraction bits. -/
def trigSum (n k : Nat) (z : Int) : Int :=
  match n with
  | 0 => one96
  | n + 1 => one96 - z * trigSum n (k + 2) z / ((k * (k + 1) : Nat) : Int) / one96

/-- cos and sin of r/n quarter turns, 0 < r < n, with 96 fraction bits. -/
def quarter (r n : Nat) : Int × Int :=
  let x : Int := pi96 * (r : Int) / (2 * (n : Int))
  let z := x * x / one96
  (trigSum 30 1 z, x * trigSum 30 2 z / one96)

/-- cos and sin of 2π·m/n with 96 fraction bits; exact at the quarter turns. -/
def cosSin (m n : Nat) : Int × Int :=
  let q := 4 * m / n % 4
  let r := 4 * m % n
  let p : Int × Int := if r = 0 then (one96, 0) else quarter r n
  match q with
  | 0 => p
  | 1 => (-p.2, p.1)
  | 2 => (-p.1, -p.2)
  | _ => (p.2, -p.1)

def ofFix96 (i : Int) : Word := roundInt i (-96) false

/-- tw[N][m] = (cos(2πm/N), −sin(2πm/N)), each correctly rounded (R241). -/
def twiddle (n m : Nat) : Cx := let p := cosSin m n; (ofFix96 p.1, ofFix96 (-p.2))

/-- The nearest binary32 to √2 / N (R241): √2 with 200 fraction bits. -/
def sqrt2Over (n : Nat) : Word :=
  let r := isqrt 202 (2 * 2 ^ 400) 0
  round false (r / n) (-200) true

/-- √2, 1/√2, cos θ and 1/sin θ of R243, nearest binary32. -/
def sqrt2W : Word := sqrt2Over 1
def invSqrt2W : Word := sqrt2Over 2
def cosT (h n : Nat) : Word := ofFix96 (cosSin h n).1
def invSinT (h n : Nat) : Word :=
  let s := (cosSin h n).2
  if s = 0 then infWord false else round (decide (s < 0)) (2 ^ 240 / s.natAbs) (-144) true

end Sys2Proof.Machine.F32
end

