-- ==== Sys2Proof/Machine/PorlonMem.lean ====
section
/-! DEFINITION. Loads and stores, the Espalier window, verdict access, tick control and the accelerators of an element core
(R172 to R174, R221 to R228, R243 to R250). -/

namespace Sys2Proof.Machine

/-! ### Addresses (R221, R224) -/

/-- Where a PE data address lies in the model's memory; none raises ACCESS (R221). -/
def peAddr (n j a : Nat) : Option Nat :=
  if a < 0x20000 then some (ecDataBase n + a)
  else if 0x20000 + 0x2800 * j ≤ a ∧ a < 0x20000 + 0x2800 * (j + 1) then some (ecElemBase n + (a - 0x20000))
  else if 0x27800 ≤ a ∧ a < 0x28000 then some (ecElemBase n + (a - 0x20000))
  else none

/-- ea = s[ra] + sext(imm12) (R222). -/
def effAddr (f : RegFile) (ra : Nat) (imm : BitVec 12) : Nat := (f.gs ra + sext12 imm).toNat

/-- The running section's local bay, 0 where nothing runs. -/
def runBay (s : State) (n : Nat) : Nat := match (s.core n).run with | some x => x.bay | none => 0

/-! ### ld.w, st.w, ld.c, st.c -/

/-- A word from the scheme cores' map (R224): SC SRAM, or a register through Hedgerow under R29; an uncorrectable SRAM word is a
lockstep mismatch (R272). -/
def slLoad (s : State) (a pc : Nat) : Option Word × State :=
  if a % 4 ≠ 0 then (none, s)
  else if a < 0x80000 then
    (some (s.rdW (scBase + a)), (scRead s (scBase + a) pc).1)
  else if 0x40000000 ≤ a ∧ a < 0x44000000 then
    let p := busRead s .sc (a - 0x40000000)
    (some (BitVec.ofNat 32 p.1), p.2)
  else (none, s)

/-- ld.w: s[rd] = the word at ea (R221, R222, R224). -/
def execLdW (k : CoreSel) (g : Guard) (rd ra : SReg) (imm : BitVec 12) (last : Bool) (s : State) :
    Host.Outcome State Fault Refusal :=
  .next (sylF (.ldW k g rd ra imm last) s k g last fun f =>
    let a := effAddr f ra.val imm
    match k with
    | .pe n =>
      match peAddr n.val (runBay s n.val) a with
      | some m => if a % 4 ≠ 0 then (.error excAccess, s) else
          (.ok [.setS rd.val (s.rdW m)], (ecRead s n.val m).1)
      | none => (.error excAccess, s)
    | .sl =>
      match slLoad s a f.pc with
      | (some v, s1) => (.ok [.setS rd.val v], s1)
      | (none, s1) => (.error excAccess, s1))

/-- st.w: writes s[rd] to ea; a store to the register window raises ACCESS (R222, R224). -/
def execStW (k : CoreSel) (g : Guard) (rd ra : SReg) (imm : BitVec 12) (last : Bool) (s : State) :
    Host.Outcome State Fault Refusal :=
  .next (syl (.stW k g rd ra imm last) s k g last fun f =>
    let a := effAddr f ra.val imm
    if a % 4 ≠ 0 then .error excAccess
    else
      match k with
      | .pe n => match peAddr n.val (runBay s n.val) a with
        | some m => .ok [.store m (f.gs rd.val)]
        | none => .error excAccess
      | .sl => if a < 0x80000 then .ok [.store (scBase + a) (f.gs rd.val)] else .error excAccess)

/-- ld.c: the real part at the lower address, 8-byte aligned (R221). -/
def execLdC (n : Fin 8) (g : Guard) (cd : CReg) (ra : SReg) (imm : BitVec 12) (last : Bool) (s : State) :
    Host.Outcome State Fault Refusal :=
  .next (sylF (.ldC n g cd ra imm last) s (.pe n) g last fun f =>
    let a := effAddr f ra.val imm
    match peAddr n.val (runBay s n.val) a with
    | some m => if a % 8 ≠ 0 then (.error excAccess, s) else
        (.ok [.setC cd.val (s.rdW m, s.rdW (m + 4))], (ecReads s n.val [m, m + 4]).1)
    | none => (.error excAccess, s))

/-- st.c (R222). -/
def execStC (n : Fin 8) (g : Guard) (cd : CReg) (ra : SReg) (imm : BitVec 12) (last : Bool) (s : State) :
    Host.Outcome State Fault Refusal :=
  .next (syl (.stC n g cd ra imm last) s (.pe n) g last fun f =>
    let a := effAddr f ra.val imm
    if a % 8 ≠ 0 then .error excAccess
    else match peAddr n.val (runBay s n.val) a with
      | some m => .ok [.store m (f.gc cd.val).1, .store (m + 4) (f.gc cd.val).2]
      | none => .error excAccess)

/-! ### The Espalier window (R173, R223) -/

/-- The context of tick `t` in core `n`. -/
def ctxAt (s : State) (n t : Nat) : Option Ctx := (s.core n).ctxs.find? fun x => x.tick == t

/-- Has the slot of tick `t` of FTG `g` been reused by a later instant (R173)? -/
def slotReused (s : State) (g t : Nat) : Bool := decide (512 < ((mget s.esp.ftg g {}).next + tickMod - t) % tickMod)

def valAddr (m slot : Nat) : Nat := espValBase + 4 * (512 * m + slot)
def flagAddr (m slot : Nat) : Nat := espFlagBase + 512 * m + slot

/-- The value and flag byte the window delivers for local channel `ch` at an age (R173): a reused slot gives 0.0 with U and
I; a parity error adds I; a T sample gains I while the bay's mode is ON or BLOCKED. -/
def window (s : State) (n : Nat) (x : Section) (ch age : Nat) : (Word × Nat) × State :=
  let t := (x.tick + tickMod - age) % tickMod
  if slotReused s (ftgOf s n) t then ((0, 0x88), s)
  else
    let m := 24 * n + ch
    let va := valAddr m (t % 512)
    let fa := flagAddr m (t % 512)
    let pv := s.parBad.contains va
    let pf := s.parBad.contains fa
    let s1 := if pv then parityErr s (va - espValBase + 0x40000) else s
    let s2 := if pf then parityErr s1 (fa - espFlagBase + 0x20000) else s1
    let f0 := (memRd s.mem fa).toNat
    let mode := match ctxAt s n x.tick with | some c => mget c.mode x.bay 5 | none => 5
    let f1 := if pf then f0 ||| 0x88 else if pv then f0 ||| 8 else f0
    ((s.rdW va, if f0.testBit 1 && (mode == 1 || mode == 2) then f1 ||| 8 else f1), s2)

/-- ldg and ldgr once the channel and age are known: s[d] the value, s[d + 1] the flag byte. -/
def ldgRes (s : State) (n d ch age : Nat) : SylRes :=
  match (s.core n).run with
  | none => (.ok [], s)
  | some x =>
    let p := window s n x ch age
    (.ok [.setS d p.1.1, .setS ((d + 1) % 32) (BitVec.ofNat 32 p.1.2)], p.2)

/-- ldg: immediate channel and age (R223). -/
def execLdg (n : Fin 8) (g : Guard) (rd : SReg) (ch : Fin 24) (age : Fin 256) (last : Bool) (s : State) :
    Host.Outcome State Fault Refusal :=
  .next (sylF (.ldg n g rd ch age last) s (.pe n) g last fun _ => ldgRes s n.val rd.val ch.val age.val)

/-- ldgr: channel and age from registers; out of range raises ACCESS (R223, R236). -/
def execLdgr (n : Fin 8) (g : Guard) (rd ra rb : SReg) (last : Bool) (s : State) : Host.Outcome State Fault Refusal :=
  .next (sylF (.ldgr n g rd ra rb last) s (.pe n) g last fun f =>
    if 23 < (f.gs ra.val).toNat ∨ 255 < (f.gs rb.val).toNat then (.error excAccess, s)
    else ldgRes s n.val rd.val (f.gs ra.val).toNat (f.gs rb.val).toNat)

/-! ### Verdict access (R174, R225, R226) -/

/-- A verdict write of value `v` at an offset: value bits outside the write mask raise VWR. -/
def verdictRes (s : State) (n : Nat) (off : BitVec 12) (v : Word) (op : Word → Word → Word) : Except Nat (List Eff) :=
  match (s.core n).run with
  | none => .ok []
  | some x =>
    let wm := verdictMask off.toNat x.cls
    if v &&& ~~~wm ≠ 0 then .error excVwr
    else .ok [.verdict off.toNat (op (verWord s n x.bay off.toNat) wm)]

/-- vwr: rec = (rec & ~wm) | v. -/
def execVwr (n : Fin 8) (g : Guard) (rs : SReg) (off : BitVec 12) (last : Bool) (s : State) : Host.Outcome State Fault Refusal :=
  .next (syl (.vwr n g rs off last) s (.pe n) g last fun f => verdictRes s n.val off (f.gs rs.val) fun w wm => (w &&& ~~~wm) ||| f.gs rs.val)

/-- vset: rec = rec | v. -/
def execVset (n : Fin 8) (g : Guard) (rs : SReg) (off : BitVec 12) (last : Bool) (s : State) : Host.Outcome State Fault Refusal :=
  .next (syl (.vset n g rs off last) s (.pe n) g last fun f => verdictRes s n.val off (f.gs rs.val) fun w _ => w ||| f.gs rs.val)

/-- vclr: rec = rec & ~v. -/
def execVclr (n : Fin 8) (g : Guard) (rs : SReg) (off : BitVec 12) (last : Bool) (s : State) : Host.Outcome State Fault Refusal :=
  .next (syl (.vclr n g rs off last) s (.pe n) g last fun f => verdictRes s n.val off (f.gs rs.val) fun w _ => w &&& ~~~(f.gs rs.val))

/-- vrd: the current word of the section's verdict record; offset 0x0C is the status word (R174, R226). -/
def execVrd (n : Fin 8) (g : Guard) (rd : SReg) (off : BitVec 12) (last : Bool) (s : State) : Host.Outcome State Fault Refusal :=
  .next (syl (.vrd n g rd off last) s (.pe n) g last fun _ =>
    let j := runBay s n.val
    .ok [.setS rd.val (if off.toNat = 12 then statusWord s n.val j else verWord s n.val j off.toNat)])

/-! ### Tick control (R227) -/

/-- tick.end: ends the section once its bundle has executed whole (R209, R227). -/
def execTickEnd (n : Fin 8) (g : Guard) (last : Bool) (s : State) : Host.Outcome State Fault Refusal :=
  .next (syl (.tickEnd n g last) s (.pe n) g last fun _ => .ok [.tickEnd])

/-- Grid frequency of a frequency word, µHz (R158). -/
def fwordHz (w : Nat) : Nat := w % 2 ^ 27

/-- SGBASE of a section (R227). -/
def sgBaseOf (s : State) (n : Nat) (x : Section) : Nat :=
  let g := match ctxAt s n x.tick with | some c => mget c.sg x.bay 0 | none => 0
  mget s.img.sgBase (24 * n + 8 * x.bay + g) 0

/-- TTICK = 1 / (N × f_g) of a context in binary32 s; +infinity for a frequency word of 0. -/
def ttick (c : Ctx) : Word :=
  if c.n * fwordHz c.fword = 0 then F32.infWord false else F32.ofRat 1000000 (c.n * fwordHz c.fword)

/-- The item an rdsr number names (R227), CYCLE apart. -/
def rdsrItem (s : State) (n : Nat) (x : Section) (c : Ctx) (k : Nat) : Word :=
  match k with
  | 1 => BitVec.ofNat 32 c.lag
  | 2 => BitVec.ofNat 32 c.tick
  | 3 => BitVec.ofNat 32 x.bay
  | 4 => BitVec.ofNat 32 (mget c.sg x.bay 0)
  | 5 => BitVec.ofNat 32 (mget c.mode x.bay 5)
  | 6 => F32.ofRat (fwordHz c.fword) 1000000
  | 7 => ttick c
  | 8 => BitVec.ofNat 32 (sgBaseOf s n x)
  | 9 => BitVec.ofNat 32 x.cls
  | 10 => BitVec.ofNat 32 c.fword
  | 11 => BitVec.ofNat 32 (c.stamp % 2 ^ 32)
  | _ => BitVec.ofNat 32 (c.stamp / 2 ^ 32)

/-- rdsr: an item of the tick context or the section; CYCLE is the issue cycle of the bundle, counted from the section's first. -/
def execRdsr (n : Fin 8) (g : Guard) (rd : SReg) (item : Fin 13) (last : Bool) (s : State) : Host.Outcome State Fault Refusal :=
  .next (sylF (.rdsr n g rd item last) s (.pe n) g last fun _ =>
    match (s.core n.val).run with
    | none => (.ok [], s)
    | some x =>
      if item.val = 0 then (.ok [.cycle rd.val], s)
      else (.ok [.setS rd.val (rdsrItem s n.val x ((ctxAt s n.val x.tick).getD { tick := x.tick }) item.val)], s))

/-! ### Phasor unit (R243, R244) -/

def phOf (s : State) (n : Nat) : Phasor := mget s.ph n {}

/-- The result store's phasor of channel `ch`, harmonic `h` at tick `t`, where it has an entry. -/
def phGet (p : Phasor) (ch h t : Nat) : Option F32.Cx :=
  if p.storeTick.any (fun e => e.1 == 512 * (t % 8) + 16 * ch && e.2 == t) then some (mget p.store (512 * (t % 8) + 16 * ch + h) (0, 0))
  else none

/-- The window flags of a channel at tick `t` under filter `cos`; U where there is no entry (R244, R245). -/
def phFlags (p : Phasor) (ch t : Nat) (cos : Bool) : Nat :=
  if p.storeTick.any (fun e => e.1 == 512 * (t % 8) + 16 * ch && e.2 == t) then
    let w := mget p.win (512 * (t % 8) + 16 * ch) (0x80, 0x80)
    if cos then w.2 else w.1
  else 0x80

/-- w(k) of R241 for harmonic `h` at tick index `k`, N samples. -/
def phTw (nn h k : Nat) : F32.Cx := F32.twiddle nn (h * (k % nn) % nn)

/-- R243: the cosine-filter phasor from the DFT phasors of ticks i and i − 1. -/
def cosFilter (nn h t : Nat) (xi xp : F32.Cx) : F32.Cx :=
  let w := phTw nn h t
  let wp := phTw nn h (t + nn * 2 ^ 32 - 1)
  let c0 := F32.mul F32.sqrt2W (F32.add (F32.mul xi.1 w.1) (F32.mul xi.2 w.2))
  let c1 := F32.mul F32.sqrt2W (F32.add (F32.mul xp.1 wp.1) (F32.mul xp.2 wp.2))
  let sn := F32.mul (F32.sub c1 (F32.mul c0 (F32.cosT h nn))) (F32.invSinT h nn)
  F32.cmul (F32.mul c0 F32.invSqrt2W, F32.mul sn F32.invSqrt2W) w

/-- Four window flags in one word, the lowest channel in bits [7:0] (R244). -/
def flagQuad (p : Phasor) (ch t : Nat) (cos : Bool) : Word :=
  BitVec.ofNat 32 (phFlags p ch t cos + phFlags p (ch + 1) t cos * 2 ^ 8 + phFlags p (ch + 2) t cos * 2 ^ 16
    + phFlags p (ch + 3) t cos * 2 ^ 24)

/-- What ph.rd returns (R244). -/
def phRead (s : State) (n t ch h : Nat) (cos : Bool) : F32.Cx :=
  let p := phOf s n
  let nn := ftgN s (ftgOf s n)
  if ch < 24 then
    match phGet p ch h t with
    | none => (0, 0)
    | some xi => if cos then cosFilter nn h t xi ((phGet p ch h ((t + tickMod - 1) % tickMod)).getD (0, 0)) else xi
  else if ch < 27 then (flagQuad p (8 * (ch - 24)) t cos, flagQuad p (8 * (ch - 24) + 4) t cos)
  else (0, 0)

/-- ph.rd (R228, R244). -/
def execPhRd (n : Fin 8) (g : Guard) (cd : CReg) (ch : Fin 32) (h : Fin 16) (cos : Bool) (last : Bool) (s : State) :
    Host.Outcome State Fault Refusal :=
  .next (syl (.phRd n g cd ch h cos last) s (.pe n) g last fun _ =>
    match (s.core n.val).run with
    | none => .ok []
    | some x => .ok [.setC cd.val (phRead s n.val x.tick ch.val h.val cos)])

/-! ### Curve unit (R248 to R251) -/

/-- 1.0 in the accumulator's fixed point. -/
def doseOne : Nat := 2 ^ 46

/-- The accumulator of instance `i` of local bay `j`, limited under R248. -/
def doseGet (s : State) (n j i : Nat) : Nat := min doseOne (leNat (s.rdMem (doseAddr n j i) 8) % 2 ^ 48)

def clampDose (i : Int) : Nat := min doseOne i.toNat

/-- The word at offset `o` of the parameter block of instance `i` (R249). -/
def curveParam (s : State) (n : Nat) (x : Section) (i o : Nat) : Word :=
  s.rdW (ecDataBase n + sgBaseOf s n x + 32 * i + o)

/-- The words of an accumulator, and of an instance's parameter block with the bay's SGBASE (R248, R249). -/
def doseWords (n j i : Nat) : List Nat := [doseAddr n j i, doseAddr n j i + 4]
def paramWords (s : State) (n : Nat) (x : Section) (i : Nat) : List Nat :=
  (List.range 8).map fun k => ecDataBase n + sgBaseOf s n x + 32 * i + 4 * k

/-- cv.step's next accumulator (R250); `d` is the curve unit's own error in units in the last place of the dose. -/
def cvStep (s : State) (n : Nat) (x : Section) (i : Nat) (gm : Word) (d : Int) : Nat :=
  let acc := doseGet s n x.bay i
  let w0 := (curveParam s n x i 0).toNat
  let kind := w0 / 2 ^ 28
  let rmode := w0 / 2 ^ 26 % 4
  let tab := mget s.img.curves (16 * n + w0 % 16) []
  let kk := curveParam s n x i 4
  let tms := curveParam s n x i 0x10
  let t := match ctxAt s n x.tick with | some c => ttick c | none => F32.infWord false
  let off := kind == 0 || decide (3 < kind) || (kind == 3 && tab.isEmpty)
  let one := 0x3F800000#32
  if F32.isNaN gm || F32.lt gm 0#32 || off then acc
  else if F32.le (curveParam s n x i 0x18) gm && !(kind == 3 && F32.lt gm (tab.headD (0, 0)).1) then
    let g := F32.min gm (curveParam s n x i 0x1C)
    let dose := if kind = 1 then F32.doseInverse t g tms kk (curveParam s n x i 8) (curveParam s n x i 12) d
      else if kind = 2 then F32.div t kk
      else F32.doseTable t g tab d
    if F32.isNaN dose then acc else clampDose (acc + F32.fix46 dose)
  else
    let tr := curveParam s n x i 0x14
    let r := if rmode = 1 then F32.div t tr
      else if rmode = 2 ∧ F32.lt gm one then F32.div (F32.mul t (F32.sub one (F32.mul gm gm))) (F32.mul tms tr)
      else F32.nan
    if rmode = 0 then 0
    else if F32.isNaN r then acc else clampDose (acc - F32.fix46 r)

/-- cv.step (R250): the accumulator after the step is written back and delivered. The accumulator and the parameter block are read
through ECC (R172). -/
def execCvStep (n : Fin 8) (g : Guard) (rd ra : SReg) (i : Fin 32) (last : Bool) (s : State) :
    Host.Outcome State Fault Refusal :=
  .next (sylF (.cvStep n g rd ra i last) s (.pe n) g last fun f =>
    match (s.core n.val).run with
    | none => (.ok [], s)
    | some x =>
      let q := ecReads s n.val (doseWords n.val x.bay i.val ++ paramWords s n.val x i.val)
      let p := q.1.fresh 8
      let a := cvStep s n.val x i.val (f.gs ra.val) ((p.1.toNat % 33 : Nat) - (16 : Int))
      (.ok [.dose i.val a, .setS rd.val (F32.ofDose a)], p.2))

/-- cv.rd: the accumulator rounded to binary32 (R250). -/
def execCvRd (n : Fin 8) (g : Guard) (rd : SReg) (i : Fin 32) (last : Bool) (s : State) : Host.Outcome State Fault Refusal :=
  .next (sylF (.cvRd n g rd i last) s (.pe n) g last fun _ =>
    (.ok [.setS rd.val (F32.ofDose (doseGet s n.val (runBay s n.val) i.val))], (ecReads s n.val (doseWords n.val (runBay s n.val) i.val)).1))

/-- cv.clr (R228). -/
def execCvClr (n : Fin 8) (g : Guard) (i : Fin 32) (last : Bool) (s : State) : Host.Outcome State Fault Refusal :=
  .next (syl (.cvClr n g i last) s (.pe n) g last fun _ => .ok [.dose i.val 0])

/-- cv.set: s[ra] clamped to [0.0, 1.0]; a NaN gives 0 (R250). -/
def execCvSet (n : Fin 8) (g : Guard) (i : Fin 32) (ra : SReg) (last : Bool) (s : State) : Host.Outcome State Fault Refusal :=
  .next (syl (.cvSet n g i ra last) s (.pe n) g last fun f =>
    .ok [.dose i.val (if F32.isNaN (f.gs ra.val) then 0 else clampDose (F32.fix46 (f.gs ra.val)))])

/-! ### Sequence and power unit (R246, R247) -/

/-- a = (−0.5, 0.8660254) and 1/3 of R246. -/
def seqA : F32.Cx := (0xBF000000#32, 0x3F5DB3D7#32)
def third : Word := 0x3EAAAAAB#32

/-- R246: zero, positive and negative sequence of three phases. -/
def seqOf (a b c : F32.Cx) : F32.Cx × F32.Cx × F32.Cx :=
  let a2 := F32.cmul seqA seqA
  let z := F32.cscale (F32.cadd (F32.cadd a b) c) third
  let p := F32.cscale (F32.cadd (F32.cadd a (F32.cmul seqA b)) (F32.cmul a2 c)) third
  let n := F32.cscale (F32.cadd (F32.cadd a (F32.cmul a2 b)) (F32.cmul seqA c)) third
  (z, p, n)

/-- sq.seq: cd, cd + 1, cd + 2 (R246). -/
def execSqSeq (n : Fin 8) (g : Guard) (cd ca : CReg) (last : Bool) (s : State) : Host.Outcome State Fault Refusal :=
  .next (syl (.sqSeq n g cd ca last) s (.pe n) g last fun f =>
    let r := seqOf (f.gc ca.val) (f.gc ((ca.val + 1) % 16)) (f.gc ((ca.val + 2) % 16))
    .ok [.setC cd.val r.1, .setC ((cd.val + 1) % 16) r.2.1, .setC ((cd.val + 2) % 16) r.2.2])

/-- sq.pwr: three-phase complex power, summed in phase order (R247). -/
def execSqPwr (n : Fin 8) (g : Guard) (cd ca cb : CReg) (last : Bool) (s : State) : Host.Outcome State Fault Refusal :=
  .next (syl (.sqPwr n g cd ca cb last) s (.pe n) g last fun f =>
    let q (i : Nat) := F32.cmulc (f.gc ((ca.val + i) % 16)) (f.gc ((cb.val + i) % 16))
    .ok [.setC cd.val (F32.cadd (F32.cadd (q 0) (q 1)) (q 2))])

/-- sq.pwr1: single-phase complex power (R247). -/
def execSqPwr1 (n : Fin 8) (g : Guard) (cd ca cb : CReg) (last : Bool) (s : State) : Host.Outcome State Fault Refusal :=
  .next (sylCx (.sqPwr1 n g cd ca cb last) s n g cd ca cb last F32.cmulc)

end Sys2Proof.Machine
end

