-- ==== Sys2Proof/Machine/Grid.lean ====
section
/-! DEFINITION. Espalier's store and the waiting set (R146 to R148, R153 to R165): instants and their placement, writes of
resamplers, deadlines. -/

namespace Sys2Proof.Machine

/-! ### FTGs and their channels -/

def espFtg (s : State) (g : Nat) : Ftg := mget s.esp.ftg g {}
def setFtg (s : State) (g : Nat) (f : Ftg) : State := { s with esp := { s.esp with ftg := mput s.esp.ftg g f } }
def modFtg (s : State) (g : Nat) (k : Ftg → Ftg) : State := setFtg s g (k (espFtg s g))

/-- Is FTG `g` enabled: is a used core group assigned to it (R146)? -/
def ftgOn (s : State) (g : Nat) : Bool := !(groupsOf s g).isEmpty

/-- ESP_STAT.FTG_EN shows which FTGs are enabled (R146). -/
def showFtgs (s : State) : State := s.wr R.ESP_STAT_FTG_EN (bitmap 4 (ftgOn s))

/-! ### SV channels (R122, R162) -/

/-- Does channel `m` take input from an enabled subscription's quantity (R122)? -/
def svMapped (s : State) (m : Nat) : Bool :=
  s.on (R.SVI_MAPm_EN m) && s.on (R.SVI_SUBs_CFG_EN (svSub s m))
    && decide (s.rd (R.SVI_MAPm_QTY m) < s.rd (R.SVI_SUBs_CFG_NQTY (svSub s m)))

/-- Is the subscription of channel `m` VALID or RECOVERING (R100, R162)? -/
def svTracked (s : State) (m : Nat) : Bool :=
  svMapped s m && (s.rd (R.SVI_SUBs_STAT_STATE (svSub s m)) == 2 || s.rd (R.SVI_SUBs_STAT_STATE (svSub s m)) == 4)

/-- T_in of an SV channel, as numerator and denominator in units of 2^−32 ns. -/
def svTin (s : State) (m : Nat) : Nat × Nat := (1000000000 * nsU, svSubRate s (svSub s m))

/-- Whole input periods from one instant to another, rounded down. -/
def periods (fr till : Nat) (tin : Nat × Nat) : Int := (((till : Int) - fr) * tin.2) / (tin.1 : Int)

/-! ### The waiting set (R162) -/

/-- Does channel `m` belong to the waiting set of an instant: it runs, and could still write the instant's sample when it last
started (R112, R162)? -/
def waits (s : State) (m : Nat) (i : Inst) : Bool :=
  rsRun s m && !i.absent.contains m && (isLocal s m || svTracked s m)

/-- Is the waiting set of an instant complete? -/
def complete (s : State) (g : Nat) (i : Inst) : Bool := (chsOf s g).all fun m => !waits s m i || i.written.contains m

/-- The oldest instant that has not closed: ticks close in order (R166). -/
def oldestOpen (f : Ftg) : Option Inst := f.insts.reverse.find? fun i => !i.done

/-! ### The planes (R158, R161) -/

/-- A word of the planes is written, with its parity. -/
def espPut (s : State) (a : Nat) (l : List Byte) : State :=
  let s1 := s.wrMem a l
  { s1 with parBad := s1.parBad.filter fun x => !(decide (a ≤ x) && decide (x < a + l.length)) }

/-- A value and flag byte of channel `m` into a slot. -/
def espStore (s : State) (m slot : Nat) (v : Word) (fl : Nat) : State :=
  espPut (espPut s (valAddr m slot) (leBytes 4 v.toNat)) (flagAddr m slot) [BitVec.ofNat 8 fl]

/-- A reader's word of the value plane and flag byte, with R161 applied to a parity error. -/
def espRead (s : State) (m slot : Nat) : (Word × Nat) × State :=
  let va := valAddr m slot
  let fa := flagAddr m slot
  let pv := s.parBad.contains va
  let pf := s.parBad.contains fa
  let s1 := if pv then parityErr s (va - espValBase + 0x40000) else s
  let s2 := if pf then parityErr s1 (fa - espFlagBase + 0x20000) else s1
  let f0 := (memRd s.mem fa).toNat
  ((s.rdW va, if pf then f0 ||| 0x88 else if pv then f0 ||| 8 else f0), s2)

/-! ### Phasor units (R240 to R245) -/

/-- One term of a recursion or a fresh sum: fma with w of R241. -/
def phTerm (e : Word) (w x : F32.Cx) : F32.Cx := (F32.fma e w.1 x.1, F32.fma e w.2 x.2)

/-- The unit's step for harmonic `h` of channel `c` (R241, R242): `last` the final tick of the cycle, `fresh` a 64th complete one. -/
def phHarm (nn t c : Nat) (e e0 : Word) (fresh : Bool) (p : Phasor) (h : Nat) : Phasor :=
  let k := 16 * c + h
  let w := phTw nn h t
  let f0 := if t % nn = 0 then (0, 0) else mget p.f k (0, 0)
  let f := phTerm e0 w f0
  let x := if fresh then f else phTerm e w (mget p.x k (0, 0))
  { p with x := mput p.x k x, f := mput p.f k f, store := mput p.store (512 * (t % 8) + k) x }

/-- OR of the flag bytes of the newest samples, U while fewer have entered since the restart (R245). -/
def phWindow (l : List (Nat × (Word × Nat))) (need count : Nat) : Nat :=
  (l.take need).foldl (fun a e => a ||| e.2.2) (if count < need then 0x80 else 0)

/-- A channel's sample for tick `t` enters the unit; x N ticks earlier is 0.0 if there is none since the restart (R241). -/
def phEnter (nn t c : Nat) (x : Word) (fl : Nat) (p : Phasor) : Phasor :=
  let l := (t, (x, fl)) :: mget p.hist c []
  let cnt := mget p.count c 0 + 1
  let xo := (mget l ((t + tickMod - nn) % tickMod) (0, 0)).1
  let e := F32.mul (F32.sub x xo) (F32.sqrt2Over nn)
  let e0 := F32.mul x (F32.sqrt2Over nn)
  let whole := t % nn == nn - 1 && decide (nn ≤ cnt)
  let cyc := mget p.cyc c 0 + (if whole then 1 else 0)
  let p1 := { p with hist := mput p.hist c (l.take (nn + 1)), count := mput p.count c cnt, cyc := mput p.cyc c cyc }
  let p2 := ((List.range 15).map (· + 1)).foldl (phHarm nn t c e e0 (whole && cyc % 64 == 0)) p1
  { p2 with storeTick := mput p2.storeTick (512 * (t % 8) + 16 * c) t,
            win := mput p2.win (512 * (t % 8) + 16 * c) (phWindow l nn cnt, phWindow l (nn + 1) cnt) }

/-- Channel `m` of its core's unit takes the sample that has been stored for an instant, read from its slot with R161 applied (R240). -/
def phStored (s : State) (m : Nat) (i : Inst) : State :=
  let r := espRead s m (i.tick % 512)
  { r.2 with ph := mmod r.2.ph (m / 24) {} (phEnter i.n i.tick (m % 24) r.1.1 r.1.2) }

/-! ### Writes of samples (R151, R165) -/

/-- Q on samples of an instant that carries LIMIT (R151). -/
def limitQ (i : Inst) : Nat := if i.fw.testBit 31 then 0x10 else 0

/-- Replaces the instant with the tick, cycle and time of `i`. -/
def setInst (f : Ftg) (i : Inst) : Ftg :=
  { f with insts := f.insts.map fun x => if x.tick = i.tick ∧ x.t = i.t then i else x }

/-- A resampler's write for an instant: stored while the tick is open, and taken by the phasor unit (R240); discarded and counted after
its close (R165). -/
def espWrite (s : State) (g m : Nat) (i : Inst) (v : Word) (fl : Nat) : State :=
  if i.written.contains m then s
  else
    let s1 := modFtg s g fun f => setInst f { i with written := m :: i.written }
    if i.done then s1.sat1 (R.ESP_FTGg_CNT_LATEWR g)
    else phStored (espStore s1 m (i.tick % 512) v (fl ||| limitQ i)) m i

/-! ### Placing instants (R152 to R155) -/

/-- f_nom in Hz, f_g limits in µHz. -/
def fnomHz (code : Nat) : Nat := if code = 0 then 50 else 60
def ftgFnom (s : State) (g : Nat) : Nat := fnomHz (fnomOf s g)
def ftgFixed (s : State) (g : Nat) : Bool := s.on (R.ESP_FTGg_STAT_MODEACT g)

/-- The cycle numbered `k` of FTG `g`. -/
def cycOf (s : State) (g k : Nat) : Cyc := mget (espFtg s g).cyc k { f := ftgFnom s g * 1000000, hold := true }

/-- f_g of cycle `k`, µHz: f_nom in fixed mode. -/
def cycF (s : State) (g k : Nat) : Nat := if ftgFixed s g then ftgFnom s g * 1000000 else (cycOf s g k).f

/-- T_g in units of 2^−32 ns, rounded to the nearest (R154). -/
def gridPeriod (n f : Nat) : Nat := (10 ^ 15 * nsU + n * f / 2) / (n * f)

/-- Lattice point j of a whole second, ns (R155). -/
def latticeAt (sec r : Nat) (j : Nat) : Nat := sec * 1000000000 + (2 * j * 1000000000 + r) / (2 * r)

/-- The first lattice point later than `t` (units of 2^−32 ns), r = N × f_nom points per second (R155). -/
def latticeAfter (t r : Nat) : Nat :=
  let ns := t / nsU
  let sec := ns / 1000000000
  let j := ns % 1000000000 * r / 1000000000
  (((List.range 4).map fun k => latticeAt sec r (j - 1 + k) * nsU).find? fun p => decide (t < p)).getD ((sec + 1) * 1000000000 * nsU)

/-- The frequency word of an instant in cycle `k` (R158). -/
def freqWord (s : State) (g k : Nat) (step : Bool) : Nat :=
  let c := cycOf s g k
  let b (x : Bool) (n : Nat) : Nat := if x then 2 ^ n else 0
  if ftgFixed s g then b true 28 + b step 27 + ftgFnom s g * 1000000 % 2 ^ 27
  else b c.limit 31 + b c.hold 30 + b c.fall 29 + b step 27 + c.f % 2 ^ 27

/-- The instant after one at `t` whose successor lies in cycle `k`. -/
def nextInstant (s : State) (g t k : Nat) : Nat :=
  let p := gridPeriod (ftgN s g) (cycF s g k)
  if ftgFixed s g then latticeAfter (t + p / 2) (ftgN s g * ftgFnom s g) else t + p

/-- Places the next instant of FTG `g`: slot, frequency word, LIMIT and STEP status (R151, R154, R156 to R158). -/
def placeInstant (s : State) (g : Nat) : State :=
  let f := espFtg s g
  let n := ftgN s g
  let i : Inst := { tick := f.next, t := f.nextT, fw := freqWord s g f.cycNo f.step, n := n, cyc := f.cycNo }
  let last := (f.next + 1) % n == 0
  let k := if last then f.cycNo + 1 else f.cycNo
  let s1 := setFtg s g { f with insts := (i :: f.insts).take 512, prev := some f.nextT, next := (f.next + 1) % tickMod,
                                nextT := nextInstant s g f.nextT k, cycNo := k, step := false }
  let lim := i.fw.testBit 31
  let s2 := s1.wrb (R.ESP_FTGg_STAT_LIMIT g) lim
  let s3 := if lim then s2.wrb (R.ESP_FTGg_STAT_LIMIT_STK g) true else s2
  if f.step then s3.wrb (R.ESP_FTGg_STAT_STEP_STK g) true else s3

/-- Is the next instant of FTG `g` due, and is it not the one at which an accepted configuration takes effect, which
FTG_CONFIG_EFFECT places (R148)? -/
def instantDue (s : State) (g : Nat) : Bool :=
  let f := espFtg s g
  ftgOn s g && f.started && s.pg 1 && decide (f.nextT ≤ actU s) && !(f.cfg.isSome && f.next % ftgN s g == 0)

/-- The instants of every FTG that active time has reached, at most one a NET cycle and FTG. -/
def placeAll (s : State) : State :=
  (List.range 4).foldl (fun a g => if instantDue a g then placeInstant a g else a) s

/-- FTG `g` starts at PD1 power-good (R152, R155). -/
def startFtg (s : State) (g : Nat) : State :=
  let s1 := (s.wr (R.ESP_FTGg_STAT_NACT g) (s.rd (R.ESP_FTGg_CFG_N g))).wrb (R.ESP_FTGg_STAT_MODEACT g) (s.on (R.ESP_FTGg_CFG_MODE g))
  let s2 := s1.wr (R.ESP_FTGg_STAT_STATE g) (if !ftgOn s g then 0 else if s.on (R.ESP_FTGg_CFG_MODE g) then 5 else 3)
  setFtg (showFtgs s2) g (if ftgOn s g then { started := true, fnom := fnomOf s g, nextT := latticeAfter (actU s2) (ftgN s2 g * ftgFnom s2 g) } else {})

/-- Restart of local resampler `m`: its history is zero and U follows (R104, R111). -/
def restartLocal (s : State) (m : Nat) : State :=
  rsEvent (modRs s m fun r => { r with hist := r.hist.map fun e => { e with v := 0 } }) m

/-- Restart of an SV resampler: earlier inputs are discarded (R105). -/
def restartSv (s : State) (m : Nat) : State := modRs s m fun r => { r with hist := [], skip := [] }

/-- Resampler `m` has started, and cannot write the sample of `i` any more: a local one whose release instant is not after now, an
SV one whose input n + h has already entered (R112). -/
def tooLate (s : State) (m : Nat) (i : Inst) : Bool :=
  if isLocal s m then decide (i.t + relDelay s (srcOf s m) m * nsU ≤ actU s)
  else (rsOf s m).top.any fun t => decide (periods t i.t (svTin s m) + (rsTapsWide s m / 2 : Nat) ≤ 0)

/-- The open ticks that channel `m` does not rejoin keep it as known absent (R112). -/
def markAbsent (s : State) (m : Nat) : State :=
  let mark (i : Inst) : Inst :=
    if !i.done && !i.written.contains m && !i.absent.contains m && tooLate s m i then { i with absent := m :: i.absent } else i
  modFtg s (ftgOfCh s m) fun f => { f with insts := f.insts.map mark }

def restartRs (s : State) (m : Nat) : State := if isLocal s m then restartLocal s m else restartSv s m

/-- A phase step of active time by `d` units of 2^−32 ns (R135, R157): instants, local resamplers; SV resamplers restart at the next
accepted sample. -/
def phaseStepFtg (s : State) (d : Int) (g : Nat) : State :=
  if !ftgOn s g || !(espFtg s g).started then s
  else
    let f := espFtg s g
    let moved (t : Nat) : Nat := ((t : Int) + d).toNat
    let nt := if ftgFixed s g then
        match f.prev with
        | some t => latticeAfter (moved t + gridPeriod (ftgN s g) (cycF s g f.cycNo) / 2) (ftgN s g * ftgFnom s g)
        | none => latticeAfter (actU s) (ftgN s g * ftgFnom s g)
      else moved f.nextT
    let s1 := setFtg s g { f with nextT := nt, prev := f.prev.map moved, step := true }
    ((chsOf s g).filter fun m => rsRun s m && isLocal s m).foldl restartLocal s1

/-- An immediate switch of the time domain: the first instant after it carries STEP (R156). -/
def switchStep (s : State) : State :=
  (List.range 4).foldl (fun a g => if ftgOn a g && (espFtg a g).started then modFtg a g fun f => { f with step := true } else a) s

end Sys2Proof.Machine
end

