-- ==== Sys2Proof/Machine/Dch.lean ====
section
/-! DEFINITION. Decimation chains and resamplers at work (R86 to R117, R546): fast-tap values, releases, sampled-value
inputs, coefficient loads, bank requests and cross-fades, restarts and stops. -/

namespace Sys2Proof.Machine

def setDch (s : State) (d : Dch) : State := { s with dch := d }
/-! ### Banks and fades (R106 to R110) -/

def rsPend (m : Nat) : Fld := R.DCH_RSm_STAT_PEND m
def rsPendBank (m : Nat) : Fld := R.DCH_RSm_STAT_PENDBANK m

/-- A stage stops fading at once (R110): the target bank becomes active, then a pending request's where it is kept; what has run of
the fade stays a U event (R103). -/
def settleStage (s : State) (n : Nat) (keepPend : Bool) (st : Nat) : State :=
  let c := chainOf s n
  let h := hbOf c st
  let s1 := match h.fade with | some f => s.wr (hbAct n st) f.bank | none => s
  let s2 := if keepPend && s1.on (hbPend n st) then s1.wr (hbAct n st) (s1.rd (hbPendBank n st)) else s1
  let s3 := ((s2.wrb (hbBusy n st) false).wrb (hbPend n st) false).wr (hbPendBank n st) 0
  let s4 := setChain s3 n (setHb c st { h with fade := none })
  match h.fade with | some f => if f.busy then chainFade s4 n f.at1 else s4 | none => s4

def settleChain (s : State) (n : Nat) : State := [1, 2, 3, 4, 5].foldl (fun a st => settleStage a n true st) s

def settleRs (s : State) (m : Nat) : State :=
  let s1 := match (rsOf s m).fade with | some f => s.wr (R.DCH_RSm_STAT_ACT m) f.bank | none => s
  let s2 := if s1.on (rsPend m) then s1.wr (R.DCH_RSm_STAT_ACT m) (s1.rd (rsPendBank m)) else s1
  let s3 := ((s2.wrb (R.DCH_RSm_STAT_FADE_BUSY m) false).wrb (rsPend m) false).wr (rsPendBank m) 0
  let s4 := modRs s3 m fun r => { r with fade := none }
  match (rsOf s m).fade with | some f => if f.busy && isLocal s m then rsFade s4 m f.at1 else s4 | none => s4

def bankNo (b : Bool) : Nat := if b then 1 else 0

/-- BANK_REQUEST for a half-band stage (R107 to R109); at the instant of an SRST it switches at once (R110). -/
def requestHb (s : State) (n st b : Nat) : State :=
  let h := hbOf (chainOf s n) st
  if st = 0 ∨ nhbOf s n + 1 < st ∨ hbLoaded s n st b = false then s.wrb (R.DCH_CHn_STAT_BREQ_REFUSED n) true
  else if !s.on (R.DCH_CHn_CTL_RUN n) || (chainOf s n).srstAt == some (tb2U s) then s.wr (hbAct n st) b
  else if h.fade.isSome || s.on (hbPend n st) then (s.wrb (hbPend n st) true).wr (hbPendBank n st) b
  else if s.rd (hbAct n st) = b then s
  else setChain s n (setHb (chainOf s n) st { h with fade := some { bank := b } })

/-- BANK_REQUEST for a resampler. -/
def requestRs (s : State) (m b : Nat) : State :=
  if !rsLoaded s m b then s.wrb (R.DCH_RSm_STAT_BREQ_REFUSED m) true
  else if !rsRun s m || (rsOf s m).srstAt == some (tb2U s) then s.wr (R.DCH_RSm_STAT_ACT m) b
  else if (rsOf s m).fade.isSome || s.on (rsPend m) then (s.wrb (rsPend m) true).wr (rsPendBank m) b
  else if s.rd (R.DCH_RSm_STAT_ACT m) = b then s
  else modRs s m fun r => { r with fade := some { bank := b } }

/-- BANK_REQUEST: a write of DCH_CHn_BREQ or DCH_RSm_BREQ (R107 to R109). -/
def execBankRequest (t : BankSel) (b : Bool) (s : State) : Host.Outcome State Fault Refusal :=
  .next (match t with
    | .hb n st => requestHb s n st (bankNo b)
    | .rs m => requestRs s m (bankNo b))

/-- Output 1 of a stage's fade is at hand: an accepted request's, or a pending one's after a fade has ended (R108, R109). DESIGN
CHOICE (unsafe; assumption 120): F is taken from FADE here, and holds for the whole fade. -/
def startHb (s : State) (n st : Nat) : State :=
  let h := hbOf (chainOf s n) st
  let len := s.rd (R.DCH_CHn_CFG_FADE n) + 1
  match h.fade with
  | some f =>
    if f.busy then s
    else (setChain s n (setHb (chainOf s n) st { h with fade := some { f with j := 0, len := len, busy := true, at1 := tb2U s } })).wrb (hbBusy n st) true
  | none =>
    if !s.on (hbPend n st) then s
    else
      let b := s.rd (hbPendBank n st)
      let s1 := (s.wrb (hbPend n st) false).wr (hbPendBank n st) 0
      if b = s.rd (hbAct n st) then s1
      else (setChain s1 n (setHb (chainOf s n) st { h with fade := some { bank := b, j := 0, len := len, busy := true, at1 := tb2U s } })).wrb (hbBusy n st) true

def startRs (s : State) (m : Nat) : State :=
  let len := s.rd (R.DCH_RSm_CFG_FADE m) + 1
  match (rsOf s m).fade with
  | some f =>
    if f.busy then s
    else (modRs s m fun r => { r with fade := some { f with j := 0, len := len, busy := true, at1 := tb2U s } }).wrb (R.DCH_RSm_STAT_FADE_BUSY m) true
  | none =>
    if !s.on (rsPend m) then s
    else
      let b := s.rd (rsPendBank m)
      let s1 := (s.wrb (rsPend m) false).wr (rsPendBank m) 0
      if b = s.rd (R.DCH_RSm_STAT_ACT m) then s1
      else (modRs s1 m fun r => { r with fade := some { bank := b, j := 0, len := len, busy := true, at1 := tb2U s } }).wrb (R.DCH_RSm_STAT_FADE_BUSY m) true

/-- FADE_START: the first output of a cross-fade is at hand (R108). -/
def execFadeStart (t : BankSel) (s : State) : Host.Outcome State Fault Refusal :=
  .next (match t with
    | .hb n st => startHb s n st
    | .rs m => startRs s m)

/-- After output F the target bank is active (R108); a pending request for the bank that is now active ends there (R109). -/
def finishHb (s : State) (n st : Nat) : State :=
  let h := hbOf (chainOf s n) st
  match h.fade with
  | some f =>
    if f.busy && decide (f.len ≤ f.j) then
      let s1 := ((setChain s n (setHb (chainOf s n) st { h with fade := none })).wr (hbAct n st) f.bank).wrb (hbBusy n st) false
      let s2 := if s1.on (hbPend n st) && s1.rd (hbPendBank n st) == f.bank then
        (s1.wrb (hbPend n st) false).wr (hbPendBank n st) 0 else s1
      chainFade s2 n f.at1
    else s
  | none => s

def finishRs (s : State) (m : Nat) : State :=
  match (rsOf s m).fade with
  | some f =>
    if f.busy && decide (f.len ≤ f.j) then
      let s1 := ((modRs s m fun r => { r with fade := none }).wr (R.DCH_RSm_STAT_ACT m) f.bank).wrb (R.DCH_RSm_STAT_FADE_BUSY m) false
      let s2 := if s1.on (rsPend m) && s1.rd (rsPendBank m) == f.bank then (s1.wrb (rsPend m) false).wr (rsPendBank m) 0 else s1
      if isLocal s m then rsFade s2 m f.at1 else s2
    else s
  | none => s

/-- FADE_END: output F of a cross-fade has been made (R108, R109). -/
def execFadeEnd (t : BankSel) (s : State) : Host.Outcome State Fault Refusal :=
  .next (match t with
    | .hb n st => finishHb s n st
    | .rs m => finishRs s m)

/-! ### Flags of a window (R103, R104) -/

/-- The letters of modulator `m` over the `span` ns before TB2 instant `hi`. -/
def tagFlags (s : State) (m hi span : Nat) : Nat :=
  (if tagInWindow s m 0 hi span then 0x80 else 0) + (if tagInWindow s m 1 hi span then 0x40 else 0)
    + (if tagInWindow s m 2 hi span then 0x20 else 0) + (if tagInWindow s m 3 hi span then 0x08 else 0)

def orU (fl : Nat) (u : Bool) : Nat := if u then fl ||| 0x80 else fl

/-- The settle span of CIC and HB1, ns. -/
def tapSpan (s : State) (n : Nat) : Nat := tmNs (lpmAct s) * (128 + 32 * tapsWide s n 1)

/-- The flags of a fast-tap value of input `n` completed now. DEDUCED (unsafe; assumption 177): every fade and restart of the chain marks it with
U, those of HB2 to HB5 too, and none of the resampler. -/
def tapFlags (s : State) (n : Nat) : Nat :=
  orU (tagFlags s n (tb2U s) (tapSpan s n)) (eventInWindow s (100 + n) (tb2U s) (tapSpan s n) || chainFading s n (tb2U s))

/-! ### Fast-tap values (R67, R73, R86 to R91) -/

/-- A pair of a dwell: primary code and checker code of the same instant; bit tags of either in its window make the dwell void
(R73, R74). -/
def dwellPair (s : State) (n : Nat) (p c : Int) : State :=
  let k := n / 12
  let d := ckOf s k
  if d.phase ≠ 2 ∨ d.pos ≠ n % 12 ∨ dwellPairs s k ≤ d.m then s
  else
    let bad := tagFlags s n (tb2U s) (tapSpan s n) != 0 || tagFlags s (48 + k) (tb2U s) (tapSpan s n) != 0
    setCk s k { d with void := d.void || bad, sd := d.sd + (p - c).natAbs, sr := d.sr + p.natAbs, m := d.m + 1 }

/-- A resampler takes an input of a local source, at the physical instant of R87. -/
def pushLocal (s : State) (n m : Nat) (x : Int) : State :=
  modRs s m fun r =>
    let e : RsIn := { idx := r.idx, t := actU s - dUp s n * nsU, v := F32.ofInt x, i := x }
    { r with hist := (e :: r.hist).take 40, idx := r.idx + 1 }

/-- The decimation counters of HB`st` to HB5, stages that take no input, run on: one more input each where the stage before
completes an output (R87; DEDUCED, assumption 121). -/
def runCounters : (fuel st : Nat) → Chain → Chain
  | 0, _, c => c
  | fuel + 1, st, c =>
    let h := hbOf c st
    let c1 := setHb c st { h with odd := !h.odd }
    if h.odd then runCounters fuel (st + 1) c1 else c1

/-- One input enters stage `st` of chain `n`: before an output, a fade that has made output F ends and one that waits starts
(R108, R109). -/
def stageIn (s : State) (n st : Nat) (x : Int) : State × Option (Int × Bool) :=
  let s0 := if (hbOf (chainOf s n) st).odd then startHb (finishHb s n st) n st else s
  let r := hbStep s0 n st (hbOf (chainOf s0 n) st) x
  (setChain s0 n (setHb (chainOf s0 n) st r.1), r.2)

/-- A value goes on through HB2 to HB(1+NHB), `st` the next stage; the last stage feeds the resampler (R86). -/
def restOfChain (fuel : Nat) (s : State) (n st : Nat) (x : Int) : State :=
  match fuel with
  | 0 => s
  | fuel + 1 =>
    if nhbOf s n + 1 < st then
      let s1 := setChain s n (runCounters (6 - st) st (chainOf s n))
      match rsOfInput s1 n with
      | some m => if rsRun s1 m then pushLocal s1 n m x else s1
      | none => s1
    else
      let r := stageIn s n st x
      match r.2 with
      | some y => restOfChain fuel (countSat r.1 n y.2) n (st + 1) y.1
      | none => r.1

/-- A fast-tap value of input `n` (R67, R91). -/
def fastTap (s : State) (n : Nat) (x : Int) (c : Int) : State :=
  let fl := tapFlags s n
  let s0 := openWindow s n
  let s1 := setAfe s0 { s0.afe with acc := mmod s0.afe.acc n {} fun a => accumulate a x (fl.testBit 7) (fl.testBit 6) (fl.testBit 5) }
  let s2 := setDch s1 { s1.dch with tap := mput s1.dch.tap n (x, fl) }
  restOfChain 6 (dwellPair s2 n x c) n 2 x

/-- One bit of primary `n` enters its chain; `c` is the checker's latest value. DESIGN CHOICE (unsafe; assumption 119): a saturation
after the trim counts in SATCNT as one of HB1 does. -/
def tapBit (n : Nat) (c : Int) (s : State) (b : Bool) : State :=
  let ch := chainOf s n
  let r := cicBit ch.cic b
  match r.2 with
  | none => setChain s n { ch with cic := r.1 }
  | some y =>
    let x := sat24 y
    let h := stageIn (countSat (setChain s n { ch with cic := r.1 }) n x.2) n 1 x.1
    match h.2 with
    | none => h.1
    | some z =>
      let t := sat24 (trimmed n (h.1.rd (R.AFE_CHn_CFG_GAIN n)) z.1)
      fastTap (countSat (countSat h.1 n z.2) n t.2) n t.1 c

/-- The counters of a stopped chain `n` run on, a bit at a time (R87). -/
def countBit (c : Chain) : Chain :=
  if c.cic.cnt + 1 < 32 then { c with cic := { c.cic with cnt := c.cic.cnt + 1 } }
  else runCounters 5 1 { c with cic := { c.cic with cnt := 0 } }

/-- One bit of checker `k` enters its chain, with the HB1 bank of primary `n` (R88): the chain and the latest corrected value. -/
def ckBit (s : State) (n k : Nat) (p : Chain × Int) (b : Bool) : Chain × Int :=
  let r := cicBit p.1.cic b
  match r.2 with
  | none => ({ p.1 with cic := r.1 }, p.2)
  | some y =>
    let h := hbStep s n 1 { hbOf p.1 1 with fade := none } (sat24 y).1
    let c := setHb { p.1 with cic := r.1 } 1 h.1
    match h.2 with
    | none => (c, p.2)
    | some z => (c, (sat24 (trimmed (48 + k) (s.rd (R.AFE_CHn_CFG_GAIN n)) z.1)).1)

/-- The bits that modulator `m` gives on the fm edges up to now, `bs` being what its loop puts out: a loop reset forces them
(R59), and a stopped modulator's chain takes the alternating pattern instead (R65, assumption 154). -/
def modBits (s : State) (m : Nat) : List Bool → List Bool
  | [] => []
  | b :: t =>
    let at0 := tb2U s - t.length * tmNs (lpmAct s) * nsU
    let en := decide (48 ≤ m) || (s.on (R.AFE_CHn_CFG_EN m) == decide (mget s.afe.enAt m 0 < at0))
    (if en then (forcedBit s m at0).getD b else t.length % 2 == 1) :: modBits s m t

/-- Does the bit `k` fm edges before now come no later than the edge at which chain `n` last restarted, so that it enters no stage (R111, R112)?
The restart takes effect at the first fm edge after its command (DEDUCED, unsafe; assumption 188). -/
def beforeRestart (s : State) (n k : Nat) : Bool :=
  (chainOf s n).srstAt.any fun w => decide (tb2U s < w + (k + 1) * tmNs (lpmAct s) * nsU)

/-- A run of bits passes chain `n`; those from before its restart move its counters alone. -/
def feedBits (n : Nat) (c : Int) : List Bool → State → State
  | [], s => s
  | b :: t, s => feedBits n c t (if beforeRestart s n t.length then setChain s n (countBit (chainOf s n)) else tapBit n c s b)

/-- The bits that complete the next fast-tap value of a chain whose counters stand as in `c` (R86, R87). -/
def tapBits (c : Chain) : Nat := (if (hbOf c 1).odd then 32 else 64) - c.cic.cnt

/-- FAST_TAP_VALUE: the bits since the latest fast-tap value of input `n` pass through the chain, with those of the checker that is
connected to it; those of a stopped chain only move its counters (R87). The bits are as many as complete the value. -/
def execFastTapValue (n : Fin 48) (bits cbits : List Bool) (s : State) : Host.Outcome State Fault Refusal :=
  .next <|
    let c := chainOf s n
    if !s.pg 1 || bits.length != tapBits c then s
    else if !s.on (R.DCH_CHn_CTL_RUN n) then setChain s n (bits.foldl (fun a _ => countBit a) c)
    else
      let k := n.val / 12
      let d := ckOf s k
      let on := d.phase != 0 && d.pos == n.val % 12
      let cr := if on then (modBits s (48 + k) cbits).foldl (ckBit s n k) (mget s.dch.ckChain k {}, 0) else (mget s.dch.ckChain k {}, 0)
      let s1 := if on then setDch s { s.dch with ckChain := mput s.dch.ckChain k cr.1 } else s
      feedBits n cr.2 (modBits s n bits) s1

/-! ### Grid samples (R95 to R104) -/

/-- y of R95 under R108: the old bank, or its mix with the target bank during a fade; and the fade's next state. -/
def resample (s : State) (m n p : Nat) : Word × Option Fade :=
  let r := rsOf s m
  let old := polyY r.hist (rsBankOf s m (s.rd (R.DCH_RSm_STAT_ACT m))) n p
  match r.fade with
  | some f =>
    if f.busy then
      let new := polyY r.hist (rsBankOf s m f.bank) n p
      let j := min (f.j + 1) f.len
      let w := F32.div (F32.ofU32 (BitVec.ofNat 32 j)) (F32.ofU32 (BitVec.ofNat 32 f.len))
      (F32.add old (F32.mul w (F32.sub new old)), some { f with j := j })
    else (old, some f)
  | none => (old, none)

/-- A sample scaled to the channel's unit. -/
def scaled (s : State) (m : Nat) (y : Word) : Word := F32.mul y (BitVec.ofNat 32 (s.rd (R.DCH_RSm_SCALE_SCALE m)))

/-- A grid sample of channel `m` is made: fade state, UNSET bits, write. -/
def putSample (s : State) (g m : Nat) (i : Inst) (y : Word) (fd : Option Fade) (fl : Nat) : State :=
  let s1 := (modRs s m fun r => { r with fade := fd }).wrb (R.DCH_RSm_STAT_UNSET m) (fl.testBit 7)
  espWrite s1 g m i (scaled s m y) fl

/-- The flags of a local grid sample of channel `m` whose window ends at TB2 instant `hi` (R76, R103). -/
def localFlags (s : State) (n m hi : Nat) : Nat :=
  let span := tSettle s n m
  let u := eventInWindow s (100 + n) hi span || eventInWindow s (200 + m) hi span || chainFading s n hi || rsFading s m hi
  orU (tagFlags s n hi span) u ||| (if s.on (R.AFE_CHn_STAT_CK_INVAL n) then 8 else 0)

/-- Before an output of resampler `m`, a fade that has made output F ends and one that waits starts (R108, R109). -/
def readyRs (s : State) (m : Nat) : State := startRs (finishRs s m) m

/-- Release of a local grid sample (R95, R97): n the latest input at or before the instant. Where there is none, in the first samples
after a start, the history is zero all the same (R111). DESIGN CHOICE (safe; assumption 123): n and p are taken as 0 then. -/
def releaseLocal (s0 : State) (g m : Nat) (i : Inst) : State :=
  let s := readyRs s0 m
  let n := srcOf s m
  let r := rsOf s m
  let tin := tInNs s n * nsU
  let e := (latestAt r.hist i.t).getD { idx := 0, t := i.t, v := 0 }
  let q := resample s m e.idx (posOf i.t e.t tin 1)
  let hi := tb2U s - (actU s - (i.t + relDelay s n m * nsU))
  let fl := localFlags s n m hi
  (putSample s g m i q.1 q.2 fl).wrb (R.DCH_CHn_STAT_UNSET n) (fl.testBit 7)

/-- The instant a release is for: the oldest with the tick index that the channel has not written. -/
def instFor (f : Ftg) (m tick : Nat) : Option Inst := f.insts.reverse.find? fun i => i.tick == tick && !i.written.contains m

/-- RESAMPLER_RELEASE: active time has reached t_g + A of a local channel's tick (R97, R104, R108), A with the wider bank from output 1 of a
fade on (R102). A sample that is not due, or that
the resampler's latest start came too late for (R112), is not written. -/
def execResamplerRelease (m : Fin 192) (tick : Nat) (s : State) : Host.Outcome State Fault Refusal :=
  .next <|
    let g := ftgOfCh s m
    if !rsRun s m || !isLocal s m || !usedGroup s (groupOfCh m) then s
    else match instFor (espFtg s g) m tick with
      | none => s
      | some i =>
        if actU s < i.t + relDelay (readyRs s m) (srcOf s m) m * nsU ∨ i.absent.contains m = true then s else releaseLocal s g m i

/-! ### Sampled-value inputs (R98, R100, R101, R105) -/

/-- An input in its place in a history, newest first. -/
def insertIn (e : RsIn) : List RsIn → List RsIn
  | [] => [e]
  | x :: t => if x.idx < e.idx then e :: x :: t else if x.idx = e.idx then e :: t else x :: insertIn e t

/-- The number and the instant of the latest input at or before `tg`, counted on past the newest, within a gap, or before the
oldest. -/
def locate (hist : List RsIn) (tin : Nat × Nat) (tg : Nat) : Option (Int × Nat) :=
  match latestAt hist tg with
  | some e =>
    let next := (hist.reverse.find? fun x => decide (e.idx < x.idx)).map (·.idx)
    let k := periods e.t tg tin
    let k1 := match next with | some x => min k ((x : Int) - e.idx - 1) | none => k
    some ((e.idx : Int) + k1, e.t + k1.toNat * tin.1 / tin.2)
  | none =>
    match hist.getLast? with
    | some e =>
      let k := -(periods e.t tg tin)
      some ((e.idx : Int) - k, e.t - k.toNat * tin.1 / tin.2)
    | none => none

/-- Is input `j` of SV channel `m` missing (R132), with no substitute in the history? -/
def svMissed (s : State) (m j : Nat) : Bool :=
  (mget s.svi.sub (svSub s m) {}).gone.any (fun e => decide (e.1 ≤ j) && decide (j < e.2)) && !(rsOf s m).hist.any fun x => x.idx == j

/-- Is it one of two or more consecutive missing inputs (R100)? -/
def svLost (s : State) (m j : Nat) : Bool := svMissed s m j && (svMissed s m (j + 1) || (decide (0 < j) && svMissed s m (j - 1)))

/-- One tick of an SV channel after an input has entered, or after a further sample has been declared missing: written if its
window is whole, given up if it needs one of two or more consecutive missing inputs (R98, R100, R105). Fades end and start
between one tick and the next, so that the window is that of the output at hand (R101, R108, R109). -/
def svTick (g m : Nat) (s : State) (i : Inst) : State :=
  let s1 := readyRs s m
  let r := rsOf s m
  if i.written.contains m || i.absent.contains m || r.skip.contains i.tick then s
  else
    match locate r.hist (svTin s m) i.t with
    | some (n, tn) =>
      let h : Int := (rsTapsWide s1 m / 2 : Nat)
      let lo := max (n - h + 1) r.cut
      let hi := n + h
      let give : State :=
        let s2 := modRs s m fun r => { r with skip := (i.tick :: r.skip).take 600 }
        if svTracked s m then s2.sat1 (R.DCH_RSm_CNT_UNWRITTEN m) else s2
      if hi < r.cut then s
      else if (List.range (hi - lo + 1).toNat).any fun k => svLost s m (lo.toNat + k) then give
      else
        let win := r.hist.filter fun e => decide (lo ≤ (e.idx : Int)) && decide ((e.idx : Int) ≤ hi)
        if (win.length : Int) < hi - lo + 1 then s
        else
          let q := resample s1 m n.toNat (posOf i.t tn (svTin s m).1 (svTin s m).2)
          let fl := orU (win.foldl (fun a e => a ||| e.fl) 0) (decide (n - h + 1 < r.cut) || rsFading s1 m (tb2U s))
          putSample s1 g m i q.1 q.2 fl
    | none => s

/-- Every placed tick of channel `m`'s FTG, oldest first. -/
def svTicks (s : State) (m : Nat) : State :=
  let g := ftgOfCh s m
  if !usedGroup s (groupOfCh m) || !rsRun s m then s
  else (espFtg s g).insts.reverse.foldl (svTick g m) s

/-- The substitute for one missing input between two neighbours (R100). -/
def bridge (a b : RsIn) : RsIn :=
  { idx := a.idx + 1, t := (a.t + b.t) / 2, v := F32.roundInt (a.i + b.i) (-1) false, i := (a.i + b.i) / 2,
    fl := a.fl ||| b.fl ||| 1 }

/-- Input `j` of a history that holds its two neighbours and not itself gets its substitute (R100); an input that comes after all takes
its place. -/
def bridgeAt (m j : Nat) (s : State) : State :=
  let h := (rsOf s m).hist
  match h.find? (fun e => e.idx + 1 == j), h.find? (fun e => e.idx == j), h.find? fun e => e.idx == j + 1 with
  | some a, none, some b =>
    (modRs s m fun r => { r with hist := (insertIn (bridge a b) r.hist).take 40 }).sat1 (R.DCH_RSm_CNT_BRIDGED m)
  | _, _, _ => s

/-- A sample enters resampler `m`; one before the first since the restart is not needed (R105). -/
def svEnterRs (e : SvIn) (s : State) (m : Nat) : State :=
  let q := e.vals.getD (s.rd (R.SVI_MAPm_QTY m)) (0, 0)
  let x : RsIn := { idx := e.idx, t := e.t * nsU, v := F32.ofInt q.1, i := q.1, fl := q.2 }
  let s0 := if e.restart then restartSv s m else s
  let r := rsOf s0 m
  let s1 := match r.hist.head? with
    | none => modRs s0 m fun r => { r with hist := [x], cut := x.idx }
    | some _ =>
      if x.idx < r.cut then s0
      else bridgeAt m (x.idx + 1) (bridgeAt m (x.idx - 1) (modRs s0 m fun r => { r with hist := (insertIn x r.hist).take 40 }))
  svTicks s1 m

/-- The resamplers that a subscription feeds (R122). -/
def svFed (s : State) (sub : Nat) : List Nat :=
  (List.range 192).filter fun m => !isLocal s m && svMapped s m && svSub s m == sub
/-- Those that run. -/
def svChans (s : State) (sub : Nat) : List Nat := (svFed s sub).filter (rsRun s)

/-- The instant of the newest input that resampler `m` has seen, running or not (R112). -/
def seeInput (e : SvIn) (s : State) (m : Nat) : State := modRs s m fun r => { r with top := some (max (e.t * nsU) (r.top.getD 0)) }

/-- SV_SAMPLE_ENTER: the oldest sample in the NET→FAB FIFO enters the resamplers mapped to it (R98, R127). -/
def execSvSampleEnter (s : State) : Host.Outcome State Fault Refusal :=
  .next <|
    match s.svi.fifo with
    | [] => s
    | e :: t => (svChans s e.sub).foldl (svEnterRs e) ((svFed s e.sub).foldl (seeInput e) { s with svi := { s.svi with fifo := t } })

/-! ### Coefficient loads (R92, R94, R106, R115, R546) -/

/-- DCH_LOAD_OPEN: DCH_LD_SEL is latched and the staging buffer emptied. -/
def execDchLoadOpen (s : State) : Host.Outcome State Fault Refusal :=
  .next <|
    let sel := s.rd R.DCH_LD_SEL_KIND * 2 ^ 31 + s.rd R.DCH_LD_SEL_STAGE * 2 ^ 28 + s.rd R.DCH_LD_SEL_IDX * 2 ^ 20
      + s.rd R.DCH_LD_SEL_K * 2 ^ 16 + s.rd R.DCH_LD_SEL_BANK * 2 ^ 8 + s.rd R.DCH_LD_SEL_PROF
    ((setDch s { s.dch with sel := sel, stage := [] }).wrb R.DCH_LD_STAT_OPENED true).wr R.DCH_LD_STAT_COUNT 0

/-- DCH_LOAD_DATA: the next value while open; ignored otherwise. DESIGN CHOICE (unsafe; assumption 179): COUNT stays at 8,191 beyond that many
values, and the commit's COUNT check takes the number staged. -/
def execDchLoadData (v : BitVec 32) (s : State) : Host.Outcome State Fault Refusal :=
  .next <|
    if !s.on R.DCH_LD_STAT_OPENED then s
    else (setDch s { s.dch with stage := s.dch.stage ++ [v] }).sat1 R.DCH_LD_STAT_COUNT

/-- Fields of the latched selection. -/
def selKind (w : Nat) : Nat := w / 2 ^ 31
def selStage (w : Nat) : Nat := w / 2 ^ 28 % 8
def selIdx (w : Nat) : Nat := w / 2 ^ 20 % 256
def selK (w : Nat) : Nat := w / 2 ^ 16 % 16
def selBank (w : Nat) : Nat := w / 2 ^ 8 % 2
def selLow (w : Nat) : Bool := w.testBit 0

/-- The staged values as Q2.18 numbers. -/
def hbCoefs (l : List Word) : List Int := l.map fun w => sgn 20 w.toNat

/-- A binary32's magnitude in units of 2^−149, none for NaN and infinity. -/
def magExact (w : Word) : Option Nat :=
  match F32.unpack w with
  | .fin _ m e => some (m * 2 ^ (e + 149).toNat)
  | _ => none

/-- R94: is a phase's L1 norm at most 2.0? -/
def phaseOk (l : List Word) : Bool :=
  match l.foldl (fun a w => match a, magExact w with | some x, some y => some (x + y) | _, _ => none) (some 0) with
  | some x => decide (x ≤ 2 ^ 150)
  | none => false

/-- Every phase of a bank with `taps` taps. -/
def bankOk (n taps : Nat) (l : List Word) : Bool :=
  match n with
  | 0 => true
  | n + 1 => phaseOk (l.take taps) && bankOk n taps (l.drop taps)

/-- RESULT of a commit (R546): the checks LOCKED, SELECT, COUNT, RUNNING, NORM in this order. -/
def loadResult (s : State) : Nat :=
  let w := s.dch.sel
  let l := s.dch.stage
  let hb := selKind w == 0
  if s.on R.DCH_CTL_LOCK then 5
  else if (if hb then selStage w = 0 ∨ 5 < selStage w ∨ selK w = 0 ∨ 11 < selK w ∨ 47 < selIdx w else 191 < selIdx w) then 6
  else if l.length ≠ (if hb then selK w + 1 else if selLow w then 1024 else 4096) then 4
  else if (if hb then s.on (R.DCH_CHn_CTL_RUN (selIdx w)) else rsRun s (selIdx w)) then 2
  else if (if hb then decide (131072 + 2 * ((hbCoefs l).map Int.natAbs).sum ≤ 524288)
      else bankOk 256 (profTaps (selLow w)) l) then 1
  else 3

/-- The bank that a selection word names takes values. -/
def storeBank (w : Nat) (l : List Word) (s : State) : State :=
  let b := selBank w
  if selKind w = 0 then
    (setDch s { s.dch with hbBank := mput s.dch.hbBank (10 * selIdx w + 2 * (selStage w - 1) + b) (selK w, hbCoefs l) }).setBit
      (R.DCH_CHn_BSTAT_LOADED (selIdx w)) (2 * (selStage w - 1) + b)
  else
    let s1 := setDch s { s.dch with rsBank := mput s.dch.rsBank (2 * selIdx w + b) (selLow w, l) }
    if b = 0 then (s1.wrb (R.DCH_RSm_STAT_LOADED_A (selIdx w)) true).wrb (R.DCH_RSm_STAT_PROF_A (selIdx w)) (selLow w)
    else (s1.wrb (R.DCH_RSm_STAT_LOADED_B (selIdx w)) true).wrb (R.DCH_RSm_STAT_PROF_B (selIdx w)) (selLow w)

/-- The commit in progress ends with its result; a bank is written only on acceptance, with the values that were checked. -/
def commitEnds (s : State) : State :=
  if !s.on R.DCH_LD_STAT_BUSY then s
  else
    let s1 := (s.wrb R.DCH_LD_STAT_BUSY false).wr R.DCH_LD_STAT_RESULT s.dch.res
    if s.dch.res = 1 then storeBank s.dch.com.1 s.dch.com.2 s1 else s1

/-- DCH_LOAD_COMMIT: a COMMIT while the window is open is checked, and the window closes (R546). DESIGN CHOICE (unsafe; assumption
122): a commit still in progress ends first. -/
def execDchLoadCommit (s : State) : Host.Outcome State Fault Refusal :=
  .next <|
    if !s.on R.DCH_LD_STAT_OPENED then s
    else
      let s1 := commitEnds s
      ((setDch s1 { s1.dch with res := loadResult s1, com := (s1.dch.sel, s1.dch.stage) }).wrb R.DCH_LD_STAT_OPENED false).wrb
        R.DCH_LD_STAT_BUSY true

/-- DCH_LOAD_COMMIT_DONE: the end of a commit (R115, R546). -/
def execDchLoadCommitDone (s : State) : Host.Outcome State Fault Refusal := .next (commitEnds s)

/-! ### Restarts, stops and stage changes (R111 to R113) -/

/-- Everything a chain holds from inputs becomes zero; the decimation counters run on (R87, R111). -/
def zeroChain (c : Chain) (from2 : Bool) : Chain :=
  { c with cic := if from2 then c.cic else { cnt := c.cic.cnt },
           hb := c.hb.map fun e => if from2 && e.1 == 1 then e else (e.1, { e.2 with line := [] }) }

/-- The history of the resampler that names input `n` becomes zero. -/
def zeroRsOf (s : State) (n : Nat) : State :=
  match rsOfInput s n with
  | some m => modRs s m fun r => { r with hist := r.hist.map fun e => { e with v := 0 } }
  | none => s

/-- The restart of chain `n` (R111): the fades of its stages settle under R110, U follows under R104. DEDUCED (unsafe; assumption 178): a running
fade of the resampler that it feeds is not settled. -/
def restartChain (s : State) (n : Nat) : State :=
  let s1 := settleChain s n
  chainEvent (zeroRsOf (setChain s1 n { zeroChain (chainOf s1 n) false with srstAt := some (tb2U s) }) n) n

/-- CHAIN_SRST (R111): ignored while RUN = 0. -/
def execChainSrst (n : Fin 48) (s : State) : Host.Outcome State Fault Refusal :=
  .next <|
    if !s.on (R.DCH_CHn_CTL_RUN n) then s
    else restartChain s n

/-- RESAMPLER_SRST (R111). -/
def execResamplerSrst (m : Fin 192) (s : State) : Host.Outcome State Fault Refusal :=
  .next <|
    if !rsRun s m then s
    else modRs (restartRs (settleRs s m) m) m fun r => { r with srstAt := some (tb2U s) }

/-- A resampler stops (R112). -/
def stopRs (s : State) (m : Nat) : State := settleRs (s.wrb (R.DCH_RSm_CTL_RUN m) false) m

/-- A resampler starts: its history restarts, and it rejoins the ticks that R112 names. -/
def startRsRun (s : State) (m : Nat) : State := restartRs (markAbsent (s.wrb (R.DCH_RSm_CTL_RUN m) true) m) m

/-- CHAIN_RUN_CLEAR (R112): the chain stops, and with it the resampler that names the input. -/
def execChainRunClear (n : Fin 48) (s : State) : Host.Outcome State Fault Refusal :=
  .next <|
    if !s.on (R.DCH_CHn_CTL_RUN n) then s
    else
      let s0 := settleChain (s.wrb (R.DCH_CHn_CTL_RUN n) false) n
      let s1 := setChain s0 n { chainOf s0 n with nhb := none }
      match rsOfInput s1 n with
      | some m => if rsRun s1 m then stopRs s1 m else s1
      | none => s1

/-- Are the active banks of HB1 to HB(1+h) of chain `n` loaded? -/
def stagesLoaded (s : State) (n h : Nat) : Bool :=
  (List.range (h + 1)).all fun i => hbLoaded s n (i + 1) (s.rd (hbAct n (i + 1)))

/-- R113: may chain `n` run with `h` stages feeding channel `m`? -/
def feedOk (s : State) (n h m : Nat) : Bool :=
  (!usedGroup s (groupOfCh m) || rateOkNow s (tmNs (lpmAct s)) h m) && stagesLoaded s n h

def rsActLoaded (s : State) (m : Nat) : Bool := rsLoaded s m (s.rd (R.DCH_RSm_STAT_ACT m))

/-- CHAIN_RUN_SET (R112, R113). -/
def execChainRunSet (n : Fin 48) (s : State) : Host.Outcome State Fault Refusal :=
  .next <|
    if s.on (R.DCH_CHn_CTL_RUN n) then s
    else
      let h := nhbOf s n
      let ok := match rsOfInput s n with
        | some m => feedOk s n h m && rsActLoaded s m
        | none => stagesLoaded s n h
      if !ok then (s.wrb (R.DCH_CHn_STAT_RUN_REFUSED n) true).logIx 0x07 2 n
      else
        let s1 := restartChain (s.wrb (R.DCH_CHn_CTL_RUN n) true) n
        match rsOfInput s n with
        | some m => startRsRun s1 m
        | none => s1

/-- RESAMPLER_RUN_CLEAR (R112). -/
def execResamplerRunClear (m : Fin 192) (s : State) : Host.Outcome State Fault Refusal :=
  .next (if rsRun s m then stopRs s m else s)

/-- RESAMPLER_RUN_SET (R112, R113). -/
def execResamplerRunSet (m : Fin 192) (s : State) : Host.Outcome State Fault Refusal :=
  .next <|
    if rsRun s m then s
    else
      let n := srcOf s m
      let ok := rsActLoaded s m && (!isLocal s m || feedOk s n (nhbOf s n) m)
      if ok then startRsRun s m else (s.wrb (R.DCH_RSm_STAT_CFG_REFUSED m) true).logIx 0x07 2 m

/-- NHB_WRITE (R113): 5 to 7 are ignored; stored without a check while the chain is stopped. DESIGN CHOICE (unsafe; assumption 124):
a write of the value that NHB holds brings no new stage set, and restarts nothing. -/
def execNhbWrite (n : Fin 48) (v : Fin 8) (s : State) : Host.Outcome State Fault Refusal :=
  .next <|
    let f := R.DCH_CHn_CFG_NHB n
    if 4 < v.val then s
    else if !s.on (R.DCH_CHn_CTL_RUN n) then s.wr f v
    else
      let ok := match rsOfInput s n with
        | some m => feedOk s n v m
        | none => stagesLoaded s n v
      if !ok then (s.wrb (R.DCH_CHn_STAT_NHB_REFUSED n) true).logIx 0x07 1 n
      else if s.rd f = v.val then s
      else
        let old := nhbOf s n
        let s1 := [2, 3, 4, 5].foldl (fun a st => if v.val + 1 < st then settleStage a n false st else a) s
        setChain (s1.wr f v) n { chainOf s1 n with nhb := some old }

/-- NHB_CHANGE_EFFECT: the first HB1 output after an accepted NHB write (R113). -/
def execNhbChangeEffect (n : Fin 48) (s : State) : Host.Outcome State Fault Refusal :=
  .next <|
    match (chainOf s n).nhb with
    | none => s
    | some _ => chainEvent (zeroRsOf (setChain s n { zeroChain (chainOf s n) true with nhb := none }) n) n

/-- RESAMPLER_SOURCE_WRITE: SRCSEL and SRC (R93, R113); RWL under DCH_CTL.LOCK. DESIGN CHOICE (unsafe; assumption 125): SRC 48 to 63,
which name no input, are stored as written. -/
def execResamplerSourceWrite (m : Fin 192) (sv : Bool) (src : Fin 64) (s : State) : Host.Outcome State Fault Refusal :=
  .next <|
    let same := s.on (R.DCH_RSm_CFG_SRCSEL m) == sv && s.rd (R.DCH_RSm_CFG_SRC m) == src.val
    if s.on R.DCH_CTL_LOCK || same then s
    else if !sv && (List.range 192).any fun x => x != m.val && namesInput s src x then
      s.wrb (R.DCH_RSm_STAT_CFG_REFUSED m) true
    else
      let s1 := (s.wrb (R.DCH_RSm_CFG_SRCSEL m) sv).wr (R.DCH_RSm_CFG_SRC m) src
      if rsRun s1 m then restartRs (modRs s1 m fun r => { r with hist := [] }) m else s1

end Sys2Proof.Machine
end

