-- ==== Sys2Proof/Machine/RecRow.lean ====
section
/-! DEFINITION. The disturbance recorder's rows, triggers, masks and record sequence (R376 to R393). -/

namespace Sys2Proof.Machine

def auOf (s : State) (u : Nat) : Au := mget s.dr.au u {}
def setAu (s : State) (u : Nat) (x : Au) : State := { s with dr := { s.dr with au := mput s.dr.au u x } }
def auState (s : State) (u : Nat) : Nat := s.rd (R.REC_AUu_STAT_STATE u)
def setAuState (s : State) (u st : Nat) : State := s.wr (R.REC_AUu_STAT_STATE u) st

/-! ### Configuration -/

def auFast (s : State) (u : Nat) : Bool := s.on (R.REC_AUu_CFG_MODE u)
def auK (s : State) (u : Nat) : Nat := clamp 1 1024 (s.rd (R.REC_AUu_CFG_K u))
def auPre (s : State) (u : Nat) : Nat := s.rd (R.REC_AUu_PRE_PRE u)
def auPost (s : State) (u : Nat) : Nat := max 1 (s.rd (R.REC_AUu_POST_POST u))
def auNch (s : State) (u : Nat) : Nat := min 192 (s.rd (R.REC_AUu_NSRC_NCH u))
def auNsig (s : State) (u : Nat) : Nat := min 256 (s.rd (R.REC_AUu_NSRC_NSIG u))
def auSrc (s : State) (u i : Nat) : Nat := s.rd (R.REC_AUu_CHi_SRC u i)
def auSig (s : State) (u i : Nat) : Nat :=
  if i % 2 = 0 then s.rd (R.REC_AUu_SIGi_CODE0 u (i / 2)) else s.rd (R.REC_AUu_SIGi_CODE1 u (i / 2))

/-- ROWB (R378): 32-bit words, to a multiple of 8 bytes. -/
def rowBytes (s : State) (u : Nat) : Nat :=
  let n := auNch s u
  let w := 2 + n + (if auFast s u then 0 else (n + 3) / 4) + (if s.on (R.REC_AUu_CFG_BINEN u) then 2 else 0) + (auNsig s u + 31) / 32
  (4 * w + 7) / 8 * 8

/-- The partition (R381): its base, a DRAM byte address; its data region and the circle of whole rows in it. -/
def partBase (s : State) (u : Nat) : Nat := s.rd (R.REC_AUu_PART_BASE u) * 0x100000
def partSize (s : State) (u : Nat) : Nat := clamp 1 1024 (s.rd (R.REC_AUu_PART_SIZE u)) * 0x100000
def regionSize (s : State) (u : Nat) : Nat := partSize s u - 0x10000
def circle (s : State) (u : Nat) : Nat := regionSize s u / rowBytes s u * rowBytes s u

/-! ### A source row (R376 to R379, R383) -/

/-- A source row: its instant in ns of active time, values as binary32 with flag bytes, words as stored, position in the power
cycle in 1/256, frequency word, N code. -/
structure SrcRow where
  t : Nat
  vals : List (Word × Nat)
  words : List Word
  phase : Nat
  fword : Nat
  ncode : Nat
  deriving DecidableEq, Repr

/-- A verdict bit by its code of R383, from the latest snapshot (R379). -/
def verdictBit (s : State) (code : Nat) : Bool :=
  let c := code - 0x4000
  (liveVal s (ptVerdict (c / 256) (c % 256 / 32))).getLsbD (c % 32)

def signalNow (s : State) (code : Nat) : Bool :=
  if code < 256 then mget s.sch.recSig code false else verdictBit s code

/-- Bits packed into words, lowest first. -/
def packWords (l : List Bool) : Nat → List Word
  | 0 => []
  | n + 1 => BitVec.ofNat 32 (bitmap 32 fun k => l.getD k false) :: packWords (l.drop 32) n

/-- The binary levels and signals of a row. -/
def rowTail (s : State) (u : Nat) : List Word :=
  let sigs := (List.range (auNsig s u)).map fun i => signalNow s (auSig s u i)
  (if s.on (R.REC_AUu_CFG_BINEN u) then
      [BitVec.ofNat 32 (s.rd R.THN_BIN_LO_LEVEL), BitVec.ofNat 32 (s.rd R.THN_BIN_HI_LEVEL)] else [])
    ++ packWords sigs ((sigs.length + 31) / 32)

/-- Flag bytes, four to a word. -/
def flagWords (l : List Nat) : Nat → List Word
  | 0 => []
  | n + 1 => BitVec.ofNat 32 (leNat ((l.take 4).map fun x => BitVec.ofNat 8 x)) :: flagWords (l.drop 4) n

/-- Grid values of a slot, each read with its parity checked (R161). -/
def gridVals (slot : Nat) : List Nat → State → List (Word × Nat) × State
  | [], s => ([], s)
  | m :: t, s =>
    let r := espRead s m slot
    let q := gridVals slot t r.2
    (r.1 :: q.1, q.2)

/-- The source row of an instant in grid mode. -/
def gridRow (s : State) (u : Nat) (i : Inst) : SrcRow × State :=
  let chs := (List.range (auNch s u)).map (auSrc s u)
  let r := gridVals (i.tick % 512) chs s
  let v := r.1
  ({ t := (i.t + nsU / 2) / nsU, vals := v,
     words := v.map (·.1) ++ flagWords (v.map (·.2)) ((v.length + 3) / 4) ++ rowTail s u,
     phase := 256 * (i.tick % i.n) / i.n, fword := i.fw, ncode := s.rd (R.ESP_FTGg_STAT_NACT (s.rd (R.REC_AUu_CFG_FTG u))) }, r.2)

/-- The FTG of a fast-mode channel, local input `n`: that of the grid channel whose resampler names the input (R93), else the AU's
(assumption 42). -/
def fastFtg (s : State) (u n : Nat) : Nat :=
  match rsOfInput s n with | some m => ftgOfCh s m | none => s.rd (R.REC_AUu_CFG_FTG u)

/-- Where instant `t` lies in the power cycle of FTG `g` (R389). -/
def cyclePhase (s : State) (g t : Nat) : Nat :=
  let f := espFtg s g
  match f.insts.find? fun i => i.tick % i.n == 0 && decide (i.t ≤ t * nsU) with
  | some i => min 255 (256 * (t * nsU - i.t) / (max 1 (gridPeriod i.n (cycF s g f.cycNo)) * i.n))
  | none => 0

/-- The source row of a fast-mode AU at the forming edge, stamped from FAB's shadow of active time: only U, O, N and I of the flags. Its
channels have a phase each (`maskPoint`). -/
def fastRow (s : State) (u : Nat) : SrcRow :=
  let v := (List.range (auNch s u)).map fun i => let x := mget s.dch.tap (auSrc s u i) (0, 0); (x.1, x.2 &&& 0xE8)
  { t := s.fabTime 4 / nsU, vals := v.map fun e => (F32.ofInt e.1, e.2),
    words := (v.map fun e => BitVec.ofNat 32 (e.2 * 2 ^ 24 + usg 24 e.1)) ++ rowTail s u,
    phase := 0, fword := 0, ncode := s.rd (R.ESP_FTGg_STAT_NACT (s.rd (R.REC_AUu_CFG_FTG u))) }

/-! ### Masks (R389, R390) -/

def mskM (s : State) (u m : Nat) : Nat := max 1 (s.rd (R.REC_AUu_MSKm_CFG_M u m))

/-- U or I on a channel's value. -/
def unusable (fl : Nat) : Bool := fl.testBit 7 || fl.testBit 3

/-- The point of slot `m`'s table that a row is held against (R389). -/
def maskPoint (s : State) (u m : Nat) (r : SrcRow) : Nat :=
  if auFast s u then cyclePhase s (fastFtg s u (auSrc s u (s.rd (R.REC_AUu_MSKm_CFG_CH u m)))) r.t else r.phase

/-- Slot `m` in a row: the state, and whether it is violated. -/
def maskStep (u : Nat) (r : SrcRow) (a : State × List Nat) (m : Nat) : State × List Nat :=
  let s := a.1
  if !s.on (R.REC_AUu_MSKm_CFG_EN u m) then a
  else match r.vals[s.rd (R.REC_AUu_MSKm_CFG_CH u m)]? with
    | none => a
    | some (x, fl) =>
      if unusable fl then a
      else
        let up := BitVec.ofNat 32 (s.rd (R.REC_AUu_MASKmp_MASK u m (maskPoint s u m r)))
        let lo := BitVec.ofNat 32 (s.rd (R.REC_AUu_MASKLmp_MASK u m (maskPoint s u m r)))
        let out := F32.lt up x || F32.lt x lo
        let n := if out then mget (auOf s u).mask m 0 + 1 else 0
        let hit := decide (mskM s u m ≤ n)
        let au := auOf s u
        (setAu s u { au with mask := mput au.mask m (if hit then 0 else n) }, if hit then m :: a.2 else a.2)

/-! ### Trigger units (R384, R385) -/

def trgKind (s : State) (u t : Nat) : Nat := s.rd (R.REC_AUu_TRGt_CFG_KIND u t)
def trgSel (s : State) (u t : Nat) : Nat := s.rd (R.REC_AUu_TRGt_CFG_SEL u t)
def trgM (s : State) (u t : Nat) : Nat := max 1 (s.rd (R.REC_AUu_TRGt_CFG_M u t))
def trgThr (s : State) (u t : Nat) : Word := BitVec.ofNat 32 (s.rd (R.REC_AUu_TRGt_THR_THR u t))

/-- EDGE 0 rising, 1 falling, 2 either. -/
def edgeFires (e : Nat) (old new : Bool) : Bool := ((e == 0 || e == 2) && !old && new) || ((e == 1 || e == 2) && old && !new)

/-- A level condition of kinds 3 and 4 (R384). -/
def levelHolds (s : State) (u t : Nat) (x : Word) : Bool :=
  if (s.rd (R.REC_AUu_TRGt_CFG_EDGE u t)) % 2 = 0 then F32.le (trgThr s u t) (F32.abs x) else F32.le (F32.abs x) (trgThr s u t)

/-- The next state of a unit with a condition that must hold for `m` rows: fires once until it has been false. -/
def holdStep (x : TrgSt) (c : Bool) (m : Nat) : TrgSt × Bool :=
  let n := if c then min (x.cnt + 1) 256 else 0
  let fire := decide (m ≤ n) && x.ready
  ({ x with cnt := n, ready := if !c then true else if fire then false else x.ready, asserted := decide (m ≤ n) }, fire)

/-- An edge-type unit: asserted for ANDWIN rows from the row in which it fires. -/
def edgeStep (s : State) (u : Nat) (x : TrgSt) (fire : Bool) : TrgSt × Bool :=
  let left := if fire then max 1 (s.rd (R.REC_AUu_CFG_ANDWIN u)) else x.left
  ({ x with left := left - 1, asserted := decide (0 < left) }, fire)

/-- One unit in a row: its next state and whether it fires. -/
def trgStep (s : State) (u t : Nat) (r : SrcRow) (ev : List (Nat × Nat)) (viol : List Nat) (x : TrgSt) : TrgSt × Bool :=
  let sel := trgSel s u t
  let e := s.rd (R.REC_AUu_TRGt_CFG_EDGE u t)
  match trgKind s u t with
  | 1 => let b := verdictBit s sel; edgeStep s u { x with prev := b } (edgeFires e x.prev b)
  | 2 => edgeStep s u x (((e == 0 || e == 2) && ev.contains (2, 2 * sel + 1)) || ((e == 1 || e == 2) && ev.contains (2, 2 * sel)))
  | 3 => match r.vals[sel]? with
    | some (v, fl) => if unusable fl then (x, false) else holdStep x (levelHolds s u t v) (trgM s u t)
    | none => (x, false)
  | 4 => match r.vals[sel]? with
    | some (v, fl) =>
      let y := { x with hist := (v :: x.hist).take 256 }
      if unusable fl then (y, false)
      else match x.hist[trgM s u t - 1]? with
        | some w => holdStep y (levelHolds s u t (F32.sub v w)) 1
        | none => (y, false)
    | none => (x, false)
  | 5 => edgeStep s u x (viol.contains sel && !s.on (R.REC_AUu_MSKm_CFG_ACT u sel))
  | 6 => edgeStep s u x (ev.contains (6, sel))
  | 7 => edgeStep s u x (ev.contains (7, 0))
  | 8 => edgeStep s u x (ev.any fun q => q.1 == 8)
  | 9 => let b := mget s.sch.recSig (sel % 256) false; edgeStep s u { x with prev := b } (edgeFires e x.prev b)
  | 10 => match r.vals[sel]? with
    | some (_, fl) => holdStep x (fl &&& (trgThr s u t).toNat % 256 != 0) 1
    | none => (x, false)
  | _ => (x, false)

/-- All units in a row: their states, and a bitmap of those that fire. -/
def trgAll (s : State) (u : Nat) (r : SrcRow) (ev : List (Nat × Nat)) (viol : List Nat) : List (Nat × TrgSt) × Nat :=
  (List.range 16).foldl (fun (a : List (Nat × TrgSt) × Nat) t =>
    let q := trgStep s u t r ev viol (mget (auOf s u).trg t {})
    (mput a.1 t q.1, if q.2 then a.2 + 2 ^ t else a.2)) ((auOf s u).trg, 0)

/-- Does the row trigger the AU (R385, R390)? And is its AND group asserted together? -/
def auTriggered (s : State) (u : Nat) (st : List (Nat × TrgSt)) (fired : Nat) (viol : List Nat) : Bool × Bool :=
  let units := (List.range 16).filter fun t => trgKind s u t != 0
  let ands := units.filter fun t => s.on (R.REC_AUu_TRGt_CFG_GROUP u t)
  let all := !ands.isEmpty && ands.all fun t => (mget st t {}).asserted
  let orFire := units.any fun t => !s.on (R.REC_AUu_TRGt_CFG_GROUP u t) && fired.testBit t
  let direct := viol.any fun m => !s.on (R.REC_AUu_MSKm_CFG_ACT u m) && !units.any fun t => trgKind s u t == 5 && trgSel s u t == m
  (orFire || direct || (all && !(auOf s u).andWas), all)

/-! ### Records (R386 to R393) -/

/-- Flags of the header word at 0x010. -/
def fPreShort : Nat := 30
def fTrunc : Nat := 29
def fStopped : Nat := 28
def fExtended : Nat := 27
def fGap : Nat := 26
def fStep : Nat := 25
def fLpm : Nat := 24

def setFlag (c : CurRec) (k : Nat) : CurRec := { c with flags := if c.flags.testBit k then c.flags else c.flags + 2 ^ k }

/-- The delay of a fast-mode channel in ns (R377, R102). -/
def tapDelay (s : State) (n skew : Nat) : Nat := tmNs (lpmAct s) * (skew + 62 + 16 * (tapsPlace s n 1 - 1))

/-- The channel table of a header. -/
def headChans (s : State) (u : Nat) : List Byte :=
  (List.range 192).flatMap fun i =>
    if auNch s u ≤ i then padTo 8 []
    else if auFast s u then
      let n := auSrc s u i
      let k := mget (auOf s u).skew i 0
      leBytes 4 (n + s.rd (R.AFE_CHn_CFG_GAIN n) % 4 * 256 + k * 1024) ++ leBytes 4 (tapDelay s n k)
    else leBytes 4 (auSrc s u i) ++ leBytes 4 0

/-- A new record's header takes the AU's configuration as it stands (R388, R393). -/
def withConfig (s : State) (u : Nat) (c : CurRec) : CurRec :=
  { c with
    chans := headChans s u
    codes := (List.range 256).flatMap fun i => leBytes 2 (if i < auNsig s u then auSig s u i else 0)
    w14 := (if auFast s u then 2 ^ 31 else 0) + s.rd (R.REC_AUu_CFG_FTG u) * 2 ^ 29 + u * 2 ^ 27 + auK s u * 2 ^ 16
      + s.rd (R.REC_AUu_CFG_BINEN u) * 2 ^ 15 + auNsig s u
    nch := auNch s u
    rowb := rowBytes s u
    pre := auPre s u
    post := auPost s u
    ident := s.img.ident }

/-- A record's header (R393). -/
def headBytes (s : State) (u : Nat) (c : CurRec) (complete : Bool) : List Byte :=
  let seq := mget (s.dr.seqBack.map fun e => (4 * e.1.2 + e.1.1, e.2)) (4 * c.slot + u) 0
  let w10 := (if complete then 2 ^ 31 else 0) + c.flags + c.slot * 2 ^ 16 + c.ctr % 65536
  let body := leBytes 4 0x52454331 ++ leBytes 4 0x10000001 ++ leBytes 8 (seq % 2 ^ 48) ++ leBytes 4 w10 ++ leBytes 4 c.w14
    ++ leBytes 4 c.nch ++ leBytes 4 c.rowb ++ leBytes 8 c.trgAct ++ leBytes 8 c.trgTb2 ++ leBytes 8 c.firstAct
    ++ leBytes 4 (c.tq * 2 ^ 30 + c.masks * 2 ^ 16 + c.units) ++ leBytes 4 c.pre ++ leBytes 4 c.preRows ++ leBytes 4 c.post
    ++ leBytes 4 c.count ++ leBytes 4 c.first ++ leBytes 4 c.fword ++ leBytes 4 c.ncode ++ leBytes 8 0 ++ leBytes 32 c.ident
    ++ c.chans ++ c.codes ++ padTo 1916 []
  body ++ leBytes 4 (crc32 body).toNat

/-- A header is written to its slot of the record table; DRAM that is not in use takes nothing (R519). -/
def writeHead (s : State) (u : Nat) (c : CurRec) (complete : Bool) : State :=
  if s.on R.MEM_STAT_TRAINED then dramPutWords s (partBase s u + 0x1000 * c.slot) (headBytes s u c complete) else s

/-- An event of REC with the AU, and a count, as payload. -/
def recEvt (s : State) (code u n : Nat) : State := s.logEv 0x0C code (leBytes 4 u ++ leBytes 4 n)

/-- A new order of slots: an unused one that is not pinned, else the oldest that is not pinned (R391). -/
def pickSlot (s : State) (u : Nat) : Option Nat :=
  let pinned := s.rd (R.REC_AUu_PIN_PIN u)
  let free := (List.range 16).filter fun k => !pinned.testBit k
  let used := fun k => ((auOf s u).slots.find? fun e => e.1 == k).map fun e => e.2.order + 1
  free.foldl (fun (a : Option Nat) k => match a with
    | none => some k
    | some j => if (used k).getD 0 < (used j).getD 0 then some k else a) none

/-- Does byte range [a, a + n) meet a record's bytes? -/
def meets (x : RecExt) (a n : Nat) : Bool :=
  let e := x.first + x.len
  (decide (a < min e x.cap) && decide (x.first < a + n)) || (decide (x.cap < e) && decide (a < e - x.cap))

/-- Slots with a record whose bytes the next row would overwrite. -/
def hitSlots (s : State) (u : Nat) : List Nat :=
  let x := auOf s u
  let n := rowBytes s u
  (x.slots.filter fun e => (s.rd (R.REC_AUu_VALID_VALID u)).testBit e.1 && meets e.2 x.pos n
    && (match x.cur with | some c => c.slot != e.1 | none => true)).map (·.1)

/-- An entry of the RECN ring for a record that is complete (R514). -/
def recnEntry (s : State) (u : Nat) (c : CurRec) : State :=
  ringPush s 3 (leBytes 4 (u * 2 ^ 30 + c.slot * 2 ^ 26 + (0x80 + c.flags / 2 ^ 24) * 256)
    ++ leBytes 4 (partBase s u + 0x1000 * c.slot)
    ++ leBytes 4 (mget (s.dr.seqBack.map fun e => (4 * e.1.2 + e.1.1, e.2)) (4 * c.slot + u) 0) ++ leBytes 4 c.count) []

/-- The record in progress ends: counts and flags, CRC, COMPLETE; RECN ring entry (R388, R514). -/
def finishRecord (s : State) (u : Nat) : State :=
  let x := auOf s u
  match x.cur with
  | none => s
  | some c =>
    let ext : RecExt := { first := c.first, len := c.count * c.rowb, cap := circle s u, order := x.made }
    let s1 := writeHead s u c true
    let s2 := setAu s1 u { x with cur := none, slots := mput x.slots c.slot ext, made := x.made + 1 }
    let s3 := if c.flags.testBit fTrunc then s2.wrb (R.REC_AUu_STAT_TRUNC_STK u) true else s2
    recnEntry (s3.setBit (R.REC_AUu_VALID_COMPLETE u) c.slot) u c

/-- The record in progress ends at its last written row, with TRUNC. -/
def cutRecord (s : State) (u : Nat) : State :=
  let x := auOf s u
  match x.cur with
  | some c => finishRecord (setAu s u { x with cur := some (if c.count < c.last then setFlag c fTrunc else c) }) u
  | none => s

/-- A trigger is lost to pinned slots (R391). -/
def stallTrigger (s : State) (u : Nat) : State :=
  recEvt ((s.sat1 (R.REC_AUu_CNT_LOST u)).wrb (R.REC_AUu_STAT_STALL_STK u) true) 4 u 0

/-- The second word of a row in DRAM takes row number `i`, by a read and a write of the 64-bit word it lies in (R378, R521). -/
def numberRow (s : State) (a i : Nat) : State :=
  if s.hst.badWords.contains (a / 8) then eccUncorr s (a / 8)
  else
    let d := dramGet s a 8
    dramPutWords d.2 a (d.1.take 4 ++ leBytes 4 (leNat (d.1.drop 4) / 2 ^ 28 * 2 ^ 28 + i % 2 ^ 28))

/-- The pre-trigger rows of a record take their numbers within it (R378): row `i` of `n`, the first at byte `first` of the circle. -/
def numberRows (u first rb cap : Nat) (s : State) : (n i : Nat) → State
  | 0, _ => s
  | n + 1, i => numberRows u first rb cap (numberRow s (partBase s u + 0x10000 + (first + i * rb) % max 1 cap) i) n (i + 1)

/-- A record starts at the source row `r` (R387); it never exceeds the data region. -/
def startRecord (s : State) (u : Nat) (r : SrcRow) (units masks : Nat) : State :=
  let x := auOf s u
  match pickSlot s u with
  | none => stallTrigger s u
  | some slot =>
    let rb := rowBytes s u
    let cap := circle s u
    let fit := cap / rb
    let pre := min (min (auPre s u) x.store) (fit - 1)
    let last := pre + auPost s u
    let first := if pre = 0 then r.t else x.times.getD (pre - 1) r.t
    let c : CurRec :=
      { slot := slot
        first := (x.pos + cap - pre * rb % max 1 cap) % max 1 cap
        count := pre
        preRows := pre
        last := min last fit
        trgAct := r.t
        trgTb2 := s.fabTime 2 / nsU + r.t - s.fabTime 4 / nsU
        tq := s.rd R.TIM_ACT_STAT_TQ
        firstAct := first
        units := units
        masks := masks
        fword := r.fword
        ncode := r.ncode
        ctr := s.rd (R.REC_AUu_CNT_RECORDS u) + 1 }
    let c1 := if pre < auPre s u then setFlag c fPreShort else c
    let c3 := if fit < last then setFlag c1 fTrunc else c1
    let c2 := withConfig s u (if auFast s u && lpmAct s then setFlag c3 fLpm else c3)
    let s0 := if s.on R.MEM_STAT_TRAINED then numberRows u c.first rb cap s pre 0 else s
    let s1 := { s0 with dr := { s0.dr with seqBack := s.dr.seqBack.filter fun e => e.1 != (u, slot) } }
    let s2 := setAu s1 u { x with cur := some c2, num := pre, slots := mput x.slots slot { first := c.first, len := 0, cap := cap, order := x.made } }
    let s3 := ((s2.clrBit (R.REC_AUu_VALID_COMPLETE u) slot).setBit (R.REC_AUu_VALID_VALID u) slot).wr (R.REC_AUu_STAT_NEWEST u) slot
    let s4 := (setAuState s3 u 3).inc (R.REC_AUu_CNT_RECORDS u)
    let s5 := if s.on (R.REC_AUu_CFG_TXTWIN u) then
        { s4 with twn := { s4.twn with records := (s4.twn.records + 1) % 65536, aus := s4.twn.aus ||| 2 ^ u } } else s4
    (writeHead s5 u c2 false).logEv 0x0C 1 (leBytes 4 u) 0 (.recHeader u slot)

/-- At most once per second on TB2. -/
def secondOver (s : State) (t : Option Nat) : Bool := match t with | some x => decide (x + 1000000000 ≤ s.tb2Ns) | none => true

/-- A trigger in hold-off (R388). -/
def holdTrigger (s : State) (u : Nat) : State :=
  let x := auOf s u
  let s1 := s.sat1 (R.REC_AUu_CNT_HOLDTRIG u)
  if secondOver s x.holdLog then recEvt (setAu s1 u { x with holdN := x.holdN + 1, unsent := 0, holdLog := some s.tb2Ns }) 3 u (x.unsent + 1)
  else setAu s1 u { x with holdN := x.holdN + 1, unsent := x.unsent + 1 }

/-- A trigger in POST (R387): ignored and counted, or the last row moves; a record ends at the last row that fits. -/
def retrigger (s : State) (u : Nat) (c : CurRec) (kept : Bool) : State :=
  if !s.on (R.REC_AUu_CFG_RETRIG u) then s.sat1 (R.REC_AUu_CNT_LOST u)
  else
    let want := c.count + (if kept then 1 else 0) + auPost s u - 1
    let fit := circle s u / max 1 (rowBytes s u)
    if want ≤ c.last then setAu s u { auOf s u with cur := some { c with begun := false } }
    else
      let c1 := setFlag { c with last := min want fit, begun := false } fExtended
      setAu s u { auOf s u with cur := some (if fit < want then setFlag c1 fTrunc else c1) }

/-- A triggering row, by the AU's state. -/
def applyTrigger (s : State) (u : Nat) (r : SrcRow) (kept : Bool) (units masks : Nat) : State :=
  match auState s u, (auOf s u).cur with
  | 1, _ => startRecord s u r units masks
  | 2, _ => startRecord s u r units masks
  | 3, some c => if c.count < c.last then retrigger s u c kept else holdTrigger s u
  | 4, _ => holdTrigger s u
  | 5, _ => stallTrigger s u
  | _, _ => s

/-- A mask stop (R390). -/
def applyStop (s : State) (u : Nat) (r : SrcRow) (units masks : Nat) : State :=
  let s1 := if auState s u = 1 ∨ auState s u = 2 then startRecord s u r units masks else s
  match auState s1 u, (auOf s1 u).cur with
  | 3, some c =>
    if c.count < c.last then setAu s1 u { auOf s1 u with cur := some (setFlag { c with last := c.count + 1 } fStopped) } else s1
  | 4, _ => holdTrigger s1 u
  | _, _ => s1

/-- A row that a full staging buffer loses (R382). -/
def loseRow (s : State) (u : Nat) : State :=
  let x := auOf s u
  let gap := x.cur.map fun c => setFlag c fGap
  let s1 := (setAu s u { x with cur := gap, num := x.num + 1 }).wrb (R.REC_AUu_STAT_OVF_STK u) true
  if secondOver s x.ovfLog then recEvt (setAu s1 u { auOf s1 u with ovfLog := some s.tb2Ns }) 2 u 0 else s1

/-- The bytes in the staging buffer of an AU (R382). -/
def stagedBytes (s : State) (u : Nat) : Nat := (auOf s u).stg.foldl (fun n e => n + e.2.length) 0

/-- DRAM takes the rows of the staging buffer, oldest first (R382), once it is in use (R519). -/
def drainStage (s : State) (u : Nat) : State :=
  if s.on R.MEM_STAT_TRAINED then
    let s1 := (auOf s u).stg.foldl (fun a e => dramPutWords a e.1 e.2) s
    setAu s1 u { auOf s1 u with stg := [] }
  else s

/-- A kept row passes the staging buffer on its way to DRAM (R382). -/
def storeRow (s : State) (u : Nat) (r : SrcRow) : State :=
  let x := auOf s u
  let rb := rowBytes s u
  let trig := match x.cur with | some c => !c.begun | none => false
  let step := s.dr.step.contains u
  let w1 := (if trig then 2 ^ 31 else 0) + (if step then 2 ^ 30 else 0) + s.rd R.TIM_ACT_STAT_TQ * 2 ^ 28 + x.num % 2 ^ 28
  let b := leBytes 4 r.t ++ leBytes 4 w1 ++ r.words.flatMap fun w => leBytes 4 w.toNat
  let cur := x.cur.map fun c =>
    let c1 := { c with begun := true, firstAct := if c.count = 0 then r.t else c.firstAct, count := if c.count < c.last then c.count + 1 else c.count }
    if step && decide (c.count < c.last) then setFlag c1 fStep else c1
  let within := match x.cur with | some c => decide (c.count < c.last) | none => false
  let ends := match x.cur with | some c => decide (c.count + 1 = c.last) | none => false
  let s2 := setAu s u { x with cur := cur, num := if ends then 0 else x.num + 1, pos := (x.pos + rb) % max 1 (circle s u),
                                store := if within then 0 else x.store + 1, times := (r.t :: x.times).take (auPre s u),
                                stg := x.stg ++ [(partBase s u + 0x10000 + x.pos, padTo rb b)] }
  let s3 := drainStage { s2 with dr := { s2.dr with step := s2.dr.step.filter (· ≠ u) } } u
  if auState s3 u = 1 ∧ auPre s u ≤ (auOf s3 u).store then setAuState s3 u 2 else s3

/-- Before the first byte of a record is overwritten its VALID clears; a pinned one stalls the writer (R391). -/
def writeRow (s : State) (u : Nat) (r : SrcRow) : State :=
  if auState s u = 5 then s
  else
    let hits := hitSlots s u
    let pinned := s.rd (R.REC_AUu_PIN_PIN u)
    if hits.any fun k => pinned.testBit k then
      recEvt ((setAuState (cutRecord s u) u 5).wrb (R.REC_AUu_STAT_STALL_STK u) true) 4 u 0
    else
      let s1 := hits.foldl (fun a k => a.clrBit (R.REC_AUu_VALID_VALID u) k) s
      if !s.on R.MEM_STAT_TRAINED && decide (65536 < stagedBytes s u + rowBytes s u) then loseRow s1 u else storeRow s1 u r

/-- A source row of an armed AU (R380, R384 to R391): masks, triggers, a stop after a trigger, then the row if it is kept. -/
def sourceRow (s : State) (u : Nat) (r : SrcRow) : State :=
  if auState s u = 0 then s
  else
    let ev := (s.dr.ev.filter fun e => e.1 == u).map fun e => (e.2.1, e.2.2)
    let s0 := { s with dr := { s.dr with ev := s.dr.ev.filter fun e => e.1 != u } }
    let kept := decide ((auOf s0 u).src % auK s0 u = 0)
    let mk := (List.range 8).foldl (maskStep u r) (s0, [])
    let s1 := mk.1
    let tr := trgAll s1 u r ev mk.2
    let hit := auTriggered s1 u tr.1 tr.2 mk.2
    let masks := bitmap 8 fun m => mk.2.contains m
    let s2 := setAu s1 u { auOf s1 u with trg := tr.1, andWas := hit.2, src := (auOf s1 u).src + 1 }
    let s3 := if hit.1 then applyTrigger s2 u r kept tr.2 masks else s2
    let s4 := if mk.2.any fun m => s.on (R.REC_AUu_MSKm_CFG_ACT u m) then applyStop s3 u r tr.2 masks else s3
    if kept then writeRow s4 u r else s4

/-- The grid-mode AUs of FTG `g` form a row at a grid close (R376). -/
def recClose (s : State) (g : Nat) (i : Inst) : State :=
  (List.range 4).foldl (fun a u =>
    if auState a u != 0 && !auFast a u && a.rd (R.REC_AUu_CFG_FTG u) == g then let q := gridRow a u i; sourceRow q.2 u q.1 else a) s

end Sys2Proof.Machine
end

