-- ==== Sys2Proof/Machine/Esp.lean ====
section
/-! DEFINITION. Espalier at grid close (R148 to R166): fills, instant records, the phasor units and the starters that the
notification drives (R240 to R245, R254 to R257), the frequency measurement, and configuration changes. -/

namespace Sys2Proof.Machine

/-! ### Starters (R254 to R257) -/

/-- Does one channel meet the comparison; none where it is excluded (R254). -/
def strChannel (s : State) (b m t nn closed : Nat) : Option Bool × State :=
  let fm := s.rd (R.THN_BAYb_CFG_FMASK b)
  let thr := BitVec.ofNat 32 (s.rd (R.THN_BAYb_THR_THR b))
  let x := espRead s m (t % 512)
  if !s.on (R.THN_BAYb_CFG_SMODE b) then
    (if x.1.2 &&& fm != 0 then none else some (F32.le thr (F32.abs x.1.1)), x.2)
  else if closed < nn then (none, x.2)
  else
    let y := espRead x.2 m ((t + tickMod - nn) % tickMod % 512)
    (if x.1.2 &&& fm != 0 || y.1.2 &&& fm != 0 then none
     else some (F32.le thr (F32.abs (F32.sub x.1.1 y.1.1))), y.2)

/-- The channels of CHMASK in turn: does one exceed, were all excluded? -/
def strScan (b t nn closed : Nat) (chs : List Nat) (s : State) : (Bool × Bool) × State :=
  chs.foldl (fun a m =>
    let r := strChannel a.2 b m t nn closed
    ((a.1.1 || r.1 == some true, a.1.2 && r.1.isNone), r.2)) ((false, true), s)

/-- HOLD of bay `b` in ns: larger values act as 1,000 ms. -/
def holdNs (s : State) (b : Nat) : Nat := min 1000 (s.rd (R.THN_BAYb_TIM_HOLD b)) * 1000000

/-- Bay `b`'s starter evaluates at a notification (R254 to R256). A starter with no channel selected never exceeds and does not
fail (assumption 25). -/
def starter (t nn closed : Nat) (s : State) (b : Nat) : State :=
  let mask := s.rd (R.THN_BAYb_CFG_CHMASK b)
  let chs := ((List.range 8).filter mask.testBit).map (8 * b + ·)
  let r := strScan b t nn closed chs s
  let fail := r.1.2 && !chs.isEmpty
  let exc := r.1.1 || (fail && s.on (R.THN_BAYb_CFG_FAILMODE b))
  let s1 := r.2
  let s2 := if fail then
      let a := if s1.on (R.THN_BAYb_STAT_STRFAIL b) then s1 else s1.logIx 0x0A 2 b
      ((a.wrb (R.THN_BAYb_STAT_STRFAIL b) true).wrb (R.THN_BAYb_STAT_STRFAIL_STK b) true).wrb R.THN_STAT_STRFAIL_STK true
    else s1.wrb (R.THN_BAYb_STAT_STRFAIL b) false
  let was := s2.on (R.THN_BAYb_STAT_PERMIT b)
  if exc then
    let s3 := { s2 with thn := { s2.thn with lastExc := mput s2.thn.lastExc b s2.tb2Ns } }
    if was then s3
    else ((s3.wrb (R.THN_BAYb_STAT_PERMIT b) true).wrb (R.THN_BAYb_STAT_PERMIT_STK b) true).sat1 (R.THN_BAYb_STAT_PICKUPS b)
  else if was && decide (mget s2.thn.lastExc b 0 + holdNs s2 b ≤ s2.tb2Ns) then s2.wrb (R.THN_BAYb_STAT_PERMIT b) false
  else s2

/-! ### Frequency measurement (R149 to R152) -/

/-- The samples of a source at one instant: none where a sample carries U, O or I; the phases' sequence sum of R150. -/
def srcSample (s : State) (one : Bool) (c0 c1 c2 slot : Nat) : Option F32.Cx × State :=
  let ok (fl : Nat) : Bool := fl &&& 0xC8 == 0
  let a := espRead s c0 slot
  if one then (if ok a.1.2 then some (a.1.1, 0) else none, a.2)
  else
    let b := espRead a.2 c1 slot
    let c := espRead b.2 c2 slot
    if ok a.1.2 && ok b.1.2 && ok c.1.2 then
      let y := F32.cadd (F32.cadd (a.1.1, 0) (F32.cmul seqA (b.1.1, 0))) (F32.cmul (F32.cmul seqA seqA) (c.1.1, 0))
      (some (F32.div y.1 0x40400000#32, F32.div y.2 0x40400000#32), c.2)
    else (none, c.2)

/-- The cycle phasor over slots in time order (R150); none where a sample is not clean. -/
def cycPhasor (one : Bool) (c0 c1 c2 nn : Nat) : Nat → List Nat → Option F32.Cx → State → Option F32.Cx × State
  | _, [], p, s => (p, s)
  | j, x :: t, p, s =>
    let r := srcSample s one c0 c1 c2 x
    let p1 := match p, r.1 with
      | some a, some y => some (F32.cadd a (F32.cmul y (F32.twiddle nn j)))
      | _, _ => none
    cycPhasor one c0 c1 c2 nn (j + 1) t p1 r.2

/-- The phase of a source, where it is valid for the cycle (R149), by carg (R220). -/
def srcPhase (s : State) (one : Bool) (c0 c1 c2 nn : Nat) (slots : List Nat) (mn : Word) : Option Word × State :=
  let r := cycPhasor one c0 c1 c2 nn 0 slots (some (0, 0)) s
  match r.1 with
  | none => (none, r.2)
  | some p =>
    if F32.le mn (F32.mul (F32.cabs p) (F32.sqrt2Over nn)) then
      (some (F32.carg p (F32.argErr p)), r.2)
    else (none, r.2)

def piW : Word := 0x40490FDB#32
def twoPiW : Word := 0x40C90FDB#32

/-- wrap of R150. -/
def wrapPi (x : Word) : Word :=
  if F32.lt piW x then F32.sub x twoPiW else if F32.le x (F32.neg piW) then F32.add x twoPiW else x

/-- A positive binary32 in Hz as µHz, rounded to the nearest. -/
def toMicro (w : Word) : Nat :=
  match F32.unpack w with
  | .fin false m e => if 0 ≤ e then m * 2 ^ e.toNat * 1000000 else (m * 1000000 + 2 ^ (-e).toNat / 2) / 2 ^ (-e).toNat
  | _ => 0

/-- f_meas of R150 in µHz. -/
def fMeas (f : Nat) (th prev : Word) : Nat :=
  toMicro (F32.mul (F32.ofRat f 1000000) (F32.add 0x3F800000#32 (F32.div (wrapPi (F32.sub th prev)) twoPiW)))

/-- STEP in µHz per cycle: 0 acts as 1 mHz, values above 10,000 as 10,000. -/
def stepU (s : State) (g : Nat) : Nat := clamp 1 10000 (s.rd (R.ESP_FTGg_TRK_STEP g)) * 1000

/-- The cycle two on takes its grid frequency (R151, R152). -/
def putCyc (s : State) (g k : Nat) (c : Cyc) : State :=
  modFtg s g fun f => { f with cyc := mput (f.cyc.filter fun e => decide (k ≤ e.1 + 4)) k c }

/-- A usable measurement in tracking mode (R151). -/
def trackTo (s : State) (g k fm : Nat) (cur : Bool) : State :=
  let f1 := cycF s g (k + 1)
  let st := stepU s g
  let pre : Int := (f1 : Int) + clampI (-(st : Int)) st ((fm : Int) - f1)
  let s1 := putCyc s g (k + 2) { f := clamp 40000000 70000000 pre.toNat,
                                 limit := decide (pre < 40000000) || decide (70000000 < pre), fall := cur }
  (modFtg s1 g fun f => { f with miss := 0 }).wr (R.ESP_FTGg_STAT_STATE g) (if cur then 2 else 1)

/-- No usable measurement in tracking mode (R152): HOLD for HOLDC cycles, f_g held in each, then DRIFT (R170; DEDUCED, assumption 128). -/
def holdTo (s : State) (g k : Nat) : State :=
  let f1 := cycF s g (k + 1)
  let miss := (espFtg s g).miss + 1
  let drift := decide (max 1 (s.rd (R.ESP_FTGg_CFG_HOLDC g)) < miss)
  let nom := ftgFnom s g * 1000000
  let st := stepU s g
  let f2 := if !drift then f1 else if f1 ≤ nom then min nom (f1 + st) else max nom (f1 - st)
  let was := s.rd (R.ESP_FTGg_STAT_STATE g)
  let s1 := modFtg (putCyc s g (k + 2) { f := f2, hold := true }) g fun f => { f with miss := miss }
  let s2 := if was = 1 ∨ was = 2 then s1.wrb (R.ESP_FTGg_STAT_HOLD_STK g) true else s1
  s2.wr (R.ESP_FTGg_STAT_STATE g) (if drift then 4 else 3)

/-- The measurement at the close of a cycle's last tick (R149 to R152): f_meas is formed where a source was valid in this cycle and the
one before, and usable where neither holds an instant with STEP. A cycle that forms none leaves FMEAS as it is and clears VALID
(DEDUCED, assumption 128). -/
def measure (s : State) (g : Nat) (i : Inst) : State :=
  let cyc := ((espFtg s g).insts.filter fun x => x.cyc == i.cyc).reverse
  let slots := cyc.map fun x => x.tick % 512
  let stepped := cyc.any fun x => x.fw.testBit 27
  let v := srcPhase s (s.on (R.ESP_FTGg_TRK_VMODE g)) (s.rd (R.ESP_FTGg_VSRC_C0 g)) (s.rd (R.ESP_FTGg_VSRC_C1 g))
    (s.rd (R.ESP_FTGg_VSRC_C2 g)) i.n slots (BitVec.ofNat 32 (s.rd (R.ESP_FTGg_VMIN_VMIN g)))
  let c := srcPhase v.2 (s.on (R.ESP_FTGg_TRK_IMODE g)) (s.rd (R.ESP_FTGg_ISRC_C0 g)) (s.rd (R.ESP_FTGg_ISRC_C1 g))
    (s.rd (R.ESP_FTGg_ISRC_C2 g)) i.n slots (BitVec.ofNat 32 (s.rd (R.ESP_FTGg_IMIN_IMIN g)))
  let f := espFtg c.2 g
  let clean := !stepped && !f.lastStep
  let pick : Option (Nat × Bool) :=
    match v.1, f.thV, c.1, f.thI with
    | some a, some b, _, _ => some (fMeas (i.fw % 2 ^ 27) a b, false)
    | _, _, some a, some b => some (fMeas (i.fw % 2 ^ 27) a b, true)
    | _, _, _, _ => none
  let s1 := setFtg c.2 g { f with thV := v.1, thI := c.1, lastStep := stepped }
  match pick with
  | some (fm, cur) =>
    let s2 := (s1.wrb (R.ESP_FTGg_FMEAS_VALID g) clean).wr (R.ESP_FTGg_FMEAS_FMEAS g) fm
    let fixed := i.fw.testBit 28 || ftgFixed s2 g
    if !clean then (if fixed then s2 else holdTo s2 g i.cyc)
    else if fixed then modFtg s2 g fun f => { f with miss := 0 } else trackTo s2 g i.cyc fm cur
  | none =>
    let s2 := s1.wrb (R.ESP_FTGg_FMEAS_VALID g) false
    if i.fw.testBit 28 || ftgFixed s2 g then s2 else holdTo s2 g i.cyc

/-! ### Grid close (R162 to R166) -/

/-- A missing sample is filled (R164): the previous slot's value, 0.0 where its parity is wrong (R161). -/
def fillChannel (g : Nat) (i : Inst) (s : State) (m : Nat) : State :=
  let slot := i.tick % 512
  let prev := (slot + 511) % 512
  let bad := s.parBad.contains (valAddr m prev)
  let s1 := if bad then parityErr s (valAddr m prev - espValBase + 0x40000) else s
  let v := if bad then 0 else s.rdW (valAddr m prev)
  (phStored (espStore s1 m slot v (8 + limitQ i)) m i).inc (R.ESP_FTGg_FILL_FILL g)

/-- The stamp of an instant, rounded to the nearest ns (R154). -/
def stampOf (i : Inst) : Nat := (i.t + nsU / 2) / nsU

/-- The instant record and the registers of a close (R158, R166). -/
def writeRecord (s : State) (g : Nat) (i : Inst) : State :=
  let slot := i.tick % 512
  let s1 := espPut s (espInstBase + 16 * (512 * g + slot)) (leBytes 8 (stampOf i) ++ leBytes 4 i.tick ++ leBytes 4 i.fw)
  let lag := min ((actU s - i.t) / nsU) 0xFFFFFFFF
  let s2 := ((s1.wrb (R.ESP_FTGg_HEAD_VALID g) true).wr (R.ESP_FTGg_HEAD_SLOT g) slot).wr (R.ESP_FTGg_LAG_LAG g) lag
  (s2.wr (R.ESP_FTGg_LAGMAX_LAGMAX g) (max lag (s2.rd (R.ESP_FTGg_LAGMAX_LAGMAX g)))).wr (R.ESP_FTGg_FREQ_FREQ g) i.fw

/-- Grid close of an instant: fills, record, starters, measurement, notification, recorder rows (R162 to R166, R376). -/
def closeTick (s : State) (g : Nat) (i : Inst) : State :=
  let s1 := ((chsOf s g).filter fun m => !i.written.contains m).foldl (fillChannel g i) s
  let s2 := writeRecord s1 g i
  let closed := (espFtg s2 g).closedN + 1
  let s3 := modFtg s2 g fun f =>
    let f1 := setInst f { i with done := true }
    { f1 with closedN := closed, closedAt := some s2.tb2Ns }
  let s5 := ((groupsOf s3 g).flatMap fun n => [3 * n, 3 * n + 1, 3 * n + 2]).foldl (starter i.tick i.n closed) s3
  let s6 := setLive (gateUpdate s5) (ptFtg g) (BitVec.ofNat 32 i.fw) (limitQ i)
  let s7 := if (i.tick + 1) % i.n = 0 then measure s6 g i else s6
  recClose ((groupsOf s7 g).foldl (fun a n => tickNotify a n i.tick (stampOf i) i.fw i.n) s7) g i

/-- GRID_CLOSE: the last sample of the waiting set of the FTG's oldest open tick has been written (R162, R166). -/
def execGridClose (g : Fin 4) (s : State) : Host.Outcome State Fault Refusal :=
  .next <|
    match oldestOpen (espFtg s g) with
    | some i => if complete s g i then closeTick s g i else s
    | none => s

/-- TICK_DEADLINE: the oldest open tick's effective deadline has passed with a sample missing (R163, R164). -/
def execTickDeadline (g : Fin 4) (s : State) : Host.Outcome State Fault Refusal :=
  .next <|
    match oldestOpen (espFtg s g) with
    | some i =>
      if complete s g i || decide (actU s < i.t + dlnNs s g * nsU) then s
      else closeTick (s.sat1 (R.ESP_FTGg_CNT_DLCLOSE g)) g i
    | none => s

/-! ### Configuration (R148) -/

/-- Would a configuration break R99 on a running local resampler of the FTG? -/
def cfgBreaks (s : State) (g : Nat) (fixed : Bool) (fnom n : Nat) : Bool :=
  (chsOf s g).any fun m => rsRun s m && isLocal s m &&
    !rateOk (tmNs (lpmAct s)) (nhbOf s (srcOf s m)) (nOfCode n) (fMax fixed fnom)

/-- MODE, FNOM and N take values. -/
def storeCfg (s : State) (g : Nat) (fixed : Bool) (fnom n : Nat) : State :=
  ((s.wrb (R.ESP_FTGg_CFG_MODE g) fixed).wr (R.ESP_FTGg_CFG_FNOM g) fnom).wr (R.ESP_FTGg_CFG_N g) n

/-- FTG_CONFIG_WRITE: a write of N, MODE, FNOM (R147, R148); N codes 9 to 15 leave N as it is. DESIGN CHOICE (unsafe; assumption 180): a further
accepted write replaces a change that waits, and one equal to the configuration in effect cancels it. -/
def execFtgConfigWrite (g : Fin 4) (fixed : Bool) (fnom : Fin 2) (n : Fin 16) (s : State) : Host.Outcome State Fault Refusal :=
  .next <|
    let n1 := if n.val < 9 then n.val else s.rd (R.ESP_FTGg_CFG_N g)
    if s.on R.ESP_CTL_LOCK then s
    else if !ftgOn s g || !(espFtg s g).started then storeCfg s g fixed fnom n1
    else if cfgBreaks s g fixed fnom n1 then (s.wrb (R.ESP_FTGg_STAT_CFG_REFUSED g) true).logIx 0x08 1 g
    else
      let same := ftgFixed s g == fixed && fnomOf s g == fnom.val && s.rd (R.ESP_FTGg_STAT_NACT g) == n1
      modFtg (storeCfg s g fixed fnom n1) g fun f => { f with cfg := if same then none else some (fixed, fnom.val, n1) }

/-- What a change of N restarts: resamplers of the FTG's channels and the phasor units (R148, R245). -/
def restartGrid (s : State) (g : Nat) : State :=
  let s1 := ((chsOf s g).filter (rsRun s)).foldl restartRs s
  { s1 with ph := s1.ph.filter fun e => !(groupsOf s g).contains e.1 }

/-- FTG_CONFIG_EFFECT: the first instant under an accepted configuration is reached (R148): it follows the previous one by the new
T_g, or lies on the new lattice; it carries STEP; a change of N restarts the tick index. DESIGN CHOICE (unsafe; assumption 181): after a change
from fixed to tracking the FTG stands in HOLD at f_nom, with no cycle missing. -/
def execFtgConfigEffect (g : Fin 4) (s : State) : Host.Outcome State Fault Refusal :=
  .next <|
    let f := espFtg s g
    match f.cfg with
    | none => s
    | some (fixed, fnom, n) =>
      if f.next % ftgN s g ≠ 0 ∨ !f.started then s
      else
        let newN := n != s.rd (R.ESP_FTGg_STAT_NACT g)
        let wasFixed := ftgFixed s g
        let s1 := (s.wr (R.ESP_FTGg_STAT_NACT g) n).wrb (R.ESP_FTGg_STAT_MODEACT g) fixed
        let s2 := setFtg s1 g { f with cfg := none, fnom := fnom, step := true, next := if newN then 0 else f.next, miss := if fixed == wasFixed then f.miss else 0,
                                       closedN := if newN then 0 else f.closedN,
                                       cyc := if fixed == wasFixed then f.cyc else [] }
        let t := match f.prev with
          | some t => nextInstant s2 g t f.cycNo
          | none => latticeAfter (f.nextT - 1) (ftgN s2 g * ftgFnom s2 g)
        if actU s < t then s
        else
          let s3 := modFtg s2 g fun x => { x with nextT := t }
          let s4 := if fixed then s3.wr (R.ESP_FTGg_STAT_STATE g) 5
            else if wasFixed then s3.wr (R.ESP_FTGg_STAT_STATE g) 3 else s3
          placeInstant (if newN then restartGrid s4 g else s4) g

/-! ### Sources (R149) -/

/-- Would a source with these channels use one outside FTG `g`? -/
def srcOutside (s : State) (g : Nat) (one : Bool) (c0 c1 c2 : Nat) : Bool :=
  let l := chsOf s g
  !(l.contains c0 && (one || (l.contains c1 && l.contains c2)))

end Sys2Proof.Machine
end

