-- ==== Sys2Proof/Machine/Sec.lean ====
section
/-! DEFINITION. Identity, ownership, image checks, staging, frame-authentication keys and tamper (R438 to R453). -/

namespace Sys2Proof.Machine

def setSec (s : State) (c : Sec) : State := { s with sec := c }

/-- Bytes of SEC_BUF. -/
def secBuf (s : State) : List Byte := (List.range 64).flatMap fun w => leBytes 4 (s.rd (R.SEC_BUFw_WORD w))

/-- SEC_BUF takes bytes from word `w` on. -/
def putSecBuf (w : Nat) : List Byte → State → State
  | b0 :: b1 :: b2 :: b3 :: t, s => putSecBuf (w + 1) t (s.wr (R.SEC_BUFw_WORD w) (leNat [b0, b1, b2, b3]))
  | _, s => s

/-- The unique device ID. -/
def devId (s : State) : Nat := s.rd64 R.SEC_DEVID_LO_DEVID R.SEC_DEVID_HI_DEVID

/-! ### Hermar images in MRAM (R44, R444, R463) -/

/-- Where a slot begins: 0 A, 1 B. -/
def slotBase (slot : Nat) : Nat := mramBase + slot * 0x400000

/-- The `n`-byte number at offset `o` of a slot's header. -/
def hdr (s : State) (slot o n : Nat) : Nat := leNat (s.rdMem (slotBase slot + o) n)

/-- Length of the signed region. -/
def signedLen (s : State) (slot : Nat) : Nat := hdr s slot 8 4

/-- Magic, format and length of a header (FAILA code HEADER). -/
def headerOk (s : State) (slot : Nat) : Bool :=
  hdr s slot 0 4 == 0x484D5249 && hdr s slot 4 4 == 0x01000001 && decide (256 ≤ signedLen s slot)
    && decide (signedLen s slot ≤ 4194240) && decide (1 ≤ hdr s slot 0x3C 4) && decide (hdr s slot 0x3C 4 ≤ 1024)

/-- Does the 64-byte trailer after the signed region verify with the owner key over the SHA-256 of that region (R444)? -/
def imageSig (s : State) (slot : Nat) : Bool :=
  ecdsaOk s.sec.owner (sha256 (s.rdMem (slotBase slot) (signedLen s slot))) (s.rdMem (slotBase slot + signedLen s slot) 64)

/-- The verdict on an image in a slot as a FAILA code (R444, R477): 0 good; `sigOk` is the ECDSA verdict. -/
def imageVerdict (s : State) (slot : Nat) (sigOk : Bool) : Nat :=
  if !headerOk s slot then 1
  else if !s.on R.SEC_LC_OWNER || !sigOk then 2
  else if hdr s slot 0x10 8 ≠ 0 ∧ hdr s slot 0x10 8 ≠ devId s then 3
  else if hdr s slot 0x0C 4 < s.rd R.SEC_MINVER_MINVER then 4
  else 0

/-- The image identity (R444): 28 bytes of the SHA-256 of the signed region, then the version, big-endian. -/
def identOf (s : State) (slot : Nat) : List Byte :=
  (sha256 (s.rdMem (slotBase slot) (signedLen s slot))).take 28 ++ beBytes 4 (hdr s slot 0x0C 4)

/-! ### Operations (R440 to R447, R453) -/

/-- An operation starts: ignored while BUSY (R453); after a sensor has fired ATTEST, TOKEN and ENROLL are refused (R450). -/
def secStart (s : State) (op : Nat) : State :=
  if s.on R.SEC_STAT_BUSY then s
  else
    let tamper := s.on R.SEC_STAT_TAMP_STK && (op == 1 || op == 2 || op == 4)
    (setSec s { s.sec with op := op, early := if tamper then 10 else 0 }).wrb R.SEC_STAT_BUSY true

/-- ATTEST (R440). -/
def execAttest (s : State) : Host.Outcome State Fault Refusal := .next (secStart s 1)

/-- A command token (R443): SEC_CMD.OP = TOKEN with the token in SEC_BUF; which command it is, its byte 0x10 says. -/
def execAdvance (s : State) : Host.Outcome State Fault Refusal := .next (secStart s 2)

/-- A REKEY token (R443), as for `execAdvance`. -/
def execRekey (s : State) : Host.Outcome State Fault Refusal := .next (secStart s 2)

/-- An RMA token (R443), as for `execAdvance`. -/
def execRma (s : State) : Host.Outcome State Fault Refusal := .next (secStart s 2)

/-- A MINVER token (R443), as for `execAdvance`. -/
def execMinver (s : State) : Host.Outcome State Fault Refusal := .next (secStart s 2)

/-- The slot and length of the staging registers. -/
def stgSlot (s : State) : Nat := s.rd R.SEC_STG_CFG_SLOT
def stgLen (s : State) : Nat := s.rd R.SEC_STG_CFG_LEN

/-- STAGE (R445): refused for the running slot or while an exchange is not IDLE; a length outside 64 to 4,194,304 is refused with
FORMAT (assumption 31), and so is any while DRAM is not in use (R519); else the slot's first 64 bytes are zeroed. -/
def execStage (s : State) : Host.Outcome State Fault Refusal :=
  .next <|
    if s.on R.SEC_STAT_BUSY then s
    else
      let s0 := secStart s 3
      let s1 := setSec s0 { s0.sec with stg := (stgSlot s, s.rd64 R.SEC_STG_ADDR_LO_ADDR R.SEC_STG_ADDR_HI_ADDR, stgLen s) }
      if (s.on R.GLB_BOOT_DONE && s.rd R.GLB_BOOT_SLOT == stgSlot s) || s.rd R.SCH_EXCH_STAT_STATE != 0 then
        setSec s1 { s1.sec with early := 8 }
      else if stgLen s < 64 ∨ 4194304 < stgLen s ∨ s.on R.MEM_STAT_TRAINED = false then setSec s1 { s1.sec with early := 9 }
      else { s1 with mem := memClear s1.mem (slotBase (stgSlot s)) (slotBase (stgSlot s) + 64) }

/-- ENROLL (R442). -/
def execEnroll (s : State) : Host.Outcome State Fault Refusal := .next (secStart s 4)

/-- KEYLOAD (R447). -/
def execKeyload (s : State) : Host.Outcome State Fault Refusal := .next (secStart s 5)

/-- KEYCLR (R447). -/
def execKeyclr (s : State) : Host.Outcome State Fault Refusal := .next (secStart s 6)

/-- The report that ATTEST signs (R440). -/
def attestReport (s : State) : List Byte :=
  leBytes 4 0x53454341 ++ leBytes 4 (2 ^ 16 + s.rd R.SEC_LC_STATE * 256 + s.rd R.SEC_TAMP_LIVE)
    ++ leBytes 8 (devId s) ++ ((secBuf s).drop 16).take 32 ++ leBytes 32 s.img.ident ++ leBytes 4 (s.rd R.GLB_BOOT_SLOT)
    ++ leBytes 4 (s.rd R.SEC_MINVER_MINVER) ++ leBytes 8 s.tb2Ns ++ leBytes 8 (s.rd64 R.YEW_NEXT_LO_NEXT R.YEW_NEXT_HI_NEXT)
    ++ padTo 24 []

/-- ATTEST completes: the report with the device key's signature over it (R440). The random number of the signature is a free one of 1 to
n − 1 (assumption 59). -/
def attestDone (s : State) : State :=
  let p := s.fresh 256
  let b := attestReport s
  putSecBuf 0 (b ++ ecdsaSign s.sec.priv (p.1.toNat % (p256n - 1) + 1) (sha256 b)) p.2

/-- Does the signature in a token verify with the owner key over the SHA-256 of its bytes 0x00 to 0x5F (R443)? -/
def tokenSig (s : State) : Bool :=
  let b := secBuf s
  ecdsaOk s.sec.owner (sha256 (b.take 96)) ((b.drop 96).take 64)

/-- Does the point in SEC_BUF lie on the curve (R442)? -/
def enrollPoint (s : State) : Bool :=
  let b := secBuf s
  onP256 (beNat (b.take 32)) (beNat ((b.drop 32).take 32))

/-- Token fields (R443). -/
def tokCommand (b : List Byte) : Nat := leNat ((b.drop 16).take 4)
def tokMinver (b : List Byte) : Nat := leNat ((b.drop 32).take 4)

/-- RESULT of a token (R443): the checks in their order. -/
def tokenCheck (s : State) (b : List Byte) (sigOk : Bool) : Nat :=
  let st := s.rd R.SEC_LC_STATE
  let cmd := tokCommand b
  if !s.on R.SEC_LC_OWNER then 5
  else if leNat (b.take 4) ≠ 0x53454354 ∨ !sigOk then 2
  else if leNat ((b.drop 8).take 8) ≠ devId s then 3
  else if leNat ((b.drop 4).take 4) ≠ s.rd R.SEC_NONCE_NONCE then 4
  else if !((cmd == 1 && st == 1) || (cmd == 3 && st == 2) || ((cmd == 2 || cmd == 4) && (st == 1 || st == 2))) then 6
  else if cmd = 4 ∧ tokMinver b < s.rd R.SEC_MINVER_MINVER then 7
  else 1

/-- What an accepted token does (R441, R443). RMA zeroes the key slots; that a slot has had a key, R449 goes on counting. -/
def tokenAct (s : State) (b : List Byte) : State :=
  match tokCommand b with
  | 1 => s.wr R.SEC_LC_STATE 2
  | 2 => setSec s { s.sec with owner := (b.drop 32).take 64 }
  | 3 => setSec (s.wr R.SEC_LC_STATE 3) { s.sec with slots := s.sec.slots.map fun e => (e.1, { had := e.2.had || e.2.cur.isSome }) }
  | _ => s.wr R.SEC_MINVER_MINVER (tokMinver b)

/-- A new random SEC_NONCE. -/
def renewNonce (s : State) : State := let p := s.fresh 32; p.2.wr R.SEC_NONCE_NONCE p.1.toNat

/-- A token's check ends with `r` (R443, R451). -/
def tokenDone (s : State) (sigOk : Bool) : State × Nat :=
  let b := secBuf s
  if s.sec.early ≠ 0 then (s.logEv 0x0D 1 (leBytes 1 (tokCommand b) ++ leBytes 1 s.sec.early), s.sec.early)
  else
    let r := tokenCheck s b sigOk
    ((renewNonce (if r = 1 then tokenAct s b else s)).logEv 0x0D 1 (leBytes 1 (tokCommand b) ++ leBytes 1 r), r)

/-- The staged copy: the bytes of DRAM in the slot, its header written last (R445). -/
def stageCopy (s : State) : State :=
  let d := dramGet s s.sec.stg.2.1 s.sec.stg.2.2
  d.2.wrMem (slotBase s.sec.stg.1) d.1

/-- STAGE completes: the copy, the header last, and R444; a slot that fails keeps its zeroed header (R445). -/
def stageDone (s : State) (sigOk : Bool) : State × Nat :=
  if s.sec.early ≠ 0 then (s, s.sec.early)
  else
    let slot := s.sec.stg.1
    let s1 := stageCopy s
    let v := imageVerdict s1 slot sigOk
    if v = 0 then (s1, 1)
    else ({ s1 with mem := memClear s1.mem (slotBase slot) (slotBase slot + 64) },
      match v with | 1 => 9 | 2 => 2 | 3 => 3 | _ => 7)

/-- ENROLL completes (R442); `onCurve`: the point lies on the curve. -/
def enrollDone (s : State) (onCurve : Bool) : State × Nat :=
  if s.sec.early ≠ 0 then (s, s.sec.early)
  else if s.rd R.SEC_LC_STATE ≠ 0 then (s, 6)
  else if !onCurve then (s, 9)
  else ((setSec s { s.sec with owner := (secBuf s).take 64 } |>.wr R.SEC_LC_STATE 1).wrb R.SEC_LC_OWNER true, 1)

/-! ### Key slots (R446 to R449) -/

def setKeySlot (s : State) (k : Nat) (x : KeySlot) : State := setSec s { s.sec with slots := mput s.sec.slots k x }

/-- GRACE in ns: larger values act as 1,000 ms. -/
def graceNs (s : State) : Nat := min 1000 (s.rd R.SEC_KGRACE_GRACE) * 1000000

/-- Rollover of a slot whose T has been reached (R448, R449). -/
def rollSlot (s : State) (k : Nat) : State :=
  let x := keySlot s k
  match x.nxt with
  | some n =>
    if x.roll ≤ s.activeNs then
      setKeySlot s k { x with cur := some n, nxt := none, ret := x.cur, expiry := x.roll + graceNs s, gone := false, had := true }
    else s
  | none => s

/-- A step of active time performs the rollovers it passes (R449). -/
def rollAll (s : State) : State := (s.sec.slots.map (·.1)).foldl rollSlot s

/-- KEY_ROLLOVER: active time has reached T of slot `k` (R448). -/
def execKeyRollover (k : Fin 256) (s : State) : Host.Outcome State Fault Refusal := .next (rollSlot s k)

/-- RETIRING_KEY_EXPIRY: active time has reached T + GRACE (R448); a receiver goes by a frame's arrival stamp. -/
def execRetiringKeyExpiry (k : Fin 256) (s : State) : Host.Outcome State Fault Refusal :=
  .next <|
    let x := keySlot s k
    if x.ret.isSome && decide (x.expiry ≤ s.activeNs) then setKeySlot s k { x with gone := true } else s

/-- KEYLOAD completes (R447, R449): refused for an algorithm code above 4 or one that differs from a slot with a current key. A rollover
that is due comes before it. -/
def keyloadDone (s : State) : State × Nat :=
  let k := s.rd R.SEC_KSEL_SLOT
  let x := keySlot (rollSlot s k) k
  let alg := s.rd R.SEC_KCFG_ALG
  if 4 < alg ∨ (x.cur.isSome ∧ alg ≠ x.alg) then (s, 9)
  else
    let b := ((List.range 8).flatMap fun w => leBytes 4 (s.rd (R.SEC_KEYw_KEY w))).take (if alg < 3 then 32 else 16)
    let key : AuthKey := { kid := s.rd R.SEC_KIDL_KIDL, bytes := b }
    if x.cur.isNone then (setKeySlot s k { x with alg := alg, cur := some key, had := true }, 1)
    else (rollSlot (setKeySlot s k { x with alg := alg, nxt := some key, roll := s.rd64 R.SEC_KROLL_LO_KROLL R.SEC_KROLL_HI_KROLL }) k, 1)

/-- KEYCLR completes: all three keys of the slot are emptied. -/
def keyclrDone (s : State) : State × Nat :=
  let k := s.rd R.SEC_KSEL_SLOT
  let x := keySlot s k
  (setKeySlot s k { alg := x.alg, had := x.had || x.cur.isSome }, 1)

/-- The verdict that the operation in progress computes, if it makes one: the signature of a token or of a staged image, the curve of an
enrolled point (R442, R443, R445). -/
def secVerdict (s : State) : Option Bool :=
  if s.sec.early ≠ 0 then none
  else match s.sec.op with
    | 2 => some (tokenSig s)
    | 3 => some (imageSig (stageCopy s) s.sec.stg.1)
    | 4 => some (enrollPoint s)
    | _ => none

/-- The operation's end (R453): SEC_RES, BUSY falls, vector 7 (R509). `ok` is the verdict that it reports: an end with another verdict than
the one computed does not occur, and changes nothing (assumption 59). -/
def execSecOperationDone (ok : Bool) (s : State) : Host.Outcome State Fault Refusal :=
  .next <|
    if !s.on R.SEC_STAT_BUSY || secVerdict s == some !ok then s
    else
      let r := match s.sec.op with
        | 1 => if s.sec.early ≠ 0 then (s, s.sec.early) else (attestDone s, 1)
        | 2 => tokenDone s ok
        | 3 => stageDone s ok
        | 4 => enrollDone s ok
        | 5 => keyloadDone s
        | _ => keyclrDone s
      let s1 := (((setSec r.1 { r.1.sec with op := 0, early := 0 }).wr R.SEC_RES_OP s.sec.op).wr R.SEC_RES_RESULT r.2)
      (s1.wrb R.SEC_STAT_BUSY false).fireVec 7

/-- Does a frame's security extension verify under key slot `k`, for a frame that arrived at active time `t` ns (R128, R448)? -/
def authOk (s : State) (k : Nat) (ext : Option SecExt) (t : Nat) : Bool :=
  let x := keySlot s k
  let has (o : Option AuthKey) (kid : Nat) : Bool := match o with | some y => y.kid == kid | none => false
  match ext with
  | none => false
  | some e => e.tagOk && e.alg == x.alg && (has x.cur e.kid || has x.nxt e.kid || (has x.ret e.kid && decide (t < x.expiry)))

/-- A sender signs under slot `k` (R449): the key ID used; without a current key the frame goes without the extension. -/
def signWith (s : State) (k : Nat) : Option (Nat × Nat) × State :=
  let x := keySlot s k
  match x.cur with
  | some y => (some (x.alg, y.kid), s)
  | none =>
    let s1 := s.sat1 R.SEC_STAT_NOKEY
    if x.had then (none, (setKeySlot s1 k { x with had := false }).logEv 0x0D 2 (leBytes 1 k)) else (none, s1)

/-! ### The TAP (R538) -/

/-- IDCODE of the TAP: version 0xB, part 0x0024, manufacturer code 0x529, 1. -/
def tapIdcode : Word := 0xB#4 ++ 0x0024#16 ++ 0x529#11 ++ 1#1

/-- The instructions of the TAP that R538 names. -/
inductive TapInstr where
  | bypass | idcode | samplePreload | extest
  deriving DecidableEq, Repr

/-- Which of them are available (R538, R441): all in MANUFACTURE and RMA; in PROVISIONED those that alter nothing (assumption 142); in FIELD
IDCODE and BYPASS. -/
def tapAvailable (s : State) (x : TapInstr) : Bool :=
  match s.rd R.SEC_LC_STATE, x with
  | 0, _ => true
  | 1, .extest => false
  | 1, _ => true
  | 2, .idcode => true
  | 2, .bypass => true
  | 2, _ => false
  | _, _ => true

/-- The register that an available instruction of fixed length puts between TDI and TDO, its first bit shifted out lowest: BYPASS one bit 0,
IDCODE the 32 of the device's. -/
def tapCapture (x : TapInstr) : Option (List Bool) :=
  match x with
  | .bypass => some [false]
  | .idcode => some ((List.range 32).map tapIdcode.getLsbD)
  | _ => none

/-! ### Tamper (R450) -/

/-- SEC, powered, sees sensor `k` active: it is recorded, and its item becomes live. -/
def seeSensor (s : State) (k : Nat) : State :=
  (((s.setBit R.SEC_TAMP_LIVE k).setBit R.SEC_TAMP_STK k).wrb R.SEC_STAT_TAMP_STK true).itemOn 22 k k

/-- TAMPER_SENSOR: a sensor becomes active. While PD7 is off nothing watches it; SEC sees it at power-good (R42). -/
def execTamperSensor (k : Fin 5) (s : State) : Host.Outcome State Fault Refusal :=
  .next <|
    let s1 := setSec s { s.sec with active := if s.sec.active.contains k.val then s.sec.active else k.val :: s.sec.active }
    if s.pg 7 then seeSensor s1 k else s1

/-- TAMPER_SENSOR_CLEAR: a sensor becomes inactive. -/
def execTamperSensorClear (k : Fin 5) (s : State) : Host.Outcome State Fault Refusal :=
  .next ((setSec s { s.sec with active := s.sec.active.filter (· ≠ k.val) }).clrBit R.SEC_TAMP_LIVE k |>.itemOff 22 k)

end Sys2Proof.Machine
end

