-- ==== Sys2Proof/Machine/Svi.lean ====
section
/-! DEFINITION. Sampled-value ingest and the publisher directory (R118 to R145). -/

namespace Sys2Proof.Machine

def setSvi (s : State) (v : Svi) : State := { s with svi := v }
def subOf (s : State) (n : Nat) : SvSub := mget s.svi.sub n {}
def setSub (s : State) (n : Nat) (x : SvSub) : State := setSvi s { s.svi with sub := mput s.svi.sub n x }
def subState (s : State) (n : Nat) : Nat := s.rd (R.SVI_SUBs_STAT_STATE n)
def subOn (s : State) (n : Nat) : Bool := s.on (R.SVI_SUBs_CFG_EN n)

/-- The state of subscription `n` changes: register, live store, event-task triggers (R134, R279, R282). -/
def setSubState (s : State) (n st : Nat) : State :=
  if subState s n = st then s
  else trigEvent (s.wr (R.SVI_SUBs_STAT_STATE n) st) 4 n

/-! ### The directory (R138 to R142) -/

/-- Bytes of a string field, zero-padded to 136. -/
def dirText (l : List Byte) : List Byte := padTo 136 l

/-- An entry's 512 bytes (R141). -/
def dirBytes (e : DirEnt) : List Byte :=
  let b (x : Bool) (k : Nat) : Nat := if x then 2 ^ k else 0
  let w0 := 2 ^ 31 + b e.goose 30 + b e.linked 29 + b e.owner.isSome 28 + b e.conflict 27 + b e.changed 26 + b e.silent 25
    + b e.restored 24 + b e.auth 23 + b e.sim 22 + b (e.ports.testBit 2) 21 + b (e.ports.testBit 1) 20 + b (e.ports.testBit 0) 19
    + e.owner.getD 0 % 4096
  let body := leBytes 4 w0 ++ leBytes 4 (e.appid % 65536) ++ beBytes 6 e.src ++ [0, 0] ++ beBytes 6 e.dst ++ [0, 0]
    ++ leBytes 4 e.confrev ++ leBytes 4 e.sig.toNat ++ leBytes 8 e.first ++ leBytes 8 e.lastSeen ++ leBytes 4 e.frames
    ++ leBytes 4 (e.ident.length % 256 * 256 + e.dset.length % 256) ++ dirText e.ident ++ dirText e.dset ++ padTo 180 []
  body ++ leBytes 4 (crc32 body).toNat

/-- An entry read back from its bytes; none where VALID is clear or the CRC-32 fails (R141). -/
def dirParse (l : List Byte) : Option DirEnt :=
  let at' (o n : Nat) : Nat := leNat ((l.drop o).take n)
  let be (o : Nat) : Nat := leNat ((l.drop o).take 6).reverse
  let w0 := at' 0 4
  if !w0.testBit 31 || at' 0x1FC 4 != (crc32 (l.take 0x1FC)).toNat then none
  else some { goose := w0.testBit 30, src := be 8, dst := be 16, appid := at' 4 2, confrev := at' 0x18 4,
              sig := BitVec.ofNat 32 (at' 0x1C 4), first := at' 0x20 8, lastSeen := at' 0x28 8, frames := at' 0x30 4,
              ident := (l.drop 0x38).take (at' 0x35 1), dset := (l.drop 0xC0).take (at' 0x34 1),
              linked := w0.testBit 29, owner := if w0.testBit 28 then some (w0 % 4096) else none, conflict := w0.testBit 27,
              changed := w0.testBit 26, silent := w0.testBit 25, restored := true, auth := w0.testBit 23, sim := w0.testBit 22,
              ports := bitN w0 19 + 2 * bitN w0 20 + 4 * bitN w0 21 }

def setDir (s : State) (d : List (Nat × DirEnt)) : State :=
  (setSvi s { s.svi with dir := d }).wr R.SVI_DIR_STAT_USED d.length

/-- The entry of a publisher: source MAC, APPID and svID or goID (R138). -/
def dirFind (s : State) (goose : Bool) (src appid : Nat) (ident : List Byte) : Option (Nat × DirEnt) :=
  s.svi.dir.find? fun e => e.2.goose == goose && e.2.src == src && e.2.appid == appid && e.2.ident == ident

/-- The index a new publisher takes: a free one, else the longest silent unlinked entry's. -/
def dirSlot (s : State) : Option (Nat × Bool) :=
  if s.svi.dir.length < 4096 then
    ((List.range 4096).find? fun i => !s.svi.dir.any fun e => e.1 == i).map fun i => (i, false)
  else
    ((s.svi.dir.filter fun e => !e.2.linked).foldl (fun (a : Option (Nat × DirEnt)) e =>
      match a with | some x => if e.2.heard < x.2.heard then some e else a | none => some e) none).map fun e => (e.1, true)

/-- The entries other than `i` are linked to subscription `n` of their kind no longer (R138: one entry for each subscription). -/
def dirUnlink (d : List (Nat × DirEnt)) (goose : Bool) (n i : Nat) : List (Nat × DirEnt) :=
  d.map fun p => if p.1 != i && p.2.goose == goose && p.2.sub == some n then (p.1, { p.2 with linked := false, sub := none }) else p

/-- What an entry `i` that is linked to `n`, if to any, leaves of the other entries' links. -/
def dirLinks (d : List (Nat × DirEnt)) (e : DirEnt) (i : Nat) : List (Nat × DirEnt) :=
  match e.sub with | some n => dirUnlink d e.goose n i | none => d

/-- Subscription `n` ends or starts anew: no entry is linked to it. -/
def unlinkSub (s : State) (goose : Bool) (n : Nat) : State := setSvi s { s.svi with dir := dirUnlink s.svi.dir goose n 4096 }

/-- The directory learns from a frame (R138, R139): the state and the entry's index. -/
def dirLearn (s : State) (port : Nat) (e : DirEnt) : State × Nat :=
  let now := s.activeNs
  let tb2 := s.tb2Ns
  match dirFind s e.goose e.src e.appid e.ident with
  | some (i, x) =>
    let ch := x.confrev != e.confrev || x.sig != e.sig
    let y := { x with dst := e.dst, dset := e.dset, confrev := e.confrev, sig := e.sig, lastSeen := now, heard := tb2,
                      frames := min (x.frames + 1) 0xFFFFFFFF, linked := x.linked || e.linked, sub := e.sub.orElse fun _ => x.sub, changed := x.changed || ch, silent := false,
                      restored := false, auth := x.auth || e.auth, sim := x.sim || e.sim, ports := x.ports ||| 2 ^ port }
    let s1 := setDir s (dirLinks (mput s.svi.dir i y) e i)
    (if ch then s1.logIx 5 7 i else s1, i)
  | none =>
    match dirSlot s with
    | none => (s, 0)
    | some (i, evict) =>
      let y := { e with first := now, lastSeen := now, heard := tb2, frames := 1, ports := 2 ^ port }
      let s1 := setDir s (dirLinks (mput s.svi.dir i y) e i)
      (if evict then s1.sat1 R.SVI_DIR_STAT_EVICT else s1, i)

/-- Node `node` lists a publisher in its beacon (R140): the latest claim wins. -/
def dirClaim (node src appid : Nat) (s : State) (e : Nat × DirEnt) : State :=
  if e.2.src ≠ src ∨ e.2.appid ≠ appid then s
  else
    let clash := match e.2.owner with | some x => x != node | none => false
    let s1 := setDir s (mput s.svi.dir e.1 { e.2 with owner := some node, conflict := e.2.conflict || clash })
    if clash then s1.logIx 5 8 e.1 else s1

/-- AGE in ns: 0 acts as 1 s. -/
def ageNs (s : State) : Nat := max 1 (s.rd R.SVI_DIR_CFG_AGE) * 1000000000

/-- DIRECTORY_AGE_OUT: an entry's silence exceeds AGE (R139). -/
def execDirectoryAgeOut (i : Fin 4096) (s : State) : Host.Outcome State Fault Refusal :=
  .next <|
    match s.svi.dir.find? fun e => e.1 == i.val with
    | none => s
    | some e =>
      if s.tb2Ns ≤ e.2.heard + ageNs s then s
      else if e.2.linked then setDir s (mput s.svi.dir i.val { e.2 with silent := true })
      else setDir s (mdel s.svi.dir i.val)

/-- A snapshot starts, to the copy not written last (R141). -/
def snapStart (s : State) : State :=
  if s.on R.SVI_STAT_SNAP_BUSY then s
  else
    let c := match s.svi.copies with | [] => 0 | x :: _ => 1 - x
    (setSvi s { s.svi with snap := some (c, s.svi.dir), copies := s.svi.copies.filter (· ≠ c) }).wrb R.SVI_STAT_SNAP_BUSY true

/-- The period of SVI_DIR_CFG.SNAP in ns; 0 is off, 1 to 9 act as 10 (R144). -/
def snapNs (s : State) : Nat := if s.rd R.SVI_DIR_CFG_SNAP = 0 then 0 else max 10 (s.rd R.SVI_DIR_CFG_SNAP) * 1000000000

/-- DIRECTORY_SNAPSHOT: the period of SVI_DIR_CFG.SNAP ends, and the next one begins (R141). -/
def execDirectorySnapshot (s : State) : Host.Outcome State Fault Refusal :=
  .next <|
    if snapNs s = 0 ∨ s.tb2Ns < s.svi.snapAt + snapNs s ∨ s.on R.SVI_STAT_SNAP_BUSY = true then s
    else snapStart (setSvi s { s.svi with snapAt := s.tb2Ns })

/-- SNAPSHOT_REQUEST: a write of SVI_CTL.SNAPREQ; ignored while SNAP_BUSY (R144). -/
def execSnapshotRequest (s : State) : Host.Outcome State Fault Refusal := .next (snapStart s)

/-- Where a copy begins (R44). -/
def copyBase (c : Nat) : Nat := mramBase + 0xC00000 + c * 0x200000

/-- SNAPSHOT_COMPLETE: the copy is whole and ends with its completion word (R46, R141). DESIGN CHOICE (unsafe; assumption 127): the 4,096
entries fill the copy's 2 MiB, the spec gives the word neither a place nor a value, and the model keeps it outside MRAM's
bytes, in `Svi.copies`. -/
def execSnapshotComplete (s : State) : Host.Outcome State Fault Refusal :=
  .next <|
    match s.svi.snap with
    | none => s
    | some (c, d) =>
      let m := d.foldl (fun a e => memWrs a (copyBase c + 512 * e.1) (dirBytes e.2))
        (memClear s.mem (copyBase c) (copyBase c + 0x200000))
      ((setSvi { s with mem := m } { s.svi with snap := none, copies := c :: s.svi.copies.filter (· ≠ c) }).wrb
        R.SVI_STAT_SNAP_BUSY false).wr R.SVI_STAT_LASTCOPY c

/-- The directory as a copy in MRAM holds it. -/
def dirFromCopy (s : State) (c : Nat) : List (Nat × DirEnt) :=
  (List.range 4096).filterMap fun i => (dirParse (s.rdMem (copyBase c + 512 * i) 512)).map fun e => (i, { e with heard := s.tb2Ns })

/-- The restore at boot: the newest complete copy (R141). -/
def dirRestore (s0 : State) : State :=
  let s := setSvi s0 { s0.svi with snapAt := s0.tb2Ns }
  match s.svi.copies with
  | [] => s
  | c :: _ => ((setDir s (dirFromCopy s c)).wrb R.SVI_STAT_RESTORED true).wr R.SVI_STAT_LASTCOPY c

/-- DIRECTORY_FLUSH: SVI_CTL.DIRFLUSH removes every entry not linked (R144). -/
def execDirectoryFlush (s : State) : Host.Outcome State Fault Refusal := .next (setDir s (s.svi.dir.filter fun e => e.2.linked))

/-- SVI_DIR_BUFw take an entry's words. -/
def fillBuf (l : List Byte) (s : State) : State :=
  (List.range 128).foldl (fun a w => a.wr (R.SVI_DIR_BUFw_WORD w) (leNat ((l.drop (4 * w)).take 4))) s

/-- DIRECTORY_FETCH: a write of SVI_DIR_SEL with FETCH = 1 (R142). DESIGN CHOICE (unsafe; assumption 175): the buffer holds zeros after the fetch
of an empty index. -/
def execDirectoryFetch (i : Fin 4096) (s : State) : Host.Outcome State Fault Refusal :=
  .next <|
    let s1 := (s.wr R.SVI_DIR_SEL_IDX i).wrb R.SVI_DIR_SEL_READY true
    match s.svi.dir.find? fun e => e.1 == i.val with
    | some e => fillBuf (dirBytes e.2) (s1.wrb R.SVI_DIR_SEL_EMPTY false)
    | none => fillBuf (padTo 512 []) (s1.wrb R.SVI_DIR_SEL_EMPTY true)

/-! ### Sample times (R131, R132) -/

/-- SVI_SUBs_MAC as 48 bits. -/
def subMac (s : State) (n : Nat) : Nat := s.rd (R.SVI_SUBs_MAC_HI_MAC_HI n) * 2 ^ 32 + s.rd (R.SVI_SUBs_MAC_LO_MAC_LO n)

/-- round(c × 10^9 / r). -/
def cntNs (c r : Nat) : Nat := (2 * c * 1000000000 + r) / (2 * r)

/-- The whole second of R131: nearest to t_a − round(c × 10^9 / r). -/
def wholeSec (ta c r : Nat) : Nat := (ta - cntNs c r + 500000000) / 1000000000

def mudly (s : State) (n : Nat) : Nat := min 10000000 (s.rd (R.SVI_SUBs_MUDLY_MUDLY n))
def nomdly (s : State) (n : Nat) : Nat := min 10000000 (s.rd (R.SVI_SUBs_NOMDLY_NOMDLY n))
def maxdly (s : State) (n : Nat) : Nat := clamp 100000 100000000 (s.rd (R.SVI_SUBs_MAXDLY_MAXDLY n))

/-- smpSynch 1 and 2 are timed. -/
def syncTimed (y : Nat) : Bool := y == 1 || y == 2

/-- Samples from smpCnt `c0` on to `c`, the nearer way round. -/
def cntAhead (c0 c r : Nat) : Int :=
  let d := (c + r - c0) % r
  if 2 * d ≤ r then d else (d : Int) - r

/-- t_nom of sample `k` of a timed stream, counted from the epoch (R131). -/
def nomOf (k r : Nat) : Nat := k / r * 1000000000 + cntNs (k % r) r

/-- The deadline of sample number `i` (R132), reckoned from the last accepted sample. -/
def sampleDeadline (s : State) (n i : Nat) : Option Nat :=
  let r := svSubRate s n
  let x := subOf s n
  match x.last with
  | none => none
  | some (li, lc, lt, lb) =>
    let d : Int := (i : Int) - li
    some (if x.timed == some true then nomOf ((lb * r + lc : Nat) + d).toNat r + maxdly s n
      else ((lt : Int) + rdiv (d * 1000000000) r).toNat + nomdly s n + maxdly s n)

/-! ### Frame checks (R118, R124 to R129) -/

/-- A drop of kind FORMAT is counted, and logged at most once per second (R125). -/
def formatDrop (s : State) (n : Nat) : State :=
  let x := subOf s n
  let s1 := s.sat1 (R.SVI_SUBs_ERR_FORMAT n)
  let due := match x.fmtAt with | some t => decide (t + 1000000000 ≤ s.tb2Ns) | none => true
  if due then (setSub s1 n { x with fmtN := 0, fmtAt := some s.tb2Ns }).logEv 5 1 (leBytes 4 n ++ leBytes 4 (x.fmtN + 1))
  else setSub s1 n { x with fmtN := x.fmtN + 1 }

/-- A drop of kind AUTHFAIL, logged in the same way: the subscription in payload bytes 0 to 3, the count in 4 to 7 (DESIGN CHOICE, unsafe;
assumption 57). -/
def authDrop (s : State) (n : Nat) : State :=
  let x := subOf s n
  let s1 := s.sat1 (R.SVI_SUBs_ERR_AUTHFAIL n)
  let due := match x.authAt with | some t => decide (t + 1000000000 ≤ s.tb2Ns) | none => true
  if due then (setSub s1 n { x with authN := 0, authAt := some s.tb2Ns }).logEv 5 2 (leBytes 4 n ++ leBytes 4 (x.authN + 1))
  else setSub s1 n { x with authN := x.authN + 1 }

/-- The enabled subscriptions of a frame's destination MAC and APPID, on PA and PB only (R118, R119). -/
def svCands (s : State) (f : SvFrame) : List Nat :=
  if f.port.val = 2 then []
  else (List.range 64).filter fun n => subOn s n && subMac s n == f.dst && s.rd (R.SVI_SUBs_ID_APPID n) == f.appid

/-- Do svID and datSet match the image's strings (R118)? -/
def svNameOk (s : State) (n : Nat) (f : SvFrame) : Bool :=
  let e := mget s.img.svIdent n ([], none)
  f.asdus.all fun a => a.svid == e.1 && (match e.2 with | some d => a.dset == d | none => true)

/-- Step 7 of R124. -/
def svShapeOk (s : State) (n : Nat) (f : SvFrame) : Bool :=
  f.asdus.length == s.rd (R.SVI_SUBs_CFG_NASDU n) && f.asdus.all fun a => a.vals.length == s.rd (R.SVI_SUBs_CFG_NQTY n)

/-- The confRev a subscription accepts: the configured one; while INVALID the one configured when it became so, since no register
write accepts another (R136). -/
def svRev (s : State) (n : Nat) : Nat :=
  let c := s.rd (R.SVI_SUBs_CONFREV_CONFREV n)
  if subState s n = 5 then (subOf s n).rev.getD c else c

/-- A confRev that differs (R136). -/
def svBadRev (s : State) (n : Nat) (f : SvFrame) : Option Nat := (f.asdus.find? fun a => a.confrev != svRev s n).map (·.confrev)

/-- R136: the subscription becomes INVALID. Every such frame sets CONFREV_STK; the event is logged on entry, with subscription, configured
and received confRev in 4 payload bytes each (DESIGN CHOICE, unsafe; assumption 57). -/
def confrevBad (s0 : State) (n got : Nat) : State :=
  let s := s0.wrb (R.SVI_SUBs_STAT_CONFREV_STK n) true
  if subState s n = 5 then s
  else (setSubState (setSub s n { subOf s n with rev := some (s.rd (R.SVI_SUBs_CONFREV_CONFREV n)) }) n 5).logEv 5 6
    (leBytes 4 n ++ leBytes 4 (s.rd (R.SVI_SUBs_CONFREV_CONFREV n)) ++ leBytes 4 got)

/-- Grid flags of a quality word (R137). -/
def qualFlags (q : Word) : Nat :=
  let v := q.toNat % 4
  (if v = 1 ∨ v = 2 then 0x08 else if v = 3 then 0x10 else 0) + (if q.getLsbD 10 then 0x04 else 0) + (if q.getLsbD 11 then 0x02 else 0)

/-- Acceptance moves the state machine (R134): the first sample in WAIT or LOST, or the configured confRev after INVALID, leads
to RECOVERING; RECOV accepted ones with none missing among them to VALID. -/
def acceptState (s : State) (n : Nat) : State :=
  let st := subState s n
  let x := subOf s n
  let s1 := if st = 1 ∨ st = 3 ∨ st = 5 then setSubState s n 4 else s
  let run := if st = 4 then x.run + 1 else 1
  if subState s1 n = 4 then
    let s2 := setSub s1 n { x with run := run }
    if max 1 (s.rd (R.SVI_SUBs_CFG_RECOV n)) ≤ run then (setSubState s2 n 2).logIx 5 4 n else s2
  else s1

/-- The oldest number from `due` on that has not been accepted. -/
def nextDue (fuel : Nat) (seen : List Nat) (due : Nat) : Nat :=
  match fuel with
  | 0 => due
  | fuel + 1 => if seen.contains due then nextDue fuel seen (due + 1) else due

/-- `due` passes what has been accepted; an accepted sample ends a run of missing ones (R133). -/
def svAdvance (x : SvSub) : SvSub :=
  let d := nextDue x.seen.length x.seen x.due
  if d = x.due then x else { x with due := d, miss := 0, seen := x.seen.filter fun i => decide (d ≤ i) }

/-- Has sample number `i` been accepted already (R124)? -/
def svTaken (x : SvSub) (i : Nat) : Bool :=
  x.seen.contains i || (decide (x.start ≤ i) && decide (i < x.due) && !x.gone.any fun e => decide (e.1 ≤ i) && decide (i < e.2))

/-- The number of a sample with smpCnt `c`, in second `b` where it is timed: in WAIT and INVALID a new count begins; in LOST the count
has gone on (R132), by the second of a timed stream, else to the first such number not yet missing; otherwise the nearer way round. -/
def svNumber (x : SvSub) (st r c b : Nat) (exact : Bool) : Nat :=
  match x.last with
  | none => 4096
  | some (li, lc, _, lb) =>
    if st = 1 ∨ st = 5 then li + 64 + (c + r - lc % r) % r
    else if st = 3 then
      if exact then ((li : Int) + ((b * r + c : Nat) - (lb * r + lc : Nat) : Int)).toNat
      else x.due + (((c : Int) - lc - x.due + li) % (r : Int)).toNat
    else ((li : Int) + cntAhead lc c r).toNat

/-- What an accepted sample `i` does to the numbers: in WAIT and INVALID they start with it, in LOST it is the return (R134). -/
def svTake (x : SvSub) (st i : Nat) : SvSub :=
  let y := if st = 1 ∨ st = 5 then { x with start := i, due := i, back := i, seen := [], gone := [], miss := 0 }
    else if st = 3 then { x with back := i, miss := 0 } else x
  svAdvance { y with seen := i :: y.seen, restart := false }

/-- One ASDU of an accepted frame (R124, R126, R131, R134, R137): `ta` its arrival stamp, `k` its place among `total`; `exact`: the frame before
was timed too. -/
def svAsdu (n : Nat) (f : SvFrame) (ta total : Nat) (exact : Bool) (p : State × Nat) (a : SvAsdu) : State × Nat :=
  let s := p.1
  let k := p.2
  let r := svSubRate s n
  let x := subOf s n
  let timed := syncTimed a.sync
  let b := wholeSec ta a.cnt r
  let nom := b * 1000000000 + cntNs a.cnt r
  let ts := if timed then nom - mudly s n
    else (rdiv (((ta : Int) - nomdly s n) * r - (total - 1 - k : Nat) * 1000000000) r).toNat
  let st := subState s n
  let fresh := st == 1 || st == 3 || st == 5
  let idx := svNumber x st r a.cnt b (timed && exact)
  let late := (!fresh && decide (x.start ≤ idx) && decide (idx < x.due)) ||
    (match (if timed then some (nom + maxdly s n) else if fresh then none else sampleDeadline s n idx) with
      | some t => decide (t < s.activeNs) | none => false)
  if svTaken x idx then (s.sat1 (R.SVI_SUBs_LATE_DUP n), k + 1)
  else if late then (s.sat1 (R.SVI_SUBs_LATE_LATE n), k + 1)
  else
    let fl := (if st = 2 then 0 else 0x08) + (if !timed || (a.sync == 1 && s.on (R.SVI_SUBs_CFG_LOCALQ n)) then 0x10 else 0)
      + (if f.sim then 0x02 else 0)
    let vals := a.vals.map fun e => (e.1.toInt, qualFlags e.2 ||| fl)
    let e : SvIn := { sub := n, idx := idx, t := ts, restart := x.restart || fresh, vals := vals }
    let newer := match x.last with | some (li, _, _, _) => fresh || decide (li < idx) | none => true
    let y := svTake x st idx
    let s1 := setSub s n { y with last := if newer then some (idx, a.cnt, ts, b) else x.last }
    let s2 := if s1.pg 1 then setSvi s1 { s1.svi with fifo := s1.svi.fifo ++ [e] } else s1
    (acceptState s2 n, k + 1)

/-- SYNC of SVI_SUBs_STAT. -/
def syncShown (y : Nat) : Nat := if y = 1 ∨ y = 2 then y else 0

/-- A frame that has passed the frame-level checks (R126, R131, R135). DESIGN CHOICE (unsafe; assumption 173): each ASDU is timed by its own
smpSynch, and SYNC and the frame's timed state follow that of its last ASDU. -/
def svAccept (s : State) (n : Nat) (f : SvFrame) (ta : Nat) : State :=
  let sync := match f.asdus.getLast? with | some a => a.sync | none => 0
  let timed := syncTimed sync
  let x := subOf s n
  let change := match x.timed with | some t => t != timed | none => false
  let s1 := setSub s n { x with timed := some timed, restart := x.restart || change }
  let s2 := if change then s1.logIx 5 5 n else s1
  let s3 := ((s2.inc (R.SVI_SUBs_RX_RX n)).wr (R.SVI_SUBs_STAT_SYNC n) (syncShown sync))
  let s4 := if f.sim then s3.wrb (R.SVI_SUBs_STAT_SIM_SEEN n) true else s3
  let s5 := match f.asdus.getLast? with
    | some a =>
      if timed then
        let r := svSubRate s n
        let d : Int := (ta : Int) - (wholeSec ta a.cnt r * 1000000000 + cntNs a.cnt r : Nat)
        let d1 := clampI (-2147483648) 2147483647 d
        let old := sgn 32 (s4.rd (R.SVI_SUBs_DLYMAX_DLYMAX n))
        (s4.wr (R.SVI_SUBs_DLY_DLY n) (usg 32 d1)).wr (R.SVI_SUBs_DLYMAX_DLYMAX n) (usg 32 (max old d1))
      else s4
    | none => s4
  (f.asdus.foldl (svAsdu n f ta f.asdus.length (x.timed == some true)) (s5, 0)).1

/-- Steps 5 to 8 of R124 for the subscription whose strings match. -/
def svSteps (s : State) (n : Nat) (f : SvFrame) (ta : Nat) : State :=
  match svBadRev s n f with
  | some got => confrevBad s n got
  | none =>
    if f.sim && !s.on (R.SVI_SUBs_CFG_SIMOK n) then formatDrop s n
    else if !svShapeOk s n f then formatDrop s n
    else if !(f.asdus.all fun a => decide (a.cnt < svSubRate s n)) then formatDrop s n
    else svAccept s n f ta

/-- The dataset signature of an SV frame (R141). -/
def svSig (a : SvAsdu) : Word := crc32 (a.dset ++ beBytes 2 (8 * a.vals.length))

/-- What the directory learns from an SV frame (R138); linked where a subscription's strings match. DESIGN CHOICE (unsafe; assumption 174): any
frame that bears a security extension sets AUTH_SEEN, whatever its verdict. -/
def svLearn (s : State) (f : SvFrame) (link : Option Nat) : State :=
  match f.asdus with
  | [] => s
  | a :: _ =>
    let p := dirLearn s f.port { goose := false, src := f.src, dst := f.dst, appid := f.appid, ident := a.svid, dset := a.dset,
                                 confrev := a.confrev, sig := svSig a, linked := link.isSome, sub := link, auth := f.ext.isSome, sim := f.sim }
    match link with
    | some n => (p.1.wrb (R.SVI_SUBs_STAT_DIRV n) true).wr (R.SVI_SUBs_STAT_DIRIDX n) p.2
    | none => p.1

/-- A sampled-value frame reaches SVI (R118 to R136): the directory, then the checks of R124 in their order. DESIGN CHOICE (unsafe; assumption
172): where several subscriptions match destination and APPID and none the svID string, the lowest-numbered is charged. -/
def svFrame (s : State) (f : SvFrame) : State :=
  let c := svCands s f
  let m := c.find? fun n => svNameOk s n f
  let ta := arrivalNs s f.port f.pos
  let s1 := if f.wellFormed then svLearn s f m else s
  match m.orElse fun _ => c.head? with
  | none => s1
  | some n =>
    if !f.wellFormed then formatDrop s1 n
    else if s1.on (R.SVI_SUBs_CFG_AUTH n) && !authOk s1 (s1.rd (R.SVI_SUBs_CFG_KSLOT n)) f.ext ta then authDrop s1 n
    else if m.isNone then s1
    else svSteps s1 n f ta

/-- SV_FRAME_RECEIVE: a frame passes from the switch to SVI; nothing while PD8 is off. -/
def execSvFrameReceive (f : SvFrame) (s : State) : Host.Outcome State Fault Refusal :=
  .next (if s.pg 8 then svFrame (s.takeFrame .svi) f else s)

/-! ### Missing samples (R132 to R134) -/

/-- One more number that is missing. -/
def markGone (l : List (Nat × Nat)) (i : Nat) : List (Nat × Nat) :=
  match l with
  | (a, b) :: t => if b = i then (a, i + 1) :: t else (i, i + 1) :: l
  | [] => [(i, i + 1)]

/-- The sample numbered `due` is missing (R132 to R134). While LOST, and before the sample that ended a loss, it is only counted. -/
def sampleMissing (s : State) (n : Nat) : State :=
  let x := subOf s n
  let st := subState s n
  let live := st != 3 && decide (x.back ≤ x.due)
  let miss := if live then x.miss + 1 else x.miss
  let y := svAdvance { x with due := x.due + 1, gone := markGone x.gone x.due, miss := miss,
                              run := if live && st == 4 then 0 else x.run }
  let s1 := (setSub s n y).sat1 (R.SVI_SUBs_MISS_MISSING n)
  if !live then s1
  else
    let s2 := if 2 ≤ miss then (svChans s1 n).foldl svTicks s1 else s1
    if miss = 3 then
      (((setSubState s2 n 3).sat1 (R.SVI_SUBs_MISS_LOSSES n)).wrb (R.SVI_SUBs_STAT_LOST_STK n) true).logIx 5 3 n
    else s2

/-- SAMPLE_DEADLINE: the deadline of the next sample of subscription `n` passes; samples are missing from the first accepted one on,
while the subscription is VALID, RECOVERING or LOST. -/
def execSampleDeadline (n : Fin 64) (s : State) : Host.Outcome State Fault Refusal :=
  .next <|
    let st := subState s n
    if st ≠ 2 ∧ st ≠ 3 ∧ st ≠ 4 then s
    else match sampleDeadline s n (subOf s n).due with
      | none => s
      | some t => if s.activeNs < t then s else sampleMissing s n

/-! ### Configuration (R122, R123, R145) -/

/-- A subscription enters WAIT as on enabling (R123, R134), or OFF. -/
def svRestart (s : State) (n : Nat) : State :=
  let x := subOf s n
  let s1 := setSub s n { last := x.last, restart := true, fmtN := x.fmtN, fmtAt := x.fmtAt, authN := x.authN, authAt := x.authAt }
  setSubState ((unlinkSub s1 false n).wrb (R.SVI_SUBs_STAT_DIRV n) false) n (if subOn s1 n then 1 else 0)

/-- The fields of SVI_SUBs_CFG take a word; values that the field tables call ignored leave their field as it is. -/
def storeSvCfg (s : State) (n v : Nat) : State :=
  let s1 := (((s.wr (R.SVI_SUBs_CFG_EN n) (v / 2 ^ 31)).wr (R.SVI_SUBs_CFG_AUTH n) (v / 2 ^ 30 % 2)).wr (R.SVI_SUBs_CFG_SIMOK n) (v / 2 ^ 29 % 2)).wr
    (R.SVI_SUBs_CFG_LOCALQ n) (v / 2 ^ 28 % 2)
  let rate := v / 2 ^ 25 % 8
  let nasdu := v / 2 ^ 21 % 16
  let nqty := v / 2 ^ 16 % 32
  let s2 := if rate < 5 then s1.wr (R.SVI_SUBs_CFG_RATE n) rate else s1
  let s3 := if 1 ≤ nasdu ∧ nasdu ≤ 8 then s2.wr (R.SVI_SUBs_CFG_NASDU n) nasdu else s2
  let s4 := if 1 ≤ nqty ∧ nqty ≤ 24 then s3.wr (R.SVI_SUBs_CFG_NQTY n) nqty else s3
  (s4.wr (R.SVI_SUBs_CFG_RECOV n) (v / 256 % 256)).wr (R.SVI_SUBs_CFG_KSLOT n) (v % 256)

def storeSvReg (s : State) (n : Nat) (r : SvReg) (v : Nat) : State :=
  match r with
  | .cfg => storeSvCfg s n v
  | .id => s.wr (R.SVI_SUBs_ID_APPID n) v
  | .macLo => s.wr (R.SVI_SUBs_MAC_LO_MAC_LO n) v
  | .macHi => s.wr (R.SVI_SUBs_MAC_HI_MAC_HI n) v
  | .confrev => s.wr (R.SVI_SUBs_CONFREV_CONFREV n) v
  | .mudly => s.wr (R.SVI_SUBs_MUDLY_MUDLY n) v
  | .nomdly => s.wr (R.SVI_SUBs_NOMDLY_NOMDLY n) v
  | .maxdly => s.wr (R.SVI_SUBs_MAXDLY_MAXDLY n) v

/-- SV_SUB_CONFIG_WRITE: a write to an RWL register of a subscription (R123); read-only under SVI_CTL.LOCK. One that does not clear EN
leaves an INVALID subscription INVALID (R136). -/
def execSvSubConfigWrite (n : Fin 64) (r : SvReg) (v : BitVec 32) (s : State) : Host.Outcome State Fault Refusal :=
  .next <|
    if s.on R.SVI_CTL_LOCK then s
    else
      let s1 := storeSvReg s n r v.toNat
      if subState s n = 5 ∧ subOn s1 n then s1 else if subOn s n || subOn s1 n then svRestart s1 n else s1

/-- SV_MAP_WRITE: SVI_MAPm (R122, R145); a change restarts a resampler with SRCSEL = 1. -/
def execSvMapWrite (m : Fin 192) (en : Bool) (sub : Fin 64) (qty : Fin 32) (s : State) : Host.Outcome State Fault Refusal :=
  .next <|
    if s.on R.SVI_CTL_LOCK then s
    else
      let s1 := (s.wrb (R.SVI_MAPm_EN m) en).wr (R.SVI_MAPm_SUB m) sub
      let s2 := if qty.val < 24 then s1.wr (R.SVI_MAPm_QTY m) qty else s1
      let same := s.on (R.SVI_MAPm_EN m) == s2.on (R.SVI_MAPm_EN m) && s.rd (R.SVI_MAPm_SUB m) == s2.rd (R.SVI_MAPm_SUB m)
        && s.rd (R.SVI_MAPm_QTY m) == s2.rd (R.SVI_MAPm_QTY m)
      if !same && s2.on (R.DCH_RSm_CFG_SRCSEL m) && rsRun s2 m then restartSv s2 m else s2

/-! ### Phase steps of active time (R135, R157) -/

/-- A time step of the followed base moves active time by `d` units of 2^−32 ns: grids and local resamplers (R157), and SV resamplers at
the next accepted sample (R135); key rollovers it passes (R449). -/
def phaseStep (s : State) (d : Int) : State :=
  let s1 := (List.range 4).foldl (fun a g => phaseStepFtg a d g) s
  let s2 := (List.range 64).foldl (fun a n => if subOn a n then setSub a n { subOf a n with restart := true } else a) s1
  rollAll s2

end Sys2Proof.Machine
end

