-- ==== Sys2Proof/Machine/Net.lean ====
section
/-! DEFINITION. The switch (R305 to R322, R337, R338): ports and links, ring and parallel redundancy, duplicate discard, the packet
buffer with its queues and gates, preemption, the host's frame paths. -/

namespace Sys2Proof.Machine

def setNet (s : State) (n : Net) : State := { s with net := n }
def portOf (s : State) (p : Nat) : NPort := mget s.net.ports p {}
def setPort (s : State) (p : Nat) (x : NPort) : State := setNet s { s.net with ports := mput s.net.ports p x }
def portUp (s : State) (p : Nat) : Bool := s.on (R.NET_Pp_STAT_LINK p)

/-! ### Addresses and ports -/

/-- NET_MAC; the source address of SB is one more (R308). -/
def netMac (s : State) : Nat := s.rd R.NET_MAC_HI_MAC_HI * 2 ^ 32 + s.rd R.NET_MAC_LO_MAC_LO

def prp (s : State) : Bool := s.on R.NET_CFG_RMODE

/-- Does SPEED hold a mode of the port (R305)? -/
def speedOk (s : State) (p : Nat) : Bool :=
  let v := s.rd (R.NET_Pp_CFG_SPEED p)
  if p < 2 then decide (v < 2) else v == 1 || v == 2

/-- The level of a port's TX_DISABLE pin: high while PD9 is off and while the port has no mode (R305, R526). -/
def txDisable (s : State) (p : Nat) : Bool := !s.pg 9 || !speedOk s p

/-- The wire time of `n` bytes in 2^−32 ns: 0.8 ns a byte at 10 Gb/s, 8 ns at 1 Gb/s. -/
def wireTime (s : State) (p n : Nat) : Nat :=
  if p < 2 ∧ s.rd (R.NET_Pp_CFG_SPEED p) = 0 then n * 4 * nsU / 5 else n * 8 * nsU

/-! ### The set-up for the class-0 bound (R322) -/

/-- Does a port's row hold: at 1 Gb/s preemption ACTIVE with ADDFRAG = 0, at 10 Gb/s ADDFRAG = 0 if it is used? -/
def c0PortOk (s : State) (p : Nat) : Bool :=
  let add0 := s.rd (R.NET_Pp_CFG_ADDFRAG p) == 0
  let active := s.rd (R.NET_Pp_STAT_VSTATE p) == 2
  !portUp s p || (if s.rd (R.NET_Pp_CFG_SPEED p) = 0 then !active || add0 else s.on (R.NET_Pp_CFG_PREEMPT p) && active && add0)

/-- C0OK after a change of anything it rests on; GCB0 leaves on PA and PB only (assumption 33). -/
def c0Update (s : State) : State :=
  s.wrb R.NET_STAT_C0OK (s.pg 8 && s.on R.NET_C0CFG_RESV7 && c0PortOk s 0 && c0PortOk s 1)

/-! ### The packet buffer (R316) -/

def cellsOf (n : Nat) : Nat := (n + 255) / 256
def queueCells (l : List EgFrame) : Nat := (l.map fun f => cellsOf f.len).sum
def reserved (p q : Nat) : Nat := if q = 7 ∧ p < 2 then 64 else 16
def queueOf (s : State) (p q : Nat) : List EgFrame := mget (portOf s p).queues q []
def setQueue (s : State) (p q : Nat) (l : List EgFrame) : State :=
  let x := portOf s p
  setPort s p { x with queues := mput x.queues q l }

/-- Cells beyond its reservation that a queue with `n` cells takes. -/
def sharedCells (p q n : Nat) : Nat := n - reserved p q

/-- Shared cells in use. -/
def sharedUsed (s : State) : Nat :=
  ((List.range 3).map fun p => ((List.range 8).map fun q => sharedCells p q (queueCells (queueOf s p q))).sum).sum

/-- The shared cells: 16,384 less what the 24 queues reserve. -/
def sharedTotal : Nat := 16384 - 22 * 16 - 2 * 64

/-- Is there reserved or shared room for `n` more cells in a queue? -/
def hasRoom (s : State) (p q n : Nat) : Bool :=
  let c := queueCells (queueOf s p q)
  let old := sharedCells p q c
  let new := sharedCells p q (c + n)
  decide (new ≤ old) || (decide (new ≤ sharedTotal / 4) && decide (sharedUsed s + (new - old) ≤ sharedTotal))

/-- A TX descriptor's answer: `f` over the entry of index `k`. -/
def modTx (s : State) (k : Nat) (f : TxDesc → TxDesc) : State :=
  setNet s { s.net with tx := s.net.tx.map fun x => if x.k = k then f x else x }

/-- A copy of a host frame will not be sent. -/
def txLost (x : TxDesc) : TxDesc :=
  let w := x.wait - 1
  { x with wait := w, result := if w = 0 then some (if x.sent then 1 else 4) else x.result }

/-- A frame is dropped at a port (R307, R316). -/
def dropFrame (s : State) (p : Nat) (f : EgFrame) : State :=
  let s1 := s.inc (R.NET_Pp_DROP_Q p)
  match f.kind with
  | .host k => modTx s1 k txLost
  | _ => s1

/-- A frame enters a queue of a port, or is dropped for want of room. -/
def enqueueFrame (s : State) (p q : Nat) (f : EgFrame) : State :=
  if hasRoom s p q (cellsOf f.len) then setQueue s p q (queueOf s p q ++ [f]) else dropFrame s p f

/-- The queue of a PCP at a port (R317); queue 7 is not for the frames that come here (assumption 34). -/
def queueFor (s : State) (p : Nat) (pcp : Option Nat) : Nat :=
  min 6 (s.rd (R.NET_Pp_PCPMAP_MAP p) / 16 ^ (pcp.getD (s.rd (R.NET_Pp_CFG_DPCP p))) % 8)

/-! ### Gates (R319, R320) -/

/-- A list is active. -/
def gateRun (s : State) (p : Nat) : Bool := s.on (R.NET_Pp_STAT_GRUN p)

/-- Is queue `q`'s gate open in entry `e` of a list of words? -/
def openIn (s : State) (l : List Nat) (q e : Nat) : Bool :=
  (q == 7 && s.on R.NET_C0CFG_RESV7) || (l.getD e 0xFF000000).testBit (24 + q)

/-- Is queue `q`'s gate open in entry `e` of the active list? -/
def entryOpen (s : State) (p q e : Nat) : Bool := openIn s (portOf s p).act q e

/-- Is queue `q`'s gate open now? Every gate is open with no list active or before its first cycle. -/
def netGateOpen (s : State) (p q : Nat) : Bool :=
  match gateRun s p, (portOf s p).entry with
  | true, some e => entryOpen s p q e
  | _, _ => true

/-- The interval of an entry in ns; 0 acts as one unit (assumption 35). -/
def entryNs (x : NPort) (e : Nat) : Nat := 64 * max 1 (x.act.getD e 0xFF000000 % 0x1000000)

/-- The cycle time of a port in ns; values outside the range act as the nearer limit (assumption 35). -/
def gateCyc (s : State) (p : Nat) : Nat := clamp 1000 1000000000 (s.rd (R.NET_Pp_GCYC_CYC p))

/-- The first cycle start at or after `t`, active time in ns. -/
def cycleStart (s : State) (p t : Nat) : Nat :=
  let b := (portOf s p).base
  let c := gateCyc s p
  if t ≤ b then b - (b - t) / c * c else b + (t - b + c - 1) / c * c

/-- Where entry `e` that starts at `t` ends: the last entry lasts to the cycle's end, and no entry passes it. -/
def entryEnd (x : NPort) (e t : Nat) : Nat := if x.actLen ≤ e then x.cycEnd else min x.cycEnd (t + entryNs x e)

/-- The instant at which queue `q`'s gate next closes, looking on from the end `t` of entry `e`; none if it stays open. -/
def closesAt (s : State) (p q : Nat) (x : NPort) : (fuel e t : Nat) → Option Nat
  | 0, _, _ => none
  | fuel + 1, e, t =>
    let wrap := t == x.cycEnd
    let e1 := if wrap then 0 else e + 1
    let x1 := if wrap then { x with cycEnd := x.cycEnd + gateCyc s p } else x
    if !openIn s x.act q e1 then some t else closesAt s p q x1 fuel e1 (entryEnd x1 e1 t)

/-- The entries of the inactive bank, which NET_Pp_GCLe show. -/
def bankWords (s : State) (p : Nat) : List Nat :=
  (List.range 64).map fun e => s.rd (R.NET_Pp_GCLe_GATES p e) * 0x1000000 + s.rd (R.NET_Pp_GCLe_INTV p e)

/-- Where the list that runs, or waits for its first cycle start, next closes queue `q`'s gate; a stop that is asked for opens every gate
at the cycle's end. -/
def listCloses (s : State) (p q : Nat) : Option Nat :=
  let x := portOf s p
  match gateRun s p, x.entry with
  | true, some e => (closesAt s p q x 130 e x.till).filter fun t => !x.stop || decide (t < x.cycEnd)
  | true, none => closesAt s p q { x with cycEnd := x.till } 130 0 x.till
  | _, _ => none

/-- The cycle start at which a swap that has been asked for makes the inactive bank active (R319). -/
def swapAt (s : State) (p : Nat) : Option Nat :=
  if (portOf s p).swap then some (cycleStart s p (max (portOf s p).change s.activeNs)) else none

/-- The instant at which queue `q`'s gate next closes, by the list that runs or by the one that a swap brings; none if it stays open. -/
def nextClose (s : State) (p q : Nat) : Option Nat :=
  match swapAt s p with
  | none => listCloses s p q
  | some w => match (listCloses s p q).filter fun t => decide (t < w) with
    | some t => some t
    | none => closesAt s p q { portOf s p with act := bankWords s p, actLen := s.rd (R.NET_Pp_GCTL_LEN p), cycEnd := w } 130 0 w

/-- Can a frame that takes `d` (2^−32 ns) complete before its gate next closes (R320)? -/
def fitsGate (s : State) (p q d : Nat) : Bool :=
  match nextClose s p q with
  | some t => decide (actU s + d ≤ t * nsU)
  | none => true

/-- Is preemption active, so that queues 0 to 6 are preemptable (R321, assumption 36)? -/
def preemptActive (s : State) (p : Nat) : Bool := s.rd (R.NET_Pp_STAT_VSTATE p) == 2
def preemptable (s : State) (p q : Nat) : Bool := preemptActive s p && q != 7

/-- The gate state of a port moves on from the end of an entry or a wait. -/
def gateNext (s : State) (p : Nat) : State :=
  let x := portOf s p
  let startCycle : NPort :=
    let y := { x with entry := some 0, cycEnd := x.till + gateCyc s p }
    { y with till := entryEnd y 0 x.till }
  match x.entry with
  | none => setPort s p startCycle
  | some e =>
    if x.till = x.cycEnd then setPort s p startCycle
    else setPort s p { x with entry := some (e + 1), till := entryEnd x (e + 1) x.till }

/-- The octets of the smallest fragment (R321). -/
def minFrag (s : State) (p : Nat) : Nat := 64 * (1 + s.rd (R.NET_Pp_CFG_ADDFRAG p))

/-- The instant, now or later, at which the preemptable frame on the wire can be cut (R321): the fragment in transmission, after its
preamble, has the smallest size and at least 64 octets are left; none where it goes on to its end (assumption 134). -/
def cutAt (s : State) (p : Nat) : Option Nat :=
  let x := portOf s p
  let c := max (tb2U s) (x.frag + wireTime s p (8 + minFrag s p))
  if c + wireTime s p 76 ≤ x.fin then some c else none

/-- A preemptable frame whose gate has closed is held (R320) where it can be cut (R321); when its gate opens again it goes on. A fragment ends with 4 octets of its own and a gap of 12, the next has a preamble of 8. -/
def gateHold (s : State) (p : Nat) : State :=
  let x := portOf s p
  let now := tb2U s
  if x.pre && decide (now < x.fin) && !netGateOpen s p x.q then
    match cutAt s p with
    | some c => setPort s p { x with held := some (x.fin - c + wireTime s p 8), fin := c + wireTime s p 16, pre := false }
    | none => s
  else s

/-- GATE_ENTRY_ADVANCE: the running entry, or the wait for the first cycle, ends at port `p` (R319). -/
def execGateEntryAdvance (p : Fin 3) (s : State) : Host.Outcome State Fault Refusal :=
  .next (if gateRun s p && decide ((portOf s p).till ≤ s.activeNs) then gateHold (gateNext s p) p else s)

/-- The list of a port waits for the next cycle start, with all gates open. -/
def gateWait (s : State) (p : Nat) : State :=
  let x := portOf s p
  setPort s p { x with entry := none, till := cycleStart s p s.activeNs }

/-- A phase step of active time ends the running entries (R319). -/
def gateStep (s : State) : State := (List.range 3).foldl (fun a p => if gateRun a p then gateWait a p else a) s

def putBank (p : Nat) : List Nat → Nat → State → State
  | [], _, s => s
  | v :: t, e, s => putBank p t (e + 1) ((s.wr (R.NET_Pp_GCLe_GATES p e) (v / 0x1000000)).wr (R.NET_Pp_GCLe_INTV p e) (v % 0x1000000))

/-- The banks change places: the registers show the bank that was active. -/
def swapBanks (s : State) (p : Nat) : State :=
  let x := portOf s p
  let new := bankWords s p
  let len := s.rd (R.NET_Pp_GCTL_LEN p)
  let old := if x.act.isEmpty then List.replicate 64 0xFF000000 else x.act
  let s1 := (putBank p old 0 s).wr (R.NET_Pp_GCTL_LEN p) x.actLen
  setPort (s1.wr (R.NET_Pp_STAT_GBANK p) (1 - s.rd (R.NET_Pp_STAT_GBANK p))) p { x with act := new, actLen := len, swap := false }

/-- GATE_LIST_SWAP: the first cycle start at or after the change time is reached (R319). -/
def execGateListSwap (p : Fin 3) (s : State) : Host.Outcome State Fault Refusal :=
  .next <|
    let x := portOf s p
    let t := cycleStart s p x.change
    if !x.swap || decide (s.activeNs < t) then s
    else
      let s1 := (swapBanks s p).wrb (R.NET_Pp_STAT_GRUN p) true
      let y := portOf s1 p
      gateHold (gateNext (setPort s1 p { y with entry := none, till := cycleStart s p (s.activeNs - (gateCyc s p - 1)) }) p) p

/-- GATE_LIST_STOP: the next cycle start after a write of STOP is reached (R341). -/
def execGateListStop (p : Fin 3) (s : State) : Host.Outcome State Fault Refusal :=
  .next <|
    let x := portOf s p
    if !x.stop then s
    else if gateRun s p && x.entry.isSome && decide (s.activeNs < x.cycEnd) then s
    else (setPort s p { x with stop := false, entry := none, till := 0 }).wrb (R.NET_Pp_STAT_GRUN p) false

/-! ### Sending (R315, R318, R321) -/

/-- TX descriptors are answered in index order: the status word, then CONS (R514). -/
def txAnswer (fuel : Nat) (s : State) : State :=
  match fuel, s.net.tx with
  | fuel + 1, x :: t =>
    match x.result with
    | none => s
    | some r =>
      let st := fun p => if x.stamp ∧ r = 1 then mget x.stamps p 0 else 0
      let a := descAddr s 1 x.k
      let s1 := dramPut s (a + 8) (leBytes 4 (st 0) ++ leBytes 4 (st 1) ++ leBytes 4 (st 2))
      let s2 := dramPut s1 (a + 4) (leBytes 4 (2 ^ 31 + r * 2 ^ 28))
      txAnswer fuel (ringVec ((setNet s2 { s2.net with tx := t }).inc (R.HST_Rr_CONS_CONS 1)) 1)
  | _, _ => s

def txFlush (s : State) : State := txAnswer s.net.tx.length s

/-- What is added to the correctionField of a Sync from port `port` as it leaves port `o` (R354): residence time, from stamp to stamp,
link delay, asymmetry. -/
def syncCorr (s : State) (port base : Nat) (stamp : Int) (o pos : Nat) : Int × State :=
  let res := egressStamp s base o pos - stamp
  let s1 := s.inc R.TIM_TC_CNT_CORR
  if s.on (R.TIM_Pp_PDSTAT_VALID port) then
    (res + sgn 32 (s.rd (R.TIM_Pp_MLD_MLD port)) * 2 ^ 28 + rdiv (sgn 32 (s.rd (R.TIM_Pp_ASYM_ASYM port)) * 2 ^ 32) 1000, s1)
  else (res, s1.sat1 R.TIM_TC_CNT_NOLD)

/-- The start of a frame's transmission at position `pos` of the NET cycle: what depends on the stamp it leaves with, and the counts. -/
def frameSent (s : State) (p pos : Nat) (f : EgFrame) : State × EgFrame :=
  let s1 := s.inc (R.NET_Pp_TX_TX p)
  match f.kind with
  | .sync port base stamp => let c := syncCorr s1 port base stamp p pos; (c.2, { f with corr := c.1 })
  | .goose c _ _ no =>
    let x := mget s1.net.pub c {}
    if x.counted < no then
      ((setNet s1 { s1.net with pub := mput s1.net.pub c { x with counted := no } }).sat1 (R.NET_GCBc_CNT_SENT c), f)
    else (s1, f)
  | .host k =>
    (modTx s1 k fun x => { x with wait := x.wait - 1, sent := true, stamps := mput x.stamps p (shortOf s (egressStamp s s.followed p pos)),
                                  result := if x.wait ≤ 1 then some 1 else x.result }, f)
  | .pdReq seq _ =>
    let y := mget s1.tim.pd p {}
    ({ s1 with tim := { s1.tim with pd := mput s1.tim.pd p { y with
        t1 := if y.open_ ∧ y.seq = seq then some (egressStamp s 2 p pos) else y.t1 } } }, f)
  | .pdResp _ arrived => (s1, { f with corr := egressStamp s 2 p pos - arrived })
  | _ => (s1, f)

/-- A frame of queue `q` starts on an idle wire. -/
def startFrame (s : State) (p pos q : Nat) (f : EgFrame) : State :=
  let r := frameSent s p pos f
  let x := portOf r.1 p
  txFlush (setPort r.1 p { x with q := q, fin := tb2U s + wireTime s p (f.len + 20), frag := tb2U s, pre := preemptable s p q,
                                  last := some r.2 })

/-- An express frame interrupts the preemptable one in transmission (R321), after the fragment's last octets and its gap; what is left of
that one is held. -/
def startExpress (s : State) (p pos : Nat) (f : EgFrame) : State :=
  let r := frameSent s p pos f
  let x := portOf r.1 p
  let d := wireTime s p (f.len + 36)
  txFlush (setPort r.1 p { x with fin := tb2U s + d, pre := false, held := some (x.fin - tb2U s + wireTime s p 8), last := some r.2 })

/-- May the head of queue `q` start, `lead` octets from now (R318, R320)? -/
def startsAfter (s : State) (p q lead : Nat) : Bool :=
  match queueOf s p q with
  | [] => false
  | f :: _ => netGateOpen s p q && (preemptable s p q || fitsGate s p q (wireTime s p (lead + f.len + 8)))

/-- May the head of queue `q` start now? -/
def mayStart (s : State) (p q : Nat) : Bool := startsAfter s p q 0

/-- The highest queue that may start, among queues below `n`. -/
def pickQueue (s : State) (p : Nat) : Nat → Option Nat
  | 0 => none
  | n + 1 => if mayStart s p n then some n else pickQueue s p n

/-- Takes the head of a queue and starts it with `k`. -/
def sendHead (s : State) (p q : Nat) (k : State → Nat → Nat → EgFrame → State) : State :=
  match queueOf s p q with
  | [] => s
  | f :: t => k (setQueue s p q t) p q f

/-- The next thing a port that is up sends, at position `pos` of the NET cycle. -/
def egress (s : State) (p pos : Nat) : State :=
  let x := portOf s p
  let now := tb2U s
  if now < x.fin then
    if x.pre && preemptActive s p && cutAt s p == some now && startsAfter s p 7 16 then
      sendHead s p 7 fun a p _ f => startExpress a p pos f
    else s
  else match x.held with
    | some rest =>
      if mayStart s p 7 then sendHead s p 7 fun a p _ f =>
        let a1 := startFrame a p pos 7 f
        setPort a1 p { portOf a1 p with q := x.q }
      else if netGateOpen s p x.q then setPort s p { x with held := none, fin := now + rest, frag := now, pre := true }
      else s
    | none => match pickQueue s p 8 with
      | some q => sendHead s p q fun a p q f => startFrame a p pos q f
      | none => s

/-- EGRESS_TRANSMIT: a port starts what it may start, its first octet at a position in the NET cycle (R346); a port that is down, or without a mode, transmits nothing (R305, R307). -/
def execEgressTransmit (x : Fin 3 × Fin 8) (s : State) : Host.Outcome State Fault Refusal :=
  .next (if portUp s x.1 && s.pg 8 then egress s x.1 x.2 else s)

/-- The tag a frame of local origin bears on port `p` (R310, R312). -/
def localTag (s : State) (p seq : Nat) : RedTag :=
  if 2 ≤ p then .none
  else if prp s then .rct (p == 1) (Fin.ofNat 65536 seq)
  else .hsr (Fin.ofNat 65536 seq)

/-- One copy of a frame of local origin, on port `p`; octets of the tag or trailer are added on PA and PB. -/
def sendCopy (f : EgFrame) (qOf : Nat → Nat) (seq : Nat) (s : State) (p : Nat) : State :=
  let g := { f with tag := localTag s p seq, len := f.len + (if p < 2 then 6 else 0) }
  if portUp s p then enqueueFrame s p (qOf p) g else dropFrame s p g

/-- A frame of local origin leaves on `ports`: where one of them is up, on those that are up (R315). -/
def sendLocal (s : State) (ports : List Nat) (qOf : Nat → Nat) (f : EgFrame) : State :=
  let up := ports.filter fun p => portUp s p
  let seq := s.net.seq
  let s1 := if ports.any (· < 2) then setNet s { s.net with seq := (seq + 1) % 65536 } else s
  (if up.isEmpty then ports else up).foldl (sendCopy f qOf seq) s1

/-- The wire length of a frame of `n` octets: padded to 60, with its FCS. -/
def wireLen (n : Nat) : Nat := max 60 n + 4

/-- The octets of a supervision frame (R314): node type 20 in PRP, 23 in HSR (assumption 135). -/
def supBytes (s : State) : List Byte :=
  beBytes 6 0x01154E000100 ++ beBytes 6 (netMac s) ++ [0x88, 0xFB, 0, 1] ++ beBytes 2 s.net.supSeq ++ [if prp s then 20 else 23, 6]
    ++ beBytes 6 (netMac s) ++ [0, 0]

/-- Has `d` ns of TB2 passed since `t`, or has nothing been sent yet? -/
def intervalDone (s : State) (t : Option Nat) (d : Nat) : Bool := match t with | some t => decide (t + d ≤ s.tb2Ns) | none => true

/-- NET_SUP_CFG.INTV in ns; values outside 100 to 10,000 ms act as the nearer limit (R340). -/
def supNs (s : State) : Nat := clamp 100 10000 (s.rd R.NET_SUP_CFG_INTV) * 1000000

/-- SUPERVISION_SEND: INTV ms of TB2 since the latest one, a supervision frame of the selected node type on both ports (R314). -/
def execSupervisionSend (s : State) : Host.Outcome State Fault Refusal :=
  .next <|
    if !s.pg 8 || !intervalDone s s.net.supAt (supNs s) then s
    else
      let f : EgFrame := { kind := .supervision, len := wireLen (supBytes s).length, bytes := supBytes s }
      let s1 := setNet s { s.net with supAt := some s.tb2Ns, supSeq := (s.net.supSeq + 1) % 65536 }
      sendLocal s1 [0, 1] (fun p => queueFor s p none) f

/-! ### Links (R307) -/

/-- The queues of a port are flushed, their frames counted as drops. -/
def flushPort (s : State) (p : Nat) : State :=
  let fs := (List.range 8).flatMap fun q => queueOf s p q
  let x := portOf s p
  txFlush (fs.foldl (fun a f => dropFrame a p f) (setPort s p { x with queues := [], fin := 0, pre := false, held := none }))

/-- Is preemption to be verified: PA or PB, PREEMPT set, the link up (R321)? -/
def verifies (s : State) (p : Nat) : Bool := decide (p < 2) && s.on (R.NET_Pp_CFG_PREEMPT p) && portUp s p

/-- The verify state after a link has changed (R321). -/
def verifyStart (s : State) (p : Nat) : State :=
  c0Update ((setPort s p { portOf s p with verify := 0, vAt := tb2U s }).wr (R.NET_Pp_STAT_VSTATE p) (if verifies s p then 1 else 0))

/-- The verify state after PREEMPT has changed: where verification has failed, the port waits for its link to come up again (R321). -/
def verifyAgain (s : State) (p : Nat) : State :=
  if 3 ≤ (portOf s p).verify then c0Update (s.wr (R.NET_Pp_STAT_VSTATE p) (if verifies s p then 3 else 0)) else verifyStart s p

/-- The link-delay value and the exchange in progress of a port that goes down end (R353). -/
def pdDown (s : State) (p : Nat) : State :=
  { s.wrb (R.TIM_Pp_PDSTAT_VALID p) false with tim := { s.tim with pd := mdel s.tim.pd p } }

/-- LINK_DOWN: a port has lost lock. -/
def execLinkDown (p : Fin 3) (s : State) : Host.Outcome State Fault Refusal :=
  .next <|
    if !portUp s p then s
    else
      let s1 := ((s.wrb (R.NET_Pp_STAT_LINK p) false).wrb (R.NET_Pp_STAT_LINKCHG_STK p) true).logIx 4 1 p
      let s2 := { s1 with prv := { s1.prv with rxBad := s1.prv.rxBad.filter (· ≠ p.val) } }
      verifyStart (pdDown (flushPort (linkItem s2 p) p) p) p

/-- LINK_UP: 10 ms of unbroken lock; a port without a mode, or without its SerDes, stays down (R305, R22). -/
def execLinkUp (p : Fin 3) (s : State) : Host.Outcome State Fault Refusal :=
  .next <|
    if portUp s p || txDisable s p || !s.pg 8 then s
    else
      let s1 := ((s.wrb (R.NET_Pp_STAT_LINK p) true).wrb (R.NET_Pp_STAT_LINKCHG_STK p) true).logIx 4 2 p
      verifyStart (linkItem s1 p) p

/-- PREEMPT_VERIFY: an attempt of the verify exchange succeeds, or times out after 10 ms; three timeouts fail it (R321). -/
def execPreemptVerify (p : Fin 3) (ok : Bool) (s : State) : Host.Outcome State Fault Refusal :=
  .next <|
    if s.rd (R.NET_Pp_STAT_VSTATE p) ≠ 1 then s
    else
      let x := portOf s p
      if ok then c0Update (s.wr (R.NET_Pp_STAT_VSTATE p) 2)
      else if tb2U s < x.vAt + 10000000 * nsU then s
      else if 3 ≤ x.verify + 1 then c0Update ((setPort s p { x with verify := 3 }).wr (R.NET_Pp_STAT_VSTATE p) 3)
      else setPort s p { x with verify := x.verify + 1, vAt := tb2U s }

/-! ### Duplicate discard (R313) -/

def dupFind (s : State) (src seq : Nat) : Option DupEnt := s.net.dup.find? fun e => e.src == src && e.seq == seq
def dupDel (l : List DupEnt) (src seq : Nat) : List DupEnt := l.filter fun e => !(e.src == src && e.seq == seq)

/-- The entry of a frame changes; a new one replaces the oldest of a full table. -/
def dupPut (s : State) (e : DupEnt) : State :=
  match dupFind s e.src e.seq with
  | some _ => setNet s { s.net with dup := s.net.dup.map fun x => if x.src = e.src ∧ x.seq = e.seq then e else x }
  | none =>
    if s.net.dup.length < 8192 then setNet s { s.net with dup := e :: s.net.dup }
    else (setNet s { s.net with dup := e :: s.net.dup.dropLast }).sat1 R.NET_RED_CNT1_EVICT

/-- DUP_ENTRY_EXPIRE: an entry is forgotten 400 ms after its creation. -/
def execDupEntryExpire (src : Nat) (seq : Fin 65536) (s : State) : Host.Outcome State Fault Refusal :=
  .next <|
    match dupFind s src seq with
    | some e => if tb2U s < e.born + 400000000 * nsU then s else setNet s { s.net with dup := dupDel s.net.dup src seq }
    | none => s

/-! ### Local delivery (R337) -/

/-- A frame goes to the host receive ring (R337, R514): `cls` is the descriptor's class. -/
def toHost (s : State) (p cls : Nat) (f : Frame) : State :=
  let tagged := match f.tag with | .none => 0 | _ => 1
  let seq := match f.tag with | .hsr q => q.val | .rct _ q => q.val | .none => 0
  let w0 := cls * 2 ^ 28 + (if f.pcp.isSome then 2 ^ 27 else 0) + tagged * 2 ^ 26 + p * 2 ^ 24 + f.bytes.length % 2048
  let d := leBytes 4 w0 ++ leBytes 4 (shortOf s (ingressStamp s s.followed p f.pos)) ++ leBytes 4 s.hst.delivery ++ leBytes 4 seq ++ padTo 16 []
  ringPush { s with hst := { s.hst with delivery := (s.hst.delivery + 1) % 2 ^ 32 } } 0 d f.bytes

/-- The subscriptions that a GOOSE frame matches by address, APPID and port, and by its names (R330). -/
def gsubCand (s : State) (f : GFrame) : List (Nat × Gsub) :=
  s.img.gsubs.filter fun e => e.2.dst == f.dst && e.2.appid == f.appid &&
    (if f.port.val = 2 then s.rd (R.NET_GSUBs_STAT_SPORT e.1) == 1 else s.rd (R.NET_GSUBs_STAT_SPORT e.1) == 0)
def gsubMatch (f : GFrame) (e : Nat × Gsub) : Bool := e.2.gocbRef == f.gocbRef && e.2.goID == f.goID && e.2.datSet == f.datSet

/-- Is a sampled-value frame subscribed (R118)? -/
def svSubscribed (s : State) (f : SvFrame) : Bool := (svCands s f).any fun n => svNameOk s n f

def isMulticast (a : Nat) : Bool := (a / 2 ^ 40) % 2 == 1
/-- Is a frame addressed to the device: a group address, or one of its two addresses, at any port (R310, R337)? -/
def toDevice (s : State) (_p dst : Nat) : Bool := isMulticast dst || dst == netMac s || dst == netMac s + 1

/-- Delivery by class; `first` is false for a ring duplicate of a PTP frame, which goes to TIM only (R352). -/
def deliverLocal (s : State) (p : Nat) (f : Frame) (first : Bool) : State :=
  let multi := s.on R.NET_CFG_HOSTMC
  match f.kind with
  | .sv g => let s1 := s.deliver .svi p f; if multi && !svSubscribed s g then toHost s1 p 0 f else s1
  | .goose _ => let s1 := s.deliver .goose p f; if multi then toHost s1 p 1 f else s1
  | .ptpSync _ => s.deliver .tim p f
  | .peerDelay false => s.deliver .tim p f
  | .peerDelay true => let s1 := s.deliver .tim p f; if first then toHost s1 p 2 f else s1
  | .ptpGeneral => let s1 := s.deliver .tim p f; if first then toHost s1 p 2 f else s1
  | .supervision => toHost s p 3 f
  | .beacon _ => s.deliver .twn p f
  | .twin _ => s.deliver .twn p f
  | .pause => s
  | .other =>
    if f.dst = 0xFFFFFFFFFFFF ∨ !isMulticast f.dst then toHost s p 4 f
    else if s.img.hostFilter.contains f.dst then toHost s p 5 f
    else s

def isPtp (k : FrameKind) : Bool := match k with | .ptpSync _ => true | .ptpGeneral => true | .peerDelay _ => true | _ => false

/-! ### Receipt (R305 to R313) -/

/-- Octets from destination MAC to FCS as received. -/
def frameLen (f : Frame) : Nat := f.bytes.length + 4 + (match f.tag with | .none => 0 | _ => 6)

/-- The base that tracks a PTP domain; TB2 where none does (R354). -/
def baseOfDomain (s : State) (d : Nat) : Nat :=
  (([0, 1, 3].find? fun b => s.rd (R.TIM_TBb_CFG_MODE b) == 1 && s.rd (R.TIM_TBb_CFG_DOMAIN b) == d)).getD 2

/-- What NET queues to forward a frame. -/
def fwdFrame (s : State) (p : Nat) (f : Frame) : EgFrame :=
  let k := match f.kind with
    | .ptpSync d => let b := baseOfDomain s d; EgKind.sync p b (ingressStamp s b p f.pos)
    | _ => .forwarded
  { kind := k, len := frameLen f, tag := f.tag, bytes := f.bytes }

/-- Would a frame of `n` octets leave port `o` cut through: its queue empty, the wire idle, its gate open (R311), and, of an express
queue, the frame over before the gate closes (R320)? -/
def cutThrough (s : State) (o q n : Nat) : Bool :=
  let x := portOf s o
  (queueOf s o q).isEmpty && decide (x.fin ≤ tb2U s) && x.held.isNone && netGateOpen s o q &&
    (preemptable s o q || fitsGate s o q (wireTime s o (n + 8)))

/-- Does a ring frame go on out of the other port (R310)? -/
def goesOn (s : State) (p : Nat) (f : Frame) : Bool :=
  portUp s (1 - p) && f.dst != netMac s && f.src != netMac s && (match f.kind with | .peerDelay _ => false | _ => true)

/-- A frame leaves the other ring port, at once, at the position it came at (assumption 136), or through its queue. -/
def forward (s : State) (p : Nat) (f : Frame) : State :=
  let o := 1 - p
  let q := queueFor s o (f.pcp.map (·.val))
  if cutThrough s o q (frameLen f) then startFrame s o f.pos q (fwdFrame s p f) else enqueueFrame s o q (fwdFrame s p f)

/-- A good tagged frame on a ring port (R310, R313). -/
def ringFrame (s : State) (p : Nat) (f : Frame) (seq : Nat) : State :=
  let o := 1 - p
  let e := (dupFind s f.src seq).getD { src := f.src, seq := seq, born := tb2U s }
  let own := f.src == netMac s
  let here := toDevice s p f.dst && !own
  let fwd := goesOn s p f && !e.fwd.contains o
  let again := (here && e.loc && !isPtp f.kind) || (goesOn s p f && e.fwd.contains o)
  let s1 := dupPut s { e with loc := e.loc || here, fwd := if fwd then o :: e.fwd else e.fwd }
  let s2 := if fwd then forward s1 p f else s1
  let s3 := if again then s2.sat1 R.NET_RED_CNT0_DUP else s2
  if here && (!e.loc || isPtp f.kind) then deliverLocal s3 p f (!e.loc) else s3

/-- A good frame with a trailer on a port of a parallel pair (R312, R313). -/
def prpFrame (s : State) (p : Nat) (f : Frame) (lanB : Bool) (seq : Nat) : State :=
  let s1 := if lanB == (p == 1) then s else s.sat1 R.NET_RED_CNT0_WRONGLAN
  if !toDevice s p f.dst then s1
  else match dupFind s1 f.src seq with
    | some _ => s1.sat1 R.NET_RED_CNT0_DUP
    | none => deliverLocal (dupPut s1 { src := f.src, seq := seq, born := tb2U s, loc := true }) p f true

/-- A good frame, by port and redundancy mode. -/
def goodFrame (s : State) (p : Nat) (f : Frame) : State :=
  let s1 := s.inc (R.NET_Pp_RX_RX p)
  if p = 2 then (if toDevice s p f.dst then deliverLocal s1 p f true else s1)
  else if prp s then
    match f.tag with
    | .rct b q => prpFrame s1 p f b q
    | _ => if toDevice s p f.dst then deliverLocal s1 p f true else s1
  else match f.tag with
    | .hsr q => ringFrame s1 p f q
    | _ => s1.sat1 R.NET_RED_CNT1_UNTAG

/-- A frame with a bad FCS: ended with the inverse FCS where it was being forwarded cut through (R311), dropped otherwise. -/
def badFrame (s : State) (p : Nat) (f : Frame) : State :=
  let o := 1 - p
  let q := queueFor s o (f.pcp.map (·.val))
  let ring := decide (p < 2) && !prp s
  match f.tag with
  | .hsr n =>
    let e := (dupFind s f.src n).getD { src := f.src, seq := n, born := tb2U s }
    if ring && goesOn s p f && !e.fwd.contains o && cutThrough s o q (frameLen f) then
      (startFrame (dupPut s { e with fwd := o :: e.fwd }) o f.pos q { fwdFrame s p f with stomp := true }).sat1 (R.NET_Pp_ERR_STOMP p)
    else s.sat1 (R.NET_Pp_ERR_FCS p)
  | _ => s.sat1 (R.NET_Pp_ERR_FCS p)

/-- FRAME_RECEIVE: a frame arrives at port `p`. -/
def execFrameReceive (p : Fin 3) (f : Frame) (s : State) : Host.Outcome State Fault Refusal :=
  .next <|
    if !portUp s p || !s.pg 8 then s
    else if frameLen f > 1522 then s.sat1 (R.NET_Pp_ERR_OVERSIZE p)
    else if !f.fcsOk then badFrame s p f
    else if f.kind = .pause then s.sat1 (R.NET_Pp_ERR_FCS p)
    else goodFrame s p f

/-! ### The host's transmit path (R338, R514) -/

/-- Why a TX descriptor is refused; none where its frame is sent. -/
def txRefusal (ports queue len : Nat) : Option Nat :=
  let tagged := len + 4 + (if ports.testBit 0 then 6 else 0)
  if queue = 7 then some 2
  else if len < 14 ∨ 1518 < len ∨ 1522 < tagged then some 3
  else if ports = 0 then some 5
  else none

/-- HOST_TX_DESCRIPTOR: the next entry of the TX ring is taken. -/
def execHostTxDescriptor (s : State) : Host.Outcome State Fault Refusal :=
  .next <|
    let k := ringCons s 1 + s.net.tx.length
    if ringLog s 1 = 0 ∨ ringCount s 1 ≤ s.net.tx.length ∨ !s.on R.MEM_STAT_TRAINED ∨ !s.pg 8 then s
    else
      let d := dramGet s (descAddr s 1 k) 4
      let s0 := d.2
      let w := leNat d.1
      let ports := w / 2 ^ 30
      let queue := w / 2 ^ 27 % 8
      let len := w % 2048
      let list := (if ports.testBit 0 then [0, 1] else []) ++ (if ports.testBit 1 then [2] else [])
      let up := list.filter fun p => portUp s p
      let copies := if up.isEmpty then list.length else up.length
      let add := fun (a : State) (d : TxDesc) => setNet a { a.net with tx := a.net.tx ++ [d] }
      match txRefusal ports queue len with
      | some r => txFlush (add s0 { k := k, wait := 0, result := some r })
      | none =>
        let b := dramGet s0 (bufAddr s 1 k) len
        let s1 := add b.2 { k := k, wait := copies, stamp := w.testBit 26 }
        txFlush (sendLocal s1 list (fun _ => queue) { kind := .host k, len := wireLen len, bytes := b.1 })

end Sys2Proof.Machine
end

