-- ==== Sys2Proof/Machine/Goose.lean ====
section
/-! DEFINITION. The GOOSE publisher and subscriber (R323 to R333). -/

namespace Sys2Proof.Machine

/-! ### Encoding (R325) -/

/-- Bytes of a length in BER's definite form. -/
def berLen (n : Nat) : List Byte :=
  if n < 128 then leBytes 1 n else if n < 256 then [0x81] ++ leBytes 1 n else [0x82] ++ beBytes 2 n

def tlv (tag : Byte) (c : List Byte) : List Byte := tag :: (berLen c.length ++ c)

/-- The fewest octets, from `n` up, that hold an integer in two's complement. -/
def minOctets (i : Int) : (fuel n : Nat) → Nat
  | 0, n => n
  | fuel + 1, n => if -(2 ^ (8 * n - 1) : Int) ≤ i ∧ i < 2 ^ (8 * n - 1) then n else minOctets i fuel (n + 1)

/-- Minimal two's complement, most significant octet first. -/
def berInt (i : Int) : List Byte := let n := minOctets i 5 1; beBytes n (usg (8 * n) i)

/-- A member's encoding; the value of a Quality is its 13 bits, first bit highest, that of a Timestamp its 8 octets. -/
def encodeMember (t : GType) (v : Nat) : List Byte :=
  match t with
  | .boolean => tlv 0x83 [if v % 2 = 1 then 0xFF else 0x00]
  | .int32 => tlv 0x85 (berInt (sgn 32 v))
  | .float32 => tlv 0x87 (0x08 :: beBytes 4 v)
  | .dbpos => tlv 0x84 [0x06, BitVec.ofNat 8 (v % 4 * 64)]
  | .quality => tlv 0x84 (0x03 :: beBytes 2 (v % 2 ^ 13 * 8))
  | .timestamp => tlv 0x91 (beBytes 8 v)

/-! ### Members (R324, R329) -/

/-- The time-quality octet (R329, R361): leap seconds known, clock failure, clock not synchronised, accuracy (assumption 38). -/
def timeQuality (s : State) : Nat :=
  let tq := s.rd R.TIM_ACT_STAT_TQ
  let locked := decide (tq < 2)
  (if s.on R.TIM_UTC_VALID then 0x80 else 0) + (if tq = 3 then 0x40 else 0) + (if locked then 0 else 0x20)
    + (if locked then 20 else 31)

/-- UtcTime of active time now: seconds, fraction, TimeQuality. -/
def utcNow (s : State) : Nat :=
  let ns : Int := (s.activeNs : Int) - sgn 16 (s.rd R.TIM_UTC_OFFSET) * 1000000000
  let n := ns.toNat
  (n / 1000000000 % 2 ^ 32) * 2 ^ 32 + (n % 1000000000) * 2 ^ 24 / 1000000000 * 256 + timeQuality s

/-- The task whose output a scheme point of a control block is. -/
def pointTask (s : State) (c m : Nat) : Option Nat :=
  match s.img.outBits.find? fun e => e.2 == .goose c m with
  | some e => some (e.1 / 32 / 4096)
  | none => (s.img.outWords.find? fun e => e.2 == .goose c m).map fun e => e.1 / 4096

/-- Whose timestamp a member bears or sets: a bay, or 32 + a task. -/
def memberOwner (s : State) (c m : Nat) (src : GSrc) : Option Nat :=
  match src with
  | .verdict b _ _ => some b
  | .snap b _ _ => some b
  | .bayQuality b _ => some b
  | .point _ => (pointTask s c m).map (· + 32)
  | _ => none

/-- The bits of a source word from `bit` on; a whole word for INT32 and FLOAT32. -/
def fromWord (t : GType) (w : Word) (bit : Nat) : Nat := match t with | .int32 => w.toNat | .float32 => w.toNat | _ => w.toNat / 2 ^ bit

/-- The value that a member's source gives it. -/
def sourceVal (s : State) (c m : Nat) (t : GType) (src : GSrc) : Nat :=
  match src with
  | .verdict b f bit => fromWord t (mget s.net.c0val (3 * b + f) 0) bit
  | .snap b w bit => fromWord t (liveVal s (ptVerdict b w)) bit
  | .point bit => fromWord t (mget s.sch.goose (1024 * c + m) 0) bit
  | .bayQuality b c0 => bayQ13 s b c0
  | .schemeQuality => if s.rd R.SCH_STAT_STATE = 2 ∨ s.on R.PRV_STAT_SAFE then 0x0800 else 0
  | .bayTime b => mget s.net.ts (64 * c + b) 0
  | .taskTime k => mget s.net.ts (64 * c + 32 + k) 0
  | .const v => v.toNat

/-- The present value of member `m` of control block `c`; in safe state every quality member is invalid (R432). -/
def memberVal (s : State) (c m : Nat) (t : GType) (src : GSrc) : Nat :=
  let v := sourceVal s c m t src
  if t = .quality ∧ s.on R.PRV_STAT_SAFE = true then v % 0x800 + 0x800 else v

/-- The encoded members from number `m` on. -/
def membersData (s : State) (c m : Nat) : List (GType × GSrc) → List (List Byte)
  | [] => []
  | e :: t => encodeMember e.1 (memberVal s c m e.1 e.2) :: membersData s c (m + 1) t

/-- The owners of members whose encoding differs from `old`. -/
def changedOwners (s : State) (c m : Nat) (old : List (List Byte)) : List (GType × GSrc) → List Nat
  | [] => []
  | e :: t =>
    let rest := changedOwners s c (m + 1) old.tail t
    if old.head? = some (encodeMember e.1 (memberVal s c m e.1 e.2)) then rest
    else (memberOwner s c m e.2).toList ++ rest

/-! ### Publishing (R326 to R329) -/

def pubOf (s : State) (c : Nat) : Pub := mget s.net.pub c {}
def setPub (s : State) (c : Nat) (x : Pub) : State := setNet s { s.net with pub := mput s.net.pub c x }

def t1Ns (s : State) (c : Nat) : Nat := clamp 1 4000 (s.rd (R.NET_GCBc_TIM_T1 c)) * 250000
def t0Ns (s : State) (c : Nat) : Nat := clamp 1000 60000 (s.rd (R.NET_GCBc_TIM_T0 c)) * 1000000

/-- timeAllowedToLive: twice the interval to the next frame, in ms rounded up (R328). -/
def talMs (step : Nat) : Nat := (2 * step + 999999) / 1000000

/-- stNum and sqNum wrap from 0xFFFF_FFFF to 1 (R327). -/
def nextNum (n : Nat) : Nat := if n = 0xFFFFFFFF then 1 else n + 1

/-- The PCP of a control block: 7 for GCB0 while RESV7 = 1 (R322). -/
def gcbPcp (s : State) (c : Nat) (g : Gcb) : Nat := if c = 0 ∧ s.on R.NET_C0CFG_RESV7 = true then 7 else g.pcp % 8

/-- Octets of a tag, by SEC_KCFG.ALG (R449). -/
def tagOctets (alg : Nat) : Nat := if alg = 0 then 10 else if alg = 2 then 32 else if alg = 3 then 8 else 16

/-- The security extension of a frame signed with an algorithm and a key ID: both, and the tag, a free value (R329, R449,
assumptions 1 and 141). -/
def extOctets (s : State) (k : Option (Nat × Nat)) : List Byte × State :=
  match k with
  | none => ([], s)
  | some (alg, kid) =>
    let n := tagOctets alg
    let r := s.fresh (8 * n)
    (tlv 0x85 (beBytes 1 alg ++ beBytes 4 kid ++ leBytes n r.1.toNat), r.2)

/-- The octets of a GOOSE frame from source address `src` with its PCP and extension (R323, R325, assumption 37). -/
def gooseBytes (g : Gcb) (x : Pub) (src pcp : Nat) (ext : List Byte) : List Byte :=
  let pdu := tlv 0x61 (tlv 0x80 g.gocbRef ++ tlv 0x81 (berInt (talMs x.step : Nat)) ++ tlv 0x82 g.datSet ++ tlv 0x83 g.goID
    ++ tlv 0x84 (beBytes 8 x.t) ++ tlv 0x85 (berInt x.st) ++ tlv 0x86 (berInt x.sq) ++ tlv 0x87 [0] ++ tlv 0x88 (berInt g.confRev)
    ++ tlv 0x89 [0] ++ tlv 0x8A (berInt g.members.length) ++ tlv 0xAB (x.data.getD []).flatten)
  beBytes 6 g.dst ++ beBytes 6 src ++ [0x81, 0x00] ++ beBytes 2 (pcp * 8192 + g.vid % 4096) ++ [0x88, 0xB8]
    ++ beBytes 2 g.appid ++ beBytes 2 (pdu.length + 8) ++ beBytes 2 ext.length ++ [0, 0] ++ pdu ++ ext

/-- Is a queued frame an earlier one of GCB0? -/
def isGcb0 (f : EgFrame) : Bool := match f.kind with | .goose c _ _ _ => c == 0 | _ => false
def frameNo (f : EgFrame) : Nat := match f.kind with | .goose _ _ _ n => n | _ => 0

/-- Earlier GCB0 frames leave queue 7 of the ports that a new one goes to; each frame removed counts once (R326). -/
def supersede (s : State) : State :=
  let ports := [0, 1].filter fun p => portUp s p
  let gone := (ports.flatMap fun p => (queueOf s p 7).filter isGcb0).map frameNo
  let s1 := ports.foldl (fun a p => setQueue a p 7 ((queueOf a p 7).filter fun f => !isGcb0 f)) s
  s1.satAdd (R.NET_GCBc_CNT_SUPER 0) gone.eraseDups.length

/-- The frame of a control block's present state is queued (R323, R326, R329). -/
def emitGoose (s : State) (c : Nat) (g : Gcb) : State :=
  let x := pubOf s c
  let k := if s.on (R.NET_GCBc_CFG_AUTH c) then signWith s (s.rd (R.NET_GCBc_CFG_KSLOT c)) else (none, s)
  let r := extOctets k.2 k.1
  let f := fun src => let b := gooseBytes g x src (gcbPcp s c g) r.1
    ({ kind := .goose c x.st x.sq x.no, len := wireLen b.length, bytes := b, sign := k.1 } : EgFrame)
  let ports := s.rd (R.NET_GCBc_CFG_PORTS c)
  if c = 0 then sendLocal (supersede r.2) [0, 1] (fun _ => 7) (f (netMac s))
  else
    let q := fun p => queueFor s p (some (g.pcp % 8))
    let s1 := if ports.testBit 0 then sendLocal r.2 [0, 1] q (f (netMac s)) else r.2
    if ports.testBit 1 then sendLocal s1 [2] q (f (netMac s + 1)) else s1

/-- A new state of a control block: stamps of what changed, stNum, the ladder's start, its first frame (R327 to R329). What a class-0
word changed has its stamp from the reading of the word. -/
def newGooseState (s : State) (c : Nat) (g : Gcb) : State :=
  let x := pubOf s c
  let own := changedOwners s c 0 (x.data.getD []) g.members
  let owners := if c = 0 then own.filter fun o => !s.net.c0own.contains o else own
  let now := if c = 0 ∧ owners = [] then s.net.c0t.getD (utcNow s) else utcNow s
  let s1 := setNet s { s.net with ts := owners.foldl (fun l o => mput l (64 * c + o) now) s.net.ts
                                  dirty := s.net.dirty.filter (· ≠ c), safeDue := s.net.safeDue.filter (· ≠ c) }
  let st := if x.data.isNone then 1 else nextNum x.st
  let y := { x with st := st, sq := 0, data := some (membersData s1 c 0 g.members), step := t1Ns s c,
                    due := s.tb2Ns + t1Ns s c, t := now, no := x.no + 1 }
  emitGoose ((setPub s1 c y).wr (R.NET_GCBc_ST_ST c) st) c g

/-- Has a control block a new state to publish: no frame yet, or a member that differs from its latest state? In safe state it has one new
state, and no later value changes (R432). -/
def gooseChanged (s : State) (c : Nat) (g : Gcb) : Bool :=
  (pubOf s c).data.isNone || (if s.on R.PRV_STAT_SAFE then s.net.safeDue.contains c else (pubOf s c).data != some (membersData s c 0 g.members))

def gcbOf (s : State) (c : Nat) : Option Gcb := (s.img.gcbs.find? fun e => e.1 == c).map (·.2)

/-- The engine reads one word from the class-0 FIFO (R326); the bays of the members of GCB0 that it changes take the time (R329). -/
def readC0 (s : State) : State :=
  match s.net.c0 with
  | [] => s
  | e :: t =>
    let v := mput s.net.c0val (3 * e.1 + e.2.1 / 4) (c0Part e.2.1 e.2.2)
    let s1 := setNet s { s.net with c0 := t, c0val := v, c0at := some (s.net.c0at.getD (tb2U s)) }
    match gcbOf s1 0 with
    | none => s1
    | some g =>
      let own := changedOwners s1 0 0 (membersData s 0 0 g.members) g.members
      if own = [] then s1
      else
        let now := utcNow s
        setNet s1 { s1.net with ts := own.foldl (fun l o => mput l o now) s1.net.ts, c0t := some now, c0own := own ++ s1.net.c0own }

/-- A build of GCB0 with every class-0 word read so far (R326). -/
def buildC0 (s : State) : State :=
  let s1 := match gcbOf s 0 with
    | some g => if gooseChanged s 0 g then newGooseState s 0 g else s
    | none => s
  setNet s1 { s1.net with c0at := none, c0t := none, c0own := [] }

/-- Is a frame due: 1.5 µs since the first word that no build holds (R326)? -/
def buildDue (s : State) : Bool := match s.net.c0at with | some t => decide (t + 1500 * nsU ≤ tb2U s) | none => false

/-- GOOSE_C0_WORD_READ: a NET cycle in which the engine reads a word, where the FIFO holds one, and starts a build of GCB0 or not: a
free value, but 1.5 µs after the first unbuilt word it does (R326, assumption 78). -/
def execGooseC0WordRead (s : State) : Host.Outcome State Fault Refusal :=
  .next <|
    if !s.pg 8 then s
    else
      let k := s.fresh 1
      let s1 := readC0 k.2
      if k.1 == 1 || buildDue s1 then buildC0 s1 else s1

/-- GOOSE_BUILD: the second encoder builds the block of GCB1 to GCB127 that changed first, while the class-0 FIFO is empty (R326). -/
def execGooseBuild (c : Fin 128) (s : State) : Host.Outcome State Fault Refusal :=
  .next <|
    if !s.pg 8 || c.val == 0 || !s.net.c0.isEmpty || s.net.dirty.head? != some c.val then s
    else
      let done := setNet s { s.net with dirty := s.net.dirty.filter (· ≠ c.val) }
      match gcbOf s c with
      | some g => if gooseChanged s c g then newGooseState s c g else done
      | none => done

/-- GOOSE_RETRANSMIT: a retransmission falls due; a change that is due goes first (R328). -/
def execGooseRetransmit (c : Fin 128) (s : State) : Host.Outcome State Fault Refusal :=
  .next <|
    let x := pubOf s c
    match gcbOf s c with
    | some g =>
      if !s.pg 8 || decide (s.tb2Ns < x.due) || gooseChanged s c g then s
      else
        let step := min (2 * x.step) (t0Ns s c)
        emitGoose (setPub s c { x with sq := nextNum x.sq, step := step, due := x.due + step, no := x.no + 1 }) c g
    | none => s

/-! ### What the loader checks of control blocks (R323) -/

/-- Where a member's source is allowed (R324): class-0 verdict words in GCB0 only, what snapshots and commits feed in the others only;
a FLOAT32 member takes a measurand. -/
def sourceAllowed (c : Nat) (e : GType × GSrc) : Bool :=
  (match e.2 with
   | .verdict b f _ => c == 0 && decide (b < 24) && decide (f < 3)
   | .snap b w _ => c != 0 && decide (b < 24) && decide (w < 36) && w != 3
   | .point bit => c != 0 && decide (bit < 32)
   | .schemeQuality => c != 0
   | _ => true) &&
  (match e.1, e.2 with
   | .float32, .snap _ w _ => decide (4 ≤ w)
   | .float32, .const _ => true
   | .float32, _ => false
   | _, _ => true)

/-- The octets of the largest frame of a template: the longest numbers, INT32 members of 4 octets, the longest tag (R323, R325). -/
def gcbOctets (g : Gcb) (auth : Bool) : Nat :=
  let big : Pub := { st := 0xFFFFFFFF, sq := 0xFFFFFFFF, step := 60000000000, data := some (g.members.map fun e => encodeMember e.1 0x7FFFFFFF) }
  (gooseBytes g big 0 7 (if auth then tlv 0x85 (padTo 37 []) else [])).length

/-- Does the loader take a control block (R323): names of at most 129 octets, 1 to 64 members from allowed sources, and its largest
frame, tagged on PA and PB, within R306? -/
def gcbOk (i : Image) (e : Nat × Gcb) : Bool :=
  let c := e.1
  let g := e.2
  let ring := c == 0 || (imgField i (R.NET_GCBc_CFG_PORTS c)).testBit 0
  decide (c < 128) && decide (g.gocbRef.length ≤ 129) && decide (g.datSet.length ≤ 129) && decide (g.goID.length ≤ 129)
    && decide (1 ≤ g.members.length) && decide (g.members.length ≤ 64) && g.members.all (sourceAllowed c)
    && decide (wireLen (gcbOctets g (imgField i (R.NET_GCBc_CFG_AUTH c) == 1)) + (if ring then 6 else 0) ≤ 1522)

/-- The control blocks and subscriptions of an image. -/
def gooseOk (i : Image) : Bool :=
  i.gcbs.all (gcbOk i) && i.gsubs.all fun e => decide (e.1 < 1024)

/-! ### Subscribing (R330 to R333) -/

def gsubOf (s : State) (n : Nat) : GSubSt := mget s.net.gsub n {}
def setGsub (s : State) (n : Nat) (x : GSubSt) : State := setNet s { s.net with gsub := mput s.net.gsub n x }
def gsubState (s : State) (n : Nat) : Nat := s.rd (R.NET_GSUBs_STAT_STATE n)
def gsubCfg (s : State) (n : Nat) : Option Gsub := (s.img.gsubs.find? fun e => e.1 == n).map (·.2)
def gsubSize (s : State) (n : Nat) : Nat := match gsubCfg s n with | some g => g.types.length | none => 0

/-- The quality of a subscription's members: the received letters, with I while it is not VALID (R331 to R333). -/
def gsubQual (s : State) (n : Nat) : Nat := (gsubOf s n).letters ||| (if gsubState s n = 2 then 0 else qI)

/-- Members take the quality again. -/
def gsubRequal (s : State) (n : Nat) : State :=
  (List.range (gsubSize s n)).foldl (fun a m => setLiveQ (setLiveQ a (ptGoose n m) (gsubQual s n)) (ptGooseHi n m) (gsubQual s n)) s

/-- The state of a subscription changes: members' quality, event triggers (R333). -/
def setGsubState (s : State) (n st : Nat) : State :=
  if gsubState s n = st then gsubRequal s n else trigEvent (gsubRequal (s.wr (R.NET_GSUBs_STAT_STATE n) st) n) 2 n

/-- A subscription that the image holds enters WAIT (R332). -/
def gsubStart (s : State) (n : Nat) : State := setGsubState (setGsub s n {}) n 1

/-- Flag letters of a received quality member: its 13 bits, first bit highest (R333, R137). -/
def qualLetters (v : Nat) : Nat :=
  let k := v / 2 ^ 11 % 4
  (if k = 1 ∨ k = 2 then qI else if k = 3 then qQ else 0) + (if v.testBit 1 then qT else 0)

def memberLetters (l : List (GType × BitVec 64)) : Nat :=
  l.foldl (fun a e => if e.1 = .quality then a ||| qualLetters e.2.toNat else a) 0

/-- Values of the members reach the live input store. -/
def putMembers (n : Nat) : (m : Nat) → List (GType × BitVec 64) → State → State
  | _, [], s => s
  | m, e :: t, s => putMembers n (m + 1) t (setLive64 s (ptGoose n m) (ptGooseHi n m) e.2 (gsubQual s n))

/-- A new state is taken (R331): its values, its numbers, OOS where stNum jumped (R327 says how it wraps), one event trigger
(R333). -/
def takeState (s : State) (n : Nat) (f : GFrame) (x : GSubSt) : State :=
  let jump := x.held && f.stNum.val != nextNum (s.rd (R.NET_GSUBs_ST_ST n))
  let due := match x.oosAt with | some t => decide (t + 1000000000 ≤ s.tb2Ns) | none => true
  let s1 := if jump then s.sat1 (R.NET_GSUBs_CNT_OOS n) else s
  let s2 := if jump && due then (setGsub s1 n { gsubOf s1 n with oosAt := some s.tb2Ns }).logIx 4 4 n else s1
  let y := { gsubOf s2 n with held := true, letters := memberLetters f.members ||| (if f.sim then qT else 0) }
  let s3 := (setGsub s2 n y).wr (R.NET_GSUBs_ST_ST n) f.stNum
  let s4 := trigEvent (gsubRequal (s3.wr (R.NET_GSUBs_STAT_STATE n) 2) n) 2 n
  putMembers n 0 f.members s4

/-- A frame that has passed the checks is handled by its numbers (R331). -/
def gooseNumbers (s : State) (n : Nat) (f : GFrame) : State :=
  let x := gsubOf s n
  let same := x.held && s.rd (R.NET_GSUBs_ST_ST n) == f.stNum.val
  let ahead := (f.sqNum.val + 2 ^ 32 - x.sq) % 2 ^ 32
  if same && (ahead == 0 || decide (2 ^ 31 ≤ ahead)) then s.sat1 (R.NET_GSUBs_CNT_DUP n)
  else
    let s0 := if f.sim then s.wrb (R.NET_GSUBs_STAT_SIM_SEEN n) true else s
    let s1 := setGsub s0 n { x with sq := f.sqNum, arr := s.tb2Ns, tal := f.tal }
    if same then setGsubState s1 n 2 else takeState s1 n f (gsubOf s1 n)

/-- The checks of R331 in the order of R124, for a subscription of the frame's address and APPID: structure, authentication, names,
confRev, simulation, number and types of the members (assumption 140). -/
def gooseChecks (f : GFrame) (s : State) (e : Nat × Gsub) : State :=
  let n := e.1
  let g := e.2
  if !f.wellFormed then s.sat1 (R.NET_GSUBs_ERR_FORMAT n)
  else if s.on (R.NET_GSUBs_STAT_AUTH n) && !authOk s (s.rd (R.NET_GSUBs_STAT_KSLOT n)) f.ext (arrivalNs s f.port f.pos) then s.sat1 (R.NET_GSUBs_ERR_AUTHFAIL n)
  else if !gsubMatch f e then s
  else if f.confRev ≠ g.confRev then
    if gsubState s n = 4 then s.wrb (R.NET_GSUBs_STAT_CONFREV_STK n) true
    else ((setGsubState s n 4).wrb (R.NET_GSUBs_STAT_CONFREV_STK n) true).logIx 4 3 n
  else if f.sim && !s.on (R.NET_GSUBs_STAT_SIMOK n) then s.sat1 (R.NET_GSUBs_ERR_FORMAT n)
  else if g.types ≠ f.members.map (·.1) then s.sat1 (R.NET_GSUBs_ERR_FORMAT n)
  else gooseNumbers s n f

/-- The BER tag of a member's type (R325). -/
def typeTag (t : GType) : Byte :=
  match t with
  | .boolean => 0x83 | .int32 => 0x85 | .float32 => 0x87 | .dbpos => 0x84 | .quality => 0x84 | .timestamp => 0x91

/-- The directory learns from a GOOSE frame (R138); the number of entries in 16 bits (assumption 39). -/
def gooseLearn (s : State) (f : GFrame) (link : Option Nat) : State :=
  (dirLearn s f.port { goose := true, src := f.src, dst := f.dst, appid := f.appid, ident := f.goID, dset := f.datSet,
                       confrev := f.confRev, sig := crc32 (f.datSet ++ beBytes 2 f.members.length ++ f.members.map fun e => typeTag e.1),
                       linked := link.isSome, sub := link, auth := f.ext.isSome, sim := f.sim }).1

/-- GOOSE_FRAME_RECEIVE: a GOOSE frame reaches the directory and every subscription that it matches (R330, R331, R337). -/
def execGooseFrameReceive (f : GFrame) (s : State) : Host.Outcome State Fault Refusal :=
  .next <|
    if !s.pg 8 then s
    else
      let s0 := s.takeFrame .goose
      let c := gsubCand s0 f
      c.foldl (gooseChecks f) (if f.wellFormed then gooseLearn s0 f ((c.find? (gsubMatch f)).map (·.1)) else s0)

/-- GOOSE_EXPIRED: TB2 passes the arrival of the last accepted frame plus its time allowed to live plus TALMARGIN (R332). -/
def execGooseExpired (n : Fin 1024) (s : State) : Host.Outcome State Fault Refusal :=
  .next <|
    let x := gsubOf s n
    let limit := x.arr + (x.tal + s.rd (R.NET_GSUBs_STAT_TALMARGIN n)) * 1000000
    if gsubState s n ≠ 2 ∨ s.tb2Ns ≤ limit then s
    else ((setGsubState s n 3).wrb (R.NET_GSUBs_STAT_EXP_STK n) true).logIx 4 5 n

end Sys2Proof.Machine
end

