-- ==== Sys2Proof/Machine/Rec.lean ====
section
/-! DEFINITION. The recorder's commands (R376, R386 to R392, R514). -/

namespace Sys2Proof.Machine

/-- FAST_ROW: the 64th fm edge of a row period of a fast-mode AU (R376). -/
def execFastRow (u : Fin 4) (s : State) : Host.Outcome State Fault Refusal :=
  .next <|
    let due := ((auOf s u).edgeAt.all fun t => decide (t + 64 * tmNs (lpmAct s) ≤ s.tb2Ns))
    if s.pg 1 && auState s u != 0 && auFast s u && due then
      sourceRow (setAu s u { auOf s u with edgeAt := some s.tb2Ns }) u (fastRow s u)
    else s

/-- REC_RECORD_END: the last row of the record in progress has been written; hold-off begins (R388). -/
def execRecRecordEnd (u : Fin 4) (s : State) : Host.Outcome State Fault Refusal :=
  .next <|
    match (auOf s u).cur with
    | some c =>
      if c.count < c.last then s
      else
        let s1 := finishRecord s u
        setAuState (setAu s1 u { auOf s1 u with holdAt := s.tb2Ns, holdN := 0 }) u 4
    | none => s

/-- Has the hold-off of an AU run out: HOLD µs of TB2, or HOLD triggers (R388)? -/
def holdOver (s : State) (u : Nat) : Bool :=
  let h := s.rd (R.REC_AUu_HOLD_HOLD u)
  if s.on (R.REC_AUu_CFG_HMODE u) then decide (clamp 1 65535 h ≤ (auOf s u).holdN)
  else decide ((auOf s u).holdAt + clamp 1 60000000 h * 1000 ≤ s.tb2Ns)

/-- FILL, or READY with the pre-trigger store full. -/
def fillState (s : State) (u : Nat) : State := setAuState s u (if auPre s u ≤ (auOf s u).store then 2 else 1)

/-- REC_HOLDOFF_END (R388). -/
def execRecHoldoffEnd (u : Fin 4) (s : State) : Host.Outcome State Fault Refusal :=
  .next (if auState s u = 4 ∧ holdOver s u = true then fillState s u else s)

/-- Do byte ranges of DRAM overlap? -/
def overlaps (a n b m : Nat) : Bool := decide (a < b + m) && decide (b < a + n)

/-- Does the running image set a register of AU `u`? -/
def auListed (s : State) (u : Nat) : Bool :=
  s.img.fields.any fun e => let a := e.1 % 0x10000000000 / 32; decide (0xC00100 + 0x100 * u ≤ a) && decide (a < 0xC00200 + 0x100 * u)

/-- Is an AU's partition in use: it has channels or signals, the image configures it, or it is armed (assumption 43)? -/
def auUsed (s : State) (u : Nat) : Bool := auNch s u != 0 || auNsig s u != 0 || auListed s u || auState s u != 0

/-- A partition that overlaps the host-ring area (R381, R511). -/
def meetsArea (s : State) (u : Nat) : Bool :=
  areaSize s != 0 && overlaps (partBase s u) (partSize s u) (areaBase s) (areaSize s)

/-- A partition that overlaps that of another AU in use (R381). -/
def meetsPart (s : State) (u : Nat) : Bool :=
  (List.range 4).any fun v => v != u && auUsed s v && overlaps (partBase s u) (partSize s u) (partBase s v) (partSize s v)

/-- A partition that exceeds the usable size of the fitted DRAM (R381, R521). -/
def partBeyond (s : State) (u : Nat) : Bool := decide (usableBytes s < partBase s u + partSize s u)

/-- A partition that overlaps another's or the host rings, or exceeds the fitted DRAM (R381). -/
def partBad (s : State) (u : Nat) : Bool := meetsPart s u || meetsArea s u || partBeyond s u

/-- The trigger units at an arm: kinds 1 and 9 take their levels, so that only an edge after the arm fires (R384). -/
def armTrg (s : State) (u : Nat) : List (Nat × TrgSt) :=
  (List.range 16).map fun t =>
    let sel := trgSel s u t
    (t, { prev := if trgKind s u t = 1 then verdictBit s sel else trgKind s u t == 9 && mget s.sch.recSig (sel % 256) false })

/-- The skew of input `n` where row edges lie `edge` fm periods into the 64 that the decimation counters count from their start: its
counters start at n mod 32 and are never reloaded (R87), so its values complete that much earlier (R377). -/
def skewOf (edge n : Nat) : Nat := (edge + n % 32) % 64

/-- REC_ARM: REC_AUu_CTL.ARM in IDLE (R386), refused with PART while DRAM is not in use (R519); `edge` says where the row edges lie, from
which the skew of each channel follows (R377, assumption 143). -/
def execRecArm (u : Fin 4) (edge : Fin 64) (s : State) : Host.Outcome State Fault Refusal :=
  .next <|
    if auState s u ≠ 0 ∨ !s.pg 1 then s
    else if !s.on R.MEM_STAT_TRAINED then s.wr (R.REC_AUu_STAT_RESULT u) 3
    else if regionSize s u < (auPre s u + auPost s u) * rowBytes s u then s.wr (R.REC_AUu_STAT_RESULT u) 2
    else if partBad s u then s.wr (R.REC_AUu_STAT_RESULT u) 3
    else
      let x := auOf s u
      let rb := rowBytes s u
      let sk := (List.range (auNch s u)).map fun i => (i, skewOf edge (auSrc s u i))
      let s1 := setAu s u { slots := x.slots, made := x.made, pos := (x.pos + rb - 1) / rb * rb % max 1 (circle s u), skew := sk, trg := armTrg s u,
                            unsent := x.unsent, holdLog := x.holdLog, ovfLog := x.ovfLog }
      fillState ((s1.wr (R.REC_AUu_STAT_RESULT u) 1).wr (R.REC_AUu_ROWB_ROWB u) rb) u

/-- An AU stops: a record in progress is closed with TRUNC (R386, R392). -/
def recStop (s : State) (u : Nat) : State :=
  let s1 := setAuState (cutRecord s u) u 0
  { s1 with dr := { s1.dr with ev := s1.dr.ev.filter fun e => e.1 != u } }

/-- REC_DISARM: REC_AUu_CTL.DISARM. -/
def execRecDisarm (u : Fin 4) (s : State) : Host.Outcome State Fault Refusal := .next (recStop s u)

/-- Every AU stops before PD1 powers down (R392). -/
def recPowerDown (s : State) : State := (List.range 4).foldl recStop s

/-- REC_HOST_TRIGGER: REC_AUu_CTL.HTRIG (R395). -/
def execRecHostTrigger (u : Fin 4) (s : State) : Host.Outcome State Fault Refusal :=
  .next (if auState s u = 0 then s else { s with dr := { s.dr with ev := s.dr.ev ++ [(u.val, 7, 0)] } })

/-- REC_PIN: a write of REC_AUu_PIN; an AU whose next row meets no pinned record any more leaves STALLED (R391). -/
def execRecPin (u : Fin 4) (v : BitVec 16) (s : State) : Host.Outcome State Fault Refusal :=
  .next <|
    let s1 := s.wr (R.REC_AUu_PIN_PIN u) v.toNat
    if auState s1 u = 5 && !(hitSlots s1 u).any fun k => v.getLsbD k then fillState (setAu s1 u { auOf s1 u with store := 0, num := 0, times := [] }) u
    else s1

/-- Yew has returned the number `n` of a REC_RECORD event: the header of its slot takes it, with its CRC-32 (R387, R393). -/
def recNumbered (s : State) (u slot n : Nat) : State :=
  if !s.on R.MEM_STAT_TRAINED then s
  else
    let a := partBase s u + 0x1000 * slot
    let r := dramGet s a 0xFFC
    let body := r.1.take 8 ++ leBytes 8 (n % 2 ^ 48) ++ r.1.drop 16
    dramPut r.2 a (body ++ leBytes 4 (crc32 body).toNat)

end Sys2Proof.Machine
end

