-- ==== Sys2Proof/Machine/Load.lean ====
section
/-! DEFINITION. The image load engine (R460 to R465, R545): the section table and the sections of an image in MRAM, the checks
on what they load, and the placement into every block. -/

namespace Sys2Proof.Machine

/-- What the sections of an image load: L fields, LOCK bits, coefficient banks (selection word and values), curve tables, layout
hashes, placement blocks, those of the configuration memories, retained initial values, timers and edge detectors. -/
structure Load where
  flds : List (Fld × Nat) := []
  locks : List Fld := []
  banks : List (Nat × List Word) := []
  curves : List (Nat × List (Word × Word)) := []
  layout : List (Nat × Nat) := []
  blocks : List (Nat × List Byte) := []
  cfg : List (Nat × List Byte) := []
  retInit : List (Nat × List Byte) := []
  timers : List (Nat × TimerInit) := []
  edges : List (Nat × Bool) := []
  deriving DecidableEq, Repr

/-- The little-endian words of a section. -/
def wordsIn : List Byte → List Nat
  | b0 :: b1 :: b2 :: b3 :: t => leNat [b0, b1, b2, b3] :: wordsIn t
  | _ => []

/-! ### Kind 1: the register list -/

/-- The LOCK bits of the blocks' CTL registers. -/
def lockFlds : List Fld :=
  [R.GLB_CTL_LOCK, R.PRV_CTL_LOCK, R.YEW_CTL_LOCK, R.TIM_CTL_LOCK, R.NET_CTL_LOCK, R.SVI_CTL_LOCK, R.AFE_CTL_LOCK, R.DCH_CTL_LOCK,
   R.ESP_CTL_LOCK, R.THN_CTL_LOCK, R.SCH_CTL_LOCK, R.REC_CTL_LOCK, R.SEC_CTL_LOCK, R.TWN_CTL_LOCK, R.HST_CTL_LOCK]
    ++ (List.range 8).map R.ELCn_CTL_LOCK

def lockAt (a : Nat) : Option Fld := lockFlds.find? fun f => f.addr == a

/-- The L fields of the register at BAR0 offset `a`. -/
def imgFlds (a : Nat) : List Fld := ((findReg regTable a).getD []).filter fun f => f.dom = .img

/-- The reserved bits that lie within a field: bit 4v + 3 of NET_Pp_PCPMAP.MAP, bit 2 of NET_GCBc_CFG.PORTS (R341, R342). -/
def innerReserved (a k : Nat) : Bool :=
  ((copyAt a 0x401008 0x100 3).isSome && k % 4 == 3) || ((copyAt a 0x408000 0x10 128).isSome && k == 31)

/-- Does every 1 of the value fall into an L field or the LOCK bit (R465)? -/
def entryOk (a v : Nat) : Bool :=
  a % 4 == 0 && (List.range 32).all fun k =>
    !v.testBit k || ((imgFlds a).any fun f => decide (f.lo ≤ k) && decide (k < f.lo + f.w) && !innerReserved a k) || (k == 31 && (lockAt a).isSome)

/-- The value of a field in its register's word. -/
def fldIn (f : Fld) (v : Nat) : Nat := v / 2 ^ f.lo % 2 ^ f.w

/-- Entries of a register list: BAR0 offset, then value. -/
def regList : List Nat → Load → Option Load
  | [], l => some l
  | [_], _ => none
  | a :: v :: t, l =>
    if !entryOk a v then none
    else regList t { l with flds := l.flds ++ (imgFlds a).map fun f => (f, fldIn f v),
                            locks := if v.testBit 31 then l.locks ++ (lockAt a).toList else l.locks }

/-! ### Kinds 2 and 3: coefficient banks and curve tables -/

/-- How many values follow a bank's selection word. -/
def bankLen (w : Nat) : Nat := if selKind w = 0 then selK w + 1 else if selLow w then 1024 else 4096

/-- Do KIND and IDX agree with the section's target, and do the other fields name a bank (R545, R546)? -/
def bankSelOk (tgt w : Nat) : Bool :=
  if tgt < 48 then selKind w == 0 && selIdx w == tgt && decide (1 ≤ selStage w) && decide (selStage w ≤ 5) && decide (1 ≤ selK w) && decide (selK w ≤ 11)
  else selKind w == 1 && selIdx w == tgt - 48

/-- Do a bank's values obey the norm rules (R94, R106)? -/
def bankValsOk (w : Nat) (l : List Word) : Bool :=
  if selKind w = 0 then decide (131072 + 2 * ((hbCoefs l).map Int.natAbs).sum ≤ 524288) else bankOk 256 (profTaps (selLow w)) l

/-- The banks of a section; `fuel` bounds their number. -/
def bankList (tgt : Nat) : (fuel : Nat) → List Nat → Load → Option Load
  | _, [], l => some l
  | 0, _, _ => none
  | k + 1, w :: t, l =>
    let vs := (t.take (bankLen w)).map (BitVec.ofNat 32)
    if !bankSelOk tgt w || vs.length != bankLen w || !bankValsOk w vs then none
    else bankList tgt k (t.drop (bankLen w)) { l with banks := l.banks ++ [(w, vs)] }

/-- The points of a curve table. -/
def points : List Nat → List (Word × Word)
  | g :: t :: r => (BitVec.ofNat 32 g, BitVec.ofNat 32 t) :: points r
  | _ => []

/-- R251: the values are positive and the G values ascend strictly. -/
def curveOk : List (Word × Word) → Bool
  | [] => true
  | p :: t => F32.lt 0 p.1 && F32.lt 0 p.2 && (match t with | [] => true | q :: _ => F32.lt p.1 q.1) && curveOk t

/-- The tables of a section; each head word holds the table in [3:0] and the points less 1 in [13:8]. -/
def curveList (core : Nat) : (fuel : Nat) → List Nat → Load → Option Load
  | _, [], l => some l
  | 0, _, _ => none
  | k + 1, w :: t, l =>
    let n := w / 256 % 64 + 1
    let ps := points (t.take (2 * n))
    if w % 16 + (n - 1) * 256 ≠ w ∨ n < 2 ∨ ps.length ≠ n ∨ curveOk ps = false then none
    else curveList core k (t.drop (2 * n)) { l with curves := mput l.curves (16 * core + w % 16) ps }

/-! ### Placement blocks -/

/-- The blocks of a placement section for a memory of `size` bytes at `base`: none where one reaches beyond it or is no multiple
of 4. -/
def blockList (base size : Nat) : (fuel : Nat) → List Byte → Option (List (Nat × List Byte))
  | _, [] => some []
  | 0, _ => none
  | k + 1, d =>
    let o := leNat (d.take 4)
    let n := leNat ((d.drop 4).take 4)
    let bytes := (d.drop 8).take n
    if d.length < 8 ∨ n % 4 ≠ 0 ∨ bytes.length ≠ n ∨ size < o + n then none
    else match blockList base size k (d.drop (8 + n)) with
      | some r => some ((base + o, bytes) :: r)
      | none => none

/-- Do no two blocks overlap? -/
def apart : List (Nat × List Byte) → Bool
  | [] => true
  | b :: t => (t.all fun c => decide (b.1 + b.2.length ≤ c.1) || decide (c.1 + c.2.length ≤ b.1) || b.2.isEmpty || c.2.isEmpty) && apart t

/-- A placement section, checked (R545). -/
def placement (base size : Nat) (d : List Byte) : Option (List (Nat × List Byte)) :=
  match blockList base size d.length d with
  | some r => if apart r then some r else none
  | none => none

/-! ### Kind 9: timers, edge detectors, retained initial values -/

/-- `n` timer entries of 12 bytes, then the rest. -/
def timerList : Nat → List Byte → Load → Option (Load × List Byte)
  | 0, d, l => some (l, d)
  | n + 1, d, l =>
    if d.length < 12 then none
    else
      let fl := leNat ((d.drop 2).take 1)
      let x : TimerInit := { pre := leNat ((d.drop 4).take 4), run := fl.testBit 0, q := fl.testBit 1, prev := fl.testBit 2,
                             elapsed := leNat ((d.drop 8).take 4), kind := leNat ((d.drop 3).take 1) }
      timerList n (d.drop 12) { l with timers := mput l.timers (leNat (d.take 2) % 4096) x }

/-- `n` edge-detector entries of 4 bytes, then the rest. -/
def edgeList : Nat → List Byte → Load → Option (Load × List Byte)
  | 0, d, l => some (l, d)
  | n + 1, d, l =>
    if d.length < 4 then none
    else edgeList n (d.drop 4) { l with edges := mput l.edges (leNat (d.take 2) % 4096) (leNat ((d.drop 2).take 1) != 0) }

/-- A section of kind 9. -/
def initList (d : List Byte) (l : Load) : Option Load :=
  match timerList (leNat (d.take 4)) (d.drop 4) l with
  | none => none
  | some (l1, d1) =>
    match edgeList (leNat (d1.take 4)) (d1.drop 4) l1 with
    | none => none
    | some (l2, d2) =>
      match placement 0 0x80000 d2 with
      | some r => if d1.length < 4 ∨ d.length < 4 then none else some { l2 with retInit := l2.retInit ++ r }
      | none => none

/-! ### Sections -/

/-- One section's data, by kind and target (R545); none is a load refusal (CHECK). -/
def loadSection (kind tgt : Nat) (d : List Byte) (l : Load) : Option Load :=
  let put (r : Option (List (Nat × List Byte))) : Option Load :=
    match r with | some b => some { l with blocks := l.blocks ++ b } | none => none
  if d.length % 4 ≠ 0 then none
  else match kind with
    | 1 => if tgt = 0 then regList (wordsIn d) l else none
    | 2 => if tgt < 240 then bankList tgt d.length (wordsIn d) l else none
    | 3 => if tgt < 8 then curveList tgt d.length (wordsIn d) l else none
    | 4 => if tgt < 3 then (match placement (cfgBase tgt) (2 ^ 32) d with | some b => some { l with cfg := l.cfg ++ b } | none => none)
      else none
    | 5 => if tgt < 8 then put (placement (ecInstrBase tgt) 0x10000 d) else none
    | 6 => if tgt < 8 then put (placement (ecDataBase tgt) 0x20000 d) else none
    | 7 =>
      if 8 ≤ tgt ∨ d.length < 16 then none
      else
        let h := wordsIn (d.take 12)
        match placement (ecElemBase tgt) 0x8000 (d.drop 16) with
        | some b => some { l with blocks := l.blocks ++ b,
                                  layout := [0, 1, 2].foldl (fun a j => mput a (3 * tgt + j) (h.getD j 0)) l.layout }
        | none => none
    | 8 => if tgt = 0 then put (placement scBase 0x80000 d) else none
    | 9 => if tgt = 0 then initList d l else none
    | _ => none

/-- A section table entry: kind, target, data offset, length, CRC-32. -/
structure SecEnt where
  kind : Nat
  tgt : Nat
  off : Nat
  len : Nat
  crc : Nat
  deriving DecidableEq, Repr

/-- Entry `i` of the section table of a slot (R463). -/
def secEnt (s : State) (slot i : Nat) : SecEnt :=
  let o := 0x100 + 16 * i
  { kind := hdr s slot o 1, tgt := hdr s slot (o + 1) 1, off := hdr s slot (o + 4) 4, len := hdr s slot (o + 8) 4, crc := hdr s slot (o + 12) 4 }

/-- Into the order of R465: by kind, then by target. -/
def insEnt (e : SecEnt) : List SecEnt → List SecEnt
  | [] => [e]
  | x :: t => if e.kind < x.kind ∨ (e.kind = x.kind ∧ e.tgt < x.tgt) then e :: x :: t else x :: insEnt e t

def sections (s : State) (slot : Nat) : List SecEnt :=
  (List.range (min 1024 (hdr s slot 0x3C 4))).foldl (fun a i => insEnt (secEnt s slot i) a) []

/-- The sections in order, each against its CRC and then its rules (R461): what they load, or the reason as in FAILA (R477), 5 CRC
or 6 CHECK. -/
def loadAll (s : State) (slot : Nat) : List SecEnt → Load → Except Nat Load
  | [], l => .ok l
  | e :: t, l =>
    let d := s.rdMem (slotBase slot + e.off) e.len
    if signedLen s slot < e.off + e.len then .error 6
    else if (crc32 d).toNat ≠ e.crc then .error 5
    else match loadSection e.kind e.tgt d l with
      | some l1 => loadAll s slot t l1
      | none => .error 6

/-- The image in a slot: what its header and sections say, with the contents that only the Hermar toolchain lays out as `i` states
them (R545, assumption 48). -/
def imageOf (s : State) (slot : Nat) (l : Load) (i : Image) : Image :=
  { i with
    ident := leNat (identOf s slot), base := hdr s slot 0x18 32, version := hdr s slot 0x0C 4,
    ifrev := hdr s slot 0x38 2, node := hdr s slot 0x3A 2 % 4096, used := hdr s slot 0x40 1,
    fields := l.flds.foldl (fun a e => mput a e.1.key e.2) [], blocks := l.blocks, cfg := l.cfg, retInit := l.retInit, curves := l.curves,
    layout := l.layout, timers := l.timers, edges := l.edges }

/-! ### Placement into the blocks -/

/-- Does the field ignore the value, and keep its own: GAIN (R49), WK (R68), NHB (R116), RATE, NASDU, NQTY and QTY of SVI (R120, R145),
N of an FTG (R147), FTG_EN, which follows from the assignment (R146), a bay's REQ (R188), MODE of TB2 (R373), a source's ACTION (R415, R437)? The load engine's
write obeys that as any other (DEDUCED, assumption 126). -/
def ignoresVal (f : Fld) (v : Nat) : Bool :=
  let at0 (b st : Nat) (g : Nat → Fld) : Bool := decide (b ≤ f.addr) && f == g ((f.addr - b) / st)
  (at0 0x601000 0x20 R.AFE_CHn_CFG_GAIN && v == 3)
    || (at0 0x601000 0x20 R.AFE_CHn_CFG_WK && (decide (v < 8) || decide (20 < v)))
    || (at0 0x701004 0x40 R.DCH_CHn_CFG_NHB && decide (4 < v))
    || (at0 0x501000 0x40 R.SVI_SUBs_CFG_RATE && decide (4 < v))
    || (at0 0x501000 0x40 R.SVI_SUBs_CFG_NASDU && (v == 0 || decide (8 < v)))
    || (at0 0x501000 0x40 R.SVI_SUBs_CFG_NQTY && (v == 0 || decide (24 < v)))
    || (at0 0x504000 4 R.SVI_MAPm_QTY && decide (23 < v))
    || (at0 0x800100 0x40 R.ESP_FTGg_CFG_N && decide (8 < v))
    || (at0 0x300100 0x40 R.TIM_TBb_CFG_MODE && f.addr == 0x300180) || f == R.ESP_STAT_FTG_EN
    || (at0 0x100100 0x10 R.PRV_SRCs_CFG_ACTION && decide ((f.addr - 0x100100) / 0x10 < 25) && !(prvAllowedRst ((f.addr - 0x100100) / 0x10)).testBit v)
    || ((List.range 24).any (fun b => f == R.ELCn_BAYj_MODE_REQ (b / 3) (b % 3)) && (v == 0 || decide (5 < v)))

/-- An L field takes a value that it does not ignore. -/
def putFld (s : State) (e : Fld × Nat) : State := if ignoresVal e.1 e.2 then s else s.wr e.1 e.2

/-- L fields take their values; a field outside [lo, hi) of BAR0 is passed over. -/
def putFlds (lo hi : Nat) (l : List (Fld × Nat)) (s : State) : State :=
  l.foldl (fun a e => if lo ≤ e.1.addr ∧ e.1.addr < hi then putFld a e else a) s

/-- A bank is written (R106). -/
def loadBank (s : State) (e : Nat × List Word) : State := storeBank e.1 e.2 s

def putBanks (l : List (Nat × List Word)) (s : State) : State := l.foldl loadBank s

/-- The memories of the element cores hold the image's blocks (R465 kinds 5 to 7). -/
def putCores (i : Image) (s : State) : State :=
  { s with mem := (List.range 8).foldl (fun m n => loadRange m i.blocks (ecInstrBase n) (ecInstrBase n + 0x100000)) s.mem,
           eccBad := s.eccBad.filter fun a => decide (a < ecInstrBase 0) || decide (scBase ≤ a),
           eccSoft := s.eccSoft.filter fun a => decide (a < ecInstrBase 0) || decide (scBase ≤ a) }

/-- SC SRAM holds the image's blocks (R465 kind 8). -/
def putSc (i : Image) (s : State) : State :=
  { s with mem := loadRange s.mem i.blocks scBase (scBase + 0x80000),
           eccBad := s.eccBad.filter fun a => !(decide (scBase ≤ a) && decide (a < scBase + 0x80000)),
           eccSoft := s.eccSoft.filter fun a => !(decide (scBase ≤ a) && decide (a < scBase + 0x80000)) }

/-- The configuration memories hold the image's subscription strings and GOOSE templates (R465 kind 4). -/
def putCfg (i : Image) (s : State) : State := { s with mem := loadRange s.mem i.cfg (cfgBase 0) (cfgBase 3) }

/-- The grids as they start (R155): every FTG from active time as it stands. -/
def startGrids (s : State) : State := (List.range 4).foldl startFtg s

/-- AFE_CTL.LPM and REFSEL as loaded are in effect when the modulators start (R66): those of the enabled inputs start now, with the U
of R65, and the checkers begin their sweeps (R71). -/
def startAfe (s : State) : State :=
  let s1 := (s.wrb R.AFE_STAT_LPM_ACT (s.on R.AFE_CTL_LPM)).wrb R.AFE_STAT_REFSEL_ACT (s.on R.AFE_CTL_REFSEL)
  let s2 := ((List.range 48).filter fun n => s.on (R.AFE_CHn_CFG_EN n)).foldl startInput s1
  [0, 1, 2, 3].foldl ckWake s2

/-- Everything a complete image loads (R465). -/
def placeImage (i : Image) (l : Load) (s : State) : State :=
  showBounds i (showFtgs (startAfe (putSc i (putCores i (putBanks l.banks (putFlds 0 0x1000000 l.flds (putCfg i { s with img := i })))))))

/-! ### Checks of the loader on the loaded image -/

/-- R99 and R106 for what runs. DEDUCED (unsafe; assumption 176): a resampler or chain that the image leaves stopped is not held against the rate
rule here; R113 does so when it is started. -/
def ratesOk (s : State) : Bool :=
  (List.range 48).all (fun n => !s.on (R.DCH_CHn_CTL_RUN n) || stagesLoaded s n (s.rd (R.DCH_CHn_CFG_NHB n)))
    && (List.range 192).all fun m => !rsRun s m || (rsActLoaded s m &&
      (!isLocal s m || !usedGroup s (groupOfCh m) || rateOkNow s (tmNs (lpmAct s)) (s.rd (R.DCH_CHn_CFG_NHB (srcOf s m))) m))

/-- The destination MAC, APPID and svID string that tell subscriptions apart (R118, R121). -/
def svKey (s : State) (n : Nat) : Nat × Nat × List Byte :=
  (subMac s n, s.rd (R.SVI_SUBs_ID_APPID n), (mget s.img.svIdent n ([], none)).1)

/-- R120 to R122. -/
def svOk (s : State) : Bool :=
  (List.range 64).all (fun n => !s.on (R.SVI_SUBs_CFG_EN n) ||
    (decide (s.rd (R.SVI_SUBs_CFG_RATE n) ≤ 4) && decide (1 ≤ s.rd (R.SVI_SUBs_CFG_NASDU n)) && decide (s.rd (R.SVI_SUBs_CFG_NASDU n) ≤ 8)
      && decide (1 ≤ s.rd (R.SVI_SUBs_CFG_NQTY n)) && decide (s.rd (R.SVI_SUBs_CFG_NQTY n) ≤ 24)
      && (List.range n).all fun k => !s.on (R.SVI_SUBs_CFG_EN k) || svKey s k != svKey s n))
    && (List.range 192).all fun m => isLocal s m ||
      (s.on (R.SVI_MAPm_EN m) && s.on (R.SVI_SUBs_CFG_EN (svSub s m)) && decide (s.rd (R.SVI_MAPm_QTY m) < s.rd (R.SVI_SUBs_CFG_NQTY (svSub s m))))

/-- R149 for every enabled FTG. -/
def sourcesOk (s : State) : Bool :=
  (List.range 4).all fun g => !ftgOn s g ||
    (!srcOutside s g (s.on (R.ESP_FTGg_TRK_VMODE g)) (s.rd (R.ESP_FTGg_VSRC_C0 g)) (s.rd (R.ESP_FTGg_VSRC_C1 g)) (s.rd (R.ESP_FTGg_VSRC_C2 g))
      && !srcOutside s g (s.on (R.ESP_FTGg_TRK_IMODE g)) (s.rd (R.ESP_FTGg_ISRC_C0 g)) (s.rd (R.ESP_FTGg_ISRC_C1 g)) (s.rd (R.ESP_FTGg_ISRC_C2 g)))

/-- R256: an armed starter compares some channel. -/
def startersOk (s : State) : Bool := (List.range 24).all fun b => !s.on (R.THN_BAYb_CFG_ARM b) || s.rd (R.THN_BAYb_CFG_CHMASK b) != 0

/-- R279, R286: event triggers 0 to 5; one owning task for each output point. -/
def tasksOk (s : State) : Bool :=
  (List.range 16).all (fun t => s.rd (R.SCH_TKn_CFG_KIND t) != 3 || decide (s.rd (R.SCH_TKn_CFG_TRIG t) ≤ 5))
    && outputsOwned s.img

/-- R307: PA and PB in one mode; the modes and ports that TIM_TBb_CFG may name. -/
def portsOk (s : State) : Bool :=
  s.rd (R.NET_Pp_CFG_SPEED 0) == s.rd (R.NET_Pp_CFG_SPEED 1)
    && (List.range 4).all fun b => s.rd (R.TIM_TBb_CFG_MODE b) != 3 && (s.rd (R.TIM_TBb_CFG_MODE b) != 2 || decide (2 ≤ b)) && s.rd (R.TIM_TBb_CFG_PORT b) != 3

/-- A code that a signal list may hold (R383). -/
def signalOk (c : Nat) : Bool :=
  decide (c < 256) || (decide (0x4000 ≤ c) && decide (c < 0x4000 + 0x1800) && decide (c / 32 % 8 < 3) && (c / 32 % 8 != 0 || decide (c % 32 < 2)))

/-- R376, R383, R384: channel and signal lists, trigger kinds. -/
def recListsOk (s : State) : Bool :=
  (List.range 4).all fun u =>
    let n := s.rd (R.REC_AUu_NSRC_NCH u)
    (if auFast s u then decide (n ≤ 48) && (List.range n).all (fun i => decide (auSrc s u i < 48))
      else decide (n ≤ 192) && (List.range n).all fun i => (chsOf s (s.rd (R.REC_AUu_CFG_FTG u))).contains (auSrc s u i))
      && decide (s.rd (R.REC_AUu_NSRC_NSIG u) ≤ 256) && (List.range (auNsig s u)).all (fun i => signalOk (auSig s u i))
      && (List.range 16).all fun t => decide (s.rd (R.REC_AUu_TRGt_CFG_KIND u t) ≤ 10)

/-- R415: every source's ACTION in the image is one it allows. -/
def actionsOk (s : State) : Bool :=
  (List.range 25).all fun k => (s.rd (R.PRV_SRCs_CFG_ALLOWED k)).testBit (imgField s.img (R.PRV_SRCs_CFG_ACTION k))

/-- Do two ring regions overlap (R512)? -/
def ringsApart (s : State) : Bool :=
  (List.range 4).all fun r => (List.range r).all fun q =>
    ringBytes s r == 0 || ringBytes s q == 0 || !overlaps (ringBase s r) (ringBytes s r) (ringBase s q) (ringBytes s q)

/-- R381, R511: partitions and the host-ring area lie apart, and within the usable size once DRAM has been detected (R519). -/
def dramOk (s : State) : Bool :=
  (List.range 4).all (fun u => !(auUsed s u && meetsPart s u) && !meetsArea s u)
    && (usableBytes s == 0
      || (decide (areaBase s + areaSize s ≤ usableBytes s) && (List.range 4).all fun u => !(auUsed s u && partBeyond s u)))

/-- Every rule of the loader, on the image as placed: R239 and R184 on its programs, and those of the other chapters. -/
def loadChecks (s : State) : Bool :=
  codeOk s.img && limitsOk s.img && gooseOk s.img && ratesOk s && svOk s && sourcesOk s && startersOk s && tasksOk s && portsOk s && recListsOk s && actionsOk s
    && ringsApart s && dramOk s

/-! ### Reloads after a block reset (R194, R274) -/

/-- Does a section of a slot agree with its CRC (R461)? -/
def crcGood (s : State) (slot : Nat) (e : SecEnt) : Bool :=
  decide (e.off + e.len ≤ signedLen s slot) && (crc32 (s.rdMem (slotBase slot + e.off) e.len)).toNat == e.crc

/-- Do the sections of the running slot that a reload reads agree with their CRCs? -/
def reloadGood (s : State) (p : SecEnt → Bool) : Bool :=
  ((sections s (s.rd R.GLB_BOOT_SLOT)).filter p).all (crcGood s (s.rd R.GLB_BOOT_SLOT))

/-- The reload of block-reset target `t` has ended: the tail of its consequential window starts (R427). -/
def endReset (s : State) (t : Nat) : State :=
  { s with prv := { s.prv with inRst := s.prv.inRst.filter (· ≠ t),
                               tail := if s.prv.inRst.contains t then mput s.prv.tail t s.tb2Ns else s.prv.tail } }

/-- Sections of kinds 5 to 7 for core `n`; of kinds 8 and 9 for the scheme cores. -/
def coreSection (n : Nat) (e : SecEnt) : Bool := decide (5 ≤ e.kind) && decide (e.kind ≤ 7) && e.tgt == n
def schemeSection (e : SecEnt) : Bool := e.kind == 8 || e.kind == 9

/-- CORE_RELOAD_DONE: the load engine has rewritten the three memories and checked the sections (R194); `readOk`: it read no uncorrectable
word of MRAM (assumption 48). On success STATE is RUN and
ACT waits for the cycle boundary; on failure the core is FAILED with cause RELOAD. -/
def execCoreReloadDone (n : Fin 8) (readOk : Bool) (s : State) : Host.Outcome State Fault Refusal :=
  .next <|
    if s.rd (R.ELCn_STAT_STATE n) ≠ 2 then s
    else
      let s0 := endReset s n
      if readOk && reloadGood s (coreSection n) then
        ((rewrite s0 (ecInstrBase n) (ecInstrBase n + 0x100000)).wr (R.ELCn_STAT_STATE n) 1).modCore n fun c => { c with reloaded := true }
      else coreFail s0 n 5

/-- SCHEME_RELOAD_DONE: the reload has ended (R274); `readOk` as for a core. On success the scheme restarts under the policy for BLK; on failure it
stays HALTED and SCH_RELOAD_FAIL is logged. -/
def execSchemeReloadDone (readOk : Bool) (s : State) : Host.Outcome State Fault Refusal :=
  .next <|
    if s.rd R.SCH_STAT_STATE ≠ 3 then s
    else
      let s0 := endReset s 8
      if readOk && reloadGood s schemeSection then scRestart (rewrite s0 scBase (scBase + 0x80000)) 3
      else (setScState s0 2).logIx 0x0B 4 0

end Sys2Proof.Machine
end

