-- ==== Sys2Proof/Machine/Thn.lean ====
section
/-! DEFINITION. Thorn's minimum pulses, readback, binary inputs and host-owned outputs (R259 to R271). -/

namespace Sys2Proof.Machine

def setThn (s : State) (t : Thn) : State := { s with thn := t }

/-- MIN_PULSE_END: TMIN ms have passed since output `o` rose (R258, R259). -/
def execMinPulseEnd (o : Fin 48) (s : State) : Host.Outcome State Fault Refusal :=
  .next (gateUpdate (setThn s { s.thn with stretch := s.thn.stretch.filter fun e => e.1 != o.val || decide (s.tb2Ns < e.2) }))

/-- The RB bit of output `o`. -/
def rbFld (o : Nat) : Fld × Nat := if o < 32 then (R.THN_RB_LO_MISM, o) else (R.THN_RB_HI_MISM, o - 32)

/-- READBACK_MISMATCH: a mismatch on output `o` has persisted for 1 µs (R261); raised once until software clears the bit, and
again after that while it persists (assumption 99). Readback is idle while PD1 is off (R262). -/
def execReadbackMismatch (o : Fin 48) (s : State) : Host.Outcome State Fault Refusal :=
  .next <|
    let f := rbFld o
    if !s.pg 1 then s
    else if (s.rd f.1).testBit f.2 then s.itemOnQuiet 19 o
    else (((s.setBit f.1 f.2).wrb R.THN_STAT_RB_STK true).itemOff 19 o).itemOn 19 o o

/-- READBACK_MISMATCH_END: the pad shows its term again (R548). -/
def execReadbackMismatchEnd (o : Fin 48) (s : State) : Host.Outcome State Fault Refusal := .next (s.itemOff 19 o)

/-! ### Binary inputs (R263 to R266) -/

def binOf (s : State) (i : Nat) : Bin := mget s.thn.bin i {}
def setBin (s : State) (i : Nat) (b : Bin) : State := setThn s { s.thn with bin := mput s.thn.bin i b }

/-- A field of a pair of 32-bit registers that holds a bit for each of 64 inputs. -/
def pairFld (lo hi : Fld) (i : Nat) : Fld × Nat := if i < 32 then (lo, i) else (hi, i - 32)

/-- Active time in whole µs, as FAB reads it (R263, R37). -/
def actUs (s : State) : Nat := s.fabTime 4 / nsU / 1000

/-- An edge of input `i` through its synchroniser, the pin at `pin` (R263). The first edge away from the debounced level since the latest
accepted change keeps its time (assumption 113). -/
def edgeTo (s : State) (i : Nat) (pin : Bool) : State :=
  let b := binOf s i
  let v := pin != s.on (R.THN_BINi_CFG_INV i)
  setBin s i { b with sync := v, edgeAt := s.tb2Ns, first := if v != b.deb && b.first.isNone then some (actUs s) else b.first }

/-- BIN_EDGE: an edge of input `i` (R263). -/
def execBinEdge (i : Fin 64) (pin : Bool) (s : State) : Host.Outcome State Fault Refusal :=
  .next (if !s.pg 1 then s else edgeTo s i pin)

/-- The levels turn where the image that has just been loaded inverts an input (R263). -/
def binLevels (s : State) : State :=
  (List.range 64).foldl (fun a i => if a.on (R.THN_BINi_CFG_INV i) then edgeTo a i (binOf a i).sync else a) s

/-- Quality of binary input `i` in the live store: I while frozen (R282). -/
def binQuality (b : Bin) : Nat := if b.frozen then qI else 0

/-- An event enters the FIFO, or is lost (R265); VALID rises with the first one (vector 5, R510). -/
def pushBev (s : State) (i : Nat) (level chatrel : Bool) (ts : Nat) : State :=
  if s.thn.fifo.length < 256 then
    let s1 := setThn s { s.thn with fifo := s.thn.fifo ++ [{ level := level, chatrel := chatrel, bin := i, seq := s.thn.seq % 65536, ts := ts }],
                                    seq := s.thn.seq + 1 }
    let s2 := s1.wr R.THN_BEV_STAT_COUNT s1.thn.fifo.length
    if s.thn.fifo.isEmpty then s2.fireVec 5 else s2
  else
    let s1 := (s.sat1 R.THN_BEV_STAT_LOST).wrb R.THN_STAT_BEV_OVF_STK true
    if s.thn.lostSince then s1 else (setThn s1 { s1.thn with lostSince := true }).logIx 0x0A 4 i

/-- The debounced level of input `i` becomes that of `b`, stamped `ts` µs (R265, R266, R279). -/
def takeLevel (s : State) (i : Nat) (b : Bin) (chatrel : Bool) (ts : Nat) : State :=
  let f := pairFld R.THN_BIN_LO_LEVEL R.THN_BIN_HI_LEVEL i
  let s1 := pushBev ((setBin s i b).putBit f.1 f.2 b.deb) i b.deb chatrel ts
  let s2 := setLive s1 (ptBin i) (if b.deb then 1 else 0) (binQuality b)
  (trigEvent (setLive64 s2 (ptBinTs i) (ptBinTsHi i) (BitVec.ofNat 64 ts) (binQuality b)) 1 i).recEvent 2 (2 * i + if b.deb then 1 else 0)

/-- DEB in ns: larger values act as 100. -/
def debNs (s : State) (i : Nat) : Nat := min 100 (s.rd (R.THN_BINi_CFG_DEB i)) * 100000

/-- BIN_DEBOUNCE_ACCEPT: the synchronised level has held the opposite of the debounced one for DEB × 0.1 ms (R263); the change
that takes the count of a 1 s interval above CHATN freezes the input (R264). -/
def execBinDebounceAccept (i : Fin 64) (s : State) : Host.Outcome State Fault Refusal :=
  .next <|
    let b := binOf s i
    if b.sync == b.deb || b.frozen || decide (s.tb2Ns < b.edgeAt + debNs s i) then s
    else
      let k := s.tb2Ns / 1000000000
      let n := if b.interval = k then b.changes + 1 else 1
      let frz := s.on (R.THN_BINi_CFG_CHEN i) && decide (max 2 (s.rd (R.THN_BINi_CFG_CHATN i)) < n)
      let b1 := { b with deb := b.sync, first := none, changes := n, interval := k, frozen := frz }
      let s1 := takeLevel s i b1 false (b.first.getD (actUs s))
      let f := pairFld R.THN_BCHAT_LO_FROZEN R.THN_BCHAT_HI_FROZEN i
      if frz then ((s1.setBit f.1 f.2).wrb R.THN_STAT_CHAT_STK true).logIx 0x0A 3 i else s1

/-- BIN_CHATTER_THAW: the end of the first 1 s interval of TB2 that holds no edge of a frozen input (R264). -/
def execBinChatterThaw (i : Fin 64) (s : State) : Host.Outcome State Fault Refusal :=
  .next <|
    let b := binOf s i
    if !b.frozen || decide (s.tb2Ns / 1000000000 * 1000000000 ≤ b.edgeAt + 1000000000) then s
    else
      let f := pairFld R.THN_BCHAT_LO_FROZEN R.THN_BCHAT_HI_FROZEN i
      let b1 := { b with frozen := false, changes := 0, first := none, deb := b.sync }
      let s1 := (setBin s i b1).clrBit f.1 f.2
      if b.sync != b.deb then takeLevel s1 i b1 true (actUs s)
      else setLiveQ (setLiveQ (setLiveQ s1 (ptBin i) 0) (ptBinTs i) 0) (ptBinTsHi i) 0

/-- BIN_EVENT_POP: removes the oldest entry; ignored when empty (R265). -/
def execBinEventPop (s : State) : Host.Outcome State Fault Refusal :=
  .next <|
    match s.thn.fifo with
    | [] => s
    | _ :: t =>
      let s1 := setThn s { s.thn with fifo := t, lostSince := s.thn.lostSince && !t.isEmpty }
      s1.wr R.THN_BEV_STAT_COUNT t.length

/-- GPO_HOST_WRITE: THN_GPO_HOSTW; a bit the host does not own has no effect on its pad (R267). -/
def execGpoHostWrite (v : BitVec 16) (s : State) : Host.Outcome State Fault Refusal :=
  .next (gateUpdate (s.wr R.THN_GPO_HOSTW_VAL v.toNat))

end Sys2Proof.Machine
end

