-- ==== Sys2Proof/Machine/Tim.lean ====
section
/-! DEFINITION. Time bases, PTP, active time, pulse outputs and captures (R343 to R375). -/

namespace Sys2Proof.Machine

def setTim (s : State) (t : Tim) : State := { s with tim := t }

/-! ### Time shadows (R37, R38) -/

/-- SLEW in ns per s; values outside 10 to 100,000 act as the nearer limit (R372). -/
def slewRate (s : State) : Nat := clamp 10 100000 (s.rd R.TIM_SWCFG_SLEW)

/-- How far a slew moves while a base advances by `adv` (2^−32 ns), no further than what is `left` (R359, R362). -/
def slewMove (s : State) (adv : Nat) (left : Int) : Int :=
  let m : Int := rdiv ((adv : Int) * slewRate s) 1000000000
  clampI (-m) m left

/-- What a base's own count advances by in a NET cycle (R343). -/
def advance (x : TBase) : Nat := 6 * nsU + x.addend

/-- The base of shadow `b`, 4 being active time: its value, and what it moves on by in a NET cycle as it runs and slews now (R38, R359,
R362). -/
def shadowBase (s : State) (b : Nat) : Nat × Int :=
  let x := s.tbOf (if b < 4 then b else s.followed)
  let r : Int := advance x - slewMove s (advance x) x.path
  if b < 4 then (x.val, r) else (actU s, r + slewMove s (advance x) s.tim.resid)

/-- The increment of a FAB cycle, which is 25/16 of a NET cycle (R37). -/
def shadowInc (s : State) (b : Nat) : Nat := ((shadowBase s b).2 * 25 / 16).toNat

/-- How far a shadow stands ahead of its base at a FAB edge: 4.8 ns, since the next edge comes 10 ns later and NET edges lie at multiples of
0.4 ns from it, so that it stays within 5 ns whatever the rate (R37, assumption 52). -/
def shadowLead : Nat := 24 * nsU / 5

/-- A shadow placed on its base, whose value it takes back to the latest FAB edge, `fabPhase` sixteenths of a NET cycle ago. -/
def shadowWord (s : State) (b : Nat) : Nat × Nat :=
  let w := shadowBase s b
  (((w.1 : Int) + shadowLead - w.2 * s.tim.fabPhase / 16).toNat, shadowInc s b)

/-- The shadows that run are placed on their bases. -/
def shadowAll (s : State) : State := setTim s { s.tim with shadow := s.tim.shadow.map fun e => (e.1, shadowWord s e.1) }

/-- A NET cycle of the shadows: at the FAB edges in it each advances by an increment that TIM derives from its base's addend. -/
def tickShadows (s : State) : State :=
  let f := s.tim.fabPhase + 16
  if f < 25 then setTim s { s.tim with netCnt := s.tim.netCnt + 1, fabPhase := f }
  else setTim s { s.tim with netCnt := s.tim.netCnt + 1, fabPhase := f - 25,
                             shadow := s.tim.shadow.map fun e => (e.1, (e.2.1 + shadowInc s e.1, shadowInc s e.1)) }

/-- An event of TIM with payload bytes from 0 and, where given, two numbers at byte 8 (R544). -/
def timEvent (s : State) (code : Nat) (head : List Byte) (a b : Int) : State :=
  s.logEv 3 code (padTo 8 head ++ leBytes 8 (usg 64 a) ++ leBytes 8 (usg 64 b))

def byteOf (n : Nat) : Byte := BitVec.ofNat 8 n

/-! ### Frequency adjustments (R343, R357) -/

/-- A binary32 value times num/den, rounded to the nearest integer. -/
def f32Times (w : Word) (num den : Nat) : Int :=
  match F32.unpack w with
  | .fin g m e =>
    let v : Int := if g then -(m : Int) else m
    if 0 ≤ e then rdiv (v * 2 ^ e.toNat * num) den else rdiv (v * num) (den * 2 ^ (-e).toNat)
  | _ => 0

/-- The addend of an adjustment of `w` ppb. -/
def addendOf (w : Word) : Nat := ((0x66666666 : Int) + f32Times w 27487790694 1000000000).toNat

/-- The addend of FADJ, in 1/256 ppb and ±128,000,000. -/
def addendFadj (s : State) (b : Nat) : Nat :=
  let f := clampI (-128000000) 128000000 (sgn 32 (s.rd (R.TIM_TBb_FADJ_FADJ b)))
  ((0x66666666 : Int) + rdiv (f * 27487790694) (256 * 1000000000)).toNat

def ppb500k : Word := F32.ofInt 500000
def clampPpb (w : Word) : Word := F32.max (F32.neg ppb500k) (F32.min ppb500k w)

/-- A span in 2^−32 ns as binary32 seconds. -/
def secF (u : Nat) : Word := F32.div (F32.roundInt u (-32) false) (F32.ofInt 1000000000)

/-! ### Time quality, states, steps -/

def tbMode (s : State) (b : Nat) : Nat := if b = 2 then 0 else s.rd (R.TIM_TBb_CFG_MODE b)
def tbState (s : State) (b : Nat) : Nat := s.rd (R.TIM_TBb_STAT_STATE b)

/-- The time-quality code of active time (R361). -/
def tqUpdate (s : State) : State :=
  let b := s.followed
  let st := tbState s b
  s.wr R.TIM_ACT_STAT_TQ
    (if st = 3 then (if s.on R.TIM_ACT_STAT_SLEWING || s.on (R.TIM_TBb_STAT_PATHSLEW b) then 1 else 0) else if st = 2 then 2 else 3)

/-- A sticky bit behind vector 9 is set (R510). -/
def stickAct (s : State) (f : Fld) : State := if s.on f then s else (s.wrb f true).fireVec 9

/-! ### Pulse outputs (R366 to R368) -/

def setTpo (s : State) (k : Nat) (x : Tpo) : State := setTim s { s.tim with tpo := mput s.tim.tpo k x }

/-- The value, in ns, of the base that a BASE field names; 4 is active time, 5 to 7 name none. -/
def baseNs (s : State) (b : Nat) : Option Nat := if b < 4 then some (s.tbNs b) else if b = 4 then some s.activeNs else none

def tpoPer (s : State) (k : Nat) : Nat := clamp 1000 4000000000 (s.rd (R.TIM_TPOk_PER_PER k))
def tpoPeriodic (s : State) (k : Nat) : Bool := s.on (R.TIM_TPOk_CFG_PERIODIC k)
def tpoWid (s : State) (k : Nat) : Nat :=
  if tpoPeriodic s k then clamp 16 (tpoPer s k - 16) (s.rd (R.TIM_TPOk_WID_WID k)) else max 16 (s.rd (R.TIM_TPOk_WID_WID k))

/-- The level of pin TPOk (R366, R375): with EN = 0 the inactive one; POL says which level is active. -/
def tpoPin (s : State) (k : Nat) : Bool := (s.on (R.TIM_TPOk_CFG_EN k) && (tpoOf s k).high) != s.on (R.TIM_TPOk_CFG_POL k)

/-- The smallest k ≥ 0 with t + k·per > now + 1 µs. -/
def tpoSkip (t per now : Nat) : Nat := if now + 1000 < t then 0 else (now + 1000 - t) / per + 1

/-- A start or an edge is past: the output is not armed (R367, R368). -/
def tpoLate (s : State) (k : Nat) : State :=
  let x := tpoOf s k
  timEvent (((setTpo s k { x with edge := none }).wrb (R.TIM_TPOk_STAT_LATE_STK k) true).wrb (R.TIM_TPOk_STAT_ARMED k) false) 6 [byteOf k] 0 0

/-- TPO_ARM: TIM_TPOk_CTL.ARM (R367); an output whose BASE names none is not armed (assumption 41). -/
def execTpoArm (k : Fin 8) (s : State) : Host.Outcome State Fault Refusal :=
  .next <|
    match baseNs s (s.rd (R.TIM_TPOk_CFG_BASE k)) with
    | none => s
    | some now =>
      let st := s.rd64 (R.TIM_TPOk_START_LO_START k) (R.TIM_TPOk_START_HI_START k)
      if tpoPeriodic s k then
        let n := tpoSkip st (tpoPer s k) now
        ((setTpo s k { tpoOf s k with edge := some (st + n * tpoPer s k), stopping := false }).wrb (R.TIM_TPOk_STAT_ARMED k) true).wr
          (R.TIM_TPOk_STAT_SKIP k) (min 65535 n)
      else if now + 1000 < st then (setTpo s k { tpoOf s k with edge := some st, stopping := false }).wrb (R.TIM_TPOk_STAT_ARMED k) true
      else tpoLate s k

/-- TPO_DISARM: the output stops after any pulse in progress. -/
def execTpoDisarm (k : Fin 8) (s : State) : Host.Outcome State Fault Refusal :=
  .next <|
    let x := tpoOf s k
    if x.off.isSome then setTpo s k { x with edge := none, stopping := true }
    else (setTpo s k { x with edge := none }).wrb (R.TIM_TPOk_STAT_ARMED k) false

/-- The end of a pulse that is reached: inactive level; a once-mode or stopping output is disarmed. -/
def tpoFall (s : State) (k now : Nat) : State :=
  let x := tpoOf s k
  match x.off with
  | some t =>
    if now < t then s
    else
      let s1 := setTpo s k { x with off := none, high := false, stopping := false }
      if x.stopping || x.edge.isNone then s1.wrb (R.TIM_TPOk_STAT_ARMED k) false else s1
  | none => s

/-- An edge instant that is reached: active level until E + WID, and the next edge in periodic mode. -/
def tpoRise (s : State) (k now : Nat) : State :=
  let x := tpoOf s k
  match x.edge with
  | some e =>
    if now < e then s
    else setTpo s k { x with edge := if tpoPeriodic s k then some (e + tpoPer s k) else none, off := some (e + tpoWid s k), high := true }
  | none => s

/-- TPO_EDGE: an output reaches its edge instant or the end of its pulse (R366). -/
def execTpoEdge (k : Fin 8) (s : State) : Host.Outcome State Fault Refusal :=
  .next <|
    match baseNs s (s.rd (R.TIM_TPOk_CFG_BASE k)) with
    | some now => tpoRise (tpoFall s k now) k now
    | none => s

/-- The base of output `k` has jumped past its pending edge (R368). -/
def tpoJump (s : State) (k : Nat) : State :=
  match baseNs s (s.rd (R.TIM_TPOk_CFG_BASE k)), (tpoOf s k).edge with
  | some now, some e =>
    if now < e then s
    else if now - e < 1000 then tpoRise s k now
    else if tpoPeriodic s k then
      let n := tpoSkip e (tpoPer s k) now
      (setTpo s k { tpoOf s k with edge := some (e + n * tpoPer s k) }).satAdd (R.TIM_TPOk_STAT_SKIP k) n
    else tpoLate s k
  | _, _ => s

/-- The outputs that a jump of base `b` moves, or of active time (4). -/
def tpoJumps (s : State) (b : Nat) : State :=
  (List.range 8).foldl (fun a k => if a.rd (R.TIM_TPOk_CFG_BASE k) = b then tpoJump a k else a) s

/-! ### Time steps (R364) -/

/-- A time step of base `b` to `v` (2^−32 ns): event, counts, and on active time what R135, R157, R319, R368 and R392 ask. -/
def stepBase (s : State) (b v cause : Nat) : State :=
  let x := s.tbOf b
  let s1 := ((s.setTb b { x with val := v, pend := [] }).wrb (R.TIM_TBb_STAT_STEP_STK b) true).sat1 (R.TIM_TBb_CNT_STEPS b)
  let s2 := timEvent s1 5 [byteOf b, byteOf cause] (x.val / nsU : Nat) (v / nsU : Nat)
  let s3 := shadowAll (tpoJumps s2 b)
  if b = s.followed then
    tpoJumps (gateStep (phaseStep ((stickAct s3 R.TIM_ACT_STAT_STEP_STK).recStep) ((v : Int) - x.val))) 4
  else s3

/-- BASE_SET: TIM_TBb_CTL.SET, in MODE 0 only and not on TB2 (R373). -/
def execBaseSet (b : Fin 4) (s : State) : Host.Outcome State Fault Refusal :=
  .next <|
    if b.val = 2 ∨ tbMode s b ≠ 0 then s
    else stepBase s b (s.rd64 (R.TIM_TBb_SETV_LO_SETV b) (R.TIM_TBb_SETV_HI_SETV b) * nsU) 1

/-- BASE_REACQUIRE: ACQUIRE at the next usable offset (R373). -/
def execBaseReacquire (b : Fin 4) (s : State) : Host.Outcome State Fault Refusal :=
  .next (if b.val = 2 then s else s.setTb b { s.tbOf b with reacq := true })

/-! ### Active time (R362, R363) -/

/-- A request for the base `sel`. -/
def domainSwitch (s : State) (sel : Nat) : State :=
  let s0 := s.wr R.TIM_ACT_SEL sel
  let old := s.followed
  if sel = old then s0
  else
    let r : Int := ((s.tbOf sel).val : Int) - actU s
    let imm := decide (r.natAbs < 100 * nsU)
    let ns : Int := rdiv r nsU
    let s1 := setTim (s0.wr R.TIM_ACT_STAT_FOLLOW sel) { s0.tim with resid := if imm then 0 else r }
    let s2 := timEvent (s1.wrb R.TIM_ACT_STAT_SLEWING !imm) 4 [byteOf old, byteOf sel, if imm then 1 else 0] ns 0
    let s3 := stickAct (tqUpdate s2) R.TIM_ACT_STAT_SW_STK
    if imm then shadowAll (rollAll (tpoJumps (switchStep s3) 4)) else s3

/-- TIME_DOMAIN_SWITCH: a write of TIM_ACT.SEL. -/
def execTimeDomainSwitch (sel : Fin 2) (s : State) : Host.Outcome State Fault Refusal := .next (domainSwitch s sel)

/-- SWITCH_SLEW_END: the residual has reached zero. -/
def execSwitchSlewEnd (s : State) : Host.Outcome State Fault Refusal :=
  .next (if s.tim.resid = 0 then tqUpdate (s.wrb R.TIM_ACT_STAT_SLEWING false) else s)

/-- A base changes its state (R356); a followed base that leaves LOCKED may request the other one (R363). -/
def setTbState (s : State) (b st : Nat) : State :=
  let old := tbState s b
  if st = old then s
  else
    let s1 := timEvent (s.wr (R.TIM_TBb_STAT_STATE b) st) 1 [byteOf b, byteOf old, byteOf st] 0 0
    let s2 := tqUpdate (if old = 3 then s1.wrb (R.TIM_TBb_STAT_LOCKLOSS_STK b) true else s1)
    if old = 3 && b == s.followed && s.on R.TIM_ACT_AUTO && tbState s2 (1 - b) == 3 then domainSwitch s2 (1 - b) else s2

/-! ### The servo (R355 to R360) -/

/-- SYNCTO in 2^−32 ns; 0 acts as 1. -/
def syncTo (s : State) (b : Nat) : Nat := max 1 (s.rd (R.TIM_TBb_TO_SYNCTO b)) * 100000000 * nsU
def holdMax (s : State) (b : Nat) : Nat := max 1 (s.rd (R.TIM_TBb_TO_HOLDMAX b)) * 1000000000 * nsU
/-- GUARD and LOCKTH in 1/16 ns; 0 acts as 1 ns. -/
def guard16 (s : State) (b : Nat) : Nat := 16 * max 1 (s.rd (R.TIM_TBb_GUARD_GUARD b))
def lockth16 (s : State) (b : Nat) : Nat := 16 * max 1 (s.rd (R.TIM_TBb_GUARD_LOCKTH b))

/-- adj is applied: the addend from the next NET cycle, FADJ shows it, and the last 16 values are kept (R357, R360, R373). -/
def applyAdj (s : State) (b : Nat) (integ adj : Word) : State :=
  let x := s.tbOf b
  (s.setTb b { x with integ := integ, adj := adj, addend := addendOf adj, hist := (adj :: x.hist).take 16 }).wr (R.TIM_TBb_FADJ_FADJ b)
    (usg 32 (f32Times adj 256 1))

/-- The servo runs on an accepted offset (1/16 ns); on the first one there is no interval and it does not run (assumption 40). -/
def runServo (s : State) (b : Nat) (o : Int) : State :=
  let x := s.tbOf b
  let now := tb2U s
  let s1 := match x.last with
    | some (_, t) =>
      if now ≤ t then s
      else
        let e := F32.div (F32.roundInt o (-4) false) (secF (now - t))
        let kp := F32.roundInt (s.rd (R.TIM_TBb_SERVO_KP b)) (-12) false
        let ki := F32.roundInt (s.rd (R.TIM_TBb_SERVO_KI b)) (-16) false
        let integ := clampPpb (F32.add x.integ (F32.mul ki e))
        applyAdj s b integ (clampPpb (F32.sub (F32.neg (F32.mul kp e)) integ))
    | none => s
  s1.setTb b { s1.tbOf b with last := some (o, now), usedAt := now, devs := [] }

/-- An accepted offset in ACQUIRE: a step beyond 1 ms, else the servo, and LOCKED after eight within LOCKTH (R357, R356). -/
def acquire (s : State) (b : Nat) (o : Int) (cause : Nat) : State :=
  if 16 * 1000000 < o.natAbs then
    let x := s.tbOf b
    let y := { x with integ := 0, run := 0, usedAt := tb2U s, last := some (0, tb2U s), devs := [] }
    stepBase (s.setTb b y) b (((x.val : Int) - o * 2 ^ 28).toNat) cause
  else
    let s1 := runServo s b o
    let n := if o.natAbs ≤ lockth16 s b then (s.tbOf b).run + 1 else 0
    let s2 := s1.setTb b { s1.tbOf b with run := n }
    if 8 ≤ n then setTbState s2 b 3 else s2

/-- The predicted offset (R358), in ns as binary32. -/
def predicted (x : TBase) (now : Nat) : Word :=
  match x.last with
  | some (o, t) => F32.add (F32.roundInt o (-4) false) (F32.mul (F32.add x.integ x.adj) (secF (now - t)))
  | none => 0

/-- A path change by Δ (1/16 ns) is taken (R359). -/
def pathChange (s : State) (b : Nat) (d : Int) : State :=
  let x := s.tbOf b
  let s1 := s.setTb b { x with path := x.path + d * 2 ^ 28, devs := [] }
  let s2 := ((s1.wrb (R.TIM_TBb_STAT_PATHSLEW b) true).wrb (R.TIM_TBb_STAT_PATH_STK b) true).sat1 (R.TIM_TBb_CNT_PATHCHG b)
  timEvent (tqUpdate s2) 3 [byteOf b, byteOf (s.rd (R.TIM_TBb_CFG_PORT b))] (rdiv d 16) 0

/-- A rejected offset with deviation `d` (1/16 ns). -/
def rejectOffset (s : State) (b : Nat) (d : Int) : State :=
  let x := s.tbOf b
  let s1 := s.sat1 (R.TIM_TBb_CNT_REJECT b)
  let l := d :: x.devs
  let hi := l.foldl max d
  let lo := l.foldl min d
  let l1 := if hi - lo ≤ guard16 s b then l else [d]
  if l1.length = 8 then pathChange s1 b (rdiv l1.sum 8) else s1.setTb b { x with devs := l1 }

/-- A path slew of base `b` ends where it stands: REACQ steps the base instead of slewing it (R359). -/
def endPath (s : State) (b : Nat) : State :=
  tqUpdate ((s.setTb b { s.tbOf b with path := 0 }).wrb (R.TIM_TBb_STAT_PATHSLEW b) false)

/-- A usable offset (1/16 ns) of base `b` (R355 to R359); `cause` names an acquisition step's cause. -/
def useOffset (s : State) (b : Nat) (raw : Int) : State :=
  let x := s.tbOf b
  let st := tbState s b
  let s0 := s.wr (R.TIM_TBb_OFFS_OFFS b) (usg 32 (clampI (-2147483648) 2147483647 (rdiv raw 16)))
  let o := raw - rdiv x.path (2 ^ 28)
  if x.reacq then acquire (setTbState (endPath (s0.setTb b { x with reacq := false, run := 0 }) b) b 2) b raw 2
  else if st = 1 then acquire (setTbState (s0.setTb b { x with run := 0, last := none }) b 2) b o 0
  else if st = 2 then acquire s0 b o 0
  else if st = 3 ∨ st = 4 then
    let p := f32Times (predicted x (tb2U s)) 16 1
    if (o - p).natAbs ≤ guard16 s b then
      let s1 := runServo s0 b o
      if st = 4 then setTbState s1 b 3 else s1
    else rejectOffset s0 b (o - p)
  else s0

/-- The offset of R355 in 1/16 ns, saturating: t2 and the corrections in 2^−32 ns. -/
def offsetOf (s : State) (port : Nat) (t2 : Int) (origin : Nat) (corr : Int) : Int :=
  let u : Int := t2 - origin * nsU - corr * 2 ^ 16 - sgn 32 (s.rd (R.TIM_Pp_MLD_MLD port)) * 2 ^ 28
    - rdiv (sgn 32 (s.rd (R.TIM_Pp_ASYM_ASYM port)) * 2 ^ 32) 1000
  clampI (-(2 ^ 35)) (2 ^ 35) (rdiv u (2 ^ 28))

/-- The master of a base (R351). -/
def masterId (s : State) (b : Nat) : Nat := s.rd (R.TIM_TBb_MID_HI_MID b) * 2 ^ 32 + s.rd (R.TIM_TBb_MID_LO_MID b)
def fromMaster (s : State) (b port domain srcId srcPort : Nat) : Bool :=
  b != 2 && tbMode s b == 1 && masterId s b != 0 && masterId s b == srcId && s.rd (R.TIM_TBb_MPN_MPN b) == srcPort
    && s.rd (R.TIM_TBb_CFG_PORT b) == port && s.rd (R.TIM_TBb_CFG_DOMAIN b) == domain

/-- A Sync for one base (R352, R355): used at once in one-step form, else kept for its Follow_Up. -/
def syncFor (m : SyncMsg) (s : State) (b : Nat) : State :=
  if !fromMaster s b m.port m.domain m.srcId m.srcPort then s
  else
    let t2 := ingressStamp s b m.port m.pos
    match m.origin with
    | some t1 =>
      let s1 := s.setTb b { s.tbOf b with pend := [] }
      if s.on (R.TIM_Pp_PDSTAT_VALID m.port) then useOffset s1 b (offsetOf s m.port t2 t1 m.corr) else s1
    | none => s.setTb b { s.tbOf b with pend := [⟨m.seq, m.port, m.domain, m.srcId, m.srcPort, t2, m.corr⟩] }

/-- SYNC_RECEIVE: a Sync reaches TIM (R355). -/
def execSyncReceive (m : SyncMsg) (s : State) : Host.Outcome State Fault Refusal :=
  .next (if s.pg 8 then [0, 1, 3].foldl (syncFor m) (s.takeFrame .tim) else s)

/-- Does a Follow_Up belong to a Sync that was used: its sequence number, port and master (R352)? A master or port selected since takes
effect at the next Sync (R351). -/
def paired (m : FollowUp) (e : PendSync) : Bool :=
  e.seq == m.seq.val && e.port == m.port.val && e.domain == m.domain.val && e.srcId == m.srcId && e.srcPort == m.srcPort

/-- A Follow_Up for one base. -/
def followFor (m : FollowUp) (s : State) (b : Nat) : State :=
  if b = 2 ∨ tbMode s b ≠ 1 ∨ masterId s b = 0 then s
  else match (s.tbOf b).pend.find? (paired m) with
    | some e =>
      let s1 := s.setTb b { s.tbOf b with pend := [] }
      if s.on (R.TIM_Pp_PDSTAT_VALID m.port) then useOffset s1 b (offsetOf s m.port e.t2 m.origin (e.corr + m.corr)) else s1
    | none => s

/-- FOLLOW_UP_RECEIVE: a Follow_Up reaches TIM (R352). -/
def execFollowUpReceive (m : FollowUp) (s : State) : Host.Outcome State Fault Refusal :=
  .next (if s.pg 8 then [0, 1, 3].foldl (followFor m) (s.takeFrame .tim) else s)

/-- PATH_SLEW_END: the path slew of base `b` is complete. -/
def execPathSlewEnd (b : Fin 4) (s : State) : Host.Outcome State Fault Refusal :=
  .next (if (s.tbOf b).path = 0 then tqUpdate (s.wrb (R.TIM_TBb_STAT_PATHSLEW b) false) else s)

/-- The mean of binary32 values (R360). -/
def meanF (l : List Word) : Word := F32.div (l.foldl F32.add 0) (F32.ofInt l.length)

/-- SYNC_TIMEOUT: no usable offset accepted for SYNCTO (R360). -/
def execSyncTimeout (b : Fin 4) (s : State) : Host.Outcome State Fault Refusal :=
  .next <|
    let x := s.tbOf b
    let st := tbState s b
    if (st ≠ 2 ∧ st ≠ 3) ∨ tb2U s < x.usedAt + syncTo s b then s
    else
      let s1 := s.setTb b { x with heldAt := tb2U s, run := 0 }
      let s2 := if x.hist.isEmpty then s1
        else
          let a := meanF x.hist
          (s1.setTb b { s1.tbOf b with adj := a, addend := addendOf a }).wr (R.TIM_TBb_FADJ_FADJ b) (usg 32 (f32Times a 256 1))
      setTbState s2 b 4

/-- HOLDOVER_TIMEOUT: HOLDMAX seconds in HOLDOVER (R360). -/
def execHoldoverTimeout (b : Fin 4) (s : State) : Host.Outcome State Fault Refusal :=
  .next (if tbState s b = 4 ∧ (s.tbOf b).heldAt + holdMax s b ≤ tb2U s then setTbState s b 1 else s)

/-- MASTER_SELECT: a write of MID, MPN or PORT (R351); PORT 3 is ignored, as is PORT under TIM_CTL.LOCK (R373). -/
def execMasterSelect (b : Fin 4) (w : MasterSel) (v : BitVec 32) (s : State) : Host.Outcome State Fault Refusal :=
  .next <|
    let s1 := match w with
      | .midLo => s.wr (R.TIM_TBb_MID_LO_MID b) v.toNat
      | .midHi => s.wr (R.TIM_TBb_MID_HI_MID b) v.toNat
      | .mpn => s.wr (R.TIM_TBb_MPN_MPN b) v.toNat
      | .port => if v.toNat % 4 = 3 ∨ s.on R.TIM_CTL_LOCK then s else s.wr (R.TIM_TBb_CFG_PORT b) v.toNat
    if b.val ≠ 2 ∧ tbMode s1 b = 1 ∧ masterId s1 b = 0 ∧ tbState s1 b ≠ 0 then setTbState s1 b 1 else s1

/-- A base takes up its mode: FREERUN in MODE 0, the addend following FADJ; NOMASTER in MODE 1 and 2 (R345, R356). -/
def tbModeSet (s : State) (b : Nat) : State :=
  let s1 := setTbState s b (if tbMode s b = 0 then 0 else 1)
  if tbMode s b = 0 then s1.setTb b { s1.tbOf b with addend := addendFadj s1 b } else s1

/-- COARSE_CLOCK_LOAD: a whole second of active time that has not been written yet, while it follows a LOCKED base (R345). -/
def execCoarseClockLoad (s : State) : Host.Outcome State Fault Refusal :=
  .next <|
    let sec := s.activeNs / 1000000000
    if s.pg 8 && tbState s s.followed == 3 && s.tim.coarseSec != some sec then
      setTim s { s.tim with coarse := actU s, coarseSec := some sec }
    else s

/-! ### Peer delay (R353) -/

def pdOf (s : State) (p : Nat) : PDelay := mget s.tim.pd p {}
def setPd (s : State) (p : Nat) (x : PDelay) : State := setTim s { s.tim with pd := mput s.tim.pd p x }

/-- The exchange in progress ends without a response. -/
def pdMiss (s : State) (p : Nat) : State :=
  let x := pdOf s p
  if !x.open_ then s
  else
    let s1 := (setPd s p { x with open_ := false, missed := x.missed + 1 }).sat1 (R.TIM_Pp_PDSTAT_LOST p)
    if x.missed + 1 = 3 then
      timEvent ((s1.wrb (R.TIM_Pp_PDSTAT_VALID p) false).wrb (R.TIM_Pp_PDSTAT_PDFAIL_STK p) true) 2 [byteOf p] 0 0
    else s1

/-- The interval of Pdelay_Req in ns: 2^LOGINT s, LOGINT from −3 to +3; values outside act as the nearer limit (assumption 138). -/
def pdNs (s : State) : Nat := 125000000 * 2 ^ (clampI (-3) 3 (sgn 8 (s.rd R.TIM_PDCFG_LOGINT)) + 3).toNat

/-- PDELAY_REQ_SEND: the interval of TIM_PDCFG ends on a port that is up; the request is of domain PDDOM. -/
def execPdelayReqSend (p : Fin 3) (s : State) : Host.Outcome State Fault Refusal :=
  .next <|
    if !portUp s p || !s.pg 8 || !intervalDone s (pdOf s p).sentAt (pdNs s) then s
    else
      let s1 := pdMiss s p
      let x := pdOf s1 p
      let q := (x.seq + 1) % 65536
      enqueueFrame (setPd s1 p { x with seq := q, open_ := true, t1 := none, sentAt := some s.tb2Ns }) p (queueFor s1 p none)
        { kind := .pdReq q (s.rd R.TIM_PDCFG_PDDOM), len := wireLen 68 }

/-- PDELAY_REQ_RECEIVE: a request of any domain is answered with a one-step Pdelay_Resp whose correctionField takes the turnaround as
it leaves. -/
def execPdelayReqReceive (m : PdReq) (s : State) : Host.Outcome State Fault Refusal :=
  .next <|
    let p := m.port
    if !portUp s p || !s.pg 8 then s
    else enqueueFrame (s.takeFrame .tim) p (queueFor s p none) { kind := .pdResp m (ingressStamp s 2 p m.pos), len := wireLen 68 }

/-- meanLinkDelay in 1/16 ns and r − 1 in 1/256 ppb, from t1, t4 and t3 − t2 in 2^−32 ns (R353, R374). -/
def linkDelay (num den : Nat) (t1 t4 turn : Int) : Int :=
  rdiv ((num : Int) * (t4 - t1) - turn * den) (2 * den * 2 ^ 28)

/-- PDELAY_RESP_RECEIVE: a response to the exchange in progress. -/
def execPdelayRespReceive (p : Fin 3) (m : PdResp) (s : State) : Host.Outcome State Fault Refusal :=
  .next <|
    let s0 := s.takeFrame .tim
    let x := pdOf s0 p
    match x.open_, x.seq == m.seq.val, x.t1 with
    | true, true, some t1 =>
      let t4 := ingressStamp s0 2 p m.pos
      let r := match m.t3, x.prev with
        | some t3, some (t3p, t4p) => if t3p < t3 ∧ t4p < t4 then ((t3 - t3p) * nsU, (t4 - t4p).toNat) else (x.num, x.den)
        | _, _ => (x.num, x.den)
      let y := { x with open_ := false, missed := 0, prev := (m.t3.map fun t => (t, t4)), num := r.1, den := r.2 }
      let d := clampI (-(2 ^ 31)) (2 ^ 31 - 1) (linkDelay r.1 r.2 t1 t4 (m.turn * 2 ^ 16))
      let nrr := clampI (-(2 ^ 31)) (2 ^ 31 - 1) (rdiv (((r.1 : Int) - r.2) * 256000000000) r.2)
      (((setPd s0 p y).wr (R.TIM_Pp_MLD_MLD p) (usg 32 d)).wr (R.TIM_Pp_NRR_NRR p) (usg 32 nrr)).wrb (R.TIM_Pp_PDSTAT_VALID p) true
    | _, _, _ => s0

/-! ### Captures and PPS_IN (R369, R370) -/

/-- Does EDGE take this edge? -/
def edgeTaken (e : Nat) (rise : Bool) : Bool := e == 3 || (e == 1 && rise) || (e == 2 && !rise)

/-- A capture enters the FIFO or is lost (R369). -/
def tciPush (s : State) (e : TciEnt) : State :=
  if s.tim.tci.length < 64 then
    let s1 := setTim s { s.tim with tci := s.tim.tci ++ [e] }
    if s.tim.tci.isEmpty then s1.fireVec 6 else s1
  else
    let s1 := (s.sat1 R.TIM_TCI_STAT_LOST).wrb R.TIM_TCI_STAT_OVF_STK true
    if s.tim.tciLost then s1 else timEvent (setTim s1 { s1.tim with tciLost := true }) 7 [byteOf e.input] 0 0

/-- TCI_CAPTURE: an edge is seen at input `i`; its stamp is taken less 16 ns. -/
def execTciCapture (i : Fin 8) (rise : Bool) (s : State) : Host.Outcome State Fault Refusal :=
  .next <|
    let b := s.rd (R.TIM_TCIi_CFG_BASE i)
    match baseNs s b with
    | some now =>
      if !s.on (R.TIM_TCIi_CFG_EN i) || !edgeTaken (s.rd (R.TIM_TCIi_CFG_EDGE i)) rise || !s.pg 8 then s
      else
        let s1 := tciPush s { rise := rise, base := b, input := i, seq := s.tim.tciSeq, ts := (now - 16) % 2 ^ 32 }
        (trigEvent (setTim s1 { s1.tim with tciSeq := (s1.tim.tciSeq + 1) % 65536 }) 5 i).recEvent 6 i
    | none => s

/-- TCI_POP: the oldest capture is removed; ignored when empty (R375). -/
def execTciPop (s : State) : Host.Outcome State Fault Refusal :=
  .next (setTim s { s.tim with tci := s.tim.tci.tail, tciLost := s.tim.tciLost && decide (1 < s.tim.tci.length) })

/-- The instant of an edge seen now, in units of a base that reads `v`. -/
def edgeU (v : Nat) : Nat := v - 16 * nsU

/-- PPS_EDGE: an edge of PPS_IN; TB3 in MODE 2 takes an offset from it (R370). -/
def execPpsEdge (rise : Bool) (s : State) : Host.Outcome State Fault Refusal :=
  .next <|
    let x := s.tbOf 3
    let sec := 1000000000 * nsU
    if tbMode s 3 ≠ 2 ∨ rise = s.on (R.TIM_TBb_CFG_PPSPOL 3) ∨ !s.pg 8 then s
    else if x.reacq || tbState s 3 == 1 then
      let v := (edgeU (actU s) + sec / 2) / sec * sec + 16 * nsU
      let s1 := setTbState (endPath (s.setTb 3 { x with reacq := false, run := 0, integ := 0, last := some (0, tb2U s), usedAt := tb2U s, devs := [] }) 3) 3 2
      stepBase s1 3 v (if x.reacq then 2 else 0)
    else
      let t := edgeU x.val
      let d : Int := (t : Int) - ((t + sec / 2) / sec * sec : Nat)
      useOffset (s.setTb 3 { x with usedAt := tb2U s }) 3 (rdiv d (2 ^ 28))

end Sys2Proof.Machine
end

