-- ==== Sys2Proof/Machine/Twn.lean ====
section
/-! DEFINITION. Beacons (R12, R334 to R336, R487) and the twin unit (R478 to R501). -/

namespace Sys2Proof.Machine

def setTwn (s : State) (t : Twn) : State := { s with twn := t }
def ownNode (s : State) : Nat := s.img.node % 4096
def partnerNode (s : State) : Nat := s.rd R.TWN_CFG_PARTNER
def bcnPcp (s : State) (p : Nat) : Nat := queueFor s p (some (s.rd R.NET_BCN_CFG_PCP))

/-! ### Frames of Ethertype 0x88B5 (R334, R335) -/

/-- The offsets 0x00 to 0x33, big-endian. -/
def b5Head (s : State) (subtype seq : Nat) : List Byte :=
  beBytes 2 subtype ++ beBytes 2 1 ++ beBytes 2 (ownNode s) ++ beBytes 2 s.img.ifrev ++ beBytes 8 (devId s) ++ beBytes 4 seq
    ++ leBytes 32 s.img.ident

/-- The octets of a frame to a beacon or twin address from source `src`. -/
def b5Frame (s : State) (dst src : Nat) (payload : List Byte) : List Byte :=
  beBytes 6 dst ++ beBytes 6 src ++ [0x81, 0x00] ++ beBytes 2 (s.rd R.NET_BCN_CFG_PCP * 8192) ++ [0x88, 0xB5] ++ payload

/-- The key that signs a frame of this Ethertype, where TAUTH asks for a tag and its slot has one (R335, R449). -/
def b5Key (s : State) : Option AuthKey × State :=
  if s.on R.NET_BCN_CFG_TAUTH then
    let r := signWith s (s.rd R.NET_BCN_CFG_KSLOT)
    (if r.1.isSome then (keySlot s (s.rd R.NET_BCN_CFG_KSLOT)).cur else none, r.2)
  else (none, s)

/-- The word that says whether a tag is present, and of which slot. -/
def tagWord (s : State) (k : Option AuthKey) : Nat := (if k.isSome then 2 ^ 15 else 0) + s.rd R.NET_BCN_CFG_KSLOT

/-- A payload with its tag: the first 16 octets of its HMAC-SHA256 under the key (R335, R483; assumption 59). -/
def b5Signed (k : Option AuthKey) (payload : List Byte) : List Byte :=
  payload ++ (match k with | some y => (hmac256 y.bytes payload).take 16 | none => [])

/-- Source MAC of a control block: that of the ports it is sent on. -/
def pubMac (s : State) (c : Nat) : Nat :=
  if c = 0 ∨ (s.rd (R.NET_GCBc_CFG_PORTS c)).testBit 0 then netMac s else netMac s + 1

/-- BEACON_SEND: once per second of TB2 (R334). -/
def execBeaconSend (s : State) : Host.Outcome State Fault Refusal :=
  .next <|
    if !s.pg 8 || !intervalDone s s.net.bcnAt 1000000000 then s
    else
      let g := s.img.gcbs.take 128
      let t := b5Key s
      let s1 := t.2
      let pubs := g.flatMap fun e => beBytes 2 e.2.appid ++ beBytes 6 (pubMac s e.1)
      let body := b5Signed t.1 (b5Head s 1 s.net.bcnSeq ++ beBytes 2 g.length ++ beBytes 2 (tagWord s t.1) ++ pubs)
      let f := fun src => let b := b5Frame s 0x034F58000001 src body
        ({ kind := .beacon, len := wireLen b.length, bytes := b } : EgFrame)
      let s2 := setNet s1 { s1.net with bcnSeq := (s1.net.bcnSeq + 1) % 2 ^ 32, bcnAt := some s.tb2Ns }
      sendLocal (sendLocal s2 [0, 1] (bcnPcp s) (f (netMac s))) [2] (bcnPcp s) (f (netMac s + 1))

/-- Does a frame's tag satisfy RAUTH: present, of key slot KSLOT, and valid (R336)? -/
def b5Auth (s : State) (h : B5Head) : Bool :=
  !s.on R.NET_BCN_CFG_RAUTH || (match h.tag with | some (k, ok) => k.val == s.rd R.NET_BCN_CFG_KSLOT && ok | none => false)

/-! ### Cross-check modes (R488, R494) -/

def silentNs (s : State) : Nat := clamp 20 10000 (s.rd R.TWN_TIM_SILENT) * 1000000
def xmode (s : State) : Nat := s.rd R.TWN_STAT_XMODE

/-- Has SILENT passed since the last accepted frame, or, where there has been none, since enable with a partner learned? A RELEARN in
between is no frame. -/
def twinLost (s : State) : Bool :=
  match s.twn.lastAt with
  | some t => decide (t + silentNs s ≤ s.tb2Ns)
  | none => s.on R.TWN_STAT_LEARNED && decide (s.twn.since + silentNs s ≤ s.tb2Ns)

/-- Is there a clash of R12 on the partner's node ID, within the last two beacon periods (assumption 44)? -/
def partnerClash (s : State) : Bool :=
  match s.twn.clash.find? fun e => e.1 == partnerNode s with
  | some e => decide (s.tb2Ns < e.2 + 2000000000)
  | none => false

/-- The mode of the highest-ranked condition that holds; WAIT too where SILENT has passed and no condition of the table holds, since no partner
has been heard or learned (assumption 169). -/
def xmodeNow (s : State) : Nat :=
  if !s.on R.TWN_CFG_EN then 0
  else if twinLost s then 5
  else if s.twn.heard.isNone then 1
  else if s.rd R.TWN_PREV_REV ≠ s.img.ifrev % 65536 then 4
  else if s.twn.pident ≠ s.img.ident ∨ partnerClash s = true then 3
  else 2

/-- The twin points of the live input store (R494). -/
def twinPoints (s : State) : State :=
  let q := if xmode s = 2 then 0 else if xmode s = 3 then qQ else qI
  let v := [s.rd R.TWN_PSTART_START, s.rd R.TWN_PTRIP_TRIP, s.rd R.TWN_PVALID_VALID, s.rd R.TWN_PHEALTH_HEALTH, xmode s]
  (List.range 5).foldl (fun a k => setLive a (ptTwin k) (BitVec.ofNat 32 (v.getD k 0)) q) s

/-- The mode is evaluated; a change is logged, and outside FULL and MONITOR open windows are discarded (R488, R489, R496). -/
def evalXmode (s : State) : State :=
  let old := xmode s
  let new := xmodeNow s
  let s1 := s.wr R.TWN_STAT_XMODE new
  let mix := new == 3 && s.twn.pident != s.img.ident
  let m := if mix then (match s.twn.mixed with | some t => some t | none => some s.tb2Ns) else none
  let s2 := setTwn s1 { s1.twn with mixed := m, wins := if new = 2 ∨ new = 3 then s1.twn.wins else [] }
  twinPoints (if new = old then s2 else s2.logEv 0x0E 1 [byteOf old, byteOf new])

/-- The instants, in ns, of the named FTG's ticks with index mod N = 0, in the order in which they were placed. -/
def cycleBounds (s : State) : List Nat :=
  ((espFtg s (s.rd R.TWN_CFG_FTG)).insts.reverse.filter fun i => i.tick % i.n == 0).map stampOf

/-- Frames are paced by the named FTG from its latest cycle boundary on (R480; assumption 170). -/
def twinPace (s : State) : State := setTwn s { s.twn with bound := (cycleBounds s).getLast?, snaps := [] }

/-- TWN takes up TWN_CFG.EN, after SYS, PD8 power-good or a write of EN. -/
def twinEnable (s : State) : State := evalXmode (twinPace (setTwn s { s.twn with since := s.tb2Ns, heard := none, seq := none }))

/-- TWIN_SILENT_EXPIRY: SILENT ms without an accepted frame. -/
def execTwinSilentExpiry (s : State) : Host.Outcome State Fault Refusal := .next (if s.on R.TWN_CFG_EN && twinLost s then evalXmode s else s)

/-- TWIN_RELEARN: TWN_CTL.RELEARN forgets the learned partner ID (R486). -/
def execTwinRelearn (s : State) : Host.Outcome State Fault Refusal :=
  .next (setTwn (s.wrb R.TWN_STAT_LEARNED false) { s.twn with since := s.tb2Ns, heard := none, seq := none })

/-- TWN_MIXED: 3,600 s of TB2 continuously in MONITOR because the identities differ (R496). -/
def execTwnMixed (s : State) : Host.Outcome State Fault Refusal :=
  .next <|
    match s.twn.mixed with
    | some t =>
      if s.tb2Ns < t + 3600000000000 then s
      else (setTwn s { s.twn with mixed := some (t + 3600000000000) }).logEv 0x0E 7
        ((leBytes 32 s.img.ident).take 12 ++ (leBytes 32 s.twn.pident).take 12)
    | none => s

/-! ### Windows (R489 to R491) -/

/-- The other side's frames whose spans overlap a window [t − 2·len, t + 3·len). -/
def overlapping (w : TwWin) (l : List TwSpan) : List TwSpan :=
  l.filter fun f => f.len != 0 && decide (f.t < w.t + 3 * w.len) && decide (w.t < f.t + f.len + 2 * w.len)

/-- Do spans follow one another without a gap from `a` to `b`? -/
def covered (l : List TwSpan) (b : Nat) : (fuel a : Nat) → Bool
  | 0, _ => false
  | fuel + 1, a =>
    if b ≤ a then true
    else match l.find? fun f => decide (f.t ≤ a) && decide (a < f.t + f.len) with
      | some f => covered l b fuel (f.t + f.len)
      | none => false

/-- What a window's judgement is: 0 open, 1 agreement, 2 not judged, 3 disagreement (R491). -/
def judgeWin (w : TwWin) (l : List TwSpan) : Nat :=
  let o := overlapping w l
  if o.any fun f => f.start.testBit w.bay then 1
  else if !w.valid || o.any fun f => !f.valid.testBit w.bay then 2
  else if covered o (w.t + 3 * w.len) 64 (w.t - 2 * w.len) then 3
  else 0

/-- A disagreement on a bay (R489). -/
def disagree (s : State) (w : TwWin) : State :=
  let s1 := ((s.setBit R.TWN_DISBAY_BAY w.bay).wrb R.TWN_STAT_DIS_STK true).sat1 R.TWN_CNT1_DIS
  if xmode s = 2 then s1.raiseLine 21 w.bay
  else s1.logEv 0x0E 2 (padTo 8 [byteOf w.bay] ++ leBytes 8 w.t)

/-- One window is judged; those that stay open are kept. -/
def judgeOne (s : State) (w : TwWin) : State :=
  match judgeWin w (if w.own then s.twn.part else s.twn.own) with
  | 0 => setTwn s { s.twn with wins := s.twn.wins ++ [w] }
  | 1 => s
  | 2 => s.sat1 R.TWN_CNT1_UNCHK
  | _ => disagree s w

/-- Every open window is judged, in FULL and MONITOR. -/
def judgeAll (s : State) : State :=
  if xmode s = 2 ∨ xmode s = 3 then s.twn.wins.foldl judgeOne (setTwn s { s.twn with wins := [] })
  else setTwn s { s.twn with wins := [] }

/-- The windows that the trip rises of a frame open, given the same side's earlier frames (R490). -/
def riseWindows (own : Bool) (f : TwSpan) (before : List TwSpan) : List TwWin :=
  if f.len = 0 then []
  else
    let prev := before.find? fun p => p.len != 0 && p.t + p.len == f.t
    ((List.range 24).filter fun b => f.trip.testBit b && (match prev with | some p => !p.trip.testBit b | none => true)).map fun b =>
      { own := own, bay := b, t := f.t, len := f.len, valid := f.valid.testBit b }

/-- A regular frame of one side is held; its windows open and all are judged. -/
def takeSpan (s : State) (own : Bool) (f : TwSpan) : State :=
  let w := if xmode s = 2 ∨ xmode s = 3 then riseWindows own f (if own then s.twn.own else s.twn.part) else []
  let t := s.twn
  judgeAll (setTwn s (if own then { t with own := (f :: t.own).take 64, wins := t.wins ++ w }
    else { t with part := (f :: t.part).take 64, wins := t.wins ++ w }))

/-- LATE in ns; 0 acts as 1 ms. -/
def lateNs (s : State) : Nat := clamp 1 100 (s.rd R.TWN_CFG_LATE) * 1000000

/-- TWIN_WINDOW_DEADLINE: the windows whose deadline active time has passed are unchecked (R491). -/
def execTwinWindowDeadline (s : State) : Host.Outcome State Fault Refusal :=
  .next <|
    let beyond := s.twn.wins.filter fun w => decide (w.t + 4 * w.len + lateNs s ≤ s.fabTime 4 / nsU)
    let s1 := setTwn s { s.twn with wins := s.twn.wins.filter fun w => !beyond.contains w }
    if xmode s = 2 ∨ xmode s = 3 then s1.satAdd R.TWN_CNT1_UNCHK beyond.length else s1

/-! ### Sending (R480 to R484, R493) -/

/-- The health word (R484). -/
def healthWord (s : State) : Nat :=
  let b (x : Bool) (k : Nat) : Nat := if x then 2 ^ k else 0
  b (s.on R.PRV_STAT_SAFE) 31 + b (s.rd R.GLB_PWR_STATE != 1) 30
    + (bitmap 8 fun n => s.img.used.testBit n && s.rd (R.ELCn_STAT_STATE n) != 1) * 2 ^ 22 + b (s.rd R.SCH_STAT_STATE != 1) 21
    + b (s.on R.NET_STAT_C0OK) 20 + s.rd R.TIM_ACT_STAT_TQ * 2 ^ 18 + b (s.rd R.SCH_EXCH_STAT_STATE != 0) 17
    + b (portUp s 0) 16 + b (portUp s 1) 15

/-- The retained digest over the twin-compared regions as last committed (R493). -/
def retainedDigest (s : State) : Word :=
  let m := committedMem s
  let ts := (List.range 16).filter fun t => s.img.twinTasks.contains t
  if ts.isEmpty then 0
  else crc32 (ts.flatMap fun t => let r := mget s.img.retained t (0, 0); memRds m (scBase + r.1) r.2)

/-- FTG and time-quality code in the word at 0x44: an extra frame repeats those of the latest regular frame (R482, R483). -/
def twinTop (s : State) (f : TwinFrame) : Nat :=
  if f.extra && s.twn.last.isSome then s.twn.w44 else s.rd R.TWN_CFG_FTG * 2 ^ 30 + s.rd R.TIM_ACT_STAT_TQ * 2 ^ 28

/-- The octets of a twin frame's payload from 0x34 to 0x5F (R483). -/
def twinBody (s : State) (f : TwinFrame) (tagw : Nat) : List Byte :=
  beBytes 2 tagw ++ beBytes 2 ((if f.roleB then 2 ^ 15 else 0) + (if f.extra then 2 ^ 14 else 0) + f.partner) ++ beBytes 8 f.inst
    ++ beBytes 4 f.len ++ beBytes 4 (twinTop s f + f.start.toNat)
    ++ beBytes 4 f.trip.toNat ++ beBytes 4 f.valid.toNat ++ beBytes 4 f.health.toNat ++ beBytes 4 f.digest.toNat
    ++ beBytes 4 (f.records % 65536 * 65536 + f.aus.toNat) ++ beBytes 4 0

/-- A twin frame leaves on PA and PB (R334, R480). -/
def sendTwin (s : State) (f : TwinFrame) : State :=
  let t := b5Key s
  let b := b5Frame s 0x034F58000002 (netMac s) (b5Signed t.1 (b5Head s 2 s.net.twnSeq ++ twinBody s f (tagWord s t.1)))
  let s1 := t.2
  let s2 := setNet s1 { s1.net with twnSeq := (s1.net.twnSeq + 1) % 2 ^ 32 }
  let s3 := (setTwn s2 { s2.twn with last := if f.extra then s2.twn.last else some f,
                                     sentAt := if f.extra then s2.twn.sentAt else some s2.tb2Ns, w44 := twinTop s f, aus := 0 }).inc R.TWN_CNT0_TX
  sendLocal s3 [0, 1] (bcnPcp s) { kind := .twin, len := wireLen b.length, bytes := b }

/-- A frame of this device: span, bitmaps, and what it reports of now. -/
def ownFrame (s : State) (inst len start trip valid : Nat) : TwinFrame :=
  { head := { port := 0, version := 1, node := Fin.ofNat 4096 (ownNode s), ifrev := s.img.ifrev, devId := devId s,
              seq := Fin.ofNat 4294967296 s.net.twnSeq, ident := s.img.ident, tag := none }
    roleB := s.on R.TWN_CFG_ROLE, extra := false, partner := Fin.ofNat 4096 (partnerNode s), inst := inst, len := len,
    start := BitVec.ofNat 24 start, trip := BitVec.ofNat 24 trip, valid := BitVec.ofNat 24 valid,
    health := BitVec.ofNat 32 (healthWord s), digest := retainedDigest s, records := s.twn.records, aus := BitVec.ofNat 4 s.twn.aus }

/-- The first two boundaries in a row between which active time advances. -/
def firstCycle : List Nat → Option (Nat × Nat)
  | a :: b :: t => if a < b then some (a, b) else firstCycle (b :: t)
  | _ => none

/-- The span of the next frame: from the end of the latest one, or from the oldest boundary known. Boundaries count in the order of their
ticks, so that after a backward step of active time the next cycle follows as before. -/
def nextSpan (s : State) : Option (Nat × Nat) :=
  let l := cycleBounds s
  match s.twn.bound with
  | some t => firstCycle (if l.contains t then t :: (l.reverse.takeWhile (· != t)).reverse else l)
  | none => firstCycle l

/-- Is the frame of a span that ends at `b` due (R480)? -/
def spanDue (s : State) (b : Nat) : Bool :=
  ((List.range 8).all fun n => s.rd (R.ELCn_STAT_STATE n) != 1 || decide (b ≤ mget s.twn.latest n 0)) || decide (b + 2000000 ≤ s.fabTime 4 / nsU)

/-- A bitmap over the 24 bays: bay b set if `p` holds of its core's counted snapshots. -/
def bayMap (l : List TwSnap) (p : List TwSnap → Nat → Bool) : Nat := bitmap 24 fun b => p (l.filter fun x => x.core == b / 3) (b % 3)

/-- TWIN_FRAME_SEND: the frame of a cycle of the named FTG (R480, R483). -/
def execTwinFrameSend (s : State) : Host.Outcome State Fault Refusal :=
  .next <|
    match nextSpan s with
    | none => s
    | some (a, b) =>
      if !s.on R.TWN_CFG_EN || !s.pg 8 || !spanDue s b then s
      else
        let l := s.twn.snaps.filter fun x => decide (a ≤ x.t) && decide (x.t < b)
        let start := bayMap l fun x j => x.any fun y => y.start.testBit j
        let trip := bayMap l fun x j => x.any fun y => y.trip.testBit j
        let safe := s.on R.PRV_STAT_SAFE && decide (s.twn.safeAt < b)
        let valid := bayMap l fun x j => !x.isEmpty && !safe && x.all fun y => y.valid.testBit j
        let f := ownFrame s a (b - a) start trip valid
        let s1 := sendTwin (setTwn s { s.twn with bound := some b, snaps := s.twn.snaps.filter fun x => decide (b ≤ x.t) }) f
        takeSpan s1 true { t := a, len := b - a, start := start, trip := trip, valid := valid, digest := f.digest }

/-- Does the named FTG close ticks: PD1 on, enabled and started (R481)? -/
def twinTicks (s : State) : Bool := s.pg 1 && (espFtg s (s.rd R.TWN_CFG_FTG)).started

/-- TWIN_IDLE_FRAME_SEND: every 20 ms of TB2 while the named FTG closes no ticks (R481). -/
def execTwinIdleFrameSend (s : State) : Host.Outcome State Fault Refusal :=
  .next <|
    if !s.on R.TWN_CFG_EN || !s.pg 8 || twinTicks s
        || !(s.twn.sentAt.all fun t => decide (t + 20000000 ≤ s.tb2Ns)) then s
    else
      let f := ownFrame s s.activeNs 0 0 0 0
      takeSpan (sendTwin (setTwn s { s.twn with bound := none, snaps := [] }) f) true
        { t := f.inst, len := 0, start := 0, trip := 0, valid := 0, digest := f.digest }

/-- The extra frame at the admission of a record start of an AU with TXTWIN (R482): it repeats the latest regular frame, with the bits of the
AUs that started a record since the previous frame, this one's among them. -/
def twinExtra (s : State) (u : Nat) : State :=
  if !s.on (R.REC_AUu_CFG_TXTWIN u) || !s.on R.TWN_CFG_EN || !s.pg 8 then s
  else
    let f := s.twn.last.getD (ownFrame s s.activeNs 0 0 0 0)
    sendTwin s { f with extra := true, records := s.twn.records, aus := BitVec.ofNat 4 (s.twn.aus ||| 2 ^ u) }

/-- The records whose REC_RECORD has taken its number since `s`: their headers take it (R387, R401), and they may send a twin frame (R482). -/
def tellRecords (s s1 : State) : State :=
  let new := s1.dr.seqBack.take (s1.dr.seqBack.length - s.dr.seqBack.length)
  new.foldl (fun a e => twinExtra (recNumbered a e.1.1 e.1.2 e.2) e.1.1) s1

/-- YEW_EVENT_ADMIT: the `k` oldest events of the crossing reach Yew in one AON cycle (R401). -/
def execYewEventAdmit (k : Nat) (s : State) : Host.Outcome State Fault Refusal := .next (tellRecords s (admitEvents k s))

/-- YEW_SCAN_END: the boot scan ends (R406); what waited takes its numbers, which are returned now (R401). -/
def execYewScanEnd (s : State) : Host.Outcome State Fault Refusal := .next (tellRecords s (scanEnd s))

/-! ### Receiving (R485, R486, R493, R495) -/

/-- The partner's registers. -/
def storePartner (s : State) (f : TwinFrame) : State :=
  let s1 := (((s.wr R.TWN_PHEALTH_HEALTH f.health.toNat).wr R.TWN_PSTART_START f.start.toNat).wr R.TWN_PTRIP_TRIP f.trip.toNat).wr
    R.TWN_PVALID_VALID f.valid.toNat
  let s2 := (s1.wr R.TWN_PREV_REV f.head.ifrev).inc R.TWN_CNT0_RX
  (List.range 8).foldl (fun a w => a.wr (R.TWN_PIDw_PID w) (f.head.ident / 2 ^ (32 * w))) s2

/-- The own frame of the nearest cycle instant. -/
def nearestOwn (l : List TwSpan) (t : Nat) : Option TwSpan :=
  l.foldl (fun (a : Option TwSpan) f => match a with
    | some x => if ((f.t : Int) - t).natAbs < ((x.t : Int) - t).natAbs then some f else a
    | none => some f) none

/-- The retained digests are compared, in FULL (R493). -/
def compareDigest (s : State) (f : TwinFrame) : State :=
  if xmode s ≠ 2 then s
  else match nearestOwn s.twn.own f.inst with
    | none => s
    | some o =>
      if o.digest = f.digest then setTwn s { s.twn with diff := 0, diffLogged := false }
      else
        let n := s.twn.diff + 1
        let s1 := setTwn s { s.twn with diff := n }
        if n < max 1 (s.rd R.TWN_TIM_RDCYC) then s1
        else
          let s2 := s1.wrb R.TWN_STAT_RDIFF_STK true
          if s.twn.diffLogged then s2
          else (setTwn s2 { s2.twn with diffLogged := true }).logEv 0x0E 3 (leBytes 4 o.digest.toNat ++ leBytes 4 f.digest.toNat)

/-- A frame that has passed every check of R485: each is compared and examined for trip rises (R490, R493). An extra frame that repeats one
already held is held once; one that repeats a lost frame stands for it. -/
def acceptTwin (s : State) (f : TwinFrame) : State :=
  let s1 := storePartner (setTwn s { s.twn with heard := some s.tb2Ns, lastAt := some s.tb2Ns, seq := some f.head.seq.val, accepted := true,
                                                pident := f.head.ident }) f
  let s2 := compareDigest (if f.aus = 0 then evalXmode s1 else (evalXmode s1).recEvent 8 0) f
  if f.extra && s.twn.part.any fun x => x.t == f.inst && x.len == f.len then s2
  else takeSpan s2 false
    { t := f.inst, len := f.len, start := f.start.toNat, trip := f.trip.toNat, valid := f.valid.toNat, digest := f.digest }

/-- A frame from the partner's node ID with another device ID (R486). -/
def otherPartner (s : State) (id : Nat) : State :=
  let s1 := s.sat1 R.TWN_CNT2_BAD
  if !s.twn.accepted then s1
  else ((setTwn s1 { s1.twn with accepted := false }).wrb R.TWN_STAT_PCHG_STK true).logEv 0x0E 4
    (leBytes 8 (s.rd64 R.TWN_PDEVID_LO_PDEVID R.TWN_PDEVID_HI_PDEVID) ++ leBytes 8 id)

/-- Is `seq` greater than the last accepted one, modulo 2^32 within 2^31? -/
def seqAhead (s : State) (seq : Nat) : Bool :=
  match s.twn.seq with
  | some q => let d := (seq + 2 ^ 32 - q) % 2 ^ 32; decide (0 < d) && decide (d < 2 ^ 31)
  | none => true

/-- Steps 4 to 6 of R485, with the partner learned. -/
def twinSteps (s : State) (f : TwinFrame) : State :=
  if s.rd64 R.TWN_PDEVID_LO_PDEVID R.TWN_PDEVID_HI_PDEVID ≠ f.head.devId % 2 ^ 64 then otherPartner s f.head.devId
  else if !seqAhead s f.head.seq then s.sat1 R.TWN_CNT2_BAD
  else if f.roleB = s.on R.TWN_CFG_ROLE ∨ f.partner.val ≠ ownNode s then
    let s1 := (s.sat1 R.TWN_CNT2_ROLECLASH).wrb R.TWN_STAT_ROLE_STK true
    if secondOver s s.twn.roleAt then
      (setTwn s1 { s1.twn with roleAt := some s.tb2Ns }).logEv 0x0E 5 [if f.roleB then 1 else 0]
    else s1
  else acceptTwin s f

/-- A frame of another format version is only counted (R336, assumption 45). -/
def b5OtherVersion (s : State) : State := setNet s { s.net with b5Other := s.net.b5Other + 1 }

/-- TWIN_FRAME_RECEIVE: a twin frame reaches NET (R336), and from PA or PB an enabled TWN, whose steps have an order of their own
(R485, assumption 155). -/
def execTwinFrameReceive (f : TwinFrame) (s : State) : Host.Outcome State Fault Refusal :=
  .next <|
    let s0 := s.takeFrame .twn
    if !s.pg 8 then s0
    else if !s.on R.TWN_CFG_EN || f.head.port.val == 2 then
      if !b5Auth s f.head then s0.sat1 R.NET_BCN_CFG_BCNBAD else if f.head.version ≠ 1 then b5OtherVersion s0 else s0
    else if f.head.node.val ≠ partnerNode s then s0
    else if f.head.version ≠ 1 then b5OtherVersion s0
    else if !b5Auth s f.head then s0.sat1 R.NET_BCN_CFG_BCNBAD
    else if s.on R.TWN_STAT_LEARNED then twinSteps s0 f
    else twinSteps ((s0.wr64 R.TWN_PDEVID_LO_PDEVID R.TWN_PDEVID_HI_PDEVID f.head.devId).wrb R.TWN_STAT_LEARNED true) f

/-! ### Beacons received (R12, R140, R336, R487) -/

/-- The clash check of R12, on the own node ID and on the partner's. -/
def clashCheck (s : State) (h : B5Head) : State :=
  let own := h.node.val == ownNode s && h.devId % 2 ^ 64 != devId s
  let part := h.node.val == partnerNode s && s.on R.TWN_STAT_LEARNED && h.devId % 2 ^ 64 != s.rd64 R.TWN_PDEVID_LO_PDEVID R.TWN_PDEVID_HI_PDEVID
  let s1 := if own || part then setTwn s { s.twn with clash := mput s.twn.clash h.node s.tb2Ns } else s
  if own then s1.logIx 4 6 h.node else s1

/-- A beacon from another segment on PA or PB (R487). -/
def segmentCheck (s : State) (h : B5Head) : State :=
  if h.port.val = 2 ∨ h.node.val / 64 = ownNode s / 64 then s
  else
    let s1 := s.sat1 R.TWN_CNT2_SEGX
    if secondOver s s.twn.segAt then (setTwn s1 { s1.twn with segAt := some s.tb2Ns }).logEv 0x0E 6 (leBytes 2 h.node) else s1

/-- The directory's owners from a beacon (R140). -/
def beaconClaims (s : State) (f : Beacon) : State :=
  f.pubs.foldl (fun a p => a.svi.dir.foldl (dirClaim f.head.node p.2 p.1) a) s

/-- BEACON_RECEIVE: a beacon reaches the directory and TWN (R336). -/
def execBeaconReceive (f : Beacon) (s : State) : Host.Outcome State Fault Refusal :=
  .next <|
    let s0 := s.takeFrame .twn
    if !s.pg 8 then s0
    else if !b5Auth s f.head then s0.sat1 R.NET_BCN_CFG_BCNBAD
    else if f.head.version ≠ 1 then b5OtherVersion s0
    else segmentCheck (clashCheck (beaconClaims s0 f) f.head) f.head

end Sys2Proof.Machine
end

