-- ==== Sys2Proof/Machine/Boot.lean ====
section
/-! DEFINITION. Start-up, power domains and power states (R39 to R43, R454 to R477). -/

namespace Sys2Proof.Machine

def setGlb (s : State) (g : Glb) : State := { s with glb := g }

/-- An event of the power sequencer, which lies in AON (R400, R474). -/
def glbEvent (s : State) (code : Nat) (payload : List Byte) : State := s.logAon 0 code payload

/-- GLB_PWR.STATE takes a value; vector 10 fires where it changes (R510). -/
def setPwr (s : State) (st : Nat) : State :=
  if s.rd R.GLB_PWR_STATE = st then s else (s.wr R.GLB_PWR_STATE st).fireVec 10

/-- A change of power state that a request leads to is logged (R474, assumption 49). -/
def movePwr (s : State) (st : Nat) : State :=
  glbEvent (setPwr s st) 6 [BitVec.ofNat 8 (s.rd R.GLB_PWR_STATE), BitVec.ofNat 8 st]

/-! ### Switching domains off (R42, R43, R473) -/

/-- Every field of the registers in [lo, hi) but K and P ones at its reset value (R473). -/
def dropFlds (s : State) (lo hi : Nat) : State := ((s.resetDomIn .sys lo hi).resetDomIn .blk lo hi).resetDomIn .img lo hi

/-- What domain `d` holds is lost (R39, R473). -/
def losePd (s : State) (d : Nat) : State :=
  let core (a : State) (n : Nat) : State :=
    { dropFlds a (0x900000 + 0x10000 * n) (0x910000 + 0x10000 * n) with
      ec := mdel a.ec n, ph := mdel a.ph n, snapTick := mdel a.snapTick n,
      mem := memClear a.mem (ecInstrBase n) (ecInstrBase n + 0x100000) }
  match d with
  | 1 => { dropFlds (dropFlds s 0x700000 0x900000) 0xA00000 0xB00000 with
           dch := {}, esp := {}, thn := {}, parBad := [], mem := memClear s.mem espValBase (espInstBase + 0x10000000) }
  | 2 => core (core s 0) 1
  | 3 => core (core s 2) 3
  | 4 => core (core s 4) 5
  | 5 => core (core s 6) 7
  | 6 => { dropFlds s 0xB00000 0xC00000 with sch := { jseq := s.sch.jseq, jpos := s.sch.jpos }, mem := memClear s.mem scBase (scBase + 0x80000) }
  | 7 => { dropFlds s 0xD00000 0xE00000 with sec := { s.sec with op := 0, early := 0 } }
  | 8 => { dropFlds (dropFlds s 0x300000 0x600000) 0xE00000 0xF00000 with
           mem := memClear s.mem (cfgBase 0) (cfgBase 3),
           tim := { tb := [(2, { val := (s.tbOf 2).val })], coarse := s.tim.coarse, trim := s.tim.trim }, net := {}, twn := {}, svi := { copies := s.svi.copies } }
  | 10 => { dropFlds s 0x600000 0x700000 with afe := {} }
  | 11 => { dropFlds (dropFlds s 0xC00000 0xD00000) 0xF00000 0x1000000 with
            hst := { sent := s.hst.sent }, dr := {}, mem := memClear s.mem dramBase (dramBase + 0x100000000) }
  | _ => s

/-- The domain whose FIFO to AON the events of a SOURCE cross (R414): FAB for AFE, DCH, ESP, ELC and THN; SCH; NET for TIM, NET, SVI and
TWN; that of HST, MEM and REC; SEC's; Hedgerow's for its ACCESS_DENIED, the one event of source 0 that does not arise in AON. -/
def crossDomain (src code : Nat) : Option Nat :=
  if 6 ≤ src ∧ src ≤ 10 then some 1
  else if src = 13 then some 7
  else if src = 0 ∧ code = 1 then some 11
  else if src = 11 then some 6
  else if (3 ≤ src ∧ src ≤ 5) ∨ src = 14 then some 8
  else if src = 12 ∨ src = 15 then some 11
  else none

/-- Does the FIFO of an event end at a domain that is off? -/
def crossLost (s : State) (src code : Nat) : Bool := match crossDomain src code with | some d => !s.pg d | none => false

/-- Entries of the crossing FIFOs at a domain that is off are discarded (R43); its fault lines fall (R42). -/
def clearCrossings (s : State) : State :=
  let s0 := { s with yew := { s.yew with cross := s.yew.cross.filter fun e => !crossLost s e.src e.code } }
  let s1 := if s.pg 1 then s0 else
    { s0 with net := { s0.net with c0 := [] }, svi := { s0.svi with fifo := [] }, tim := { s0.tim with shadow := [] } }
  { s1 with prv := { s1.prv with lines := s1.prv.lines.filter fun e => !lineMasked s1 e.1 e.2.toNat,
                                 items := s1.prv.items.filter fun e => !srcMasked s1 e.1 } }

/-- The block-reset targets that leave RELOAD, where they are in it, as domains power off (R427). -/
def resetTargets (ds : List Nat) : List Nat :=
  ((List.range 8).filter fun n => ds.contains (2 + n / 2)) ++ (if ds.contains 6 then [8] else [])

/-- The sequencer switches domains off. The DRAM writer first closes the records in progress where PD1 is one of them (R392). -/
def powerOff (s : State) (ds : List Nat) : State :=
  let s0 := if ds.contains 1 && s.pg 1 then recPowerDown s else s
  let s1 := (resetTargets ds).foldl endReset (ds.foldl losePd s0)
  gateUpdate (clearCrossings (s1.wr R.GLB_PWRSTAT_PG (s.rd R.GLB_PWRSTAT_PG &&& bitmap 12 fun d => !ds.contains d)))

/-! ### Resets and boot (R455 to R462) -/

/-- RST_N_ASSERT: RST_N held low starts SYS, or leaves HIBERNATE with cause 5 (R454, R471). -/
def execRstNAssert (s : State) : Host.Outcome State Fault Refusal :=
  .next <|
    if s.glb.hib then
      let s1 := assertReset s 2 5 0
      setGlb s1 { s1.glb with start := 5 }
    else assertReset s 2 1 0

/-- The bases TB0, TB1 and TB3 take the coarse clock; TB2 goes on from its shadow, as R467 has it (assumption 137). -/
def loadBases (s : State) : State :=
  [0, 1, 3].foldl (fun a b => a.setTb b { a.tbOf b with val := a.tim.coarse }) s

/-- Maintenance state: only PD0, PD7 and PD11 stay powered (R462). -/
def enterMaint (s : State) : State :=
  let on := [1, 2, 3, 4, 5, 6, 8, 9, 10].filter s.pg
  let s1 := setGlb (setPwr ((if on = [] then s else powerOff s on).wrb R.GLB_BOOT_MAINT true) 5) { s.glb with step := 0, wdt := none }
  glbEvent s1 5 []

/-- Step 3 begins: straps sampled, the first slot chosen, or maintenance state entered (R459, R460). -/
def startBoot (s : State) (straps : Nat) : State :=
  let first := if straps = 2 then 0 else if straps = 3 then 1 else s.rd R.GLB_BOOT_PREF
  let s1 := setGlb (s.wr R.GLB_STRAP_BOOT straps) { s.glb with hold := 0, hib := false, trans := 0, step := 3, trying := first,
                                                               second := false, wdt := none }
  if straps = 1 then enterMaint s1 else s1

/-- RESET_RELEASE: the hold ends (R455); safe state and self-refresh end, PD0 reports power-good, and boot starts with the straps
as they stand at the pins (R456, R459). -/
def execResetRelease (straps : Fin 4) (s : State) : Host.Outcome State Fault Refusal :=
  .next <|
    if s.glb.hold = 0 ∨ (s.glb.hold ≠ 1 ∧ s.tb2Ns < s.glb.holdAt + 100000) then s
    else
      let s1 := ((s.wrb R.PRV_STAT_SAFE false).wrb R.MEM_STAT_SR false).wr R.GLB_PWRSTAT_PG 1
      gateUpdate (startBoot (loadBases s1) straps)

/-- The L fields of PD0 wait for the image's reload at their reset values (R473). -/
def dropPd0 (s : State) : State :=
  let s1 := s.resetDomIn .img 0 0x300000
  { s1 with prv := { s1.prv with copy2 := [], parity := [] } }

/-- HIBERNATE_WAKE: the coarse clock has reached GLB_WAKE with EN = 1 (R471): boot without a Yew scan, cause 6. -/
def execHibernateWake (straps : Fin 4) (s : State) : Host.Outcome State Fault Refusal :=
  .next <|
    let t := s.rd R.GLB_WAKE_LO_WAKE + s.rd R.GLB_WAKE_HI_WAKEHI * 2 ^ 32
    if !s.glb.hib || !s.on R.GLB_WAKE_HI_EN || decide (s.coarseNs < t) then s
    else
      let s1 := ((s.wr R.GLB_RSTCAUSE_CAUSE 6).wr R.GLB_RSTCAUSE_PRVSRC 0).wrb R.GLB_BOOT_DONE false
      let s2 := ((s1.wrb R.GLB_BOOT_FALLBACK false).wr R.GLB_BOOT_FAILA 0).wr R.GLB_BOOT_FAILB 0
      startBoot (setGlb (setPwr (dropPd0 s2) 0) { s2.glb with start := 5 }) straps

/-! ### Power-good (R39 to R43) -/

/-- Bit c: core group c is used, in the image that is about to be loaded or runs (R40, R463). -/
def usedNow (s : State) : Nat := if s.glb.step = 6 then hdr s s.glb.trying 0x40 1 else s.img.used

/-- Does the image use a core of domain `d`, 2 to 5 (R40)? -/
def usesPd (s : State) (d : Nat) : Bool := (usedNow s).testBit (2 * (d - 2)) || (usedNow s).testBit (2 * (d - 2) + 1)

/-- The domains that RUN needs besides PD0, PD7 and PD11; `fab` alone on the way back from STANDBY (R459, R470). -/
def neededPds (s : State) (fab : Bool) : List Nat :=
  (if fab then [1, 10] else [8, 9, 6, 1, 10]) ++ [2, 3, 4, 5].filter (usesPd s)

/-- Is domain `d` being powered up? -/
def powering (s : State) (d : Nat) : Bool :=
  if d = 7 ∨ d = 11 then s.glb.step != 0 || s.on R.GLB_BOOT_MAINT
  else if s.glb.step = 6 then (neededPds s false).contains d
  else s.glb.trans == 3 && (neededPds s true).contains d

/-- R41: the domain that `d` depends on is powered. -/
def pdDepends (s : State) (d : Nat) : Bool :=
  if (2 ≤ d ∧ d ≤ 5) ∨ d = 10 then s.pg 1 else if d = 9 then s.pg 8 else true

/-- Step 5 of boot powers the domains in the order of R459: is every earlier one powered? -/
def inTurn (s : State) (d : Nat) : Bool :=
  s.glb.step != 6 || ((neededPds s false).takeWhile (· != d)).all s.pg

/-- What power-good of domain `d` does in its blocks. SEC sees the sensors that are active: one that has already been recorded is live, and
raises SEC_TAMPER again when boot completes (R450). -/
def pdStarts (s : State) (d : Nat) : State :=
  match d with
  | 7 => s.sec.active.foldl (fun a k => if (s.rd R.SEC_TAMP_STK).testBit k then (a.setBit R.SEC_TAMP_LIVE k).itemOnQuiet 22 k else seeSensor a k) s
  | 8 => dirRestore (loadBases s)
  | 9 => [0, 1, 2].foldl linkItem s
  | 10 => setAfe s { s.afe with pgAt := tb2U s }
  | _ => s

/-- DOMAIN_POWER_GOOD: a domain that is being powered reports power-good; one whose dependency is not powered is refused (R41,
R42), and one whose turn has not come is not powered yet (R459). -/
def execDomainPowerGood (d : Fin 12) (s : State) : Host.Outcome State Fault Refusal :=
  .next <|
    if s.glb.hold ≠ 0 ∨ s.pg d = true ∨ powering s d = false then s
    else if !pdDepends s d then glbEvent s 2 (leBytes 4 d)
    else if !inTurn s d then s
    else gateUpdate (pdStarts (s.setBit R.GLB_PWRSTAT_PG d) d)

/-! ### Verifying and loading (R459 to R461) -/

/-- FAILA or FAILB. -/
def setFail (s : State) (slot reason : Nat) : State := s.wr (if slot = 0 then R.GLB_BOOT_FAILA else R.GLB_BOOT_FAILB) reason
def failOf (s : State) (slot : Nat) : Nat := s.rd (if slot = 0 then R.GLB_BOOT_FAILA else R.GLB_BOOT_FAILB)

/-- The slot being tried fails for a reason of R477: the other one is tried, or maintenance state follows (R459). -/
def bootFails (s : State) (reason : Nat) : State :=
  let s1 := setFail s s.glb.trying reason
  if s.glb.second then enterMaint s1
  else setGlb s1 { s1.glb with step := 3, trying := 1 - s.glb.trying, second := true }

/-- IMAGE_VERIFY_DONE: SEC has verified the slot under R444; `sigOk` is the verdict of ECDSA that it reports: with another one than that
computed the command does not occur (assumption 59). Domains of the cores that the image does not use stay off (R40). -/
def execImageVerifyDone (sigOk : Bool) (s : State) : Host.Outcome State Fault Refusal :=
  .next <|
    if s.glb.hold ≠ 0 ∨ s.glb.step ≠ 3 ∨ s.pg 7 = false ∨ s.pg 11 = false ∨ sigOk ≠ imageSig s s.glb.trying then s
    else match imageVerdict s s.glb.trying sigOk with
      | 0 =>
        let s1 := setGlb s { s.glb with step := 6 }
        let idle := [2, 3, 4, 5].filter fun d => s1.pg d && !usesPd s1 d
        if idle = [] then s1 else powerOff s1 idle
      | r => bootFails s r

/-- A used core starts: its bays take their requested modes and groups from the first notification on (R189, R191). DEDUCED (unsafe; assumption
182): a defined group that the image loads into REQ counts as a request. -/
def startCore (s : State) (n : Nat) : State :=
  if !s.img.used.testBit n || !s.pg (2 + n / 2) then s
  else
    let s1 := ((s.wr (R.ELCn_STAT_STATE n) 1).setCore n { modeReq := [0, 1, 2] })
    vstAll ([0, 1, 2].foldl (fun a j => a.wrb (R.ELCn_BAYj_SG_PEND n j)
      ((a.rd (R.ELCn_BAYj_SG_DEF n j)).testBit (a.rd (R.ELCn_BAYj_SG_REQ n j)) && a.rd (R.ELCn_BAYj_SG_REQ n j) != a.rd (R.ELCn_BAYj_SG_ACT n j))) s1) n

/-- The FAB blocks start: grids, cores, binary inputs, Thorn's gates. -/
def startFab (s : State) : State := gateUpdate (binLevels ((List.range 8).foldl startCore (startGrids s)))

/-- The blocks of PD8 start: base modes, the base that the image requests (R372), switch, subscriptions, twin unit. -/
def startPd8 (s : State) : State :=
  let s0 := [0, 1, 2, 3].foldl tbModeSet s
  let s1 := noteGcbs (domainSwitch s0 (s0.rd R.TIM_ACT_SEL)) fun _ => true
  let s2 := c0Update ([0, 1].foldl verifyStart s1)
  let s3 := (List.range 64).foldl (fun a n => if subOn a n then svRestart a n else a) s2
  let s4 := s3.img.gsubs.foldl (fun a e => gsubStart a e.1) s3
  if s4.on R.TWN_CFG_EN then twinEnable s4 else twinPoints s4

/-- LOCK writes that the register list held back, for registers in [lo, hi) (R465). -/
def putLocks (lo hi : Nat) (l : List Fld) (s : State) : State :=
  l.foldl (fun a f => if lo ≤ f.addr ∧ f.addr < hi then a.wrb f true else a) s

/-- A sensor that is still active when boot completes raises SEC_TAMPER again (R450). -/
def tamperAgain (s : State) : State := s.sec.active.foldl (fun a k => a.raiseLine 22 k) s

/-- Step 7: release (R459). BOOT_FALLBACK and BOOT are logged, and the scheme makes its start. -/
def bootRelease (s : State) (locks : List Fld) : State :=
  let slot := s.glb.trying
  let s1 := startFab (startPd8 (putLocks 0 0x1000000 locks s))
  let s2 := ((s1.wr R.GLB_BOOT_SLOT slot).wrb R.GLB_BOOT_FALLBACK s.glb.second).wrb R.GLB_BOOT_DONE true
  let s3 := setPwr (setGlb s2 { s2.glb with step := 0 }) 1
  let s4 := if s.glb.second then
      glbEvent s3 4 [BitVec.ofNat 8 (1 - slot), BitVec.ofNat 8 (failOf s3 (1 - slot))] else s3
  let s5 := glbEvent s4 3 (padTo 8 [BitVec.ofNat 8 (s4.rd R.GLB_RSTCAUSE_CAUSE), BitVec.ofNat 8 slot] ++ (leBytes 32 s4.img.ident).take 16)
  scRestart (tamperAgain s5) s5.glb.start

/-- IMAGE_LOAD_DONE: the load engine has loaded or refused the sections of the slot (R461, R464); `readOk`: it read no uncorrectable word of
MRAM; `i` states the contents that only the toolchain lays out, `tablesOk` that these sections have its form (assumption 48). -/
def execImageLoadDone (readOk tablesOk : Bool) (i : Image) (s : State) : Host.Outcome State Fault Refusal :=
  .next <|
    let slot := s.glb.trying
    if s.glb.hold ≠ 0 ∨ s.glb.step ≠ 6 ∨ (neededPds s false).all s.pg = false then s
    else if hdr s slot 0x18 32 ≠ 0 then bootFails s 6
    else match (if readOk then loadAll s slot (sections s slot) {} else .error 5) with
      | .error r => bootFails s r
      | .ok l =>
        let s1 := l.flds.foldl (fun a e => prvRewrite a e.1.addr) (placeImage (imageOf s slot l i) l s)
        if tablesOk && loadChecks (startGrids s1) then bootRelease s1 l.locks else bootFails s 6

/-! ### Power states (R468 to R471) -/

/-- Is a request refused (R468)? -/
def pwrRefused (s : State) : Bool :=
  s.on R.PRV_STAT_SAFE || s.on R.GLB_BOOT_MAINT || !s.on R.GLB_BOOT_DONE || exchState s != 0 || s.glb.trans != 0

/-- Steps 1 and 2 of R469: every bay's ACT becomes OFF at the next notification, releases stop. -/
def stopTasks (s : State) : State :=
  (List.range 8).foldl (fun a n => if a.rd (R.ELCn_STAT_STATE n) = 1 then a.modCore n fun c => { c with modeReq := [0, 1, 2] } else a)
    (modSch s fun c => { c with stopping := true })

/-- A write of GLB_PWR.REQ: 0 RUN, 1 STANDBY, 2 HIBERNATE (R468): a request for the present state is ignored. -/
def powerRequest (s : State) (req : Nat) : State :=
  let st := s.rd R.GLB_PWR_STATE
  if (req = 0 ∧ st = 1) ∨ (req = 1 ∧ st = 2) ∨ 2 < req then s
  else if pwrRefused s then glbEvent (s.wrb R.GLB_PWR_REFUSED_STK true) 2 []
  else
    let s1 := setGlb (s.wr R.GLB_PWR_REQ req) { s.glb with trans := if req = 0 then 3 else req, transAt := s.tb2Ns }
    if req = 0 then movePwr s1 4
    else movePwr (if st = 1 then stopTasks s1 else s1) 3

/-- STANDBY_REQUEST (R469). -/
def execStandbyRequest (s : State) : Host.Outcome State Fault Refusal := .next (powerRequest s 1)
/-- HIBERNATE_REQUEST (R471). -/
def execHibernateRequest (s : State) : Host.Outcome State Fault Refusal := .next (powerRequest s 2)
/-- RUN_REQUEST (R470). -/
def execRunRequest (s : State) : Host.Outcome State Fault Refusal := .next (powerRequest s 0)

/-- Instances still running end without commit (R238, R469); nothing waits any more, and STATE is STOPPED; a reload ends with it
(R427). -/
def abortTasks (s : State) : State :=
  let end1 (a : State) : State := slAbort (modSch a fun c => { c with rel := [], heldRel := [] }) 0
  (taskStates (modSch ((List.range (s.sch.pre.length + 1)).foldl (fun a _ => end1 a) s) fun c =>
    { c with rel := [], heldRel := [], trig := [] })) |> fun a => endReset (setScState a 5) 8

/-- Steps 2 to 4 of R469: the records close as PD1 powers off. -/
def standbySteps (s : State) : State :=
  let s1 := abortTasks s
  setGlb (powerOff s1 [2, 3, 4, 5, 10, 1]) { s1.glb with trans := 0, wdt := none }

/-- The checkpoint of R471 is written whole; none where an uncorrectable word of a retained region halts the pair (R272). -/
def writeCkpt (s : State) : State :=
  let q := scRegions s (retRegions s)
  if q.2 then modSch (putCkpt q.1 (nextCopy q.1) (takeCkpt q.1) q.1.sch.jpos) fun c => { c with ckpt := none } else q.1

/-- HIBERNATE is reached: every domain but PD0 is off, DRAM and the link are lost (R471, R473). -/
def hibernate (s : State) : State :=
  let s1 := writeCkpt (if s.pg 1 then standbySteps s else s)
  let s2 := powerOff s1 [1, 2, 3, 4, 5, 6, 7, 8, 9, 10, 11]
  setGlb s2 { s2.glb with trans := 0, wdt := none, hib := true }

/-- RUN is reached from STANDBY: sections and L fields rewritten, grids and cores started, scheme restarted (R470). -/
def resume (s : State) (l : Load) : State :=
  let s1 := showBounds s.img (startAfe (putCores s.img (putBanks l.banks (putFlds 0x600000 0xB00000 l.flds s))))
  let s2 := startFab (putLocks 0x600000 0xB00000 l.locks s1)
  scRestart (setGlb (movePwr s2 1) { s2.glb with trans := 0 }) 4

/-- Are steps 1 and 2 of R469 over: every bay OFF, which a notification of its FTG makes it, and no instance left, or their bounds of 150 ms
and 100 ms passed? -/
def quietNow (s : State) : Bool :=
  (!bayActive s || decide (s.glb.transAt + 150000000 ≤ s.tb2Ns))
    && ((s.sch.cur.isNone && s.sch.pre.isEmpty && s.sch.jrn.isEmpty) || decide (s.glb.transAt + 100000000 ≤ s.tb2Ns))

/-- POWER_TRANSITION_DONE: the steps of the transition in progress are complete (R469 to R471). A section whose CRC fails leaves the
device in STANDBY with the reason for the running slot (R470). -/
def execPowerTransitionDone (s : State) : Host.Outcome State Fault Refusal :=
  .next <|
    match s.glb.trans with
    | 1 => if quietNow s then movePwr (standbySteps s) 2 else s
    | 2 => if quietNow s then hibernate s else s
    | 3 =>
      if (neededPds s true).all s.pg = false then s
      else
        let slot := s.rd R.GLB_BOOT_SLOT
        match loadAll s slot (sections s slot) {} with
        | .ok l => resume s l
        | .error r =>
          let s1 := powerOff (setFail s slot r) [2, 3, 4, 5, 10, 1]
          movePwr (setGlb s1 { s1.glb with trans := 0 }) 2
    | _ => s

end Sys2Proof.Machine
end

