-- ==== Sys2Proof/Machine/Hst.lean ====
section
/-! DEFINITION. The host interface and the DRAM (R502 to R522): PERST_N and the link, BAR2 with its ECC, the ring indices and their
holdoffs, training. -/

namespace Sys2Proof.Machine

/-- PERST_ASSERT: PERST_N low resets the PCIe controller and the configuration space, and nothing else (R503); every vector is masked
again (R509). -/
def execPerstAssert (s : State) : Host.Outcome State Fault Refusal :=
  .next (((setHst s { s.hst with cfg := {}, msix := s.hst.msix.map fun e => (e.1, { e.2 with ctl := 1, pend := false }) }).wrb
    R.HST_STAT_PERST_STK true).logEv 0xF 0x12 [])

/-- HOST_LINK_CHANGE: the link trains at a speed and width, or goes down (R503, R522); speed and width read 0 while it is down
(assumption 47). The configuration space is then what the host has made it; messages that wait for it leave (R510, assumption 159). -/
def execHostLinkChange (up : Bool) (speed : LinkCfg) (width : Fin 4) (s : State) : Host.Outcome State Fault Refusal :=
  .next <|
    let s0 := (List.range 64).foldl State.sendPending (setHst s { s.hst with cfg := speed.cfg })
    if up == s.on R.HST_STAT_LINK then s0
    else
      let s1 := ((s0.wrb R.HST_STAT_LINK up).wr R.HST_STAT_SPEED (if up then speed.speed.val else 0)).wr R.HST_STAT_WIDTH
        (if up then width.val else 0)
      (s1.wrb R.HST_STAT_LINKCHG_STK true).logEv 0xF (if up then 0x11 else 0x10) []

/-! ### The endpoint (R502) -/

/-- The identity that the configuration space presents. -/
structure PcieId where
  vendor : Nat
  device : Nat
  revision : Nat
  classCode : Nat
  subVendor : Nat
  subId : Nat
  deriving DecidableEq, Repr

/-- What a configuration read finds of it (R502): the subsystem's two IDs are those of HST_SUBSYS. -/
def pcieId (s : State) : PcieId :=
  { vendor := 0x1F2D, device := 0x0024, revision := 0xB0, classCode := 0x088000,
    subVendor := s.rd R.HST_SUBSYS_SSVID, subId := s.rd R.HST_SUBSYS_SSID }

/-- Bytes of BAR0 and of BAR2, and the number of MSI-X vectors (R502). -/
def bar0Size : Nat := 0x4000000
def bar2Size : Nat := 0x100000000
def msixVectors : Nat := 64

/-! ### DRAM with inline ECC (R506, R507, R521) -/

/-- Does every enabled byte below the usable size lie in the host-ring area (R506, R511)? -/
def insideArea (s : State) (x : Nat) (l : List (Option Byte)) : Bool :=
  (List.range l.length).all fun k =>
    (l.getD k none).isNone || decide (usableBytes s ≤ x + k) || (decide (areaBase s ≤ x + k) && decide (x + k < areaBase s + areaSize s))

/-- A write to DRAM by the host or by MSPI (R504, R506, R507): ignored while DRAM is not trained, denied outside the host-ring
area or where the initiator may not write (R29). -/
def dramWrite (s : State) (i : Ini) (x : Nat) (l : List (Option Byte)) : State :=
  if !s.on R.MEM_STAT_TRAINED then s
  else if !iniWrites s i || !insideArea s x l then denied s i true (x % 2 ^ 32)
  else (wordsOf x l.length).foldl (writeWord x l) s

/-- `n` bytes of DRAM from `x` on, as a read by the host or MSPI delivers them (R504, R506): zero while DRAM is not trained and
beyond the usable size. -/
def dramRead (s : State) (x n : Nat) : List Byte × Bool × State :=
  let k := if s.on R.MEM_STAT_TRAINED then min n (usableBytes s - x) else 0
  let p := readWords s (wordsOf x k)
  (padTo n (((p.1).drop (x % 8)).take k), p.2.1, p.2.2)

/-- BAR2_WRITE: `l` are the request's bytes from offset `x` on, none where the byte enable is off (R506, R507). -/
def execBar2Write (x : Nat) (l : List (Option (BitVec 8))) (s : State) : Host.Outcome State Fault Refusal :=
  .next (dramWrite s .hst x l)

/-- BAR2_READ: the completion's bytes, and its EP bit (R506). -/
def execBar2Read (x n : Nat) (s : State) : Host.Outcome State Fault Refusal :=
  let p := dramRead s x n
  .next (setHst p.2.2 { p.2.2.hst with rdata := p.1, poison := p.2.1 })

/-! ### Rings -/

/-- RING_INDEX_WRITE: a host write of PROD or CONS (R513). The device's own index of a ring is read-only; a value that would leave
more than E entries, or fewer than none, is ignored and sets OVR_STK. -/
def ringIndexWrite (s : State) (r : Nat) (prod : Bool) (v : Nat) : State :=
  if prod != (r == 1) then s
  else
    let n := if prod then (v + 2 ^ 32 - ringCons s r) % 2 ^ 32 else (ringProd s r + 2 ^ 32 - v) % 2 ^ 32
    if ringE s r < n then s.wrb (R.HST_Rr_STAT_OVR_STK r) true
    else if prod then s.wr (R.HST_Rr_PROD_PROD r) v
    else (setHst s { s.hst with conWas := mput s.hst.conWas r (s.tb2Ns, consAtStart s r) }).wr (R.HST_Rr_CONS_CONS r) v

def execRingIndexWrite (r : Fin 4) (prod : Bool) (v : BitVec 32) (s : State) : Host.Outcome State Fault Refusal :=
  .next (ringIndexWrite s r prod v.toNat)

/-- RING_IRQ_HOLDOFF_END: the holdoff of ring `r` ends; an advance inside it makes the vector fire now, which starts another (R515). -/
def execRingIrqHoldoffEnd (r : Fin 4) (s : State) : Host.Outcome State Fault Refusal :=
  .next <|
    if inHold s r then s
    else
      let s1 := setHst s { s.hst with hold := mdel s.hst.hold r.val, holdPend := s.hst.holdPend.filter (· ≠ r.val) }
      if s.hst.holdPend.contains r.val then ringVec s1 r else s1

/-! ### Training (R519) -/

/-- DRAM_TRAINING_DONE: training ends; `density` is the size in MiB that the mode registers give, 512 to 4,096 (R519, R521). -/
def execDramTrainingDone (ok : Bool) (density : Nat) (s : State) : Host.Outcome State Fault Refusal :=
  .next <|
    if !s.pg 11 || s.on R.MEM_STAT_TRAINED || s.on R.MEM_STAT_FAIL then s
    else
      let d := clamp 512 4096 density
      let s1 := (s.wr R.MEM_SIZE_DETECT d).wr R.MEM_SIZE_USABLE (7 * d / 8)
      if ok then (List.range 4).foldl drainStage (s1.wrb R.MEM_STAT_TRAINED true) else (s1.wrb R.MEM_STAT_FAIL true).logEv 0xF 2 []

end Sys2Proof.Machine
end

