-- ==== Sys2Proof/Machine/HostWrite.lean ====
section
/-! DEFINITION. Writes of registers (R16 to R20, R29): fields by their access codes, and the registers whose writing starts an
operation of their block, each through the meaning of that operation. -/

namespace Sys2Proof.Machine

/-! ### By access code (R18, R19) -/

/-- The power domain that holds the registers at BAR0 offset `a` (R22). -/
def regPd (a : Nat) : Nat :=
  match a / 0x100000 with
  | 0 => 0 | 1 => 0 | 2 => 0 | 3 => 8 | 4 => 8 | 5 => 8 | 6 => 10 | 7 => 1 | 8 => 1
  | 9 => 2 + a % 0x100000 / 0x20000
  | 10 => 1 | 11 => 6 | 13 => 7 | 14 => 8 | _ => 11

/-- The offset of the CTL register of the block that holds `a`. -/
def ctlAddr (a : Nat) : Nat :=
  if a / 0x100000 = 9 then a / 0x10000 * 0x10000 else if a / 0x100000 = 15 then 0xF80000 else a / 0x100000 * 0x100000

/-- Is the block that holds `a` locked (R18)? MEM has no LOCK and no RWL field. -/
def locked (s : State) (a : Nat) : Bool := match lockAt (ctlAddr a) with | some f => s.on f | none => false

/-- A field takes its part of a written word; `lk` says that its block was locked when the write arrived. -/
def putField (lk : Bool) (v : Nat) (s : State) (f : Fld) : State :=
  match f.acc with
  | .rw => s.wr f (fldIn f v)
  | .wo => s.wr f (fldIn f v)
  | .rwl => if lk then s else s.wr f (fldIn f v)
  | .w1c => s.wr f (s.rd f - (s.rd f &&& fldIn f v))
  | .w1s => if lockAt f.addr = some f ∧ fldIn f v ≠ 0 then s.wr f 1 else s
  | .ro => s
  | .rc => s

/-- A word written to the register at `a`, field by field; offsets not listed ignore it (R20). -/
def putWord (s : State) (a v : Nat) : State := ((findReg regTable a).getD []).foldl (putField (locked s a) v) s

/-! ### Registers whose writing does more -/

/-- The state a meaning answers. -/
def nextOr (s : State) (o : Host.Outcome State Fault Refusal) : State := match o with | .next t => t | _ => s

/-- An index below `n`. -/
def ix (n k : Nat) (h : 0 < n := by decide) : Fin n := ⟨k % n, Nat.mod_lt k h⟩

/-- Bits [lo+w−1 : lo] of a written word. -/
def bits (v lo w : Nat) : Nat := v / 2 ^ lo % 2 ^ w

def wrGlb (s : State) (a v : Nat) : Option State :=
  if a = 0x8 then some (if v.testBit 31 then nextOr s (execSysreq s) else s)
  else if a = 0x14 then some (powerRequest (putField false v s R.GLB_PWR_REFUSED_STK) (bits v 30 2))
  else none

/-- PRV_SRCs_CFG: a disallowed ACTION is ignored (R415). -/
def wrSrcCfg (s : State) (a v k : Nat) : State :=
  if locked s a then s
  else
    let act := bits v 28 3
    let s1 := if (s.rd (R.PRV_SRCs_CFG_ALLOWED k)).testBit act then s.wr (R.PRV_SRCs_CFG_ACTION k) act else s
    (s1.wrb (R.PRV_SRCs_CFG_IRQ k) (v.testBit 31)).prvIrqEdge s.prvIrq

def wrPrv (s : State) (a v : Nat) : Option State :=
  let o := a - 0x100000
  if o = 0 then
    let s1 := putWord s a v
    some (if v.testBit 30 then nextOr s1 (execSafeRequest s1) else s1)
  else if o = 0x14 then some (nextOr s (execBayBlockClear (BitVec.ofNat 24 v) s))
  else if o = 0x20 then some (if v.testBit 31 then nextOr s (execFirstFaultRearm s) else s)
  else (copyAt o 0x100 0x10 25).map (wrSrcCfg s a v)

/-- A write that a protected register of Privet takes puts its copies right (R430); a locked one takes none. -/
def prvWritten (s : State) (a : Nat) : State :=
  if a / 0x100000 = 1 ∧ (a = 0x100000 ∨ locked s a = false) then prvRewrite s a else s

def wrYew (s : State) (a v : Nat) : Option State :=
  let o := a - 0x200000
  if o = 0x28 then some (if v.testBit 0 then nextOr s (execYewClearGo s) else s)
  else if o = 0x44 then
    let s1 := putWord s a v
    some (if v.testBit 31 then nextOr s1 (execYewFetch s1) else s1)
  else none

/-- TIM_TBb_CFG (R373): MODE 3, MODE 2 on TB0 and TB1, any MODE on TB2 and PORT 3 are ignored; a new MODE is taken up. -/
def wrTbCfg (s : State) (a v b : Nat) : State :=
  if locked s a then s
  else
    let m := bits v 30 2
    let p := bits v 28 2
    let s1 := (s.wr (R.TIM_TBb_CFG_DOMAIN b) v).wrb (R.TIM_TBb_CFG_PPSPOL b) (v.testBit 27)
    let s2 := if p = 3 then s1 else s1.wr (R.TIM_TBb_CFG_PORT b) p
    if b = 2 ∨ m = 3 ∨ (m = 2 ∧ b ≠ 3) ∨ m = s.rd (R.TIM_TBb_CFG_MODE b) then s2
    else tbModeSet (s2.wr (R.TIM_TBb_CFG_MODE b) m) b

def wrTbCtl (s : State) (v b : Nat) : State :=
  let s1 := if v.testBit 31 then nextOr s (execBaseReacquire (ix 4 b) s) else s
  if v.testBit 30 then nextOr s1 (execBaseSet (ix 4 b) s1) else s1

/-- TIM_TBb_FADJ: writable in MODE 0 only (R373); the addend follows it (R343, R344). -/
def wrFadj (s : State) (v b : Nat) : State :=
  if tbMode s b ≠ 0 then s
  else
    let s1 := s.wr (R.TIM_TBb_FADJ_FADJ b) v
    s1.setTb b { s1.tbOf b with addend := addendFadj s1 b }

/-- ARM and DISARM of an output; where both are written, the output is armed and then disarmed (assumption 51). -/
def wrTpoCtl (s : State) (v k : Nat) : State :=
  let s1 := if v.testBit 31 then nextOr s (execTpoArm (ix 8 k) s) else s
  if v.testBit 30 then nextOr s1 (execTpoDisarm (ix 8 k) s1) else s1

/-- CFG, START, PER and WID of an output: ignored while ARMED (R367). -/
def wrTpo (s : State) (a v k : Nat) : State := if s.on (R.TIM_TPOk_STAT_ARMED k) then s else putWord s a v

def wrTim (s : State) (a v : Nat) : Option State :=
  let o := a - 0x300000
  if o = 0x4 then some (domainSwitch (s.wrb R.TIM_ACT_AUTO (v.testBit 1)) (v % 2))
  else if o = 0xC4C then some (if v.testBit 0 then nextOr s (execTciPop s) else s)
  else ((copyAt o 0x100 0x40 4).map (wrTbCfg s a v)).orElse fun _ => ((copyAt o 0x104 0x40 4).map (wrTbCtl s v)).orElse fun _ =>
    ((copyAt o 0x11C 0x40 4).map (wrFadj s v)).orElse fun _ =>
    ((copyAt o 0x130 0x40 4).map fun b => nextOr s (execMasterSelect (ix 4 b) .midLo (BitVec.ofNat 32 v) s)).orElse fun _ =>
    ((copyAt o 0x134 0x40 4).map fun b => nextOr s (execMasterSelect (ix 4 b) .midHi (BitVec.ofNat 32 v) s)).orElse fun _ =>
    ((copyAt o 0x138 0x40 4).map fun b => nextOr s (execMasterSelect (ix 4 b) .mpn (BitVec.ofNat 32 v) s)).orElse fun _ =>
    ((copyAt o 0x804 0x20 8).map (wrTpoCtl s v)).orElse fun _ =>
    (([0x800, 0x808, 0x80C, 0x810, 0x814].findSome? fun b => copyAt o b 0x20 8).map (wrTpo s a v))

/-- NET_Pp_CFG: SPEED keeps its value after boot release (R305); a change of PREEMPT starts the verify state (R321). -/
def wrPortCfg (s : State) (a v p : Nat) : State :=
  let sp := s.rd (R.NET_Pp_CFG_SPEED p)
  let was := s.on (R.NET_Pp_CFG_PREEMPT p)
  let s1 := putWord s a v
  let s2 := if s.on R.GLB_BOOT_DONE then s1.wr (R.NET_Pp_CFG_SPEED p) sp else s1
  if s2.on (R.NET_Pp_CFG_PREEMPT p) == was then s2 else verifyAgain s2 p

/-- NET_Pp_GCTL (R319, R341): SWAP and STOP ask for their effect at a cycle start. -/
def wrGctl (s : State) (a v p : Nat) : State :=
  let s1 := putWord s a v
  let x := portOf s1 p
  setPort s1 p { x with swap := x.swap || v.testBit 31, stop := x.stop || v.testBit 30 }

/-- NET_Pp_GBASE: the base time or the change time, as BASESEL chooses (R341). -/
def wrGbase (s : State) (hi : Bool) (v p : Nat) : State :=
  let t := gbaseShown s p
  let n := if hi then t % 2 ^ 32 + v * 2 ^ 32 else v + t / 2 ^ 32 * 2 ^ 32
  let x := portOf s p
  setPort s p (if s.on (R.NET_Pp_GCTL_BASESEL p) then { x with change := n } else { x with base := n })

def wrNet (s : State) (a v : Nat) : Option State :=
  let o := a - 0x400000
  if o = 0x4 ∨ o = 0xC then some (c0Update (putWord s a v))
  else ((copyAt o 0x1000 0x100 3).map fun p => c0Update (wrPortCfg s a v p)).orElse fun _ =>
    ((copyAt o 0x1008 0x100 3).map fun _ => putWord s a (v &&& 0x77777777)).orElse fun _ =>
    ((copyAt o 0x100C 0x100 3).map (wrGctl s a v)).orElse fun _ => ((copyAt o 0x1014 0x100 3).map (wrGbase s false v)).orElse fun _ =>
    (copyAt o 0x1018 0x100 3).map (wrGbase s true v)

/-- The RWL registers of a subscription and their offsets. -/
def svRegs : List (Nat × SvReg) :=
  [(0x1000, .cfg), (0x1004, .id), (0x1008, .macLo), (0x100C, .macHi), (0x1010, .confrev), (0x1018, .mudly), (0x101C, .nomdly),
   (0x1020, .maxdly)]

def wrSvi (s : State) (a v : Nat) : Option State :=
  let o := a - 0x500000
  if o = 0 then
    let s1 := if v.testBit 1 then nextOr s (execSnapshotRequest s) else s
    let s2 := if v.testBit 0 then nextOr s1 (execDirectoryFlush s1) else s1
    some (putWord s2 a v)
  else if o = 0x10 then some (if v.testBit 31 then nextOr s (execDirectoryFetch (ix 4096 v) s) else putWord s a v)
  else (svRegs.findSome? fun e => (copyAt o e.1 0x40 64).map fun n =>
      nextOr s (execSvSubConfigWrite (ix 64 n) e.2 (BitVec.ofNat 32 v) s)).orElse fun _ =>
    (copyAt o 0x4000 4 192).map fun m => nextOr s (execSvMapWrite (ix 192 m) (v.testBit 31) (ix 64 (v / 0x10000)) (ix 32 v) s)

/-- AFE_CKk_CTL: a checker that is enabled starts its sweep; one that is disabled stops (R71); RESTART (R78). -/
def wrCkCtl (s : State) (a v k : Nat) : State :=
  let was := s.on (R.AFE_CKk_CTL_EN k)
  let s1 := putWord s a v
  let now := s1.on (R.AFE_CKk_CTL_EN k)
  let s2 := if now == was then s1 else if now then ckSweep s1 k else setCk s1 k { ckOf s1 k with phase := 0 }
  if v.testBit 30 then nextOr s2 (execCheckerRestart (ix 4 k) s2) else s2

/-- AFE_CHn_CFG: GAIN (R63), EN (R65), and the window and sweep settings; WK outside 8 to 20 is ignored (R68). An idle checker moves as
soon as an input is eligible (R71). -/
def wrChCfg (s : State) (a v n : Nat) : State :=
  let i := ix 48 n
  let s1 := nextOr s (execGainWrite i (ix 4 (bits v 24 2)) s)
  let s2 := nextOr s1 (if v.testBit 31 then execAfeInputEnable i s1 else execAfeInputDisable i s1)
  if locked s a then s2
  else
    let s3 := (s2.wrb (R.AFE_CHn_CFG_WMODE n) (v.testBit 21)).wrb (R.AFE_CHn_CFG_CKEXCL n) (v.testBit 8)
    let k := bits v 16 5
    ckWake (if 8 ≤ k ∧ k ≤ 20 then s3.wr (R.AFE_CHn_CFG_WK n) k else s3) (n / 12)

def wrAfe (s : State) (a v : Nat) : Option State :=
  let o := a - 0x600000
  if o = 0 then
    let s1 := nextOr s (execRefselChange (v.testBit 4) s)
    let s2 := nextOr s1 (execLpmRequest (v.testBit 8) s1)
    some (putField false v s2 R.AFE_CTL_LOCK)
  else ((copyAt o 0x100 0x10 4).map (wrCkCtl s a v)).orElse fun _ => (copyAt o 0x1000 0x20 48).map (wrChCfg s a v)

/-- DCH_CHn_CTL: RUN (R112), then SRST (R111). -/
def wrChainCtl (s : State) (v n : Nat) : State :=
  let i := ix 48 n
  let s1 := nextOr s (if v.testBit 31 then execChainRunSet i s else execChainRunClear i s)
  if v.testBit 30 then nextOr s1 (execChainSrst i s1) else s1

/-- DCH_RSm_CTL. -/
def wrRsCtl (s : State) (v m : Nat) : State :=
  let i := ix 192 m
  let s1 := nextOr s (if v.testBit 31 then execResamplerRunSet i s else execResamplerRunClear i s)
  if v.testBit 30 then nextOr s1 (execResamplerSrst i s1) else s1

def wrDch (s : State) (a v : Nat) : Option State :=
  let o := a - 0x700000
  if o = 0x8 then some (nextOr s (execDchLoadData (BitVec.ofNat 32 v) s))
  else if o = 0xC then
    some (if v.testBit 0 then nextOr s (execDchLoadOpen s) else if v.testBit 1 then nextOr s (execDchLoadCommit s) else s)
  else ((copyAt o 0x1000 0x40 48).map (wrChainCtl s v)).orElse fun _ =>
    ((copyAt o 0x1004 0x40 48).map fun n =>
      let s1 := s.wr (R.DCH_CHn_CFG_FADE n) v
      nextOr s1 (execNhbWrite (ix 48 n) (ix 8 (bits v 8 3)) s1)).orElse fun _ =>
    ((copyAt o 0x1008 0x40 48).map fun n => nextOr s (execBankRequest (.hb (ix 48 n) (ix 8 (bits v 1 3))) (v.testBit 0) s)).orElse fun _ =>
    ((copyAt o 0x4000 0x40 192).map (wrRsCtl s v)).orElse fun _ =>
    ((copyAt o 0x4004 0x40 192).map fun m =>
      let s1 := s.wr (R.DCH_RSm_CFG_FADE m) v
      nextOr s1 (execResamplerSourceWrite (ix 192 m) (v.testBit 31) (ix 64 (bits v 24 6)) s1)).orElse fun _ =>
    (copyAt o 0x400C 0x40 192).map fun m => nextOr s (execBankRequest (.rs (ix 192 m)) (v.testBit 0) s)

/-- ESP_FTGg_TRK: a VMODE or IMODE that would take in a channel outside the FTG is ignored (R149). -/
def wrTrk (s : State) (a v g : Nat) : State :=
  if locked s a then s
  else
    let bad (one : Bool) (x y z : Fld) : Bool := srcOutside s g one (s.rd x) (s.rd y) (s.rd z)
    let s1 := s.wr (R.ESP_FTGg_TRK_STEP g) v
    let s2 := if bad (v.testBit 31) (R.ESP_FTGg_VSRC_C0 g) (R.ESP_FTGg_VSRC_C1 g) (R.ESP_FTGg_VSRC_C2 g) then s1
      else s1.wrb (R.ESP_FTGg_TRK_VMODE g) (v.testBit 31)
    if bad (v.testBit 30) (R.ESP_FTGg_ISRC_C0 g) (R.ESP_FTGg_ISRC_C1 g) (R.ESP_FTGg_ISRC_C2 g) then s2
    else s2.wrb (R.ESP_FTGg_TRK_IMODE g) (v.testBit 30)

/-- ESP_FTGg_VSRC and ISRC: ignored where the source would use a channel outside the FTG (R149). -/
def wrFtgSrc (s : State) (a v g : Nat) (mode : Fld) : State :=
  if srcOutside s g (s.on mode) (v % 256) (bits v 8 8) (bits v 16 8) then s else putWord s a v

/-- ESP_FTGg_CFG: MODE, FNOM and N together (R148), and HOLDC. -/
def wrFtgCfg (s : State) (a v g : Nat) : State :=
  let s1 := if locked s a then s else s.wr (R.ESP_FTGg_CFG_HOLDC g) (bits v 12 12)
  nextOr s1 (execFtgConfigWrite (ix 4 g) (v.testBit 31) (ix 2 (bits v 30 1)) (ix 16 (bits v 24 4)) s1)

def wrEsp (s : State) (a v : Nat) : Option State :=
  let o := a - 0x800000
  ((copyAt o 0x100 0x40 4).map (wrFtgCfg s a v)).orElse fun _ => ((copyAt o 0x104 0x40 4).map (wrTrk s a v)).orElse fun _ =>
    ((copyAt o 0x108 0x40 4).map fun g => wrFtgSrc s a v g (R.ESP_FTGg_TRK_VMODE g)).orElse fun _ =>
    (copyAt o 0x10C 0x40 4).map fun g => wrFtgSrc s a v g (R.ESP_FTGg_TRK_IMODE g)

def wrElc (s : State) (a v : Nat) : Option State :=
  let n := a % 0x100000 / 0x10000
  let o := a % 0x10000
  if 8 ≤ n then none
  else if o = 0 then some (putWord (if v.testBit 30 && !locked s a then blockReset s n 0 else s) a v)
  else ((copyAt o 0x100 0x20 3).map fun j => hostMode s n j (v % 8)).orElse fun _ =>
    (copyAt o 0x104 0x20 3).map fun j => groupRequest (putField false v s (R.ELCn_BAYj_SG_SG_REFUSED n j)) n j (v % 8)

/-- THN_BINi_CFG: a change of INV turns the synchronised level (R263). -/
def wrBinCfg (s : State) (a v i : Nat) : State :=
  let was := s.on (R.THN_BINi_CFG_INV i)
  let pin := (binOf s i).sync != was
  let s1 := putWord s a v
  if s1.on (R.THN_BINi_CFG_INV i) == was then s1 else nextOr s1 (execBinEdge (ix 64 i) pin s1)

def wrThn (s : State) (a v : Nat) : Option State :=
  let o := a - 0xA00000
  if o = 0x1C then some (nextOr s (execGpoHostWrite (BitVec.ofNat 16 v) s))
  else if o = 0x44 then some (if v.testBit 0 then nextOr s (execBinEventPop s) else s)
  else some (match copyAt o 0x2000 4 64 with | some i => wrBinCfg s a v i | none => gateUpdate (putWord s a v))

/-- SCH_EXCH_CTL: SLOT, then REQ, then CANCEL (R303, assumption 51). -/
def wrExch (s : State) (v : Nat) : State :=
  let s1 := s.wr R.SCH_EXCH_CTL_SLOT v
  let s2 := if v.testBit 31 then nextOr s1 (execExchangeRequest s1) else s1
  if v.testBit 30 then nextOr s2 (execExchangeCancel s2) else s2

def wrSch (s : State) (a v : Nat) : Option State :=
  let o := a - 0xB00000
  if o = 0 then some (putWord (if v.testBit 30 && !locked s a then blockReset s 8 0 else s) a v)
  else if o = 0x20 then some (wrExch s v)
  else (copyAt o 0x1018 0x20 16).map fun t => if v.testBit 0 then nextOr s (execTaskHostActivate (ix 16 t) s) else s

/-- REC_AUu_CTL: ARM, where the row edges lie being a free value (assumption 143), DISARM, HTRIG. -/
def wrAuCtl (s : State) (v u : Nat) : State :=
  let i := ix 4 u
  let k := s.fresh 6
  let s1 := if v.testBit 31 then nextOr k.2 (execRecArm i k.1.toFin k.2) else s
  let s2 := if v.testBit 30 then nextOr s1 (execRecDisarm i s1) else s1
  if v.testBit 29 then nextOr s2 (execRecHostTrigger i s2) else s2

def wrRec (s : State) (a v : Nat) : Option State :=
  let o := a - 0xC00000
  ((copyAt o 0x100 0x100 4).map (wrAuCtl s v)).orElse fun _ =>
    ((copyAt o 0x128 0x100 4).map fun u => nextOr s (execRecPin (ix 4 u) (BitVec.ofNat 16 v) s)).orElse fun _ =>
    if 0x10000 ≤ o ∧ o < 0x20000 then some (if auState s ((o - 0x10000) / 0x4000) ≠ 0 then s else putWord s a v) else none

/-- SEC_CMD.OP (R453); 0 and 7 are ignored. -/
def wrSecCmd (s : State) (op : Nat) : State :=
  match op with
  | 1 => nextOr s (execAttest s)
  | 2 => secStart s 2
  | 3 => nextOr s (execStage s)
  | 4 => nextOr s (execEnroll s)
  | 5 => nextOr s (execKeyload s)
  | 6 => nextOr s (execKeyclr s)
  | _ => s

def wrSec (s : State) (a v : Nat) : Option State := if a = 0xD0001C then some (wrSecCmd s (v % 8)) else none

def wrTwn (s : State) (a v : Nat) : Option State :=
  if a = 0xE00000 then
    let s1 := if v.testBit 30 then nextOr s (execTwinRelearn s) else s
    some (putWord s1 a v)
  else if a = 0xE00004 then
    let s1 := putWord s a v
    some (if s1.on R.TWN_CFG_EN == s.on R.TWN_CFG_EN then (if s1.rd R.TWN_CFG_FTG = s.rd R.TWN_CFG_FTG then s1 else twinPace s1)
      else if s1.on R.TWN_CFG_EN then twinEnable s1 else evalXmode s1)
  else none

/-- A word of the MSI-X table (R509): a vector that is unmasked while its message waits sends it. -/
def wrMsix (s : State) (a v : Nat) : State :=
  let k := (a - 0xFC0000) / 16
  let x := mget s.hst.msix k {}
  let y := match (a - 0xFC0000) % 16 with
    | 0 => { x with addr := x.addr / 2 ^ 32 * 2 ^ 32 + v / 4 * 4 }
    | 4 => { x with addr := x.addr % 2 ^ 32 + v * 2 ^ 32 }
    | 8 => { x with data := v }
    | _ => { x with ctl := v % 2 }
  (setHst s { s.hst with msix := mput s.hst.msix k y }).sendPending k

def wrHst (s : State) (a v : Nat) : Option State :=
  if 0xFC0000 ≤ a then (if a < 0xFC0400 then some (wrMsix s a v) else none)
  else
    let o := a - 0xF80000
    ((copyAt o 0x100 0x20 4).map fun _ =>
      let t := putWord s a v
      if ringsApart t then t else s).orElse fun _ =>
    ((copyAt o 0x104 0x20 4).map fun r => ringIndexWrite s r true v).orElse fun _ =>
    (copyAt o 0x108 0x20 4).map fun r => ringIndexWrite s r false v

/-- The registers that do more, block by block. -/
def wrSpecial (s : State) (a v : Nat) : Option State :=
  match a / 0x100000 with
  | 0 => wrGlb s a v
  | 1 => wrPrv s a v
  | 2 => wrYew s a v
  | 3 => wrTim s a v
  | 4 => wrNet s a v
  | 5 => wrSvi s a v
  | 6 => wrAfe s a v
  | 7 => wrDch s a v
  | 8 => wrEsp s a v
  | 9 => wrElc s a v
  | 10 => wrThn s a v
  | 11 => wrSch s a v
  | 12 => wrRec s a v
  | 13 => wrSec s a v
  | 14 => wrTwn s a v
  | _ => if 0xF80000 ≤ a then wrHst s a v else none

/-- A bay mode is requested of a core that is not powered: REQ takes the write and nothing more (R188). -/
def wrDarkMode (s : State) (a v : Nat) : State :=
  match copyAt (a % 0x10000) 0x100 0x20 3 with
  | some j => if 1 ≤ v % 8 ∧ v % 8 ≤ 5 ∧ schemeMode s (3 * (a % 0x100000 / 0x10000) + j) = false then s.wr (R.ELCn_BAYj_MODE_REQ (a % 0x100000 / 0x10000) j) (v % 8) else s
  | none => s

/-- A word reaches the register at `a`. Registers of a domain that is not powered ignore it, but for a core's mode requests
(assumption 50). -/
def writeReg (s : State) (a v : Nat) : State :=
  if a % 4 ≠ 0 ∨ 0x1000000 ≤ a then s
  else if !s.pg (regPd a) then (if 0x900000 ≤ a ∧ a < 0x980000 then wrDarkMode s a v else s)
  else prvWritten ((wrSpecial s a v).getD (putWord s a v)) a

/-- The load engine's write: the L fields of the register, the LOCK bit, and nothing else (R29, R465). -/
def loadReg (s : State) (a v : Nat) : State :=
  let s1 := (imgFlds a).foldl (fun t f => putFld t (f, fldIn f v)) s
  match lockAt a with | some f => if v.testBit 31 then s1.wr f 1 else s1 | none => s1

/-- May a write by the host, or by what has its rights, change a field (R29): RW, W1C, W1S, WO, and RWL while its block is unlocked? -/
def hostField (lk : Bool) (f : Fld) : Bool :=
  match f.acc with
  | .rw => true
  | .wo => true
  | .w1c => true
  | .w1s => true
  | .rwl => !lk
  | .ro => false
  | .rc => false

/-- The ring index at `a` that the host advances: PROD of ring 1, CONS of the others (R513, R522). -/
def hostIndex (a : Nat) : Bool :=
  copyAt (a - 0xF80000) 0x104 0x20 4 == some 1 || ([0, 2, 3].any fun r => copyAt (a - 0xF80000) 0x108 0x20 4 == some r)

/-- Has the register at `a` a field that such an initiator may write (R29)? The MSI-X table is written whole (R509). -/
def hostReg (s : State) (a : Nat) : Bool :=
  match findReg regTable a with
  | some l => l.any (hostField (locked s a)) || hostIndex a
  | none => true

/-- Does the access-rights table let an initiator write the register at `a` (R29)? The load engine writes L fields only, and the host no
register all of whose fields are read-only or locked. -/
def mayWriteReg (s : State) (i : Ini) (a : Nat) : Bool :=
  mayWrite s i a && (match i with
    | .load => !(imgFlds a).isEmpty || (lockAt a).isSome
    | _ => hostReg s a)

/-- A write of BAR0 by an initiator (R29): denied, or applied; one to a gap is ignored without a denial (R508). -/
def busWrite (s : State) (i : Ini) (a v : Nat) : State :=
  if isGap a then s
  else if !mayWriteReg s i a then denied s i true a
  else match i with
    | .load => loadReg s a v
    | _ => writeReg s a v

/-- Hedgerow runs: no reset is held and PD11 is powered (R39). -/
def busUp (s : State) : Bool := s.glb.hold == 0 && s.pg 11

/-! ### The rows of register access -/

/-- What a read returned (R16). -/
def showRead (s : State) (l : List Byte) : State := setHst s { s.hst with rdata := l, poison := false }

/-- A read of one register by the host. -/
def hostRead (s : State) (a : Nat) : State :=
  let p := busRead s .hst a
  showRead p.2 (leBytes 4 p.1)

/-- REGISTER_WRITE: an aligned 32-bit write of an initiator (R16, R18, R29). -/
def execRegisterWrite (i : Ini) (a : Nat) (v : BitVec 32) (s : State) : Host.Outcome State Fault Refusal :=
  .next (if !busUp s || a % 4 != 0 then s else busWrite s i a v.toNat)

/-- An aligned 64-bit access of the MSI-X table or the pending bits (R509): its two words, the low one first. -/
def msixWide (write : Option (BitVec 64)) (a : Nat) (s : State) : State :=
  match write with
  | some v => busWrite (busWrite s .hst a (v.toNat % 2 ^ 32)) .hst (a + 4) (v.toNat / 2 ^ 32)
  | none =>
    let p := busRead s .hst a
    let q := busRead p.2 .hst (a + 4)
    showRead q.2 (leBytes 4 p.1 ++ leBytes 4 q.1)

/-- BAR0_NARROW_ACCESS: an access of `n` bytes at `a` that is not an aligned 32-bit one (R16): zero data, no other effect; but an aligned
64-bit one of the MSI-X table or the pending bits is performed (R509). `write` is the data of a write, none for a read. -/
def execBar0NarrowAccess (write : Option (BitVec 64)) (a n : Nat) (s : State) : Host.Outcome State Fault Refusal :=
  .next <|
    if !busUp s || (n == 4 && a % 4 == 0) then s
    else if n = 8 ∧ a % 8 = 0 ∧ 0xFC0000 ≤ a ∧ a < 0xFC1008 then msixWide write a s
    else if write.isSome then s
    else showRead s (padTo n [])

/-- WIDE_LOW_READ: a host read of the low register of a 64-bit quantity, which captures the high word, or of the high register
after it (R17). -/
def execWideLowRead (a : Nat) (s : State) : Host.Outcome State Fault Refusal :=
  .next (if !busUp s || !(lowOf64 a || (decide (4 ≤ a) && lowOf64 (a - 4))) then s else hostRead s a)

/-- READ_CLEAR: a host read of a register with RC fields (R18). -/
def execReadClear (a : Nat) (s : State) : Host.Outcome State Fault Refusal :=
  .next (if !busUp s || !((findReg regTable a).getD []).any (fun f => f.acc == .rc) then s else hostRead s a)

/-- BLOCK_LOCK: LOCK is written 1 in the block with number `k`: the blocks that have one, in the order of R508 with the cores last (R18). -/
def execBlockLock (k : Fin 23) (s : State) : Host.Outcome State Fault Refusal :=
  .next <|
    match lockFlds[k.val]? with
    | some f => if !busUp s || !s.pg (regPd f.addr) then s else s.wr f 1
    | none => s

/-- A read of a core's memory through the diagnostic port, at `m` of the model's memory: a faulty word is not used (R172). -/
def diagCore (s : State) (n m : Nat) : State :=
  let p := ecRead s n m
  showRead p.1 (if p.2 then p.1.rdMem m 4 else padTo 4 [])

/-- DIAGNOSTIC_PORT_READ (R31, R161, R172): a word of the planes with its parity check, or of a core's memory with its ECC. -/
def execDiagnosticPortRead (d : DiagSel) (s : State) : Host.Outcome State Fault Refusal :=
  .next <|
    if !busUp s then s
    else match d with
    | .esp o => if o % 4 = 0 ∧ inPlanes o = true ∧ s.pg 1 = true then hostRead s (0x800000 + o) else showRead s (padTo 4 [])
    | .ecData n o =>
      if o % 4 = 0 ∧ o < 0x20000 ∧ s.pg (2 + n.val / 2) = true then diagCore s n (ecDataBase n + o) else showRead s (padTo 4 [])
    | .ecElem n o =>
      if o % 4 = 0 ∧ o < 0x8000 ∧ s.pg (2 + n.val / 2) = true then diagCore s n (ecElemBase n + o) else showRead s (padTo 4 [])

end Sys2Proof.Machine
end

