-- ==== Sys2Proof/Machine/Exch.lean ====
section
/-! DEFINITION. The switch of an on-line image exchange (R298 to R301): carry-over, the L fields of other blocks, the swap of the
entry tables, the checkpoint, the held releases. -/

namespace Sys2Proof.Machine

/-! ### CHECKING (R294) -/

/-- Does every placed block of a new image hold what the running program has there, or lie in locations that it does not use: neither its
blocks nor the live regions `ret` that it retains (R295, assumption 132)? -/
def placementFits (old : List (Nat × List Byte)) (ret : List (Nat × Nat)) (new : List (Nat × List Byte)) : Bool :=
  let used := old.map (fun c => (c.1, c.2.length)) ++ ret
  new.all fun b => old.contains b || used.all fun c => decide (b.1 + b.2.length ≤ c.1) || decide (c.1 + c.2 ≤ b.1)

/-- The outcome of CHECKING a verified image whose sections load (R294): the RESULT of a refusal, or none. An image that uses other core
groups would change which FTGs are enabled and which domains are powered, which only boot does (R146, R40; assumption 167). -/
def exchCheck (s : State) (i : Image) : Option Nat :=
  if !codeOk i || !outputsOwned i || !gooseOk i then some 3
  else if i.base ≠ s.img.ident then some 4
  else if imgField i R.ESP_GRP_FTG_FTG ≠ s.rd R.ESP_GRP_FTG_FTG ∨ i.used ≠ s.img.used then some 5
  else if !limitsOk i then some 9
  else if !placementFits (exchBlocks s.img) ((retRegions s).map fun e => (scBase + e.1, e.2)) (exchBlocks i) then some 6
  else none

/-- The image in an exchange's slot, or the RESULT of its refusal: 2 where its signature or a section's CRC fails or MRAM is not read well, 3
where a section breaks a rule of its layout (R294, assumption 133). A slot that was being staged when the exchange was requested had no valid
header (R445). -/
def exchImage (s : State) (sigOk readOk tablesOk : Bool) (i : Image) : Except Nat Image :=
  let slot := s.sch.exSlot
  if imageVerdict s slot sigOk ≠ 0 ∨ readOk = false ∨ s.sch.exStg = true then .error 2
  else match loadAll s slot (sections s slot) {} with
    | .error r => .error (if r = 5 then 2 else 3)
    | .ok l =>
      let x := imageOf s slot l i
      if !tablesOk then .error 3 else match exchCheck s x with | some r => .error r | none => .ok x

/-- EXCHANGE_CHECK_DONE: CHECKING ends (R294). `sigOk` is the verdict of ECDSA (assumption 59), the other operands are those of
IMAGE_LOAD_DONE (assumption 48). -/
def execExchangeCheckDone (sigOk readOk tablesOk : Bool) (i : Image) (s : State) : Host.Outcome State Fault Refusal :=
  .next <|
    if exchState s ≠ 1 ∨ sigOk ≠ imageSig s s.sch.exSlot then s
    else match exchImage s sigOk readOk tablesOk i with
      | .error r => (endExch s r).logIx 0x0B 8 (s.sch.exSlot)
      | .ok x => setExch (modSch s fun c => { c with cand := some x }) 2

/-! ### Step 3: L fields of other blocks -/

/-- The BAR0 offsets whose fields the two images give different values, in ascending order. -/
def changedAddrs (old new : List (Nat × Nat)) : List Nat :=
  let diff (x y : List (Nat × Nat)) : List (Nat × Nat) := x.filter fun e => !y.contains e
  ((diff new old ++ diff old new).foldl (fun a e => mput a (e.1 % 0x10000000000 / 32) ()) ([] : List (Nat × Unit))).map (·.1)

/-- Does the new image give an L field another value than the running one? -/
def fieldChanged (s : State) (i : Image) (f : Fld) : Bool := f.dom == .img && imgField i f != imgField s.img f

/-- The word that writes the changed fields of a register and leaves its others as they are. -/
def changeWord (s : State) (i : Image) (l : List Fld) : Nat :=
  match l with
  | [] => 0
  | f :: t =>
    let v := if fieldChanged s i f then imgField i f else if f.acc = .rw ∨ f.acc = .rwl then s.rd f else 0
    v * 2 ^ f.lo + changeWord s i t

/-- A write that no LOCK holds back: the block is unlocked for it and locked again. -/
def unlockedWrite (s : State) (a v : Nat) : State :=
  match lockAt (ctlAddr a) with
  | some f => (writeReg (s.wr f 0) a v).wr f (s.rd f)
  | none => writeReg s a v

/-- Read-only L fields take their values directly; a changed svID hash restarts its subscription (R123). -/
def changeRo (i : Image) (s : State) (f : Fld) : State :=
  if f.acc = .ro && fieldChanged s i f && f.addr / 0x100000 != 7 && f != R.ESP_STAT_FTG_EN then
    let s1 := s.wr f (imgField i f)
    match copyAt f.addr 0x501014 0x40 64 with
    | some n => if subOn s1 n then svRestart s1 n else s1
    | none => s1
  else s

/-- A subscription that was INVALID and whose CONFREV the new image has changed leaves that state, and waits for a sample (R136). -/
def acceptRev (s : State) (a : Nat) : State :=
  match copyAt a 0x501010 0x40 64 with
  | some n => if subState s n = 5 ∧ subOn s n = true ∧ (subOf s n).rev ≠ some (s.rd (R.SVI_SUBs_CONFREV_CONFREV n)) then svRestart s n else s
  | none => s

/-- One register of another block than SCH takes what the new image changes of it. -/
def changeReg (i : Image) (s : State) (a : Nat) : State :=
  let l := (findReg regTable a).getD []
  if a / 0x100000 = 11 then s
  else
    let s1 := if l.any fun f => fieldChanged s i f && f.acc != .ro then unlockedWrite s a (changeWord s i l) else s
    acceptRev (l.foldl (changeRo i) s1) a

/-- Step 3 of R298. -/
def changeFields (s : State) (i : Image) : State := (changedAddrs s.img.fields i.fields).foldl (changeReg i) s

/-! ### Step 4: the swap -/

/-- The SCH registers of the new image. -/
def changeSch (s : State) (i : Image) : State :=
  (changedAddrs s.img.fields i.fields).foldl
    (fun a x => if x / 0x100000 = 11 then (imgFlds x).foldl (fun b f => b.wr f (imgField i f)) a else a) s

/-- The committed outputs under the new image's layout: a point that both images drive keeps its value (assumption 53). -/
def carryOut (s : State) (i : Image) : List (Nat × Word) :=
  let words := i.outWords.foldl (fun a e => match s.img.outWords.find? fun o => o.2 == e.2 with
    | some o => if mget s.sch.out o.1 0 = 0 then a else mput a e.1 (mget s.sch.out o.1 0)
    | none => a) ([] : List (Nat × Word))
  i.outBits.foldl (fun a e => match s.img.outBits.find? fun o => o.2 == e.2 with
    | some o => if outBit s.sch.out o.1 then mput a (e.1 / 32) (mget a (e.1 / 32) 0 ||| (1#32 <<< (e.1 % 32))) else a
    | none => a) words

/-- Control blocks whose confRev changes, or that one image does not hold: their numbers start again (R327). -/
def changedGcbs (old new : Image) : List Nat :=
  (List.range 128).filter fun c => ((old.gcbs.find? fun e => e.1 == c).map fun e => e.2.confRev) != ((new.gcbs.find? fun e => e.1 == c).map fun e => e.2.confRev)

def changedGsubs (old new : Image) : List Nat :=
  ((old.gsubs ++ new.gsubs).filter fun e => !(old.gsubs.contains e && new.gsubs.contains e)).map (·.1)

/-- GOOSE control blocks and subscriptions that the new image changes. -/
def changeGoose (s : State) (old new : Image) : State :=
  let l := changedGcbs old new
  let s1 := setNet s { s.net with pub := s.net.pub.filter fun e => !l.contains e.1 }
  (changedGsubs old new).foldl (fun a n =>
    let b := unlinkSub a true n
    if (gsubCfg b n).isSome then gsubStart b n else setGsubState (setGsub b n {}) n 0) s1

/-- Step 4 of R298: tables, configuration memories, identity, PREF (R460), and IMG_EXCHANGED with the identities' first bytes, old one first. -/
def swapImage (s : State) (i : Image) : State :=
  let old := s.img
  let s1 := swapCores (changeSch s i) i
  let s2 := putCfg i { modSch s1 fun c => { c with out := carryOut s i } with img := i }
  let s3 := (s2.wr R.GLB_BOOT_PREF (s.sch.exSlot)).wr R.GLB_BOOT_SLOT (s.sch.exSlot)
  let s4 := if s.sch.forced then s3 else { s3 with thn := { s3.thn with sch := schTerms s3, gpoSch := gpoTermsSch s3 } }
  gateUpdate ((noteGcbs (changeGoose (showBounds i s4) old i) fun _ => true).logEv 0x0B 9 ((leBytes 32 old.ident).take 12 ++ (leBytes 32 i.ident).take 12))

/-- EXCHANGE_SWITCH: at the boundary every instance has ended (R297): the steps of R298 in order, and IDLE with DONE. An uncorrectable word
among what survives halts the pair, and nothing is switched (R272, assumption 186). -/
def execExchangeSwitch (s : State) : Host.Outcome State Fault Refusal :=
  .next <|
    match s.sch.cand with
    | none => s
    | some i =>
      if exchState s ≠ 3 ∨ s.sch.quiesce = false ∨ s.sch.cur.isSome = true ∨ s.sch.pre ≠ [] then s
      else if !(scRegions s (carryRegions i)).2 then (scRegions s (carryRegions i)).1
      else
        let s1 := changeFields (carryOver (setExch (scRegions s (carryRegions i)).1 4) i) i
        let s2 := swapImage s1 i
        let s3 := startCkpt (modSch s2 fun c => { c with ckpt := none })
        endExch (releaseHeld s3) 1

end Sys2Proof.Machine
end

