-- ==== Sys2Proof/Machine/Fault.lean ====
section
/-! DEFINITION. The fault occurrences that reach Privet in one AON cycle (R412, R416 to R431), and what ECC_NET loses. -/

namespace Sys2Proof.Machine

/-- The frames that wait in the packet buffer: port, queue, place in the queue. -/
def buffered (s : State) : List (Nat × Nat × Nat) :=
  (List.range 3).flatMap fun p => (List.range 8).flatMap fun q => (List.range (queueOf s p q).length).map fun k => (p, q, k)

/-- A frame of the packet buffer is lost (R412): which of the waiting ones holds the word is a free value (assumption 32). -/
def loseFrame (s : State) : State :=
  let l := buffered s
  if l.isEmpty then s
  else
    let r := s.fresh 16
    let e := l.getD (r.1.toNat % l.length) (0, 0, 0)
    let w := queueOf s e.1 e.2.1
    let s1 := setQueue r.2 e.1 e.2.1 (w.eraseIdx e.2.2)
    match w[e.2.2]? with
    | some f => (match f.kind with | .host k => txFlush (modTx s1 k txLost) | _ => s1)
    | none => s1

/-- An uncorrectable error of the packet buffer drops the frame, one of the publisher directory removes the entry that holds the word
(R412; assumption 32). -/
def dropDirEntry (s : State) (o : Fin 25 × BitVec 32) : State :=
  if o.1.val = 2 ∧ o.2.toNat / 2 ^ 28 = 5 then
    let d := mdel s.svi.dir (o.2.toNat % 2 ^ 25 / 128)
    ({ s with svi := { s.svi with dir := d } }).wr R.SVI_DIR_STAT_USED d.length
  else if o.1.val = 2 ∧ o.2.toNat / 2 ^ 28 = 4 then loseFrame s
  else s

/-- PRIVET_FAULT_OCCURRENCE: the occurrences whose decisions fall in one AON cycle (R416, R417), source and detail of each:
those waiting on the fault lines, or faults that no command of the table raises, such as an ECC error. Occurrences of
masked sources are clamped (R42). An escalation enters safe state, so that nothing else of its cycle is performed (R417, R429). -/
def execPrivetFaultOccurrence (occs : List (Fin 25 × BitVec 32)) (s : State) : Host.Outcome State Fault Refusal :=
  .next <|
    let s0 := occs.foldl dropDirEntry { s with prv := { s.prv with lines := occs.foldl (fun a o => takeLine a (o.1.val, o.2)) s.prv.lines } }
    let all := (occs.filter fun o => !lineMasked s o.1.val o.2.toNat).foldl (fun a o => insSrc (o.1.val, o.2.toNat) a) []
    let cons := all.filter fun o => consequential s o.1 o.2
    let acted := all.filter fun o => !consequential s o.1 o.2
    let safe0 := s.on R.PRV_STAT_SAFE
    let isSafe (o : Nat × Nat) : Bool := actionOf s o.1 == 4
    let isDev (o : Nat × Nat) : Bool := actionOf s o.1 == 3
    let eff := if safe0 || acted.any isSafe then 4 else if s.glb.hold ≠ 0 ∨ acted.any isDev then 3 else 0
    let s1 := recordAll (cons.foldl recordConseq s0) eff acted
    match acted.find? isSafe, acted.find? isDev with
    | some o, _ => enterSafe s1 o.1 o.2
    | none, some o => if safe0 then s1 else assertReset s1 2 3 o.1
    | none, none =>
      let esc := acted.filter (escalates s)
      if safe0 ∨ s.glb.hold ≠ 0 then s1 else (if esc.isEmpty then acted else esc).foldl reactLocal s1

end Sys2Proof.Machine
end

