-- ==== Sys2Proof/Machine/Mspi.lean ====
section
/-! DEFINITION. The maintenance SPI (R516 to R518): transactions, their CRC-8, results. -/

namespace Sys2Proof.Machine

/-- One bit step of the CRC-8 of R517, polynomial 0x07. -/
def crc8Bit (c : Byte) : Byte := if c.getLsbD 7 then (c <<< 1) ^^^ 7#8 else c <<< 1

def crc8Byte (c b : Byte) : Byte := crc8Bit (crc8Bit (crc8Bit (crc8Bit (crc8Bit (crc8Bit (crc8Bit (crc8Bit (c ^^^ b))))))))

/-- CRC-8 over bytes in the order sent, from 0 (R517). -/
def crc8 (l : List Byte) : Byte := l.foldl crc8Byte 0

/-- The bytes of a transaction up to its CRC: command, N − 1, address big-endian, the words of a write (R517). -/
def mspiBytes (cmd n : Nat) (a : BitVec 32) (l : List (BitVec 32)) : List Byte :=
  [BitVec.ofNat 8 cmd, BitVec.ofNat 8 (n - 1)] ++ (leBytes 4 a.toNat).reverse ++ l.flatMap fun w => leBytes 4 w.toNat

/-- The device's response (R517). -/
def mspiAnswer (s : State) (l : List Byte) : State := setHst s { s.hst with mspi := l }

/-- The result of a transaction before anything is performed: a CRC error, a misaligned address, or none. -/
def mspiRefuse (cmd n : Nat) (a : BitVec 32) (l : List (BitVec 32)) (crc : Byte) : Option Byte :=
  if crc8 (mspiBytes cmd n a l) ≠ crc then some 0xC3
  else if a.toNat % 4 ≠ 0 ∧ cmd ≠ 5 then some 0x3C
  else none

/-- The words of a write are performed in order, at addresses 4 apart (R518). -/
def mspiWords (w : State → Nat → Nat → State) : List (BitVec 32) → Nat → State → State
  | [], _, s => s
  | v :: t, a, s => mspiWords w t (a + 4) (if busUp s then w s a v.toNat else s)

/-- A write transaction; `quick` of its words are complete within 100 µs of the CRC byte, the rest are not performed (R517). -/
def mspiWrite (cmd : Nat) (w : State → Nat → Nat → State) (a : BitVec 32) (l : List (BitVec 32)) (crc : Byte) (quick : Nat) (s : State) :
    State :=
  if !busUp s || l.isEmpty || decide (64 < l.length) then s
  else match mspiRefuse cmd l.length a l crc with
    | some r => mspiAnswer s [r]
    | none => mspiAnswer (mspiWords w (l.take quick) a.toNat s) [if quick < l.length then 0x5A else 0xA5]

/-- A read transaction of N = n + 1 words; `quick` says that it is complete within 100 µs. -/
def mspiRead (cmd : Nat) (r : State → List Byte × State) (a : BitVec 32) (n : Fin 64) (crc : Byte) (quick : Bool) (s : State) : State :=
  if !busUp s then s
  else match mspiRefuse cmd (n.val + 1) a [] crc with
    | some x => mspiAnswer s [x]
    | none =>
      let p := r s
      mspiAnswer p.2 (if quick then [0xA5] ++ p.1 ++ [crc8 p.1] else [0x5A])

/-- The words of a BAR0 read, in order. -/
def mspiRegs : (n a : Nat) → State → List Byte × State
  | 0, _, s => ([], s)
  | n + 1, a, s =>
    let p := busRead s .mspi a
    let q := mspiRegs n (a + 4) p.2
    (leBytes 4 p.1 ++ q.1, q.2)

/-- The status word of command 0x05 (R517). -/
def mspiStatusWord (s : State) : Nat :=
  s.rd R.SEC_LC_STATE * 2 ^ 30 + s.rd R.GLB_PWR_STATE * 2 ^ 27 + s.rd R.GLB_BOOT_DONE * 2 ^ 26 + s.rd R.GLB_BOOT_MAINT * 2 ^ 25
    + s.rd R.PRV_STAT_SAFE * 2 ^ 24

/-- The words of a status transaction: each is the status word. -/
def mspiStatus : Nat → State → List Byte
  | 0, _ => []
  | n + 1, s => leBytes 4 (mspiStatusWord s) ++ mspiStatus n s

/-- MSPI_WRITE_BAR0: command 0x01. -/
def execMspiWriteBar0 (a : BitVec 32) (l : List (BitVec 32)) (crc : BitVec 8) (quick : Nat) (s : State) : Host.Outcome State Fault Refusal :=
  .next (mspiWrite 1 (fun t x v => busWrite t .mspi x v) a l crc quick s)

/-- MSPI_READ_BAR0: command 0x02. -/
def execMspiReadBar0 (a : BitVec 32) (n : Fin 64) (crc : BitVec 8) (quick : Bool) (s : State) : Host.Outcome State Fault Refusal :=
  .next (mspiRead 2 (mspiRegs (n.val + 1) a.toNat) a n crc quick s)

/-- MSPI_WRITE_DRAM: command 0x03, within the host-ring area. -/
def execMspiWriteDram (a : BitVec 32) (l : List (BitVec 32)) (crc : BitVec 8) (quick : Nat) (s : State) : Host.Outcome State Fault Refusal :=
  .next (mspiWrite 3 (fun t x v => dramWrite t .mspi x ((leBytes 4 v).map some)) a l crc quick s)

/-- MSPI_READ_DRAM: command 0x04. -/
def execMspiReadDram (a : BitVec 32) (n : Fin 64) (crc : BitVec 8) (quick : Bool) (s : State) : Host.Outcome State Fault Refusal :=
  .next (mspiRead 4 (fun t => ((dramRead t a.toNat (4 * (n.val + 1))).1, (dramRead t a.toNat (4 * (n.val + 1))).2.2)) a n crc quick s)

/-- A transaction with a command byte of none of the five (R517): a CRC error, or the result for an unknown command; nothing performed. -/
def mspiUnknown (h : MspiHead) (n : Fin 64) (crc : Byte) (s : State) : State :=
  if !busUp s then s else mspiAnswer s [if crc8 (mspiBytes h.cmd.toNat (n.val + 1) h.addr []) ≠ crc then 0xC3 else 0x3C]

/-- MSPI_STATUS: command 0x05, whose address is ignored, or an unknown command (assumption 161). -/
def execMspiStatus (a : MspiHead) (n : Fin 64) (crc : BitVec 8) (quick : Bool) (s : State) : Host.Outcome State Fault Refusal :=
  .next <|
    if a.cmd = 5 then mspiRead 5 (fun t => (mspiStatus (n.val + 1) t, t)) a.addr n crc quick s
    else if 1 ≤ a.cmd.toNat ∧ a.cmd.toNat ≤ 4 then s
    else mspiUnknown a n crc s

end Sys2Proof.Machine
end

