-- ==== Sys2Proof/Machine/PorlonFloat.lean ====
section
/-! DEFINITION. Binary32 and complex syllables of Porlon (R219, R220). -/

namespace Sys2Proof.Machine

/-- fadd (R219). -/
def execFadd (k : CoreSel) (g : Guard) (rd ra rb : SReg) (last : Bool) (s : State) : Host.Outcome State Fault Refusal :=
  .next (sylR (.fadd k g rd ra rb last) s k g rd ra rb last F32.add)

/-- fsub (R219). -/
def execFsub (k : CoreSel) (g : Guard) (rd ra rb : SReg) (last : Bool) (s : State) : Host.Outcome State Fault Refusal :=
  .next (sylR (.fsub k g rd ra rb last) s k g rd ra rb last F32.sub)

/-- fmul (R219). -/
def execFmul (k : CoreSel) (g : Guard) (rd ra rb : SReg) (last : Bool) (s : State) : Host.Outcome State Fault Refusal :=
  .next (sylR (.fmul k g rd ra rb last) s k g rd ra rb last F32.mul)

/-- fdiv (R219). -/
def execFdiv (k : CoreSel) (g : Guard) (rd ra rb : SReg) (last : Bool) (s : State) : Host.Outcome State Fault Refusal :=
  .next (sylR (.fdiv k g rd ra rb last) s k g rd ra rb last F32.div)

/-- fmin (R219). -/
def execFmin (k : CoreSel) (g : Guard) (rd ra rb : SReg) (last : Bool) (s : State) : Host.Outcome State Fault Refusal :=
  .next (sylR (.fmin k g rd ra rb last) s k g rd ra rb last F32.min)

/-- fmax (R219). -/
def execFmax (k : CoreSel) (g : Guard) (rd ra rb : SReg) (last : Bool) (s : State) : Host.Outcome State Fault Refusal :=
  .next (sylR (.fmax k g rd ra rb last) s k g rd ra rb last F32.max)

/-- fsqrt (R219). -/
def execFsqrt (k : CoreSel) (g : Guard) (rd ra : SReg) (last : Bool) (s : State) : Host.Outcome State Fault Refusal :=
  .next (sylR1 (.fsqrt k g rd ra last) s k g rd ra last F32.sqrt)

/-- fabs (R219). -/
def execFabs (k : CoreSel) (g : Guard) (rd ra : SReg) (last : Bool) (s : State) : Host.Outcome State Fault Refusal :=
  .next (sylR1 (.fabs k g rd ra last) s k g rd ra last F32.abs)

/-- fneg (R219). -/
def execFneg (k : CoreSel) (g : Guard) (rd ra : SReg) (last : Bool) (s : State) : Host.Outcome State Fault Refusal :=
  .next (sylR1 (.fneg k g rd ra last) s k g rd ra last F32.neg)

/-- fcvtws (R219). -/
def execFcvtWs (k : CoreSel) (g : Guard) (rd ra : SReg) (last : Bool) (s : State) : Host.Outcome State Fault Refusal :=
  .next (sylR1 (.fcvtWs k g rd ra last) s k g rd ra last F32.toI32)

/-- fcvtsw (R219). -/
def execFcvtSw (k : CoreSel) (g : Guard) (rd ra : SReg) (last : Bool) (s : State) : Host.Outcome State Fault Refusal :=
  .next (sylR1 (.fcvtSw k g rd ra last) s k g rd ra last F32.ofI32)

/-- fcvtswu (R219). -/
def execFcvtSwu (k : CoreSel) (g : Guard) (rd ra : SReg) (last : Bool) (s : State) : Host.Outcome State Fault Refusal :=
  .next (sylR1 (.fcvtSwu k g rd ra last) s k g rd ra last F32.ofU32)

/-- fmadd: d + a × b, rounded once (R219). -/
def execFmadd (k : CoreSel) (g : Guard) (rd ra rb : SReg) (last : Bool) (s : State) : Host.Outcome State Fault Refusal :=
  .next (syl (.fmadd k g rd ra rb last) s k g last fun f => .ok [.setS rd.val (F32.fma (f.gs ra.val) (f.gs rb.val) (f.gs rd.val))])

/-- fmsub: d − a × b, rounded once (R219). -/
def execFmsub (k : CoreSel) (g : Guard) (rd ra rb : SReg) (last : Bool) (s : State) : Host.Outcome State Fault Refusal :=
  .next (syl (.fmsub k g rd ra rb last) s k g last fun f => .ok [.setS rd.val (F32.fnma (f.gs ra.val) (f.gs rb.val) (f.gs rd.val))])

/-- FcmpEq (R219). -/
def execFcmpEq (k : CoreSel) (g : Guard) (pd : PReg) (ra rb : SReg) (last : Bool) (s : State) : Host.Outcome State Fault Refusal :=
  .next (sylCmp (.fcmpEq k g pd ra rb last) s k g pd ra rb last F32.eq)

/-- FcmpLt (R219). -/
def execFcmpLt (k : CoreSel) (g : Guard) (pd : PReg) (ra rb : SReg) (last : Bool) (s : State) : Host.Outcome State Fault Refusal :=
  .next (sylCmp (.fcmpLt k g pd ra rb last) s k g pd ra rb last F32.lt)

/-- FcmpLe (R219). -/
def execFcmpLe (k : CoreSel) (g : Guard) (pd : PReg) (ra rb : SReg) (last : Bool) (s : State) : Host.Outcome State Fault Refusal :=
  .next (sylCmp (.fcmpLe k g pd ra rb last) s k g pd ra rb last F32.le)

/-- FcmpUn (R219). -/
def execFcmpUn (k : CoreSel) (g : Guard) (pd : PReg) (ra rb : SReg) (last : Bool) (s : State) : Host.Outcome State Fault Refusal :=
  .next (sylCmp (.fcmpUn k g pd ra rb last) s k g pd ra rb last F32.un)

/-- cadd (R220). -/
def execCadd (n : Fin 8) (g : Guard) (cd ca cb : CReg) (last : Bool) (s : State) : Host.Outcome State Fault Refusal :=
  .next (sylCx (.cadd n g cd ca cb last) s n g cd ca cb last F32.cadd)

/-- csub (R220). -/
def execCsub (n : Fin 8) (g : Guard) (cd ca cb : CReg) (last : Bool) (s : State) : Host.Outcome State Fault Refusal :=
  .next (sylCx (.csub n g cd ca cb last) s n g cd ca cb last F32.csub)

/-- cmul (R220). -/
def execCmul (n : Fin 8) (g : Guard) (cd ca cb : CReg) (last : Bool) (s : State) : Host.Outcome State Fault Refusal :=
  .next (sylCx (.cmul n g cd ca cb last) s n g cd ca cb last F32.cmul)

/-- cmulc (R220). -/
def execCmulc (n : Fin 8) (g : Guard) (cd ca cb : CReg) (last : Bool) (s : State) : Host.Outcome State Fault Refusal :=
  .next (sylCx (.cmulc n g cd ca cb last) s n g cd ca cb last F32.cmulc)

/-- cconj (R220). -/
def execCconj (n : Fin 8) (g : Guard) (cd ca : CReg) (last : Bool) (s : State) : Host.Outcome State Fault Refusal :=
  .next (syl (.cconj n g cd ca last) s (.pe n) g last fun f => .ok [.setC cd.val (F32.cconj (f.gc ca.val))])

/-- cscale (R220). -/
def execCscale (n : Fin 8) (g : Guard) (cd ca : CReg) (rb : SReg) (last : Bool) (s : State) : Host.Outcome State Fault Refusal :=
  .next (syl (.cscale n g cd ca rb last) s (.pe n) g last fun f => .ok [.setC cd.val (F32.cscale (f.gc ca.val) (f.gs rb.val))])

/-- cmag2 (R220). -/
def execCmag2 (n : Fin 8) (g : Guard) (rd : SReg) (ca : CReg) (last : Bool) (s : State) : Host.Outcome State Fault Refusal :=
  .next (sylCs (.cmag2 n g rd ca last) s n g rd ca last F32.cmag2)

/-- cabs (R220). -/
def execCabs (n : Fin 8) (g : Guard) (rd : SReg) (ca : CReg) (last : Bool) (s : State) : Host.Outcome State Fault Refusal :=
  .next (sylCs (.cabs n g rd ca last) s n g rd ca last F32.cabs)

/-- cre (R220). -/
def execCre (n : Fin 8) (g : Guard) (rd : SReg) (ca : CReg) (last : Bool) (s : State) : Host.Outcome State Fault Refusal :=
  .next (sylCs (.cre n g rd ca last) s n g rd ca last (fun c => c.1))

/-- cim (R220). -/
def execCim (n : Fin 8) (g : Guard) (rd : SReg) (ca : CReg) (last : Bool) (s : State) : Host.Outcome State Fault Refusal :=
  .next (sylCs (.cim n g rd ca last) s n g rd ca last (fun c => c.2))

/-- carg: the argument, within 2 units in the last place; the unit's error is a function of the operand that nothing else constrains
(R220). -/
def execCarg (n : Fin 8) (g : Guard) (rd : SReg) (ca : CReg) (last : Bool) (s : State) : Host.Outcome State Fault Refusal :=
  .next (sylCs (.carg n g rd ca last) s n g rd ca last fun z => F32.carg z (F32.argErr z))

/-- cpack (R220). -/
def execCpack (n : Fin 8) (g : Guard) (cd : CReg) (ra rb : SReg) (last : Bool) (s : State) : Host.Outcome State Fault Refusal :=
  .next (syl (.cpack n g cd ra rb last) s (.pe n) g last fun f => .ok [.setC cd.val (f.gs ra.val, f.gs rb.val)])

end Sys2Proof.Machine
end

