-- ==== Sys2Proof/Machine/PorlonInt.lean ====
section
/-! DEFINITION. Integer, predicate, immediate, branch and loop syllables of Porlon (R213 to R218). -/

namespace Sys2Proof.Machine

/-! ### Integer results (R213, R214) -/

/-- R214: division by zero gives all ones; 0x8000_0000 by −1 gives 0x8000_0000. -/
def porDiv (a b : Word) : Word := if b = 0 then 0xFFFFFFFF#32 else if a = 0x80000000#32 ∧ b = 0xFFFFFFFF#32 then 0x80000000#32 else a.sdiv b
def porDivu (a b : Word) : Word := if b = 0 then 0xFFFFFFFF#32 else a / b
def porRem (a b : Word) : Word := if b = 0 then a else if a = 0x80000000#32 ∧ b = 0xFFFFFFFF#32 then 0 else a.srem b
def porRemu (a b : Word) : Word := if b = 0 then a else a % b

/-- High halves of the signed and unsigned 64-bit products. -/
def porMulh (a b : Word) : Word := ((a.signExtend 64 * b.signExtend 64) >>> 32).truncate 32
def porMulhu (a b : Word) : Word := ((a.zeroExtend 64 * b.zeroExtend 64) >>> 32).truncate 32

/-- Leading zeros of a, 32 for a = 0; set bits of a. -/
def porClz (a : Word) : Word := BitVec.ofNat 32 (32 - F32.bitLen a.toNat)
def porPopc (a : Word) : Word := BitVec.ofNat 32 ((List.range 32).countP fun i => a.getLsbD i)

/-- The shift amount b & 31. -/
def shAmt (b : Word) : Nat := b.toNat % 32

/-! ### Major 0x01 (R213) -/

/-- nop: the all-zero syllable. -/
def execNop (k : CoreSel) (last : Bool) (s : State) : Host.Outcome State Fault Refusal :=
  .next (sylU (.nop k last) s k last fun _ => .ok [])

/-- add (R213). -/
def execAdd (k : CoreSel) (g : Guard) (rd ra rb : SReg) (last : Bool) (s : State) : Host.Outcome State Fault Refusal :=
  .next (sylR (.add k g rd ra rb last) s k g rd ra rb last (· + ·))

/-- sub (R213). -/
def execSub (k : CoreSel) (g : Guard) (rd ra rb : SReg) (last : Bool) (s : State) : Host.Outcome State Fault Refusal :=
  .next (sylR (.sub k g rd ra rb last) s k g rd ra rb last (· - ·))

/-- and (R213). -/
def execAnd (k : CoreSel) (g : Guard) (rd ra rb : SReg) (last : Bool) (s : State) : Host.Outcome State Fault Refusal :=
  .next (sylR (.and k g rd ra rb last) s k g rd ra rb last (· &&& ·))

/-- or (R213). -/
def execOr (k : CoreSel) (g : Guard) (rd ra rb : SReg) (last : Bool) (s : State) : Host.Outcome State Fault Refusal :=
  .next (sylR (.or k g rd ra rb last) s k g rd ra rb last (· ||| ·))

/-- xor (R213). -/
def execXor (k : CoreSel) (g : Guard) (rd ra rb : SReg) (last : Bool) (s : State) : Host.Outcome State Fault Refusal :=
  .next (sylR (.xor k g rd ra rb last) s k g rd ra rb last (· ^^^ ·))

/-- andn (R213). -/
def execAndn (k : CoreSel) (g : Guard) (rd ra rb : SReg) (last : Bool) (s : State) : Host.Outcome State Fault Refusal :=
  .next (sylR (.andn k g rd ra rb last) s k g rd ra rb last (fun a b => a &&& ~~~b))

/-- sll (R213). -/
def execSll (k : CoreSel) (g : Guard) (rd ra rb : SReg) (last : Bool) (s : State) : Host.Outcome State Fault Refusal :=
  .next (sylR (.sll k g rd ra rb last) s k g rd ra rb last (fun a b => a <<< shAmt b))

/-- srl (R213). -/
def execSrl (k : CoreSel) (g : Guard) (rd ra rb : SReg) (last : Bool) (s : State) : Host.Outcome State Fault Refusal :=
  .next (sylR (.srl k g rd ra rb last) s k g rd ra rb last (fun a b => a >>> shAmt b))

/-- sra (R213). -/
def execSra (k : CoreSel) (g : Guard) (rd ra rb : SReg) (last : Bool) (s : State) : Host.Outcome State Fault Refusal :=
  .next (sylR (.sra k g rd ra rb last) s k g rd ra rb last (fun a b => a.sshiftRight (shAmt b)))

/-- slt (R213). -/
def execSlt (k : CoreSel) (g : Guard) (rd ra rb : SReg) (last : Bool) (s : State) : Host.Outcome State Fault Refusal :=
  .next (sylR (.slt k g rd ra rb last) s k g rd ra rb last (fun a b => if a.slt b then 1 else 0))

/-- sltu (R213). -/
def execSltu (k : CoreSel) (g : Guard) (rd ra rb : SReg) (last : Bool) (s : State) : Host.Outcome State Fault Refusal :=
  .next (sylR (.sltu k g rd ra rb last) s k g rd ra rb last (fun a b => if a.ult b then 1 else 0))

/-- min: signed minimum (R213). -/
def execMin (k : CoreSel) (g : Guard) (rd ra rb : SReg) (last : Bool) (s : State) : Host.Outcome State Fault Refusal :=
  .next (sylR (.min k g rd ra rb last) s k g rd ra rb last (fun a b => if a.slt b then a else b))

/-- max: signed maximum (R213). -/
def execMax (k : CoreSel) (g : Guard) (rd ra rb : SReg) (last : Bool) (s : State) : Host.Outcome State Fault Refusal :=
  .next (sylR (.max k g rd ra rb last) s k g rd ra rb last (fun a b => if a.slt b then b else a))

/-- minu (R213). -/
def execMinu (k : CoreSel) (g : Guard) (rd ra rb : SReg) (last : Bool) (s : State) : Host.Outcome State Fault Refusal :=
  .next (sylR (.minu k g rd ra rb last) s k g rd ra rb last (fun a b => if a.ult b then a else b))

/-- maxu (R213). -/
def execMaxu (k : CoreSel) (g : Guard) (rd ra rb : SReg) (last : Bool) (s : State) : Host.Outcome State Fault Refusal :=
  .next (sylR (.maxu k g rd ra rb last) s k g rd ra rb last (fun a b => if a.ult b then b else a))

/-- mul: low half (R213). -/
def execMul (k : CoreSel) (g : Guard) (rd ra rb : SReg) (last : Bool) (s : State) : Host.Outcome State Fault Refusal :=
  .next (sylR (.mul k g rd ra rb last) s k g rd ra rb last (· * ·))

/-- mulh (R213). -/
def execMulh (k : CoreSel) (g : Guard) (rd ra rb : SReg) (last : Bool) (s : State) : Host.Outcome State Fault Refusal :=
  .next (sylR (.mulh k g rd ra rb last) s k g rd ra rb last porMulh)

/-- mulhu (R213). -/
def execMulhu (k : CoreSel) (g : Guard) (rd ra rb : SReg) (last : Bool) (s : State) : Host.Outcome State Fault Refusal :=
  .next (sylR (.mulhu k g rd ra rb last) s k g rd ra rb last porMulhu)

/-- div (R213). -/
def execDiv (k : CoreSel) (g : Guard) (rd ra rb : SReg) (last : Bool) (s : State) : Host.Outcome State Fault Refusal :=
  .next (sylR (.div k g rd ra rb last) s k g rd ra rb last porDiv)

/-- divu (R213). -/
def execDivu (k : CoreSel) (g : Guard) (rd ra rb : SReg) (last : Bool) (s : State) : Host.Outcome State Fault Refusal :=
  .next (sylR (.divu k g rd ra rb last) s k g rd ra rb last porDivu)

/-- rem (R213). -/
def execRem (k : CoreSel) (g : Guard) (rd ra rb : SReg) (last : Bool) (s : State) : Host.Outcome State Fault Refusal :=
  .next (sylR (.rem k g rd ra rb last) s k g rd ra rb last porRem)

/-- remu (R213). -/
def execRemu (k : CoreSel) (g : Guard) (rd ra rb : SReg) (last : Bool) (s : State) : Host.Outcome State Fault Refusal :=
  .next (sylR (.remu k g rd ra rb last) s k g rd ra rb last porRemu)

/-- clz (R213). -/
def execClz (k : CoreSel) (g : Guard) (rd ra : SReg) (last : Bool) (s : State) : Host.Outcome State Fault Refusal :=
  .next (sylR1 (.clz k g rd ra last) s k g rd ra last porClz)

/-- popc (R213). -/
def execPopc (k : CoreSel) (g : Guard) (rd ra : SReg) (last : Bool) (s : State) : Host.Outcome State Fault Refusal :=
  .next (sylR1 (.popc k g rd ra last) s k g rd ra last porPopc)

/-! ### Immediates (R215) -/

/-- addi: sign-extended (R205, R215). -/
def execAddi (k : CoreSel) (g : Guard) (rd ra : SReg) (imm : BitVec 12) (last : Bool) (s : State) : Host.Outcome State Fault Refusal :=
  .next (sylR1 (.addi k g rd ra imm last) s k g rd ra last fun a => a + sext12 imm)

/-- andi: zero-extended (R205, R215). -/
def execAndi (k : CoreSel) (g : Guard) (rd ra : SReg) (imm : BitVec 12) (last : Bool) (s : State) : Host.Outcome State Fault Refusal :=
  .next (sylR1 (.andi k g rd ra imm last) s k g rd ra last fun a => a &&& zext12 imm)

/-- ori (R205, R215). -/
def execOri (k : CoreSel) (g : Guard) (rd ra : SReg) (imm : BitVec 12) (last : Bool) (s : State) : Host.Outcome State Fault Refusal :=
  .next (sylR1 (.ori k g rd ra imm last) s k g rd ra last fun a => a ||| zext12 imm)

/-- xori (R205, R215). -/
def execXori (k : CoreSel) (g : Guard) (rd ra : SReg) (imm : BitVec 12) (last : Bool) (s : State) : Host.Outcome State Fault Refusal :=
  .next (sylR1 (.xori k g rd ra imm last) s k g rd ra last fun a => a ^^^ zext12 imm)

/-- slli (R215). -/
def execSlli (k : CoreSel) (g : Guard) (rd ra : SReg) (sh : Fin 32) (last : Bool) (s : State) : Host.Outcome State Fault Refusal :=
  .next (sylR1 (.slli k g rd ra sh last) s k g rd ra last fun a => a <<< sh.val)

/-- srli (R215). -/
def execSrli (k : CoreSel) (g : Guard) (rd ra : SReg) (sh : Fin 32) (last : Bool) (s : State) : Host.Outcome State Fault Refusal :=
  .next (sylR1 (.srli k g rd ra sh last) s k g rd ra last fun a => a >>> sh.val)

/-- srai (R215). -/
def execSrai (k : CoreSel) (g : Guard) (rd ra : SReg) (sh : Fin 32) (last : Bool) (s : State) : Host.Outcome State Fault Refusal :=
  .next (sylR1 (.srai k g rd ra sh last) s k g rd ra last fun a => a.sshiftRight sh.val)

/-- li: d = sext(imm21) (R215). -/
def execLi (k : CoreSel) (rd : SReg) (imm : BitVec 21) (last : Bool) (s : State) : Host.Outcome State Fault Refusal :=
  .next (sylU (.li k rd imm last) s k last fun _ => .ok [.setS rd.val (sext21 imm)])

/-- lih: the high half from imm21[15:0], the low half of d kept (R215). -/
def execLih (k : CoreSel) (rd : SReg) (imm : BitVec 16) (last : Bool) (s : State) : Host.Outcome State Fault Refusal :=
  .next (sylU (.lih k rd imm last) s k last fun f => .ok [.setS rd.val ((imm.zeroExtend 32 <<< 16) ||| (f.gs rd.val &&& 0xFFFF#32))])

/-- fli: d = imm21 << 11 (R215). -/
def execFli (k : CoreSel) (rd : SReg) (imm : BitVec 21) (last : Bool) (s : State) : Host.Outcome State Fault Refusal :=
  .next (sylU (.fli k rd imm last) s k last fun _ => .ok [.setS rd.val (imm.zeroExtend 32 <<< 11)])

/-! ### Comparisons and predicate logic (R216) -/

/-- CmpEq (R216). -/
def execCmpEq (k : CoreSel) (g : Guard) (pd : PReg) (ra rb : SReg) (last : Bool) (s : State) : Host.Outcome State Fault Refusal :=
  .next (sylCmp (.cmpEq k g pd ra rb last) s k g pd ra rb last (fun a b => a == b))

/-- CmpNe (R216). -/
def execCmpNe (k : CoreSel) (g : Guard) (pd : PReg) (ra rb : SReg) (last : Bool) (s : State) : Host.Outcome State Fault Refusal :=
  .next (sylCmp (.cmpNe k g pd ra rb last) s k g pd ra rb last (fun a b => a != b))

/-- CmpLt (R216). -/
def execCmpLt (k : CoreSel) (g : Guard) (pd : PReg) (ra rb : SReg) (last : Bool) (s : State) : Host.Outcome State Fault Refusal :=
  .next (sylCmp (.cmpLt k g pd ra rb last) s k g pd ra rb last (fun a b => a.slt b))

/-- CmpGe (R216). -/
def execCmpGe (k : CoreSel) (g : Guard) (pd : PReg) (ra rb : SReg) (last : Bool) (s : State) : Host.Outcome State Fault Refusal :=
  .next (sylCmp (.cmpGe k g pd ra rb last) s k g pd ra rb last (fun a b => !a.slt b))

/-- CmpLtu (R216). -/
def execCmpLtu (k : CoreSel) (g : Guard) (pd : PReg) (ra rb : SReg) (last : Bool) (s : State) : Host.Outcome State Fault Refusal :=
  .next (sylCmp (.cmpLtu k g pd ra rb last) s k g pd ra rb last (fun a b => a.ult b))

/-- CmpGeu (R216). -/
def execCmpGeu (k : CoreSel) (g : Guard) (pd : PReg) (ra rb : SReg) (last : Bool) (s : State) : Host.Outcome State Fault Refusal :=
  .next (sylCmp (.cmpGeu k g pd ra rb last) s k g pd ra rb last (fun a b => !a.ult b))

/-- pand (R216). -/
def execPand (k : CoreSel) (g : Guard) (pd pa pb : PReg) (last : Bool) (s : State) : Host.Outcome State Fault Refusal :=
  .next (sylPred (.pand k g pd pa pb last) s k g pd pa pb last (fun a b => a && b))

/-- por (R216). -/
def execPor (k : CoreSel) (g : Guard) (pd pa pb : PReg) (last : Bool) (s : State) : Host.Outcome State Fault Refusal :=
  .next (sylPred (.por k g pd pa pb last) s k g pd pa pb last (fun a b => a || b))

/-- pxor (R216). -/
def execPxor (k : CoreSel) (g : Guard) (pd pa pb : PReg) (last : Bool) (s : State) : Host.Outcome State Fault Refusal :=
  .next (sylPred (.pxor k g pd pa pb last) s k g pd pa pb last (fun a b => a != b))

/-- pandn (R216). -/
def execPandn (k : CoreSel) (g : Guard) (pd pa pb : PReg) (last : Bool) (s : State) : Host.Outcome State Fault Refusal :=
  .next (sylPred (.pandn k g pd pa pb last) s k g pd pa pb last (fun a b => a && !b))

/-- pnot: pd = !pa (R216). -/
def execPnot (k : CoreSel) (g : Guard) (pd pa : PReg) (last : Bool) (s : State) : Host.Outcome State Fault Refusal :=
  .next (syl (.pnot k g pd pa last) s k g last fun f => .ok [.setP pd.val (!f.gp pa.val)])

/-! ### Branches, calls, loops (R217, R218) -/

/-- br: pc = pc + off21 under its guard. -/
def execBr (k : CoreSel) (g : Guard) (off : BitVec 21) (last : Bool) (s : State) : Host.Outcome State Fault Refusal :=
  .next (syl (.br k g off last) s k g last fun f => .ok [.flow (.jump (relTarget (pcMod k) f.pc off))])

/-- A push onto the return stack of 8 entries, or STACK (R201, R217). -/
def callFlow (f : RegFile) (t : Nat) : Except Nat (List Eff) :=
  if 8 ≤ f.rs.length then .error excStack else .ok [.flow (.call t)]

/-- call: br that pushes pc + 1 first. -/
def execCall (k : CoreSel) (g : Guard) (off : BitVec 21) (last : Bool) (s : State) : Host.Outcome State Fault Refusal :=
  .next (syl (.call k g off last) s k g last fun f => callFlow f (relTarget (pcMod k) f.pc off))

/-- jr: pc = s[ra], its low 12 or 17 bits. -/
def execJr (k : CoreSel) (g : Guard) (ra : SReg) (last : Bool) (s : State) : Host.Outcome State Fault Refusal :=
  .next (syl (.jr k g ra last) s k g last fun f => .ok [.flow (.jump ((f.gs ra.val).toNat % pcMod k))])

/-- callr: pushes pc + 1 and sets pc = s[ra]. -/
def execCallr (k : CoreSel) (g : Guard) (ra : SReg) (last : Bool) (s : State) : Host.Outcome State Fault Refusal :=
  .next (syl (.callr k g ra last) s k g last fun f => callFlow f ((f.gs ra.val).toNat % pcMod k))

/-- ret: pops the return stack into pc, or STACK from an empty one. -/
def execRet (k : CoreSel) (g : Guard) (last : Bool) (s : State) : Host.Outcome State Fault Refusal :=
  .next (syl (.ret k g last) s k g last fun f => if f.rs.isEmpty then .error excStack else .ok [.flow .ret])

/-- loop: n from the immediate (rs = 0) or the register; n = 0 skips the body; a fifth entry raises LOOP (R218). -/
def execLoop (k : CoreSel) (rs : SReg) (count : BitVec 12) (body : BitVec 9) (last : Bool) (s : State) :
    Host.Outcome State Fault Refusal :=
  .next (sylU (.loop k rs count body last) s k last fun f =>
    let n := if rs.val = 0 then count.toNat else (f.gs rs.val).toNat
    if n = 0 then .ok [.flow (.skip (f.pc + body.toNat + 2))]
    else if 4 ≤ f.ls.length then .error excLoop
    else .ok [.flow (.loop { start := f.pc + 1, last := f.pc + 1 + body.toNat, left := n })])

end Sys2Proof.Machine
end

