-- ==== Sys2Proof/Machine/Tick.lean ====
section
/-! DEFINITION. The passing of time: one NET cycle (R343 to R345, R359, R362), which is what the block does while no command waits
(assumption 3), and the corrections of the time shadows (R37). -/

namespace Sys2Proof.Machine

/-- A base advances by one NET cycle: its count, and what a path slew takes off (R359). -/
def tickBase (s : State) (b : Nat) : State :=
  let x := s.tbOf b
  let m := slewMove s (advance x) x.path
  s.setTb b { x with val := ((x.val : Int) + advance x - m).toNat, path := x.path - m }

/-- The residual moves towards zero over a NET cycle of the followed base (R362). -/
def tickResid (s : State) : State :=
  setTim s { s.tim with resid := s.tim.resid - slewMove s (advance (s.tbOf s.followed)) s.tim.resid }

/-- The coarse clock in PD0 counts on in every state but POR, at the rate measured on TB2 (R345, R466). -/
def tickCoarse (s : State) : State := setTim s { s.tim with coarse := s.tim.coarse + 6 * nsU + s.tim.trim }

/-- The AON shadow of TB2 counts on where TIM does not (R467). -/
def tickShadow2 (s : State) : State :=
  s.setTb 2 { s.tbOf 2 with val := (s.tbOf 2).val + 6 * nsU + s.tim.trim }

/-- One NET cycle, 6.4 ns: the clocks advance, and FTGs place the grid instants that active time reaches. -/
def netCycle (s : State) : State :=
  if s.glb.hold = 1 then s
  else if s.glb.hold ≠ 0 ∨ s.pg 8 = false then tickShadow2 (tickCoarse s)
  else
    let s1 := tickResid (tickCoarse (setTim s { s.tim with trim := (s.tbOf 2).addend }))
    let s2 := [0, 1, 2, 3].foldl tickBase s1
    if s.pg 1 then placeAll (tickShadows s2) else s2

/-- TIME_SHADOW_CORRECTION: the end of 1,024 NET cycles: TIM places each time shadow on its base as it stands at this NET edge (R37).
The first correction starts the shadows. -/
def execTimeShadowCorrection (s : State) : Host.Outcome State Fault Refusal :=
  .next <|
    if s.glb.hold ≠ 0 ∨ s.pg 8 = false ∨ s.pg 1 = false ∨ (s.tim.shadow ≠ [] ∧ s.tim.netCnt < 1024) then s
    else setTim s { s.tim with shadow := (List.range 5).map fun b => (b, shadowWord s b), netCnt := 0 }

end Sys2Proof.Machine
end

