-- ==== Sys2Proof/Machine/Dispatch.lean ====
section
/-! DEFINITION. What each command does: one arm per constructor, each a call of the command's meaning. -/

namespace Sys2Proof.Machine

/-- The effect of a command on everything but the queue. -/
def exec (i : Instr) (s : State) : Host.Outcome State Fault Refusal :=
  match i with
  | .registerWrite x a v => Sys2Proof.Machine.execRegisterWrite x a v s
  | .bar0NarrowAccess write a n => Sys2Proof.Machine.execBar0NarrowAccess write a n s
  | .wideLowRead a => Sys2Proof.Machine.execWideLowRead a s
  | .readClear a => Sys2Proof.Machine.execReadClear a s
  | .blockLock k => Sys2Proof.Machine.execBlockLock k s
  | .clockMonitorWindow c count => Sys2Proof.Machine.execClockMonitorWindow c count s
  | .timeShadowCorrection => Sys2Proof.Machine.execTimeShadowCorrection s
  | .domainPowerGood d => Sys2Proof.Machine.execDomainPowerGood d s
  | .refWindowExit g => Sys2Proof.Machine.execRefWindowExit g s
  | .refRecoveryEnd g => Sys2Proof.Machine.execRefRecoveryEnd g s
  | .refSettleEnd => Sys2Proof.Machine.execRefSettleEnd s
  | .lpmRequest v => Sys2Proof.Machine.execLpmRequest v s
  | .lpmChangeEffect => Sys2Proof.Machine.execLpmChangeEffect s
  | .overloadDetect x => Sys2Proof.Machine.execOverloadDetect x s
  | .overloadIntervalEnd m => Sys2Proof.Machine.execOverloadIntervalEnd m s
  | .neighbourTagEnd m => Sys2Proof.Machine.execNeighbourTagEnd m s
  | .gainWrite n g => Sys2Proof.Machine.execGainWrite n g s
  | .refselChange v => Sys2Proof.Machine.execRefselChange v s
  | .afeInputEnable n => Sys2Proof.Machine.execAfeInputEnable n s
  | .afeInputDisable n => Sys2Proof.Machine.execAfeInputDisable n s
  | .accumulatorSwap n => Sys2Proof.Machine.execAccumulatorSwap n s
  | .checkerSettleEnd k => Sys2Proof.Machine.execCheckerSettleEnd k s
  | .checkerDwellEnd k => Sys2Proof.Machine.execCheckerDwellEnd k s
  | .checkerRestart k => Sys2Proof.Machine.execCheckerRestart k s
  | .resamplerRelease m tick => Sys2Proof.Machine.execResamplerRelease m tick s
  | .svSampleEnter => Sys2Proof.Machine.execSvSampleEnter s
  | .dchLoadOpen => Sys2Proof.Machine.execDchLoadOpen s
  | .dchLoadData v => Sys2Proof.Machine.execDchLoadData v s
  | .dchLoadCommit => Sys2Proof.Machine.execDchLoadCommit s
  | .dchLoadCommitDone => Sys2Proof.Machine.execDchLoadCommitDone s
  | .bankRequest t b => Sys2Proof.Machine.execBankRequest t b s
  | .fadeStart t => Sys2Proof.Machine.execFadeStart t s
  | .fadeEnd t => Sys2Proof.Machine.execFadeEnd t s
  | .chainSrst n => Sys2Proof.Machine.execChainSrst n s
  | .resamplerSrst m => Sys2Proof.Machine.execResamplerSrst m s
  | .chainRunClear n => Sys2Proof.Machine.execChainRunClear n s
  | .chainRunSet n => Sys2Proof.Machine.execChainRunSet n s
  | .resamplerRunClear m => Sys2Proof.Machine.execResamplerRunClear m s
  | .resamplerRunSet m => Sys2Proof.Machine.execResamplerRunSet m s
  | .nhbWrite n v => Sys2Proof.Machine.execNhbWrite n v s
  | .nhbChangeEffect n => Sys2Proof.Machine.execNhbChangeEffect n s
  | .resamplerSourceWrite m sv src => Sys2Proof.Machine.execResamplerSourceWrite m sv src s
  | .svFrameReceive f => Sys2Proof.Machine.execSvFrameReceive f s
  | .sampleDeadline n => Sys2Proof.Machine.execSampleDeadline n s
  | .svSubConfigWrite n r v => Sys2Proof.Machine.execSvSubConfigWrite n r v s
  | .svMapWrite m en sub qty => Sys2Proof.Machine.execSvMapWrite m en sub qty s
  | .directoryAgeOut x => Sys2Proof.Machine.execDirectoryAgeOut x s
  | .directorySnapshot => Sys2Proof.Machine.execDirectorySnapshot s
  | .snapshotRequest => Sys2Proof.Machine.execSnapshotRequest s
  | .snapshotComplete => Sys2Proof.Machine.execSnapshotComplete s
  | .directoryFlush => Sys2Proof.Machine.execDirectoryFlush s
  | .directoryFetch x => Sys2Proof.Machine.execDirectoryFetch x s
  | .ftgConfigWrite g fixed fnom n => Sys2Proof.Machine.execFtgConfigWrite g fixed fnom n s
  | .ftgConfigEffect g => Sys2Proof.Machine.execFtgConfigEffect g s
  | .tickDeadline g => Sys2Proof.Machine.execTickDeadline g s
  | .gridClose g => Sys2Proof.Machine.execGridClose g s
  | .c0BudgetBreach n => Sys2Proof.Machine.execC0BudgetBreach n s
  | .bayModeRequest n j m => Sys2Proof.Machine.execBayModeRequest n j m s
  | .bayReinitDone n j => Sys2Proof.Machine.execBayReinitDone n j s
  | .settingGroupRequest n j g => Sys2Proof.Machine.execSettingGroupRequest n j g s
  | .coreBlockReset n => Sys2Proof.Machine.execCoreBlockReset n s
  | .coreReloadDone n readOk => Sys2Proof.Machine.execCoreReloadDone n readOk s
  | .nop k last => Sys2Proof.Machine.execNop k last s
  | .add k g rd ra rb last => Sys2Proof.Machine.execAdd k g rd ra rb last s
  | .sub k g rd ra rb last => Sys2Proof.Machine.execSub k g rd ra rb last s
  | .and k g rd ra rb last => Sys2Proof.Machine.execAnd k g rd ra rb last s
  | .or k g rd ra rb last => Sys2Proof.Machine.execOr k g rd ra rb last s
  | .xor k g rd ra rb last => Sys2Proof.Machine.execXor k g rd ra rb last s
  | .andn k g rd ra rb last => Sys2Proof.Machine.execAndn k g rd ra rb last s
  | .sll k g rd ra rb last => Sys2Proof.Machine.execSll k g rd ra rb last s
  | .srl k g rd ra rb last => Sys2Proof.Machine.execSrl k g rd ra rb last s
  | .sra k g rd ra rb last => Sys2Proof.Machine.execSra k g rd ra rb last s
  | .slt k g rd ra rb last => Sys2Proof.Machine.execSlt k g rd ra rb last s
  | .sltu k g rd ra rb last => Sys2Proof.Machine.execSltu k g rd ra rb last s
  | .min k g rd ra rb last => Sys2Proof.Machine.execMin k g rd ra rb last s
  | .max k g rd ra rb last => Sys2Proof.Machine.execMax k g rd ra rb last s
  | .minu k g rd ra rb last => Sys2Proof.Machine.execMinu k g rd ra rb last s
  | .maxu k g rd ra rb last => Sys2Proof.Machine.execMaxu k g rd ra rb last s
  | .mul k g rd ra rb last => Sys2Proof.Machine.execMul k g rd ra rb last s
  | .mulh k g rd ra rb last => Sys2Proof.Machine.execMulh k g rd ra rb last s
  | .mulhu k g rd ra rb last => Sys2Proof.Machine.execMulhu k g rd ra rb last s
  | .div k g rd ra rb last => Sys2Proof.Machine.execDiv k g rd ra rb last s
  | .divu k g rd ra rb last => Sys2Proof.Machine.execDivu k g rd ra rb last s
  | .rem k g rd ra rb last => Sys2Proof.Machine.execRem k g rd ra rb last s
  | .remu k g rd ra rb last => Sys2Proof.Machine.execRemu k g rd ra rb last s
  | .clz k g rd ra last => Sys2Proof.Machine.execClz k g rd ra last s
  | .popc k g rd ra last => Sys2Proof.Machine.execPopc k g rd ra last s
  | .addi k g rd ra imm last => Sys2Proof.Machine.execAddi k g rd ra imm last s
  | .andi k g rd ra imm last => Sys2Proof.Machine.execAndi k g rd ra imm last s
  | .ori k g rd ra imm last => Sys2Proof.Machine.execOri k g rd ra imm last s
  | .xori k g rd ra imm last => Sys2Proof.Machine.execXori k g rd ra imm last s
  | .slli k g rd ra sh last => Sys2Proof.Machine.execSlli k g rd ra sh last s
  | .srli k g rd ra sh last => Sys2Proof.Machine.execSrli k g rd ra sh last s
  | .srai k g rd ra sh last => Sys2Proof.Machine.execSrai k g rd ra sh last s
  | .li k rd imm last => Sys2Proof.Machine.execLi k rd imm last s
  | .lih k rd imm last => Sys2Proof.Machine.execLih k rd imm last s
  | .fli k rd imm last => Sys2Proof.Machine.execFli k rd imm last s
  | .cmpEq k g pd ra rb last => Sys2Proof.Machine.execCmpEq k g pd ra rb last s
  | .cmpNe k g pd ra rb last => Sys2Proof.Machine.execCmpNe k g pd ra rb last s
  | .cmpLt k g pd ra rb last => Sys2Proof.Machine.execCmpLt k g pd ra rb last s
  | .cmpGe k g pd ra rb last => Sys2Proof.Machine.execCmpGe k g pd ra rb last s
  | .cmpLtu k g pd ra rb last => Sys2Proof.Machine.execCmpLtu k g pd ra rb last s
  | .cmpGeu k g pd ra rb last => Sys2Proof.Machine.execCmpGeu k g pd ra rb last s
  | .pand k g pd pa pb last => Sys2Proof.Machine.execPand k g pd pa pb last s
  | .por k g pd pa pb last => Sys2Proof.Machine.execPor k g pd pa pb last s
  | .pxor k g pd pa pb last => Sys2Proof.Machine.execPxor k g pd pa pb last s
  | .pandn k g pd pa pb last => Sys2Proof.Machine.execPandn k g pd pa pb last s
  | .pnot k g pd pa last => Sys2Proof.Machine.execPnot k g pd pa last s
  | .br k g off last => Sys2Proof.Machine.execBr k g off last s
  | .call k g off last => Sys2Proof.Machine.execCall k g off last s
  | .jr k g ra last => Sys2Proof.Machine.execJr k g ra last s
  | .callr k g ra last => Sys2Proof.Machine.execCallr k g ra last s
  | .ret k g last => Sys2Proof.Machine.execRet k g last s
  | .loop k rs count body last => Sys2Proof.Machine.execLoop k rs count body last s
  | .fadd k g rd ra rb last => Sys2Proof.Machine.execFadd k g rd ra rb last s
  | .fsub k g rd ra rb last => Sys2Proof.Machine.execFsub k g rd ra rb last s
  | .fmul k g rd ra rb last => Sys2Proof.Machine.execFmul k g rd ra rb last s
  | .fdiv k g rd ra rb last => Sys2Proof.Machine.execFdiv k g rd ra rb last s
  | .fsqrt k g rd ra last => Sys2Proof.Machine.execFsqrt k g rd ra last s
  | .fabs k g rd ra last => Sys2Proof.Machine.execFabs k g rd ra last s
  | .fneg k g rd ra last => Sys2Proof.Machine.execFneg k g rd ra last s
  | .fmin k g rd ra rb last => Sys2Proof.Machine.execFmin k g rd ra rb last s
  | .fmax k g rd ra rb last => Sys2Proof.Machine.execFmax k g rd ra rb last s
  | .fcvtWs k g rd ra last => Sys2Proof.Machine.execFcvtWs k g rd ra last s
  | .fcvtSw k g rd ra last => Sys2Proof.Machine.execFcvtSw k g rd ra last s
  | .fcvtSwu k g rd ra last => Sys2Proof.Machine.execFcvtSwu k g rd ra last s
  | .fmadd k g rd ra rb last => Sys2Proof.Machine.execFmadd k g rd ra rb last s
  | .fmsub k g rd ra rb last => Sys2Proof.Machine.execFmsub k g rd ra rb last s
  | .fcmpEq k g pd ra rb last => Sys2Proof.Machine.execFcmpEq k g pd ra rb last s
  | .fcmpLt k g pd ra rb last => Sys2Proof.Machine.execFcmpLt k g pd ra rb last s
  | .fcmpLe k g pd ra rb last => Sys2Proof.Machine.execFcmpLe k g pd ra rb last s
  | .fcmpUn k g pd ra rb last => Sys2Proof.Machine.execFcmpUn k g pd ra rb last s
  | .cadd n g cd ca cb last => Sys2Proof.Machine.execCadd n g cd ca cb last s
  | .csub n g cd ca cb last => Sys2Proof.Machine.execCsub n g cd ca cb last s
  | .cmul n g cd ca cb last => Sys2Proof.Machine.execCmul n g cd ca cb last s
  | .cmulc n g cd ca cb last => Sys2Proof.Machine.execCmulc n g cd ca cb last s
  | .cconj n g cd ca last => Sys2Proof.Machine.execCconj n g cd ca last s
  | .cscale n g cd ca rb last => Sys2Proof.Machine.execCscale n g cd ca rb last s
  | .cmag2 n g rd ca last => Sys2Proof.Machine.execCmag2 n g rd ca last s
  | .cabs n g rd ca last => Sys2Proof.Machine.execCabs n g rd ca last s
  | .carg n g rd ca last => Sys2Proof.Machine.execCarg n g rd ca last s
  | .cre n g rd ca last => Sys2Proof.Machine.execCre n g rd ca last s
  | .cim n g rd ca last => Sys2Proof.Machine.execCim n g rd ca last s
  | .cpack n g cd ra rb last => Sys2Proof.Machine.execCpack n g cd ra rb last s
  | .ldW k g rd ra imm last => Sys2Proof.Machine.execLdW k g rd ra imm last s
  | .stW k g rd ra imm last => Sys2Proof.Machine.execStW k g rd ra imm last s
  | .ldC n g cd ra imm last => Sys2Proof.Machine.execLdC n g cd ra imm last s
  | .stC n g cd ra imm last => Sys2Proof.Machine.execStC n g cd ra imm last s
  | .ldg n g rd ch age last => Sys2Proof.Machine.execLdg n g rd ch age last s
  | .ldgr n g rd ra rb last => Sys2Proof.Machine.execLdgr n g rd ra rb last s
  | .vwr n g rs off last => Sys2Proof.Machine.execVwr n g rs off last s
  | .vset n g rs off last => Sys2Proof.Machine.execVset n g rs off last s
  | .vclr n g rs off last => Sys2Proof.Machine.execVclr n g rs off last s
  | .vrd n g rd off last => Sys2Proof.Machine.execVrd n g rd off last s
  | .tickEnd n g last => Sys2Proof.Machine.execTickEnd n g last s
  | .rdsr n g rd item last => Sys2Proof.Machine.execRdsr n g rd item last s
  | .phRd n g cd ch h cos last => Sys2Proof.Machine.execPhRd n g cd ch h cos last s
  | .cvStep n g rd ra x last => Sys2Proof.Machine.execCvStep n g rd ra x last s
  | .cvRd n g rd x last => Sys2Proof.Machine.execCvRd n g rd x last s
  | .cvClr n g x last => Sys2Proof.Machine.execCvClr n g x last s
  | .cvSet n g x ra last => Sys2Proof.Machine.execCvSet n g x ra last s
  | .sqSeq n g cd ca last => Sys2Proof.Machine.execSqSeq n g cd ca last s
  | .sqPwr n g cd ca cb last => Sys2Proof.Machine.execSqPwr n g cd ca cb last s
  | .sqPwr1 n g cd ca cb last => Sys2Proof.Machine.execSqPwr1 n g cd ca cb last s
  | .ild g rd w => Sys2Proof.Machine.execIld g rd w s
  | .ist g w rs => Sys2Proof.Machine.execIst g w rs s
  | .ildb g pd w b => Sys2Proof.Machine.execIldb g pd w b s
  | .istb g w b ps => Sys2Proof.Machine.execIstb g w b ps s
  | .ton g pd pa t => Sys2Proof.Machine.execTon g pd pa t s
  | .tof g pd pa t => Sys2Proof.Machine.execTof g pd pa t s
  | .tpl g pd pa t => Sys2Proof.Machine.execTpl g pd pa t s
  | .tpre g t rs => Sys2Proof.Machine.execTpre g t rs s
  | .tel g rd t => Sys2Proof.Machine.execTel g rd t s
  | .trst g t => Sys2Proof.Machine.execTrst g t s
  | .edg g pd pa e kind => Sys2Proof.Machine.execEdg g pd pa e kind s
  | .tkEnd g => Sys2Proof.Machine.execTkEnd g s
  | .tkAct g n => Sys2Proof.Machine.execTkAct g n s
  | .rdtime g rd => Sys2Proof.Machine.execRdtime g rd s
  | .bmxOr g rd ra rb => Sys2Proof.Machine.execBmxOr g rd ra rb s
  | .bmxAnd g rd ra rb => Sys2Proof.Machine.execBmxAnd g rd ra rb s
  | .minPulseEnd o => Sys2Proof.Machine.execMinPulseEnd o s
  | .readbackMismatch o => Sys2Proof.Machine.execReadbackMismatch o s
  | .binEdge x pin => Sys2Proof.Machine.execBinEdge x pin s
  | .binDebounceAccept x => Sys2Proof.Machine.execBinDebounceAccept x s
  | .binChatterThaw x => Sys2Proof.Machine.execBinChatterThaw x s
  | .binEventPop => Sys2Proof.Machine.execBinEventPop s
  | .gpoHostWrite v => Sys2Proof.Machine.execGpoHostWrite v s
  | .lockstepMismatch => Sys2Proof.Machine.execLockstepMismatch s
  | .schemeBlockReset => Sys2Proof.Machine.execSchemeBlockReset s
  | .schemeReloadDone readOk => Sys2Proof.Machine.execSchemeReloadDone readOk s
  | .majorFrameStart => Sys2Proof.Machine.execMajorFrameStart s
  | .taskReleasePeriodic t => Sys2Proof.Machine.execTaskReleasePeriodic t s
  | .tk0Release tick => Sys2Proof.Machine.execTk0Release tick s
  | .eventTaskTrigger => Sys2Proof.Machine.execEventTaskTrigger s
  | .taskHostActivate t => Sys2Proof.Machine.execTaskHostActivate t s
  | .taskDispatch => Sys2Proof.Machine.execTaskDispatch s
  | .taskBudgetExpiry => Sys2Proof.Machine.execTaskBudgetExpiry s
  | .journalRecordDurable => Sys2Proof.Machine.execJournalRecordDurable s
  | .checkpointComplete => Sys2Proof.Machine.execCheckpointComplete s
  | .exchangeRequest => Sys2Proof.Machine.execExchangeRequest s
  | .exchangeCheckDone sigOk readOk tablesOk x => Sys2Proof.Machine.execExchangeCheckDone sigOk readOk tablesOk x s
  | .exchangePreloadDone => Sys2Proof.Machine.execExchangePreloadDone s
  | .exchangeBoundary => Sys2Proof.Machine.execExchangeBoundary s
  | .exchangeQuiesceTimeout => Sys2Proof.Machine.execExchangeQuiesceTimeout s
  | .exchangeSwitch => Sys2Proof.Machine.execExchangeSwitch s
  | .exchangeCancel => Sys2Proof.Machine.execExchangeCancel s
  | .linkDown p => Sys2Proof.Machine.execLinkDown p s
  | .linkUp p => Sys2Proof.Machine.execLinkUp p s
  | .frameReceive p f => Sys2Proof.Machine.execFrameReceive p f s
  | .dupEntryExpire src seq => Sys2Proof.Machine.execDupEntryExpire src seq s
  | .supervisionSend => Sys2Proof.Machine.execSupervisionSend s
  | .egressTransmit x => Sys2Proof.Machine.execEgressTransmit x s
  | .gateEntryAdvance p => Sys2Proof.Machine.execGateEntryAdvance p s
  | .gateListSwap p => Sys2Proof.Machine.execGateListSwap p s
  | .gateListStop p => Sys2Proof.Machine.execGateListStop p s
  | .preemptVerify p ok => Sys2Proof.Machine.execPreemptVerify p ok s
  | .gooseC0WordRead => Sys2Proof.Machine.execGooseC0WordRead s
  | .gooseBuild c => Sys2Proof.Machine.execGooseBuild c s
  | .gooseRetransmit c => Sys2Proof.Machine.execGooseRetransmit c s
  | .gooseFrameReceive f => Sys2Proof.Machine.execGooseFrameReceive f s
  | .gooseExpired n => Sys2Proof.Machine.execGooseExpired n s
  | .beaconSend => Sys2Proof.Machine.execBeaconSend s
  | .beaconReceive f => Sys2Proof.Machine.execBeaconReceive f s
  | .hostTxDescriptor => Sys2Proof.Machine.execHostTxDescriptor s
  | .coarseClockLoad => Sys2Proof.Machine.execCoarseClockLoad s
  | .pdelayReqSend p => Sys2Proof.Machine.execPdelayReqSend p s
  | .pdelayReqReceive m => Sys2Proof.Machine.execPdelayReqReceive m s
  | .pdelayRespReceive p m => Sys2Proof.Machine.execPdelayRespReceive p m s
  | .syncReceive m => Sys2Proof.Machine.execSyncReceive m s
  | .followUpReceive m => Sys2Proof.Machine.execFollowUpReceive m s
  | .pathSlewEnd b => Sys2Proof.Machine.execPathSlewEnd b s
  | .syncTimeout b => Sys2Proof.Machine.execSyncTimeout b s
  | .holdoverTimeout b => Sys2Proof.Machine.execHoldoverTimeout b s
  | .masterSelect b w v => Sys2Proof.Machine.execMasterSelect b w v s
  | .timeDomainSwitch sel => Sys2Proof.Machine.execTimeDomainSwitch sel s
  | .switchSlewEnd => Sys2Proof.Machine.execSwitchSlewEnd s
  | .baseSet b => Sys2Proof.Machine.execBaseSet b s
  | .baseReacquire b => Sys2Proof.Machine.execBaseReacquire b s
  | .tpoArm k => Sys2Proof.Machine.execTpoArm k s
  | .tpoDisarm k => Sys2Proof.Machine.execTpoDisarm k s
  | .tpoEdge k => Sys2Proof.Machine.execTpoEdge k s
  | .tciCapture x rise => Sys2Proof.Machine.execTciCapture x rise s
  | .tciPop => Sys2Proof.Machine.execTciPop s
  | .ppsEdge rise => Sys2Proof.Machine.execPpsEdge rise s
  | .fastRow u => Sys2Proof.Machine.execFastRow u s
  | .recRecordEnd u => Sys2Proof.Machine.execRecRecordEnd u s
  | .recHoldoffEnd u => Sys2Proof.Machine.execRecHoldoffEnd u s
  | .recArm u edge => Sys2Proof.Machine.execRecArm u edge s
  | .recDisarm u => Sys2Proof.Machine.execRecDisarm u s
  | .recHostTrigger u => Sys2Proof.Machine.execRecHostTrigger u s
  | .recPin u v => Sys2Proof.Machine.execRecPin u v s
  | .yewEventAdmit k => Sys2Proof.Machine.execYewEventAdmit k s
  | .yewRecordWritten => Sys2Proof.Machine.execYewRecordWritten s
  | .yewScanEnd => Sys2Proof.Machine.execYewScanEnd s
  | .yewFetch => Sys2Proof.Machine.execYewFetch s
  | .yewClearGo => Sys2Proof.Machine.execYewClearGo s
  | .yewClearVerifyDone sigOk => Sys2Proof.Machine.execYewClearVerifyDone sigOk s
  | .yewZeroingDone => Sys2Proof.Machine.execYewZeroingDone s
  | .privetFaultOccurrence occs => Sys2Proof.Machine.execPrivetFaultOccurrence occs s
  | .crossingStall k => Sys2Proof.Machine.execCrossingStall k s
  | .conseqWindowClose t => Sys2Proof.Machine.execConseqWindowClose t s
  | .bayBlockClear mask => Sys2Proof.Machine.execBayBlockClear mask s
  | .safeRequest => Sys2Proof.Machine.execSafeRequest s
  | .firstFaultRearm => Sys2Proof.Machine.execFirstFaultRearm s
  | .privetSelfcheck => Sys2Proof.Machine.execPrivetSelfcheck s
  | .aliveToggle => Sys2Proof.Machine.execAliveToggle s
  | .temperatureCrossing tj => Sys2Proof.Machine.execTemperatureCrossing tj s
  | .supplyRailFault r => Sys2Proof.Machine.execSupplyRailFault r s
  | .attest => Sys2Proof.Machine.execAttest s
  | .advance => Sys2Proof.Machine.execAdvance s
  | .rekey => Sys2Proof.Machine.execRekey s
  | .rma => Sys2Proof.Machine.execRma s
  | .minver => Sys2Proof.Machine.execMinver s
  | .stage => Sys2Proof.Machine.execStage s
  | .enroll => Sys2Proof.Machine.execEnroll s
  | .keyload => Sys2Proof.Machine.execKeyload s
  | .keyclr => Sys2Proof.Machine.execKeyclr s
  | .secOperationDone ok => Sys2Proof.Machine.execSecOperationDone ok s
  | .keyRollover k => Sys2Proof.Machine.execKeyRollover k s
  | .tamperSensor k => Sys2Proof.Machine.execTamperSensor k s
  | .rstNAssert => Sys2Proof.Machine.execRstNAssert s
  | .sysreq => Sys2Proof.Machine.execSysreq s
  | .watchdogExpiry => Sys2Proof.Machine.execWatchdogExpiry s
  | .resetRelease straps => Sys2Proof.Machine.execResetRelease straps s
  | .imageVerifyDone sigOk => Sys2Proof.Machine.execImageVerifyDone sigOk s
  | .imageLoadDone readOk tablesOk x => Sys2Proof.Machine.execImageLoadDone readOk tablesOk x s
  | .standbyRequest => Sys2Proof.Machine.execStandbyRequest s
  | .hibernateRequest => Sys2Proof.Machine.execHibernateRequest s
  | .runRequest => Sys2Proof.Machine.execRunRequest s
  | .powerTransitionDone => Sys2Proof.Machine.execPowerTransitionDone s
  | .hibernateWake straps => Sys2Proof.Machine.execHibernateWake straps s
  | .twinFrameSend => Sys2Proof.Machine.execTwinFrameSend s
  | .twinIdleFrameSend => Sys2Proof.Machine.execTwinIdleFrameSend s
  | .twinFrameReceive f => Sys2Proof.Machine.execTwinFrameReceive f s
  | .twinRelearn => Sys2Proof.Machine.execTwinRelearn s
  | .twinSilentExpiry => Sys2Proof.Machine.execTwinSilentExpiry s
  | .twinWindowDeadline => Sys2Proof.Machine.execTwinWindowDeadline s
  | .twnMixed => Sys2Proof.Machine.execTwnMixed s
  | .perstAssert => Sys2Proof.Machine.execPerstAssert s
  | .hostLinkChange up speed width => Sys2Proof.Machine.execHostLinkChange up speed width s
  | .bar2Write x l => Sys2Proof.Machine.execBar2Write x l s
  | .ringIndexWrite r prod v => Sys2Proof.Machine.execRingIndexWrite r prod v s
  | .ringIrqHoldoffEnd r => Sys2Proof.Machine.execRingIrqHoldoffEnd r s
  | .mspiWriteBar0 a l crc quick => Sys2Proof.Machine.execMspiWriteBar0 a l crc quick s
  | .mspiReadBar0 a n crc quick => Sys2Proof.Machine.execMspiReadBar0 a n crc quick s
  | .mspiWriteDram a l crc quick => Sys2Proof.Machine.execMspiWriteDram a l crc quick s
  | .mspiReadDram a n crc quick => Sys2Proof.Machine.execMspiReadDram a n crc quick s
  | .mspiStatus a n crc quick => Sys2Proof.Machine.execMspiStatus a n crc quick s
  | .dramTrainingDone ok density => Sys2Proof.Machine.execDramTrainingDone ok density s
  | .porAssert => Sys2Proof.Machine.execPorAssert s
  | .supplyRailRecover r => Sys2Proof.Machine.execSupplyRailRecover r s
  | .tamperSensorClear k => Sys2Proof.Machine.execTamperSensorClear k s
  | .readbackMismatchEnd o => Sys2Proof.Machine.execReadbackMismatchEnd o s
  | .retiringKeyExpiry k => Sys2Proof.Machine.execRetiringKeyExpiry k s
  | .fastTapValue n bits cbits => Sys2Proof.Machine.execFastTapValue n bits cbits s
  | .diagnosticPortRead d => Sys2Proof.Machine.execDiagnosticPortRead d s
  | .bar2Read x n => Sys2Proof.Machine.execBar2Read x n s

end Sys2Proof.Machine
end

