-- ==== Sys2Proof/Machine/Step.lean ====
section
/-! DEFINITION. One step of the block, and where a spelled command would be put. -/

namespace Sys2Proof.Machine

/-- One step: the command at the front of the queue runs with the queue's rest; with nothing waiting, one NET cycle
passes (assumption 3). -/
def step (s : State) : Host.Outcome State Fault Refusal :=
  match s.pending with
  | [] => .next (netCycle s)
  | c :: t => exec c { s with pending := t }

/-- The command that `w` spells put at the front of the queue; no word spells one (the table gives no bits). -/
def State.withFetchWord (s : State) (nbits w : Nat) : State :=
  match Sys2Proof.decodeTableWord nbits w with
  | some c => { s with pending := c :: s.pending }
  | none => s

end Sys2Proof.Machine
end

