-- ==== Sys2Proof/Machine/Pins.lean ====
section
/-! DEFINITION. The levels of the balls that the device drives (R366, R433, R434, R524, R526), as its state has them. -/

namespace Sys2Proof.Machine

/-- The driven balls of R524. -/
inductive OutPin where
  | trip (k : Fin 48)
  | gpo (k : Fin 16)
  | tpo (k : Fin 8)
  | alive
  | failN
  | serdesTx (p : Fin 3)
  | txDisable (p : Fin 3)
  | pcieTx
  | dramResetN
  | dramCke
  | miso
  | tdo
  deriving DecidableEq, Repr

/-- What a ball shows: a level, high impedance, a transmitter at electrical idle, or what its interface drives at the time, which is no
state of the block. -/
inductive PinLevel where
  | low | high | hiZ | idle | driven
  deriving DecidableEq, Repr

def PinLevel.ofBit (b : Bool) : PinLevel := if b then .high else .low

/-- Is a ball in the state that the last column of R524 gives: its domain off, or a reset held? -/
def pinIdle (s : State) (pd : Nat) : Bool := !s.pg pd || s.glb.hold != 0

/-- The level of a ball (R524). In safe state the links and the memory go on as R432 leaves them (DEDUCED, unsafe; assumption 187);
MSPI_MISO is high impedance between transactions, and every MSPI command is whole transactions; TDO is, as no command shifts the TAP. -/
def pinLevel (s : State) (p : OutPin) : PinLevel :=
  match p with
  | .trip k => .ofBit (s.glb.hold == 0 && s.pg 1 && (padsNow s).testBit k.val)
  | .gpo k => .ofBit (s.glb.hold == 0 && (gpoTerms s).testBit k.val)
  | .tpo k => .ofBit (if s.pg 8 then tpoPin s k.val else s.on (R.TIM_TPOk_CFG_POL k.val))
  | .alive => .ofBit (alivePin s)
  | .failN => .ofBit !(failAsserted s)
  | .serdesTx _ => if pinIdle s 9 then .idle else .driven
  | .txDisable q => .ofBit (txDisable s q.val)
  | .pcieTx => if pinIdle s 11 then .idle else .driven
  | .dramResetN => if pinIdle s 11 then .low else .driven
  | .dramCke => if pinIdle s 11 then .low else .driven
  | .miso => .hiZ
  | .tdo => .hiZ

end Sys2Proof.Machine
end

