-- ==== Sys2Proof/WellFormed.lean ====
section
/-! DEFINITION. Which commands are well-formed: bounds that the operand types do not already keep. The machine gives every
command a meaning; these say what an environment sends. -/

namespace Sys2Proof

/-- An aligned 32-bit offset inside BAR0's 64 MiB (R16, R502). -/
def barOk (a : Nat) : Bool := a % 4 == 0 && decide (a < 0x4000000)

/-- A half-band stage is 1 to 5 (R107). -/
def bankOk (t : BankSel) : Bool := match t with | .hb _ st => decide (1 ≤ st.val) && decide (st.val ≤ 5) | .rs _ => true

/-- The length of a BAR2 request: 1 byte to the largest payload (R502, R507). -/
def payloadOk (n : Nat) : Bool := decide (1 ≤ n) && decide (n ≤ 256)

/-- The words of an MSPI transaction: 1 to 64 (R517). -/
def wordsOk (l : List (BitVec 32)) : Bool := decide (1 ≤ l.length) && decide (l.length ≤ 64)

/-- The checks, command by command. -/
def Instr.wf : Instr → Bool
  | .registerWrite _ a _ => barOk a
  | .bar0NarrowAccess _ a n => decide (1 ≤ n) && !(n == 4 && a % 4 == 0)
  | .wideLowRead a => barOk a
  | .readClear a => barOk a
  | .bankRequest t _ => bankOk t
  | .fadeStart t => bankOk t
  | .fadeEnd t => bankOk t
  | .yewEventAdmit k => decide (1 ≤ k)
  | .privetFaultOccurrence occs => !occs.isEmpty
  | .bar2Write _ l => payloadOk l.length
  | .bar2Read _ n => payloadOk n
  | .mspiWriteBar0 _ l _ _ => wordsOk l
  | .mspiWriteDram _ l _ _ => wordsOk l
  | _ => true

end Sys2Proof
end

