-- ==== Sys2Proof/Safety.lean ====
section
/-! DEFINITION. The terms that statements use: a command completes with a property of the state it leaves, what a command
leaves as it was, the invariant of the machine, and what one Porlon syllable does to a program that runs. -/

namespace Sys2Proof.Machine

/-- Command `c` completes in `s`: it answers a next state, and `P` holds of it. -/
def Runs (c : Instr) (s : State) (P : State → Prop) : Prop := ∃ t, exec c s = .next t ∧ P t

/-- Every byte of memory reads as before. -/
def SameBytes (s t : State) : Prop := ∀ a, memRd t.mem a = memRd s.mem a

/-- Every byte outside [lo, hi) reads as before. -/
def SameBytesBut (s t : State) (lo hi : Nat) : Prop := ∀ a, (a < lo ∨ hi ≤ a) → memRd t.mem a = memRd s.mem a

/-- Every field of a register outside the ranges [lo, hi) of BAR0 keeps its value. -/
def RegsKept (s t : State) (ranges : List (Nat × Nat)) : Prop :=
  ∀ f : Fld, f.lo < 32 → f.addr < 0x4000000 → (∀ r ∈ ranges, ¬ (r.1 ≤ f.addr ∧ f.addr < r.2)) → t.rd f = s.rd f

/-- The invariant: the memory is in its canonical form. -/
def Inv (s : State) : Prop := Memory.wf s.mem

/-! ### Porlon programs -/

/-- An effect on the program's registers or on memory alone; CYCLE writes a register. -/
def plainEff : Eff → Bool
  | .setS .. => true
  | .setP .. => true
  | .setC .. => true
  | .store .. => true
  | .flow _ => true
  | .cycle _ => true
  | _ => false

/-- An effect that stores a word. -/
def isStore : Eff → Bool
  | .store .. => true
  | _ => false

/-- The registers once a bundle's or syllable's effects have taken place, then its control transfer or, without one, the next
address with its loops counted (R209, R217, R218). -/
def regsAfter (f : RegFile) (l : List Eff) : RegFile :=
  match flowOf l with
  | some fl => (l.foldl RegFile.eff f).take fl
  | none => (l.foldl RegFile.eff f).advance

/-- The words that effects store, stored in their order. -/
def storesOf (s : State) (l : List Eff) : State :=
  l.foldl (fun a e => match e with | .store x v => a.putWord x v | _ => a) s

/-- What syllable `c` of a section asks of the pipeline beside the others of its bundle. -/
def askedWith (x : Section) (c : Instr) : List SylTime := x.syls ++ [sylTime x.rf c]

/-- The effects of a bundle that syllable `c` completes with its own effects `l`; CYCLE is the cycle in which the bundle issues (R227). -/
def bundleEffs (x : Section) (c : Instr) (l : List Eff) : List Eff :=
  (x.buf ++ l).map (withCycle (x.pipe.issueAt (askedWith x c)))

/-- The fetch at `pc` meets no uncorrectable word, and what it fetches lies in the program and holds no reserved encoding (R172, R217,
R236, R272). -/
def Fetches (s : State) (k : CoreSel) (pc : Nat) : Prop := fetchBad s k pc = false ∧ fetchOk s k pc = true

/-- A section's bundle: fetched with its first syllable (R208). -/
def Fetched (s : State) (n : Fin 8) (x : Section) : Prop := x.syls = [] → Fetches s (.pe n) x.rf.pc

/-- Syllable `c` has a place in the bundle in issue (R208), and where it completes it the class-0 budget is not used up (R185). -/
def Joins (c : Instr) (s : State) (n : Fin 8) (x : Section) (last : Bool) : Prop :=
  fitsBundle x c = true ∧
    (last = true → c0Cycles (s.core n.val) { x with syls := askedWith x c } < c0Budget)

/-- A program with registers `f` runs on a core, and syllable `c` with effects `l` finds nothing in its way: its code is fetched, it has a
place in its bundle, no earlier syllable of which has raised an exception; and where it completes its bundle (in SL every syllable does), the bundle holds
plain effects only and what follows can be fetched. -/
def Ready (c : Instr) (s : State) (k : CoreSel) (last : Bool) (f : RegFile) (l : List Eff) : Prop :=
  match k with
  | .pe n => ∃ x, (s.core n.val).run = some x ∧ x.rf = f ∧ x.exc = none ∧ Fetched s n x ∧ Joins c s n x last ∧
      (last = true → (x.buf ++ l).all plainEff = true ∧
        fetchOk s (.pe n) (regsAfter f (bundleEffs x c l)).pc = true)
  | .sl => s.rd R.SCH_STAT_STATE = 1 ∧ (∃ x, s.sch.cur = some x ∧ x.rf = f) ∧ Fetches s .sl f.pc ∧
      (l.all fun e => plainEff e && !isStore e) = true ∧ fetchOk s .sl (regsAfter f l).pc = true

/-- The state after the fetch of a syllable: the first of a bundle fetches the bundle (R208); a corrected error is reported (R172). -/
def fetchedBy (s : State) (n : Fin 8) (x : Section) : State := if x.syls = [] then fetch s (.pe n) x.rf.pc else s

/-- The state after such a syllable. On an element core it joins the bundle in issue, and a bundle's last syllable completes
it: all its effects at once (R209), class-0 words that wait going on to the GOOSE FIFO (R175). On the scheme cores it completes at
once (R210). Nothing else changes. -/
def retired (c : Instr) (s : State) (k : CoreSel) (last : Bool) (l : List Eff) : State :=
  match k with
  | .pe n => match (s.core n.val).run with
    | none => s
    | some x =>
      let y := { x with syls := askedWith x c }
      if last then
        (feedC0 (storesOf ((fetchedBy s n x).modCore n.val fun d => { d with run := some { y with buf := x.buf ++ l } })
          (bundleEffs x c l))).modCore n.val fun d => { d with run := some { y.issued with rf := regsAfter x.rf (bundleEffs x c l) } }
      else (fetchedBy s n x).modCore n.val fun d => { d with run := some { y with buf := x.buf ++ l } }
  | .sl => match s.sch.cur with
    | none => s
    | some x =>
      let s1 := fetch s .sl x.rf.pc
      { s1 with sch := { s1.sch with cur := some { x with rf := regsAfter x.rf l } } }

/-- What a syllable is: its core, its guard if it has one, whether it ends its bundle, when it raises no exception, and its
effects, from the state and the registers as they stood before the bundle. -/
structure Syl where
  k : CoreSel
  g : Option Guard
  last : Bool
  ok : State → RegFile → Prop := fun _ _ => True
  l : State → RegFile → List Eff

/-- R207: does the guard hold? -/
def guardHolds (f : RegFile) (g : Option Guard) : Bool :=
  match g with
  | none => true
  | some g => f.gp g.pr.val != g.pn

/-- The effects of a syllable: none under a false guard (R207). -/
def Syl.effects (y : Syl) (s : State) (f : RegFile) : List Eff := if guardHolds f y.g then y.l s f else []

/-- Command `c` is the syllable `y`: wherever a program is ready for it, it completes with exactly `y`'s effects. -/
def Executes (c : Instr) (y : Syl) : Prop :=
  ∀ s f, (guardHolds f y.g = true → y.ok s f) → Ready c s y.k y.last f (y.effects s f) →
    exec c s = .next (retired c s y.k y.last (y.effects s f))

/-- A program with registers `f` runs on a core and its code is fetched; syllable `c` has a place in the bundle in issue, which has no
exception yet. -/
def Running (c : Instr) (s : State) (k : CoreSel) (last : Bool) (f : RegFile) : Prop :=
  match k with
  | .pe n => ∃ x, (s.core n.val).run = some x ∧ x.rf = f ∧ x.exc = none ∧ Fetched s n x ∧ Joins c s n x last
  | .sl => s.rd R.SCH_STAT_STATE = 1 ∧ (∃ x, s.sch.cur = some x ∧ x.rf = f) ∧ Fetches s .sl f.pc

/-- The state after a syllable that raises an exception: on an element core the bundle waits, void, for its last syllable, which
takes the exception; on the scheme cores it is taken at once (R237, R238). -/
def raised (c : Instr) (s : State) (k : CoreSel) (last : Bool) (cause : Nat) : State :=
  match k with
  | .pe n => match (s.core n.val).run with
    | none => s
    | some x =>
      let y := { x with syls := askedWith x c, exc := some cause }
      if last then peException ((fetchedBy s n x).modCore n.val fun d => { d with run := some y.issued }) n.val cause
      else (fetchedBy s n x).modCore n.val fun d => { d with run := some y }
  | .sl => match s.sch.cur with
    | none => s
    | some x => slException (fetch s .sl x.rf.pc) cause

/-- Command `c`, its guard true, raises `cause` wherever `bad` holds of a running program. -/
def RaisesWhere (c : Instr) (k : CoreSel) (g : Option Guard) (last : Bool) (cause : Nat) (bad : State → RegFile → Prop) : Prop :=
  ∀ s f, Running c s k last f → guardHolds f g = true → bad s f → exec c s = .next (raised c s k last cause)

end Sys2Proof.Machine
end

