-- ==== Sys2Proof/Certificates/Slice0/Obligations.lean ====
section
/-! DEFINITION. The statements for the provers. -/

open Sys2Proof Sys2Proof.Machine

/-! ### The block as a whole -/

/-- For every command c, state s and queue q: a step of s with c at the front of its queue and q behind it is exec of c on s
with the queue q. -/
def Obligations.StepRunsFront : Prop :=
  ∀ (c : Instr) (q : List Instr) (s : State), step { s with pending := c :: q } = exec c { s with pending := q }

/-- Every command, with any operands and in any state, answers a next state: no command of the block faults or is refused, since
a command that the spec turns away (R20, R40) leaves the block running. -/
def Obligations.EveryCommandCompletes : Prop :=
  ∀ (c : Instr) (s : State), ∃ t, exec c s = .next t

/-- Whatever command runs in whatever state, the commands that wait behind it wait still, in the same order; so a step removes
exactly the front one (the queue is the model's, assumption 3). -/
def Obligations.CommandsKeepQueue : Prop :=
  (∀ (c : Instr) (s t : State), exec c s = .next t → t.pending = s.pending) ∧
    ∀ (c : Instr) (q : List Instr) (s t : State), step { s with pending := c :: q } = .next t → t.pending = q

/-- For every state whose memory is in canonical form (addresses strictly rising, no listed byte equal to what an unlisted one
reads as), whatever step is taken, with any command waiting or none, the memory of the next state is in canonical form: so
equal contents of MRAM, DRAM, core memories and planes are equal data. -/
def Obligations.StepsKeepMemory : Prop :=
  ∀ s t : State, Inv s → step s = .next t → Inv t

/-- The machine after power-on reset has its memory in canonical form and no command waiting; every byte of memory reads 0, a
design choice of assumption 2. -/
def Obligations.ResetMemory : Prop :=
  Inv State.reset ∧ State.reset.pending = [] ∧ ∀ a, memRd State.reset.mem a = 0

/-- After power-on reset every field of every register reads the reset value its register table states, no 64-bit quantity is
captured, the modes and states of the blocks are those of the tables: no power domain shows power-good but as the table of
GLB_PWRSTAT gives it, no TRIP or GPO pad is driven, no core runs a section and no fault line is pending. -/
def Obligations.ResetRegisters : Prop :=
  (∀ f : Fld, State.reset.rd f = f.rst) ∧ State.reset.wide = [] ∧ padsNow State.reset = 0 ∧ gpoTerms State.reset = 0 ∧
    (∀ n, (State.reset.core n).run = none) ∧ State.reset.prv.lines = [] ∧ State.reset.yew.fifo = []

/-! ### Registers (R16 to R21, R29) -/

/-- For a field whose value fits its width and a written word v: RW takes its bits of v; RWL takes them while its block is not
locked and keeps its value once it is (R19); RO and RC keep their value; W1C keeps exactly the bits at which v has a 0; the
LOCK field of a block (W1S) becomes 1 where v has a 1 there and stays otherwise. In each case every other field of every
register keeps its value, and so does all of memory. -/
def Obligations.AccessCodes : Prop :=
  ∀ (s : State) (f : Fld) (v : Nat) (lk : Bool), s.rd f < 2 ^ f.w → f.lo < 32 →
    let t := putField lk v s f
    (f.acc = .rw → t.rd f = v / 2 ^ f.lo % 2 ^ f.w) ∧
    (f.acc = .rwl → t.rd f = if lk then s.rd f else v / 2 ^ f.lo % 2 ^ f.w) ∧
    (f.acc = .ro ∨ f.acc = .rc → t.rd f = s.rd f) ∧
    (f.acc = .w1c → ∀ k < f.w, (t.rd f).testBit k = ((s.rd f).testBit k && !v.testBit (f.lo + k))) ∧
    (f.acc = .w1s → lockAt f.addr = some f → f.w = 1 → t.rd f = if v.testBit f.lo then 1 else s.rd f) ∧
    (∀ g : Fld, g.key ≠ f.key → t.rd g = s.rd g) ∧ t.mem = s.mem

/-- While the bus runs, for an aligned offset below 16 MiB in a powered block: a write by an initiator with the right to it (the
load engine apart) to a register whose writing starts nothing else changes the fields of that register by their access codes
and, of what no field holds, only Privet's copies of what it writes; where no register is listed at all nothing changes, nor at a gap
whoever writes; the host's write of a request bit, a command, a mode, a group, a mapping or a data register named here does what the
command of its row does; the host has no right to a register all of whose fields are read-only or locked; and a write without the right
changes no field but the access monitor's: with none captured since the last clear, GLB_ACC_INIT and GLB_ACC_ADDR record the initiator, the
direction and the offset, COUNT rises unless it is full, and one event ACCESS_DENIED is logged. -/
def Obligations.RegisterWrites : Prop :=
  (∀ (s : State) (i : Ini) (a : Nat) (v : BitVec 32), busUp s = true → a % 4 = 0 → a < 0x1000000 → s.pg (regPd a) = true →
    mayWriteReg s i a = true → i ≠ .load → wrSpecial s a v.toNat = none →
    Runs (.registerWrite i a v) s fun t => t = prvWritten (putWord s a v.toNat) a ∧ SameBytes s t ∧ (findReg regTable a = none → t = s)) ∧
  (∀ (s : State) (a v : Nat) (c : Instr), busUp s = true → s.pg (regPd a) = true → mayWriteReg s .hst a = true →
    (a, v, c) ∈ [(0x8, 0x80000000, Instr.sysreq), (0x100020, 0x80000000, .firstFaultRearm), (0x200028, 1, .yewClearGo),
      (0x300C4C, 1, .tciPop), (0x70000C, 1, .dchLoadOpen), (0x70000C, 2, .dchLoadCommit), (0xA00044, 1, .binEventPop),
      (0xD0001C, 1, .attest), (0xD0001C, 3, .stage), (0xD0001C, 4, .enroll), (0xD0001C, 5, .keyload), (0xD0001C, 6, .keyclr)] →
    exec (.registerWrite .hst a (BitVec.ofNat 32 v)) s = exec c s) ∧
  (∀ (s : State) (n : Fin 8) (j : Fin 3) (m : Fin 8) (k : Fin 16) (u : Fin 4) (p : Fin 192) (q : Fin 48), busUp s = true →
    s.pg (2 + n.val / 2) = true → s.pg 1 = true → s.pg 6 = true → s.pg 8 = true →
    (mayWriteReg s .hst (0x900100 + 0x10000 * n.val + 0x20 * j.val) = true →
      exec (.registerWrite .hst (0x900100 + 0x10000 * n.val + 0x20 * j.val) (BitVec.ofNat 32 m.val)) s = exec (.bayModeRequest n j m) s) ∧
    (mayWriteReg s .hst (0x900104 + 0x10000 * n.val + 0x20 * j.val) = true →
      exec (.registerWrite .hst (0x900104 + 0x10000 * n.val + 0x20 * j.val) (BitVec.ofNat 32 m.val)) s =
        exec (.settingGroupRequest n j m) (putField false m.val s (R.ELCn_BAYj_SG_SG_REFUSED n.val j.val))) ∧
    (mayWriteReg s .hst (0xB01018 + 0x20 * k.val) = true →
      exec (.registerWrite .hst (0xB01018 + 0x20 * k.val) 1) s = exec (.taskHostActivate k) s) ∧
    (mayWriteReg s .hst (0x300104 + 0x40 * u.val) = true →
      exec (.registerWrite .hst (0x300104 + 0x40 * u.val) 0x80000000) s = exec (.baseReacquire u) s ∧
      exec (.registerWrite .hst (0x300104 + 0x40 * u.val) 0x40000000) s = exec (.baseSet u) s) ∧
    (mayWriteReg s .hst (0x300804 + 0x20 * m.val) = true →
      exec (.registerWrite .hst (0x300804 + 0x20 * m.val) 0x80000000) s = exec (.tpoArm m) s ∧
      exec (.registerWrite .hst (0x300804 + 0x20 * m.val) 0x40000000) s = exec (.tpoDisarm m) s) ∧
    (mayWriteReg s .hst (0xC00100 + 0x100 * u.val) = true →
      exec (.registerWrite .hst (0xC00100 + 0x100 * u.val) 0x40000000) s = exec (.recDisarm u) s ∧
      exec (.registerWrite .hst (0xC00100 + 0x100 * u.val) 0x20000000) s = exec (.recHostTrigger u) s) ∧
    (mayWriteReg s .hst (0x701000 + 0x40 * q.val) = true →
      exec (.registerWrite .hst (0x701000 + 0x40 * q.val) 0x80000000) s = exec (.chainRunSet q) s ∧
      exec (.registerWrite .hst (0x701000 + 0x40 * q.val) 0) s = exec (.chainRunClear q) s) ∧
    (mayWriteReg s .hst (0x704000 + 0x40 * p.val) = true →
      exec (.registerWrite .hst (0x704000 + 0x40 * p.val) 0x80000000) s = exec (.resamplerRunSet p) s ∧
      exec (.registerWrite .hst (0x704000 + 0x40 * p.val) 0) s = exec (.resamplerRunClear p) s)) ∧
  (∀ (s : State) (v : BitVec 32), busUp s = true → s.pg 0 = true → s.pg 1 = true → s.pg 8 = true →
    (mayWriteReg s .hst 0x14 = true → v.toNat / 2 ^ 30 < 3 →
      exec (.registerWrite .hst 0x14 v) s = exec (if v.toNat / 2 ^ 30 = 0 then .runRequest else if v.toNat / 2 ^ 30 = 1 then .standbyRequest
        else .hibernateRequest) (putField false v.toNat s R.GLB_PWR_REFUSED_STK)) ∧
    (mayWriteReg s .hst 0x200044 = true → v.getLsbD 31 = true →
      exec (.registerWrite .hst 0x200044 v) s = exec .yewFetch (putWord s 0x200044 v.toNat)) ∧
    (mayWriteReg s .hst 0x700008 = true → exec (.registerWrite .hst 0x700008 v) s = exec (.dchLoadData v) s) ∧
    (mayWriteReg s .hst 0x100014 = true → exec (.registerWrite .hst 0x100014 v) s = exec (.bayBlockClear (BitVec.ofNat 24 v.toNat)) s) ∧
    (mayWriteReg s .hst 0xA0001C = true → exec (.registerWrite .hst 0xA0001C v) s = exec (.gpoHostWrite (BitVec.ofNat 16 v.toNat)) s) ∧
    (∀ b : Fin 4, mayWriteReg s .hst (0x300130 + 0x40 * b.val) = true →
      exec (.registerWrite .hst (0x300130 + 0x40 * b.val) v) s = exec (.masterSelect b .midLo v) s) ∧
    (∀ n : Fin 64, mayWriteReg s .hst (0x501000 + 0x40 * n.val) = true →
      exec (.registerWrite .hst (0x501000 + 0x40 * n.val) v) s = exec (.svSubConfigWrite n .cfg v) s) ∧
    (∀ m : Fin 192, mayWriteReg s .hst (0x504000 + 4 * m.val) = true →
      exec (.registerWrite .hst (0x504000 + 4 * m.val) v) s = exec (.svMapWrite m (v.getLsbD 31) (ix 64 (v.toNat / 0x10000)) (ix 32 v.toNat)) s)) ∧
  (∀ (s : State) (i : Ini) (a : Nat) (v : BitVec 32), busUp s = true → a % 4 = 0 → isGap a = true → exec (.registerWrite i a v) s = .next s) ∧
  (∀ (s : State) (a : Nat) (l : List Fld), findReg regTable a = some l → hostIndex a = false →
    (∀ f ∈ l, f.acc = .ro ∨ f.acc = .rc ∨ (f.acc = .rwl ∧ locked s a = true)) → mayWriteReg s .hst a = false) ∧
  (∀ (s : State) (i : Ini) (a : Nat) (v : BitVec 32), busUp s = true → a % 4 = 0 → a < 0x4000000 → isGap a = false →
    mayWriteReg s i a = false →
    Runs (.registerWrite i a v) s fun t =>
      (s.on R.GLB_ACC_INIT_VALID = false →
        t.on R.GLB_ACC_INIT_VALID = true ∧ t.on R.GLB_ACC_INIT_WRITE = true ∧ t.rd R.GLB_ACC_INIT_INIT = iniNo i ∧
          t.rd R.GLB_ACC_ADDR_ADDR = a) ∧
      (s.on R.GLB_ACC_INIT_VALID = true →
        t.rd R.GLB_ACC_INIT_INIT = s.rd R.GLB_ACC_INIT_INIT ∧ t.rd R.GLB_ACC_ADDR_ADDR = s.rd R.GLB_ACC_ADDR_ADDR) ∧
      t.rd R.GLB_ACC_INIT_COUNT = min (s.rd R.GLB_ACC_INIT_COUNT + 1) 65535 ∧
      (∃ e, t.yew.cross = s.yew.cross ++ [e] ∧ e.src = 0 ∧ e.code = 1 ∧ e.payload = padTo 24 (leBytes 4 (iniNo i))) ∧
      RegsKept s t [(R.GLB_ACC_INIT_COUNT.addr, R.GLB_ACC_INIT_COUNT.addr + 4),
        (R.GLB_ACC_ADDR_ADDR.addr, R.GLB_ACC_ADDR_ADDR.addr + 4)] ∧ SameBytes s t)

/-- While the bus runs: an access of n bytes that is neither an aligned 32-bit one nor an aligned 64-bit one to the MSI-X table
changes nothing as a write and answers n zero bytes as a read; an aligned 64-bit one there writes its two words, the low one first, or
reads them; writing LOCK of a powered block sets it, changes nothing else,
and from then on a word written to an RWL field of that block leaves the field as it is. -/
def Obligations.NarrowAccessAndLock : Prop :=
  (∀ (s : State) (w : Option (BitVec 64)) (a n : Nat), busUp s = true → ¬ (n = 4 ∧ a % 4 = 0) →
    ¬ (n = 8 ∧ a % 8 = 0 ∧ 0xFC0000 ≤ a ∧ a < 0xFC1008) →
    exec (.bar0NarrowAccess w a n) s =
      .next (if w.isSome then s else { s with hst := { s.hst with rdata := List.replicate n 0, poison := false } })) ∧
  (∀ (s : State) (a : Nat), busUp s = true → a % 8 = 0 → 0xFC0000 ≤ a → a < 0xFC1008 →
    (∀ v : BitVec 64, exec (.bar0NarrowAccess (some v) a 8) s =
      .next (busWrite (busWrite s .hst a (v.toNat % 2 ^ 32)) .hst (a + 4) (v.toNat / 2 ^ 32))) ∧
    ((s.wide.any fun e => e.1 == a || e.1 == a + 4) = false →
      Runs (.bar0NarrowAccess none a 8) s fun t => t.hst.rdata = leBytes 4 (peek s a) ++ leBytes 4 (peek s (a + 4)) ∧ SameBytes s t)) ∧
  (∀ (s : State) (k : Fin 23) (f : Fld), lockFlds[k.val]? = some f → busUp s = true → s.pg (regPd f.addr) = true →
    Runs (.blockLock k) s fun t => t = s.wr f 1 ∧ t.on f = true ∧
      ∀ g : Fld, g.acc = .rwl → lockAt (ctlAddr g.addr) = some f → ∀ v, putField (locked t g.addr) v t g = t)

/-- A host read of the low register of a 64-bit quantity returns the low word; and in whatever state the machine has come to with
that capture still held, the next read of the high register returns the high word as it was at the first read, and uses up
the capture. No read changes a byte of memory. -/
def Obligations.WideReads : Prop :=
  ∀ (s : State) (a : Nat), busUp s = true → a % 4 = 0 → lowOf64 a = true → (s.wide.any fun e => e.1 == a) = false →
    Runs (.wideLowRead a) s fun t => t.hst.rdata = leBytes 4 (peek s a) ∧ SameBytes s t ∧
      ∀ u : State, busUp u = true → u.wide = t.wide →
        Runs (.wideLowRead (a + 4)) u fun w => w.hst.rdata = leBytes 4 (peek s (a + 4)) ∧ w.wide = mdel u.wide (a + 4) ∧
          RegsKept u w [] ∧ SameBytes u w

/-- A host read of a register outside the planes that has RC fields answers the register's word and leaves each RC field of it at
its reset value; every field of every other register, and all of memory, stay as they were. -/
def Obligations.ReadClears : Prop :=
  ∀ (s : State) (a : Nat) (l : List Fld), busUp s = true → a % 4 = 0 → a < 0x1000000 →
    (s.wide.any fun e => e.1 == a) = false → ¬ (0x800000 ≤ a ∧ inPlanes (a - 0x800000) = true) →
    findReg regTable a = some l → (l.any fun f => f.acc == .rc) = true →
    Runs (.readClear a) s fun t => t.hst.rdata = leBytes 4 (peek s a) ∧ (∀ f ∈ l, f.acc = .rc → t.rd f = f.rst) ∧
      (∀ f ∈ l, f.acc ≠ .rc → t.rd f = s.rd f) ∧ RegsKept s t [(a, a + 4)] ∧ SameBytes s t

/-- While the bus runs and the domain is powered, a diagnostic read of an aligned word inside the data or element-state memory of a
core that holds no error answers its four bytes and changes nothing else; of a word with an uncorrectable error it puts the
core into FAILED with the memory's cause; and a read of a word of Espalier's planes with good parity answers that word. No
read changes a byte of memory. -/
def Obligations.DiagnosticReads : Prop :=
  (∀ (s : State) (n : Fin 8) (o : Nat), busUp s = true → s.pg (2 + n.val / 2) = true → o % 4 = 0 → o < 0x20000 →
    s.eccBad.contains (ecDataBase n.val + o) = false → s.eccSoft.contains (ecDataBase n.val + o) = false →
    exec (.diagnosticPortRead (.ecData n o)) s = .next (showRead s (s.rdMem (ecDataBase n.val + o) 4))) ∧
  (∀ (s : State) (n : Fin 8) (o : Nat), busUp s = true → s.pg (2 + n.val / 2) = true → o % 4 = 0 → o < 0x8000 →
    s.eccBad.contains (ecElemBase n.val + o) = false → s.eccSoft.contains (ecElemBase n.val + o) = false →
    exec (.diagnosticPortRead (.ecElem n o)) s = .next (showRead s (s.rdMem (ecElemBase n.val + o) 4))) ∧
  (∀ (s : State) (n : Fin 8) (o : Nat), busUp s = true → s.pg (2 + n.val / 2) = true → o % 4 = 0 → o < 0x20000 →
    s.eccBad.contains (ecDataBase n.val + o) = true →
    Runs (.diagnosticPortRead (.ecData n o)) s fun t =>
      t.rd (R.ELCn_STAT_STATE n.val) = 3 ∧ t.rd (R.ELCn_STAT_CAUSE n.val) = 2 ∧ (t.core n.val).run = none ∧ SameBytes s t) ∧
  (∀ (s : State) (o : Nat), busUp s = true → s.pg 1 = true → o % 4 = 0 → inPlanes o = true → s.parBad = [] →
    (s.wide.any fun e => e.1 == 0x800000 + o) = false →
    Runs (.diagnosticPortRead (.esp o)) s fun t => t.hst.rdata = leBytes 4 (peek s (0x800000 + o)) ∧ SameBytes s t)

/-! ### Porlon: integer, predicate and immediate syllables (R201 to R216) -/

namespace Sys2Proof.Spec

/-- A truth value as a word. -/
def flag (b : Prop) [Decidable b] : Word := if b then 1#32 else 0#32

/-- A syllable d = op(a, b) on scalar registers. -/
def reg2 (k : CoreSel) (g : Guard) (rd ra rb : SReg) (last : Bool) (op : Word → Word → Word) : Option Syl :=
  some { k := k, g := some g, last := last, l := fun _ f => [.setS rd.val (op (f.gs ra.val) (f.gs rb.val))] }

/-- A syllable d = op(a). -/
def reg1 (k : CoreSel) (g : Guard) (rd ra : SReg) (last : Bool) (op : Word → Word) : Option Syl :=
  some { k := k, g := some g, last := last, l := fun _ f => [.setS rd.val (op (f.gs ra.val))] }

/-- The register-register operations of major 0x01 (R213), the exceptional operands of division as R214 has them. -/
def intReg (i : Instr) : Option Syl :=
  match i with
  | .nop k last => some { k := k, g := none, last := last, l := fun _ _ => [] }
  | .add k g rd ra rb last => reg2 k g rd ra rb last fun a b => BitVec.ofNat 32 ((a.toNat + b.toNat) % 2 ^ 32)
  | .sub k g rd ra rb last => reg2 k g rd ra rb last fun a b => BitVec.ofInt 32 ((a.toNat : Int) - b.toNat)
  | .and k g rd ra rb last => reg2 k g rd ra rb last fun a b => BitVec.ofNat 32 (a.toNat &&& b.toNat)
  | .or k g rd ra rb last => reg2 k g rd ra rb last fun a b => BitVec.ofNat 32 (a.toNat ||| b.toNat)
  | .xor k g rd ra rb last => reg2 k g rd ra rb last fun a b => BitVec.ofNat 32 (a.toNat ^^^ b.toNat)
  | .andn k g rd ra rb last => reg2 k g rd ra rb last fun a b => BitVec.ofNat 32 (a.toNat &&& (2 ^ 32 - 1 - b.toNat))
  | .sll k g rd ra rb last => reg2 k g rd ra rb last fun a b => BitVec.ofNat 32 (a.toNat * 2 ^ (b.toNat % 32))
  | .srl k g rd ra rb last => reg2 k g rd ra rb last fun a b => BitVec.ofNat 32 (a.toNat / 2 ^ (b.toNat % 32))
  | .sra k g rd ra rb last => reg2 k g rd ra rb last fun a b => BitVec.ofInt 32 (a.toInt / 2 ^ (b.toNat % 32))
  | .slt k g rd ra rb last => reg2 k g rd ra rb last fun a b => flag (a.toInt < b.toInt)
  | .sltu k g rd ra rb last => reg2 k g rd ra rb last fun a b => flag (a.toNat < b.toNat)
  | .min k g rd ra rb last => reg2 k g rd ra rb last fun a b => BitVec.ofInt 32 (Min.min a.toInt b.toInt)
  | .max k g rd ra rb last => reg2 k g rd ra rb last fun a b => BitVec.ofInt 32 (Max.max a.toInt b.toInt)
  | .minu k g rd ra rb last => reg2 k g rd ra rb last fun a b => BitVec.ofNat 32 (Min.min a.toNat b.toNat)
  | .maxu k g rd ra rb last => reg2 k g rd ra rb last fun a b => BitVec.ofNat 32 (Max.max a.toNat b.toNat)
  | .mul k g rd ra rb last => reg2 k g rd ra rb last fun a b => BitVec.ofNat 32 (a.toNat * b.toNat % 2 ^ 32)
  | .mulh k g rd ra rb last => reg2 k g rd ra rb last fun a b => BitVec.ofInt 32 (a.toInt * b.toInt / 2 ^ 32)
  | .mulhu k g rd ra rb last => reg2 k g rd ra rb last fun a b => BitVec.ofNat 32 (a.toNat * b.toNat / 2 ^ 32)
  | .div k g rd ra rb last => reg2 k g rd ra rb last fun a b =>
      if b.toNat = 0 then 0xFFFFFFFF#32 else if a = 0x80000000#32 ∧ b = 0xFFFFFFFF#32 then 0x80000000#32
      else BitVec.ofInt 32 (a.toInt.tdiv b.toInt)
  | .divu k g rd ra rb last => reg2 k g rd ra rb last fun a b =>
      if b.toNat = 0 then 0xFFFFFFFF#32 else BitVec.ofNat 32 (a.toNat / b.toNat)
  | .rem k g rd ra rb last => reg2 k g rd ra rb last fun a b =>
      if b.toNat = 0 then a else if a = 0x80000000#32 ∧ b = 0xFFFFFFFF#32 then 0#32 else BitVec.ofInt 32 (a.toInt.tmod b.toInt)
  | .remu k g rd ra rb last => reg2 k g rd ra rb last fun a b =>
      if b.toNat = 0 then a else BitVec.ofNat 32 (a.toNat % b.toNat)
  | .clz k g rd ra last => reg1 k g rd ra last fun a => BitVec.ofNat 32 ((List.range 32).countP fun j => decide (a.toNat < 2 ^ j))
  | .popc k g rd ra last => reg1 k g rd ra last fun a => BitVec.ofNat 32 ((List.range 32).countP fun j => a.toNat.testBit j)
  | _ => none

/-- The immediate and shift majors (R205, R215). -/
def intImm (i : Instr) : Option Syl :=
  match i with
  | .addi k g rd ra imm last => reg1 k g rd ra last fun a => BitVec.ofInt 32 (a.toInt + imm.toInt)
  | .andi k g rd ra imm last => reg1 k g rd ra last fun a => BitVec.ofNat 32 (a.toNat &&& imm.toNat)
  | .ori k g rd ra imm last => reg1 k g rd ra last fun a => BitVec.ofNat 32 (a.toNat ||| imm.toNat)
  | .xori k g rd ra imm last => reg1 k g rd ra last fun a => BitVec.ofNat 32 (a.toNat ^^^ imm.toNat)
  | .slli k g rd ra sh last => reg1 k g rd ra last fun a => BitVec.ofNat 32 (a.toNat * 2 ^ sh.val)
  | .srli k g rd ra sh last => reg1 k g rd ra last fun a => BitVec.ofNat 32 (a.toNat / 2 ^ sh.val)
  | .srai k g rd ra sh last => reg1 k g rd ra last fun a => BitVec.ofInt 32 (a.toInt / 2 ^ sh.val)
  | .li k rd imm last => some { k := k, g := none, last := last, l := fun _ _ => [.setS rd.val (BitVec.ofInt 32 imm.toInt)] }
  | .lih k rd imm last => some
      { k := k, g := none, last := last,
        l := fun _ f => [.setS rd.val (BitVec.ofNat 32 (imm.toNat * 2 ^ 16 + (f.gs rd.val).toNat % 2 ^ 16))] }
  | .fli k rd imm last => some
      { k := k, g := none, last := last, l := fun _ _ => [.setS rd.val (BitVec.ofNat 32 (imm.toNat * 2 ^ 11))] }
  | _ => none

/-- A comparison of two scalars into a predicate. -/
def cmp2 (k : CoreSel) (g : Guard) (pd : PReg) (ra rb : SReg) (last : Bool) (op : Word → Word → Bool) : Option Syl :=
  some { k := k, g := some g, last := last, l := fun _ f => [.setP pd.val (op (f.gs ra.val) (f.gs rb.val))] }

/-- A combination of two predicates. -/
def pred2 (k : CoreSel) (g : Guard) (pd pa pb : PReg) (last : Bool) (op : Bool → Bool → Bool) : Option Syl :=
  some { k := k, g := some g, last := last, l := fun _ f => [.setP pd.val (op (f.gp pa.val) (f.gp pb.val))] }

/-- Comparisons and predicate logic (R216). -/
def predOps (i : Instr) : Option Syl :=
  match i with
  | .cmpEq k g pd ra rb last => cmp2 k g pd ra rb last fun a b => decide (a.toNat = b.toNat)
  | .cmpNe k g pd ra rb last => cmp2 k g pd ra rb last fun a b => decide (a.toNat ≠ b.toNat)
  | .cmpLt k g pd ra rb last => cmp2 k g pd ra rb last fun a b => decide (a.toInt < b.toInt)
  | .cmpGe k g pd ra rb last => cmp2 k g pd ra rb last fun a b => decide (b.toInt ≤ a.toInt)
  | .cmpLtu k g pd ra rb last => cmp2 k g pd ra rb last fun a b => decide (a.toNat < b.toNat)
  | .cmpGeu k g pd ra rb last => cmp2 k g pd ra rb last fun a b => decide (b.toNat ≤ a.toNat)
  | .pand k g pd pa pb last => pred2 k g pd pa pb last fun a b => a && b
  | .por k g pd pa pb last => pred2 k g pd pa pb last fun a b => a || b
  | .pxor k g pd pa pb last => pred2 k g pd pa pb last fun a b => a != b
  | .pandn k g pd pa pb last => pred2 k g pd pa pb last fun a b => a && !b
  | .pnot k g pd pa last => some { k := k, g := some g, last := last, l := fun _ f => [.setP pd.val (!f.gp pa.val)] }
  | _ => none

end Sys2Proof.Spec

/-- In every register file: s0 reads 0 and p0 reads true; a write of s[r], p[r] or c[r] is read back from that register, but for s0
and p0, whose writes change nothing; every other register of every kind, the stacks and the pc keep their values; and at the
start of a section every register reads 0, false or (0.0, 0.0), p0 apart. -/
def Obligations.RegisterFile : Prop :=
  ∀ (f : RegFile) (r q : Nat) (v : Word) (b : Bool) (z : Word × Word),
    f.gs 0 = 0 ∧ f.gp 0 = true ∧
    (f.eff (.setS r v)).gs q = (if q = r ∧ q ≠ 0 then v else f.gs q) ∧
    (f.eff (.setP r b)).gp q = (if q = r ∧ q ≠ 0 then b else f.gp q) ∧
    (f.eff (.setC r z)).gc q = (if q = r then z else f.gc q) ∧
    (f.eff (.setS r v)).p = f.p ∧ (f.eff (.setS r v)).c = f.c ∧ (f.eff (.setP r b)).s = f.s ∧ (f.eff (.setP r b)).c = f.c ∧
    (f.eff (.setC r z)).s = f.s ∧ (f.eff (.setC r z)).p = f.p ∧
    (∀ e ∈ [Eff.setS r v, Eff.setP r b, Eff.setC r z],
      (f.eff e).ls = f.ls ∧ (f.eff e).rs = f.rs ∧ (f.eff e).pc = f.pc) ∧
    ({} : RegFile).gs q = 0 ∧ ({} : RegFile).gp q = decide (q = 0) ∧ ({} : RegFile).gc q = (0, 0)

/-- Each of nop and the twenty-four operations of major 0x01, on an element core or the scheme cores, completes wherever a program is
ready for it: s[rd] takes exactly the stated result of s[ra] and s[rb] as they stood before the bundle, division by zero and
the signed overflow included (a write of s0 is discarded); under a false guard nothing is written; the program goes on, and no
other register, memory byte or part of the state changes. -/
def Obligations.IntegerResults : Prop := ∀ c y, Sys2Proof.Spec.intReg c = some y → Executes c y

/-- addi adds the sign-extended immediate; andi, ori and xori apply theirs zero-extended; slli, srli and srai shift by sh; li loads the
sign-extended immediate, lih the high half over the low half of d, fli the upper 21 bits of a constant: each completes wherever
a program is ready for it and changes nothing else; li then lih make every 32-bit constant. -/
def Obligations.ImmediateResults : Prop :=
  (∀ c y, Sys2Proof.Spec.intImm c = some y → Executes c y) ∧
    ∀ w : Word, ∃ i : BitVec 21, ∃ h : BitVec 16,
      BitVec.ofNat 32 (h.toNat * 2 ^ 16 + (BitVec.ofInt 32 i.toInt).toNat % 2 ^ 16) = w

/-- The six comparisons write pd from the signed or unsigned order or equality of s[ra] and s[rb]; pand, por, pxor, pandn and pnot
from p[pa] and p[pb]: each completes wherever a program is ready for it and changes nothing else. -/
def Obligations.PredicateResults : Prop := ∀ c y, Sys2Proof.Spec.predOps c = some y → Executes c y

/-! ### Porlon: control flow, binary32, complex, memory, windows, accelerators (R217 to R228, R236 to R250) -/

namespace Sys2Proof.Spec

/-- The pc a relative transfer leads to, on a core whose pc has `m` values (R205, R217). -/
def pcOff (m pc : Nat) (off : BitVec 21) : Nat := (((pc : Int) + off.toInt) % (m : Int)).toNat

/-- How many values the pc has: 12 bits on an element core, 17 on the scheme cores (R201). -/
def pcCount (k : CoreSel) : Nat := match k with | .pe _ => 4096 | .sl => 131072

/-- The iteration count of a loop syllable (R218). -/
def loopCount (f : RegFile) (rs : SReg) (count : BitVec 12) : Nat := if rs.val = 0 then count.toNat else (f.gs rs.val).toNat

/-- The loop entries that a transfer to `t` leaves, the innermost first: those outside the outermost one whose range does not hold `t`. -/
def loopsLeft (l : List LoopEnt) (t : Nat) : List LoopEnt :=
  (l.reverse.takeWhile fun e => decide (e.start ≤ t) && decide (t ≤ e.last)).reverse

/-- Control transfers where they raise nothing (R217, R218). -/
def flowOps (i : Instr) : Option Syl :=
  match i with
  | .br k g off last => some { k := k, g := some g, last := last, l := fun _ f => [.flow (.jump (pcOff (pcCount k) f.pc off))] }
  | .call k g off last => some
      { k := k, g := some g, last := last, ok := fun _ f => f.rs.length < 8,
        l := fun _ f => [.flow (.call (pcOff (pcCount k) f.pc off))] }
  | .jr k g ra last => some
      { k := k, g := some g, last := last, l := fun _ f => [.flow (.jump ((f.gs ra.val).toNat % pcCount k))] }
  | .callr k g ra last => some
      { k := k, g := some g, last := last, ok := fun _ f => f.rs.length < 8,
        l := fun _ f => [.flow (.call ((f.gs ra.val).toNat % pcCount k))] }
  | .ret k g last => some { k := k, g := some g, last := last, ok := fun _ f => f.rs ≠ [], l := fun _ _ => [.flow .ret] }
  | .loop k rs count body last => some
      { k := k, g := none, last := last, ok := fun _ f => loopCount f rs count = 0 ∨ f.ls.length < 4,
        l := fun _ f => [.flow (if loopCount f rs count = 0 then .skip (f.pc + body.toNat + 2)
          else .loop { start := f.pc + 1, last := f.pc + 1 + body.toNat, left := loopCount f rs count })] }
  | _ => none

/-- Binary32 syllables (R219): the operations of `F32`, each rounded once. -/
def f32Ops (i : Instr) : Option Syl :=
  match i with
  | .fadd k g rd ra rb last => reg2 k g rd ra rb last F32.add
  | .fsub k g rd ra rb last => reg2 k g rd ra rb last F32.sub
  | .fmul k g rd ra rb last => reg2 k g rd ra rb last F32.mul
  | .fdiv k g rd ra rb last => reg2 k g rd ra rb last F32.div
  | .fsqrt k g rd ra last => reg1 k g rd ra last F32.sqrt
  | .fabs k g rd ra last => reg1 k g rd ra last fun a => BitVec.ofNat 32 (a.toNat % 2 ^ 31)
  | .fneg k g rd ra last => reg1 k g rd ra last fun a => BitVec.ofNat 32 (a.toNat + 2 ^ 31)
  | .fmin k g rd ra rb last => reg2 k g rd ra rb last F32.min
  | .fmax k g rd ra rb last => reg2 k g rd ra rb last F32.max
  | .fcvtWs k g rd ra last => reg1 k g rd ra last F32.toI32
  | .fcvtSw k g rd ra last => reg1 k g rd ra last fun a => F32.roundInt a.toInt 0 false
  | .fcvtSwu k g rd ra last => reg1 k g rd ra last fun a => F32.roundInt a.toNat 0 false
  | .fmadd k g rd ra rb last => some
      { k := k, g := some g, last := last, l := fun _ f => [.setS rd.val (F32.fma (f.gs ra.val) (f.gs rb.val) (f.gs rd.val))] }
  | .fmsub k g rd ra rb last => some
      { k := k, g := some g, last := last, l := fun _ f => [.setS rd.val (F32.fnma (f.gs ra.val) (f.gs rb.val) (f.gs rd.val))] }
  | .fcmpEq k g pd ra rb last => cmp2 k g pd ra rb last F32.eq
  | .fcmpLt k g pd ra rb last => cmp2 k g pd ra rb last F32.lt
  | .fcmpLe k g pd ra rb last => cmp2 k g pd ra rb last fun a b => F32.lt a b || F32.eq a b
  | .fcmpUn k g pd ra rb last => cmp2 k g pd ra rb last fun a b => F32.isNaN a || F32.isNaN b
  | _ => none

/-- A complex result, a scalar result, of one complex source or two. -/
def cx (n : Fin 8) (g : Guard) (last : Bool) (l : RegFile → List Eff) : Option Syl :=
  some { k := .pe n, g := some g, last := last, l := fun _ f => l f }

/-- Complex syllables (R220) and the sequence and power unit (R246, R247). -/
def cxOps (i : Instr) : Option Syl :=
  match i with
  | .cadd n g cd ca cb last => cx n g last fun f =>
      [.setC cd.val (F32.add (f.gc ca.val).1 (f.gc cb.val).1, F32.add (f.gc ca.val).2 (f.gc cb.val).2)]
  | .csub n g cd ca cb last => cx n g last fun f =>
      [.setC cd.val (F32.sub (f.gc ca.val).1 (f.gc cb.val).1, F32.sub (f.gc ca.val).2 (f.gc cb.val).2)]
  | .cmul n g cd ca cb last => cx n g last fun f =>
      let a := f.gc ca.val
      let b := f.gc cb.val
      [.setC cd.val (F32.fma a.1 b.1 (F32.neg (F32.mul a.2 b.2)), F32.fma a.1 b.2 (F32.mul a.2 b.1))]
  | .cmulc n g cd ca cb last => cx n g last fun f =>
      let a := f.gc ca.val
      let b := f.gc cb.val
      [.setC cd.val (F32.fma a.1 b.1 (F32.neg (F32.mul a.2 (F32.neg b.2))), F32.fma a.1 (F32.neg b.2) (F32.mul a.2 b.1))]
  | .cconj n g cd ca last => cx n g last fun f => [.setC cd.val ((f.gc ca.val).1, F32.neg (f.gc ca.val).2)]
  | .cscale n g cd ca rb last => cx n g last fun f =>
      [.setC cd.val (F32.mul (f.gc ca.val).1 (f.gs rb.val), F32.mul (f.gc ca.val).2 (f.gs rb.val))]
  | .cmag2 n g rd ca last => cx n g last fun f =>
      [.setS rd.val (F32.fma (f.gc ca.val).1 (f.gc ca.val).1 (F32.mul (f.gc ca.val).2 (f.gc ca.val).2))]
  | .cabs n g rd ca last => cx n g last fun f => [.setS rd.val (F32.cabs (f.gc ca.val))]
  | .cre n g rd ca last => cx n g last fun f => [.setS rd.val (f.gc ca.val).1]
  | .cim n g rd ca last => cx n g last fun f => [.setS rd.val (f.gc ca.val).2]
  | .cpack n g cd ra rb last => cx n g last fun f => [.setC cd.val (f.gs ra.val, f.gs rb.val)]
  | .sqSeq n g cd ca last => cx n g last fun f =>
      let r := seqOf (f.gc ca.val) (f.gc ((ca.val + 1) % 16)) (f.gc ((ca.val + 2) % 16))
      [.setC cd.val r.1, .setC ((cd.val + 1) % 16) r.2.1, .setC ((cd.val + 2) % 16) r.2.2]
  | .sqPwr n g cd ca cb last => cx n g last fun f =>
      let q (i : Nat) := F32.cmulc (f.gc ((ca.val + i) % 16)) (f.gc ((cb.val + i) % 16))
      [.setC cd.val (F32.cadd (F32.cadd (q 0) (q 1)) (q 2))]
  | .sqPwr1 n g cd ca cb last => cx n g last fun f => [.setC cd.val (F32.cmulc (f.gc ca.val) (f.gc cb.val))]
  | _ => none

/-- A byte of core `n` that a section of local bay `j` reaches at data address `a` (R221), as its place in the model's memory. -/
def peMap (n j a : Nat) : Option Nat :=
  if a < 0x20000 then some (ecDataBase n + a)
  else if 0x20000 + 0x2800 * j ≤ a ∧ a ≤ 0x227FF + 0x2800 * j then some (ecElemBase n + (a - 0x20000))
  else if 0x27800 ≤ a ∧ a ≤ 0x27FFF then some (ecElemBase n + (a - 0x20000))
  else none

/-- The address at which an aligned access of `w` bytes by the running section of core `n` lands, if the map has it. -/
def peAt (s : State) (n : Nat) (f : RegFile) (ra : SReg) (imm : BitVec 12) (w : Nat) : Option Nat :=
  if effAddr f ra.val imm % w = 0 then peMap n (runBay s n) (effAddr f ra.val imm) else none

/-- No word of memory at `a` holds an ECC error. -/
def goodWord (s : State) (a : Nat) : Prop := s.eccBad.contains a = false ∧ s.eccSoft.contains a = false

/-- Loads and stores of an element core, and loads of the scheme cores from SC SRAM (R221, R222, R224). -/
def memOps (i : Instr) : Option Syl :=
  match i with
  | .ldW (.pe n) g rd ra imm last => some
      { k := .pe n, g := some g, last := last,
        ok := fun s f => ∃ m, peAt s n.val f ra imm 4 = some m ∧ goodWord s m,
        l := fun s f => [.setS rd.val (s.rdW ((peAt s n.val f ra imm 4).getD 0))] }
  | .stW (.pe n) g rd ra imm last => some
      { k := .pe n, g := some g, last := last, ok := fun s f => ∃ m, peAt s n.val f ra imm 4 = some m,
        l := fun s f => [.store ((peAt s n.val f ra imm 4).getD 0) (f.gs rd.val)] }
  | .ldC n g cd ra imm last => some
      { k := .pe n, g := some g, last := last,
        ok := fun s f => ∃ m, peAt s n.val f ra imm 8 = some m ∧ goodWord s m ∧ goodWord s (m + 4),
        l := fun s f => [.setC cd.val (s.rdW ((peAt s n.val f ra imm 8).getD 0), s.rdW ((peAt s n.val f ra imm 8).getD 0 + 4))] }
  | .stC n g cd ra imm last => some
      { k := .pe n, g := some g, last := last, ok := fun s f => ∃ m, peAt s n.val f ra imm 8 = some m,
        l := fun s f => [.store ((peAt s n.val f ra imm 8).getD 0) (f.gc cd.val).1,
          .store ((peAt s n.val f ra imm 8).getD 0 + 4) (f.gc cd.val).2] }
  | .ldW .sl g rd ra imm last => some
      { k := .sl, g := some g, last := last,
        ok := fun s f => (effAddr f ra.val imm) % 4 = 0 ∧ effAddr f ra.val imm < 0x80000 ∧ goodWord s (scBase + effAddr f ra.val imm),
        l := fun s f => [.setS rd.val (s.rdW (scBase + effAddr f ra.val imm))] }
  | _ => none

/-- The items of rdsr but CYCLE (R227). -/
def srItem (s : State) (n : Nat) (x : Section) (c : Ctx) (item : Nat) : Word :=
  let fg := mget s.img.sgBase (24 * n + 8 * x.bay + mget c.sg x.bay 0) 0
  if item = 1 then BitVec.ofNat 32 c.lag
  else if item = 2 then BitVec.ofNat 32 c.tick
  else if item = 3 then BitVec.ofNat 32 x.bay
  else if item = 4 then BitVec.ofNat 32 (mget c.sg x.bay 0)
  else if item = 5 then BitVec.ofNat 32 (mget c.mode x.bay 5)
  else if item = 6 then F32.ofRat (c.fword % 2 ^ 27) 1000000
  else if item = 7 then (if c.n * (c.fword % 2 ^ 27) = 0 then 0x7F800000#32 else F32.ofRat 1000000 (c.n * (c.fword % 2 ^ 27)))
  else if item = 8 then BitVec.ofNat 32 fg
  else if item = 9 then BitVec.ofNat 32 x.cls
  else if item = 10 then BitVec.ofNat 32 c.fword
  else if item = 11 then BitVec.ofNat 32 (c.stamp % 2 ^ 32)
  else BitVec.ofNat 32 (c.stamp / 2 ^ 32)

/-- Verdict read, curve read, phasor and tick-context reads of the running section (R226 to R228, R244, R250). -/
def readOps (i : Instr) : Option Syl :=
  match i with
  | .vrd n g rd off last => some
      { k := .pe n, g := some g, last := last,
        l := fun s _ => [.setS rd.val (if off.toNat = 12 then statusWord s n.val (runBay s n.val)
          else verWord s n.val (runBay s n.val) off.toNat)] }
  | .cvRd n g rd x last => some
      { k := .pe n, g := some g, last := last,
        ok := fun s _ => goodWord s (doseAddr n.val (runBay s n.val) x.val) ∧ goodWord s (doseAddr n.val (runBay s n.val) x.val + 4),
        l := fun s _ => [.setS rd.val (F32.ofDose (doseGet s n.val (runBay s n.val) x.val))] }
  | .phRd n g cd ch h cos last => some
      { k := .pe n, g := some g, last := last,
        l := fun s _ => [.setC cd.val (phRead s n.val (match (s.core n.val).run with | some x => x.tick | none => 0) ch.val h.val cos)] }
  | _ => none

/-- The value and the flag byte that the window delivers to a section for its local channel `ch` at an age, in s[rd] and s[rd + 1] (R173,
R223): a slot that a later instant has taken gives 0.0 with U and I; a T sample gains I while the bay's mode is ON or BLOCKED. -/
def winEffs (s : State) (n : Nat) (rd : SReg) (x : Section) (c : Ctx) (ch age : Nat) : List Eff :=
  let t := (x.tick + 4294963200 - age) % 4294963200
  let b := (memRd s.mem (flagAddr (24 * n + ch) (t % 512))).toNat
  let fl := if b.testBit 1 && (mget c.mode x.bay 5 == 1 || mget c.mode x.bay 5 == 2) then b ||| 8 else b
  if slotReused s (ftgOf s n) t then [.setS rd.val 0#32, .setS ((rd.val + 1) % 32) 0x88#32]
  else [.setS rd.val (s.rdW (valAddr (24 * n + ch) (t % 512))), .setS ((rd.val + 1) % 32) (BitVec.ofNat 32 fl)]

end Sys2Proof.Spec

/-- br, call, jr, callr, ret and loop complete wherever a program is ready for them (for a push with room for one more entry, for ret with
an entry to pop) and have exactly the effect of their control transfer: br goes to pc + off21 and jr to the low 12 or 17 bits of
s[ra]; call and callr push pc + 1 and go to the same; ret pops the return stack into pc; loop pushes its entry and goes on at
pc + 1, or with a count of 0 skips its body. Of the program's registers a transfer to t changes pc, and: br, jr and ret drop each
loop entry whose range does not hold t, with every entry above it; call, callr and ret move the return stack; a loop's push the loop
stack; nothing else changes. A bundle or syllable without a transfer, if it is not at the innermost loop's last address, goes on at
the next address and changes nothing else; there, with two or more iterations left, it goes back to the loop's start with one
fewer; at the last iteration the entry pops and the next outer one is tested alike. -/
def Obligations.ControlTransfers : Prop :=
  (∀ c y, Sys2Proof.Spec.flowOps c = some y → Executes c y) ∧
  (∀ (f : RegFile) (t : Nat),
    f.take (.jump t) = { f with pc := t, ls := Sys2Proof.Spec.loopsLeft f.ls t } ∧
    f.take (.call t) = { f with pc := t, rs := (f.pc + 1) :: f.rs } ∧
    f.take (.skip t) = { f with pc := t } ∧
    (∀ e, f.take (.loop e) = { f with pc := f.pc + 1, ls := e :: f.ls }) ∧
    (∀ a r, f.rs = a :: r → f.take .ret = { f with pc := a, rs := r, ls := Sys2Proof.Spec.loopsLeft f.ls a })) ∧
  (∀ f : RegFile, (∀ e r, f.ls = e :: r → e.last ≠ f.pc) → f.advance = { f with pc := f.pc + 1 }) ∧
  (∀ (f : RegFile) (e : LoopEnt) (r : List LoopEnt), f.ls = e :: r → e.last = f.pc → 2 ≤ e.left →
    f.advance = { f with pc := e.start, ls := { e with left := e.left - 1 } :: r }) ∧
  (∀ (f : RegFile) (e : LoopEnt) (r : List LoopEnt), f.ls = e :: r → e.last = f.pc → e.left = 1 →
    f.advance = { f with ls := r }.advance)

/-- A program at the single bundle of a loop's body, with n iterations left on the innermost entry and no outer entry ending there, is
at that bundle again after each of the next n − 1 completions, and after the n-th it goes on at the next address with the
entry gone. -/
def Obligations.LoopIterations : Prop :=
  ∀ (p n : Nat) (f : RegFile) (r : List LoopEnt), 1 ≤ n → f.pc = p → (∀ e ∈ r, e.last ≠ p) →
    f.ls = { start := p, last := p, left := n } :: r →
    (∀ j < n, (Nat.repeat RegFile.advance j f).pc = p) ∧
      (Nat.repeat RegFile.advance n f).pc = p + 1 ∧
      (Nat.repeat RegFile.advance n f).ls = r

/-- Each of the eighteen binary32 syllables completes wherever a program is ready for it with exactly its result in s[rd] or pd: the sum,
difference, product, quotient, root, minimum, maximum and fused multiply-add of `F32`, the sign operations on bits, the
conversions, the comparisons; nothing else changes. -/
def Obligations.FloatResults : Prop := ∀ c y, Sys2Proof.Spec.f32Ops c = some y → Executes c y

/-- For all operand words: a NaN operand makes every arithmetic result the quiet NaN 0x7FC0_0000, as do infinity less infinity, zero
times infinity, zero by zero and infinity by infinity; addition, multiplication, minimum and maximum do not depend on the
operands' order; fmin and fmax give the other operand for exactly one NaN and order −0.0 below +0.0; comparisons with a NaN
are false and equality holds between zeros of either sign; fabs clears the sign bit and fneg inverts it, and neither changes another;
conversion to i32 saturates at 0x7FFF_FFFF and 0x8000_0000, returns every integer of up to 2^24 in magnitude that was converted, and
gives 0 for a NaN; a product or quotient by 1.0 and a sum with −0.0 return every number unchanged. -/
def Obligations.FloatSpecials : Prop :=
  (∀ a b c : Word, F32.isNaN a = true →
    F32.add a b = 0x7FC00000#32 ∧ F32.add b a = 0x7FC00000#32 ∧ F32.sub a b = 0x7FC00000#32 ∧ F32.sub b a = 0x7FC00000#32 ∧
    F32.mul a b = 0x7FC00000#32 ∧ F32.mul b a = 0x7FC00000#32 ∧ F32.div a b = 0x7FC00000#32 ∧ F32.div b a = 0x7FC00000#32 ∧
    F32.sqrt a = 0x7FC00000#32 ∧ F32.fma a b c = 0x7FC00000#32 ∧ F32.fma b a c = 0x7FC00000#32 ∧
    F32.fma b c a = 0x7FC00000#32 ∧ F32.fnma a b c = 0x7FC00000#32 ∧ F32.fnma b a c = 0x7FC00000#32 ∧
    F32.fnma b c a = 0x7FC00000#32 ∧ F32.toI32 a = 0#32 ∧ F32.eq a b = false ∧ F32.lt a b = false ∧ F32.lt b a = false ∧
    F32.le a b = false ∧ F32.un a b = true ∧ F32.un b a = true ∧
    (F32.isNaN b = false → F32.min a b = b ∧ F32.min b a = b ∧ F32.max a b = b ∧ F32.max b a = b) ∧
    (F32.isNaN b = true → F32.min a b = 0x7FC00000#32 ∧ F32.max a b = 0x7FC00000#32)) ∧
  (∀ a b : Word, F32.add a b = F32.add b a ∧ F32.mul a b = F32.mul b a ∧ F32.eq a b = F32.eq b a) ∧
  (∀ a b : Word, F32.isNaN a = false → F32.isNaN b = false → F32.min a b = F32.min b a ∧ F32.max a b = F32.max b a) ∧
  (F32.sub 0x7F800000#32 0x7F800000#32 = 0x7FC00000#32 ∧ F32.mul 0#32 0xFF800000#32 = 0x7FC00000#32 ∧
    F32.div 0#32 0x80000000#32 = 0x7FC00000#32 ∧ F32.div 0x7F800000#32 0xFF800000#32 = 0x7FC00000#32) ∧
  (F32.min 0#32 0x80000000#32 = 0x80000000#32 ∧ F32.min 0x80000000#32 0#32 = 0x80000000#32 ∧
    F32.max 0#32 0x80000000#32 = 0#32 ∧ F32.max 0x80000000#32 0#32 = 0#32 ∧ F32.eq 0#32 0x80000000#32 = true) ∧
  (∀ a : Word, F32.neg (F32.neg a) = a ∧ F32.abs (F32.neg a) = F32.abs a ∧ (F32.neg a).toNat = (a.toNat + 2 ^ 31) % 2 ^ 32 ∧
    (F32.abs a).toNat = a.toNat % 2 ^ 31) ∧
  (∀ a : Word, (F32.lt 0x4EFFFFFF#32 a = true → F32.toI32 a = 0x7FFFFFFF#32) ∧ (F32.le a 0xCF000000#32 = true → F32.toI32 a = 0x80000000#32) ∧
    (a.toInt.natAbs ≤ 2 ^ 24 → F32.toI32 (F32.ofI32 a) = a)) ∧
  (∀ a : Word, F32.isNaN a = false →
    F32.mul a 0x3F800000#32 = a ∧ F32.div a 0x3F800000#32 = a ∧ F32.add a 0x80000000#32 = a)

/-- Each complex syllable and the sequence and power syllables complete wherever a program is ready for them with exactly the stated
components, each rounded as stated, in cd or s[rd] (cd, cd + 1 and cd + 2 for sq.seq); nothing else changes. carg's result is
`F32.carg` of the source for an error that is a function of the source alone, of at most 2 units in the last place and otherwise
unconstrained: a zero imaginary part gives exactly +0.0 or 0x4049_0FDB, a NaN part 0x7FC0_0000, and every other result lies in
(−π, π]. -/
def Obligations.ComplexResults : Prop :=
  (∀ c y, Sys2Proof.Spec.cxOps c = some y → Executes c y) ∧
  (∀ (n : Fin 8) (g : Guard) (rd : SReg) (ca : CReg) (last : Bool), ∃ d : F32.Cx → Int, (∀ z, -2 ≤ d z ∧ d z ≤ 2) ∧
    Executes (.carg n g rd ca last)
      { k := .pe n, g := some g, last := last, l := fun _ f => [.setS rd.val (F32.carg (f.gc ca.val) (d (f.gc ca.val)))] }) ∧
  (∀ (z : F32.Cx) (d : Int), (F32.isNaN z.1 = true ∨ F32.isNaN z.2 = true → F32.carg z d = 0x7FC00000#32) ∧
    (F32.isNaN z.1 = false → z.2.toNat % 2 ^ 31 = 0 → F32.carg z d = if z.1.toNat < 2 ^ 31 then 0#32 else 0x40490FDB#32) ∧
    (F32.isNaN z.1 = false → F32.isNaN z.2 = false →
      (F32.carg z d).toNat ≤ 0x40490FDB ∨ (2 ^ 31 ≤ (F32.carg z d).toNat ∧ (F32.carg z d).toNat ≤ 2 ^ 31 + 0x40490FDA)))

/-- ld.w, st.w, ld.c and st.c of an element core, at an aligned address of the map (data memory, the bay's own element-state region, the
common one), and ld.w of the scheme cores from SC SRAM: each completes wherever a program is ready for it, on words without an
ECC error, with the word or pair at that address in its register, or its register there (the real part at the lower address).
After a bundle that holds one store, the stored bytes read back and every byte outside them reads as before; a load changes no
byte. A store of the scheme cores to an aligned SC SRAM address stores the word there and nowhere else. -/
def Obligations.LoadsAndStores : Prop :=
  (∀ c y, Sys2Proof.Spec.memOps c = some y → Executes c y) ∧
  (∀ (n : Fin 8) (g : Guard) (rd ra : SReg) (imm : BitVec 12) (s : State) (x : Section) (m : Nat),
    (s.core n.val).run = some x → x.buf = [] → guardHolds x.rf (some g) = true → Sys2Proof.Spec.peAt s n.val x.rf ra imm 4 = some m →
    Ready (.stW (.pe n) g rd ra imm true) s (.pe n) true x.rf [.store m (x.rf.gs rd.val)] →
    Runs (.stW (.pe n) g rd ra imm true) s fun t => t.rdW m = x.rf.gs rd.val ∧ SameBytesBut s t m (m + 4)) ∧
  (∀ (n : Fin 8) (g : Guard) (cd : CReg) (ra : SReg) (imm : BitVec 12) (s : State) (x : Section) (m : Nat),
    (s.core n.val).run = some x → x.buf = [] → guardHolds x.rf (some g) = true → Sys2Proof.Spec.peAt s n.val x.rf ra imm 8 = some m →
    Ready (.stC n g cd ra imm true) s (.pe n) true x.rf [.store m (x.rf.gc cd.val).1, .store (m + 4) (x.rf.gc cd.val).2] →
    Runs (.stC n g cd ra imm true) s fun t =>
      t.rdW m = (x.rf.gc cd.val).1 ∧ t.rdW (m + 4) = (x.rf.gc cd.val).2 ∧ SameBytesBut s t m (m + 8)) ∧
  (∀ (g : Guard) (rd ra : SReg) (imm : BitVec 12) (last : Bool) (s : State) (x : TaskRun),
    Running (.stW .sl g rd ra imm last) s .sl last x.rf → s.sch.cur = some x → guardHolds x.rf (some g) = true → effAddr x.rf ra.val imm % 4 = 0 →
    effAddr x.rf ra.val imm < 0x80000 →
    fetchOk (s.putWord (scBase + effAddr x.rf ra.val imm) (x.rf.gs rd.val)) .sl (regsAfter x.rf []).pc = true →
    Runs (.stW .sl g rd ra imm last) s fun t =>
      t.rdW (scBase + effAddr x.rf ra.val imm) = x.rf.gs rd.val ∧
      SameBytesBut s t (scBase + effAddr x.rf ra.val imm) (scBase + effAddr x.rf ra.val imm + 4) ∧ t.regs = s.regs ∧
      ∃ y, t.sch.cur = some y ∧ y.rf = regsAfter x.rf [] ∧ y.stg = x.stg ∧
        (isRetained s x.task (effAddr x.rf ra.val imm) = true → effAddr x.rf ra.val imm / 32 * 32 ∈ y.lines)) ∧
  (∀ (g : Guard) (rd ra : SReg) (imm : BitVec 12) (last : Bool) (s : State) (f : RegFile),
    Running (.ldW .sl g rd ra imm last) s .sl last f → guardHolds f (some g) = true → effAddr f ra.val imm % 4 = 0 →
    0x40000000 ≤ effAddr f ra.val imm → effAddr f ra.val imm < 0x44000000 →
    let p := busRead s .sc (effAddr f ra.val imm - 0x40000000)
    let c : Instr := .ldW .sl g rd ra imm last
    Ready c p.2 .sl true f [.setS rd.val (BitVec.ofNat 32 p.1)] →
    exec c s = .next (retired c p.2 .sl true [.setS rd.val (BitVec.ofNat 32 p.1)]))

/-- vrd, cv.rd and ph.rd of a running section complete wherever it is ready for them with the verdict word (the status word at 0x0C), the
time-dose accumulator rounded to binary32 (its two words without an ECC error), the stored phasor or window flags; rdsr does with
the item its number names from the section and its tick context, and for item 0, CYCLE, with the FAB cycle of the section in
which its bundle issues, as the pipeline of the section gives it; nothing else changes. -/
def Obligations.SectionReads : Prop :=
  (∀ c y, Sys2Proof.Spec.readOps c = some y → Executes c y) ∧
  (∀ (n : Fin 8) (g : Guard) (rd : SReg) (item : Fin 13) (last : Bool) (s : State) (x : Section) (c : Ctx),
    (s.core n.val).run = some x → guardHolds x.rf (some g) = true → item ≠ 0 → ctxAt s n.val x.tick = some c →
    let i : Instr := .rdsr n g rd item last
    let l := [Eff.setS rd.val (Sys2Proof.Spec.srItem s n.val x c item.val)]
    Ready i s (.pe n) last x.rf l → exec i s = .next (retired i s (.pe n) last l)) ∧
  (∀ (n : Fin 8) (g : Guard) (rd : SReg) (last : Bool) (s : State) (x : Section),
    (s.core n.val).run = some x → x.buf = [] → guardHolds x.rf (some g) = true →
    let i : Instr := .rdsr n g rd 0 last
    Ready i s (.pe n) last x.rf [.cycle rd.val] →
    exec i s = .next (retired i s (.pe n) last [.cycle rd.val]) ∧
      bundleEffs x i [.cycle rd.val] = [.setS rd.val (BitVec.ofNat 32 (x.pipe.issueAt (askedWith x i)))])

/-- For a running section of core n, with good parity: ldg and ldgr (channel at most 23, age at most 255) complete wherever it is ready
for them with the value of local channel ch at the section's tick less the age in s[rd] and its flag byte in s[rd + 1], with I
added to a T sample while the bay's mode is ON or BLOCKED; a slot that a later instant has taken gives 0.0 with U and I; nothing
else changes. -/
def Obligations.EspalierWindow : Prop :=
  ∀ (n : Fin 8) (g : Guard) (rd : SReg) (last : Bool) (s : State) (x : Section) (ch : Fin 24) (age : Fin 256) (c : Ctx),
    (s.core n.val).run = some x → guardHolds x.rf (some g) = true → s.parBad = [] → ctxAt s n.val x.tick = some c →
    let l := Sys2Proof.Spec.winEffs s n.val rd x c ch.val age.val
    let run (i : Instr) : Prop := Ready i s (.pe n) last x.rf l → exec i s = .next (retired i s (.pe n) last l)
    run (.ldg n g rd ch age last) ∧
    ∀ ra rb : SReg, (x.rf.gs ra.val).toNat = ch.val → (x.rf.gs rb.val).toNat = age.val → run (.ldgr n g rd ra rb last)

/-- The write masks are those of the table by offset and class. A vwr, vset or vclr, alone with its effect in its bundle, whose value has no 1 outside the
mask leaves (rec & ~mask) | v, rec | v or rec & ~v at its offset of its section's bay; no other word of any verdict record of
the core changes, no byte of memory changes, and the section goes on. -/
def Obligations.VerdictWrites : Prop :=
  (verdictMask 0 0 = 3#32 ∧ verdictMask 4 0 = 0xFFFF#32 ∧ verdictMask 8 0 = 0xFFFF#32 ∧
    (∀ cls, 1 ≤ cls → verdictMask 0 cls = 0#32) ∧ (∀ cls, cls = 1 ∨ cls = 2 → verdictMask 4 cls = 0xFFFF0000#32 ∧ verdictMask 8 cls = 0xFFFF0000#32) ∧
    verdictMask 4 3 = 0#32 ∧ verdictMask 8 3 = 0#32 ∧ (∀ cls, verdictMask 12 cls = 0#32) ∧
    ∀ off, 0x10 ≤ off → off ≤ 0x8C → off % 4 = 0 → (verdictMask off 0 = 0#32 ∧ ∀ cls, 1 ≤ cls → verdictMask off cls = 0xFFFFFFFF#32)) ∧
  (∀ (n : Fin 8) (g : Guard) (rs : SReg) (off : BitVec 12) (s : State) (x : Section),
    (s.core n.val).run = some x → x.buf = [] → x.exc = none → guardHolds x.rf (some g) = true → Fetched s n x →
    fetchOk s (.pe n) x.rf.advance.pc = true →
    (∀ c ∈ [Instr.vwr n g rs off true, .vset n g rs off true, .vclr n g rs off true], Joins c s n x true) →
    x.rf.gs rs.val &&& ~~~verdictMask off.toNat x.cls = 0 →
    let wm := verdictMask off.toNat x.cls
    let v := x.rf.gs rs.val
    let old := verWord s n.val x.bay off.toNat
    let done (c : Instr) (w : Word) (t : State) : Prop :=
      verWord t n.val x.bay off.toNat = w ∧
      (∀ j o, 64 * j + o / 4 ≠ 64 * x.bay + off.toNat / 4 → verWord t n.val j o = verWord s n.val j o) ∧ SameBytes s t ∧
      (t.core n.val).run = some { x with rf := x.rf.advance, syls := [], pipe := x.pipe.issue (askedWith x c) }
    Runs (.vwr n g rs off true) s (done (.vwr n g rs off true) ((old &&& ~~~wm) ||| v)) ∧
      Runs (.vset n g rs off true) s (done (.vset n g rs off true) (old ||| v)) ∧
      Runs (.vclr n g rs off true) s (done (.vclr n g rs off true) (old &&& ~~~v)))

/-- Alone with its effect in its bundle: cv.clr leaves accumulator i of the section's bay at 0; cv.set at s[ra] clamped to 0.0 to 1.0 and
0 for a NaN; cv.step, with the accumulator's and the parameter block's words free of ECC errors, at a value from 0.0 to 1.0, which
s[rd] receives rounded: the one `cvStep` computes for an error of at most 16 units in the last place of the dose, which `F32.nudge`
keeps within 2^-20 of it. The eight bytes of the accumulator change and no other byte. -/
def Obligations.CurveInstances : Prop :=
  ∀ (n : Fin 8) (g : Guard) (i : Fin 32) (rd ra : SReg) (s : State) (x : Section),
    (s.core n.val).run = some x → x.buf = [] → x.exc = none → guardHolds x.rf (some g) = true → Fetched s n x →
    fetchOk s (.pe n) x.rf.advance.pc = true →
    (∀ c ∈ [Instr.cvClr n g i true, .cvSet n g i ra true, .cvStep n g rd ra i true], Joins c s n x true) →
    let a := doseAddr n.val x.bay i.val
    let kept (t : State) : Prop := SameBytesBut s t a (a + 8)
    Runs (.cvClr n g i true) s (fun t => doseGet t n.val x.bay i.val = 0 ∧ kept t) ∧
    Runs (.cvSet n g i ra true) s (fun t => doseGet t n.val x.bay i.val ≤ 2 ^ 46 ∧ kept t ∧
      (F32.isNaN (x.rf.gs ra.val) = true → doseGet t n.val x.bay i.val = 0) ∧
      (F32.isNaN (x.rf.gs ra.val) = false → doseGet t n.val x.bay i.val = min (2 ^ 46) (F32.fix46 (x.rf.gs ra.val)).toNat)) ∧
    ((∀ w ∈ doseWords n.val x.bay i.val ++ paramWords s n.val x i.val, Sys2Proof.Spec.goodWord s w) →
      Runs (.cvStep n g rd ra i true) s (fun t => kept t ∧
        ∃ d : Int, -16 ≤ d ∧ d ≤ 16 ∧ doseGet t n.val x.bay i.val = cvStep s n.val x i.val (x.rf.gs ra.val) d ∧
          cvStep s n.val x i.val (x.rf.gs ra.val) d ≤ 2 ^ 46 ∧
          ∃ y, (t.core n.val).run = some y ∧
            y.rf = (x.rf.ps rd.val (F32.ofDose (cvStep s n.val x i.val (x.rf.gs ra.val) d))).advance))

namespace Sys2Proof.Spec

/-- The guarded syllables that can raise an exception of their own: core, guard, end of bundle. -/
def guarded (i : Instr) : Option (CoreSel × Guard × Bool) :=
  match i with
  | .call k g _ last => some (k, g, last)
  | .callr k g _ last => some (k, g, last)
  | .ret k g last => some (k, g, last)
  | .ldW k g _ _ _ last => some (k, g, last)
  | .stW k g _ _ _ last => some (k, g, last)
  | .ldC n g _ _ _ last => some (.pe n, g, last)
  | .stC n g _ _ _ last => some (.pe n, g, last)
  | .ldgr n g _ _ _ last => some (.pe n, g, last)
  | .vwr n g _ _ last => some (.pe n, g, last)
  | .vset n g _ _ last => some (.pe n, g, last)
  | .vclr n g _ _ last => some (.pe n, g, last)
  | .bmxOr g _ _ _ => some (.sl, g, true)
  | .bmxAnd g _ _ _ => some (.sl, g, true)
  | _ => none

/-- A program that is about to fetch, with syllable `c`, what lies outside it or holds a reserved encoding, without an uncorrectable word. -/
def FetchesIllegal (c : Instr) (s : State) (k : CoreSel) (last : Bool) (f : RegFile) : Prop :=
  fetchBad s k f.pc = false ∧ fetchOk s k f.pc = false ∧
  match k with
  | .pe n => ∃ x, (s.core n.val).run = some x ∧ x.rf = f ∧ x.exc = none ∧ x.syls = [] ∧ Joins c s n x last
  | .sl => s.rd R.SCH_STAT_STATE = 1 ∧ ∃ x, s.sch.cur = some x ∧ x.rf = f

end Sys2Proof.Spec

/-- An integer syllable whose fetch lies beyond the program or on a reserved encoding raises ILLEGAL, whatever its guard. With its guard
true: a push on a full return stack and a return from an empty one raise STACK; a fifth loop entry raises LOOP; a misaligned or
unmapped access, a store outside SC SRAM by the scheme cores, a channel above 23 or age above 255 of ldgr and a misaligned or
outlying bit matrix raise ACCESS; verdict bits outside the mask raise VWR. On an element core the bundle is void and its last
syllable takes the exception; on the scheme cores it is taken at once. Each of these guarded syllables, its guard false, completes
with no effect instead. -/
def Obligations.SyllableExceptions : Prop :=
  (∀ c y s f, Sys2Proof.Spec.intReg c = some y → Sys2Proof.Spec.FetchesIllegal c s y.k y.last f →
    exec c s = .next (raised c s y.k y.last 1)) ∧
  (∀ c k g last s f, Sys2Proof.Spec.guarded c = some (k, g, last) → guardHolds f (some g) = false → Ready c s k last f [] →
    exec c s = .next (retired c s k last [])) ∧
  (∀ k g off last, RaisesWhere (.call k g off last) k (some g) last 4 fun _ f => 8 ≤ f.rs.length) ∧
  (∀ k g ra last, RaisesWhere (.callr k g ra last) k (some g) last 4 fun _ f => 8 ≤ f.rs.length) ∧
  (∀ k g last, RaisesWhere (.ret k g last) k (some g) last 4 fun _ f => f.rs = []) ∧
  (∀ k rs cnt body last, RaisesWhere (.loop k rs cnt body last) k none last 5 fun _ f =>
    Sys2Proof.Spec.loopCount f rs cnt ≠ 0 ∧ 4 ≤ f.ls.length) ∧
  (∀ n g rd ra imm last, RaisesWhere (.ldW (.pe n) g rd ra imm last) (.pe n) (some g) last 2 fun s f =>
    effAddr f ra.val imm % 4 ≠ 0 ∨ Sys2Proof.Spec.peMap n.val (runBay s n.val) (effAddr f ra.val imm) = none) ∧
  (∀ n g rd ra imm last, RaisesWhere (.stW (.pe n) g rd ra imm last) (.pe n) (some g) last 2 fun s f =>
    effAddr f ra.val imm % 4 ≠ 0 ∨ Sys2Proof.Spec.peMap n.val (runBay s n.val) (effAddr f ra.val imm) = none) ∧
  (∀ n g cd ra imm last, RaisesWhere (.ldC n g cd ra imm last) (.pe n) (some g) last 2 fun s f =>
    effAddr f ra.val imm % 8 ≠ 0 ∨ Sys2Proof.Spec.peMap n.val (runBay s n.val) (effAddr f ra.val imm) = none) ∧
  (∀ n g cd ra imm last, RaisesWhere (.stC n g cd ra imm last) (.pe n) (some g) last 2 fun s f =>
    effAddr f ra.val imm % 8 ≠ 0 ∨ Sys2Proof.Spec.peMap n.val (runBay s n.val) (effAddr f ra.val imm) = none) ∧
  (∀ g rd ra imm last, RaisesWhere (.ldW .sl g rd ra imm last) .sl (some g) last 2 fun _ f =>
    effAddr f ra.val imm % 4 ≠ 0 ∨ (0x80000 ≤ effAddr f ra.val imm ∧ effAddr f ra.val imm < 0x40000000) ∨ 0x44000000 ≤ effAddr f ra.val imm) ∧
  (∀ g rd ra imm last, RaisesWhere (.stW .sl g rd ra imm last) .sl (some g) last 2 fun _ f =>
    effAddr f ra.val imm % 4 ≠ 0 ∨ 0x80000 ≤ effAddr f ra.val imm) ∧
  (∀ n g rd ra rb last, RaisesWhere (.ldgr n g rd ra rb last) (.pe n) (some g) last 2 fun _ f =>
    23 < (f.gs ra.val).toNat ∨ 255 < (f.gs rb.val).toNat) ∧
  (∀ n g rs off last, RaisesWhere (.vwr n g rs off last) (.pe n) (some g) last 3 fun s f =>
    ∃ x, (s.core n.val).run = some x ∧ f.gs rs.val &&& ~~~verdictMask off.toNat x.cls ≠ 0) ∧
  (∀ n g rs off last, RaisesWhere (.vset n g rs off last) (.pe n) (some g) last 3 fun s f =>
    ∃ x, (s.core n.val).run = some x ∧ f.gs rs.val &&& ~~~verdictMask off.toNat x.cls ≠ 0) ∧
  (∀ n g rs off last, RaisesWhere (.vclr n g rs off last) (.pe n) (some g) last 3 fun s f =>
    ∃ x, (s.core n.val).run = some x ∧ f.gs rs.val &&& ~~~verdictMask off.toNat x.cls ≠ 0) ∧
  (∀ g rd ra rb, RaisesWhere (.bmxOr g rd ra rb) .sl (some g) true 2 fun _ f =>
    (f.gs rb.val).toNat % 4 ≠ 0 ∨ 0x80000 < (f.gs rb.val).toNat + 128) ∧
  (∀ g rd ra rb, RaisesWhere (.bmxAnd g rd ra rb) .sl (some g) true 2 fun _ f =>
    (f.gs rb.val).toNat % 4 ≠ 0 ∨ 0x80000 < (f.gs rb.val).toNat + 128)

/-! ### Porlon: the ends of sections, exceptions, the syllables of the scheme cores (R227 to R238, R285) -/

namespace Sys2Proof.Spec

/-- Syllables of the scheme cores that only write a register (R229, R230, R232). -/
def slOps (i : Instr) : Option Syl :=
  match i with
  | .ild g rd w => some { k := .sl, g := some g, last := true, l := fun s _ => [.setS rd.val (inWord s w.toNat)] }
  | .ildb g pd w b => some
      { k := .sl, g := some g, last := true, l := fun s _ => [.setP pd.val ((inWord s w.toNat).toNat.testBit b.val)] }
  | .tel g rd t => some
      { k := .sl, g := some g, last := true,
        l := fun s _ => [.setS rd.val (if (tmOf s t.val).run
          then BitVec.ofNat 32 (min (u64Sub (slNow s) ((tmOf s t.val).wake (slNow s)).start) 0xFFFFFFFF) else 0#32)] }
  | .rdtime g rd => some
      { k := .sl, g := some g, last := true, l := fun s _ => [.setS rd.val (BitVec.ofNat 32 (slNow s % 2 ^ 32))] }
  | .bmxOr g rd ra rb => some
      { k := .sl, g := some g, last := true,
        ok := fun s f => (f.gs rb.val).toNat % 4 = 0 ∧ (f.gs rb.val).toNat + 128 ≤ 0x80000 ∧
          ∀ j < 32, goodWord s (scBase + (f.gs rb.val).toNat + 4 * j),
        l := fun s f => [.setS rd.val (BitVec.ofNat 32 (bitmap 32 fun j =>
          decide (f.gs ra.val &&& s.rdW (scBase + (f.gs rb.val).toNat + 4 * j) ≠ 0)))] }
  | .bmxAnd g rd ra rb => some
      { k := .sl, g := some g, last := true,
        ok := fun s f => (f.gs rb.val).toNat % 4 = 0 ∧ (f.gs rb.val).toNat + 128 ≤ 0x80000 ∧
          ∀ j < 32, goodWord s (scBase + (f.gs rb.val).toNat + 4 * j),
        l := fun s f => [.setS rd.val (BitVec.ofNat 32 (bitmap 32 fun j =>
          decide (f.gs ra.val &&& s.rdW (scBase + (f.gs rb.val).toNat + 4 * j) = s.rdW (scBase + (f.gs rb.val).toNat + 4 * j))))] }
  | _ => none

/-- The pseudocode of R230: an on-delay, an off-delay and a pulse, at one evaluation: the timer and q. -/
def onDelay (x : Timer) (now : Nat) (i : Bool) : Timer × Bool :=
  if i then
    let st := if x.run then x.start else now
    ({ x with run := true, start := st, prev := true }, decide (x.pre ≤ u64Sub now st))
  else ({ x with run := false, prev := false }, false)

def offDelay (x : Timer) (now : Nat) (i : Bool) : Timer × Bool :=
  if i then ({ x with run := false, q := true, prev := true }, true)
  else if x.q then
    let st := if x.run then x.start else now
    if x.pre ≤ u64Sub now st then ({ x with run := false, start := st, q := false, prev := false }, false)
    else ({ x with run := true, start := st, prev := false }, true)
  else ({ x with prev := false }, false)

def pulse (x : Timer) (now : Nat) (i : Bool) : Timer × Bool :=
  let go := i && !x.prev && !x.run
  let st := if go then now else x.start
  let q := (x.run || go) && !decide (x.pre ≤ u64Sub now st)
  ({ x with run := q, start := st, prev := i }, q)

/-- The state in which timer `t` is `y` and counts as evaluated by the running task. -/
def withTimer (s : State) (x : TaskRun) (t : Nat) (y : Timer) : State :=
  { s with sch := { s.sch with tm := mput s.sch.tm t y,
                               cur := some { x with tms := if x.tms.contains t then x.tms else x.tms ++ [t] } } }

/-- The state in which edge detector `e` holds `b` and counts as evaluated by the running task. -/
def withEdge (s : State) (x : TaskRun) (e : Nat) (b : Bool) : State :=
  { s with sch := { s.sch with ed := mput s.sch.ed e b,
                               cur := some { x with eds := if x.eds.contains e then x.eds else x.eds ++ [e] } } }

/-- Where the section `x` of core `n` is the last class-0 one and the first of its held notifications has a class-0 section that can
run, such a section of it runs after `x` has ended (R182). -/
def NextClass0 (s t : State) (n : Fin 8) (x : Section) : Prop :=
  ∀ h r, (s.core n.val).held = h :: r → x.cls = 0 →
    (∀ y ∈ (s.core n.val).ctxs, ∀ e ∈ y.rest, e.1 = 0 → y.tick = x.tick ∧ e = (0, x.bay)) →
    (∃ j, (0, j) ∈ h.rest ∧ runnable s n.val h (0, j) = true) →
    ∃ z, (t.core n.val).run = some z ∧ z.cls = 0 ∧ z.tick = h.tick

/-- The state with the running task instance replaced. -/
def withRun (s : State) (x : TaskRun) : State := { s with sch := { s.sch with cur := some x } }

end Sys2Proof.Spec

/-- A tick.end, its guard true and no other effect in its bundle, which its fetch reports no ECC error of, retires with its bundle and
ends the running section: the section leaves its tick context's list for good, no byte of memory and no word of a verdict record
changes; where a notification is held and this was the last class-0 section, class 0 of the held tick begins at once (R182); under a
false guard the section goes on with the next bundle. -/
def Obligations.SectionEnds : Prop :=
  (∀ (n : Fin 8) (g : Guard) (s : State) (x : Section), (s.core n.val).run = some x → x.buf = [] → x.exc = none → Fetched s n x →
    fetchedBy s n x = s → guardHolds x.rf (some g) = true → Joins (.tickEnd n g true) s n x true →
    (∀ h ∈ (s.core n.val).held, h.tick ≠ x.tick) →
    Runs (.tickEnd n g true) s fun t =>
      (∀ y ∈ (t.core n.val).ctxs, y.tick = x.tick → (x.cls, x.bay) ∉ y.rest) ∧ SameBytes s t ∧
      (∀ j o, verWord t n.val j o = verWord s n.val j o) ∧ t.prv.lines = s.prv.lines ∧ Sys2Proof.Spec.NextClass0 s t n x) ∧
  (∀ (n : Fin 8) (g : Guard) (last : Bool) (s : State) (f : RegFile), guardHolds f (some g) = false →
    Ready (.tickEnd n g last) s (.pe n) last f [] → exec (.tickEnd n g last) s = .next (retired (.tickEnd n g last) s (.pe n) last []))

/-- Taking an exception on an element core at the last syllable of a bundle, with no ECC error of the fetch to report: no byte of memory and no verdict word changes, no fault is raised towards Privet, the section leaves its context; VWR sets
VWR_STK and no other cause does; at the first exception of a tick one event ELC_EXCEPTION is logged with core, bay, class, cause,
tick index, bundle address and the number of earlier unlogged ones; a later one of a tick whose event is written is counted
instead; while its context is open the tick is remembered as one whose event is written; where a notification is held and this was the
last class-0 section, class 0 of the held tick begins at once (R182). -/
def Obligations.ElementExceptions : Prop :=
  ∀ (c : Instr) (n : Fin 8) (s : State) (x : Section) (cause : Nat), (s.core n.val).run = some x → fetchedBy s n x = s →
    (∀ h ∈ (s.core n.val).held, h.tick ≠ x.tick) →
    let t := raised c s (.pe n) true cause
    Sys2Proof.Spec.NextClass0 s t n x ∧
    SameBytes s t ∧ (∀ j o, verWord t n.val j o = verWord s n.val j o) ∧ t.prv.lines = s.prv.lines ∧
    (∀ y ∈ (t.core n.val).ctxs, y.tick = x.tick → (x.cls, x.bay) ∉ y.rest) ∧
    t.on (R.ELCn_STAT_VWR_STK n.val) = (decide (cause = 3) || s.on (R.ELCn_STAT_VWR_STK n.val)) ∧
    (∀ y ∈ (t.core n.val).ctxs, y.tick = x.tick → x.tick ∈ (t.core n.val).excTicks) ∧
    (x.tick ∉ (s.core n.val).excTicks → (t.core n.val).excMore = 0 ∧
      ∃ e l, t.yew.cross = s.yew.cross ++ e :: l ∧ ((s.core n.val).held = [] → l = []) ∧ e.src = 0x09 ∧ e.code = 2 ∧
        e.payload = padTo 24 (leBytes 1 n.val ++ leBytes 1 x.bay ++ leBytes 1 x.cls ++ leBytes 1 cause ++ leBytes 4 x.tick
          ++ leBytes 4 x.rf.pc ++ leBytes 4 (s.core n.val).excMore)) ∧
    (x.tick ∈ (s.core n.val).excTicks → (∃ l, t.yew.cross = s.yew.cross ++ l ∧ ((s.core n.val).held = [] → l = [])) ∧ (t.core n.val).excMore = (s.core n.val).excMore + 1)

/-- Taking an exception on the scheme cores, or TASK_BUDGET_EXPIRY of a running instance: the committed output images, timers, edge
detectors, the journal and all of memory stay as they were; the words the instance wrote to retained memory stand marked to be
restored before the task's next run; EXC_STK or BUD_STK is set with the cause (6 for the budget), and one SCH_EXCEPTION or
SCH_BUDGET event is logged. -/
def Obligations.SchemeExceptions : Prop :=
  ∀ (s : State) (x : TaskRun), s.sch.cur = some x →
    let kept (t : State) : Prop := t.sch.out = s.sch.out ∧ t.sch.tm = s.sch.tm ∧ t.sch.ed = s.sch.ed ∧ t.sch.jrn = s.sch.jrn ∧
      t.sch.jseq = s.sch.jseq ∧ SameBytes s t ∧ t.thn = s.thn ∧ mget t.sch.restore x.task [] = x.undo
    (∀ cause, cause < 8 → let t := slException s cause
      kept t ∧ t.on (R.SCH_TKn_STAT_EXC_STK x.task) = true ∧ t.rd (R.SCH_TKn_STAT_LASTCAUSE x.task) = cause ∧
      ∃ e, t.yew.cross = s.yew.cross ++ [e] ∧ e.src = 0x0B ∧ e.code = 3 ∧
        e.payload = padTo 24 (leBytes 1 x.task ++ leBytes 2 0 ++ leBytes 1 cause ++ leBytes 4 x.rf.pc)) ∧
    (s.rd R.SCH_STAT_STATE = 1 → Runs .taskBudgetExpiry s fun t =>
      kept t ∧ t.on (R.SCH_TKn_STAT_BUD_STK x.task) = true ∧ t.rd (R.SCH_TKn_STAT_LASTCAUSE x.task) = 6 ∧
      ∃ e, t.yew.cross = s.yew.cross ++ [e] ∧ e.src = 0x0B ∧ e.code = 2)

/-- ild, ildb, tel, rdtime and the bit matrices complete wherever an instance is ready for them with their value and change nothing else.
With the guard true: ist writes one staging word and istb one bit of it; ton, tof and tpl leave their timer and p[pd] as the
pseudocode of R230 does; tpre sets the preset, trst clears run, q and prev; edg compares with the detector's bit and stores the
input there; tk.act adds an activation to those that take effect at the commit: each changes nothing else but its registers and
the instance's marks. -/
def Obligations.SchemeSyllables : Prop :=
  (∀ c y, Sys2Proof.Spec.slOps c = some y → Executes c y) ∧
  (∀ (g : Guard) (s : State) (x : TaskRun), s.sch.cur = some x → guardHolds x.rf (some g) = true →
    (∀ c, Ready c s .sl true x.rf []) →
    let done (c : Instr) (t : State) : Prop := exec c s = .next (retired c t .sl true [])
    (∀ (w : BitVec 12) (rs : SReg),
      done (.ist g w rs) (Sys2Proof.Spec.withRun s { x with stg := mput x.stg w.toNat (x.rf.gs rs.val) })) ∧
    (∀ (w : BitVec 12) (b : Fin 32) (ps : PReg), ∃ v : Word,
      (∀ j < 32, v.getLsbD j = if j = b.val then x.rf.gp ps.val else (stgWord s w.toNat).getLsbD j) ∧
      done (.istb g w b ps) (Sys2Proof.Spec.withRun s { x with stg := mput x.stg w.toNat v })) ∧
    (∀ (t : Fin 2048) (rs : SReg), done (.tpre g t rs) (setTm s t.val { tmOf s t.val with pre := (x.rf.gs rs.val).toNat })) ∧
    (∀ t : Fin 2048, done (.trst g t)
      (setTm s t.val { tmOf s t.val with run := false, q := false, prev := false, carry := none })) ∧
    (∀ n : Fin 16, done (.tkAct g n) (Sys2Proof.Spec.withRun s { x with acts := x.acts ++ [n.val] }))) ∧
  (∀ (g : Guard) (pd pa : PReg) (s : State) (x : TaskRun), s.sch.cur = some x → guardHolds x.rf (some g) = true →
    (∀ c b, Ready c s .sl true x.rf [.setP pd.val b]) →
    let done (c : Instr) (t : State) (b : Bool) : Prop := exec c s = .next (retired c t .sl true [.setP pd.val b])
    (∀ t : Fin 2048,
      let y := (tmOf s t.val).wake x.now
      let a := Sys2Proof.Spec.onDelay y x.now (x.rf.gp pa.val)
      let b := Sys2Proof.Spec.offDelay y x.now (x.rf.gp pa.val)
      let c := Sys2Proof.Spec.pulse y x.now (x.rf.gp pa.val)
      done (.ton g pd pa t) (Sys2Proof.Spec.withTimer s x t.val a.1) a.2 ∧
      done (.tof g pd pa t) (Sys2Proof.Spec.withTimer s x t.val b.1) b.2 ∧
      done (.tpl g pd pa t) (Sys2Proof.Spec.withTimer s x t.val c.1) c.2) ∧
    (∀ (e : Fin 4096) (kind : Fin 3),
      let i := x.rf.gp pa.val
      let m := mget s.sch.ed e.val false
      let r := if kind.val = 0 then i && !m else if kind.val = 1 then !i && m else i != m
      done (.edg g pd pa e kind) (Sys2Proof.Spec.withEdge s x e.val i) r))

/-- tk.end of a running instance, its guard true, no ECC error in the lines it wrote nor in the retained regions: the words it wrote are the committed image, every other committed word stays; the scheme
terms of the TRIP outputs are those of the committed images; the run counter and the journal's record number go up by one; no
byte of memory changes but the completion word of the checkpoint copy that a checkpoint started by it (R289) will overwrite. With an
uncorrectable word in a line it wrote it halts the pair, and neither commits nor journals. Under a false guard the instance goes on. -/
def Obligations.SchemeCommit : Prop :=
  (∀ (g : Guard) (s : State) (x : TaskRun), s.sch.cur = some x → Running (.tkEnd g) s .sl true x.rf → guardHolds x.rf (some g) = true →
    (∀ w ∈ scWords (x.lines.map fun a => (a, 32)) ++ scWords (retRegions s), Sys2Proof.Spec.goodWord s w) →
    x.task < 16 → (∀ a ∈ x.acts, a < 16) → (∀ y ∈ s.sch.pre, y.task < 16) →
    (∀ e ∈ s.img.outBits ++ s.img.outWords, ∀ b, e.2 = .sg b ∨ e.2 = .mode b → b < 24) →
    Runs (.tkEnd g) s fun t =>
      t.sch.out = x.stg.foldl (fun a e => mput a (4096 * x.task + e.1) e.2) s.sch.out ∧
      t.thn.sch = (bitmap 48 fun o => s.img.outBits.any fun e => e.2 == .trip o && outBit t.sch.out e.1) ∧
      t.rd (R.SCH_TKn_RUNS_RUNS x.task) = (s.rd (R.SCH_TKn_RUNS_RUNS x.task) + 1) % 2 ^ 32 ∧
      t.sch.jseq = s.sch.jseq + 1 ∧ t.sch.forced = false ∧
      SameBytesBut s t (doneAddr (nextCopy s)) (doneAddr (nextCopy s) + 4)) ∧
  (∀ (g : Guard) (s : State) (x : TaskRun), s.sch.cur = some x → Running (.tkEnd g) s .sl true x.rf → guardHolds x.rf (some g) = true →
    (∃ w ∈ scWords (x.lines.map fun a => (a, 32)), s.eccBad.contains w = true) →
    Runs (.tkEnd g) s fun t => t.rd R.SCH_STAT_STATE = 2 ∧ t.on R.SCH_STAT_LS_STK = true ∧ t.sch.out = s.sch.out ∧
      t.sch.jseq = s.sch.jseq ∧ t.sch.jrn = s.sch.jrn ∧ t.thn.sch = 0 ∧ SameBytes s t) ∧
  (∀ (g : Guard) (s : State) (f : RegFile), guardHolds f (some g) = false → Ready (.tkEnd g) s .sl true f [] →
    exec (.tkEnd g) s = .next (retired (.tkEnd g) s .sl true []))

/-! ### Espalier's grid and the element cores' commands (R148, R162 to R166, R185 to R194) -/

namespace Sys2Proof.Spec

/-- The register blocks of BAR0, as [first, end). -/
def espRegs : Nat × Nat := (0x800000, 0x900000)
def elcRegs (n : Nat) : Nat × Nat := (0x900000 + 0x10000 * n, 0x910000 + 0x10000 * n)
def thnRegs : Nat × Nat := (0xA00000, 0xB00000)
def schRegs : Nat × Nat := (0xB00000, 0xC00000)

/-- FTG `g` with a configuration in effect, before its first instant: tick indices start again with a new N, grid frequencies with
a new mode (R148). -/
def underConfig (s : State) (g : Nat) (fixed : Bool) (fnom n : Nat) : State :=
  let f := espFtg s g
  let new := n != s.rd (R.ESP_FTGg_STAT_NACT g)
  setFtg ((s.wr (R.ESP_FTGg_STAT_NACT g) n).wrb (R.ESP_FTGg_STAT_MODEACT g) fixed) g
    { f with cfg := none, fnom := fnom, step := true, next := if new then 0 else f.next, closedN := if new then 0 else f.closedN,
             miss := if fixed == ftgFixed s g then f.miss else 0, cyc := if fixed == ftgFixed s g then f.cyc else [] }

/-- No acquisition unit is armed, so that a grid close stores no recorder row. -/
def noRecorder (s : State) : Prop := ∀ u < 4, s.rd (R.REC_AUu_STAT_STATE u) = 0

/-- The instant record of a tick (R158): stamp, tick index, frequency word. -/
def instRecord (i : Inst) : List Byte := leBytes 8 (stampOf i) ++ leBytes 4 i.tick ++ leBytes 4 i.fw

/-- Does the tick context hold the instant? -/
def contextOf (i : Inst) (x : Ctx) : Prop := x.tick = i.tick ∧ x.stamp = stampOf i ∧ x.fword = i.fw ∧ x.n = i.n

/-- The three planes at a close of instant `i` of FTG `g` (R158, R161, R164): its record stands in the slot; a channel that no resampler
wrote holds the previous slot's value, 0.0 where the parity of that is wrong, with I, and Q under LIMIT; nothing else changes. -/
def PlanesAtClose (s t : State) (g : Nat) (i : Inst) : Prop :=
  let slot := i.tick % 512
  let prev := (slot + 511) % 512
  let filled (m : Nat) : Prop := m ∈ chsOf s g ∧ m ∉ i.written
  (∀ k (h : k < (instRecord i).length), memRd t.mem (espInstBase + 16 * (512 * g + slot) + k) = (instRecord i)[k]) ∧
  (∀ m, filled m → t.rdW (valAddr m slot) = (if s.parBad.contains (valAddr m prev) then 0 else s.rdW (valAddr m prev)) ∧
    memRd t.mem (flagAddr m slot) = BitVec.ofNat 8 (8 + if i.fw.testBit 31 then 0x10 else 0)) ∧
  (∀ a, ¬ (espInstBase + 16 * (512 * g + slot) ≤ a ∧ a < espInstBase + 16 * (512 * g + slot) + 16) →
    (∀ m, filled m → ¬ (valAddr m slot ≤ a ∧ a < valAddr m slot + 4) ∧ a ≠ flagAddr m slot) → memRd t.mem a = memRd s.mem a)

/-- Core `n` of the FTG is notified of instant `i` (R177, R181, R182): in RUN with a context free it takes the tick index; the context waits
while class 0 of an older one runs or waits, and else opens with the sections that the image and the bays' modes give it. With eight
open it fails with cause 4. -/
def CoreNotified (s t : State) (n : Nat) (i : Inst) : Prop :=
  s.rd (R.ELCn_STAT_STATE n) = 1 →
    (8 ≤ (s.core n).openCtxs → t.rd (R.ELCn_STAT_STATE n) = 3 ∧ t.rd (R.ELCn_STAT_CAUSE n) = 4) ∧
    ((s.core n).openCtxs < 8 → t.rd (R.ELCn_TICKIX_TICK n) = i.tick % 2 ^ 32 ∧
      (class0Busy (s.core n) = true → ∃ x ∈ (t.core n).held, contextOf i x) ∧
      (class0Busy (s.core n) = false → (s.core n).held = [] → ∀ cls < 4, ∀ j < 3, (∃ p, (12 * n + 3 * cls + j, p) ∈ s.img.entry) →
        0 < s.rd (R.ELCn_BAYj_MODE_ACT n j) → s.rd (R.ELCn_BAYj_MODE_ACT n j) < 5 → (s.core n).reloaded = false →
        (∀ l ∈ [(s.core n).modeReq, (s.core n).await, (s.core n).reinit, (s.core n).relayout], j ∉ l) →
        ∃ x ∈ (t.core n).ctxs, contextOf i x ∧ (cls, j) ∈ x.rest))

end Sys2Proof.Spec

/-- Where the oldest open instant of an FTG has its waiting set complete, GRID_CLOSE closes it; where a sample is missing and its deadline
has passed, TICK_DEADLINE counts a deadline close and closes it. At a close the FTG's head registers name its slot, FREQ takes
the frequency word, the FTG's count of closed ticks goes up by one at the present TB2, no instant with that tick and time stays
open, FILL has risen by the number of channels that no resampler wrote, and each core of the FTG in RUN takes the notification, or fails
with eight contexts open. Where no acquisition unit is armed (one writes rows to DRAM), memory changes in the instant record of the slot and in the filled samples alone, which hold what
R158 and R164 give. Neither does anything while its condition fails: TICK_DEADLINE before the deadline with a sample missing,
GRID_CLOSE with one missing, either with no tick open. -/
def Obligations.GridCloses : Prop :=
  ∀ (g : Fin 4) (s : State),
    (∀ i, oldestOpen (espFtg s g) = some i →
      let closed (t : State) : Prop := t.on (R.ESP_FTGg_HEAD_VALID g) = true ∧ t.rd (R.ESP_FTGg_HEAD_SLOT g) = i.tick % 512 ∧
        t.rd (R.ESP_FTGg_FREQ_FREQ g) = i.fw % 2 ^ 32 ∧ (espFtg t g).closedN = (espFtg s g).closedN + 1 ∧
        (espFtg t g).closedAt = some s.tb2Ns ∧ (∀ x ∈ (espFtg t g).insts, x.tick = i.tick → x.t = i.t → x.done = true) ∧
        t.rd (R.ESP_FTGg_FILL_FILL g) % 2 ^ 32 =
          (s.rd (R.ESP_FTGg_FILL_FILL g) + ((chsOf s g).filter fun m => !i.written.contains m).length) % 2 ^ 32 ∧
        (∀ n ∈ groupsOf s g, Sys2Proof.Spec.CoreNotified s t n i) ∧
        (Sys2Proof.Spec.noRecorder s → Sys2Proof.Spec.PlanesAtClose s t g i)
      (complete s g i = true → Runs (.gridClose g) s closed) ∧
      (complete s g i = false → i.t + dlnNs s g * nsU ≤ actU s → Runs (.tickDeadline g) s fun t =>
        closed t ∧ t.rd (R.ESP_FTGg_CNT_DLCLOSE g) = min (s.rd (R.ESP_FTGg_CNT_DLCLOSE g) + 1) (2 ^ (R.ESP_FTGg_CNT_DLCLOSE g).w - 1)) ∧
      (complete s g i = false → actU s < i.t + dlnNs s g * nsU → exec (.tickDeadline g) s = .next s) ∧
      (complete s g i = false → exec (.gridClose g) s = .next s) ∧
      (complete s g i = true → exec (.tickDeadline g) s = .next s)) ∧
    (oldestOpen (espFtg s g) = none → exec (.gridClose g) s = .next s ∧ exec (.tickDeadline g) s = .next s)

/-- A write of MODE, FNOM and N: ignored while LOCK is set; stored at once in an FTG that is disabled or not started; refused with
CFG_REFUSED and an event where it breaks R99 for a running local resampler; otherwise stored, and it waits unless it is the one
in effect. N codes 9 to 15 leave N as it is. FTG_CONFIG_EFFECT at the boundary, once active time has reached the first instant
under it (as it follows the latest placed one, a phase step counted in), puts N, MODE and FNOM in effect and places that instant, which carries STEP; a new N restarts the tick index. -/
def Obligations.GridConfiguration : Prop :=
  (∀ (g : Fin 4) (fixed : Bool) (fnom : Fin 2) (n : Fin 16) (s : State),
    let code := if n.val < 9 then n.val else s.rd (R.ESP_FTGg_CFG_N g)
    let stored (t : State) : Prop := t.on (R.ESP_FTGg_CFG_MODE g) = fixed ∧ t.rd (R.ESP_FTGg_CFG_FNOM g) = fnom.val ∧
      t.rd (R.ESP_FTGg_CFG_N g) = code % 16 ∧ SameBytes s t ∧
      RegsKept s t [((R.ESP_FTGg_CFG_N g).addr, (R.ESP_FTGg_CFG_N g).addr + 4)]
    (s.on R.ESP_CTL_LOCK = true → exec (.ftgConfigWrite g fixed fnom n) s = .next s) ∧
    (s.on R.ESP_CTL_LOCK = false → (ftgOn s g = false ∨ (espFtg s g).started = false) →
      Runs (.ftgConfigWrite g fixed fnom n) s fun t => stored t ∧ t.esp = s.esp) ∧
    (s.on R.ESP_CTL_LOCK = false → ftgOn s g = true → (espFtg s g).started = true → cfgBreaks s g fixed fnom code = true →
      Runs (.ftgConfigWrite g fixed fnom n) s fun t => t.on (R.ESP_FTGg_STAT_CFG_REFUSED g) = true ∧ t.esp = s.esp ∧
        (∃ e, t.yew.cross = s.yew.cross ++ [e] ∧ e.src = 0x08 ∧ e.code = 1) ∧
        RegsKept s t [((R.ESP_FTGg_STAT_CFG_REFUSED g).addr, (R.ESP_FTGg_STAT_CFG_REFUSED g).addr + 4)] ∧ SameBytes s t) ∧
    (s.on R.ESP_CTL_LOCK = false → ftgOn s g = true → (espFtg s g).started = true → cfgBreaks s g fixed fnom code = false →
      Runs (.ftgConfigWrite g fixed fnom n) s fun t => stored t ∧
        (espFtg t g).cfg = if ftgFixed s g = fixed ∧ fnomOf s g = fnom.val ∧ s.rd (R.ESP_FTGg_STAT_NACT g) = code then none
          else some (fixed, fnom.val, code))) ∧
  (∀ (g : Fin 4) (s : State) (p : Nat) (fixed : Bool) (fnom n : Nat), (espFtg s g).cfg = some (fixed, fnom, n) → n < 9 →
    (espFtg s g).started = true → (espFtg s g).next % ftgN s g = 0 → (espFtg s g).prev = some p →
    nextInstant (Sys2Proof.Spec.underConfig s g fixed fnom n) g p (espFtg s g).cycNo ≤ actU s →
    Runs (.ftgConfigEffect g) s fun t => t.rd (R.ESP_FTGg_STAT_NACT g) = n ∧ ftgFixed t g = fixed ∧ (espFtg t g).fnom = fnom ∧
      (espFtg t g).cfg = none ∧ t.on (R.ESP_FTGg_STAT_STEP_STK g) = true ∧
      (∃ x, (espFtg t g).insts.head? = some x ∧ x.fw.testBit 27 = true ∧ x.n = nOfCode n ∧
        x.tick = if n = s.rd (R.ESP_FTGg_STAT_NACT g) then (espFtg s g).next else 0))

/-- A mode request 1 to 5 stands in REQ and waits for the core's next notification; 0, 6 and 7 change nothing. A request for a defined
group stands in REQ, pending unless the group is the active one; one for an undefined group changes no group, sets SG_REFUSED
and logs an event. When the load engine has rewritten a bay's region of element-state memory, that region holds the image's
initial values, no byte outside it has changed, and the bay's sections wait for the next cycle boundary. -/
def Obligations.CoreModesAndGroups : Prop :=
  (∀ (n : Fin 8) (j : Fin 3) (m : Fin 8) (s : State),
    (1 ≤ m.val → m.val ≤ 5 → Runs (.bayModeRequest n j m) s fun t =>
      t.rd (R.ELCn_BAYj_MODE_REQ n j) = m.val ∧ j.val ∈ (t.core n.val).modeReq ∧
      t.rd (R.ELCn_BAYj_MODE_ACT n j) = s.rd (R.ELCn_BAYj_MODE_ACT n j) ∧
      RegsKept s t [((R.ELCn_BAYj_MODE_REQ n j).addr, (R.ELCn_BAYj_MODE_REQ n j).addr + 4)] ∧ SameBytes s t ∧ t.thn = s.thn) ∧
    (m.val = 0 ∨ 5 < m.val → exec (.bayModeRequest n j m) s = .next s)) ∧
  (∀ (n : Fin 8) (j : Fin 3) (g : Fin 8) (s : State),
    ((s.rd (R.ELCn_BAYj_SG_DEF n j)).testBit g.val = true → Runs (.settingGroupRequest n j g) s fun t =>
      t.rd (R.ELCn_BAYj_SG_REQ n j) = g.val ∧ t.on (R.ELCn_BAYj_SG_PEND n j) = decide (g.val ≠ s.rd (R.ELCn_BAYj_SG_ACT n j)) ∧
      t.rd (R.ELCn_BAYj_SG_ACT n j) = s.rd (R.ELCn_BAYj_SG_ACT n j) ∧
      RegsKept s t [((R.ELCn_BAYj_SG_REQ n j).addr, (R.ELCn_BAYj_SG_REQ n j).addr + 4)] ∧ SameBytes s t) ∧
    ((s.rd (R.ELCn_BAYj_SG_DEF n j)).testBit g.val = false → Runs (.settingGroupRequest n j g) s fun t =>
      t.on (R.ELCn_BAYj_SG_SG_REFUSED n j) = true ∧ t.rd (R.ELCn_BAYj_SG_REQ n j) = s.rd (R.ELCn_BAYj_SG_REQ n j) ∧
      t.on (R.ELCn_BAYj_SG_PEND n j) = s.on (R.ELCn_BAYj_SG_PEND n j) ∧
      (∃ e, t.yew.cross = s.yew.cross ++ [e] ∧ e.src = 0x09 ∧ e.code = 1 ∧ e.payload = padTo 24 (leBytes 4 (3 * n.val + j.val))) ∧
      SameBytes s t)) ∧
  (∀ (n : Fin 8) (j : Fin 3) (s : State), j.val ∈ (s.core n.val).reinit →
    let a := ecElemBase n.val + 0x2800 * j.val
    Runs (.bayReinitDone n j) s fun t => j.val ∉ (t.core n.val).reinit ∧ j.val ∈ (t.core n.val).await ∧
      t.on (R.ELCn_BAYj_VST_INVALID n j) = true ∧ SameBytesBut s t a (a + 0x2800) ∧
      ((∀ b ∈ s.img.blocks, b.1 + b.2.length ≤ a ∨ a + 0x2800 ≤ b.1) → ∀ x, a ≤ x → x < a + 0x2800 → memRd t.mem x = 0) ∧
      (∀ x l, s.img.blocks = [(x, l)] → a ≤ x → x + l.length ≤ a + 0x2800 →
        ∀ o (h : o < l.length), memRd t.mem (x + o) = l[o]) ∧
      RegsKept s t [Sys2Proof.Spec.elcRegs n.val])

/-- C0_BUDGET_BREACH once the counter has reached 1,200 with class 0 running or waiting, or ended by an exception in this very cycle: BREACH_STK is
set, the count goes up (saturating), source 5 is told the core, no byte of memory changes; with no notification held the core's outputs are blocked, no output of its bays is
driven and C0LAST shows 1,200; with one held whose class 0 can run, that begins at once (R182). Before that it changes nothing. The
last syllable of a class-0 bundle that would complete past 1,200 cycles is such a breach, and the bundle has no effect. CORE_BLOCK_RESET while LOCK is clear, with none in progress or recent: STATE is RELOAD, nothing runs, its bays' ACT is FAILED and no output of
theirs is driven, the window opens; during one, or with LOCK set, it changes nothing. CORE_RELOAD_DONE in RELOAD: where every section
of the running slot for the core agrees with its CRC-32 and MRAM was read well the core is in RUN with ACT waiting for the cycle boundary, otherwise in
FAILED with cause 5; the core's window goes on with its tail, and only the core's memories change. -/
def Obligations.CoreBreachAndReset : Prop :=
  (∀ (n : Fin 8) (s : State),
    let breached (t : State) : Prop := t.on (R.ELCn_STAT_BREACH_STK n) = true ∧
      t.rd (R.ELCn_CNT_BREACH n) = min (s.rd (R.ELCn_CNT_BREACH n) + 1) (2 ^ (R.ELCn_CNT_BREACH n).w - 1) ∧
      t.prv.lines = s.prv.lines ++ [(5, BitVec.ofNat 32 n.val)] ∧ SameBytes s t
    let blocked (t : State) : Prop := (t.core n.val).breach = true ∧ t.rd (R.ELCn_C0LAST_LAST n) = 1200 ∧
      ∀ o, o < 48 → o / 6 = n.val → t.thn.drv.testBit o = false
    (∀ b, breachTick s n.val = some b → (s.core n.val).c0From + 12000 ≤ s.tb2Ns → Runs (.c0BudgetBreach n) s fun t =>
      breached t ∧ ((s.core n.val).held = [] → blocked t) ∧
      (∀ h r, (s.core n.val).held = h :: r → (∀ y ∈ (s.core n.val).ctxs, ∀ e ∈ y.rest, e.1 = 0 → y.tick = b) →
        (∃ j, (0, j) ∈ h.rest ∧ runnable s n.val h (0, j) = true) →
        ∃ z, (t.core n.val).run = some z ∧ z.cls = 0 ∧ z.tick = h.tick)) ∧
    (breachTick s n.val = none ∨ s.tb2Ns < (s.core n.val).c0From + 12000 → exec (.c0BudgetBreach n) s = .next s) ∧
    (∀ g x, (s.core n.val).run = some x → x.cls = 0 → x.exc = none → Fetched s n x → fetchedBy s n x = s →
      fitsBundle x (.tickEnd n g true) = true → 1200 < c0Cycles (s.core n.val) { x with syls := askedWith x (.tickEnd n g true) } →
      (s.core n.val).held = [] → Runs (.tickEnd n g true) s fun t => breached t ∧ blocked t ∧
        ∀ j o, verWord t n.val j o = verWord s n.val j o)) ∧
  (∀ (n : Fin 8) (s : State), s.on (R.ELCn_CTL_LOCK n) = false → n.val ∉ s.prv.inRst → recentReset s n.val = false → Runs (.coreBlockReset n) s fun t =>
    t.rd (R.ELCn_STAT_STATE n) = 2 ∧ (t.core n.val).run = none ∧ (t.core n.val).ctxs = [] ∧
    (∀ j < 3, t.rd (R.ELCn_BAYj_MODE_ACT n j) = 6) ∧ (∀ o, o < 48 → o / 6 = n.val → t.thn.drv.testBit o = false) ∧
    (t.rd R.PRV_BRST_INWIN).testBit n.val = true ∧ n.val ∈ t.prv.inRst ∧ SameBytes s t) ∧
  (∀ (n : Fin 8) (s : State), n.val ∈ s.prv.inRst ∨ s.on (R.ELCn_CTL_LOCK n) = true → exec (.coreBlockReset n) s = .next s) ∧
  (∀ (n : Fin 8) (s : State), s.rd (R.ELCn_STAT_STATE n) = 2 →
    ((∀ e ∈ sections s (s.rd R.GLB_BOOT_SLOT), coreSection n.val e = true → crcGood s (s.rd R.GLB_BOOT_SLOT) e = true) →
      Runs (.coreReloadDone n true) s fun t => t.rd (R.ELCn_STAT_STATE n) = 1 ∧ (t.core n.val).reloaded = true ∧ n.val ∉ t.prv.inRst ∧
        (n.val ∈ s.prv.inRst → (n.val, s.tb2Ns) ∈ t.prv.tail) ∧
        SameBytesBut s t (ecInstrBase n.val) (ecInstrBase n.val + 0x100000) ∧
        RegsKept s t [((R.ELCn_STAT_STATE n).addr, (R.ELCn_STAT_STATE n).addr + 4)]) ∧
    (∀ readOk, (readOk = false ∨ ∃ e ∈ sections s (s.rd R.GLB_BOOT_SLOT), coreSection n.val e = true ∧ crcGood s (s.rd R.GLB_BOOT_SLOT) e = false) →
      Runs (.coreReloadDone n readOk) s fun t => t.rd (R.ELCn_STAT_STATE n) = 3 ∧ t.rd (R.ELCn_STAT_CAUSE n) = 5 ∧
        (∀ j < 3, t.rd (R.ELCn_BAYj_MODE_ACT n j) = 6) ∧ SameBytes s t ∧
        RegsKept s t [Sys2Proof.Spec.elcRegs n.val, Sys2Proof.Spec.thnRegs]))

/-! ### Privet (R33, R412 to R434, R548) -/

/-- A clock monitor's window with a count outside its band makes the clock's item live and tells its source the count once; a count inside
ends the item; a receive clock's, while its link is up, does so for the port's LINK item. The safe-state gate is closed exactly
while the AON or the FAB item is live. A temperature sets TEMP (its low eight bits, log entry 163), makes TEMP_CRIT's item live from 135 °C on and ends it below,
TEMP_WARN's from the threshold on, ending it 5 °C below. A rail outside its window makes its item live, told to its source but while a reset is asserted; inside ends it. A
stalled crossing tells source 24 the FIFO and its reader's domain, unless an end of it is off. No byte of memory changes. -/
def Obligations.FaultMonitors : Prop :=
  (∀ (c : Fin 9) (count : Nat) (s : State), ¬ (4 ≤ c.val ∧ c.val ≤ 6) → srcMasked s (clockSource c) = false →
    let bad := decide (count < (clockBand s c).1) || decide ((clockBand s c).2 < count)
    Runs (.clockMonitorWindow c count) s fun t => t.itemLive (clockSource c) 0 = bad ∧
      t.prv.fabGate = (t.itemLive 8 0 || t.itemLive 9 0) ∧
      t.prv.lines = s.prv.lines ++ (if bad && !s.itemLive (clockSource c) 0 then [(clockSource c, BitVec.ofNat 32 count)] else []) ∧
      (t.prv.fabGate = true → padsNow t = 0 ∧ gpoTerms t = 0) ∧ SameBytes s t ∧ RegsKept s t [(0xA00000, 0xB00000)]) ∧
  (∀ (c : Fin 9) (count : Nat) (s : State), 4 ≤ c.val → c.val ≤ 6 → s.on (R.NET_Pp_STAT_LINK (c.val - 4)) = true →
    let bad := decide (count < (clockBand s c).1) || decide ((clockBand s c).2 < count)
    Runs (.clockMonitorWindow c count) s fun t => t.itemLive 20 (c.val - 4) = bad ∧ t.regs = s.regs ∧ SameBytes s t) ∧
  (∀ (tj : BitVec 9) (s : State), Runs (.temperatureCrossing tj) s fun t =>
    t.rd R.PRV_TMON_TEMP = tj.toNat % 256 ∧ t.itemLive 17 0 = decide (135 ≤ tj.toInt) ∧
    ((clamp 85 130 (s.rd R.PRV_TMON_WARN) : Nat) ≤ tj.toInt → t.itemLive 16 0 = true) ∧
    (tj.toInt + 5 ≤ (clamp 85 130 (s.rd R.PRV_TMON_WARN) : Nat) → t.itemLive 16 0 = false) ∧
    (tj.toInt < (clamp 85 130 (s.rd R.PRV_TMON_WARN) : Nat) → (clamp 85 130 (s.rd R.PRV_TMON_WARN) : Nat) < tj.toInt + 5 →
      t.itemLive 16 0 = s.itemLive 16 0) ∧
    RegsKept s t [(0x100044, 0x100048)] ∧ SameBytes s t) ∧
  (∀ (r : Fin 10) (s : State),
    (Runs (.supplyRailFault r) s fun t => t.itemLive 15 r.val = true ∧ t.regs = s.regs ∧ SameBytes s t ∧
      t.prv.lines = s.prv.lines ++ (if s.itemLive 15 r.val = true ∨ s.glb.hold ≠ 0 then [] else [(15, BitVec.ofNat 32 r.val)])) ∧
    (Runs (.supplyRailRecover r) s fun t => t.itemLive 15 r.val = false ∧ t.regs = s.regs ∧ SameBytes s t ∧ t.prv.lines = s.prv.lines)) ∧
  (∀ (k : Fin 22) (s : State), (fifoEnds k).1.all s.pg = true →
    exec (.crossingStall k) s = .next { s with prv := { s.prv with
      lines := s.prv.lines ++ [(24, BitVec.ofNat 32 (k.val * 256 + (fifoEnds k).2))] } }) ∧
  (∀ (k : Fin 22) (s : State), (fifoEnds k).1.all s.pg = false → exec (.crossingStall k) s = .next s)

/-- One occurrence on a line that is not masked, not consequential, outside safe state and reset: with LOG_ONLY, BLOCK_BAYS, BLOCK_RESET or SAFE as ACTION its
sticky bit is set, its occurrence counter has gone up (saturating), its detail register holds the detail; where no first fault
was held, the capture holds source and detail. BLOCK_BAYS blocks the occurrence's bays and none of their outputs is driven;
LOG_ONLY leaves the bays, the mode of the device and the pads' gate as they were; SAFE enters safe state with the source as
cause and drives no pad; DEVICE_RESET holds a SYS reset with cause 3 and the source in GLB_RSTCAUSE; BLOCK_RESET stops its target and opens
the target's window, does nothing while one is in progress, and within 100 ms of the last is safe state with cause 0x3D. Of two
occurrences of one cycle the lower source is captured with MULTI set, both are recorded, both block their bays, and SAFE of one supersedes
what the other would do. An uncorrectable error of the directory (source 2, memory 5) removes the entry that holds the word, one of the
packet buffer (memory 4) drops a frame that waits there: which one is a free value (log entry 32). -/
def Obligations.FaultOccurrences : Prop :=
  (∀ (k : Fin 25) (det : BitVec 32) (s : State), lineMasked s k.val det.toNat = false → consequential s k.val det.toNat = false →
    s.on R.PRV_STAT_SAFE = false → s.glb.hold = 0 → ¬ (k.val = 2 ∧ (det.toNat / 2 ^ 28 = 4 ∨ det.toNat / 2 ^ 28 = 5)) →
    let recorded (t : State) : Prop := (t.rd R.PRV_STK_STK).testBit k.val = true ∧
      t.rd (R.PRV_SRCs_CNT_OCC k.val) = min (s.rd (R.PRV_SRCs_CNT_OCC k.val) + 1) 65535 ∧ t.rd (R.PRV_SRCs_DET_DET k.val) = det.toNat ∧
      t.on R.PRV_FF_CTL_VALID = true ∧
      (s.on R.PRV_FF_CTL_VALID = false → t.rd R.PRV_FF_SRC_SRC = k.val ∧ t.rd R.PRV_FF_DET_DET = det.toNat ∧ t.on R.PRV_FF_CTL_MULTI = false) ∧
      (s.on R.PRV_FF_CTL_VALID = true → t.rd R.PRV_FF_SRC_SRC = s.rd R.PRV_FF_SRC_SRC ∧ t.rd R.PRV_FF_DET_DET = s.rd R.PRV_FF_DET_DET) ∧
      SameBytes s t
    (actionOf s k.val = 0 → Runs (.privetFaultOccurrence [(k, det)]) s fun t => recorded t ∧
      t.rd R.PRV_BAYBLK_BLK = s.rd R.PRV_BAYBLK_BLK ∧ t.on R.PRV_STAT_SAFE = false ∧ t.thn = s.thn ∧ t.glb = s.glb) ∧
    (actionOf s k.val = 1 → Runs (.privetFaultOccurrence [(k, det)]) s fun t => recorded t ∧
      t.rd R.PRV_BAYBLK_BLK = (s.rd R.PRV_BAYBLK_BLK ||| occBays s k.val det.toNat) % 2 ^ 24 ∧
      (∀ o, o < 48 → (occBays s k.val det.toNat).testBit (o / 2) = true → t.thn.drv.testBit o = false)) ∧
    (actionOf s k.val = 4 → Runs (.privetFaultOccurrence [(k, det)]) s fun t => recorded t ∧ t.on R.PRV_STAT_SAFE = true ∧
      t.rd R.PRV_STAT_SAFE_CAUSE = k.val ∧ padsNow t = 0 ∧ gpoTerms t = 0) ∧
    (actionOf s k.val = 3 → Runs (.privetFaultOccurrence [(k, det)]) s fun t => t.glb.hold = 2 ∧ t.rd R.GLB_RSTCAUSE_CAUSE = 3 ∧
      t.rd R.GLB_RSTCAUSE_PRVSRC = k.val ∧ (t.rd R.PRV_STK_STK).testBit k.val = true) ∧
    (actionOf s k.val = 2 → ∀ n, occTarget k.val det.toNat = some n →
      (n ∉ s.prv.inRst → recentReset s n = false → Runs (.privetFaultOccurrence [(k, det)]) s fun t => recorded t ∧
        n ∈ t.prv.inRst ∧ (t.rd R.PRV_BRST_INWIN).testBit n = true ∧ (n, s.tb2Ns) ∈ t.prv.lastBrst ∧ t.on R.PRV_STAT_SAFE = false ∧
        (n < 8 → t.rd (R.ELCn_STAT_STATE n) = 2 ∧ (t.core n).run = none ∧ ∀ j < 3, t.rd (R.ELCn_BAYj_MODE_ACT n j) = 6) ∧
        (n = 8 → t.rd R.SCH_STAT_STATE = 3 ∧ t.sch.cur = none ∧ t.thn.sch = 0)) ∧
      (n ∉ s.prv.inRst → recentReset s n = true → Runs (.privetFaultOccurrence [(k, det)]) s fun t => recorded t ∧
        t.on R.PRV_STAT_SAFE = true ∧ t.rd R.PRV_STAT_SAFE_CAUSE = 0x3D ∧ t.on R.PRV_STAT_ESC_STK = true ∧ t.rd R.PRV_BRST_LASTESC = n ∧
        t.prv.inRst = s.prv.inRst ∧ padsNow t = 0) ∧
      (n ∈ s.prv.inRst → Runs (.privetFaultOccurrence [(k, det)]) s fun t => recorded t ∧ t.prv.inRst = s.prv.inRst ∧
        t.on R.PRV_STAT_SAFE = false ∧ t.thn = s.thn ∧ t.glb = s.glb))) ∧
  (∀ (a b : Fin 25) (da db : BitVec 32) (s : State), a < b → s.on R.PRV_STAT_SAFE = false → s.glb.hold = 0 → a.val ≠ 2 → b.val ≠ 2 →
    (∀ o ∈ [(a, da), (b, db)], lineMasked s o.1.val o.2.toNat = false ∧ consequential s o.1.val o.2.toNat = false ∧
      (actionOf s o.1.val = 0 ∨ actionOf s o.1.val = 1 ∨ actionOf s o.1.val = 4)) →
    Runs (.privetFaultOccurrence [(b, db), (a, da)]) s fun t =>
      (∀ o ∈ [(a, da), (b, db)], (t.rd R.PRV_STK_STK).testBit o.1.val = true ∧ t.rd (R.PRV_SRCs_DET_DET o.1.val) = o.2.toNat ∧
        t.rd (R.PRV_SRCs_CNT_OCC o.1.val) = min (s.rd (R.PRV_SRCs_CNT_OCC o.1.val) + 1) 65535) ∧
      (s.on R.PRV_FF_CTL_VALID = false → t.rd R.PRV_FF_SRC_SRC = a.val ∧ t.rd R.PRV_FF_DET_DET = da.toNat ∧ t.on R.PRV_FF_CTL_MULTI = true) ∧
      (actionOf s a.val = 4 ∨ actionOf s b.val = 4 → t.on R.PRV_STAT_SAFE = true ∧
        t.rd R.PRV_STAT_SAFE_CAUSE = (if actionOf s a.val = 4 then a.val else b.val) ∧
        t.rd R.PRV_BAYBLK_BLK = s.rd R.PRV_BAYBLK_BLK ∧
        (s.on R.PRV_FF_CTL_VALID = false → actionOf s a.val ≠ 4 → t.on R.PRV_FF_SRC_SUPER = true ∧ t.rd R.PRV_FF_SRC_ACTION = 4)) ∧
      (actionOf s a.val = 1 → actionOf s b.val = 1 → t.on R.PRV_STAT_SAFE = false ∧
        t.rd R.PRV_BAYBLK_BLK = (s.rd R.PRV_BAYBLK_BLK ||| occBays s a.val da.toNat ||| occBays s b.val db.toNat) % 2 ^ 24)) ∧
  (∀ (det : BitVec 32) (s : State), lineMasked s 2 det.toNat = false → s.on R.PRV_STAT_SAFE = false → s.glb.hold = 0 → actionOf s 2 = 0 →
    (det.toNat / 2 ^ 28 = 5 → Runs (.privetFaultOccurrence [(2, det)]) s fun t =>
      t.svi.dir = mdel s.svi.dir (det.toNat % 2 ^ 25 / 128) ∧
      t.rd R.SVI_DIR_STAT_USED = t.svi.dir.length % 2 ^ R.SVI_DIR_STAT_USED.w ∧ t.rd (R.PRV_SRCs_DET_DET 2) = det.toNat) ∧
    (det.toNat / 2 ^ 28 = 4 → Runs (.privetFaultOccurrence [(2, det)]) s fun t => t.rd (R.PRV_SRCs_DET_DET 2) = det.toNat ∧
      (buffered s ≠ [] → ∃ e ∈ buffered s, queueOf t e.1 e.2.1 = (queueOf s e.1 e.2.1).eraseIdx e.2.2 ∧
        ∀ p q, (p, q) ≠ (e.1, e.2.1) → queueOf t p q = queueOf s p q)))

/-- SAFE_REQUEST and PRIVET_SELFCHECK enter safe state where it is not in force, with causes 0x3C and 0x3E, the count up by one: no TRIP and
no GPO pad is driven, and every GOOSE control block is due a frame with its quality members invalid; the self-check also sets
SELF_STK. BAY_BLOCK_CLEAR outside safe state clears the written bits that no live item with ACTION 1 holds and no others; in safe
state it changes nothing. CONSEQ_WINDOW_CLOSE ends a target's tail once that has lasted 10 µs, and sooner changes nothing.
FIRST_FAULT_REARM frees the capture and changes nothing else. ALIVE_TOGGLE, once the half-period (500 µs in mode 2, 50 ms in mode 1)
has passed, toggles ALIVE in modes 1 and 2, holds it in 3 and puts it low in 0; before it has passed it changes nothing. -/
def Obligations.SafeStateAndPrivetControls : Prop :=
  (∀ (s : State) (c : Instr) (cause : Nat), (c = .safeRequest ∧ cause = 0x3C) ∨ (c = .privetSelfcheck ∧ cause = 0x3E) →
    s.on R.PRV_STAT_SAFE = false → Runs c s fun t => t.on R.PRV_STAT_SAFE = true ∧ t.rd R.PRV_STAT_SAFE_CAUSE = cause ∧
      t.rd R.PRV_STAT_SAFE_CNT = min (s.rd R.PRV_STAT_SAFE_CNT + 1) 65535 ∧ padsNow t = 0 ∧ gpoTerms t = 0 ∧ SameBytes s t ∧
      (c = .privetSelfcheck → t.on R.PRV_STAT_SELF_STK = true) ∧ t.net.safeDue = s.img.gcbs.map (·.1) ∧
      (∃ e ∈ t.yew.cross, e.src = 1 ∧ e.code = 3 ∧ e.cls = 3 ∧ e.payload = padTo 24 (leBytes 4 cause ++ leBytes 4 0)) ∧
      RegsKept s t [(0x100004, 0x100008), (0xA00000, 0xB00000)]) ∧
  (∀ (mask : BitVec 24) (s : State), s.on R.PRV_STAT_SAFE = false → Runs (.bayBlockClear mask) s fun t =>
    (∀ b < 24, (t.rd R.PRV_BAYBLK_BLK).testBit b =
      ((s.rd R.PRV_BAYBLK_BLK).testBit b && (!mask.getLsbD b || (heldBays s).testBit b))) ∧
    RegsKept s t [(0x100014, 0x100018), (0xA00000, 0xB00000)] ∧ SameBytes s t) ∧
  (∀ (mask : BitVec 24) (s : State), s.on R.PRV_STAT_SAFE = true → exec (.bayBlockClear mask) s = .next s) ∧
  (∀ (k : Fin 9) (s : State),
    ((∀ e ∈ s.prv.tail, e.1 = k.val → e.2 + 10000 ≤ s.tb2Ns) → Runs (.conseqWindowClose k) s fun t =>
      (∀ e ∈ t.prv.tail, e.1 ≠ k.val) ∧ (t.rd R.PRV_BRST_INWIN).testBit k.val = s.prv.inRst.contains k.val ∧
      RegsKept s t [(0x100018, 0x10001C)] ∧ SameBytes s t) ∧
    ((∃ e ∈ s.prv.tail, e.1 = k.val ∧ s.tb2Ns < e.2 + 10000) → exec (.conseqWindowClose k) s = .next s)) ∧
  (∀ s : State, exec .firstFaultRearm s = .next (s.wr R.PRV_FF_CTL_VALID 0)) ∧
  (∀ s : State, let half := if aliveMode s = 1 then 50000000 else if aliveMode s = 2 then 500000 else 0
    (s.prv.aliveAt + half ≤ s.tb2Ns → Runs .aliveToggle s fun t => t.regs = s.regs ∧ SameBytes s t ∧ t.prv.aliveAt = s.tb2Ns ∧
      (aliveMode s = 1 ∨ aliveMode s = 2 → t.prv.alivePin = !s.prv.alivePin) ∧
      (aliveMode s = 3 → t.prv.alivePin = s.prv.alivePin) ∧ (aliveMode s = 0 → t.prv.alivePin = false)) ∧
    (s.tb2Ns < s.prv.aliveAt + half → exec .aliveToggle s = .next s))

/-! ### Yew (R397 to R411) -/

/-- The oldest event of the crossing reaches Yew outside the boot scan and an overflow period. With room (448 entries for a normal
event, 512 for a reserved one that merges with nothing) it becomes the last entry, takes NEXT, and NEXT goes up by one. Without room its class is
counted as lost, OVF_STK and the overflow period are set, and nothing else of the FIFO changes. A reserved event merges into
the first pending entry behind the head with its SOURCE and CODE: REP goes up, saturating; the payload stands, but for THN_TRIP
whose first eight bytes are OR'd and whose others are the newer. Memory and all other registers stay, but for an event whose number a
recorder header waits for: that header, in DRAM without error, takes the number of the entry. -/
def Obligations.YewAdmission : Prop :=
  ∀ (s : State) (ev : Ev) (r : List Ev), s.yew.cross = ev :: r → s.on R.YEW_STAT_OVF_PER = false → s.on R.YEW_STAT_SCAN = false →
    yewNext s + 1 < 2 ^ 48 →
    let st := ev.stamp.getD s.stampNow
    let meets (e : YEntry) : Prop := e.src = ev.src ∧ e.code = ev.code ∧ reservedEv e.cls e.src e.code = true
    let full : Prop := if reservedEv ev.cls ev.src ev.code then (∀ e ∈ s.yew.fifo.tail, ¬ meets e) ∧ 512 ≤ s.yew.fifo.length
      else 448 ≤ s.yew.fifo.length
    let room : Prop := if reservedEv ev.cls ev.src ev.code then (∀ e ∈ s.yew.fifo.tail, ¬ meets e) ∧ s.yew.fifo.length < 512
      else s.yew.fifo.length < 448
    (room → Runs (.yewEventAdmit 1) s fun t => t.yew.cross = r ∧
      t.yew.fifo = s.yew.fifo ++ [{ cls := ev.cls, src := ev.src, code := ev.code, seq := some (yewNext s), occ := s.yew.fifo.length,
                                    stamp := st, payload := ev.payload, tell := ev.tell }] ∧
      yewNext t = yewNext s + 1 ∧ t.rd R.YEW_STAT_LEVEL = s.yew.fifo.length + 1 ∧
      ((∀ u k, ev.tell ≠ .recHeader u k) → SameBytes s t ∧ RegsKept s t [(0x200008, 0x200014), (0x10003C, 0x100044)]) ∧
      (∀ u k, ev.tell = .recHeader u k → s.on R.MEM_STAT_TRAINED = true → s.hst.badWords = [] → s.hst.softWords = [] →
        t.rdMem (dramBase + partBase s u + 0x1000 * k + 8) 8 = leBytes 8 (yewNext s))) ∧
    (full → Runs (.yewEventAdmit 1) s fun t => t.yew.cross = r ∧ t.yew.fifo = s.yew.fifo ∧ yewNext t = yewNext s ∧
      t.on R.YEW_STAT_OVF_STK = true ∧ t.on R.YEW_STAT_OVF_PER = true ∧
      (ev.cls = 0 → t.rd R.YEW_LOST0_INFO = min (s.rd R.YEW_LOST0_INFO + 1) (2 ^ 32 - 1)) ∧
      (ev.cls = 1 → t.rd R.YEW_LOST1_C = min (s.rd R.YEW_LOST1_C + 1) (2 ^ 16 - 1)) ∧
      (2 ≤ ev.cls → t.rd R.YEW_LOST1_U = min (s.rd R.YEW_LOST1_U + 1) (2 ^ 16 - 1)) ∧
      SameBytes s t ∧ RegsKept s t [(0x200008, 0x20000C), (0x20001C, 0x200024)]) ∧
    (∀ (h e : YEntry) (pre post : List YEntry), reservedEv ev.cls ev.src ev.code = true → s.yew.fifo = h :: pre ++ e :: post →
      (∀ x ∈ pre, ¬ meets x) → meets e → Runs (.yewEventAdmit 1) s fun t => t.yew.cross = r ∧ ∃ p : List Byte,
        t.yew.fifo = h :: pre ++ { e with rep := min (e.rep + 1) 0xFFFF, payload := p, tell := if ev.tell = .nobody then e.tell else ev.tell } :: post ∧
        (¬ (ev.src = 0x0A ∧ ev.code = 1) → p = e.payload) ∧
        (ev.src = 0x0A → ev.code = 1 → e.payload.length = 24 → ev.payload.length = 24 →
          p = List.zipWith (fun a b => a ||| b) (e.payload.take 8) (ev.payload.take 8) ++ ev.payload.drop 8) ∧
        ((∀ u k, ev.tell ≠ .recHeader u k) → SameBytes s t ∧ RegsKept s t [(0x10003C, 0x100044)]))

/-- The head record is stored whole in the slot of its number and leaves the FIFO; OLDEST follows the ring; no other byte changes. While a reset is held
only the block in progress, within 4 µs, is still stored, and at POR none. The
boot scan ends with NEXT 514 above the highest whole record (1 in an empty ring), YEW_RESUME first and the waiting events numbered on from it;
a YEW_CLEARED among them takes the OLDEST found and its own number into its payload, a record's header the number of its event. A fetch copies the 64 bytes of the selected slot and classifies them: 0 the record, 2 outside [OLDEST, NEXT), 3 a bad CRC, else 1. GO starts a
verification unless one runs, which ends with the verdict of ECDSA under the owner key (`clearSig`) and no other; a token refused sets its RESULT and CLRREF_STK; one accepted appends YEW_CLEARED. Zeroing leaves no whole
record below the bound, keeps every other one, and touches valid marks only. -/
def Obligations.YewRecords : Prop :=
  (∀ (s : State) (e : YEntry) (r : List YEntry) (q : Nat), s.yew.fifo = e :: r → e.seq = some q → q < 2 ^ 48 → yewOldest s < 2 ^ 48 →
    r.length < 512 → ¬ (e.src = 2 ∧ e.code = 2) → s.on R.YEW_CFG_HOSTRING = false → s.on R.YEW_STAT_OVF_PER = false →
    (s.glb.hold = 0 ∨ (s.glb.hold ≠ 1 ∧ s.tb2Ns ≤ s.glb.holdAt + 4000)) →
    Runs .yewRecordWritten s fun t => t.yew.fifo = r ∧ t.rdMem (yewSlot q) 64 = recBytes e q ∧
      SameBytesBut s t (yewSlot q) (yewSlot q + 64) ∧ yewOldest t = max (yewOldest s) (q - 32767) ∧
      t.rd R.YEW_STAT_LEVEL = r.length ∧ RegsKept s t [(0x200008, 0x20000C), (0x200014, 0x20001C)]) ∧
  (∀ (s : State), (s.glb.hold = 1 ∨ (s.glb.hold ≠ 0 ∧ s.glb.holdAt + 4000 < s.tb2Ns)) → exec .yewRecordWritten s = .next s) ∧
  (∀ (s : State), let qs := scanSeqs s.mem
    let q0 := if qs = [] then 1 else qs.foldl max 0 + 514
    let cleared (e : YEntry) : Prop := e.src = 2 ∧ e.code = 2
    s.on R.YEW_STAT_SCAN = true → s.glb.hold ≠ 1 → s.on R.YEW_STAT_OVF_PER = false → q0 + 513 < 2 ^ 48 → s.yew.fifo.length < 512 →
    ((∀ e ∈ s.yew.fifo, ∀ u k, e.tell ≠ .recHeader u k) → Runs .yewScanEnd s fun t => t.on R.YEW_STAT_SCAN = false ∧ yewNext t = q0 + 1 + s.yew.fifo.length ∧
      t.yew.fifo.map (·.seq) = (List.range (s.yew.fifo.length + 1)).map (fun k => some (q0 + k)) ∧
      t.yew.fifo.tail.map (fun e => { e with seq := none, payload := [] }) = s.yew.fifo.map (fun e => { e with seq := none, payload := [] }) ∧
      (∀ k e f, s.yew.fifo[k]? = some e → t.yew.fifo[k + 1]? = some f → f.payload = if cleared e then padTo 24 (e.payload.take 8 ++
        leBytes 6 (yewOldest t) ++ leBytes 6 (min (leNat ((e.payload.drop 14).take 6)) (q0 + 1 + k)) ++ (e.payload.drop 20).take 4)
        else e.payload) ∧
      (∃ e, t.yew.fifo.head? = some e ∧ e.cls = 0 ∧ e.src = 2 ∧ e.code = 4 ∧
        e.payload = padTo 24 (leBytes 8 (qs.foldl max 0) ++ leBytes 8 q0)) ∧
      (qs = [] → yewOldest t = 1) ∧
      (qs ≠ [] → (∀ q ∈ qs, leNat (memRds s.mem (yewSlot q) 4) % 2 ^ 24 ≠ 0x020002) → yewOldest t ∈ qs ∧ ∀ q ∈ qs, yewOldest t ≤ q) ∧
      SameBytes s t ∧ RegsKept s t [(0x200008, 0x20001C), (0x10003C, 0x100044)]) ∧
    (∀ e u k, s.yew.fifo = [e] → e.tell = .recHeader u k → s.on R.MEM_STAT_TRAINED = true → s.hst.badWords = [] → s.hst.softWords = [] →
      Runs .yewScanEnd s fun t => t.rdMem (dramBase + partBase s u + 0x1000 * k + 8) 8 = leBytes 8 (q0 + 1))) ∧
  (∀ (s : State), let q := yewSel s
    let b := s.rdMem (yewSlot q) 64
    Runs .yewFetch s fun t => t.on R.YEW_RD_STAT_READY = true ∧
      (∀ w < 16, t.rd (R.YEW_RD_BUFw_DATA w) = leNat ((b.drop (4 * w)).take 4)) ∧
      (q < yewOldest s ∨ yewNext s ≤ q → t.rd R.YEW_RD_STAT_RESULT = 2) ∧
      (yewOldest s ≤ q → q < yewNext s → slotSeq s.mem (yewSlot q) = some q → t.rd R.YEW_RD_STAT_RESULT = 0) ∧
      (yewOldest s ≤ q → q < yewNext s → leNat (b.drop 60) = 0x59455721 → leNat ((b.drop 56).take 4) ≠ (crc32 (b.take 56)).toNat →
        t.rd R.YEW_RD_STAT_RESULT = 3) ∧
      (yewOldest s ≤ q → q < yewNext s → leNat (b.drop 60) ≠ 0x59455721 → t.rd R.YEW_RD_STAT_RESULT = 1) ∧
      SameBytes s t ∧ RegsKept s t [(0x200048, 0x20004C), (0x200100, 0x200140)]) ∧
  (∀ (s : State), (s.on R.YEW_CLR_STAT_BUSY = false → exec .yewClearGo s = .next (s.wrb R.YEW_CLR_STAT_BUSY true)) ∧
    (s.on R.YEW_CLR_STAT_BUSY = true → exec .yewClearGo s = .next s)) ∧
  (∀ (s : State) (sigOk : Bool), let tk := tokenBytes s
    (sigOk ≠ clearSig s → exec (.yewClearVerifyDone sigOk) s = .next s) ∧ (s.on R.YEW_CLR_STAT_BUSY = true → sigOk = clearSig s →
    let good : Prop := leNat (tk.take 4) = 0x59434C52 ∧ sigOk = true
    let dev : Prop := leNat ((tk.drop 8).take 8) = s.rd64 R.SEC_DEVID_LO_DEVID R.SEC_DEVID_HI_DEVID
    let nonce : Prop := leNat ((tk.drop 4).take 4) = s.yew.nonce.toNat
    let refused (r : Nat) : Prop := Runs (.yewClearVerifyDone sigOk) s fun t => t.rd R.YEW_CLR_STAT_RESULT = r ∧
      t.on R.YEW_STAT_CLRREF_STK = true ∧ t.on R.YEW_CLR_STAT_BUSY = false ∧ t.yew.fifo = s.yew.fifo ∧
      (∃ e, t.yew.cross = s.yew.cross ++ [e] ∧ e.src = 2 ∧ e.code = 3) ∧ SameBytes s t ∧
      RegsKept s t [(0x200008, 0x20000C), (0x20002C, 0x200030)]
    (s.on R.SEC_LC_OWNER = false → refused 5) ∧
    (s.on R.SEC_LC_OWNER = true → ¬ good → refused 2) ∧
    (s.on R.SEC_LC_OWNER = true → good → ¬ dev → refused 3) ∧
    (s.on R.SEC_LC_OWNER = true → good → dev → ¬ nonce → refused 4) ∧
    (s.on R.SEC_LC_OWNER = true → good → dev → nonce → leNat ((tk.drop 16).take 6) < yewOldest s → refused 6) ∧
    (s.on R.SEC_LC_OWNER = true → good → dev → nonce → yewOldest s ≤ leNat ((tk.drop 16).take 6) →
      s.on R.YEW_STAT_SCAN = false → s.yew.fifo.length < 512 → yewNext s + 1 < 2 ^ 48 →
      (∀ e ∈ s.yew.fifo.tail, ¬ (e.src = 2 ∧ e.code = 2)) →
      Runs (.yewClearVerifyDone sigOk) s fun t => yewNext t = yewNext s + 1 ∧ t.on R.YEW_CLR_STAT_BUSY = true ∧
        (∃ e, t.yew.fifo = s.yew.fifo ++ [e] ∧ e.cls = 0 ∧ e.src = 2 ∧ e.code = 2 ∧ e.seq = some (yewNext s) ∧
          e.payload = padTo 24 ((tk.drop 24).take 8 ++ leBytes 6 (yewOldest s) ++
            leBytes 6 (min (leNat ((tk.drop 16).take 6) + 1) (yewNext s)) ++ (tk.drop 4).take 4)) ∧
        SameBytes s t ∧ RegsKept s t [(0x200008, 0x200014)]))) ∧
  (∀ (s : State) (lo hi : Nat), s.yew.zero = some (lo, hi) → Runs .yewZeroingDone s fun t => t.yew.zero = none ∧
    t.on R.YEW_STAT_ZEROING = false ∧ (∀ a q, slotSeq t.mem a = some q → hi ≤ q ∧ slotSeq s.mem a = some q) ∧
    (∀ a q, slotSeq s.mem a = some q → hi ≤ q → slotSeq t.mem a = some q) ∧
    (∀ b, b % 64 < 60 ∨ b < mramBase + 0x800000 ∨ mramBase + 0xA00000 ≤ b → memRd t.mem b = memRd s.mem b) ∧
    RegsKept s t [(0x200008, 0x20000C)])

/-! ### The host interface and the DRAM (R502 to R522) -/

/-- PERST sets PERST_STK, resets the configuration space, masks every vector, and touches no other register and no byte. A link change shows LINK, speed and width and sets
LINKCHG_STK; with it the configuration space is as the host has made it, and messages that waited for that leave. A ring's host-owned index takes a value that leaves at most E entries; any other value is ignored and sets OVR_STK; a write
of the device's own index changes nothing. RING_IRQ_HOLDOFF_END changes nothing until HOLD µs have passed since the ring's latest
message; then it fires, once, the vector of an unmasked ring that advanced meanwhile, which starts the next
holdoff where HOLD is not 0, and pends it for a masked one; with MSI-X or bus mastering off no message leaves; for a ring that did not
advance it just ends. Training ends with the size detected, 7/8 of it usable,
TRAINED or FAIL set. No byte of memory changes. -/
def Obligations.HostLinkAndRings : Prop :=
  (∀ s : State, Runs .perstAssert s fun t => t.on R.HST_STAT_PERST_STK = true ∧ t.hst.cfg = {} ∧
    (∀ v, (mget t.hst.msix v {}).ctl = 1 ∧ (mget t.hst.msix v {}).pend = false ∧
      (mget t.hst.msix v {}).addr = (mget s.hst.msix v {}).addr ∧ (mget t.hst.msix v {}).data = (mget s.hst.msix v {}).data) ∧
    (∃ e, t.yew.cross = s.yew.cross ++ [e] ∧ e.src = 0xF ∧ e.code = 0x12) ∧ SameBytes s t ∧ RegsKept s t [(0xF80004, 0xF80008)]) ∧
  (∀ (up : Bool) (c : LinkCfg) (width : Fin 4) (s : State),
    let configured (t : State) : Prop := t.hst.cfg = c.cfg ∧ ∀ v < 64, (mget s.hst.msix v {}).pend = true → t.msgOn = true →
      t.vecMasked v = false → (mget t.hst.msix v {}).pend = false ∧ mget t.hst.sent v 0 = mget s.hst.sent v 0 + 1
    (up ≠ s.on R.HST_STAT_LINK → Runs (.hostLinkChange up c width) s fun t => configured t ∧ t.on R.HST_STAT_LINK = up ∧
      (up = true → t.rd R.HST_STAT_SPEED = c.speed.val ∧ t.rd R.HST_STAT_WIDTH = width.val) ∧ t.on R.HST_STAT_LINKCHG_STK = true ∧
      (∃ e, t.yew.cross = s.yew.cross ++ [e] ∧ e.src = 0xF ∧ e.code = if up then 0x11 else 0x10) ∧
      SameBytes s t ∧ RegsKept s t [(0xF80004, 0xF80008)]) ∧
    (up = s.on R.HST_STAT_LINK → Runs (.hostLinkChange up c width) s fun t => configured t ∧ t.regs = s.regs ∧ t.yew = s.yew ∧ SameBytes s t)) ∧
  (∀ (r : Fin 4) (v : BitVec 32) (s : State), r.val ≠ 1 →
    ((ringProd s r + 2 ^ 32 - v.toNat) % 2 ^ 32 ≤ ringE s r →
      Runs (.ringIndexWrite r false v) s fun t => ringCons t r = v.toNat ∧ SameBytes s t ∧
        RegsKept s t [(0xF80108 + 0x20 * r.val, 0xF8010C + 0x20 * r.val)]) ∧
    (ringE s r < (ringProd s r + 2 ^ 32 - v.toNat) % 2 ^ 32 →
      Runs (.ringIndexWrite r false v) s fun t => t.on (R.HST_Rr_STAT_OVR_STK r) = true ∧ SameBytes s t ∧
        RegsKept s t [(0xF80110 + 0x20 * r.val, 0xF80114 + 0x20 * r.val)]) ∧
    exec (.ringIndexWrite r true v) s = .next s) ∧
  (∀ (v : BitVec 32) (s : State),
    ((v.toNat + 2 ^ 32 - ringCons s 1) % 2 ^ 32 ≤ ringE s 1 → Runs (.ringIndexWrite 1 true v) s fun t => ringProd t 1 = v.toNat ∧
      SameBytes s t ∧ RegsKept s t [(0xF80124, 0xF80128)]) ∧
    (ringE s 1 < (v.toNat + 2 ^ 32 - ringCons s 1) % 2 ^ 32 →
      Runs (.ringIndexWrite 1 true v) s fun t => t.on (R.HST_Rr_STAT_OVR_STK 1) = true ∧ SameBytes s t ∧
        RegsKept s t [(0xF80130, 0xF80134)]) ∧
    exec (.ringIndexWrite 1 false v) s = .next s) ∧
  (∀ (r : Fin 4) (s : State), inHold s r = true → exec (.ringIrqHoldoffEnd r) s = .next s) ∧
  (∀ (r : Fin 4) (s : State), inHold s r = false → Runs (.ringIrqHoldoffEnd r) s fun t =>
    t.regs = s.regs ∧ SameBytes s t ∧ r.val ∉ t.hst.holdPend ∧
    (r.val ∉ s.hst.holdPend → inHold t r = false ∧ t.hst.sent = s.hst.sent ∧ t.hst.msix = s.hst.msix) ∧
    (r.val ∈ s.hst.holdPend →
      (s.msgOn = true → s.vecMasked (r.val + 1) = false → (inHold t r = true ↔ s.rd (R.HST_Rr_IRQ_HOLD r.val) ≠ 0) ∧
        mget t.hst.sent (r.val + 1) 0 = mget s.hst.sent (r.val + 1) 0 + 1) ∧
      (s.msgOn = true → s.vecMasked (r.val + 1) = true → (mget t.hst.msix (r.val + 1) {}).pend = true ∧ inHold t r = false ∧
        t.hst.sent = s.hst.sent) ∧
      (s.msgOn = false → t.hst.msix = s.hst.msix ∧ inHold t r = false ∧ t.hst.sent = s.hst.sent))) ∧
  (∀ (ok : Bool) (density : Nat) (s : State), s.pg 11 = true → s.on R.MEM_STAT_TRAINED = false → s.on R.MEM_STAT_FAIL = false →
    512 ≤ density → density ≤ 4096 → Runs (.dramTrainingDone ok density) s fun t => t.on R.MEM_STAT_TRAINED = ok ∧
      t.on R.MEM_STAT_FAIL = !ok ∧ t.rd R.MEM_SIZE_DETECT = density ∧ t.rd R.MEM_SIZE_USABLE = 7 * density / 8 ∧
      (ok = true → ∀ u < 4, (auOf t u).stg = []) ∧ (ok = false ∨ (∀ u < 4, (auOf s u).stg = []) → SameBytes s t) ∧
      RegsKept s t [(0xF00000, 0xF00008)])

/-- With DRAM trained, a BAR2 write whose enabled bytes below the usable size lie in the host-ring area and that touches no word with an
error stores exactly those bytes and changes no register. One that leaves the area changes no byte and is counted as a denied access. A
partial write into a word with an uncorrectable error changes no byte and sets UNCORR_STK and the word's address. A read answers the
bytes, zero from the usable size on, unpoisoned; one that touches a word with an uncorrectable error answers it poisoned. While
DRAM is not trained, writes do nothing and reads answer zeros. -/
def Obligations.DramAccess : Prop :=
  (∀ (x : Nat) (l : List (Option Byte)) (s : State), s.on R.MEM_STAT_TRAINED = true → insideArea s x l = true →
    (∀ w, x < 8 * w + 8 → 8 * w < x + l.length → w ∉ s.hst.badWords ∧ w ∉ s.hst.softWords) →
    Runs (.bar2Write x l) s fun t => t.regs = s.regs ∧
      (∀ k v, l[k]? = some (some v) → x + k < usableBytes s → memRd t.mem (dramBase + x + k) = v) ∧
      (∀ k, l[k]? = some none → memRd t.mem (dramBase + x + k) = memRd s.mem (dramBase + x + k)) ∧
      SameBytesBut s t (dramBase + x) (dramBase + x + l.length) ∧
      (∀ a, dramBase + usableBytes s ≤ a → memRd t.mem a = memRd s.mem a)) ∧
  (∀ (x k : Nat) (v : Byte) (l : List (Option Byte)) (s : State), s.on R.MEM_STAT_TRAINED = true → l[k]? = some (some v) →
    x + k < usableBytes s → (x + k < areaBase s ∨ areaBase s + areaSize s ≤ x + k) →
    Runs (.bar2Write x l) s fun t => SameBytes s t ∧ t.rd R.GLB_ACC_INIT_COUNT = min (s.rd R.GLB_ACC_INIT_COUNT + 1) (2 ^ R.GLB_ACC_INIT_COUNT.w - 1) ∧
      (s.on R.GLB_ACC_INIT_VALID = false → t.rd R.GLB_ACC_INIT_INIT = 6 ∧ t.on R.GLB_ACC_INIT_WRITE = true ∧
        t.rd R.GLB_ACC_ADDR_ADDR = x % 2 ^ 32)) ∧
  (∀ (x : Nat) (v : Byte) (s : State), s.on R.MEM_STAT_TRAINED = true → insideArea s x [some v] = true → x < usableBytes s →
    x / 8 ∈ s.hst.badWords → Runs (.bar2Write x [some v]) s fun t => SameBytes s t ∧ t.on R.MEM_STAT_UNCORR_STK = true ∧
      t.rd64 R.MEM_EADDR_LO_EADDR R.MEM_EADDR_HI_EADDR = x / 8 * 8 % 2 ^ 64 ∧ RegsKept s t [(0xF00000, 0xF00014)]) ∧
  (∀ (x n : Nat) (s : State), s.on R.MEM_STAT_TRAINED = true →
    (∀ w, x < 8 * w + 8 → 8 * w < x + n → w ∉ s.hst.badWords ∧ w ∉ s.hst.softWords) →
    exec (.bar2Read x n) s = .next { s with hst := { s.hst with
      rdata := (List.range n).map (fun k => if x + k < usableBytes s then memRd s.mem (dramBase + x + k) else 0), poison := false } }) ∧
  (∀ (x n w : Nat) (s : State), s.on R.MEM_STAT_TRAINED = true → x < 8 * w + 8 → 8 * w < x + n → 8 * w < usableBytes s →
    w ∈ s.hst.badWords → Runs (.bar2Read x n) s fun t => t.hst.poison = true ∧ t.hst.rdata.length = n ∧
      t.on R.MEM_STAT_UNCORR_STK = true ∧ SameBytes s t ∧ RegsKept s t [(0xF00000, 0xF00014)]) ∧
  (∀ (x n : Nat) (l : List (Option Byte)) (s : State), s.on R.MEM_STAT_TRAINED = false →
    exec (.bar2Write x l) s = .next s ∧
    exec (.bar2Read x n) s = .next { s with hst := { s.hst with rdata := List.replicate n 0, poison := false } })

namespace Sys2Proof.Spec

/-- A write transaction's words one after another, each while the bus runs. -/
def inOrder (w : State → Nat → Nat → State) (a : Nat) (l : List (BitVec 32)) (s : State) : State :=
  (List.range l.length).foldl (fun t k => if busUp t then w t (a + 4 * k) (l.getD k 0).toNat else t) s

/-- `n` register reads one after another: the bytes so far and the state. -/
def readsInOrder (a n : Nat) (s : State) : List Byte × State :=
  (List.range n).foldl (fun p k => (p.1 ++ leBytes 4 (busRead p.2 .mspi (a + 4 * k)).1, (busRead p.2 .mspi (a + 4 * k)).2)) ([], s)

/-- The response is all that a transaction without effect leaves. -/
def answered (s : State) (l : List Byte) : State := { s with hst := { s.hst with mspi := l } }

/-- The five transactions with N words: what their CRC-8 covers, whether the address must be aligned, and the command. -/
def transaction (a : BitVec 32) (n : Fin 64) (l : List (BitVec 32)) (crc : BitVec 8) (c : Instr) (b : List Byte) (al : Bool) : Prop :=
  let h (k m : Nat) := [BitVec.ofNat 8 k, BitVec.ofNat 8 (m - 1)] ++ (leBytes 4 a.toNat).reverse
  (∃ q, c = .mspiWriteBar0 a l crc q ∧ l ≠ [] ∧ l.length ≤ 64 ∧ b = h 1 l.length ++ l.flatMap (fun w => leBytes 4 w.toNat) ∧ al = true) ∨
  (∃ q, c = .mspiReadBar0 a n crc q ∧ b = h 2 (n.val + 1) ∧ al = true) ∨
  (∃ q, c = .mspiWriteDram a l crc q ∧ l ≠ [] ∧ l.length ≤ 64 ∧ b = h 3 l.length ++ l.flatMap (fun w => leBytes 4 w.toNat) ∧ al = true) ∨
  (∃ q, c = .mspiReadDram a n crc q ∧ b = h 4 (n.val + 1) ∧ al = true) ∨
  (∃ h' q, c = .mspiStatus h' n crc q ∧ h'.cmd = 5 ∧ h'.addr = a ∧ b = h 5 (n.val + 1) ∧ al = false)

end Sys2Proof.Spec

/-- With the bus running, a transaction of 1 to 64 words whose CRC-8 is wrong answers 0xC3, one that is misaligned answers 0x3C (the status
command ignores its address), and neither has any other effect. With both right: a register write performs its words in order and answers
0xA5; a register read answers 0xA5, the words and their CRC-8; a DRAM write inside the host-ring area stores its words; a DRAM read
answers its bytes and CRC-8; status answers the status word N times; one not complete within 100 µs answers 0x5A. A transaction with
an unknown command byte (it rides on MSPI_STATUS, log entry 161) answers 0xC3 or 0x3C and has no other effect. -/
def Obligations.MaintenanceSpi : Prop :=
  (∀ (h : MspiHead) (n : Fin 64) (crc : BitVec 8) (q : Bool) (s : State), busUp s = true → h.cmd = 0 ∨ 5 < h.cmd.toNat →
    let b := [h.cmd, BitVec.ofNat 8 n.val] ++ (leBytes 4 h.addr.toNat).reverse
    exec (.mspiStatus h n crc q) s = .next (Sys2Proof.Spec.answered s [if crc8 b = crc then 0x3C else 0xC3])) ∧
  (∀ (a : BitVec 32) (n : Fin 64) (l : List (BitVec 32)) (crc : BitVec 8) (c : Instr) (b : List Byte) (al : Bool) (s : State),
    busUp s = true → Sys2Proof.Spec.transaction a n l crc c b al →
    (crc8 b ≠ crc → exec c s = .next (Sys2Proof.Spec.answered s [0xC3])) ∧
    (crc8 b = crc → al = true → a.toNat % 4 ≠ 0 → exec c s = .next (Sys2Proof.Spec.answered s [0x3C])) ∧
    (crc8 b = crc → al = true → a.toNat % 4 = 0 →
      (∀ q, c = .mspiWriteBar0 a l crc q → l.length ≤ q → exec c s =
        .next (Sys2Proof.Spec.answered (Sys2Proof.Spec.inOrder (fun t x v => busWrite t .mspi x v) a.toNat l s) [0xA5])) ∧
      (∀ q, c = .mspiWriteBar0 a l crc q → q < l.length → exec c s = .next
        (Sys2Proof.Spec.answered (Sys2Proof.Spec.inOrder (fun t x v => busWrite t .mspi x v) a.toNat (l.take q) s) [0x5A])) ∧
      (c = .mspiReadBar0 a n crc true → let p := Sys2Proof.Spec.readsInOrder a.toNat (n.val + 1) s
        exec c s = .next (Sys2Proof.Spec.answered p.2 (0xA5 :: p.1 ++ [crc8 p.1]))) ∧
      (∀ q, c = .mspiWriteDram a l crc q → l.length ≤ q → s.on R.MEM_STAT_TRAINED = true → iniWrites s .mspi = true →
        (∀ k < 4 * l.length, a.toNat + k < usableBytes s ∧ areaBase s ≤ a.toNat + k ∧ a.toNat + k < areaBase s + areaSize s) →
        (∀ w, a.toNat < 8 * w + 8 → 8 * w < a.toNat + 4 * l.length → w ∉ s.hst.badWords ∧ w ∉ s.hst.softWords) →
        Runs c s fun t => t.hst.mspi = [0xA5] ∧ t.regs = s.regs ∧ (∀ k v, l[k]? = some v → t.rdW (dramBase + a.toNat + 4 * k) = v) ∧
          SameBytesBut s t (dramBase + a.toNat) (dramBase + a.toNat + 4 * l.length)) ∧
      (c = .mspiReadDram a n crc true → s.on R.MEM_STAT_TRAINED = true → a.toNat + 4 * (n.val + 1) ≤ usableBytes s →
        (∀ w, a.toNat < 8 * w + 8 → 8 * w < a.toNat + 4 * (n.val + 1) → w ∉ s.hst.badWords ∧ w ∉ s.hst.softWords) →
        let d := s.rdMem (dramBase + a.toNat) (4 * (n.val + 1))
        exec c s = .next (Sys2Proof.Spec.answered s (0xA5 :: d ++ [crc8 d])))) ∧
    (∀ h, crc8 b = crc → c = .mspiStatus h n crc true →
      let w := leBytes 4 (s.rd R.SEC_LC_STATE * 2 ^ 30 + s.rd R.GLB_PWR_STATE * 2 ^ 27 + s.rd R.GLB_BOOT_DONE * 2 ^ 26 +
        s.rd R.GLB_BOOT_MAINT * 2 ^ 25 + s.rd R.PRV_STAT_SAFE * 2 ^ 24)
      let d := (List.replicate (n.val + 1) w).flatten
      exec c s = .next (Sys2Proof.Spec.answered s (0xA5 :: d ++ [crc8 d]))))

/-! ### Clocks, resets, start-up, power states (R37 to R43, R343 to R345, R454 to R477) -/

/-- RST_N, SYSREQ and a watchdog that TO ms have passed for since its refresh, where no POR is held, hold SYS, SYS and WDR with causes 1, 2 and 4, and count; every S, B and L
field but PRV_STAT.SAFE and MEM_STAT.SR takes its reset value, K and P fields but GLB_RSTCAUSE keep theirs, MRAM and DRAM keep their bytes
and every other memory reads 0, no core runs and no pad is driven; safe state stays until the release. RST_N in HIBERNATE gives cause 5. POR
holds with cause 0, resets P fields too (SEC_NONCE apart, which is random) and keeps K fields and MRAM only, in which the slot of
the record that Yew was writing holds it whole (R528) or has its valid mark zero (R405): which is a free value (log entry 164). A watchdog that is paused, disabled or refreshed more recently changes nothing. -/
def Obligations.ResetsHeld : Prop :=
  (∀ (s : State) (c : Instr) (k cause : Nat), s.glb.hold ≠ 1 →
    (c = .rstNAssert ∧ k = 2 ∧ cause = 1 ∧ s.glb.hib = false) ∨ (c = .sysreq ∧ k = 2 ∧ cause = 2) ∨
      (c = .watchdogExpiry ∧ k = 3 ∧ cause = 4 ∧ wdtMs s ≠ 0 ∧ ∃ w, s.glb.wdt = some w ∧ w + wdtMs s * 1000000 ≤ s.tb2Ns) →
    Runs c s fun t => t.glb.hold = k ∧ t.rd R.GLB_RSTCAUSE_CAUSE = cause ∧ t.rd R.GLB_RSTCAUSE_PRVSRC = 0 ∧
      t.rd R.GLB_RSTCAUSE_COUNT = min (s.rd R.GLB_RSTCAUSE_COUNT + 1) 65535 ∧
      (∀ f : Fld, f.dom ≠ .kept → f.dom ≠ .por → f.lo < 32 → f.addr < 0x4000000 → f.addr ≠ 0x100004 → f.addr ≠ 0xF00000 →
        t.rd f = f.rst) ∧
      (∀ f : Fld, f.dom = .kept ∨ (f.dom = .por ∧ f.addr ≠ 0xC) → f.lo < 32 → f.addr < 0x4000000 → t.rd f = s.rd f) ∧
      t.on R.PRV_STAT_SAFE = s.on R.PRV_STAT_SAFE ∧ t.on R.MEM_STAT_SR = (s.pg 11 || s.on R.MEM_STAT_SR) ∧
      (∀ a, memRd t.mem a = if a < 0x1000000 ∨ (dramBase ≤ a ∧ a < dramBase + 0x100000000) then memRd s.mem a else 0) ∧
      padsNow t = 0 ∧ gpoTerms t = 0 ∧ ∀ n, (t.core n).run = none) ∧
  (∀ s : State, s.glb.hold ≠ 1 → s.glb.hib = true → Runs .rstNAssert s fun t => t.glb.hold = 2 ∧ t.rd R.GLB_RSTCAUSE_CAUSE = 5) ∧
  (∀ s : State, (∀ w, s.glb.wdt = some w → wdtMs s = 0 ∨ s.tb2Ns < w + wdtMs s * 1000000) → exec .watchdogExpiry s = .next s) ∧
  (∀ s : State, Runs .porAssert s fun t => t.glb.hold = 1 ∧ t.rd R.GLB_RSTCAUSE_CAUSE = 0 ∧
    (∀ f : Fld, f.dom ≠ .kept → f.lo < 32 → f.addr < 0x4000000 → f.addr ≠ 0xD00018 → f.addr ≠ 0xF00000 → f.addr ≠ 0xC →
      t.rd f = f.rst) ∧
    (∀ f : Fld, f.dom = .kept → f.lo < 32 → f.addr < 0x4000000 → t.rd f = s.rd f) ∧
    (∀ a, (∀ e q, s.yew.fifo.head? = some e → e.seq = some q → a < yewSlot q ∨ yewSlot q + 64 ≤ a) →
      memRd t.mem a = if a < 0x1000000 then memRd s.mem a else 0) ∧
    (∀ e q, s.yew.fifo.head? = some e → e.seq = some q → t.rdMem (yewSlot q) 64 = recBytes e q ∨
      t.rdMem (yewSlot q) 64 = s.rdMem (yewSlot q) 60 ++ [0, 0, 0, 0]) ∧
    padsNow t = 0 ∧ gpoTerms t = 0 ∧ ∀ n, (t.core n).run = none)

/-- The release of a held reset, SYS and WDR after 100 µs at the earliest, samples the straps, ends safe state and self-refresh, leaves PD0 alone powered, loads TB0, TB1 and TB3 from the coarse
clock and starts to verify the slot that the straps or PREF name; straps 1 lead to maintenance state. The wake time reached
in HIBERNATE does the same with cause 6, the L fields of PD0 at their reset values until the image loads them. A domain being powered up whose dependency is met, in the order of step 5 during boot, shows power-good and alters no other bit; out of turn nothing happens yet; without its dependency
POWER_REFUSED is logged. Verification ends with the verdict of ECDSA on the slot (`imageSig`) and no other. A good slot goes on to loading; a bad one leaves its reason and the other slot is tried, or after
the second maintenance state follows. -/
def Obligations.StartUp : Prop :=
  let boots (s t : State) (straps : Fin 4) : Prop := t.glb.hold = 0 ∧ t.glb.hib = false ∧ t.rd R.GLB_STRAP_BOOT = straps.val ∧
    (straps.val ≠ 1 → t.glb.step = 3 ∧ t.glb.second = false ∧ t.on R.GLB_BOOT_MAINT = s.on R.GLB_BOOT_MAINT ∧
      t.glb.trying = if straps.val = 2 then 0 else if straps.val = 3 then 1 else s.rd R.GLB_BOOT_PREF) ∧
    (straps.val = 1 → t.glb.step = 0 ∧ t.on R.GLB_BOOT_MAINT = true ∧ t.rd R.GLB_PWR_STATE = 5)
  (∀ (s : State) (straps : Fin 4), s.glb.hold ≠ 0 → (s.glb.hold = 1 ∨ s.glb.holdAt + 100000 ≤ s.tb2Ns) → Runs (.resetRelease straps) s fun t => boots s t straps ∧
    t.on R.PRV_STAT_SAFE = false ∧ t.on R.MEM_STAT_SR = false ∧ t.rd R.GLB_PWRSTAT_PG = 1 ∧ padsNow t = 0 ∧
    (∀ b, b = 0 ∨ b = 1 ∨ b = 3 → (t.tbOf b).val = s.tim.coarse) ∧ (t.tbOf 2).val = (s.tbOf 2).val ∧ SameBytes s t) ∧
  (∀ (s : State) (straps : Fin 4), s.glb.hold = 0 ∨ (s.glb.hold ≠ 1 ∧ s.tb2Ns < s.glb.holdAt + 100000) → exec (.resetRelease straps) s = .next s) ∧
  (∀ (s : State) (straps : Fin 4), let w := s.rd R.GLB_WAKE_LO_WAKE + s.rd R.GLB_WAKE_HI_WAKEHI * 2 ^ 32
    (s.glb.hib = true → s.on R.GLB_WAKE_HI_EN = true → w ≤ s.coarseNs → [1, 2, 3, 4, 5, 6, 8, 9, 10].all (fun d => !s.pg d) = true →
      Runs (.hibernateWake straps) s fun t => boots s t straps ∧ t.rd R.GLB_RSTCAUSE_CAUSE = 6 ∧ t.on R.GLB_BOOT_DONE = false ∧
        (straps.val ≠ 1 → t.rd R.GLB_PWR_STATE = 0) ∧ SameBytes s t ∧
        ∀ f : Fld, f.dom = .img → f.lo < 32 → f.addr < 0x300000 → t.rd f = f.rst) ∧
    (s.glb.hib = false ∨ s.on R.GLB_WAKE_HI_EN = false ∨ s.coarseNs < w → exec (.hibernateWake straps) s = .next s)) ∧
  (∀ (s : State) (d : Fin 12), s.glb.hold = 0 → s.pg d = false → powering s d = true →
    let dep := if 2 ≤ d.val ∧ d.val ≤ 5 ∨ d.val = 10 then s.pg 1 else if d.val = 9 then s.pg 8 else true
    let turn : Prop := s.glb.step ≠ 6 ∨ ∀ e ∈ (neededPds s false).takeWhile (· != d.val), s.pg e = true
    (dep = true → ¬ turn → exec (.domainPowerGood d) s = .next s) ∧
    (dep = true → turn → Runs (.domainPowerGood d) s fun t => (∀ e < 12, t.pg e = (decide (e = d.val) || s.pg e)) ∧ SameBytes s t ∧
      RegsKept s t [(0x18, 0x1C), (0x500000, 0x600000), (0xA00000, 0xB00000), (0xD00000, 0xE00000)]) ∧
    (dep = false → Runs (.domainPowerGood d) s fun t => t.regs = s.regs ∧ t.glb = s.glb ∧
      (∃ e, t.yew.cross = s.yew.cross ++ [e] ∧ e.src = 0 ∧ e.code = 2) ∧ SameBytes s t)) ∧
  (∀ (s : State) (sigOk : Bool), sigOk ≠ imageSig s s.glb.trying → exec (.imageVerifyDone sigOk) s = .next s) ∧
  (∀ (s : State) (sigOk : Bool), s.glb.hold = 0 → s.glb.step = 3 → s.pg 7 = true → s.pg 11 = true → s.glb.trying < 2 →
    sigOk = imageSig s s.glb.trying →
    let r := imageVerdict s s.glb.trying sigOk
    let used := hdr s s.glb.trying 0x40 1
    (r = 0 → Runs (.imageVerifyDone sigOk) s fun t => t.glb.step = 6 ∧ t.glb.trying = s.glb.trying ∧
      (∀ d < 12, t.pg d = (s.pg d && !(decide (2 ≤ d ∧ d ≤ 5) && !used.testBit (2 * (d - 2)) && !used.testBit (2 * (d - 2) + 1)))) ∧
      ∀ a < 0x200000000, memRd t.mem a = memRd s.mem a) ∧
    (r ≠ 0 → s.glb.second = false → Runs (.imageVerifyDone sigOk) s fun t =>
      t.rd (if s.glb.trying = 0 then R.GLB_BOOT_FAILA else R.GLB_BOOT_FAILB) = r ∧ t.glb.step = 3 ∧ t.glb.trying = 1 - s.glb.trying ∧
      t.glb.second = true ∧ SameBytes s t ∧ RegsKept s t [(0x10, 0x14)]) ∧
    (r ≠ 0 → s.glb.second = true → Runs (.imageVerifyDone sigOk) s fun t =>
      t.rd (if s.glb.trying = 0 then R.GLB_BOOT_FAILA else R.GLB_BOOT_FAILB) = r ∧ t.glb.step = 0 ∧ t.on R.GLB_BOOT_MAINT = true ∧
      t.rd R.GLB_PWR_STATE = 5 ∧ (∀ d ∈ [1, 2, 3, 4, 5, 6, 8, 9, 10], t.pg d = false) ∧ (s.pg 1 = true → padsNow t = 0)))

namespace Sys2Proof.Spec

/-- Grids and element cores have started (R155, R177, R470): every enabled FTG runs, and every used core whose domain is up is in RUN with no
tick context, its bays' modes to be taken at the first notification and its bound shown. -/
def BlocksStarted (t : State) : Prop :=
  (∀ g < 4, ftgOn t g = true → (espFtg t g).started = true ∧ (espFtg t g).insts = []) ∧
  ∀ n : Fin 8, t.img.used.testBit n.val = true → t.pg (2 + n.val / 2) = true → t.rd (R.ELCn_STAT_STATE n.val) = 1 ∧
    (t.core n.val).ctxs = [] ∧ (t.core n.val).run = none ∧ (∀ j < 3, j ∈ (t.core n.val).modeReq) ∧
    t.rd (R.ELCn_C0BOUND_BOUND n.val) = totalBound t.img n % 2 ^ (R.ELCn_C0BOUND_BOUND n.val).w

end Sys2Proof.Spec

/-- With every needed domain up and a slot whose sections and contents pass, loading ends the boot: DONE, the slot, FALLBACK, RUN, the image
loaded, grids and cores started; MRAM and DRAM keep their bytes, but for the completion word of the checkpoint copy that a cold restart of the scheme begins to
overwrite. Anything else fails the slot: reason 6, or 5 for a CRC or an uncorrectable word of MRAM. A power request for the present state is ignored; in
safe, maintenance, unbooted, exchanging or changing state it sets REFUSED_STK only; else its transition starts. STANDBY's end shows
STATE 2 and leaves PD1 to PD5 and PD10 off with no pad driven; HIBERNATE's end leaves PD0 alone on, DRAM lost and MRAM kept, with a whole checkpoint in the copy that does not hold the newest, or none where a
retained word is uncorrectable; neither
comes while a bay is on or a task or journal record is left, until their bounds have passed; a good
return to RUN shows STATE 1 with grids and cores started, once the domains are up; one with a bad section shows STATE 2 and the slot's reason. -/
def Obligations.LoadAndPowerStates : Prop :=
  (∀ (s : State) (i : Image), s.glb.hold = 0 → s.glb.step = 6 → s.glb.trying < 2 →
    (neededPds s false).all s.pg = true →
    let slot := s.glb.trying
    let good (l : Load) : Bool :=
      loadChecks (startGrids (l.flds.foldl (fun a e => prvRewrite a e.1.addr) (placeImage (imageOf s slot l i) l s)))
    (∀ l, hdr s slot 0x18 32 = 0 → loadAll s slot (sections s slot) {} = .ok l → good l = true →
      Runs (.imageLoadDone true true i) s fun t => t.on R.GLB_BOOT_DONE = true ∧ t.rd R.GLB_BOOT_SLOT = slot ∧
        t.on R.GLB_BOOT_FALLBACK = s.glb.second ∧ t.rd R.GLB_PWR_STATE = 1 ∧ t.glb.step = 0 ∧ t.img = imageOf s slot l i ∧
        Sys2Proof.Spec.BlocksStarted t ∧
        ∀ a < 0x200000000, a < doneAddr (nextCopy s) ∨ doneAddr (nextCopy s) + 4 ≤ a → memRd t.mem a = memRd s.mem a) ∧
    (∀ l rd tab r, s.glb.second = false → (hdr s slot 0x18 32 ≠ 0 ∧ r = 6 ∨
        hdr s slot 0x18 32 = 0 ∧ (rd = false ∨ loadAll s slot (sections s slot) {} = .error 5) ∧ r = 5 ∨
        hdr s slot 0x18 32 = 0 ∧ rd = true ∧ (loadAll s slot (sections s slot) {} = .error 6 ∨
          loadAll s slot (sections s slot) {} = .ok l ∧ (tab = false ∨ good l = false)) ∧ r = 6) →
      Runs (.imageLoadDone rd tab i) s fun t => t.rd (if slot = 0 then R.GLB_BOOT_FAILA else R.GLB_BOOT_FAILB) = r ∧
        t.glb.step = 3 ∧ t.glb.trying = 1 - slot ∧ t.glb.second = true ∧ SameBytes s t ∧ RegsKept s t [(0x10, 0x14)])) ∧
  (∀ s : State,
    let st := s.rd R.GLB_PWR_STATE
    let refused : Prop := s.on R.PRV_STAT_SAFE = true ∨ s.on R.GLB_BOOT_MAINT = true ∨ s.on R.GLB_BOOT_DONE = false ∨
      s.rd R.SCH_EXCH_STAT_STATE ≠ 0 ∨ s.glb.trans ≠ 0
    let asks (c : Instr) (q : Nat) : Prop :=
    let same : Prop := (q = 0 ∧ st = 1) ∨ (q = 1 ∧ st = 2)
    (same → exec c s = .next s) ∧
    (¬ same → refused → Runs c s fun t => t.on R.GLB_PWR_REFUSED_STK = true ∧ t.glb = s.glb ∧ SameBytes s t ∧
      (∃ e, t.yew.cross = s.yew.cross ++ [e] ∧ e.src = 0 ∧ e.code = 2) ∧ RegsKept s t [(0x14, 0x18)]) ∧
    (¬ same → ¬ refused → Runs c s fun t => t.rd R.GLB_PWR_REQ = q ∧ t.glb.trans = (if q = 0 then 3 else q) ∧
      t.rd R.GLB_PWR_STATE = (if q = 0 then 4 else 3) ∧ SameBytes s t ∧ RegsKept s t [(0x14, 0x18)])
    asks .runRequest 0 ∧ asks .standbyRequest 1 ∧ asks .hibernateRequest 2) ∧
  (∀ s : State, s.glb.trans = 1 → quietNow s = true → Runs .powerTransitionDone s fun t => t.rd R.GLB_PWR_STATE = 2 ∧ t.glb.trans = 0 ∧
    (∀ d ∈ [1, 2, 3, 4, 5, 10], t.pg d = false) ∧ (∀ d ∈ [0, 6, 7, 8, 9, 11], t.pg d = s.pg d) ∧ padsNow t = 0 ∧ gpoTerms t = 0 ∧
    t.rd R.SCH_STAT_STATE = 5 ∧ ∀ a < 0x1000000, memRd t.mem a = memRd s.mem a) ∧
  (∀ s : State, s.glb.trans = 2 → quietNow s = true →
    let u := if s.pg 1 then standbySteps s else s
    let c := nextCopy s
    Runs .powerTransitionDone s fun t => t.glb.hib = true ∧ t.glb.trans = 0 ∧
      (∀ d, 1 ≤ d → d < 12 → t.pg d = false) ∧ t.pg 0 = s.pg 0 ∧ padsNow t = 0 ∧
      ((ckptBytes (takeCkpt u)).length ≤ 0x3FFFC → (∀ w ∈ scWords (retRegions u), Sys2Proof.Spec.goodWord u w) → t.rdMem (ckBase c) (ckptBytes (takeCkpt u)).length = ckptBytes (takeCkpt u) ∧
        ∀ a < 0x1000000, a < ckBase c ∨ ckBase c + 0x40000 ≤ a → memRd t.mem a = memRd s.mem a) ∧
      ((∃ w ∈ scWords (retRegions u), u.eccBad.contains w = true) → ∀ a < 0x1000000, memRd t.mem a = memRd s.mem a) ∧
      ∀ a, dramBase ≤ a → a < dramBase + 0x100000000 → memRd t.mem a = 0) ∧
  (∀ s : State, s.glb.trans = 1 ∨ s.glb.trans = 2 → quietNow s = false → exec .powerTransitionDone s = .next s) ∧
  (∀ (s : State) (l : Load), s.glb.trans = 3 → (neededPds s true).all s.pg = true →
    loadAll s (s.rd R.GLB_BOOT_SLOT) (sections s (s.rd R.GLB_BOOT_SLOT)) {} = .ok l →
    Runs .powerTransitionDone s fun t => t.rd R.GLB_PWR_STATE = 1 ∧ t.glb.trans = 0 ∧ t.img = s.img ∧ Sys2Proof.Spec.BlocksStarted t ∧
      ∀ a < 0x200000000, a < doneAddr (nextCopy s) ∨ doneAddr (nextCopy s) + 4 ≤ a → memRd t.mem a = memRd s.mem a) ∧
  (∀ (s : State) (r : Nat), s.glb.trans = 3 → (neededPds s true).all s.pg = true →
    loadAll s (s.rd R.GLB_BOOT_SLOT) (sections s (s.rd R.GLB_BOOT_SLOT)) {} = .error r →
    Runs .powerTransitionDone s fun t => t.rd R.GLB_PWR_STATE = 2 ∧ t.glb.trans = 0 ∧ (∀ d ∈ [1, 2, 3, 4, 5, 10], t.pg d = false) ∧
      t.rd (if s.rd R.GLB_BOOT_SLOT = 0 then R.GLB_BOOT_FAILA else R.GLB_BOOT_FAILB) = r % 8 ∧ padsNow t = 0) ∧
  (∀ s : State, s.glb.trans = 0 ∨ (s.glb.trans = 3 ∧ (neededPds s true).all s.pg = false) → exec .powerTransitionDone s = .next s)

/-- With no command waiting a step is one NET cycle (the model's choice, assumption 3): held in POR nothing moves; else the coarse clock
moves on by 6 ns and the addend of TB2, the latest measured where TIM is off or in reset, when TB2's AON shadow moves on alike; with PD8
up and no reset each base without a path slew moves on by 6 ns and its addend, and a zero residual stays zero; registers and memory
stay while PD1 is off. With PD1 up the FAB phase moves on by 16/25 of a FAB cycle, and where that completes one each time shadow
advances by the increment of its base. A shadow correction, the first or 1,024 NET cycles after the latest, gives each of the five shadows the
increment of its base, 25/16 of what it moves on by in a NET cycle, and the base's value taken back to the latest FAB edge and 4.8 ns
ahead (the model's reading, assumption 52), and changes nothing else; sooner it changes nothing. -/
def Obligations.ClocksAdvance : Prop :=
  (∀ s : State, s.pending = [] → s.glb.hold = 1 → step s = .next s) ∧
  (∀ s : State, s.pending = [] → s.glb.hold ≠ 1 → ∃ t, step s = .next t ∧ t.pending = [] ∧
    (s.glb.hold ≠ 0 ∨ s.pg 8 = false → t.regs = s.regs ∧ SameBytes s t ∧ t.tim.coarse = s.tim.coarse + 6 * 2 ^ 32 + s.tim.trim ∧
      (t.tbOf 2).val = (s.tbOf 2).val + 6 * 2 ^ 32 + s.tim.trim) ∧
    (s.glb.hold = 0 → s.pg 8 = true → t.tim.coarse = s.tim.coarse + 6 * 2 ^ 32 + (s.tbOf 2).addend ∧
      (∀ b < 4, (s.tbOf b).path = 0 →
        (t.tbOf b).val = (s.tbOf b).val + 6 * 2 ^ 32 + (s.tbOf b).addend ∧ (t.tbOf b).path = 0) ∧
      (s.tim.resid = 0 → t.tim.resid = 0) ∧ (s.pg 1 = false → t.regs = s.regs ∧ SameBytes s t) ∧
      (s.pg 1 = true → t.tim.netCnt = s.tim.netCnt + 1 ∧
        (s.tim.fabPhase + 16 < 25 → t.tim.fabPhase = s.tim.fabPhase + 16 ∧ t.tim.shadow = s.tim.shadow) ∧
        (25 ≤ s.tim.fabPhase + 16 → t.tim.fabPhase = s.tim.fabPhase + 16 - 25 ∧
          t.tim.shadow.map (·.1) = s.tim.shadow.map (·.1) ∧
          ∀ (k : Nat) (e f : Nat × Nat × Nat), s.tim.shadow[k]? = some e → t.tim.shadow[k]? = some f → f.2.1 = e.2.1 + f.2.2 ∧
            (e.1 < 4 → (s.tbOf e.1).path = 0 → f.2.2 = (6 * 2 ^ 32 + (s.tbOf e.1).addend) * 25 / 16) ∧
            (e.1 = 4 → (s.tbOf s.followed).path = 0 → s.tim.resid = 0 →
              f.2.2 = (6 * 2 ^ 32 + (s.tbOf s.followed).addend) * 25 / 16))))) ∧
  (∀ s : State, s.glb.hold = 0 → s.pg 8 = true → s.pg 1 = true →
    (s.tim.shadow = [] ∨ 1024 ≤ s.tim.netCnt → exec .timeShadowCorrection s = .next { s with tim := { s.tim with
      netCnt := 0
      shadow := (List.range 5).map fun b => (b, shadowWord s b) } }) ∧
    (∀ b < 5, let x := s.tbOf (if b < 4 then b else s.followed)
      let v := if b < 4 then x.val else ((x.val : Int) - s.tim.resid).toNat
      let adv : Nat := 6 * 2 ^ 32 + x.addend
      x.path = 0 → (b = 4 → s.tim.resid = 0) →
        shadowWord s b = (((v : Int) + (24 * 2 ^ 32 / 5 : Nat) - (adv : Int) * s.tim.fabPhase / 16).toNat, adv * 25 / 16)) ∧
    (s.tim.shadow ≠ [] → s.tim.netCnt < 1024 → exec .timeShadowCorrection s = .next s))

/-! ### The analogue front end (R49 to R78) -/

/-- Modulator `m` bears tag `letter` (0 U, 1 O, 2 N, 3 I) from TB2 instant `a` to `b` (R58). -/
def Spec.Bears (t : State) (m letter a b : Nat) : Prop := (a, b) ∈ mget t.afe.runs (4 * m + letter) []

/-- The next 32 bits of modulator `m` bear U (R58). -/
def Spec.BearsU32 (s t : State) (m : Nat) : Prop :=
  Spec.Bears t m 0 (tb2U s) (tb2U s + 32 * tmNs (t.on R.AFE_STAT_LPM_ACT) * 2 ^ 32)

/-- With PD10 off every command of the front end changes nothing; the rest is with it on. A reference outside its window fails its group (all checkers for group 12), once the references have settled, 2 ms after PD10's
power-good; whether one that left its window before lies outside it then is a free value (log entry 153), and no other group changes; 2 ms inside end it, U and I having stood since the failure. An LPM request is taken or refused with its channel; its edge, 1 µs
or more later, changes LPM_ACT, tags 32 bits of every modulator U and voids every dwell. A run of 48 bits starts a loop reset of 16 fm periods
and, outside an overload interval, an interval, which shows OVL on the input and NBR on its neighbours and is counted once; no run counts inside a
loop reset (the model's choice, assumption 115), and none ends an interval; 20 µs after it N ends on the neighbours. GAIN, REFSEL and EN changes
take effect as stated, each with its 32 bits of U. A fixed window that is full and a cycle window with a cycle boundary behind it become the closed
set and SEQ counts. An idle checker that may sweep moves to its lowest eligible input; its settle time over, it dwells; a dwell of M pairs is judged
from its sums: a pass clears SUSPECT and INVAL, a fail sets SUSPECT and at the second INVAL, a void, which one that is over without its M
pairs is too (the model's choice, assumption 116), is counted. RESTART clears FAILED unless reference 12 is out. Other registers and all
bytes stay. A command before its time changes nothing. -/
def Obligations.AnalogueFrontEnd : Prop :=
  (∀ (c : Instr) (s : State), s.pg 10 = false →
    (∃ g, c = .refWindowExit g ∨ c = .refRecoveryEnd g) ∨ c = .refSettleEnd ∨ c = .lpmChangeEffect ∨
      (∃ v, c = .lpmRequest v ∨ c = .refselChange v) ∨ (∃ x, c = .overloadDetect x) ∨
      (∃ m, c = .overloadIntervalEnd m ∨ c = .neighbourTagEnd m) ∨ (∃ n g, c = .gainWrite n g) ∨
      (∃ n, c = .afeInputEnable n ∨ c = .afeInputDisable n ∨ c = .accumulatorSwap n) ∨
      (∃ k, c = .checkerSettleEnd k ∨ c = .checkerDwellEnd k ∨ c = .checkerRestart k) → exec c s = .next s) ∧
  (∀ (g : Fin 13) (s : State), s.pg 10 = true →
    (s.on R.AFE_STAT_REF_RDY = true → Runs (.refWindowExit g) s fun t => (t.rd R.AFE_GRP_LIVE_REF_FAIL).testBit g = true ∧
      (t.rd R.AFE_GRP_STAT_REF_FAIL_STK).testBit g = true ∧ t.itemLive 14 g = true ∧ SameBytes s t ∧
      ((s.rd R.AFE_GRP_LIVE_REF_FAIL).testBit g = false → mget t.afe.refAt g 0 = tb2U s) ∧
      (g.val = 12 → ∀ k < 4, t.on (R.AFE_CKk_STAT_FAILED k) = true) ∧
      RegsKept s t (if g.val = 12 then
        [(0x600008, 0x600010), (0x600104, 0x600108), (0x600114, 0x600118), (0x600124, 0x600128), (0x600134, 0x600138)] else [(0x600008, 0x600010)])) ∧
    (s.on R.AFE_STAT_REF_RDY = false → Runs (.refWindowExit g) s fun t => t.regs = s.regs ∧ (g.val, tb2U s) ∈ t.afe.refBad ∧ SameBytes s t) ∧
    let soon : Prop := ∃ e ∈ s.afe.refBad, e.1 = g.val ∧ tb2U s < e.2 + 2000000 * 2 ^ 32
    ((s.rd R.AFE_GRP_LIVE_REF_FAIL).testBit g = true → ¬ soon → Runs (.refRecoveryEnd g) s fun t => (∀ e ∈ t.afe.refBad, e.1 ≠ g.val) ∧
      t.itemLive 14 g = false ∧ (∀ j < 13, (t.rd R.AFE_GRP_LIVE_REF_FAIL).testBit j =
        ((s.rd R.AFE_GRP_LIVE_REF_FAIL).testBit j && decide (j ≠ g.val))) ∧
      (∀ m ∈ groupMods g, Spec.Bears t m 0 (mget s.afe.refAt g 0) (tb2U s) ∧ Spec.Bears t m 3 (mget s.afe.refAt g 0) (tb2U s)) ∧
      SameBytes s t ∧ RegsKept s t [(0x60000C, 0x600010)]) ∧
    (soon → exec (.refRecoveryEnd g) s = .next s)) ∧
  (∀ s : State, s.pg 10 = true → let due : Prop := s.afe.pgAt + 2000000 * 2 ^ 32 ≤ tb2U s
    (s.on R.AFE_STAT_REF_RDY = false → due → Runs .refSettleEnd s fun t => t.on R.AFE_STAT_REF_RDY = true ∧
      (∀ e ∈ s.afe.refBad, e.1 < 13 → (t.rd R.AFE_GRP_LIVE_REF_FAIL).testBit e.1 = true ∨ ∀ x ∈ t.afe.refBad, x.1 ≠ e.1) ∧
      (∀ j < 13, (∀ e ∈ s.afe.refBad, e.1 ≠ j) →
        (t.rd R.AFE_GRP_LIVE_REF_FAIL).testBit j = (s.rd R.AFE_GRP_LIVE_REF_FAIL).testBit j) ∧ SameBytes s t ∧
      RegsKept s t [(0x600004, 0x600010), (0x600104, 0x600108), (0x600114, 0x600118), (0x600124, 0x600128), (0x600134, 0x600138)]) ∧
    (s.on R.AFE_STAT_REF_RDY = true ∨ ¬ due → exec .refSettleEnd s = .next s)) ∧
  (∀ (v : Bool) (s : State), s.pg 10 = true →
    (lpmFail (s.wrb R.AFE_CTL_LPM v) v = none → Runs (.lpmRequest v) s fun t => t.on R.AFE_CTL_LPM = v ∧
      t.afe.lpmReq = (if v = s.on R.AFE_STAT_LPM_ACT then none else some (v, tb2U s)) ∧ SameBytes s t ∧ RegsKept s t [(0x600000, 0x600004)]) ∧
    (∀ n, lpmFail (s.wrb R.AFE_CTL_LPM v) v = some n → Runs (.lpmRequest v) s fun t => t.on R.AFE_STAT_LPM_REFUSED = true ∧
      t.rd R.AFE_STAT_LPM_CH = n ∧ t.afe = s.afe ∧ t.on R.AFE_STAT_LPM_ACT = s.on R.AFE_STAT_LPM_ACT ∧
      (∃ e, t.yew.cross = s.yew.cross ++ [e] ∧ e.src = 6 ∧ e.code = 1) ∧ SameBytes s t ∧ RegsKept s t [(0x600000, 0x600008)]) ∧
    (∀ a, s.afe.lpmReq = some (v, a) →
      (a + 1000 * 2 ^ 32 ≤ tb2U s → Runs .lpmChangeEffect s fun t => t.on R.AFE_STAT_LPM_ACT = v ∧ t.afe.lpmReq = none ∧
        (∀ k < 4, (mget t.afe.ck k {}).void = true) ∧ (∀ m < 52, Spec.BearsU32 s t m) ∧ SameBytes s t ∧ RegsKept s t [(0x600004, 0x600008)]) ∧
      (tb2U s < a + 1000 * 2 ^ 32 → exec .lpmChangeEffect s = .next s)) ∧
    (s.on R.AFE_CTL_LOCK = false → v ≠ s.on R.AFE_CTL_REFSEL → Runs (.refselChange v) s fun t => t.on R.AFE_CTL_REFSEL = v ∧
      t.on R.AFE_STAT_REFSEL_ACT = v ∧ (∀ k < 4, (mget t.afe.ck k {}).void = true) ∧ (∀ m < 52, Spec.BearsU32 s t m) ∧ SameBytes s t ∧
      RegsKept s t [(0x600000, 0x600008)]) ∧
    (s.on R.AFE_CTL_LOCK = true ∨ v = s.on R.AFE_CTL_REFSEL → exec (.refselChange v) s = .next s)) ∧
  (∀ (m : Fin 52) (s : State), s.pg 10 = true → let near := (groupMods (refGroup m)).map fun x => (0x601004 + 0x20 * x, 0x601008 + 0x20 * x)
    let kept (t : State) : Prop := SameBytes s t ∧ (m.val < 48 → RegsKept s t ((0x60000C, 0x600010) :: near)) ∧ (48 ≤ m.val → t.regs = s.regs)
    let inReset : Prop := ∃ e ∈ mget s.afe.rst m.val [], tb2U s < e.1
    let inside : Prop := ∃ a, (m.val, a) ∈ s.afe.ovl
    let past (e : Nat × (Nat × Nat)) : Bool := decide (e.1 = m.val ∧ e.2.2 + 20000 * 2 ^ 32 ≤ tb2U s)
    (∀ pos, modEnabled s m = true → ¬ inReset → ¬ inside → Runs (.overloadDetect (m, pos)) s fun t => t.afe.ovl = (m.val, tb2U s) :: s.afe.ovl ∧
      (mget t.afe.rst m.val []).head? = some (tb2U s + 16 * tmNs (s.on R.AFE_STAT_LPM_ACT) * 2 ^ 32, pos) ∧ kept t ∧
      (m.val < 48 → t.on (R.AFE_CHn_STAT_OVL m.val) = true ∧ t.on (R.AFE_CHn_STAT_OVL_STK m.val) = true ∧
        t.rd (R.AFE_CHn_STAT_OVL_CNT m.val) = min (s.rd (R.AFE_CHn_STAT_OVL_CNT m.val) + 1) 65535 ∧
        ∀ x ∈ groupMods (refGroup m), x ≠ m.val → t.on (R.AFE_CHn_STAT_NBR x) = true) ∧
      (48 ≤ m.val → (mget t.afe.ck (m.val - 48) {}).void = true)) ∧
    (∀ pos, modEnabled s m = true → ¬ inReset → inside → Runs (.overloadDetect (m, pos)) s fun t => t.afe.ovl = s.afe.ovl ∧
      (mget t.afe.rst m.val []).head? = some (tb2U s + 16 * tmNs (s.on R.AFE_STAT_LPM_ACT) * 2 ^ 32, pos) ∧ SameBytes s t ∧ t.regs = s.regs) ∧
    (∀ pos, modEnabled s m = false ∨ inReset → exec (.overloadDetect (m, pos)) s = .next s) ∧
    (∀ a, ¬ inReset → (s.afe.ovl.find? fun e => e.1 == m.val) = some (m.val, a) → Runs (.overloadIntervalEnd m) s fun t =>
      (∀ e ∈ t.afe.ovl, e.1 ≠ m.val) ∧ (m.val, a, tb2U s) ∈ t.afe.ntail ∧ kept t ∧ (m.val < 48 → t.on (R.AFE_CHn_STAT_OVL m.val) = false) ∧
      Spec.Bears t m 1 a (tb2U s) ∧ Spec.Bears t m 0 a (tb2U s) ∧ Spec.BearsU32 s t m) ∧
    (inReset ∨ ¬ inside → exec (.overloadIntervalEnd m) s = .next s) ∧
    (∀ a b, s.afe.ntail.find? past = some (m.val, a, b) → Runs (.neighbourTagEnd m) s fun t => t.afe.ntail = s.afe.ntail.erase (m.val, a, b) ∧
      t.afe.ovl = s.afe.ovl ∧ kept t ∧ (m.val < 48 → ∀ x ∈ groupMods (refGroup m), x ≠ m.val → Spec.Bears t x 2 a (tb2U s))) ∧
    (s.afe.ntail.find? past = none → exec (.neighbourTagEnd m) s = .next s)) ∧
  (∀ (n : Fin 48) (g : Fin 4) (s : State), s.pg 10 = true →
    (g.val = 3 ∨ s.rd (R.AFE_CHn_CFG_GAIN n) = g.val → exec (.gainWrite n g) s = .next s) ∧
    (g.val ≠ 3 → s.rd (R.AFE_CHn_CFG_GAIN n) ≠ g.val → Runs (.gainWrite n g) s fun t => t.rd (R.AFE_CHn_CFG_GAIN n) = g.val ∧
      (s.on (R.AFE_CHn_CFG_EN n) = false → t.afe = s.afe) ∧
      (s.on (R.AFE_CHn_CFG_EN n) = true → Spec.BearsU32 s t n ∧
        ((mget s.afe.ck (n.val / 12) {}).pos = n.val % 12 → (mget t.afe.ck (n.val / 12) {}).void = true)) ∧
      SameBytes s t ∧ RegsKept s t [(0x601000 + 0x20 * n.val, 0x601004 + 0x20 * n.val)]) ∧
    (s.on R.AFE_CTL_LOCK = false → s.on (R.AFE_CHn_CFG_EN n) = false → Runs (.afeInputEnable n) s fun t =>
      t.on (R.AFE_CHn_CFG_EN n) = true ∧ mget t.afe.enAt n 0 = tb2U s ∧ Spec.Bears t n 3 (mget s.afe.enAt n 0) (tb2U s) ∧ Spec.BearsU32 s t n ∧
      SameBytes s t ∧ RegsKept s t [(0x601000 + 0x20 * n.val, 0x601004 + 0x20 * n.val),
        (0x600104 + 0x10 * (n.val / 12), 0x600108 + 0x10 * (n.val / 12))]) ∧
    (s.on R.AFE_CTL_LOCK = false → s.on (R.AFE_CHn_CFG_EN n) = true → Runs (.afeInputDisable n) s fun t =>
      t.on (R.AFE_CHn_CFG_EN n) = false ∧ (∀ e ∈ t.afe.ovl, e.1 ≠ n.val) ∧ mget t.afe.enAt n 0 = tb2U s ∧ SameBytes s t ∧
      ((∀ e ∈ s.afe.ovl, e.1 ≠ n.val) → RegsKept s t [(0x601000 + 0x20 * n.val, 0x601004 + 0x20 * n.val)])) ∧
    (s.on R.AFE_CTL_LOCK = true ∨ s.on (R.AFE_CHn_CFG_EN n) = true → exec (.afeInputEnable n) s = .next s) ∧
    (s.on R.AFE_CTL_LOCK = true ∨ s.on (R.AFE_CHn_CFG_EN n) = false → exec (.afeInputDisable n) s = .next s)) ∧
  (∀ (n : Fin 48) (s : State), s.pg 10 = true → let a := mget s.afe.acc n {}
    let ends : Prop := a.cnt ≠ 0 ∧ (match windowAt s n with | some l => l ≤ a.cnt | none => cycleOver s n a.t0 = true)
    (ends → Runs (.accumulatorSwap n) s fun t => mget t.afe.acc n {} = {} ∧
      t.rd (R.AFE_CHn_SEQ_SEQ n) = (s.rd (R.AFE_CHn_SEQ_SEQ n) + 1) % 2 ^ 32 ∧ t.rd (R.AFE_CHn_CNT_COUNT n) = min a.cnt 1048576 ∧
      t.rd64 (R.AFE_CHn_SUM_LO_SUM n) (R.AFE_CHn_SUM_HI_SUM n) = (a.sum % 2 ^ 64).toNat ∧
      t.rd64 (R.AFE_CHn_SQ_LO_SQ n) (R.AFE_CHn_SQ_HI_SQ n) = a.sq / 8 % 2 ^ 64 ∧
      t.rd (R.AFE_CHn_MIN_MIN n) = (a.mn % 2 ^ 32).toNat ∧ t.rd (R.AFE_CHn_MAX_MAX n) = (a.mx % 2 ^ 32).toNat ∧
      t.on (R.AFE_CHn_CNT_UFLG n) = a.u ∧ t.on (R.AFE_CHn_CNT_OFLG n) = a.o ∧ t.on (R.AFE_CHn_CNT_NFLG n) = a.n ∧ SameBytes s t ∧
      RegsKept s t [(0x601004 + 0x20 * n.val, 0x601020 + 0x20 * n.val), (0x602000 + 8 * n.val, 0x602008 + 8 * n.val)]) ∧
    (¬ ends → exec (.accumulatorSwap n) s = .next s)) ∧
  (∀ (k : Fin 4) (s : State), s.pg 10 = true → let c := mget s.afe.ck k {}
    let n := 12 * k.val + c.pos
    let runs : Prop := s.on (R.AFE_CKk_CTL_EN k) = true ∧ s.on (R.AFE_CKk_STAT_FAILED k) = false
    let ripe : Prop := dwellPairs s k ≤ c.m ∨ c.since + dwellMs s k * 1000000 * 2 ^ 32 ≤ tb2U s
    let void : Prop := c.void = true ∨ c.m < dwellPairs s k
    let beyond : Prop := max 1 (s.rd (R.AFE_CKk_CTL_TOL_ABS k)) * 8388607 * c.m + s.rd (R.AFE_CKk_CTL_TOL_REL k) * c.sr < c.sd * 10000
    let kept (t : State) : Prop := SameBytes s t ∧
      RegsKept s t [(0x600104 + 0x10 * k.val, 0x600110 + 0x10 * k.val), (0x601004 + 0x20 * n, 0x601008 + 0x20 * n)]
    let free (j : Nat) : Prop := s.on (R.AFE_CHn_CFG_EN (12 * k + j)) = true ∧ s.on (R.AFE_CHn_CFG_CKEXCL (12 * k + j)) = false
    (∀ j < 12, runs → c.phase = 0 → free j → (∀ i < j, ¬ free i) → Runs (.checkerSettleEnd k) s fun t => (mget t.afe.ck k {}).phase = 1 ∧
      (mget t.afe.ck k {}).pos = j ∧ (mget t.afe.ck k {}).since = tb2U s ∧ t.rd (R.AFE_CKk_STAT_POS k) = j ∧ SameBytes s t ∧
      RegsKept s t [(0x600104 + 0x10 * k.val, 0x600108 + 0x10 * k.val)]) ∧
    (runs → c.phase = 1 → c.since + ckSettleNs s k * 2 ^ 32 ≤ tb2U s → exec (.checkerSettleEnd k) s = .next { s with afe := { s.afe with
      ck := mput s.afe.ck k { c with phase := 2, since := tb2U s, void := false, sd := 0, sr := 0, m := 0 } } }) ∧
    (¬ runs ∨ c.phase = 2 ∨ (c.phase = 1 ∧ tb2U s < c.since + ckSettleNs s k * 2 ^ 32) → exec (.checkerSettleEnd k) s = .next s) ∧
    (runs → c.phase = 2 → ripe → c.pos < 12 → void → Runs (.checkerDwellEnd k) s fun t => t.rd (R.AFE_CKk_LASTD_RESULT k) = 2 ∧
      t.rd (R.AFE_CKk_LASTD_POS k) = c.pos ∧ t.rd (R.AFE_CKk_CNT_VOIDS k) = min (s.rd (R.AFE_CKk_CNT_VOIDS k) + 1) 4095 ∧
      t.afe.fails = s.afe.fails ∧ kept t) ∧
    (runs → c.phase = 2 → ripe → c.pos < 12 → ¬ void → ¬ beyond → Runs (.checkerDwellEnd k) s fun t => t.rd (R.AFE_CKk_LASTD_RESULT k) = 0 ∧
      t.rd (R.AFE_CKk_LASTD_POS k) = c.pos ∧ (t.rd (R.AFE_CKk_STAT_SUSPECT k)).testBit c.pos = false ∧
      (t.rd (R.AFE_CKk_STAT_INVAL k)).testBit c.pos = false ∧ t.on (R.AFE_CHn_STAT_CK_INVAL n) = false ∧ t.itemLive 18 n = false ∧ kept t) ∧
    (runs → c.phase = 2 → ripe → c.pos < 12 → ¬ void → beyond → Runs (.checkerDwellEnd k) s fun t => t.rd (R.AFE_CKk_LASTD_RESULT k) = 1 ∧
      t.rd (R.AFE_CKk_LASTD_POS k) = c.pos ∧ t.rd (R.AFE_CKk_LASTD_DIFF k) = c.sd / c.m % 2 ^ 24 ∧
      (t.rd (R.AFE_CKk_STAT_SUSPECT k)).testBit c.pos = true ∧ t.rd (R.AFE_CKk_CNT_FAILS k) = min (s.rd (R.AFE_CKk_CNT_FAILS k) + 1) 4095 ∧
      mget t.afe.fails n 0 = mget s.afe.fails n 0 + 1 ∧
      (mget s.afe.fails n 0 = 1 → (t.rd (R.AFE_CKk_STAT_INVAL k)).testBit c.pos = true ∧ t.on (R.AFE_CHn_STAT_CK_INVAL n) = true ∧
        t.itemLive 18 n = true) ∧ kept t) ∧
    (¬ (runs ∧ c.phase = 2 ∧ ripe) → exec (.checkerDwellEnd k) s = .next s) ∧
    Runs (.checkerRestart k) s fun t => t.on (R.AFE_CKk_STAT_FAILED k) = (s.rd R.AFE_GRP_LIVE_REF_FAIL).testBit 12 ∧
      t.rd (R.AFE_CKk_STAT_SUSPECT k) = 0 ∧ (∀ j < 12, mget t.afe.fails (12 * k.val + j) 0 = 0) ∧ SameBytes s t ∧
      RegsKept s t [(0x600104 + 0x10 * k.val, 0x600108 + 0x10 * k.val)])

/-! ### Decimation chains and resamplers (R86 to R117, R546) -/

/-- One modulator bit in the CIC (R89): four integrators modulo 2^32, and with every 32nd bit the combs' output. -/
def Spec.cicBit (c : Cic) (b : Bool) : Cic × List Int :=
  let i1 := c.i1 + if b then 1#32 else 0xFFFFFFFF#32
  let i2 := c.i2 + i1
  let i3 := c.i3 + i2
  let i4 := c.i4 + i3
  let k : Cic := { c with i1 := i1, i2 := i2, i3 := i3, i4 := i4 }
  if c.cnt + 1 < 32 then ({ k with cnt := c.cnt + 1 }, [])
  else ({ k with c1 := i4, c2 := i4 - c.c1, c3 := i4 - c.c1 - c.c2, c4 := i4 - c.c1 - c.c2 - c.c3, cnt := 0 },
    [(i4 - c.c1 - c.c2 - c.c3 - c.c4).toInt * 8])

/-- A run of modulator bits in the CIC: its state after them, and its outputs, oldest first. -/
def Spec.cicBits (c : Cic) : List Bool → Cic × List Int
  | [] => (c, [])
  | b :: l => ((Spec.cicBits (Spec.cicBit c b).1 l).1, (Spec.cicBit c b).2 ++ (Spec.cicBits (Spec.cicBit c b).1 l).2)

/-- The bits that complete a fast-tap value pass the CIC and HB1 of a running chain whose modulator has run undisturbed, with no checker on it
and no fade in HB1: the sum over the delay line, trimmed, rounded and saturated, is the value kept for the input and enters its accumulator. The bits
of a stopped chain, and those up to the edge at which a chain restarts, move its counters alone, and a number of bits that completes no value, or PD1 off, changes nothing. A load window opens, collects
values, and commits with the first failed check or writes its bank; a commit in progress ends before a further one (the model's choice, assumption 122).
A bank request, of a stage or of a resampler, is refused, switches at once, is kept pending or starts a fade; a fade's first and last outputs
show and end FADE_BUSY and switch ACT. A restart zeroes the CIC and every delay line and settles the fades; RUN and NHB writes are taken or
refused as stated, NHB's held value restarting nothing (assumption 124). No byte of memory changes. -/
def Obligations.ChainsAndBanks : Prop :=
  (∀ (n : Fin 48) (bits cbits : List Bool) (s : State), let c := chainOf s n
    (s.pg 1 = false ∨ bits.length ≠ tapBits c → exec (.fastTapValue n bits cbits) s = .next s) ∧
    (s.pg 1 = true → bits.length = tapBits c → c.cic.cnt < 32 → (s.on (R.DCH_CHn_CTL_RUN n) = false ∨ ((∃ w, c.srstAt = some w ∧ tb2U s < w + tmNs (s.on R.AFE_STAT_LPM_ACT) * 2 ^ 32) ∧
        (mget s.afe.ck (n.val / 12) {}).phase = 0)) → Runs (.fastTapValue n bits cbits) s fun t =>
      (chainOf t n).cic = { c.cic with cnt := 0 } ∧ hbOf (chainOf t n) 1 = { hbOf c 1 with odd := false } ∧ t.dch.tap = s.dch.tap ∧
      t.afe = s.afe ∧ t.regs = s.regs ∧ SameBytes s t) ∧
    (s.pg 1 = true → bits.length = tapBits c → c.cic.cnt < 32 → s.on (R.DCH_CHn_CTL_RUN n) = true → s.on (R.AFE_CHn_CFG_EN n) = true →
      mget s.afe.enAt n.val 0 + 64 * tmNs (s.on R.AFE_STAT_LPM_ACT) * 2 ^ 32 < tb2U s → mget s.afe.rst n.val [] = [] →
      (∀ w, c.srstAt = some w → w + 64 * tmNs (s.on R.AFE_STAT_LPM_ACT) * 2 ^ 32 ≤ tb2U s) →
      (mget s.afe.ck (n.val / 12) {}).phase = 0 → (hbOf c 1).fade = none → s.on (hbPend n 1) = false → Runs (.fastTapValue n bits cbits) s fun t =>
      let q := Spec.cicBits c.cic bits
      let line := ((q.2.map (clampI (-8388607) 8388607)).reverse ++ (hbOf c 1).line).take 47
      let z := clampI (-8388607) 8388607 (hbOut line (hbBankOf s n 1 (s.rd (R.DCH_CHn_BSTAT_ACT1 n))))
      let g := s.rd (R.AFE_CHn_CFG_GAIN n)
      (chainOf t n).cic = q.1 ∧ (hbOf (chainOf t n) 1).line = line ∧ (hbOf (chainOf t n) 1).odd = false ∧
      (mget t.dch.tap n (0, 0)).1 =
        clampI (-8388607) 8388607 (rdiv (z * Config.trimNum n g + Config.trimOff n g) (Config.trimDen n g + 1)) ∧
      (mget t.afe.acc n {}).cnt = (mget s.afe.acc n {}).cnt + 1 ∧
      (mget t.afe.acc n {}).sum = (mget s.afe.acc n {}).sum + (mget t.dch.tap n (0, 0)).1 ∧ SameBytes s t ∧
      RegsKept s t [(0x70100C + 0x40 * n.val, 0x701014 + 0x40 * n.val), (0x601004 + 0x20 * n.val, 0x601008 + 0x20 * n.val)])) ∧
  (∀ s : State, Runs .dchLoadOpen s fun t => t.on R.DCH_LD_STAT_OPENED = true ∧ t.rd R.DCH_LD_STAT_COUNT = 0 ∧ t.dch.stage = [] ∧
    t.dch.sel = s.rd R.DCH_LD_SEL_KIND * 2 ^ 31 + s.rd R.DCH_LD_SEL_STAGE * 2 ^ 28 + s.rd R.DCH_LD_SEL_IDX * 2 ^ 20 +
      s.rd R.DCH_LD_SEL_K * 2 ^ 16 + s.rd R.DCH_LD_SEL_BANK * 2 ^ 8 + s.rd R.DCH_LD_SEL_PROF ∧
    SameBytes s t ∧ RegsKept s t [(0x700010, 0x700014)]) ∧
  (∀ (v : BitVec 32) (s : State), (s.on R.DCH_LD_STAT_OPENED = true → Runs (.dchLoadData v) s fun t => t.dch.stage = s.dch.stage ++ [v] ∧
      t.rd R.DCH_LD_STAT_COUNT = min (s.rd R.DCH_LD_STAT_COUNT + 1) 8191 ∧ SameBytes s t ∧ RegsKept s t [(0x700010, 0x700014)]) ∧
    (s.on R.DCH_LD_STAT_OPENED = false → exec (.dchLoadData v) s = .next s)) ∧
  (∀ s : State, let w := s.dch.sel
    let l := s.dch.stage
    let cw := s.dch.com.1
    let cl := s.dch.com.2
    (s.on R.DCH_LD_STAT_OPENED = false → exec .dchLoadCommit s = .next s) ∧
    (s.on R.DCH_LD_STAT_OPENED = true → s.on R.DCH_LD_STAT_BUSY = true → Runs .dchLoadCommitDone s fun t =>
      exec .dchLoadCommit s = exec .dchLoadCommit t ∧ t.on R.DCH_LD_STAT_BUSY = false) ∧
    (s.on R.DCH_LD_STAT_OPENED = true → s.on R.DCH_LD_STAT_BUSY = false → Runs .dchLoadCommit s fun t => t.on R.DCH_LD_STAT_OPENED = false ∧ t.on R.DCH_LD_STAT_BUSY = true ∧
      t.dch.com = (w, l) ∧ (s.on R.DCH_CTL_LOCK = true → t.dch.res = 5) ∧
      (s.on R.DCH_CTL_LOCK = false → w / 2 ^ 31 = 0 → (w / 2 ^ 28 % 8 = 0 ∨ 5 < w / 2 ^ 28 % 8 ∨ w / 2 ^ 16 % 16 = 0 ∨ 11 < w / 2 ^ 16 % 16 ∨
        47 < w / 2 ^ 20 % 256) → t.dch.res = 6) ∧
      (s.on R.DCH_CTL_LOCK = false → w / 2 ^ 31 = 0 → 1 ≤ w / 2 ^ 28 % 8 → w / 2 ^ 28 % 8 ≤ 5 → 1 ≤ w / 2 ^ 16 % 16 → w / 2 ^ 16 % 16 ≤ 11 →
        w / 2 ^ 20 % 256 ≤ 47 → t.dch.res = if l.length ≠ w / 2 ^ 16 % 16 + 1 then 4
          else if s.on (R.DCH_CHn_CTL_RUN (w / 2 ^ 20 % 256)) then 2
          else if 131072 + 2 * ((l.map fun x => (sgn 20 x.toNat).natAbs).sum) ≤ 524288 then 1 else 3) ∧
      SameBytes s t ∧ RegsKept s t [(0x700010, 0x700014)]) ∧
    (s.on R.DCH_LD_STAT_BUSY = false → exec .dchLoadCommitDone s = .next s) ∧
    (s.on R.DCH_LD_STAT_BUSY = true → s.dch.res < 8 → Runs .dchLoadCommitDone s fun t => t.on R.DCH_LD_STAT_BUSY = false ∧
      t.rd R.DCH_LD_STAT_RESULT = s.dch.res ∧ SameBytes s t ∧
      (s.dch.res ≠ 1 → t.dch = s.dch ∧ RegsKept s t [(0x700010, 0x700014)]) ∧
      (s.dch.res = 1 → cw / 2 ^ 31 = 0 → 1 ≤ cw / 2 ^ 28 % 8 → cw / 2 ^ 28 % 8 ≤ 5 → let n := cw / 2 ^ 20 % 256
        hbBankOf t n (cw / 2 ^ 28 % 8) (cw / 2 ^ 8 % 2) = (cw / 2 ^ 16 % 16, cl.map fun x => sgn 20 x.toNat) ∧
        hbLoaded t n (cw / 2 ^ 28 % 8) (cw / 2 ^ 8 % 2) = true ∧
        RegsKept s t [(0x700010, 0x700014), (0x70100C + 0x40 * n, 0x701010 + 0x40 * n)]) ∧
      (s.dch.res = 1 → cw / 2 ^ 31 = 1 → let m := cw / 2 ^ 20 % 256
        rsBankOf t m (cw / 2 ^ 8 % 2) = (cw.testBit 0, cl) ∧ rsLoaded t m (cw / 2 ^ 8 % 2) = true ∧
        RegsKept s t [(0x700010, 0x700014), (0x704010 + 0x40 * m, 0x704014 + 0x40 * m)]))) ∧
  (∀ (n : Fin 48) (st : Fin 8) (b : Bool) (s : State), let h := hbOf (chainOf s n) st
    let k := if b then 1 else 0
    let run := s.on (R.DCH_CHn_CTL_RUN n)
    let bad : Prop := st.val = 0 ∨ nhbOf s n + 1 < st.val ∨ hbLoaded s n st k = false
    let kept (t : State) : Prop := SameBytes s t ∧ RegsKept s t [(0x70100C + 0x40 * n.val, 0x701010 + 0x40 * n.val)]
    (bad → exec (.bankRequest (.hb n st) b) s = .next (s.wrb (R.DCH_CHn_STAT_BREQ_REFUSED n) true)) ∧
    let now := (chainOf s n).srstAt = some (tb2U s)
    (¬ bad → run = false ∨ now → exec (.bankRequest (.hb n st) b) s = .next (s.wr (hbAct n st) k)) ∧
    (¬ bad → run = true → ¬ now → h.fade ≠ none ∨ s.on (hbPend n st) = true → Runs (.bankRequest (.hb n st) b) s fun t =>
      t.on (hbPend n st) = true ∧ t.rd (hbPendBank n st) = k ∧ t.dch = s.dch ∧ kept t) ∧
    (¬ bad → run = true → ¬ now → h.fade = none → s.on (hbPend n st) = false → s.rd (hbAct n st) ≠ k →
      Runs (.bankRequest (.hb n st) b) s fun t => (hbOf (chainOf t n) st).fade = some { bank := k } ∧ t.regs = s.regs ∧ SameBytes s t) ∧
    (¬ bad → run = true → ¬ now → h.fade = none → s.on (hbPend n st) = false → s.rd (hbAct n st) = k → exec (.bankRequest (.hb n st) b) s = .next s) ∧
    (∀ f, h.fade = some f → f.busy = false → Runs (.fadeStart (.hb n st)) s fun t => t.on (hbBusy n st) = true ∧
      (hbOf (chainOf t n) st).fade = some { bank := f.bank, j := 0, len := s.rd (R.DCH_CHn_CFG_FADE n) + 1, busy := true, at1 := tb2U s } ∧ kept t) ∧
    (∀ f, h.fade = some f → f.busy = true → f.len ≤ f.j → f.bank < 2 → Runs (.fadeEnd (.hb n st)) s fun t =>
      t.rd (hbAct n st) = f.bank ∧ t.on (hbBusy n st) = false ∧ (hbOf (chainOf t n) st).fade = none ∧ kept t)) ∧
  (∀ (m : Fin 192) (b : Bool) (s : State), let k := if b then 1 else 0
    let run := rsRun s m
    let now := (rsOf s m).srstAt = some (tb2U s)
    let pend := s.on (R.DCH_RSm_STAT_PEND m)
    let kept (t : State) : Prop := SameBytes s t ∧ RegsKept s t [(0x704010 + 0x40 * m.val, 0x704014 + 0x40 * m.val)]
    (rsLoaded s m k = false → exec (.bankRequest (.rs m) b) s = .next (s.wrb (R.DCH_RSm_STAT_BREQ_REFUSED m) true)) ∧
    (rsLoaded s m k = true → run = false ∨ now → exec (.bankRequest (.rs m) b) s = .next (s.wr (R.DCH_RSm_STAT_ACT m) k)) ∧
    (rsLoaded s m k = true → run = true → ¬ now → (rsOf s m).fade ≠ none ∨ pend = true → Runs (.bankRequest (.rs m) b) s fun t =>
      t.on (R.DCH_RSm_STAT_PEND m) = true ∧ t.rd (R.DCH_RSm_STAT_PENDBANK m) = k ∧ t.dch = s.dch ∧ kept t) ∧
    (rsLoaded s m k = true → run = true → ¬ now → (rsOf s m).fade = none → pend = false →
      (s.rd (R.DCH_RSm_STAT_ACT m) ≠ k → Runs (.bankRequest (.rs m) b) s fun t => (rsOf t m).fade = some { bank := k } ∧ t.regs = s.regs ∧
        SameBytes s t) ∧
      (s.rd (R.DCH_RSm_STAT_ACT m) = k → exec (.bankRequest (.rs m) b) s = .next s)) ∧
    (∀ f, (rsOf s m).fade = some f → f.busy = false → Runs (.fadeStart (.rs m)) s fun t => t.on (R.DCH_RSm_STAT_FADE_BUSY m) = true ∧
      (rsOf t m).fade = some { bank := f.bank, j := 0, len := s.rd (R.DCH_RSm_CFG_FADE m) + 1, busy := true, at1 := tb2U s } ∧ kept t) ∧
    (∀ f, (rsOf s m).fade = some f → f.busy = true → f.len ≤ f.j → f.bank < 2 → Runs (.fadeEnd (.rs m)) s fun t =>
      t.rd (R.DCH_RSm_STAT_ACT m) = f.bank ∧ t.on (R.DCH_RSm_STAT_FADE_BUSY m) = false ∧ (rsOf t m).fade = none ∧ kept t)) ∧
  (∀ (n : Fin 48) (s : State), let run := s.on (R.DCH_CHn_CTL_RUN n)
    let zeroed (t : State) : Prop := (chainOf t n).cic = { cnt := (chainOf s n).cic.cnt } ∧
      (∀ st, (hbOf (chainOf t n) st).line = []) ∧ (∀ st, 1 ≤ st → st ≤ 5 → (hbOf (chainOf t n) st).fade = none ∧
        t.on (hbBusy n st) = false ∧ t.on (hbPend n st) = false)
    (run = true → Runs (.chainSrst n) s fun t => zeroed t ∧ (chainOf t n).srstAt = some (tb2U s) ∧ SameBytes s t ∧
      RegsKept s t [(0x70100C + 0x40 * n.val, 0x701010 + 0x40 * n.val)]) ∧
    (run = false → exec (.chainSrst n) s = .next s) ∧
    (run = true → Runs (.chainRunClear n) s fun t => t.on (R.DCH_CHn_CTL_RUN n) = false ∧
      (∀ m, rsOfInput s n = some m → rsRun t m = false) ∧ SameBytes s t) ∧
    (run = false → rsOfInput s n = none → stagesLoaded s n (nhbOf s n) = true → Runs (.chainRunSet n) s fun t =>
      t.on (R.DCH_CHn_CTL_RUN n) = true ∧ zeroed t ∧ SameBytes s t ∧
      RegsKept s t [(0x701000 + 0x40 * n.val, 0x701004 + 0x40 * n.val), (0x70100C + 0x40 * n.val, 0x701010 + 0x40 * n.val)]) ∧
    (∀ m, run = false → rsOfInput s n = some m → feedOk s n (nhbOf s n) m = true → rsActLoaded s m = true →
      Runs (.chainRunSet n) s fun t => t.on (R.DCH_CHn_CTL_RUN n) = true ∧ rsRun t m = true ∧ SameBytes s t) ∧
    let fits (h : Nat) : Prop := (∀ m, rsOfInput s n = some m → feedOk s n h m = true) ∧ (rsOfInput s n = none → stagesLoaded s n h = true)
    (run = true → exec (.chainRunSet n) s = .next s) ∧
    (run = false → ¬ (fits (nhbOf s n) ∧ ∀ m, rsOfInput s n = some m → rsActLoaded s m = true) → Runs (.chainRunSet n) s fun t => t.on (R.DCH_CHn_CTL_RUN n) = false ∧
      t.on (R.DCH_CHn_STAT_RUN_REFUSED n) = true ∧ t.dch = s.dch ∧ SameBytes s t ∧
      RegsKept s t [(0x701010 + 0x40 * n.val, 0x701014 + 0x40 * n.val)]) ∧
    (∀ v : Fin 8, (4 < v.val → exec (.nhbWrite n v) s = .next s) ∧
      (v.val ≤ 4 → run = false → exec (.nhbWrite n v) s = .next (s.wr (R.DCH_CHn_CFG_NHB n) v.val)) ∧
      (v.val ≤ 4 → run = true → fits v.val → s.rd (R.DCH_CHn_CFG_NHB n) = v.val → exec (.nhbWrite n v) s = .next s) ∧
      (v.val ≤ 4 → run = true → fits v.val → s.rd (R.DCH_CHn_CFG_NHB n) ≠ v.val →
        Runs (.nhbWrite n v) s fun t => t.rd (R.DCH_CHn_CFG_NHB n) = v.val ∧ nhbOf t n = nhbOf s n ∧ (chainOf t n).cic = (chainOf s n).cic ∧
          SameBytes s t ∧ RegsKept s t [(0x701004 + 0x40 * n.val, 0x701008 + 0x40 * n.val), (0x70100C + 0x40 * n.val, 0x701010 + 0x40 * n.val)]) ∧
      (v.val ≤ 4 → run = true → ¬ fits v.val → Runs (.nhbWrite n v) s fun t =>
        t.on (R.DCH_CHn_STAT_NHB_REFUSED n) = true ∧ t.dch = s.dch ∧ SameBytes s t ∧
          RegsKept s t [(0x701010 + 0x40 * n.val, 0x701014 + 0x40 * n.val)])) ∧
    ((chainOf s n).nhb = none → exec (.nhbChangeEffect n) s = .next s) ∧
    (∀ h, (chainOf s n).nhb = some h → Runs (.nhbChangeEffect n) s fun t => nhbOf t n = s.rd (R.DCH_CHn_CFG_NHB n) ∧
      (∀ st, st ≠ 1 → (hbOf (chainOf t n) st).line = []) ∧ (chainOf t n).cic = (chainOf s n).cic ∧ t.regs = s.regs ∧ SameBytes s t))

/-- A due sample of a running local channel whose instant is open is written: the four bytes of its value and its flag byte in the slot of its tick
change and no others, and the instant counts it as written; after the close it is counted alone; one that is not due, or that the resampler started too late for, is not
written. The oldest SV sample leaves the FIFO; the first of a history or of a restart begins it, an input next to the newest joins it, one that
leaves a single gap is bridged and counted. A restart keeps no earlier SV input and zeroes local ones; a resampler that starts marks the open ticks it
comes too late for; RUN and SOURCE writes are taken or refused as stated (SRC 48 to 63 are stored as written: the model's choice,
assumption 125). -/
def Obligations.ResamplersAtWork : Prop :=
  (∀ (m : Fin 192) (tick : Nat) (i : Inst) (s : State), let g := ftgOfCh s m
    rsRun s m = true → isLocal s m = true → usedGroup s (m.val / 24) = true → instFor (espFtg s g) m tick = some i →
    let rel := i.t + relDelay (readyRs s m) (s.rd (R.DCH_RSm_CFG_SRC m)) m * 2 ^ 32
    (rel ≤ actU s → m.val ∉ i.absent → i.done = false → Runs (.resamplerRelease m tick) s fun t =>
      (∀ a, memRd t.mem a ≠ memRd s.mem a → (valAddr m (tick % 512) ≤ a ∧ a < valAddr m (tick % 512) + 4) ∨ a = flagAddr m (tick % 512)) ∧
      (∃ y fl, t.rdW (valAddr m (tick % 512)) = F32.mul y (BitVec.ofNat 32 (s.rd (R.DCH_RSm_SCALE_SCALE m))) ∧
        memRd t.mem (flagAddr m (tick % 512)) = BitVec.ofNat 8 fl ∧ t.on (R.DCH_RSm_STAT_UNSET m) = fl.testBit 7) ∧
      (∃ x ∈ (espFtg t g).insts, x.tick = tick ∧ x.t = i.t ∧ m.val ∈ x.written)) ∧
    (rel ≤ actU s → m.val ∉ i.absent → i.done = true → Runs (.resamplerRelease m tick) s fun t =>
      t.rd (R.ESP_FTGg_CNT_LATEWR g) = min (s.rd (R.ESP_FTGg_CNT_LATEWR g) + 1) (2 ^ (R.ESP_FTGg_CNT_LATEWR g).w - 1) ∧ SameBytes s t) ∧
    (actU s < rel ∨ m.val ∈ i.absent → exec (.resamplerRelease m tick) s = .next s)) ∧
  (∀ (e : SvIn) (r : List SvIn) (s : State), s.svi.fifo = e :: r →
    (svFed s e.sub = [] → exec .svSampleEnter s = .next { s with svi := { s.svi with fifo := r } }) ∧
    (svChans s e.sub = [] → Runs .svSampleEnter s fun t => t.svi.fifo = r ∧ t.regs = s.regs ∧ SameBytes s t) ∧
    (∀ m, svFed s e.sub = [m] → rsRun s m = true → (espFtg s (ftgOfCh s m)).insts = [] → Runs .svSampleEnter s fun t =>
      let q := e.vals.getD (s.rd (R.SVI_MAPm_QTY m)) (0, 0)
      let x : RsIn := { idx := e.idx, t := e.t * 2 ^ 32, v := F32.ofInt q.1, i := q.1, fl := q.2 }
      t.svi.fifo = r ∧ SameBytes s t ∧
      (e.restart = true ∨ (rsOf s m).hist = [] → (rsOf t m).hist = [x] ∧ (rsOf t m).cut = e.idx ∧ t.regs = s.regs) ∧
      (∀ a l, e.restart = false → (rsOf s m).hist = a :: l → (∀ y ∈ l, y.idx < a.idx) → (rsOf s m).cut ≤ e.idx → e.idx = a.idx + 1 → (rsOf t m).hist = (x :: a :: l).take 40 ∧ t.regs = s.regs) ∧
      (∀ a l, e.restart = false → (rsOf s m).hist = a :: l → (∀ y ∈ l, y.idx < a.idx) → (rsOf s m).cut ≤ e.idx → e.idx = a.idx + 2 → (∃ b, (rsOf t m).hist = (x :: b :: a :: l).take 40 ∧ b.idx = a.idx + 1 ∧
          b.t = (a.t + x.t) / 2 ∧ b.fl = a.fl ||| x.fl ||| 1) ∧
        t.rd (R.DCH_RSm_CNT_BRIDGED m) = min (s.rd (R.DCH_RSm_CNT_BRIDGED m) + 1) 65535 ∧
        RegsKept s t [(0x70401C + 0x40 * m, 0x704020 + 0x40 * m)]))) ∧
  (∀ (m : Fin 192) (s : State), let fresh (t : State) : Prop := (isLocal s m = true → ∀ e ∈ (rsOf t m).hist, e.v = 0#32) ∧
      (isLocal s m = false → (rsOf t m).hist = [])
    let idle (t : State) : Prop := (rsOf t m).fade = none ∧ t.on (R.DCH_RSm_STAT_FADE_BUSY m) = false ∧ t.on (R.DCH_RSm_STAT_PEND m) = false
    (rsRun s m = true → Runs (.resamplerSrst m) s fun t => fresh t ∧ idle t ∧ (rsOf t m).srstAt = some (tb2U s) ∧ SameBytes s t ∧
      RegsKept s t [(0x704010 + 0x40 * m.val, 0x704014 + 0x40 * m.val)]) ∧
    (rsRun s m = false → exec (.resamplerSrst m) s = .next s) ∧
    (rsRun s m = true → Runs (.resamplerRunClear m) s fun t => rsRun t m = false ∧ idle t ∧ SameBytes s t ∧
      RegsKept s t [(0x704000 + 0x40 * m.val, 0x704004 + 0x40 * m.val), (0x704010 + 0x40 * m.val, 0x704014 + 0x40 * m.val)]) ∧
    (rsRun s m = false → rsActLoaded s m = true → isLocal s m = false ∨ feedOk s (srcOf s m) (nhbOf s (srcOf s m)) m = true →
      Runs (.resamplerRunSet m) s fun t => rsRun t m = true ∧ fresh t ∧ SameBytes s t ∧
        (∀ i ∈ (espFtg s (ftgOfCh s m)).insts, i.done = false → m.val ∉ i.written → tooLate s m i = true →
          ∃ x ∈ (espFtg t (ftgOfCh s m)).insts, x.tick = i.tick ∧ x.t = i.t ∧ m.val ∈ x.absent) ∧
        RegsKept s t [(0x704000 + 0x40 * m.val, 0x704004 + 0x40 * m.val)]) ∧
    (rsRun s m = true → exec (.resamplerRunSet m) s = .next s) ∧
    (rsRun s m = false → exec (.resamplerRunClear m) s = .next s) ∧
    (rsRun s m = false → ¬ (rsActLoaded s m = true ∧ (isLocal s m = false ∨ feedOk s (srcOf s m) (nhbOf s (srcOf s m)) m = true)) → Runs (.resamplerRunSet m) s fun t => rsRun t m = false ∧
      t.on (R.DCH_RSm_STAT_CFG_REFUSED m) = true ∧ SameBytes s t ∧ RegsKept s t [(0x704010 + 0x40 * m.val, 0x704014 + 0x40 * m.val)]) ∧
    (∀ (sv : Bool) (src : Fin 64), let differs : Prop := s.on (R.DCH_RSm_CFG_SRCSEL m) ≠ sv ∨ s.rd (R.DCH_RSm_CFG_SRC m) ≠ src.val
      let clash : Prop := sv = false ∧ ∃ x < 192, x ≠ m.val ∧ s.on (R.DCH_RSm_CFG_SRCSEL x) = false ∧ s.rd (R.DCH_RSm_CFG_SRC x) = src.val
      (s.on R.DCH_CTL_LOCK = true ∨ ¬ differs → exec (.resamplerSourceWrite m sv src) s = .next s) ∧
      (s.on R.DCH_CTL_LOCK = false → differs → clash → exec (.resamplerSourceWrite m sv src) s =
        .next (s.wrb (R.DCH_RSm_STAT_CFG_REFUSED m) true)) ∧
      (s.on R.DCH_CTL_LOCK = false → differs → ¬ clash → Runs (.resamplerSourceWrite m sv src) s fun t =>
        t.on (R.DCH_RSm_CFG_SRCSEL m) = sv ∧ t.rd (R.DCH_RSm_CFG_SRC m) = src.val ∧ (rsRun s m = true → (rsOf t m).hist = []) ∧
        SameBytes s t ∧ RegsKept s t [(0x704004 + 0x40 * m.val, 0x704008 + 0x40 * m.val)])))

/-! ### Sampled-value ingest and the directory (R118 to R145) -/

/-- A well-formed one-ASDU timed frame for the one matching VALID subscription, next in count and inside its deadline, is counted and enters the FIFO
with the time of R131. A frame that is not well-formed counts a FORMAT drop; a differing confRev makes the subscription INVALID. A missed
deadline counts; the third in a row leads to LOST, where deadlines only count. LOCK makes configuration read-only; enabling, and a write to an enabled subscription, leads to WAIT,
and an INVALID subscription stays so (log entry 100). A snapshot starts on request and once a period of SNAP seconds. A silent directory entry is removed,
or marked if linked; a snapshot writes every entry's 512 bytes into its copy and nothing elsewhere; flush keeps linked entries; a
fetch shows an entry or EMPTY. -/
def Obligations.SampledValueIngest : Prop :=
  (∀ (f : SvFrame) (s : State), s.pg 8 = false → exec (.svFrameReceive f) s = .next s) ∧
  (∀ (f : SvFrame) (n : Nat) (s : State), s.pg 8 = true → svCands s f = [n] → f.wellFormed = false →
    Runs (.svFrameReceive f) s fun t => t.rd (R.SVI_SUBs_ERR_FORMAT n) = min (s.rd (R.SVI_SUBs_ERR_FORMAT n) + 1) 65535 ∧
      t.svi.fifo = s.svi.fifo ∧ t.svi.dir = s.svi.dir ∧ SameBytes s t ∧ RegsKept s t [(0x501038 + 0x40 * n, 0x50103C + 0x40 * n)]) ∧
  (∀ (f : SvFrame) (n : Nat) (a : SvAsdu) (s : State), s.pg 8 = true → svCands s f = [n] → f.wellFormed = true → svNameOk s n f = true →
    s.on (R.SVI_SUBs_CFG_AUTH n) = false → f.asdus = [a] →
    (a.confrev ≠ svRev s n → Runs (.svFrameReceive f) s fun t => t.rd (R.SVI_SUBs_STAT_STATE n) = 5 ∧
      t.on (R.SVI_SUBs_STAT_CONFREV_STK n) = true ∧ (s.rd (R.SVI_SUBs_STAT_STATE n) ≠ 5 → svRev t n = s.rd (R.SVI_SUBs_CONFREV_CONFREV n)) ∧ t.svi.fifo = s.svi.fifo ∧ SameBytes s t ∧
      RegsKept s t [(0x50000C, 0x500010), (0x501024 + 0x40 * n, 0x501028 + 0x40 * n)]) ∧
    (∀ li lc lt lb, a.confrev = s.rd (R.SVI_SUBs_CONFREV_CONFREV n) → f.sim = false →
      s.rd (R.SVI_SUBs_CFG_NASDU n) = 1 → a.vals.length = s.rd (R.SVI_SUBs_CFG_NQTY n) → a.cnt < svSubRate s n → a.sync = 2 →
      s.rd (R.SVI_SUBs_STAT_STATE n) = 2 → (subOf s n).timed = some true → (subOf s n).restart = false →
      (subOf s n).last = some (li, lc, lt, lb) → cntAhead lc a.cnt (svSubRate s n) = 1 → (subOf s n).due ≤ li + 1 →
      (subOf s n).seen.contains (li + 1) = false → s.pg 1 = true →
      let nom := wholeSec (arrivalNs s f.port f.pos) a.cnt (svSubRate s n) * 1000000000 + cntNs a.cnt (svSubRate s n)
      s.activeNs ≤ nom + clamp 100000 100000000 (s.rd (R.SVI_SUBs_MAXDLY_MAXDLY n)) →
      Runs (.svFrameReceive f) s fun t => t.svi.fifo = s.svi.fifo ++
          [⟨n, li + 1, nom - min 10000000 (s.rd (R.SVI_SUBs_MUDLY_MUDLY n)), false, a.vals.map fun e => (e.1.toInt, qualFlags e.2)⟩] ∧
        t.rd (R.SVI_SUBs_RX_RX n) = (s.rd (R.SVI_SUBs_RX_RX n) + 1) % 2 ^ 32 ∧ t.rd (R.SVI_SUBs_STAT_SYNC n) = 2 ∧
        t.rd (R.SVI_SUBs_STAT_STATE n) = 2 ∧ (subOf t n).last = some (li + 1, a.cnt, nom - min 10000000 (s.rd (R.SVI_SUBs_MUDLY_MUDLY n)),
          wholeSec (arrivalNs s f.port f.pos) a.cnt (svSubRate s n)) ∧ SameBytes s t ∧
        RegsKept s t [(0x50000C, 0x500010), (0x501024 + 0x40 * n, 0x501034 + 0x40 * n)])) ∧
  (∀ (n : Fin 64) (d : Nat) (s : State), let x := subOf s n
    let st := s.rd (R.SVI_SUBs_STAT_STATE n)
    (st ≠ 2 → st ≠ 3 → st ≠ 4 → exec (.sampleDeadline n) s = .next s) ∧
    (st = 3 → sampleDeadline s n x.due = some d → d ≤ s.activeNs → Runs (.sampleDeadline n) s fun t =>
      t.rd (R.SVI_SUBs_MISS_MISSING n) = min (s.rd (R.SVI_SUBs_MISS_MISSING n) + 1) 65535 ∧ t.rd (R.SVI_SUBs_STAT_STATE n) = 3 ∧ SameBytes s t ∧
      (x.seen = [] → (subOf t n).due = x.due + 1) ∧ RegsKept s t [(0x501034 + 0x40 * n.val, 0x501038 + 0x40 * n.val)]) ∧
    (st = 2 ∨ st = 4 → x.seen = [] → x.back ≤ x.due → sampleDeadline s n x.due = some d → d ≤ s.activeNs → svChans s n = [] →
      Runs (.sampleDeadline n) s fun t => t.rd (R.SVI_SUBs_MISS_MISSING n) = min (s.rd (R.SVI_SUBs_MISS_MISSING n) + 1) 65535 ∧
        (subOf t n).due = x.due + 1 ∧ (subOf t n).miss = x.miss + 1 ∧ SameBytes s t ∧
        (x.miss = 2 → t.rd (R.SVI_SUBs_STAT_STATE n) = 3 ∧ t.on (R.SVI_SUBs_STAT_LOST_STK n) = true ∧
          t.rd (R.SVI_SUBs_MISS_LOSSES n) = min (s.rd (R.SVI_SUBs_MISS_LOSSES n) + 1) 65535) ∧
        (x.miss ≠ 2 → t.rd (R.SVI_SUBs_STAT_STATE n) = st) ∧
        RegsKept s t [(0x501024 + 0x40 * n.val, 0x501028 + 0x40 * n.val), (0x501034 + 0x40 * n.val, 0x501038 + 0x40 * n.val)]) ∧
    (sampleDeadline s n x.due = some d → s.activeNs < d → exec (.sampleDeadline n) s = .next s)) ∧
  (∀ (n : Fin 64) (r : SvReg) (v : BitVec 32) (s : State),
    (s.on R.SVI_CTL_LOCK = true → exec (.svSubConfigWrite n r v) s = .next s) ∧
    (s.on R.SVI_CTL_LOCK = false → Runs (.svSubConfigWrite n .cfg v) s fun t => t.on (R.SVI_SUBs_CFG_EN n) = v.getLsbD 31 ∧
      t.on (R.SVI_SUBs_CFG_AUTH n) = v.getLsbD 30 ∧ t.on (R.SVI_SUBs_CFG_SIMOK n) = v.getLsbD 29 ∧
      (v.toNat / 2 ^ 25 % 8 < 5 → t.rd (R.SVI_SUBs_CFG_RATE n) = v.toNat / 2 ^ 25 % 8) ∧ t.rd (R.SVI_SUBs_CFG_KSLOT n) = v.toNat % 256 ∧
      (v.getLsbD 31 = true → t.rd (R.SVI_SUBs_STAT_STATE n) = if s.rd (R.SVI_SUBs_STAT_STATE n) = 5 then 5 else 1) ∧
      (v.getLsbD 31 = false → s.on (R.SVI_SUBs_CFG_EN n) = true → t.rd (R.SVI_SUBs_STAT_STATE n) = 0) ∧ SameBytes s t ∧
      RegsKept s t [(0x501000 + 0x40 * n.val, 0x501004 + 0x40 * n.val), (0x501024 + 0x40 * n.val, 0x501028 + 0x40 * n.val)]) ∧
    (s.on R.SVI_CTL_LOCK = false → s.on (R.SVI_SUBs_CFG_EN n) = true → r ≠ .cfg → Runs (.svSubConfigWrite n r v) s fun t =>
      t.rd (R.SVI_SUBs_STAT_STATE n) = (if s.rd (R.SVI_SUBs_STAT_STATE n) = 5 then 5 else 1) ∧
      (s.rd (R.SVI_SUBs_STAT_STATE n) ≠ 5 → (subOf t n).restart = true) ∧ SameBytes s t ∧
      RegsKept s t [(0x501004 + 0x40 * n.val, 0x501028 + 0x40 * n.val)]) ∧
    (s.on R.SVI_CTL_LOCK = false → s.on (R.SVI_SUBs_CFG_EN n) = false →
      exec (.svSubConfigWrite n .id v) s = .next (s.wr (R.SVI_SUBs_ID_APPID n) v.toNat) ∧
      exec (.svSubConfigWrite n .macLo v) s = .next (s.wr (R.SVI_SUBs_MAC_LO_MAC_LO n) v.toNat) ∧
      exec (.svSubConfigWrite n .macHi v) s = .next (s.wr (R.SVI_SUBs_MAC_HI_MAC_HI n) v.toNat) ∧
      exec (.svSubConfigWrite n .confrev v) s = .next (s.wr (R.SVI_SUBs_CONFREV_CONFREV n) v.toNat) ∧
      exec (.svSubConfigWrite n .mudly v) s = .next (s.wr (R.SVI_SUBs_MUDLY_MUDLY n) v.toNat) ∧
      exec (.svSubConfigWrite n .nomdly v) s = .next (s.wr (R.SVI_SUBs_NOMDLY_NOMDLY n) v.toNat) ∧
      exec (.svSubConfigWrite n .maxdly v) s = .next (s.wr (R.SVI_SUBs_MAXDLY_MAXDLY n) v.toNat))) ∧
  (∀ (m : Fin 192) (en : Bool) (sub : Fin 64) (q : Fin 32) (s : State),
    (s.on R.SVI_CTL_LOCK = true → exec (.svMapWrite m en sub q) s = .next s) ∧
    (s.on R.SVI_CTL_LOCK = false → Runs (.svMapWrite m en sub q) s fun t => t.on (R.SVI_MAPm_EN m) = en ∧ t.rd (R.SVI_MAPm_SUB m) = sub.val ∧
      (q.val < 24 → t.rd (R.SVI_MAPm_QTY m) = q.val) ∧ (24 ≤ q.val → t.rd (R.SVI_MAPm_QTY m) = s.rd (R.SVI_MAPm_QTY m)) ∧ SameBytes s t ∧
      (s.rd (R.SVI_MAPm_SUB m) ≠ sub.val → s.on (R.DCH_RSm_CFG_SRCSEL m) = true → rsRun s m = true → (rsOf t m).hist = []) ∧
      RegsKept s t [(0x504000 + 4 * m.val, 0x504004 + 4 * m.val)])) ∧
  (∀ (x : Fin 4096) (e : DirEnt) (s : State), s.svi.dir.find? (fun p => p.1 == x.val) = some (x.val, e) →
    let age := max 1 (s.rd R.SVI_DIR_CFG_AGE) * 1000000000
    (s.tb2Ns ≤ e.heard + age → exec (.directoryAgeOut x) s = .next s) ∧
    (e.heard + age < s.tb2Ns → Runs (.directoryAgeOut x) s fun t => SameBytes s t ∧ RegsKept s t [(0x50000C, 0x500010)] ∧
      (e.linked = true → t.svi.dir = mput s.svi.dir x.val { e with silent := true }) ∧
      (e.linked = false → t.svi.dir = mdel s.svi.dir x.val)) ∧
    Runs (.directoryFetch x) s fun t => t.on R.SVI_DIR_SEL_READY = true ∧ t.on R.SVI_DIR_SEL_EMPTY = false ∧
      t.rd R.SVI_DIR_SEL_IDX = x.val ∧ (∀ w < 128, t.rd (R.SVI_DIR_BUFw_WORD w) = leNat (((dirBytes e).drop (4 * w)).take 4)) ∧
      SameBytes s t ∧ RegsKept s t [(0x500010, 0x500014), (0x500200, 0x500400)]) ∧
  (∀ (x : Fin 4096) (s : State), s.svi.dir.find? (fun p => p.1 == x.val) = none → exec (.directoryAgeOut x) s = .next s ∧ Runs (.directoryFetch x) s fun t =>
    t.on R.SVI_DIR_SEL_EMPTY = true ∧ (∀ w < 128, t.rd (R.SVI_DIR_BUFw_WORD w) = 0) ∧ SameBytes s t ∧
      RegsKept s t [(0x500010, 0x500014), (0x500200, 0x500400)]) ∧
  (∀ s : State, s.rd R.SVI_DIR_CFG_SNAP = 0 ∨ s.tb2Ns < s.svi.snapAt + max 10 (s.rd R.SVI_DIR_CFG_SNAP) * 1000000000 →
    exec .directorySnapshot s = .next s) ∧
  (∀ (c : Instr) (s : State), (c = .snapshotRequest ∨ (c = .directorySnapshot ∧ s.rd R.SVI_DIR_CFG_SNAP ≠ 0 ∧
      s.svi.snapAt + max 10 (s.rd R.SVI_DIR_CFG_SNAP) * 1000000000 ≤ s.tb2Ns)) →
    (s.on R.SVI_STAT_SNAP_BUSY = true → exec c s = .next s) ∧
    (s.on R.SVI_STAT_SNAP_BUSY = false → Runs c s fun t => t.on R.SVI_STAT_SNAP_BUSY = true ∧ SameBytes s t ∧
      t.svi.snap = some ((match s.svi.copies with | [] => 0 | y :: _ => 1 - y), s.svi.dir) ∧ t.svi.dir = s.svi.dir ∧
      t.svi.snapAt = (if c = .directorySnapshot then s.tb2Ns else s.svi.snapAt) ∧
      RegsKept s t [(0x500004, 0x500008)])) ∧
  (∀ (k : Nat) (d : List (Nat × DirEnt)) (s : State), s.svi.snap = some (k, d) → k < 2 → (∀ e ∈ d, e.1 < 4096) →
    d.Pairwise (fun a b => a.1 ≠ b.1) → Runs .snapshotComplete s fun t => t.svi.snap = none ∧ t.on R.SVI_STAT_SNAP_BUSY = false ∧
      t.rd R.SVI_STAT_LASTCOPY = k ∧ t.svi.copies.head? = some k ∧
      (∀ e ∈ d, t.rdMem (0xC00000 + k * 0x200000 + 512 * e.1) 512 = dirBytes e.2) ∧
      SameBytesBut s t (0xC00000 + k * 0x200000) (0xC00000 + k * 0x200000 + 0x200000) ∧ RegsKept s t [(0x500004, 0x500008)]) ∧
  (∀ s : State, s.svi.dir.length ≤ 4096 → Runs .directoryFlush s fun t => t.svi.dir = s.svi.dir.filter (fun e => e.2.linked) ∧
    t.rd R.SVI_DIR_STAT_USED = (s.svi.dir.filter fun e => e.2.linked).length ∧ SameBytes s t ∧ RegsKept s t [(0x50000C, 0x500010)])

/-! ### Thorn's pins, pulse outputs and captures (R259 to R267, R366 to R370) -/

/-- A minimum pulse whose TMIN has passed ends, and the drive is what R258 gives without it; one whose TMIN has not goes on. A first readback mismatch is shown, sticks and raises its line; while the bit
is set it only becomes live; it ends. An edge of a binary input is synchronised and its time kept if it leaves the debounced level; an accepted
change shows and queues; the change above CHATN freezes; a quiet interval thaws; pop takes the oldest event. A host write reaches the GPOs the host
owns. A pulse output arms for its first edge more than 1 µs ahead or is late, is disarmed, rises and falls. An enabled capture input queues its stamp
less 16 ns, or it is lost; pop takes the oldest. While a reset is held the driven balls stand as R524 says. Other registers and all bytes stay. -/
def Obligations.PinsAndCaptures : Prop :=
  (∀ s : State, s.glb.hold ≠ 0 → (∀ k, pinLevel s (.trip k) = .low) ∧ (∀ k, pinLevel s (.gpo k) = .low) ∧ (∀ p, pinLevel s (.serdesTx p) = .idle) ∧
    pinLevel s .pcieTx = .idle ∧ pinLevel s .dramResetN = .low ∧ pinLevel s .dramCke = .low ∧ pinLevel s .miso = .hiZ ∧ pinLevel s .tdo = .hiZ) ∧
  (∀ (o : Fin 48) (s : State), s.thn.drv.testBit o = true → (∃ e ∈ s.thn.stretch, e.1 = o.val ∧ s.tb2Ns < e.2) → gateOpen s (o / 2) = true →
    Runs (.minPulseEnd o) s fun t => t.thn.drv.testBit o = true ∧ (∃ e ∈ t.thn.stretch, e.1 = o.val) ∧ SameBytes s t) ∧
  (∀ (o : Fin 48) (s : State), s.thn.drv.testBit o = true → (∀ e ∈ s.thn.stretch, e.1 = o.val → e.2 ≤ s.tb2Ns) → Runs (.minPulseEnd o) s fun t =>
    (∀ e ∈ t.thn.stretch, e.1 ≠ o.val) ∧
    t.thn.drv.testBit o = (tripSrc s o && gateOpen s (o / 2)) ∧
    (padsNow t).testBit o = (!gateClosed s && s.pg 1 && tripSrc s o && gateOpen s (o / 2)) ∧ SameBytes s t ∧
    RegsKept s t [(0xA00004, 0xA00010), (0xA00018, 0xA0001C)]) ∧
  (∀ (o : Fin 48) (s : State), let f := rbFld o
    (s.pg 1 = false → exec (.readbackMismatch o) s = .next s) ∧
    (s.pg 1 = true → (s.rd f.1).testBit f.2 = false → Runs (.readbackMismatch o) s fun t => (t.rd f.1).testBit f.2 = true ∧
      t.on R.THN_STAT_RB_STK = true ∧ t.itemLive 19 o = true ∧ t.thn = s.thn ∧ SameBytes s t ∧
      t.prv.lines = s.prv.lines ++ [(19, BitVec.ofNat 32 o)] ∧
      RegsKept s t [(0xA00004, 0xA00008), (0xA00010, 0xA00018)]) ∧
    (s.pg 1 = true → (s.rd f.1).testBit f.2 = true → Runs (.readbackMismatch o) s fun t => t.itemLive 19 o = true ∧
      t.prv.lines = s.prv.lines ∧ t.regs = s.regs ∧ SameBytes s t) ∧
    Runs (.readbackMismatchEnd o) s fun t => t.regs = s.regs ∧ SameBytes s t ∧ t.prv.lines = s.prv.lines ∧
      ∀ a b, t.itemLive a b = (s.itemLive a b && decide ((a, b) ≠ (19, o.val)))) ∧
  (∀ (i : Fin 64) (pin : Bool) (s : State), let b := binOf s i
    let v := pin != s.on (R.THN_BINi_CFG_INV i)
    (s.pg 1 = false → exec (.binEdge i pin) s = .next s) ∧
    (s.pg 1 = true → Runs (.binEdge i pin) s fun t => (binOf t i).sync = v ∧ (binOf t i).edgeAt = s.tb2Ns ∧ (binOf t i).deb = b.deb ∧
      (binOf t i).frozen = b.frozen ∧ (v = b.deb → (binOf t i).first = b.first) ∧ (b.first ≠ none → (binOf t i).first = b.first) ∧
      (v ≠ b.deb → b.first = none → (binOf t i).first = some (actUs s)) ∧ (∀ j, j ≠ i.val → binOf t j = binOf s j) ∧
      t.thn.fifo = s.thn.fifo ∧ t.regs = s.regs ∧ SameBytes s t)) ∧
  (∀ (i : Fin 64) (s : State), let b := binOf s i
    let k := s.tb2Ns / 1000000000
    let n := if b.interval = k then b.changes + 1 else 1
    let lv := pairFld R.THN_BIN_LO_LEVEL R.THN_BIN_HI_LEVEL i
    let fz := pairFld R.THN_BCHAT_LO_FROZEN R.THN_BCHAT_HI_FROZEN i
    let beyond : Prop := s.on (R.THN_BINi_CFG_CHEN i) = true ∧ max 2 (s.rd (R.THN_BINi_CFG_CHATN i)) < n
    (b.sync ≠ b.deb → b.frozen = false → b.edgeAt + min 100 (s.rd (R.THN_BINi_CFG_DEB i)) * 100000 ≤ s.tb2Ns → s.thn.fifo.length < 256 →
      Runs (.binDebounceAccept i) s fun t => (binOf t i).deb = b.sync ∧ (binOf t i).first = none ∧ (t.rd lv.1).testBit lv.2 = b.sync ∧
        t.thn.fifo = s.thn.fifo ++ [⟨b.sync, false, i, s.thn.seq % 65536, b.first.getD (actUs s)⟩] ∧
        t.rd R.THN_BEV_STAT_COUNT = s.thn.fifo.length + 1 ∧ SameBytes s t ∧ (liveVal t (ptBin i) = if b.sync then 1 else 0) ∧
        (beyond → (binOf t i).frozen = true ∧ (t.rd fz.1).testBit fz.2 = true ∧ t.on R.THN_STAT_CHAT_STK = true ∧
          RegsKept s t [(0xA00004, 0xA00008), (0xA00024, 0xA00038)]) ∧
        (¬ beyond → (binOf t i).frozen = false ∧ RegsKept s t [(0xA00024, 0xA0002C), (0xA00034, 0xA00038)])) ∧
    (b.sync = b.deb ∨ b.frozen = true ∨ s.tb2Ns < b.edgeAt + min 100 (s.rd (R.THN_BINi_CFG_DEB i)) * 100000 →
      exec (.binDebounceAccept i) s = .next s) ∧
    (b.frozen = true → b.edgeAt + 1000000000 < k * 1000000000 → Runs (.binChatterThaw i) s fun t => (binOf t i).frozen = false ∧
      (binOf t i).deb = b.sync ∧ (t.rd fz.1).testBit fz.2 = false ∧ SameBytes s t ∧
      (b.sync = b.deb → t.thn.fifo = s.thn.fifo ∧ RegsKept s t [(0xA0002C, 0xA00034)]) ∧
      (b.sync ≠ b.deb → s.thn.fifo.length < 256 → (t.rd lv.1).testBit lv.2 = b.sync ∧
        t.thn.fifo = s.thn.fifo ++ [⟨b.sync, true, i, s.thn.seq % 65536, actUs s⟩] ∧ RegsKept s t [(0xA00024, 0xA00038)])) ∧
    (b.frozen = false ∨ k * 1000000000 ≤ b.edgeAt + 1000000000 → exec (.binChatterThaw i) s = .next s)) ∧
  (∀ s : State, (s.thn.fifo = [] → exec .binEventPop s = .next s) ∧
    ∀ e l, s.thn.fifo = e :: l → l.length < 512 → Runs .binEventPop s fun t => t.thn.fifo = l ∧ t.rd R.THN_BEV_STAT_COUNT = l.length ∧
      t.thn.bin = s.thn.bin ∧ SameBytes s t ∧ RegsKept s t [(0xA00034, 0xA00038)]) ∧
  (∀ (v : BitVec 16) (s : State), Runs (.gpoHostWrite v) s fun t => t.rd R.THN_GPO_HOSTW_VAL = v.toNat ∧
    (∀ k < 16, (t.rd R.THN_GPO_LEVEL).testBit k = (!gateClosed s && s.pg 1 &&
      (if (s.rd R.THN_GPO_OWN_HOST).testBit k then v.getLsbD k else s.thn.gpoSch.testBit k))) ∧ SameBytes s t ∧
    RegsKept s t [(0xA00004, 0xA00010), (0xA00018, 0xA00020)]) ∧
  (∀ (k : Fin 8) (s : State), let x := tpoOf s k
    let base := baseNs s (s.rd (R.TIM_TPOk_CFG_BASE k))
    let st := s.rd64 (R.TIM_TPOk_START_LO_START k) (R.TIM_TPOk_START_HI_START k)
    let per := clamp 1000 4000000000 (s.rd (R.TIM_TPOk_PER_PER k))
    let stat := (0x300818 + 0x20 * k.val, 0x30081C + 0x20 * k.val)
    (base = none → exec (.tpoArm k) s = .next s ∧ exec (.tpoEdge k) s = .next s) ∧
    (∀ now, base = some now →
      (s.on (R.TIM_TPOk_CFG_PERIODIC k) = false → now + 1000 < st → Runs (.tpoArm k) s fun t => (tpoOf t k).edge = some st ∧
        t.on (R.TIM_TPOk_STAT_ARMED k) = true ∧ SameBytes s t ∧ RegsKept s t [stat]) ∧
      (s.on (R.TIM_TPOk_CFG_PERIODIC k) = false → st ≤ now + 1000 → Runs (.tpoArm k) s fun t => (tpoOf t k).edge = none ∧
        t.on (R.TIM_TPOk_STAT_ARMED k) = false ∧ t.on (R.TIM_TPOk_STAT_LATE_STK k) = true ∧ SameBytes s t ∧ RegsKept s t [stat] ∧
        ∃ e, t.yew.cross = s.yew.cross ++ [e] ∧ e.src = 3 ∧ e.code = 6) ∧
      (s.on (R.TIM_TPOk_CFG_PERIODIC k) = true → Runs (.tpoArm k) s fun t => t.on (R.TIM_TPOk_STAT_ARMED k) = true ∧ SameBytes s t ∧
        RegsKept s t [stat] ∧ ∃ n, (tpoOf t k).edge = some (st + n * per) ∧ now + 1000 < st + n * per ∧
          (∀ m < n, st + m * per ≤ now + 1000) ∧ t.rd (R.TIM_TPOk_STAT_SKIP k) = min 65535 n) ∧
      (∀ e, x.edge = some e → x.off = none → e ≤ now → Runs (.tpoEdge k) s fun t => (tpoOf t k).high = true ∧
        (tpoOf t k).off = some (e + tpoWid s k) ∧
        tpoPin t k = (s.on (R.TIM_TPOk_CFG_EN k) != s.on (R.TIM_TPOk_CFG_POL k)) ∧ t.regs = s.regs ∧ SameBytes s t ∧
        (tpoOf t k).edge = (if s.on (R.TIM_TPOk_CFG_PERIODIC k) then some (e + per) else none)) ∧
      (∀ e, x.off = some e → e ≤ now → (∀ d, x.edge = some d → now < d) → Runs (.tpoEdge k) s fun t => (tpoOf t k).high = false ∧
        (tpoOf t k).off = none ∧ (tpoOf t k).edge = x.edge ∧ SameBytes s t ∧ RegsKept s t [stat] ∧
        (x.edge = none ∨ x.stopping = true → t.on (R.TIM_TPOk_STAT_ARMED k) = false) ∧
        (x.edge ≠ none → x.stopping = false → t.regs = s.regs)) ∧
      ((∀ e, x.off = some e → now < e) → (∀ d, x.edge = some d → now < d) → exec (.tpoEdge k) s = .next s)) ∧
    (x.off = none → Runs (.tpoDisarm k) s fun t => (tpoOf t k).edge = none ∧ t.on (R.TIM_TPOk_STAT_ARMED k) = false ∧ SameBytes s t ∧
      RegsKept s t [stat]) ∧
    (x.off ≠ none → Runs (.tpoDisarm k) s fun t => (tpoOf t k).edge = none ∧ (tpoOf t k).off = x.off ∧ (tpoOf t k).stopping = true ∧
      t.regs = s.regs ∧ SameBytes s t)) ∧
  (∀ (i : Fin 8) (rise : Bool) (s : State), let b := s.rd (R.TIM_TCIi_CFG_BASE i)
    let taken : Prop := s.pg 8 = true ∧ s.on (R.TIM_TCIi_CFG_EN i) = true ∧
      (s.rd (R.TIM_TCIi_CFG_EDGE i) = 3 ∨ (s.rd (R.TIM_TCIi_CFG_EDGE i) = 1 ∧ rise = true) ∨ (s.rd (R.TIM_TCIi_CFG_EDGE i) = 2 ∧ rise = false))
    (∀ now, baseNs s b = some now → taken → s.tim.tci.length < 64 → Runs (.tciCapture i rise) s fun t =>
      t.tim.tci = s.tim.tci ++ [⟨rise, b, i, s.tim.tciSeq, (now - 16) % 2 ^ 32⟩] ∧ t.tim.tciSeq = (s.tim.tciSeq + 1) % 65536 ∧
      t.regs = s.regs ∧ SameBytes s t) ∧
    (∀ now, baseNs s b = some now → taken → 64 ≤ s.tim.tci.length → Runs (.tciCapture i rise) s fun t => t.tim.tci = s.tim.tci ∧
      t.rd R.TIM_TCI_STAT_LOST = min (s.rd R.TIM_TCI_STAT_LOST + 1) 65535 ∧ t.on R.TIM_TCI_STAT_OVF_STK = true ∧
      t.tim.tciSeq = (s.tim.tciSeq + 1) % 65536 ∧ SameBytes s t ∧ RegsKept s t [(0x300C40, 0x300C44)]) ∧
    (¬ taken → exec (.tciCapture i rise) s = .next s) ∧
    Runs .tciPop s fun t => t.tim.tci = s.tim.tci.tail ∧ t.tim.tciSeq = s.tim.tciSeq ∧ t.regs = s.regs ∧ SameBytes s t)

/-! ### Time (R343 to R375) -/

namespace Sys2Proof.Spec
open Sys2Proof Sys2Proof.Machine

/-- The registers that the state, the servo and a step of base `b` show themselves in. -/
def baseRegs (b : Nat) : List (Nat × Nat) :=
  [(0x300004, 0x30000C), (0x300108 + 0x40 * b, 0x30010C + 0x40 * b), (0x30011C + 0x40 * b, 0x300120 + 0x40 * b),
    (0x30012C + 0x40 * b, 0x300130 + 0x40 * b), (0x30013C + 0x40 * b, 0x300140 + 0x40 * b)]
    ++ (List.range 8).map fun k => (0x300818 + 0x20 * k, 0x30081C + 0x20 * k)

/-- The servo's law (R357) on an offset `o` (1/16 ns) that comes `dt` (2^−32 ns) after the one before: integrator, adjustment, addend, FADJ
and the latest 16 adjustments. -/
def ServoLaw (s t : State) (b : Nat) (o : Int) (dt : Nat) : Prop :=
  let x := s.tbOf b
  let y := t.tbOf b
  let e := F32.div (F32.roundInt o (-4) false) (F32.div (F32.roundInt dt (-32) false) (F32.ofInt 1000000000))
  let lim (w : Word) : Word := F32.max (F32.neg (F32.ofInt 500000)) (F32.min (F32.ofInt 500000) w)
  y.integ = lim (F32.add x.integ (F32.mul (F32.roundInt (s.rd (R.TIM_TBb_SERVO_KI b)) (-16) false) e)) ∧
  y.adj = lim (F32.sub (F32.neg (F32.mul (F32.roundInt (s.rd (R.TIM_TBb_SERVO_KP b)) (-12) false) e)) y.integ) ∧
  y.addend = addendOf y.adj ∧ t.rd (R.TIM_TBb_FADJ_FADJ b) = usg 32 (f32Times y.adj 256 1) ∧ y.hist = (y.adj :: x.hist).take 16

/-- What a usable offset `raw` (1/16 ns) of base `b` does (R355 to R358): in NOMASTER or under REACQ the base acquires and beyond 1 ms
is stepped by it, where REACQ ends a path slew in progress (R359); eight within LOCKTH lock; in ACQUIRE up to 1 ms, and in LOCKED and HOLDOVER within GUARD of its prediction, it reaches the
servo, otherwise it is rejected. -/
def OffsetUsed (s t : State) (b : Nat) (raw : Int) : Prop :=
  let x := s.tbOf b
  let y := t.tbOf b
  let o := if x.reacq then raw else raw - rdiv x.path (2 ^ 28)
  let st := s.rd (R.TIM_TBb_STAT_STATE b)
  let now := (s.tbOf 2).val
  let acq : Prop := x.reacq = true ∨ st = 1
  let held : Prop := x.reacq = false ∧ (st = 3 ∨ st = 4)
  let miss := (o - f32Times (predicted x now) 16 1).natAbs
  let guard := 16 * max 1 (s.rd (R.TIM_TBb_GUARD_GUARD b))
  SameBytes s t ∧ RegsKept s t (baseRegs b) ∧
  t.rd (R.TIM_TBb_OFFS_OFFS b) = usg 32 (clampI (-2147483648) 2147483647 (rdiv raw 16)) ∧
  (acq → t.rd (R.TIM_TBb_STAT_STATE b) = 2 ∧ y.reacq = false) ∧
  (x.reacq = true → y.path = 0 ∧ t.on (R.TIM_TBb_STAT_PATHSLEW b) = false) ∧
  (acq ∨ st = 2 → 16000000 < o.natAbs → y.val = ((x.val : Int) - o * 2 ^ 28).toNat ∧ y.integ = 0 ∧
    t.on (R.TIM_TBb_STAT_STEP_STK b) = true ∧ t.rd (R.TIM_TBb_CNT_STEPS b) = min (s.rd (R.TIM_TBb_CNT_STEPS b) + 1) 255 ∧
    (b = s.followed → s.on R.TIM_ACT_AUTO = false → t.on R.TIM_ACT_STAT_STEP_STK = true)) ∧
  (acq ∨ st = 2 → o.natAbs ≤ 16000000 → y.val = x.val ∧ y.last = some (o, now)) ∧
  (x.reacq = false → st = 2 → x.run = 7 → o.natAbs ≤ 16 * max 1 (s.rd (R.TIM_TBb_GUARD_LOCKTH b)) → o.natAbs ≤ 16000000 →
    t.rd (R.TIM_TBb_STAT_STATE b) = 3) ∧
  (held → miss ≤ guard → t.rd (R.TIM_TBb_STAT_STATE b) = 3 ∧ y.val = x.val ∧ y.last = some (o, now) ∧ y.devs = []) ∧
  ((x.reacq = false ∧ st = 2 ∧ o.natAbs ≤ 16000000) ∨ (held ∧ miss ≤ guard) → ∀ o0 t0, x.last = some (o0, t0) → t0 < now →
    ServoLaw s t b o (now - t0)) ∧
  (held → guard < miss → t.rd (R.TIM_TBb_STAT_STATE b) = st ∧ y.val = x.val ∧ y.last = x.last ∧ y.adj = x.adj ∧
    t.rd (R.TIM_TBb_CNT_REJECT b) = min (s.rd (R.TIM_TBb_CNT_REJECT b) + 1) 65535)

end Sys2Proof.Spec

/-- Once a second the coarse clock takes active time of a LOCKED base. Peer delay: at the end of its interval a request of domain PDDOM opens an
exchange and is queued, and an exchange without a response counts, the third in a row making the delay invalid; a request is answered by a one-step
response that carries its ingress stamp; a response gives neighborRateRatio and link delay. A Sync of a base's master is used at once or kept for
its Follow_Up, and used with it, where the link delay is valid: its offset steps, locks, reaches the servo or is rejected as
`Spec.OffsetUsed` says. Path and switch slews end. Without an offset for SYNCTO a base is in HOLDOVER at the mean of its latest adjustments, after
HOLDMAX more in NOMASTER. MID, MPN and PORT are written; no master means NOMASTER. A switch under 100 ns is
immediate, else the residual keeps active time. SET loads SETV in MODE 0; REACQ is kept. A PPS edge steps an acquiring TB3 to the whole second, else
gives an offset. Other registers and all bytes stay. -/
def Obligations.TimeBasesAndActiveTime : Prop :=
  (∀ s : State, let due : Prop := s.pg 8 = true ∧ s.rd (R.TIM_TBb_STAT_STATE s.followed) = 3 ∧
      s.tim.coarseSec ≠ some (s.activeNs / 1000000000)
    (due → exec .coarseClockLoad s = .next { s with tim := { s.tim with coarse := actU s, coarseSec := some (s.activeNs / 1000000000) } }) ∧
    (¬ due → exec .coarseClockLoad s = .next s) ∧
    (s.tim.resid = 0 → Runs .switchSlewEnd s fun t => t.on R.TIM_ACT_STAT_SLEWING = false ∧ t.tim = s.tim ∧ SameBytes s t ∧
      RegsKept s t [(0x300008, 0x30000C)]) ∧
    (s.tim.resid ≠ 0 → exec .switchSlewEnd s = .next s)) ∧
  (∀ (p : Fin 3) (s : State), let x := pdOf s p
    let up : Prop := portUp s p = true ∧ s.pg 8 = true
    let due : Prop := ∀ a, x.sentAt = some a →
      a + 125000000 * 2 ^ (clampI (-3) 3 (sgn 8 (s.rd R.TIM_PDCFG_LOGINT)) + 3).toNat ≤ s.tb2Ns
    let q := queueFor s p none
    (¬ (up ∧ due) → exec (.pdelayReqSend p) s = .next s) ∧
    (up → due → Runs (.pdelayReqSend p) s fun t => (pdOf t p).seq = (x.seq + 1) % 65536 ∧ (pdOf t p).open_ = true ∧ (pdOf t p).t1 = none ∧
      (pdOf t p).sentAt = some s.tb2Ns ∧ (hasRoom s p q 1 = true → queueOf t p q = queueOf s p q ++
        [{ kind := .pdReq ((x.seq + 1) % 65536) (s.rd R.TIM_PDCFG_PDDOM), len := 72 }]) ∧
      (x.open_ = true → (pdOf t p).missed = x.missed + 1 ∧ t.rd (R.TIM_Pp_PDSTAT_LOST p) = min (s.rd (R.TIM_Pp_PDSTAT_LOST p) + 1) 65535) ∧
      (x.open_ = true → x.missed = 2 → t.on (R.TIM_Pp_PDSTAT_VALID p) = false ∧ t.on (R.TIM_Pp_PDSTAT_PDFAIL_STK p) = true) ∧
      SameBytes s t ∧ RegsKept s t [(0x300410 + 0x20 * p.val, 0x300414 + 0x20 * p.val), (0x40102C + 0x100 * p.val, 0x401030 + 0x100 * p.val)]) ∧
    (∀ m : PdReq, m.port = p → (¬ up → exec (.pdelayReqReceive m) s = .next s) ∧
      (up → Runs (.pdelayReqReceive m) s fun t => t.tim = s.tim ∧ SameBytes s t ∧
        (hasRoom s p q 1 = true → t.regs = s.regs ∧
          queueOf t p q = queueOf s p q ++ [{ kind := .pdResp m (ingressStamp s 2 p m.pos), len := 72 }]) ∧
        RegsKept s t [(0x40102C + 0x100 * p.val, 0x401030 + 0x100 * p.val)])) ∧
    (∀ (m : PdResp) (t1 : Int), x.open_ = true → x.seq = m.seq.val → x.t1 = some t1 → Runs (.pdelayRespReceive p m) s fun t =>
      let t4 := ingressStamp s 2 p m.pos
      let y := pdOf t p
      y.open_ = false ∧ y.missed = 0 ∧ y.prev = m.t3.map (fun a => (a, t4)) ∧ t.on (R.TIM_Pp_PDSTAT_VALID p) = true ∧
      (m.t3 = none ∨ x.prev = none → y.num = x.num ∧ y.den = x.den) ∧
      (∀ a b c, m.t3 = some a → x.prev = some (b, c) → b < a → c < t4 → y.num = (a - b) * 2 ^ 32 ∧ y.den = (t4 - c).toNat) ∧
      t.rd (R.TIM_Pp_MLD_MLD p) = usg 32 (clampI (-(2 ^ 31)) (2 ^ 31 - 1)
        (rdiv (y.num * (t4 - t1) - m.turn * 2 ^ 16 * y.den) (2 * y.den * 2 ^ 28))) ∧
      t.rd (R.TIM_Pp_NRR_NRR p) = usg 32 (clampI (-(2 ^ 31)) (2 ^ 31 - 1) (rdiv (((y.num : Int) - y.den) * 256000000000) y.den)) ∧
      SameBytes s t ∧ RegsKept s t [(0x300408 + 0x20 * p.val, 0x300414 + 0x20 * p.val)]) ∧
    (∀ m : PdResp, x.open_ = false ∨ x.seq ≠ m.seq.val ∨ x.t1 = none → exec (.pdelayRespReceive p m) s = .next (s.takeFrame .tim))) ∧
  (∀ (m : SyncMsg) (s : State), let of := fun b => fromMaster s b m.port m.domain m.srcId m.srcPort
    (s.pg 8 = false → exec (.syncReceive m) s = .next s) ∧
    (s.pg 8 = true → (∀ b ∈ [0, 1, 3], of b = false) → exec (.syncReceive m) s = .next (s.takeFrame .tim)) ∧
    (∀ b ∈ [0, 1, 3], s.pg 8 = true → of b = true → (∀ d ∈ [0, 1, 3], d ≠ b → of d = false) →
      (m.origin = none → Runs (.syncReceive m) s fun t => t.regs = s.regs ∧ SameBytes s t ∧ t.tbOf b = { s.tbOf b with
        pend := [⟨m.seq, m.port, m.domain, m.srcId, m.srcPort, ingressStamp s b m.port m.pos, m.corr⟩] }) ∧
      (∀ t1, m.origin = some t1 → s.on (R.TIM_Pp_PDSTAT_VALID m.port) = false → Runs (.syncReceive m) s fun t => t.regs = s.regs ∧
        SameBytes s t ∧ t.tbOf b = { s.tbOf b with pend := [] }) ∧
      (∀ t1, m.origin = some t1 → s.on (R.TIM_Pp_PDSTAT_VALID m.port) = true → Runs (.syncReceive m) s fun t =>
        Spec.OffsetUsed s t b (offsetOf s m.port (ingressStamp s b m.port m.pos) t1 m.corr)))) ∧
  (∀ (m : FollowUp) (s : State), (s.pg 8 = false → exec (.followUpReceive m) s = .next s) ∧
    (s.pg 8 = true → (∀ b ∈ [0, 1, 3], (s.tbOf b).pend = []) → exec (.followUpReceive m) s = .next (s.takeFrame .tim)) ∧
    (∀ b ∈ [0, 1, 3], s.pg 8 = true → s.rd (R.TIM_TBb_CFG_MODE b) = 1 → masterId s b ≠ 0 → (∀ d ∈ [0, 1, 3], d ≠ b → (s.tbOf d).pend = []) →
      ∀ t2 corr, (s.tbOf b).pend = [⟨m.seq, m.port, m.domain, m.srcId, m.srcPort, t2, corr⟩] →
        (s.on (R.TIM_Pp_PDSTAT_VALID m.port) = true →
          Runs (.followUpReceive m) s fun t => Spec.OffsetUsed s t b (offsetOf s m.port t2 m.origin (corr + m.corr))) ∧
        (s.on (R.TIM_Pp_PDSTAT_VALID m.port) = false → Runs (.followUpReceive m) s fun t => t.regs = s.regs ∧ SameBytes s t ∧
          t.tbOf b = { s.tbOf b with pend := [] }))) ∧
  (∀ (b : Fin 4) (s : State), let x := s.tbOf b
    let st := s.rd (R.TIM_TBb_STAT_STATE b)
    let now := (s.tbOf 2).val
    let due := x.usedAt + max 1 (s.rd (R.TIM_TBb_TO_SYNCTO b)) * 100000000 * 2 ^ 32
    let beyond : Prop := st = 4 ∧ x.heldAt + max 1 (s.rd (R.TIM_TBb_TO_HOLDMAX b)) * 1000000000 * 2 ^ 32 ≤ now
    (x.path = 0 → Runs (.pathSlewEnd b) s fun t => t.on (R.TIM_TBb_STAT_PATHSLEW b) = false ∧ t.tim = s.tim ∧ SameBytes s t ∧
      RegsKept s t [(0x300008, 0x30000C), (0x300108 + 0x40 * b.val, 0x30010C + 0x40 * b.val)]) ∧
    (x.path ≠ 0 → exec (.pathSlewEnd b) s = .next s) ∧
    (st = 2 ∨ st = 3 → due ≤ now → Runs (.syncTimeout b) s fun t => t.rd (R.TIM_TBb_STAT_STATE b) = 4 ∧ (t.tbOf b).val = x.val ∧
      (t.tbOf b).heldAt = now ∧ (t.tbOf b).integ = x.integ ∧ (t.tbOf b).addend = (if x.hist = [] then x.addend else addendOf (meanF x.hist)) ∧
      SameBytes s t ∧ RegsKept s t (Spec.baseRegs b)) ∧
    ((st ≠ 2 ∧ st ≠ 3) ∨ now < due → exec (.syncTimeout b) s = .next s) ∧
    (beyond → Runs (.holdoverTimeout b) s fun t => t.rd (R.TIM_TBb_STAT_STATE b) = 1 ∧ t.tbOf b = x ∧ SameBytes s t ∧
      RegsKept s t (Spec.baseRegs b)) ∧
    (¬ beyond → exec (.holdoverTimeout b) s = .next s)) ∧
  (∀ (b : Fin 4) (v : BitVec 32) (w : MasterSel) (s : State), Runs (.masterSelect b w v) s fun t =>
    (w = .midLo → t.rd (R.TIM_TBb_MID_LO_MID b) = v.toNat) ∧ (w = .midHi → t.rd (R.TIM_TBb_MID_HI_MID b) = v.toNat) ∧
    (w = .mpn → t.rd (R.TIM_TBb_MPN_MPN b) = v.toNat % 65536) ∧
    (w = .port → t.rd (R.TIM_TBb_CFG_PORT b) =
      if v.toNat % 4 = 3 ∨ s.on R.TIM_CTL_LOCK = true then s.rd (R.TIM_TBb_CFG_PORT b) else v.toNat % 4) ∧
    (t.rd (R.TIM_TBb_STAT_STATE b) = if b.val ≠ 2 ∧ s.rd (R.TIM_TBb_CFG_MODE b) = 1 ∧ masterId t b = 0 ∧ s.rd (R.TIM_TBb_STAT_STATE b) ≠ 0
      then 1 else s.rd (R.TIM_TBb_STAT_STATE b)) ∧ t.tbOf b = s.tbOf b ∧ SameBytes s t ∧
    RegsKept s t ((0x300100 + 0x40 * b.val, 0x300104 + 0x40 * b.val) :: (0x300130 + 0x40 * b.val, 0x30013C + 0x40 * b.val) :: Spec.baseRegs b)) ∧
  (∀ (sel : Fin 2) (s : State), let r : Int := ((s.tbOf sel).val : Int) - actU s
    (sel.val = s.followed → exec (.timeDomainSwitch sel) s = .next (s.wr R.TIM_ACT_SEL sel)) ∧
    (sel.val ≠ s.followed → Runs (.timeDomainSwitch sel) s fun t => t.followed = sel.val ∧ t.rd R.TIM_ACT_SEL = sel.val ∧
      t.tim.tb = s.tim.tb ∧ t.on R.TIM_ACT_STAT_SW_STK = true ∧ (r.natAbs < 100 * 2 ^ 32 → actU t = (s.tbOf sel).val ∧ t.tim.resid = 0 ∧
        t.on R.TIM_ACT_STAT_SLEWING = false) ∧
      (100 * 2 ^ 32 ≤ r.natAbs → actU t = actU s ∧ t.tim.resid = r ∧ t.on R.TIM_ACT_STAT_SLEWING = true) ∧
      (∃ e l, t.yew.cross = s.yew.cross ++ e :: l ∧ e.src = 3 ∧ e.code = 4 ∧ e.payload.take 2 = [byteOf s.followed, byteOf sel]) ∧
      SameBytes s t ∧ RegsKept s t ([(0x300004, 0x30000C)] ++ (List.range 8).map fun k => (0x300818 + 0x20 * k, 0x30081C + 0x20 * k)))) ∧
  (∀ (b : Fin 4) (s : State), let free : Prop := b.val ≠ 2 ∧ s.rd (R.TIM_TBb_CFG_MODE b) = 0
    (free → Runs (.baseSet b) s fun t => SameBytes s t ∧ RegsKept s t (Spec.baseRegs b) ∧ t.on (R.TIM_TBb_STAT_STEP_STK b) = true ∧
      (t.tbOf b).val = s.rd64 (R.TIM_TBb_SETV_LO_SETV b) (R.TIM_TBb_SETV_HI_SETV b) * 2 ^ 32 ∧ t.tim.resid = s.tim.resid ∧
      t.rd (R.TIM_TBb_CNT_STEPS b) = min (s.rd (R.TIM_TBb_CNT_STEPS b) + 1) 255 ∧
      (b.val = s.followed → t.on R.TIM_ACT_STAT_STEP_STK = true)) ∧
    (¬ free → exec (.baseSet b) s = .next s) ∧
    (b.val ≠ 2 → exec (.baseReacquire b) s = .next (s.setTb b { s.tbOf b with reacq := true })) ∧
    (b.val = 2 → exec (.baseReacquire b) s = .next s)) ∧
  (∀ (rise : Bool) (s : State), let x := s.tbOf 3
    let sec := 1000000000 * 2 ^ 32
    let whole := fun u => (u + sec / 2) / sec * sec
    let taken : Prop := s.rd (R.TIM_TBb_CFG_MODE 3) = 2 ∧ s.pg 8 = true ∧ rise = !s.on (R.TIM_TBb_CFG_PPSPOL 3)
    let acq : Prop := x.reacq = true ∨ s.rd (R.TIM_TBb_STAT_STATE 3) = 1
    (taken → acq → Runs (.ppsEdge rise) s fun t => (t.tbOf 3).val = whole (actU s - 16 * 2 ^ 32) + 16 * 2 ^ 32 ∧
      t.rd (R.TIM_TBb_STAT_STATE 3) = 2 ∧ (t.tbOf 3).reacq = false ∧ (t.tbOf 3).path = 0 ∧ t.on (R.TIM_TBb_STAT_STEP_STK 3) = true ∧ SameBytes s t ∧
      RegsKept s t (Spec.baseRegs 3)) ∧
    (taken → ¬ acq → Runs (.ppsEdge rise) s fun t => Spec.OffsetUsed s t 3
      (rdiv (((x.val - 16 * 2 ^ 32 : Nat) : Int) - whole (x.val - 16 * 2 ^ 32)) (2 ^ 28))) ∧
    (¬ taken → exec (.ppsEdge rise) s = .next s))

/-! ### The switch (R305 to R322, R337, R338) -/

namespace Sys2Proof.Spec
open Sys2Proof Sys2Proof.Machine

/-- The registers of port `p` from `lo` up to `hi` within its block. -/
def portRegs (p lo hi : Nat) : Nat × Nat := (0x401000 + 0x100 * p + lo, 0x401000 + 0x100 * p + hi)

/-- The block that takes a frame of a kind and no copy of which goes elsewhere (R337). -/
def taker (k : FrameKind) : Option Dest :=
  match k with
  | .sv _ => some .svi
  | .goose _ => some .goose
  | .ptpSync _ => some .tim
  | .peerDelay false => some .tim
  | .beacon _ => some .twn
  | .twin _ => some .twn
  | _ => none

/-- The registers in which an answered TX descriptor shows an error of its DRAM words (R507, R521). -/
def eccRegs : List (Nat × Nat) := [(0xF00000, 0xF00004), (0xF00008, 0xF00014)]

/-- Every byte outside the status words of the TX descriptors `ks` reads as before. -/
def TxBytes (s t : State) (ks : List Nat) : Prop :=
  ∀ a, (∀ k ∈ ks, a < dramBase + descAddr s 1 k + 4 ∨ dramBase + descAddr s 1 k + 20 ≤ a) → memRd t.mem a = memRd s.mem a

/-- A queue of port `p` with room within its own reservation for any frame (R316). -/
def Roomy (s : State) (p q : Nat) : Prop := queueCells (queueOf s p q) ≤ 10

/-- Head `f` of queue `q` has started on port `p` at position `pos` of this NET cycle (R315, R318, R346). -/
def Started (s t : State) (p pos q : Nat) (f : EgFrame) (rest : List EgFrame) : Prop :=
  queueOf t p q = rest ∧ (∀ r, r ≠ q → queueOf t p r = queueOf s p r) ∧ t.rd (R.NET_Pp_TX_TX p) = (s.rd (R.NET_Pp_TX_TX p) + 1) % 2 ^ 32 ∧
    (∃ g, (portOf t p).last = some g ∧ g.kind = f.kind ∧ g.len = f.len ∧ g.bytes = f.bytes ∧ g.tag = f.tag ∧
      g.stomp = f.stomp ∧ (∀ seq d, f.kind = .pdReq seq d → (pdOf s p).open_ = true → (pdOf s p).seq = seq →
        (pdOf t p).t1 = some (egressStamp s 2 p pos)) ∧
      (∀ m a, f.kind = .pdResp m a → g.corr = egressStamp s 2 p pos - a)) ∧
    TxBytes s t (s.net.tx.map (·.k)) ∧
    ((∀ c a b n, f.kind = .goose c a b n → c < 128) → RegsKept s t (eccRegs ++ [portRegs p 0x24 0x28, (0x300030, 0x300034), (0x40800C, 0x408800), (0xF80128, 0xF8012C)]))

end Sys2Proof.Spec

/-- A port goes down, its queues flushed and counted, or up. Received frames: oversize, bad FCS, PAUSE and untagged ring frames are counted and dropped;
the first copy to the device is delivered, a repeat counted; a ring frame goes on out of the other port; a supervision frame reaches the host ring.
A frame with a bad FCS that goes out cut through ends with the inverse FCS. Table entries are forgotten. Once an interval
a supervision frame is queued on both ports. A port that is up starts the head of its highest queue that may start,
interrupts a preemptable one where it can be cut (the model's reading, assumption 134), or goes on with a held one. Gate lists advance, are exchanged and stop. Verification succeeds or fails at the third
timeout of 10 ms. A host descriptor is refused with its reason, or its frame queued. Other registers and bytes stay. -/
def Obligations.SwitchAndQueues : Prop :=
  (∀ (p : Fin 3) (s : State), let x := portOf s p
    let up : Prop := s.on (R.NET_Pp_STAT_LINK p) = true
    let mode : Prop := if p.val < 2 then s.rd (R.NET_Pp_CFG_SPEED p) < 2 else s.rd (R.NET_Pp_CFG_SPEED p) = 1 ∨ s.rd (R.NET_Pp_CFG_SPEED p) = 2
    (¬ up → exec (.linkDown p) s = .next s) ∧
    (up → s.rd (R.NET_Pp_DROP_Q p) < 2 ^ 32 → Runs (.linkDown p) s fun t => t.on (R.NET_Pp_STAT_LINK p) = false ∧
      t.on (R.NET_Pp_STAT_LINKCHG_STK p) = true ∧ t.rd (R.NET_Pp_STAT_VSTATE p) = 0 ∧ (∀ q < 8, queueOf t p q = []) ∧
      t.rd (R.NET_Pp_DROP_Q p) = (s.rd (R.NET_Pp_DROP_Q p) + ((List.range 8).map fun q => (queueOf s p q).length).sum) % 2 ^ 32 ∧
      t.itemLive 20 p = true ∧ t.on (R.TIM_Pp_PDSTAT_VALID p) = false ∧ pdOf t p = {} ∧ Spec.TxBytes s t (s.net.tx.map (·.k)) ∧
      RegsKept s t (Spec.eccRegs ++ [Spec.portRegs p 4 8, Spec.portRegs p 0x2C 0x30, (0x400008, 0x40000C), (0xF80128, 0xF8012C),
        (0x300410 + 0x20 * p.val, 0x300414 + 0x20 * p.val)])) ∧
    (¬ up → mode → s.pg 8 = true → s.pg 9 = true → Runs (.linkUp p) s fun t => t.on (R.NET_Pp_STAT_LINK p) = true ∧
      t.on (R.NET_Pp_STAT_LINKCHG_STK p) = true ∧ t.itemLive 20 p = s.prv.rxBad.contains p.val ∧ (portOf t p).verify = 0 ∧ (portOf t p).vAt = tb2U s ∧
      t.rd (R.NET_Pp_STAT_VSTATE p) = (if p.val < 2 ∧ s.on (R.NET_Pp_CFG_PREEMPT p) = true then 1 else 0) ∧ SameBytes s t ∧
      RegsKept s t [Spec.portRegs p 4 8, (0x400008, 0x40000C)]) ∧
    (up ∨ ¬ mode ∨ s.pg 8 = false ∨ s.pg 9 = false → exec (.linkUp p) s = .next s) ∧
    (∀ ok, s.rd (R.NET_Pp_STAT_VSTATE p) ≠ 1 → exec (.preemptVerify p ok) s = .next s) ∧
    (s.rd (R.NET_Pp_STAT_VSTATE p) = 1 → Runs (.preemptVerify p true) s fun t => SameBytes s t ∧ t.rd (R.NET_Pp_STAT_VSTATE p) = 2 ∧
      portOf t p = x ∧ RegsKept s t [Spec.portRegs p 4 8, (0x400008, 0x40000C)]) ∧
    (s.rd (R.NET_Pp_STAT_VSTATE p) = 1 → tb2U s < x.vAt + 10000000 * 2 ^ 32 → exec (.preemptVerify p false) s = .next s) ∧
    (s.rd (R.NET_Pp_STAT_VSTATE p) = 1 → x.vAt + 10000000 * 2 ^ 32 ≤ tb2U s → Runs (.preemptVerify p false) s fun t => SameBytes s t ∧
      t.rd (R.NET_Pp_STAT_VSTATE p) = (if 2 ≤ x.verify then 3 else 1) ∧
      portOf t p = (if 2 ≤ x.verify then { x with verify := 3 } else { x with verify := x.verify + 1, vAt := tb2U s }) ∧
      RegsKept s t [Spec.portRegs p 4 8, (0x400008, 0x40000C)])) ∧
  (∀ (p : Fin 3) (f : Frame) (s : State), let up : Prop := portUp s p = true ∧ s.pg 8 = true
    let good : Prop := up ∧ frameLen f ≤ 1522 ∧ f.fcsOk = true ∧ f.kind ≠ .pause
    let here := fun (d : Dest) => Spec.taker f.kind = some d ∧ s.on R.NET_CFG_HOSTMC = false
    let rx := Spec.portRegs p 0x20 0x24
    let got (t : State) : Prop := t.rd (R.NET_Pp_RX_RX p) = (s.rd (R.NET_Pp_RX_RX p) + 1) % 2 ^ 32
    (¬ up → exec (.frameReceive p f) s = .next s) ∧
    (up → 1522 < frameLen f → Runs (.frameReceive p f) s fun t => t.rd (R.NET_Pp_ERR_OVERSIZE p) = min (s.rd (R.NET_Pp_ERR_OVERSIZE p) + 1) 255 ∧
      t.net = s.net ∧ SameBytes s t ∧ RegsKept s t [Spec.portRegs p 0x28 0x2C]) ∧
    (up → frameLen f ≤ 1522 → (f.fcsOk = false ∧ ∀ q, f.tag ≠ .hsr q) ∨ (f.fcsOk = true ∧ f.kind = .pause) → Runs (.frameReceive p f) s fun t =>
      t.rd (R.NET_Pp_ERR_FCS p) = min (s.rd (R.NET_Pp_ERR_FCS p) + 1) 65535 ∧ t.net = s.net ∧ SameBytes s t ∧
      RegsKept s t [Spec.portRegs p 0x28 0x2C]) ∧
    (∀ q, up → frameLen f ≤ 1522 → f.fcsOk = false → f.tag = .hsr q → p.val < 2 → prp s = false → goesOn s p f = true → dupFind s f.src q = none →
      s.net.dup.length < 8192 →
      let o := 1 - p.val
      let k := queueFor s o (f.pcp.map (·.val))
      (cutThrough s o k (frameLen f) = true → Runs (.frameReceive p f) s fun t => t.net.deliv = s.net.deliv ∧
        t.rd (R.NET_Pp_ERR_STOMP p) = min (s.rd (R.NET_Pp_ERR_STOMP p) + 1) 255 ∧ Spec.TxBytes s t (s.net.tx.map (·.k)) ∧
        (∃ g, (portOf t o).last = some g ∧ g.bytes = f.bytes ∧ g.len = frameLen f ∧ g.stomp = true) ∧
        RegsKept s t (Spec.eccRegs ++ [Spec.portRegs p 0x28 0x2C, Spec.portRegs o 0x24 0x28, (0x300030, 0x300034), (0xF80128, 0xF8012C)])) ∧
      (cutThrough s o k (frameLen f) = false → exec (.frameReceive p f) s = .next (s.sat1 (R.NET_Pp_ERR_FCS p)))) ∧
    (good → p.val < 2 → prp s = false → (∀ q, f.tag ≠ .hsr q) → Runs (.frameReceive p f) s fun t => got t ∧ t.net = s.net ∧ SameBytes s t ∧
      t.rd R.NET_RED_CNT1_UNTAG = min (s.rd R.NET_RED_CNT1_UNTAG + 1) 65535 ∧ RegsKept s t [rx, (0x400024, 0x400028)]) ∧
    (∀ d, good → p.val = 2 → toDevice s 2 f.dst = true → here d → Runs (.frameReceive p f) s fun t => got t ∧
      t.net.deliv = s.net.deliv ++ [(d, 2, f)] ∧ SameBytes s t ∧ RegsKept s t [rx]) ∧
    (good → p.val = 2 → toDevice s 2 f.dst = false → exec (.frameReceive p f) s = .next (s.inc (R.NET_Pp_RX_RX 2))) ∧
    (∀ d q, good → p.val < 2 → prp s = true → f.tag = .rct (p.val == 1) q → toDevice s p f.dst = true → here d → s.net.dup.length < 8192 →
      dupFind s f.src q = none → Runs (.frameReceive p f) s fun t => got t ∧ t.net.deliv = s.net.deliv ++ [(d, p.val, f)] ∧
        dupFind t f.src q = some ⟨f.src, q, (s.tbOf 2).val, true, []⟩ ∧ SameBytes s t ∧ RegsKept s t [rx]) ∧
    (∀ e b q, good → p.val < 2 → prp s = true → f.tag = .rct b q → toDevice s p f.dst = true → dupFind s f.src q = some e →
      Runs (.frameReceive p f) s fun t => got t ∧ t.net = s.net ∧ SameBytes s t ∧ RegsKept s t [rx, (0x400020, 0x400024)] ∧
        t.rd R.NET_RED_CNT0_DUP = min (s.rd R.NET_RED_CNT0_DUP + 1) 65535 ∧
        (b ≠ (p.val == 1) → t.rd R.NET_RED_CNT0_WRONGLAN = min (s.rd R.NET_RED_CNT0_WRONGLAN + 1) 65535)) ∧
    (∀ d q, good → p.val < 2 → prp s = false → f.tag = .hsr q → toDevice s p f.dst = true → f.src ≠ netMac s → goesOn s p f = false →
      here d → s.net.dup.length < 8192 → dupFind s f.src q = none → Runs (.frameReceive p f) s fun t => got t ∧
        t.net.deliv = s.net.deliv ++ [(d, p.val, f)] ∧ dupFind t f.src q = some ⟨f.src, q, (s.tbOf 2).val, true, []⟩ ∧ SameBytes s t ∧
        RegsKept s t [rx]) ∧
    (∀ e q, good → p.val < 2 → prp s = false → f.tag = .hsr q → isPtp f.kind = false → goesOn s p f = false → dupFind s f.src q = some e →
      e.loc = true → toDevice s p f.dst = true → f.src ≠ netMac s → Runs (.frameReceive p f) s fun t => got t ∧ t.net.deliv = s.net.deliv ∧
        t.rd R.NET_RED_CNT0_DUP = min (s.rd R.NET_RED_CNT0_DUP + 1) 65535 ∧ SameBytes s t ∧ RegsKept s t [rx, (0x400020, 0x400024)]) ∧
    (∀ q, good → p.val < 2 → prp s = false → f.tag = .hsr q → toDevice s p f.dst = false → goesOn s p f = true → s.net.dup.length < 8192 →
      dupFind s f.src q = none →
      let o := 1 - p.val
      let k := queueFor s o (f.pcp.map (·.val))
      Runs (.frameReceive p f) s fun t => got t ∧ t.net.deliv = s.net.deliv ∧
        dupFind t f.src q = some ⟨f.src, q, (s.tbOf 2).val, false, [o]⟩ ∧ Spec.TxBytes s t (s.net.tx.map (·.k)) ∧
        RegsKept s t (Spec.eccRegs ++ [rx, Spec.portRegs o 0x24 0x30, (0x300030, 0x300034), (0xF80128, 0xF8012C)]) ∧
        (cutThrough s o k (frameLen f) = false → Spec.Roomy s o k → queueOf t o k = queueOf s o k ++ [fwdFrame s p f]) ∧
        (cutThrough s o k (frameLen f) = true → (portOf t o).fin = (s.tbOf 2).val + wireTime s o (frameLen f + 20) ∧ (portOf t o).q = k ∧
          ∃ g, (portOf t o).last = some g ∧ g.bytes = f.bytes ∧ g.tag = f.tag ∧ g.len = frameLen f)) ∧
    (good → p.val = 2 → f.kind = .supervision → toDevice s 2 f.dst = true → ringLog s 0 ≠ 0 → s.on R.MEM_STAT_TRAINED = true →
      (ringProd s 0 + 2 ^ 32 - consAtStart s 0) % 2 ^ 32 < ringE s 0 → s.hst.badWords = [] → s.hst.softWords = [] → f.bytes.length ≤ 1518 → Runs (.frameReceive p f) s fun t => got t ∧ t.net.deliv = s.net.deliv ∧
        ringProd t 0 = (ringProd s 0 + 1) % 2 ^ 32 ∧ t.rdMem (dramBase + bufAddr s 0 (ringProd s 0)) f.bytes.length = f.bytes ∧
        (∀ a, (a < dramBase + descAddr s 0 (ringProd s 0) ∨ dramBase + descAddr s 0 (ringProd s 0) + 32 ≤ a) →
          (a < dramBase + bufAddr s 0 (ringProd s 0) ∨ dramBase + bufAddr s 0 (ringProd s 0) + f.bytes.length ≤ a) →
          memRd t.mem a = memRd s.mem a) ∧ RegsKept s t [rx, (0xF80104, 0xF80108)])) ∧
  (∀ (src : Nat) (seq : Fin 65536) (e : DupEnt) (s : State), let beyond := e.born + 400000000 * 2 ^ 32
    (dupFind s src seq = none → exec (.dupEntryExpire src seq) s = .next s) ∧
    (dupFind s src seq = some e → (s.tbOf 2).val < beyond → exec (.dupEntryExpire src seq) s = .next s) ∧
    (dupFind s src seq = some e → beyond ≤ (s.tbOf 2).val → Runs (.dupEntryExpire src seq) s fun t => dupFind t src seq = none ∧
      (∀ a b, (a, b) ≠ (src, seq.val) → dupFind t a b = dupFind s a b) ∧ t.regs = s.regs ∧ SameBytes s t)) ∧
  (∀ s : State, let due : Prop := s.pg 8 = true ∧ ∀ a, s.net.supAt = some a →
                   a + clamp 100 10000 (s.rd R.NET_SUP_CFG_INTV) * 1000000 ≤ s.tb2Ns
    (¬ due → exec .supervisionSend s = .next s) ∧
    (due → Runs .supervisionSend s fun t => t.net.seq = (s.net.seq + 1) % 65536 ∧ t.net.supSeq = (s.net.supSeq + 1) % 65536 ∧
      t.net.supAt = some s.tb2Ns ∧ SameBytes s t ∧
      RegsKept s t [Spec.portRegs 0 0x2C 0x30, Spec.portRegs 1 0x2C 0x30] ∧ ∀ p < 2, portUp s p = true → Spec.Roomy s p (queueFor s p none) →
        queueOf t p (queueFor s p none) = queueOf s p (queueFor s p none) ++
          [{ kind := .supervision, len := 70, tag := localTag s p s.net.seq, bytes := supBytes s }])) ∧
  (∀ (p : Fin 3) (pos : Fin 8) (s : State), let x := portOf s p
    let now := tb2U s
    let up : Prop := portUp s p = true ∧ s.pg 8 = true
    (¬ up → exec (.egressTransmit (p, pos)) s = .next s) ∧
    (∀ q f rest, up → x.fin ≤ now → x.held = none → q < 8 → mayStart s p q = true → (∀ r, q < r → r < 8 → mayStart s p r = false) →
      queueOf s p q = f :: rest → Runs (.egressTransmit (p, pos)) s fun t => Spec.Started s t p pos q f rest ∧ (portOf t p).q = q ∧
        (portOf t p).fin = now + wireTime s p (f.len + 20) ∧ (portOf t p).pre = preemptable s p q) ∧
    (up → x.fin ≤ now → x.held = none → (∀ q < 8, mayStart s p q = false) → exec (.egressTransmit (p, pos)) s = .next s) ∧
    (∀ f rest, up → now < x.fin → x.pre = true → preemptActive s p = true → cutAt s p = some now → startsAfter s p 7 16 = true →
      queueOf s p 7 = f :: rest → Runs (.egressTransmit (p, pos)) s fun t => Spec.Started s t p pos 7 f rest ∧
        (portOf t p).fin = now + wireTime s p (f.len + 36) ∧ (portOf t p).pre = false ∧ (portOf t p).q = x.q ∧
        (portOf t p).held = some (x.fin - now + wireTime s p 8)) ∧
    (up → now < x.fin → x.pre = false ∨ preemptActive s p = false ∨ cutAt s p ≠ some now ∨ startsAfter s p 7 16 = false →
      exec (.egressTransmit (p, pos)) s = .next s) ∧
    (∀ d f rest, up → x.fin ≤ now → x.held = some d → mayStart s p 7 = true → queueOf s p 7 = f :: rest → Runs (.egressTransmit (p, pos)) s fun t =>
      Spec.Started s t p pos 7 f rest ∧ (portOf t p).q = x.q ∧ (portOf t p).held = some d ∧
        (portOf t p).fin = now + wireTime s p (f.len + 20)) ∧
    (∀ d, up → x.fin ≤ now → x.held = some d → mayStart s p 7 = false → netGateOpen s p x.q = true → Runs (.egressTransmit (p, pos)) s fun t =>
      portOf t p = { x with held := none, fin := now + d, frag := now, pre := true } ∧ t.regs = s.regs ∧ SameBytes s t) ∧
    (∀ d, up → x.fin ≤ now → x.held = some d → mayStart s p 7 = false → netGateOpen s p x.q = false → exec (.egressTransmit (p, pos)) s = .next s)) ∧
  (∀ (p : Fin 3) (s : State), let x := portOf s p
    let run := s.on (R.NET_Pp_STAT_GRUN p)
    let cyc := clamp 1000 1000000000 (s.rd (R.NET_Pp_GCYC_CYC p))
    (run = true → x.till ≤ s.activeNs → Runs (.gateEntryAdvance p) s fun t => t.regs = s.regs ∧ SameBytes s t ∧ (portOf t p).queues = x.queues ∧
      (x.entry = none ∨ x.till = x.cycEnd → (portOf t p).entry = some 0 ∧ (portOf t p).cycEnd = x.till + cyc ∧
        (portOf t p).till = if x.actLen = 0 then x.till + cyc else min (x.till + cyc) (x.till + entryNs x 0)) ∧
      (∀ e, x.entry = some e → x.till ≠ x.cycEnd → (portOf t p).entry = some (e + 1) ∧ (portOf t p).cycEnd = x.cycEnd ∧
        (portOf t p).till = if x.actLen ≤ e + 1 then x.cycEnd else min x.cycEnd (x.till + entryNs x (e + 1)))) ∧
    (run = false ∨ s.activeNs < x.till → exec (.gateEntryAdvance p) s = .next s) ∧
    (x.swap = true → cycleStart s p x.change ≤ s.activeNs → s.rd (R.NET_Pp_STAT_GBANK p) < 2 → x.act = [] ∨ x.act.length = 64 →
      Runs (.gateListSwap p) s fun t => (portOf t p).act = bankWords s p ∧ (portOf t p).actLen = s.rd (R.NET_Pp_GCTL_LEN p) ∧
        (portOf t p).swap = false ∧ (portOf t p).entry = some 0 ∧ t.on (R.NET_Pp_STAT_GRUN p) = true ∧
        t.rd (R.NET_Pp_STAT_GBANK p) = 1 - s.rd (R.NET_Pp_STAT_GBANK p) ∧ t.rd (R.NET_Pp_GCTL_LEN p) = x.actLen % 64 ∧
        (x.act.length = 64 → ∀ e < 64, x.act.getD e 0 < 2 ^ 32 → (bankWords t p).getD e 0 = x.act.getD e 0) ∧ SameBytes s t ∧
        RegsKept s t [Spec.portRegs p 4 8, Spec.portRegs p 0xC 0x10, (0x402000 + 0x100 * p.val, 0x402100 + 0x100 * p.val)]) ∧
    (x.swap = false ∨ s.activeNs < cycleStart s p x.change → exec (.gateListSwap p) s = .next s) ∧
    (x.stop = true → run = false ∨ x.entry = none ∨ x.cycEnd ≤ s.activeNs → Runs (.gateListStop p) s fun t =>
      t.on (R.NET_Pp_STAT_GRUN p) = false ∧ (portOf t p).stop = false ∧ (∀ q, netGateOpen t p q = true) ∧ SameBytes s t ∧
      RegsKept s t [Spec.portRegs p 4 8]) ∧
    (x.stop = false ∨ (run = true ∧ x.entry ≠ none ∧ s.activeNs < x.cycEnd) → exec (.gateListStop p) s = .next s)) ∧
  (∀ s : State, let there : Prop := ringLog s 1 ≠ 0 ∧ s.net.tx.length < ringCount s 1 ∧ s.on R.MEM_STAT_TRAINED = true ∧ s.pg 8 = true
    let k := ringCons s 1
    let w := (s.rdW (dramBase + descAddr s 1 k)).toNat
    let ports := w / 2 ^ 30
    let q := w / 2 ^ 27 % 8
    let len := w % 2048
    let l := (if ports.testBit 0 then [0, 1] else []) ++ (if ports.testBit 1 then [2] else [])
    (¬ there → exec .hostTxDescriptor s = .next s) ∧
    let clean : Prop := s.hst.badWords = [] ∧ s.hst.softWords = []
    (∀ r, there → clean → s.net.tx = [] → txRefusal ports q len = some r → Runs .hostTxDescriptor s fun t => t.net.tx = [] ∧ t.net.ports = s.net.ports ∧
      leNat (t.rdMem (dramBase + descAddr s 1 k + 4) 4) = 2 ^ 31 + r * 2 ^ 28 ∧ ringCons t 1 = (k + 1) % 2 ^ 32 ∧
      Spec.TxBytes s t [k] ∧ RegsKept s t [(0xF80128, 0xF8012C)]) ∧
    (there → clean → s.net.tx = [] → txRefusal ports q len = none → (∃ p ∈ l, portUp s p = true) →
      (∀ p ∈ l, portUp s p = true → Spec.Roomy s p q) → Runs .hostTxDescriptor s fun t =>
        t.net.tx = [{ k := k, wait := (l.filter fun p => portUp s p).length, stamp := w.testBit 26 }] ∧ t.regs = s.regs ∧ SameBytes s t ∧
        ∀ p ∈ l, portUp s p = true → queueOf t p q = queueOf s p q ++
          [⟨.host k, wireLen len + (if p < 2 then 6 else 0), localTag s p s.net.seq, s.rdMem (dramBase + bufAddr s 1 k) len, 0, none, false⟩]))

/-! ### GOOSE and beacons (R323 to R336) -/

namespace Sys2Proof.Spec
open Sys2Proof Sys2Proof.Machine

/-- Is control block `c` sent on port `p` (R323)? -/
def sentOn (s : State) (c p : Nat) : Prop :=
  portUp s p = true ∧ if c = 0 then p < 2 else (s.rd (R.NET_GCBc_CFG_PORTS c)).testBit (p / 2) = true

/-- The frame of the state that control block `c` now has is the last one in its queue on each port that is up and has room for it; for
GCB0 earlier ones have left queue 7 (R323, R326). -/
def GooseQueued (s t : State) (c : Nat) (g : Gcb) : Prop :=
  let x := pubOf t c
  ∀ p < 3, sentOn s c p → s.on (R.NET_GCBc_CFG_AUTH c) = false →
    let q := if c = 0 then 7 else queueFor s p (some (g.pcp % 8))
    let old := if c = 0 then (queueOf s p 7).filter fun f => !isGcb0 f else queueOf s p q
    let b := gooseBytes g x (if p < 2 then netMac s else netMac s + 1) (gcbPcp s c g) []
    let len := wireLen b.length + (if p < 2 then 6 else 0)
    queueCells old + cellsOf len ≤ (if c = 0 then 64 else 16) →
      queueOf t p q = old ++ [⟨.goose c x.st x.sq x.no, len, localTag s p s.net.seq, b, 0, none, false⟩]

/-- Registers that a control block's send touches. -/
def gcbRegs (c : Nat) : List (Nat × Nat) :=
  [(0x408008 + 0x10 * c, 0x408010 + 0x10 * c), portRegs 0 0x2C 0x30, portRegs 1 0x2C 0x30, portRegs 2 0x2C 0x30, (0xD00004, 0xD00008)]

/-- A changed control block takes a new state (R327 to R329): its members as they now are, the next stNum, sqNum 0, the ladder at T1, the time
now, or that of the last word read if class-0 words alone have changed it. -/
def NewState (s t : State) (c : Nat) (g : Gcb) : Prop :=
  let x := pubOf s c
  let y := pubOf t c
  y.data = some (membersData t c 0 g.members) ∧ y.sq = 0 ∧ y.no = x.no + 1 ∧
    y.st = (if x.data = none ∨ x.st = 0xFFFFFFFF then 1 else x.st + 1) ∧
    t.rd (R.NET_GCBc_ST_ST c) = y.st % 2 ^ 32 ∧ y.step = clamp 1 4000 (s.rd (R.NET_GCBc_TIM_T1 c)) * 250000 ∧ y.due = s.tb2Ns + y.step ∧
    y.t = if c = 0 ∧ ∀ o ∈ changedOwners s c 0 (x.data.getD []) g.members, o ∈ s.net.c0own then s.net.c0t.getD (utcNow s) else utcNow s

/-- The key whose tag a beacon or twin frame bears: the current one of slot KSLOT, where TAUTH asks for it (R335, R449). -/
def tagKey (s : State) : Option AuthKey :=
  if s.on R.NET_BCN_CFG_TAUTH then (keySlot s (s.rd R.NET_BCN_CFG_KSLOT)).cur else none

/-- The word at 0x34 of a beacon or twin payload: the tag's presence and its key slot (R335). -/
def tagField (s : State) : Nat := (if (tagKey s).isSome then 0x8000 else 0) + s.rd R.NET_BCN_CFG_KSLOT

/-- A payload with its tag, 16 octets of the HMAC-SHA256 of all before it (R335). -/
def tagged (s : State) (p : List Byte) : List Byte :=
  match tagKey s with | some k => p ++ (hmac256 k.bytes p).take 16 | none => p

/-- A frame passes every check of R331 of subscription `n` but that of simulation. -/
def Passes (s : State) (f : GFrame) (n : Nat) (g : Gsub) : Prop :=
  (s.on (R.NET_GSUBs_STAT_AUTH n) = false ∨ authOk s (s.rd (R.NET_GSUBs_STAT_KSLOT n)) f.ext (arrivalNs s f.port f.pos) = true) ∧ gsubMatch f (n, g) = true ∧
    f.confRev = g.confRev ∧ g.types = f.members.map (·.1)

end Sys2Proof.Spec

/-- The engine reads a class-0 word a NET cycle; at a moment left free, and 1.5 µs after the first word that no build holds at the latest (the model's
reading of the moment, assumption 78), a changed GCB0 gets its next state and its frame is queued. The other blocks are built in the order of change while that FIFO is
empty. A retransmission that is due sends the same state with the next sqNum and doubles the interval up to T0. A malformed GOOSE frame counts in
each subscription of its address and APPID; one that fails authentication, is of other names, of foreign simulation or of other members counts or
is passed over, a wrong confRev makes the subscription INVALID and sets CONFREV_STK each time, a first state or another one is taken with its values by every subscription it
passes, an expected repeat refreshes, an old one counts, a jump counts. Silence beyond the time allowed leads to EXPIRED. A beacon is queued, with its tag, on each
port once a second; a received one not authentic, or of another version, is counted and one accepted is checked for node clashes, segments and publishers. Other registers and all
bytes stay. -/
def Obligations.GooseAndBeacons : Prop :=
  (∀ s : State, (s.net.c0 = [] → readC0 s = s) ∧ ∀ e l, s.net.c0 = e :: l → (readC0 s).net.c0 = l ∧
    (readC0 s).net.c0val = mput s.net.c0val (3 * e.1 + e.2.1 / 4) (c0Part e.2.1 e.2.2) ∧
    (readC0 s).net.c0at = some (s.net.c0at.getD (tb2U s)) ∧ (readC0 s).regs = s.regs ∧ SameBytes s (readC0 s) ∧ (readC0 s).net.ports = s.net.ports) ∧
  (∀ s : State, let r := readC0 (s.fresh 1).2
    let forced : Prop := ∃ a, r.net.c0at = some a ∧ a + 1500 * 2 ^ 32 ≤ tb2U s;
    (s.pg 8 = false → exec .gooseC0WordRead s = .next s) ∧
    (s.pg 8 = true → forced → exec .gooseC0WordRead s = .next (buildC0 r)) ∧
    (s.pg 8 = true → ¬ forced → exec .gooseC0WordRead s = .next (if (s.fresh 1).1 = 1 then buildC0 r else r))) ∧
  (∀ s : State, ((∀ g, gcbOf s 0 = some g → gooseChanged s 0 g = false) →
      buildC0 s = { s with net := { s.net with c0at := none, c0t := none, c0own := [] } }) ∧
    ∀ g, gcbOf s 0 = some g → gooseChanged s 0 g = true → let t := buildC0 s
      t.net.c0 = s.net.c0 ∧ t.net.c0val = s.net.c0val ∧ t.net.c0at = none ∧ Spec.NewState s t 0 g ∧ Spec.GooseQueued s t 0 g ∧ SameBytes s t ∧
      RegsKept s t (Spec.gcbRegs 0)) ∧
  (∀ (c : Fin 128) (s : State), let may : Prop := s.pg 8 = true ∧ c.val ≠ 0 ∧ s.net.c0 = [] ∧ s.net.dirty.head? = some c.val
    (¬ may → exec (.gooseBuild c) s = .next s) ∧
    (may → (∀ g, gcbOf s c = some g → gooseChanged s c g = false) →
      exec (.gooseBuild c) s = .next { s with net := { s.net with dirty := s.net.dirty.filter (· ≠ c.val) } }) ∧
    (∀ g, may → gcbOf s c = some g → gooseChanged s c g = true → Runs (.gooseBuild c) s fun t => Spec.NewState s t c g ∧
      Spec.GooseQueued s t c g ∧ c.val ∉ t.net.dirty ∧ SameBytes s t ∧ RegsKept s t (Spec.gcbRegs c))) ∧
  (∀ (c : Fin 128) (s : State), let x := pubOf s c
    (∀ g, gcbOf s c = some g → s.pg 8 = true → x.due ≤ s.tb2Ns → gooseChanged s c g = false → Runs (.gooseRetransmit c) s fun t =>
      let step := min (2 * x.step) (clamp 1000 60000 (s.rd (R.NET_GCBc_TIM_T0 c)) * 1000000)
      let sq := if x.sq = 0xFFFFFFFF then 1 else x.sq + 1
      pubOf t c = { x with sq := sq, step := step, due := x.due + step, no := x.no + 1 } ∧ Spec.GooseQueued s t c g ∧ SameBytes s t ∧
      RegsKept s t (Spec.gcbRegs c)) ∧
    (gcbOf s c = none ∨ s.pg 8 = false ∨ s.tb2Ns < x.due → exec (.gooseRetransmit c) s = .next s) ∧
    (∀ g, gcbOf s c = some g → gooseChanged s c g = true → exec (.gooseRetransmit c) s = .next s)) ∧
  (∀ (f : GFrame) (s : State), s.pg 8 = false → exec (.gooseFrameReceive f) s = .next s) ∧
  (∀ (f : GFrame) (n : Nat) (s : State), s.pg 8 = true → f.wellFormed = false → Runs (.gooseFrameReceive f) s fun t =>
    t.rd (R.NET_GSUBs_ERR_FORMAT n) = min (s.rd (R.NET_GSUBs_ERR_FORMAT n) + ((gsubCand s f).filter fun e => e.1 == n).length) 65535 ∧
      t.sch = s.sch ∧ t.svi = s.svi ∧ SameBytes s t ∧ RegsKept s t ((gsubCand s f).map fun e => (0x41000C + 0x10 * e.1, 0x410010 + 0x10 * e.1))) ∧
  (∀ (f : GFrame) (n : Nat) (g : Gsub) (s : State), s.pg 8 = true → f.wellFormed = true → (gsubCand s f).filter (fun e => e.1 == n) = [(n, g)] →
    Spec.Passes s f n g → f.sim = false ∨ s.on (R.NET_GSUBs_STAT_SIMOK n) = true → (gsubOf s n).held = false ∨ s.rd (R.NET_GSUBs_ST_ST n) ≠ f.stNum.val →
    Runs (.gooseFrameReceive f) s fun t => t.rd (R.NET_GSUBs_STAT_STATE n) = 2 ∧ t.rd (R.NET_GSUBs_ST_ST n) = f.stNum.val ∧
      (gsubOf t n).sq = f.sqNum.val ∧ (gsubOf t n).arr = s.tb2Ns ∧ (gsubOf t n).tal = f.tal ∧ SameBytes s t) ∧
  (∀ (f : GFrame) (n : Nat) (g : Gsub) (s : State), let x := gsubOf s n
    let st := s.rd (R.NET_GSUBs_STAT_STATE n)
    let held := s.rd (R.NET_GSUBs_ST_ST n)
    let ahead := (f.sqNum.val + 2 ^ 32 - x.sq) % 2 ^ 32
    let kept (t : State) : Prop := SameBytes s t ∧ RegsKept s t [(0x410000 + 0x10 * n, 0x410010 + 0x10 * n), (0x50000C, 0x500010)]
    let auth : Prop := s.on (R.NET_GSUBs_STAT_AUTH n) = false ∨ authOk s (s.rd (R.NET_GSUBs_STAT_KSLOT n)) f.ext (arrivalNs s f.port f.pos) = true
    let good : Prop := Spec.Passes s f n g ∧ (f.sim = false ∨ s.on (R.NET_GSUBs_STAT_SIMOK n) = true)
    let mis (t : State) : Prop := kept t ∧ t.rd (R.NET_GSUBs_ERR_FORMAT n) = min (s.rd (R.NET_GSUBs_ERR_FORMAT n) + 1) 65535 ∧ t.sch = s.sch ∧ gsubOf t n = x
    let vals (t : State) : Prop := f.members.length ≤ 256 → ∀ m e, f.members[m]? = some e →
      liveVal t (ptGoose n m) = e.2.extractLsb' 0 32 ∧ liveVal t (ptGooseHi n m) = e.2.extractLsb' 32 32
    let fresh (t : State) : Prop := t.rd (R.NET_GSUBs_STAT_STATE n) = 2 ∧ (gsubOf t n).sq = f.sqNum.val ∧ (gsubOf t n).arr = s.tb2Ns ∧
      (gsubOf t n).tal = f.tal ∧ (gsubOf t n).held = true ∧ (f.sim = true → t.on (R.NET_GSUBs_STAT_SIM_SEEN n) = true)
    n < 1024 → s.pg 8 = true → f.wellFormed = true → gsubCand s f = [(n, g)] →
    (¬ auth → Runs (.gooseFrameReceive f) s fun t => kept t ∧ t.sch = s.sch ∧ gsubOf t n = x ∧
      t.rd (R.NET_GSUBs_ERR_AUTHFAIL n) = min (s.rd (R.NET_GSUBs_ERR_AUTHFAIL n) + 1) 65535) ∧
    (auth → gsubMatch f (n, g) = false → Runs (.gooseFrameReceive f) s fun t => RegsKept s t [(0x50000C, 0x500010)] ∧ SameBytes s t ∧ t.sch = s.sch ∧
      gsubOf t n = x) ∧
    (auth → gsubMatch f (n, g) = true → f.confRev ≠ g.confRev → st ≠ 4 → Runs (.gooseFrameReceive f) s fun t => kept t ∧
      t.rd (R.NET_GSUBs_STAT_STATE n) = 4 ∧ t.on (R.NET_GSUBs_STAT_CONFREV_STK n) = true ∧ gsubOf t n = x) ∧
    (auth → gsubMatch f (n, g) = true → f.confRev ≠ g.confRev → st = 4 → Runs (.gooseFrameReceive f) s fun t => kept t ∧ t.sch = s.sch ∧
      t.rd (R.NET_GSUBs_STAT_STATE n) = 4 ∧ t.on (R.NET_GSUBs_STAT_CONFREV_STK n) = true ∧ gsubOf t n = x) ∧
    (auth → gsubMatch f (n, g) = true → f.confRev = g.confRev → f.sim = true → s.on (R.NET_GSUBs_STAT_SIMOK n) = false →
      Runs (.gooseFrameReceive f) s mis) ∧
    (auth → gsubMatch f (n, g) = true → f.confRev = g.confRev → f.sim = false ∨ s.on (R.NET_GSUBs_STAT_SIMOK n) = true →
      g.types ≠ f.members.map (·.1) → Runs (.gooseFrameReceive f) s mis) ∧
    (good → x.held = false → Runs (.gooseFrameReceive f) s fun t => kept t ∧ fresh t ∧ vals t ∧ t.rd (R.NET_GSUBs_ST_ST n) = f.stNum.val ∧
      t.rd (R.NET_GSUBs_CNT_OOS n) = s.rd (R.NET_GSUBs_CNT_OOS n)) ∧
    (good → x.held = true → held ≠ f.stNum.val → Runs (.gooseFrameReceive f) s fun t => kept t ∧ fresh t ∧ vals t ∧
      t.rd (R.NET_GSUBs_ST_ST n) = f.stNum.val ∧ t.rd (R.NET_GSUBs_CNT_OOS n) =
        if f.stNum.val = (if held = 0xFFFFFFFF then 1 else held + 1) then s.rd (R.NET_GSUBs_CNT_OOS n) else min (s.rd (R.NET_GSUBs_CNT_OOS n) + 1) 65535) ∧
    (good → x.held = true → held = f.stNum.val → 0 < ahead ∧ ahead < 2 ^ 31 → Runs (.gooseFrameReceive f) s fun t => kept t ∧ fresh t ∧
      (∀ m, liveVal t (ptGoose n m) = liveVal s (ptGoose n m)) ∧ t.rd (R.NET_GSUBs_ST_ST n) = held) ∧
    (good → x.held = true → held = f.stNum.val → ahead = 0 ∨ 2 ^ 31 ≤ ahead → Runs (.gooseFrameReceive f) s fun t => kept t ∧
      gsubOf t n = x ∧ t.sch = s.sch ∧ t.rd (R.NET_GSUBs_CNT_DUP n) = min (s.rd (R.NET_GSUBs_CNT_DUP n) + 1) 65535)) ∧
  (∀ (n : Fin 1024) (s : State), let x := gsubOf s n
    let limit := x.arr + (x.tal + s.rd (R.NET_GSUBs_STAT_TALMARGIN n)) * 1000000
    let beyond : Prop := s.rd (R.NET_GSUBs_STAT_STATE n) = 2 ∧ limit < s.tb2Ns
    (beyond → Runs (.gooseExpired n) s fun t => t.rd (R.NET_GSUBs_STAT_STATE n) = 3 ∧ t.on (R.NET_GSUBs_STAT_EXP_STK n) = true ∧
      (∀ m, liveVal t (ptGoose n m) = liveVal s (ptGoose n m)) ∧ SameBytes s t ∧
      RegsKept s t [(0x410000 + 0x10 * n.val, 0x410004 + 0x10 * n.val)]) ∧
    (¬ beyond → exec (.gooseExpired n) s = .next s)) ∧
  (∀ s : State, let due : Prop := s.pg 8 = true ∧ ∀ a, s.net.bcnAt = some a → a + 1000000000 ≤ s.tb2Ns;
    (¬ due → exec .beaconSend s = .next s) ∧
    (due → Runs .beaconSend s fun t => t.net.bcnSeq = (s.net.bcnSeq + 1) % 2 ^ 32 ∧ t.net.bcnAt = some s.tb2Ns ∧
      SameBytes s t ∧ RegsKept s t [Spec.portRegs 0 0x2C 0x30, Spec.portRegs 1 0x2C 0x30, Spec.portRegs 2 0x2C 0x30, (0xD00004, 0xD00008)] ∧
      ∀ p < 3, portUp s p = true →
        let q := queueFor s p (some (s.rd R.NET_BCN_CFG_PCP))
        let l := s.img.gcbs.take 128
        let b := b5Frame s 0x034F58000001 (if p < 2 then netMac s else netMac s + 1) (Spec.tagged s (b5Head s 1 s.net.bcnSeq ++ beBytes 2 l.length
          ++ beBytes 2 (Spec.tagField s) ++ l.flatMap fun e => beBytes 2 e.2.appid ++ beBytes 6 (pubMac s e.1)))
        Spec.Roomy s p q → queueOf t p q = queueOf s p q ++
          [⟨.beacon, wireLen b.length + (if p < 2 then 6 else 0), localTag s p s.net.seq, b, 0, none, false⟩])) ∧
  (∀ (f : Beacon) (s : State), let n := f.head.node.val
    let ok : Prop := s.pg 8 = true ∧ f.head.version = 1
    let far : Prop := f.head.port.val ≠ 2 ∧ n / 64 ≠ ownNode s / 64
    let r := s.takeFrame .twn
    (s.pg 8 = false → exec (.beaconReceive f) s = .next r) ∧
    (s.pg 8 = true → b5Auth s f.head = true → f.head.version ≠ 1 → exec (.beaconReceive f) s = .next { r with net := { r.net with b5Other := r.net.b5Other + 1 } }) ∧
    (s.pg 8 = true → b5Auth s f.head = false → Runs (.beaconReceive f) s fun t => t.twn = s.twn ∧ t.svi = s.svi ∧ SameBytes s t ∧
      t.rd R.NET_BCN_CFG_BCNBAD = min (s.rd R.NET_BCN_CFG_BCNBAD + 1) 65535 ∧ RegsKept s t [(0x400018, 0x40001C)]) ∧
    (ok → b5Auth s f.head = true → Runs (.beaconReceive f) s fun t => SameBytes s t ∧ RegsKept s t [(0xE00038, 0xE0003C), (0x50000C, 0x500010)] ∧
      (far → t.rd R.TWN_CNT2_SEGX = min (s.rd R.TWN_CNT2_SEGX + 1) (2 ^ R.TWN_CNT2_SEGX.w - 1)) ∧
      (n = ownNode s → f.head.devId % 2 ^ 64 ≠ devId s → mget t.twn.clash n 0 = s.tb2Ns) ∧
      (∀ i e, f.pubs = [(e.appid, e.src)] → (i, e) ∈ s.svi.dir → s.svi.dir.Pairwise (fun a b => a.1 ≠ b.1) →
        mget t.svi.dir i {} = { e with owner := some n, conflict := e.conflict || (e.owner ≠ none && decide (e.owner ≠ some n)) })))

/-! ### The scheme cores (R272 to R301) -/

namespace Sys2Proof.Spec
open Sys2Proof Sys2Proof.Machine

/-- Every field outside the ranges of BAR0, and other than the fields listed, keeps its value. -/
def Kept (s t : State) (ranges : List (Nat × Nat)) (l : List Fld) : Prop :=
  ∀ f : Fld, f.lo < 32 → f.addr < 0x4000000 → (∀ r ∈ ranges, ¬ (r.1 ≤ f.addr ∧ f.addr < r.2)) → (∀ g ∈ l, f.key ≠ g.key) → t.rd f = s.rd f

/-- The state fields of some tasks, and of the tasks that run or are preempted. -/
def stats (l : List Nat) : List Fld := l.map R.SCH_TKn_STAT_STATE
def busyStats (s : State) : List Fld := stats ((s.sch.cur.toList ++ s.sch.pre).map fun x => x.task)

/-- R280: a release or activation of task `k` that falls due in `s` leaves `t`. While the scheme does not run, or waits for its first
checkpoint, or for a task that the image leaves empty, nothing; an event task that is released merges; another task that is released or has an instance is skipped and counted,
TK0 telling source 6; at a switch boundary the release is held; otherwise it is released, and preempts a task of lower priority. -/
def Release (s t : State) (k : Nat) : Prop :=
  let up : Prop := s.rd R.SCH_STAT_STATE = 1 ∧ s.sch.stopping = false ∧ s.sch.coldWait = false ∧ s.rd (R.SCH_TKn_CFG_KIND k) ≠ 0
  let event : Prop := s.rd (R.SCH_TKn_CFG_KIND k) = 3
  let full : Prop := isReleased s k = true ∨ (s.sch.quiesce = false ∧ ¬ event ∧ hasInstance s k = true)
  (¬ up → t = s) ∧
  (up → event → isReleased s k = true → t = s.sat1 (R.SCH_TKn_CNT_MERGED k)) ∧
  (up → ¬ event → full → t.rd (R.SCH_TKn_CNT_OVR k) = min (s.rd (R.SCH_TKn_CNT_OVR k) + 1) 65535 ∧ t.on (R.SCH_TKn_STAT_OVR_STK k) = true ∧
    t.sch.rel = s.sch.rel ∧ t.sch.cur = s.sch.cur ∧ (k = 0 → t.prv.lines = s.prv.lines ++ [(6, 8)]) ∧ SameBytes s t ∧
    Kept s t [] [R.SCH_TKn_CNT_OVR k, R.SCH_TKn_STAT_OVR_STK k]) ∧
  (up → ¬ full → s.sch.quiesce = true → t.sch.heldRel = s.sch.heldRel ++ [k] ∧ t.sch.rel = s.sch.rel ∧ t.regs = s.regs ∧ SameBytes s t) ∧
  (up → ¬ full → s.sch.quiesce = false → t.sch.rel = s.sch.rel ++ [k] ∧ (hasInstance s k = false → t.rd (R.SCH_TKn_STAT_STATE k) = 1) ∧
    (∀ x, s.sch.cur = some x → k < x.task → dispatchable s k = true → t.sch.cur = none ∧ t.sch.pre = x :: s.sch.pre) ∧
    SameBytes s t ∧ Kept s t [] (R.SCH_TKn_STAT_STATE k :: busyStats s))

/-- Nothing runs and nothing is released on the scheme cores. -/
def Idle (t : State) : Prop := t.sch.cur = none ∧ t.sch.pre = [] ∧ t.sch.rel = []

/-- The first failure of CHECKING an image whose sections load (R294), as a RESULT. -/
def checkResult (s : State) (i : Image) : Option Nat :=
  if codeOk i = false ∨ outputsOwned i = false ∨ gooseOk i = false then some 3
  else if i.base ≠ s.img.ident then some 4
  else if imgField i R.ESP_GRP_FTG_FTG ≠ s.rd R.ESP_GRP_FTG_FTG ∨ i.used ≠ s.img.used then some 5
  else if limitsOk i = false then some 9
  else if placementFits (exchBlocks s.img) ((retRegions s).map fun e => (scBase + e.1, e.2)) (exchBlocks i) = false then some 6
  else none

/-- `d` is the latest release instant of periodic task `k` in the running frame, TB2 in ns (R277). -/
def PeriodDue (s : State) (k d : Nat) : Prop :=
  let p := s.rd (R.SCH_TKn_CFG_PARAM k) * 1000
  let m := s.rd R.SCH_FRAME_MFRAME * 1000000
  ∃ f, s.sch.frame = some f ∧ p ≠ 0 ∧ ((p ≤ m ∧ d = f + min ((s.tb2Ns - f) / p) (m / p - 1) * p) ∨
    (m < p ∧ s.rd R.SCH_FCNT_FCNT % (p / m) = 0 ∧ d = f))

/-- Every byte outside SC SRAM, `[lo, hi)` and the completion word of the copy that the next checkpoint goes to (R289) reads as before. -/
def SramOrDone (s t : State) (lo hi : Nat) : Prop :=
  let d := doneAddr (nextCopy s)
  ∀ a, (a < scBase ∨ scBase + 0x80000 ≤ a) → (a < lo ∨ hi ≤ a) → (a < d ∨ d + 4 ≤ a) → memRd t.mem a = memRd s.mem a

/-- No word of these regions of SC SRAM holds an uncorrectable error (R272). -/
def Readable (s : State) (l : List (Nat × Nat)) : Prop := ∀ a ∈ scWords l, a ∉ s.eccBad

end Sys2Proof.Spec

/-- A lockstep mismatch halts the pair and forces its outputs. A block reset puts SCH in RELOAD; a reload restarts the scheme, cold or warm, or halts it.
Frame starts count and refresh the watchdog. Releases are those of R280. A dispatch starts the best released task with its image latched. A durable
record and a whole checkpoint are kept. An exchange goes from IDLE through CHECKING, PRELOAD and READY to a boundary, the switch or a deferral, an eighth
ending it; it can be cancelled; the switch installs the image, its survivors and a checkpoint, with DONE, or halts the pair where a survivor
cannot be read (R272; the model's reading, log entry 186). Other registers and all bytes stay. -/
def Obligations.SchemeAndExchange : Prop :=
  (∀ s : State, (s.rd R.SCH_STAT_STATE = 2 → exec .lockstepMismatch s = .next s) ∧
    (s.rd R.SCH_STAT_STATE ≠ 2 → Runs .lockstepMismatch s fun t => t.rd R.SCH_STAT_STATE = 2 ∧ t.on R.SCH_STAT_LS_STK = true ∧
      t.sch.forced = true ∧ t.thn.sch = 0 ∧ t.thn.gpoSch = 0 ∧ SameBytes s t ∧
      t.prv.lines = s.prv.lines ++ [(4, BitVec.ofNat 32 (match s.sch.cur with | some x => x.rf.pc | none => 0))] ∧
      RegsKept s t [(0xB00004, 0xB00008), Spec.thnRegs]) ∧
    (8 ∈ s.prv.inRst ∨ s.on R.SCH_CTL_LOCK = true → exec .schemeBlockReset s = .next s) ∧
    (8 ∉ s.prv.inRst → s.on R.SCH_CTL_LOCK = false → recentReset s 8 = false → Runs .schemeBlockReset s fun t => t.rd R.SCH_STAT_STATE = 3 ∧ 8 ∈ t.prv.inRst ∧
      (t.rd R.PRV_BRST_INWIN).testBit 8 = true ∧ Spec.Idle t ∧ t.sch.forced = true ∧ t.thn.sch = 0 ∧ t.thn.gpoSch = 0 ∧
      t.rd R.SCH_FCNT_FCNT = 0 ∧ (∀ k < 16, t.rd (R.SCH_TKn_STAT_STATE k) = 0) ∧ SameBytes s t ∧
      RegsKept s t [Spec.schRegs, Spec.thnRegs, (0x100018, 0x10001C)])) ∧
  (∀ s : State, let warm : Prop := (s.rd R.SCH_RSTPOL_WARM).testBit 3 = true
    let good : Prop := reloadGood s schemeSection = true
    let kept (t : State) : Prop := Spec.Kept s t [(0xB00004, 0xB00008), (0xB00030, 0xB00034)] (Spec.stats (List.range 16)) ∧ 8 ∉ t.prv.inRst
    (s.rd R.SCH_STAT_STATE ≠ 3 → ∀ readOk, exec (.schemeReloadDone readOk) s = .next s) ∧
    (∀ readOk, s.rd R.SCH_STAT_STATE = 3 → readOk = false ∨ ¬ good → Runs (.schemeReloadDone readOk) s fun t => t.rd R.SCH_STAT_STATE = 2 ∧ kept t ∧ SameBytes s t) ∧
    (s.rd R.SCH_STAT_STATE = 3 → good → Spec.Readable s (retRegions s) → ¬ warm ∨ warmCkpt s = none → Runs (.schemeReloadDone true) s fun t => t.rd R.SCH_STAT_STATE = 1 ∧ kept t ∧
      Spec.Idle t ∧ t.on R.SCH_STAT_WARM = false ∧ t.rd R.SCH_STAT_LASTRST = 3 ∧ t.sch.forced = true ∧ t.sch.coldWait = true ∧
      t.sch.ckpt.isSome = true ∧ t.on R.SCH_JRN_STAT_CKPT_BUSY = true ∧ t.sch.tm = s.img.timers.map (fun e => (e.1, initTimer e.2)) ∧
      t.sch.ed = s.img.edges ∧ (warm → t.on R.SCH_STAT_RETAIN_MISMATCH_STK = true) ∧
      ((∀ e ∈ s.img.retInit, e.1 + e.2.length ≤ 0x80000) → Spec.SramOrDone s t 0 0 ∧ doneWord t (nextCopy s) = 0)) ∧
    (∀ c k, s.rd R.SCH_STAT_STATE = 3 → good → warm → warmCkpt s = some (c, k) → newerRecs s (c, k) = [] → Runs (.schemeReloadDone true) s fun t =>
      t.rd R.SCH_STAT_STATE = 1 ∧ kept t ∧ Spec.Idle t ∧ t.on R.SCH_STAT_WARM = true ∧ t.rd R.SCH_STAT_LASTRST = 3 ∧ t.sch.forced = true ∧
      t.sch.coldWait = false ∧ t.sch.tm = k.tms.map (fun e => (e.1, loadTimer e.2)) ∧ t.sch.ed = k.eds ∧ t.sch.jseq = k.seq + 1 ∧
      (∀ a l, k.regions = [(a, l)] → t.rdMem (scBase + a) l.length = l) ∧
      ((∀ e ∈ k.regions, e.1 + e.2.length ≤ 0x80000) → SameBytesBut s t scBase (scBase + 0x80000)))) ∧
  (∀ s : State, let due : Prop := s.rd R.SCH_STAT_STATE = 1 ∧ coresAlive s = true ∨ s.glb.wdt = none ∧ s.rd R.GLB_PWR_STATE = 1
    let kept (t : State) : Prop := (due → t.glb.wdt = some s.tb2Ns) ∧ (¬ due → t.glb.wdt = s.glb.wdt) ∧ SameBytes s t ∧
      RegsKept s t [(0xB00010, 0xB00014)]
    let m := s.rd R.SCH_FRAME_MFRAME * 1000000
    let first := (s.sch.startAt / max 1 m + 1) * m
    (s.sch.frame = none → s.rd R.SCH_STAT_STATE ≠ 1 ∨ s.tb2Ns < first → exec .majorFrameStart s = .next s) ∧
    (s.sch.frame = none → s.rd R.SCH_STAT_STATE = 1 → first ≤ s.tb2Ns → Runs .majorFrameStart s fun t => t.rd R.SCH_FCNT_FCNT = 0 ∧
      t.sch = { s.sch with frame := some first } ∧ kept t) ∧
    (∀ f, s.sch.frame = some f → s.tb2Ns < f + m → exec .majorFrameStart s = .next s) ∧
    (∀ f, s.sch.frame = some f → f + m ≤ s.tb2Ns → Runs .majorFrameStart s fun t => t.rd R.SCH_FCNT_FCNT = (s.rd R.SCH_FCNT_FCNT + 1) % 2 ^ 32 ∧
      t.sch = { s.sch with frame := some (f + m) } ∧ kept t)) ∧
  (∀ (k : Fin 16) (s : State),
    (∀ d, s.rd (R.SCH_TKn_CFG_KIND k) = 2 → Spec.PeriodDue s k d → mget s.sch.relAt k 0 < d → Runs (.taskReleasePeriodic k) s fun t =>
      Spec.Release { s with sch := { s.sch with relAt := mput s.sch.relAt k d } } t k) ∧
    (s.rd (R.SCH_TKn_CFG_KIND k) ≠ 2 ∨ (∀ d, Spec.PeriodDue s k d → d ≤ mget s.sch.relAt k 0) → exec (.taskReleasePeriodic k) s = .next s) ∧
    (s.rd (R.SCH_TKn_CFG_KIND k) = 3 → Runs (.taskHostActivate k) s fun t => Spec.Release s t k) ∧
    (s.rd (R.SCH_TKn_CFG_KIND k) ≠ 3 → exec (.taskHostActivate k) s = .next s)) ∧
  (∀ (tick : Nat) (s : State), let g := s.rd (R.SCH_TKn_CFG_FTG 0)
    let later := ticksAfter s g tick
    let due : Prop := s.rd (R.SCH_TKn_CFG_KIND 0) = 1 ∧ s.rd (R.SCH_TKn_CFG_PARAM 0) ≠ 0 ∧ tick % s.rd (R.SCH_TKn_CFG_PARAM 0) = 0 ∧
                  tick ∈ closedTicks s g ∧ (later ≠ [] ∨ ∀ n ∈ missing s g tick, s.rd (R.ELCn_STAT_STATE n) ≠ 1) ∧
                  ∀ k, s.sch.tk0Tick = some k → k ≠ tick ∧ k ∉ later
    let r := { s with sch := { s.sch with tk0Tick := some tick } }
    (due → isReleased s 0 = true → Runs (.tk0Release tick) s fun t => Spec.Release r t 0) ∧
    (due → isReleased s 0 = false → Runs (.tk0Release tick) s fun t => t.sch.tk0Miss = missing s g tick ∧
      ∃ u, Spec.Release r u 0 ∧ t = { u with sch := { u.sch with tk0Miss := missing s g tick } }) ∧
    (¬ due → exec (.tk0Release tick) s = .next s)) ∧
  (∀ s : State, (s.sch.trig = [] → exec .eventTaskTrigger s = .next s) ∧
    ∀ k r, s.sch.trig = k :: r → Runs .eventTaskTrigger s fun t => t.sch.trig = r ∧ Spec.Release { s with sch := { s.sch with trig := r } } t k) ∧
  (∀ s : State, (s.sch.cur ≠ none ∨ bestReleased s = none → exec .taskDispatch s = .next s) ∧
    (∀ k, bestReleased s = some k → (∃ x ∈ s.sch.pre, x.task < k) → exec .taskDispatch s = .next s) ∧
    ∀ k, s.sch.cur = none → bestReleased s = some k → (∀ x ∈ s.sch.pre, k ≤ x.task) → mget s.sch.restore k [] = [] →
      Runs .taskDispatch s fun t => (∃ x, t.sch.cur = some x ∧ x.task = k ∧ x.rf = { pc := mget s.img.taskEntry k 0 } ∧
        x.now = s.tb2Ns / 1000 ∧ x.inp = latch s k ∧ x.stg = [] ∧ x.acts = [] ∧ x.lines = []) ∧ k ∉ t.sch.rel ∧
        t.rd (R.SCH_TKn_STAT_STATE k) = 2 ∧ SameBytes s t ∧ Spec.Kept s t [] (Spec.stats [k])) ∧
  (∀ s : State, (s.sch.jrn = [] → exec .journalRecordDurable s = .next s) ∧
    (∀ r l, s.sch.jrn = r :: l → Runs .journalRecordDurable s fun t => t.sch.jrn = l ∧
      ((recWords r).length ≤ ringSize → getRing t r.pos (recWords r).length = recWords r) ∧
      (∀ a, (∀ k < (recWords r).length, a ≠ ringBase0 + (r.pos % ringSize + k) % ringSize) → (recWords r).length ≤ ringSize →
        memRd t.mem a = memRd s.mem a) ∧
      t.rd64 R.SCH_JRN_SEQ_LO_SEQ R.SCH_JRN_SEQ_HI_SEQ = r.seq % 2 ^ 64 ∧ Spec.Kept s t [(0xB00034, 0xB0003C)] (Spec.busyStats s)) ∧
    (s.sch.ckpt = none → exec .checkpointComplete s = .next s) ∧
    (∀ k, s.sch.ckpt = some k → s.sch.jwait = [] → s.sch.jfill - s.sch.jfillCk ≤ 262144 → (ckptBytes k).length ≤ 0x3FFFC →
      Runs .checkpointComplete s fun t => let c := nextCopy s
        t.sch.ckpt = none ∧ t.on R.SCH_JRN_STAT_CKPT_BUSY = false ∧ t.on R.SCH_JRN_STAT_STALL = false ∧ t.sch.coldWait = false ∧
        t.sch.jfill = s.sch.jfill - s.sch.jfillCk ∧ t.rd R.SCH_JRN_STAT_CKCOPY = c ∧ (∀ e l, goodCkpts s = e :: l → c = 1 - e.1) ∧
        t.rdMem (ckBase c) (ckptBytes k).length = ckptBytes k ∧ doneWord t c = (nextNo s * 8192 + s.sch.ckPos / 64) % 2 ^ 32 ∧
        (∀ a, (a < ckBase c ∨ ckBase c + (ckptBytes k).length ≤ a) → (a < doneAddr c ∨ doneAddr c + 4 ≤ a) → memRd t.mem a = memRd s.mem a) ∧
        Spec.Kept s t [(0xB00030, 0xB00034)] (Spec.busyStats s))) ∧
  (∀ s : State, let st := s.rd R.SCH_EXCH_STAT_STATE
    let exch := (0xB00024, 0xB00028)
    let waits : Prop := s.sch.quiesce = true ∧ (s.sch.cur ≠ none ∨ s.sch.pre ≠ []) ∧ s.sch.frame.getD 0 + 1000000 ≤ s.tb2Ns
    let released (t : State) : Prop := (∀ k ∈ s.sch.heldRel, s.rd (R.SCH_TKn_CFG_KIND k) ≠ 0 → k ∈ t.sch.rel) ∧
      ∀ k ∈ t.sch.rel, t.rd (R.SCH_TKn_CFG_KIND k) ≠ 0
    let heldStats := Spec.stats (List.range 16) ++ Spec.busyStats s
    (st ≠ 0 → exec .exchangeRequest s = .next s) ∧
    (st = 0 → Runs .exchangeRequest s fun t => t.rd R.SCH_EXCH_STAT_STATE = 1 ∧ t.rd R.SCH_EXCH_STAT_DEFERS = 0 ∧
      t.sch = { s.sch with exSlot := s.rd R.SCH_EXCH_CTL_SLOT, exStg := s.on R.SEC_STAT_BUSY && s.sec.op == 3 && s.sec.early == 0 } ∧
      SameBytes s t ∧ RegsKept s t [exch]) ∧
    (∀ sig rd tab x, st ≠ 1 ∨ sig ≠ imageSig s s.sch.exSlot → exec (.exchangeCheckDone sig rd tab x) s = .next s) ∧
    (∀ sig rd tab x r, st = 1 → sig = imageSig s s.sch.exSlot →
      let read : Prop := imageVerdict s s.sch.exSlot sig = 0 ∧ rd = true ∧ s.sch.exStg = false
      (¬ read ∧ r = 2 ∨
        read ∧ loadAll s s.sch.exSlot (sections s s.sch.exSlot) {} = .error 5 ∧ r = 2 ∨
        read ∧ loadAll s s.sch.exSlot (sections s s.sch.exSlot) {} = .error 6 ∧ r = 3 ∨
        read ∧ ∃ l, loadAll s s.sch.exSlot (sections s s.sch.exSlot) {} = .ok l ∧
          (tab = false ∧ r = 3 ∨ tab = true ∧ Spec.checkResult s (imageOf s s.sch.exSlot l x) = some r)) → Runs (.exchangeCheckDone sig rd tab x) s fun t =>
      t.rd R.SCH_EXCH_STAT_STATE = 0 ∧ t.rd R.SCH_EXCH_STAT_RESULT = r ∧ t.sch.cand = none ∧ t.img = s.img ∧ SameBytes s t ∧
      RegsKept s t [exch] ∧ ∃ e, t.yew.cross = s.yew.cross ++ [e] ∧ e.src = 0x0B ∧ e.code = 8) ∧
    (∀ sig x l, st = 1 → sig = imageSig s s.sch.exSlot → imageVerdict s s.sch.exSlot sig = 0 → s.sch.exStg = false → loadAll s s.sch.exSlot (sections s s.sch.exSlot) {} = .ok l →
      Spec.checkResult s (imageOf s s.sch.exSlot l x) = none → Runs (.exchangeCheckDone sig true true x) s fun t =>
      t.rd R.SCH_EXCH_STAT_STATE = 2 ∧ t.sch.cand = some (imageOf s s.sch.exSlot l x) ∧ t.img = s.img ∧ SameBytes s t ∧ RegsKept s t [exch]) ∧
    (st ≠ 2 ∨ s.sch.cand = none → exec .exchangePreloadDone s = .next s) ∧
    (∀ i, st = 2 → s.sch.cand = some i → Runs .exchangePreloadDone s fun t => t.rd R.SCH_EXCH_STAT_STATE = 3 ∧
      t.sch = { s.sch with readyAt := s.tb2Ns } ∧
      RegsKept s t [exch] ∧ (∀ a, (∀ b ∈ i.blocks, (b.1 < scBase ∧ 0x80000 ≤ b.1 % 0x100000) ∨ a < b.1 ∨ b.1 + b.2.length ≤ a) →
        memRd t.mem a = memRd s.mem a) ∧
      (∀ a l, i.blocks = [(a, l)] → scBase ≤ a ∨ a % 0x100000 < 0x80000 → (a, l) ∉ s.img.blocks → t.rdMem a l.length = l) ∧
      ((∀ b ∈ i.blocks, b ∈ s.img.blocks) → SameBytes s t)) ∧
    (∀ f, s.sch.frame = some f → st = 3 → s.sch.quiesce = false → s.sch.readyAt ≤ f →
      s.rd R.SCH_FCNT_FCNT % max 1 (s.rd R.SCH_FRAME_HRATIO) = 0 → Runs .exchangeBoundary s fun t => t.sch.quiesce = true ∧
      t.sch.rel = s.sch.rel ∧ SameBytes s t ∧ Spec.Kept s t [] (Spec.busyStats s)) ∧
    (st ≠ 3 ∨ s.sch.quiesce = true ∨ (∀ f, s.sch.frame = some f → f < s.sch.readyAt) ∨
      s.rd R.SCH_FCNT_FCNT % max 1 (s.rd R.SCH_FRAME_HRATIO) ≠ 0 → exec .exchangeBoundary s = .next s) ∧
    (¬ waits → exec .exchangeQuiesceTimeout s = .next s) ∧
    (waits → Runs .exchangeQuiesceTimeout s fun t => t.sch.quiesce = false ∧ t.sch.heldRel = [] ∧ released t ∧ t.sch.readyAt = s.tb2Ns ∧
      t.rd R.SCH_EXCH_STAT_DEFERS = (s.rd R.SCH_EXCH_STAT_DEFERS + 1) % 16 ∧ SameBytes s t ∧ Spec.Kept s t [exch] heldStats ∧
      (s.rd R.SCH_EXCH_STAT_DEFERS = 7 → t.rd R.SCH_EXCH_STAT_STATE = 0 ∧ t.rd R.SCH_EXCH_STAT_RESULT = 7) ∧
      (s.rd R.SCH_EXCH_STAT_DEFERS < 7 → t.rd R.SCH_EXCH_STAT_STATE = st)) ∧
    (1 ≤ st ∧ st ≤ 3 → Runs .exchangeCancel s fun t => t.rd R.SCH_EXCH_STAT_STATE = 0 ∧ t.rd R.SCH_EXCH_STAT_RESULT = 8 ∧ t.sch.cand = none ∧
      t.sch.quiesce = false ∧ t.img = s.img ∧ released t ∧ SameBytes s t ∧ Spec.Kept s t [exch] heldStats) ∧
    (st = 0 ∨ 3 < st → exec .exchangeCancel s = .next s) ∧
    (s.sch.cand = none ∨ st ≠ 3 ∨ s.sch.quiesce = false ∨ s.sch.cur ≠ none ∨ s.sch.pre ≠ [] → exec .exchangeSwitch s = .next s) ∧
    (∀ i, s.sch.cand = some i → st = 3 → s.sch.quiesce = true → s.sch.cur = none → s.sch.pre = [] → ¬ Spec.Readable s (carryRegions i) →
      Runs .exchangeSwitch s fun t => t.rd R.SCH_STAT_STATE = 2 ∧ t.rd R.SCH_EXCH_STAT_STATE = 3 ∧ t.img = s.img ∧ t.sch.quiesce = true ∧
        SameBytes s t ∧ RegsKept s t [(0xB00004, 0xB00008), Spec.thnRegs]) ∧
    (∀ i, s.sch.cand = some i → st = 3 → s.sch.quiesce = true → s.sch.cur = none → s.sch.pre = [] →
      Spec.Readable s (carryRegions i) → Spec.Readable s (i.retained.map fun e => e.2) → Runs .exchangeSwitch s fun t =>
      t.rd R.SCH_EXCH_STAT_STATE = 0 ∧ t.rd R.SCH_EXCH_STAT_RESULT = 1 ∧ t.img = i ∧ t.sch.cand = none ∧ t.sch.quiesce = false ∧
      (∃ k, t.sch.ckpt = some k ∧ k.ident = i.ident) ∧ t.on R.SCH_JRN_STAT_CKPT_BUSY = true ∧
      (∀ a l, i.cfg = [(a, l)] → cfgBase 0 ≤ a → a + l.length ≤ cfgBase 3 → t.rdMem a l.length = l) ∧
      (i.fields = s.img.fields → t.rd R.GLB_BOOT_PREF = s.sch.exSlot % 2 ∧ t.rd R.GLB_BOOT_SLOT = s.sch.exSlot % 2 ∧
        released t ∧
        (∀ o n, (o, n) ∈ i.carryTm → i.carryTm.Pairwise (fun a b => a.2 ≠ b.2) →
          mget t.sch.tm n {} = { mget s.sch.tm o {} with pre := (mget (i.timers.map fun e => (e.1, initTimer e.2)) n {}).pre }) ∧
        ((∀ e ∈ i.retInit, e.1 + e.2.length ≤ 0x80000) → (∀ e ∈ i.carryVar, e.2.1 + e.2.2 ≤ 0x80000) →
          Spec.SramOrDone s t (cfgBase 0) (cfgBase 3) ∧ doneWord t (nextCopy s) = 0) ∧
        (i.gcbs = s.img.gcbs → i.gsubs = s.img.gsubs →
          Spec.Kept s t (((0x10, 0x14) :: exch :: (0xB00030, 0xB00034) :: Spec.thnRegs :: (List.range 8).map fun n => (0x900008 + 0x10000 * n, 0x90000C + 0x10000 * n))) heldStats))))

/-! ### The disturbance recorder (R376 to R395) -/

namespace Sys2Proof.Spec
open Sys2Proof Sys2Proof.Machine

/-- The word of channel `i` in a fast-mode row: the channel's flags U, O, N and I over its 24-bit value (R377). -/
def fastWord (s : State) (u i : Nat) : Word :=
  let x := mget s.dch.tap (auSrc s u i) (0, 0)
  BitVec.ofNat 32 ((x.2 &&& 0xE8) * 2 ^ 24 + usg 24 x.1)

/-- Where the next row of an AU goes in DRAM (R381). -/
def rowAt (s : State) (u : Nat) : Nat := dramBase + partBase s u + 0x10000 + (auOf s u).pos

/-- A kept fast-mode row of `s` has been stored (R378, R379): its instant from FAB's shadow of active time, its number in the record, whether it
triggered, and each channel's word. -/
def RowStored (s t : State) (u num : Nat) (trig : Bool) : Prop :=
  t.rdMem (rowAt s u) 4 = leBytes 4 (s.fabTime 4 / nsU) ∧ (t.rdW (rowAt s u + 4)).toNat % 2 ^ 28 = num % 2 ^ 28 ∧
    (t.rdW (rowAt s u + 4)).getLsbD 31 = trig ∧ ∀ i < auNch s u, t.rdW (rowAt s u + 8 + 4 * i) = fastWord s u i

/-- No mask slot of an AU is enabled. -/
def NoMasks (s : State) (u : Nat) : Prop := ∀ m < 8, s.on (R.REC_AUu_MSKm_CFG_EN u m) = false

/-- Unit `k` alone of an AU's trigger units has a kind. -/
def OnlyUnit (s : State) (u k : Nat) : Prop := k < 16 ∧ ∀ j < 16, j ≠ k → s.rd (R.REC_AUu_TRGt_CFG_KIND u j) = 0

/-- The value of the AU's channel `c` in a fast-mode row, with its flags, where neither U nor I stands on it. -/
def Usable (s : State) (u c : Nat) (v : Word) : Prop :=
  let x := mget s.dch.tap (auSrc s u c) (0, 0)
  c < auNch s u ∧ v = F32.ofInt x.1 ∧ x.2.testBit 7 = false ∧ x.2.testBit 3 = false

/-- R384: trigger unit `k` fires in a fast-mode row: an edge of a verdict bit or a scheme signal, a binary input's event, a level that has held
for M rows or a change over M rows that the unit has not fired on yet, a capture, the host's trigger, a fault, or a flag. -/
def Fires (s : State) (u k : Nat) : Prop :=
  let x := mget (auOf s u).trg k {}
  let sel := s.rd (R.REC_AUu_TRGt_CFG_SEL u k)
  let e := s.rd (R.REC_AUu_TRGt_CFG_EDGE u k)
  let m := max 1 (s.rd (R.REC_AUu_TRGt_CFG_M u k))
  let thr : Word := BitVec.ofNat 32 (s.rd (R.REC_AUu_TRGt_THR_THR u k))
  let turns (old new : Bool) : Prop := (old = false ∧ new = true ∧ (e = 0 ∨ e = 2)) ∨ (old = true ∧ new = false ∧ (e = 1 ∨ e = 2))
  let level (v : Word) : Prop := if e % 2 = 0 then F32.le thr (F32.abs v) = true else F32.le (F32.abs v) thr = true
  match s.rd (R.REC_AUu_TRGt_CFG_KIND u k) with
  | 1 => turns x.prev (verdictBit s sel)
  | 2 => ((u, 2, 2 * sel + 1) ∈ s.dr.ev ∧ (e = 0 ∨ e = 2)) ∨ ((u, 2, 2 * sel) ∈ s.dr.ev ∧ (e = 1 ∨ e = 2))
  | 3 => ∃ v, Usable s u sel v ∧ level v ∧ x.ready = true ∧ m ≤ min (x.cnt + 1) 256
  | 4 => ∃ v w, Usable s u sel v ∧ x.hist[m - 1]? = some w ∧ level (F32.sub v w) ∧ x.ready = true
  | 6 => (u, 6, sel) ∈ s.dr.ev
  | 7 => (u, 7, 0) ∈ s.dr.ev
  | 8 => ∃ c, (u, 8, c) ∈ s.dr.ev
  | 9 => turns x.prev (mget s.sch.recSig (sel % 256) false)
  | 10 => sel < auNch s u ∧ (mget s.dch.tap (auSrc s u sel) (0, 0)).2 &&& 0xE8 &&& thr.toNat % 256 ≠ 0 ∧ x.ready = true
  | _ => False

/-- R389: mask slot `m`, alone enabled, finds its channel outside its limits for the M-th row running. -/
def Violated (s : State) (u m : Nat) : Prop :=
  let c := s.rd (R.REC_AUu_MSKm_CFG_CH u m)
  let p := cyclePhase s (fastFtg s u (auSrc s u c)) (s.fabTime 4 / nsU)
  m < 8 ∧ (∀ j < 8, s.on (R.REC_AUu_MSKm_CFG_EN u j) = decide (j = m)) ∧ max 1 (s.rd (R.REC_AUu_MSKm_CFG_M u m)) ≤ mget (auOf s u).mask m 0 + 1 ∧
    ∃ v, Usable s u c v ∧ (F32.lt (BitVec.ofNat 32 (s.rd (R.REC_AUu_MASKmp_MASK u m p))) v = true ∨
      F32.lt v (BitVec.ofNat 32 (s.rd (R.REC_AUu_MASKLmp_MASK u m p))) = true)

/-- The AU waits in READY for a trigger, and slot `slot` takes the record. -/
def ReadyFor (s : State) (u slot : Nat) : Prop :=
  let x := auOf s u
  s.rd (R.REC_AUu_STAT_STATE u) = 2 ∧ x.cur = none ∧ x.stg = [] ∧ pickSlot s u = some slot ∧ (∀ h ∈ hitSlots s u, h = slot) ∧
    s.on R.MEM_STAT_TRAINED = true ∧ x.pos % rowBytes s u = 0 ∧ x.pos + rowBytes s u ≤ regionSize s u ∧
    s.hst.badWords = [] ∧ s.hst.softWords = []

/-- A record has started with the row of `s` (R387, R390, R391, R393), on these units and mask slots; a mask stop ends it with this row. -/
def RecordStarted (s t : State) (u slot units masks : Nat) (stop : Bool) : Prop :=
  let fit := circle s u / rowBytes s u
  let pre := min (min (s.rd (R.REC_AUu_PRE_PRE u)) (auOf s u).store) (fit - 1)
  t.rd (R.REC_AUu_STAT_STATE u) = 3 ∧ t.rd (R.REC_AUu_STAT_NEWEST u) = slot ∧
  (t.rd (R.REC_AUu_VALID_VALID u)).testBit slot = true ∧ (t.rd (R.REC_AUu_VALID_COMPLETE u)).testBit slot = false ∧
  t.rd (R.REC_AUu_CNT_RECORDS u) = (s.rd (R.REC_AUu_CNT_RECORDS u) + 1) % 65536 ∧
  (∃ c, (auOf t u).cur = some c ∧ c.slot = slot ∧ c.preRows = pre ∧ c.count = pre + 1 ∧ c.begun = true ∧ c.units = units ∧ c.masks = masks ∧
    c.last = (if stop then pre + 1 else min (pre + max 1 (s.rd (R.REC_AUu_POST_POST u))) fit) ∧ c.trgAct = s.fabTime 4 / nsU ∧
    c.trgTb2 = s.fabTime 2 / nsU ∧ c.chans = headChans s u ∧ c.flags.testBit 28 = stop ∧
    c.flags.testBit 30 = decide (pre < s.rd (R.REC_AUu_PRE_PRE u))) ∧ RowStored s t u pre true ∧
  (∃ e, t.yew.cross = s.yew.cross ++ [e] ∧ e.src = 0x0C ∧ e.code = 1 ∧ e.tell = .recHeader u slot) ∧
  t.rdMem (dramBase + partBase s u + 0x1000 * slot) 8 = leBytes 4 0x52454331 ++ leBytes 4 0x10000001 ∧
  SameBytesBut s t (dramBase + partBase s u) (dramBase + partBase s u + partSize s u) ∧
  RegsKept s t [(0xC0011C + 0x100 * u, 0xC00124 + 0x100 * u), (0xC0012C + 0x100 * u, 0xC00130 + 0x100 * u)]

/-- A grid-mode row of instant `i` has been stored (R376, R378): its stamp, its number, each channel's value and flag byte as the planes now hold
them. -/
def GridRowStored (s t : State) (u : Nat) (i : Inst) : Prop :=
  t.rdMem (rowAt s u) 4 = leBytes 4 ((i.t + nsU / 2) / nsU) ∧ (t.rdW (rowAt s u + 4)).toNat % 2 ^ 28 = (auOf s u).num % 2 ^ 28 ∧
    ∀ c < auNch s u, t.rdW (rowAt s u + 8 + 4 * c) = t.rdW (valAddr (auSrc s u c) (i.tick % 512)) ∧
      memRd t.mem (rowAt s u + 8 + 4 * auNch s u + c) = memRd t.mem (flagAddr (auSrc s u c) (i.tick % 512))

end Sys2Proof.Spec

/-- A fast-mode AU that is armed takes each row, 64 fm periods after the one before: one not kept only counts; a kept one without a trigger is stored with its instant and channel words, and
FILL becomes READY when the pre-trigger store is full; one in which its one trigger unit fires in READY, whatever its kind, or its one mask slot is
violated, starts a record in the slot of R391, which a stopping mask ends with that row. A grid-mode AU stores a row of the planes at a close of its FTG. A record whose
last row is written is marked COMPLETE and hold-off runs. Hold-off ends in READY or FILL. ARM checks DRAM, sizes and partitions and enters FILL or READY. DISARM
leads to IDLE. A host trigger waits for the next row. PIN is written, and a stall it ends is left. Other registers and bytes stay. -/
def Obligations.DisturbanceRecorder : Prop :=
  (∀ (u : Fin 4) (s : State), let x := auOf s u
    let st := s.rd (R.REC_AUu_STAT_STATE u)
    let rb := rowBytes s u
    let runs : Prop := s.pg 1 = true ∧ st ≠ 0 ∧ s.on (R.REC_AUu_CFG_MODE u) = true ∧
                   ∀ a, x.edgeAt = some a → a + 64 * tmNs (lpmAct s) ≤ s.tb2Ns
    let due : Prop := x.src % clamp 1 1024 (s.rd (R.REC_AUu_CFG_K u)) = 0
    let none_ : Prop := ∀ k < 16, s.rd (R.REC_AUu_TRGt_CFG_KIND u k) = 0
    let quiet : Prop := Spec.NoMasks s u ∧ (none_ ∨ ∃ k, Spec.OnlyUnit s u k ∧ s.on (R.REC_AUu_TRGt_CFG_GROUP u k) = false ∧ ¬ Spec.Fires s u k)
    let stat := (0xC0011C + 0x100 * u.val, 0xC00120 + 0x100 * u.val)
    (¬ runs → exec (.fastRow u) s = .next s) ∧
    (runs → quiet → ¬ due → Runs (.fastRow u) s fun t => (auOf t u).src = x.src + 1 ∧ (auOf t u).pos = x.pos ∧ (auOf t u).cur = x.cur ∧ (auOf t u).edgeAt = some s.tb2Ns ∧
      (∀ e ∈ t.dr.ev, e.1 ≠ u.val) ∧ t.regs = s.regs ∧ SameBytes s t) ∧
    (runs → quiet → due → (st = 1 ∨ st = 2) → x.cur = none → x.stg = [] → hitSlots s u = [] → s.on R.MEM_STAT_TRAINED = true → Runs (.fastRow u) s fun t =>
      Spec.RowStored s t u x.num false ∧ (auOf t u).src = x.src + 1 ∧ (auOf t u).num = x.num + 1 ∧ (auOf t u).store = x.store + 1 ∧
      (auOf t u).pos = (x.pos + rb) % max 1 (circle s u) ∧
      t.rd (R.REC_AUu_STAT_STATE u) = (if s.rd (R.REC_AUu_PRE_PRE u) ≤ x.store + 1 then 2 else st) ∧
      SameBytesBut s t (Spec.rowAt s u) (Spec.rowAt s u + rb) ∧ RegsKept s t [stat]) ∧
    (∀ k slot, runs → due → Spec.NoMasks s u → Spec.OnlyUnit s u k → s.on (R.REC_AUu_TRGt_CFG_GROUP u k) = false → Spec.Fires s u k →
      Spec.ReadyFor s u slot → Runs (.fastRow u) s fun t => Spec.RecordStarted s t u slot (2 ^ k) 0 false) ∧
    (∀ m slot, runs → due → none_ → Spec.Violated s u m → Spec.ReadyFor s u slot → Runs (.fastRow u) s fun t =>
      Spec.RecordStarted s t u slot 0 (2 ^ m) (s.on (R.REC_AUu_MSKm_CFG_ACT u m))) ∧
    (∀ (g : Fin 4) (i : Inst), oldestOpen (espFtg s g) = some i → complete s g i = true → st = 1 ∨ st = 2 → s.on (R.REC_AUu_CFG_MODE u) = false →
      s.rd (R.REC_AUu_CFG_FTG u) = g → (∀ v < 4, v ≠ u.val → s.rd (R.REC_AUu_STAT_STATE v) = 0) → due → Spec.NoMasks s u → none_ → x.cur = none →
      x.stg = [] → hitSlots s u = [] → s.on R.MEM_STAT_TRAINED = true → x.pos + rb ≤ regionSize s u → s.parBad = [] → Runs (.gridClose g) s fun t => Spec.GridRowStored s t u i ∧
        (auOf t u).src = x.src + 1 ∧ (auOf t u).num = x.num + 1 ∧ (auOf t u).pos = (x.pos + rb) % max 1 (circle s u) ∧
        t.rd (R.REC_AUu_STAT_STATE u) = (if s.rd (R.REC_AUu_PRE_PRE u) ≤ x.store + 1 then 2 else st)) ∧
    (x.cur = none → exec (.recRecordEnd u) s = .next s) ∧
    (∀ c, x.cur = some c → c.count < c.last → exec (.recRecordEnd u) s = .next s) ∧
    (∀ c, x.cur = some c → c.last ≤ c.count → c.slot < 16 → ringLog s 3 = 0 → Runs (.recRecordEnd u) s fun t =>
      t.rd (R.REC_AUu_STAT_STATE u) = 4 ∧ (auOf t u).cur = none ∧ (auOf t u).holdAt = s.tb2Ns ∧ (auOf t u).holdN = 0 ∧
      (auOf t u).made = x.made + 1 ∧ (t.rd (R.REC_AUu_VALID_COMPLETE u)).testBit c.slot = true ∧
      (c.flags.testBit 29 = true → t.on (R.REC_AUu_STAT_TRUNC_STK u) = true) ∧
      (s.on R.MEM_STAT_TRAINED = true → t.rdMem (dramBase + partBase s u + 0x1000 * c.slot) 0x1000 = headBytes s u c true) ∧
      SameBytesBut s t (dramBase + partBase s u + 0x1000 * c.slot) (dramBase + partBase s u + 0x1000 * c.slot + 0x1000) ∧
      RegsKept s t [stat, (0xC0012C + 0x100 * u.val, 0xC00130 + 0x100 * u.val)])) ∧
  (∀ (u : Fin 4) (s : State), let x := auOf s u
    let st := s.rd (R.REC_AUu_STAT_STATE u)
    let h := s.rd (R.REC_AUu_HOLD_HOLD u)
    let beyond : Prop := st = 4 ∧ (if s.on (R.REC_AUu_CFG_HMODE u) = true then clamp 1 65535 h ≤ x.holdN
      else x.holdAt + clamp 1 60000000 h * 1000 ≤ s.tb2Ns)
    let stat := (0xC0011C + 0x100 * u.val, 0xC00120 + 0x100 * u.val)
    (beyond → Runs (.recHoldoffEnd u) s fun t => t.rd (R.REC_AUu_STAT_STATE u) = (if s.rd (R.REC_AUu_PRE_PRE u) ≤ x.store then 2 else 1) ∧
      t.dr = s.dr ∧ SameBytes s t ∧ RegsKept s t [stat]) ∧
    (¬ beyond → exec (.recHoldoffEnd u) s = .next s) ∧
    (∀ k : Fin 64, let need := (s.rd (R.REC_AUu_PRE_PRE u) + max 1 (s.rd (R.REC_AUu_POST_POST u))) * rowBytes s u
      let may : Prop := st = 0 ∧ s.pg 1 = true
      (¬ may → exec (.recArm u k) s = .next s) ∧
      (may → s.on R.MEM_STAT_TRAINED = false → exec (.recArm u k) s = .next (s.wr (R.REC_AUu_STAT_RESULT u) 3)) ∧
      (may → s.on R.MEM_STAT_TRAINED = true → regionSize s u < need → exec (.recArm u k) s = .next (s.wr (R.REC_AUu_STAT_RESULT u) 2)) ∧
      (may → s.on R.MEM_STAT_TRAINED = true → need ≤ regionSize s u → partBad s u = true → exec (.recArm u k) s = .next (s.wr (R.REC_AUu_STAT_RESULT u) 3)) ∧
      (may → s.on R.MEM_STAT_TRAINED = true → need ≤ regionSize s u → partBad s u = false → Runs (.recArm u k) s fun t => t.rd (R.REC_AUu_STAT_RESULT u) = 1 ∧
        t.rd (R.REC_AUu_STAT_STATE u) = (if s.rd (R.REC_AUu_PRE_PRE u) = 0 then 2 else 1) ∧
        t.rd (R.REC_AUu_ROWB_ROWB u) = rowBytes s u % 65536 ∧ (auOf t u).src = 0 ∧ (auOf t u).num = 0 ∧ (auOf t u).store = 0 ∧
        (auOf t u).cur = none ∧ (auOf t u).slots = x.slots ∧ (auOf t u).edgeAt = none ∧ SameBytes s t ∧
        (∀ i < auNch s u, mget (auOf t u).skew i 0 = (k.val + auSrc s u i % 32) % 64) ∧
        RegsKept s t [stat, (0xC00124 + 0x100 * u.val, 0xC00128 + 0x100 * u.val)])) ∧
    (x.cur = none → Runs (.recDisarm u) s fun t => t.rd (R.REC_AUu_STAT_STATE u) = 0 ∧ (∀ e ∈ t.dr.ev, e.1 ≠ u.val) ∧ auOf t u = x ∧
      SameBytes s t ∧ RegsKept s t [stat]) ∧
    (∀ c, x.cur = some c → c.slot < 16 → ringLog s 3 = 0 → Runs (.recDisarm u) s fun t => t.rd (R.REC_AUu_STAT_STATE u) = 0 ∧
      (auOf t u).cur = none ∧ (t.rd (R.REC_AUu_VALID_COMPLETE u)).testBit c.slot = true ∧
      (c.count < c.last → t.on (R.REC_AUu_STAT_TRUNC_STK u) = true) ∧
      SameBytesBut s t (dramBase + partBase s u + 0x1000 * c.slot) (dramBase + partBase s u + 0x1000 * c.slot + 0x1000) ∧
      RegsKept s t [stat, (0xC0012C + 0x100 * u.val, 0xC00130 + 0x100 * u.val)]) ∧
    (st = 0 → exec (.recHostTrigger u) s = .next s) ∧
    (st ≠ 0 → exec (.recHostTrigger u) s = .next { s with dr := { s.dr with ev := s.dr.ev ++ [(u.val, 7, 0)] } }) ∧
    (∀ v : BitVec 16, let hit : Prop := ∃ k ∈ hitSlots s u, v.getLsbD k = true
      (st ≠ 5 ∨ hit → exec (.recPin u v) s = .next (s.wr (R.REC_AUu_PIN_PIN u) v.toNat)) ∧
      (st = 5 → ¬ hit → Runs (.recPin u v) s fun t => t.rd (R.REC_AUu_PIN_PIN u) = v.toNat ∧ (auOf t u).store = 0 ∧
        t.rd (R.REC_AUu_STAT_STATE u) = (if s.rd (R.REC_AUu_PRE_PRE u) = 0 then 2 else 1) ∧ SameBytes s t ∧
        RegsKept s t [stat, (0xC00128 + 0x100 * u.val, 0xC0012C + 0x100 * u.val)])))

/-! ### Security and identity (R438 to R453) -/

namespace Sys2Proof.Spec
open Sys2Proof Sys2Proof.Machine

/-- RESULT of a token in the order of R443: signature and magic, device, nonce, state, version; NOKEY without an owner key. -/
def tokenResult (s : State) (sigOk : Bool) : Nat :=
  let b := secBuf s
  let n := fun o k => leNat ((b.drop o).take k)
  let st := s.rd R.SEC_LC_STATE
  if s.on R.SEC_LC_OWNER = false then 5
  else if n 0 4 ≠ 0x53454354 ∨ sigOk = false then 2
  else if n 8 8 ≠ devId s then 3
  else if n 4 4 ≠ s.rd R.SEC_NONCE_NONCE then 4
  else if ¬ ((n 16 4 = 1 ∧ st = 1) ∨ (n 16 4 = 3 ∧ st = 2) ∨ ((n 16 4 = 2 ∨ n 16 4 = 4) ∧ (st = 1 ∨ st = 2))) then 6
  else if n 16 4 = 4 ∧ n 32 4 < s.rd R.SEC_MINVER_MINVER then 7
  else 1

/-- The commands that start an operation with nothing else, and its OP (R440, R442, R443, R447). -/
def secOps : List (Instr × Nat) :=
  [(.attest, 1), (.advance, 2), (.rekey, 2), (.rma, 2), (.minver, 2), (.enroll, 4), (.keyload, 5), (.keyclr, 6)]

/-- An operation has ended with a result (R453). -/
def Ended (s t : State) (r : Nat) : Prop :=
  t.on R.SEC_STAT_BUSY = false ∧ t.rd R.SEC_RES_OP = s.sec.op % 16 ∧ t.rd R.SEC_RES_RESULT = r ∧ t.sec.op = 0

end Sys2Proof.Spec

/-- A SEC_CMD is ignored while BUSY; else BUSY rises, and after a tamper ATTEST, TOKEN and ENROLL are refused with TAMPER. STAGE zeroes the header of a
slot that may be staged, else ends in SLOT or FORMAT. At its end an operation shows its OP and RESULT: an attestation stands in the buffer; a token gets
the result of R443, renews the nonce, acts only if accepted, and is logged; an end that would report another verdict than the one computed does
not occur, and changes nothing (log entry 59); a staged image is kept if good, else its header is zero; ENROLL, KEYLOAD and
KEYCLR act on owner key and slot. A key rolls over at T and expires after GRACE. A sensor is live and sticks; with PD7 off it is only seen to be active. Other registers and bytes stay. -/
def Obligations.SecureOperations : Prop :=
  (∀ (s : State), ∀ p ∈ Spec.secOps, (s.on R.SEC_STAT_BUSY = true → exec p.1 s = .next s) ∧
    (s.on R.SEC_STAT_BUSY = false → Runs p.1 s fun t => t.on R.SEC_STAT_BUSY = true ∧ t.sec.op = p.2 ∧ t.sec.slots = s.sec.slots ∧
      t.sec.early = (if s.on R.SEC_STAT_TAMP_STK = true ∧ p.2 < 5 then 10 else 0) ∧ SameBytes s t ∧ RegsKept s t [(0xD00004, 0xD00008)])) ∧
  (∀ s : State, let slot := s.rd R.SEC_STG_CFG_SLOT
    let len := s.rd R.SEC_STG_CFG_LEN
    let no : Prop := (s.on R.GLB_BOOT_DONE = true ∧ s.rd R.GLB_BOOT_SLOT = slot) ∨ s.rd R.SCH_EXCH_STAT_STATE ≠ 0
    let kept (t : State) : Prop := t.on R.SEC_STAT_BUSY = true ∧ t.sec.op = 3 ∧
      t.sec.stg = (slot, s.rd64 R.SEC_STG_ADDR_LO_ADDR R.SEC_STG_ADDR_HI_ADDR, len) ∧ RegsKept s t [(0xD00004, 0xD00008)]
    (s.on R.SEC_STAT_BUSY = true → exec .stage s = .next s) ∧
    (s.on R.SEC_STAT_BUSY = false → no → Runs .stage s fun t => kept t ∧ t.sec.early = 8 ∧ SameBytes s t) ∧
    (s.on R.SEC_STAT_BUSY = false → ¬ no → len < 64 ∨ 4194304 < len ∨ s.on R.MEM_STAT_TRAINED = false → Runs .stage s fun t => kept t ∧ t.sec.early = 9 ∧ SameBytes s t) ∧
    (s.on R.SEC_STAT_BUSY = false → ¬ no → 64 ≤ len → len ≤ 4194304 → s.on R.MEM_STAT_TRAINED = true → Runs .stage s fun t => kept t ∧ t.sec.early = 0 ∧
      (∀ a, slotBase slot ≤ a → a < slotBase slot + 64 → memRd t.mem a = 0) ∧ SameBytesBut s t (slotBase slot) (slotBase slot + 64))) ∧
  (∀ (ok : Bool) (s : State), s.on R.SEC_STAT_BUSY = false → exec (.secOperationDone ok) s = .next s) ∧
  (∀ (ok : Bool) (s : State), s.on R.SEC_STAT_BUSY = true →
    let op := s.sec.op
    let c : Instr := .secOperationDone ok
    let res := [(0xD00004, 0xD00008), (0xD00020, 0xD00024)]
    let cmd := leNat (((secBuf s).drop 16).take 4)
    let r := Spec.tokenResult s ok
    let k := s.rd R.SEC_KSEL_SLOT
    let x := keySlot (rollSlot s k) k
    let alg := s.rd R.SEC_KCFG_ALG
    let key : AuthKey := ⟨s.rd R.SEC_KIDL_KIDL,
      ((List.range 8).flatMap fun w => leBytes 4 (s.rd (R.SEC_KEYw_KEY w))).take (if alg < 3 then 32 else 16)⟩
    (s.sec.early ≠ 0 → s.sec.early < 16 → 1 ≤ op ∧ op ≤ 4 → Runs c s fun t => Spec.Ended s t s.sec.early ∧ SameBytes s t ∧
      t.sec.slots = s.sec.slots ∧ t.sec.owner = s.sec.owner ∧ RegsKept s t res) ∧
    (s.sec.early = 0 → (op = 2 ∧ ok ≠ tokenSig s) ∨ (op = 4 ∧ ok ≠ enrollPoint s) ∨ (op = 3 ∧ ok ≠
      imageSig (s.wrMem (slotBase s.sec.stg.1) (dramGet s s.sec.stg.2.1 s.sec.stg.2.2).1) s.sec.stg.1) → exec c s = .next s) ∧
    (op = 1 → s.sec.early = 0 → Runs c s fun t => Spec.Ended s t 1 ∧ SameBytes s t ∧ t.freeCnt = s.freeCnt + 1 ∧
      (∀ w < 32, t.rd (R.SEC_BUFw_WORD w) = leNat (((attestReport s).drop (4 * w)).take 4)) ∧
      (∀ w < 16, t.rd (R.SEC_BUFw_WORD (32 + w)) = leNat (((ecdsaSign s.sec.priv ((Config.free 256 s.freeCnt).toNat % (p256n - 1) + 1)
        (sha256 (attestReport s))).drop (4 * w)).take 4)) ∧
      RegsKept s t ((0xD00100, 0xD001C0) :: res)) ∧
    (op = 2 → s.sec.early = 0 → ok = tokenSig s → Runs c s fun t => Spec.Ended s t r ∧ SameBytes s t ∧ t.freeCnt = s.freeCnt + 1 ∧
      t.rd R.SEC_NONCE_NONCE = (Config.free 32 s.freeCnt).toNat ∧
      t.rd R.SEC_LC_STATE = (if r = 1 ∧ cmd = 1 then 2 else if r = 1 ∧ cmd = 3 then 3 else s.rd R.SEC_LC_STATE) ∧
      t.rd R.SEC_MINVER_MINVER = (if r = 1 ∧ cmd = 4 then leNat (((secBuf s).drop 32).take 4) else s.rd R.SEC_MINVER_MINVER) ∧
      t.sec.owner = (if r = 1 ∧ cmd = 2 then ((secBuf s).drop 32).take 64 else s.sec.owner) ∧
      (r = 1 ∧ cmd = 3 → ∀ j, keySlot t j = { had := (keySlot s j).had || (keySlot s j).cur.isSome }) ∧
      (¬ (r = 1 ∧ cmd = 3) → t.sec.slots = s.sec.slots) ∧
      (∃ e, t.yew.cross = s.yew.cross ++ [e] ∧ e.src = 0x0D ∧ e.code = 1 ∧ e.payload.take 2 = [BitVec.ofNat 8 cmd, BitVec.ofNat 8 r]) ∧
      RegsKept s t ([(0xD00008, 0xD0000C), (0xD00014, 0xD0001C)] ++ res)) ∧
    (op = 3 → s.sec.early = 0 →
      let slot := s.sec.stg.1
      let u := s.wrMem (slotBase slot) (dramGet s s.sec.stg.2.1 s.sec.stg.2.2).1
      let v := imageVerdict u slot ok
      ok = imageSig u slot → Runs c s fun t => Spec.Ended s t (if v = 0 then 1 else if v = 1 then 9 else if v = 2 then 2 else if v = 3 then 3 else 7) ∧
        (v = 0 → SameBytes u t) ∧ (v ≠ 0 → (∀ a, slotBase slot ≤ a → a < slotBase slot + 64 → memRd t.mem a = 0) ∧
          SameBytesBut u t (slotBase slot) (slotBase slot + 64)) ∧ RegsKept s t ((0xF00000, 0xF00018) :: res)) ∧
    (op = 4 → s.sec.early = 0 →
      let may : Prop := ok = enrollPoint s ∧ s.rd R.SEC_LC_STATE = 0 ∧ ok = true
      (may → Runs c s fun t => Spec.Ended s t 1 ∧ t.sec.owner = (secBuf s).take 64 ∧ t.rd R.SEC_LC_STATE = 1 ∧ t.on R.SEC_LC_OWNER = true ∧
        SameBytes s t ∧ RegsKept s t ((0xD00008, 0xD0000C) :: res)) ∧
      (ok = enrollPoint s → ¬ may → Runs c s fun t => Spec.Ended s t (if s.rd R.SEC_LC_STATE = 0 then 9 else 6) ∧ t.sec.owner = s.sec.owner ∧ SameBytes s t ∧
        RegsKept s t res)) ∧
    (op = 5 →
      let bad : Prop := 4 < alg ∨ (x.cur ≠ none ∧ alg ≠ x.alg)
      let roll := s.rd64 R.SEC_KROLL_LO_KROLL R.SEC_KROLL_HI_KROLL
      (bad → Runs c s fun t => Spec.Ended s t 9 ∧ t.sec.slots = s.sec.slots ∧ SameBytes s t ∧ RegsKept s t res) ∧
      (¬ bad → Runs c s fun t => Spec.Ended s t 1 ∧ SameBytes s t ∧ RegsKept s t res ∧ (∀ j, j ≠ k → keySlot t j = keySlot s j) ∧
        (x.cur = none → keySlot t k = { x with alg := alg, cur := some key, had := true }) ∧
        (x.cur ≠ none → s.activeNs < roll → keySlot t k = { x with alg := alg, nxt := some key, roll := roll }) ∧
        (x.cur ≠ none → roll ≤ s.activeNs → (keySlot t k).cur = some key ∧ (keySlot t k).nxt = none ∧ (keySlot t k).ret = x.cur))) ∧
    (op = 6 → Runs c s fun t => Spec.Ended s t 1 ∧ (keySlot t k).cur = none ∧ (keySlot t k).nxt = none ∧ (keySlot t k).ret = none ∧
      (∀ j, j ≠ k → keySlot t j = keySlot s j) ∧ SameBytes s t ∧ RegsKept s t res)) ∧
  (∀ (k : Fin 256) (s : State), let x := keySlot s k
    let grace := min 1000 (s.rd R.SEC_KGRACE_GRACE) * 1000000
    (∀ n, x.nxt = some n → x.roll ≤ s.activeNs → Runs (.keyRollover k) s fun t => t.regs = s.regs ∧ SameBytes s t ∧
      (keySlot t k).cur = some n ∧ (keySlot t k).nxt = none ∧ (keySlot t k).ret = x.cur ∧ (keySlot t k).expiry = x.roll + grace ∧
      (keySlot t k).gone = false ∧ ∀ j, j ≠ k.val → keySlot t j = keySlot s j) ∧
    (x.nxt = none ∨ s.activeNs < x.roll → exec (.keyRollover k) s = .next s) ∧
    (x.ret ≠ none → x.expiry ≤ s.activeNs → Runs (.retiringKeyExpiry k) s fun t => keySlot t k = { x with gone := true } ∧
      (∀ j, j ≠ k.val → keySlot t j = keySlot s j) ∧ t.regs = s.regs ∧ SameBytes s t) ∧
    (x.ret = none ∨ s.activeNs < x.expiry → exec (.retiringKeyExpiry k) s = .next s)) ∧
  (∀ (k : Fin 5) (s : State), (s.pg 7 = false → Runs (.tamperSensor k) s fun t => k.val ∈ t.sec.active ∧ t.prv = s.prv ∧ t.regs = s.regs ∧ SameBytes s t) ∧
    (s.pg 7 = true → Runs (.tamperSensor k) s fun t => (t.rd R.SEC_TAMP_LIVE).testBit k = true ∧
      (t.rd R.SEC_TAMP_STK).testBit k = true ∧ t.on R.SEC_STAT_TAMP_STK = true ∧ t.itemLive 22 k = true ∧ k.val ∈ t.sec.active ∧
      (s.itemLive 22 k = false → t.prv.lines = s.prv.lines ++ [(22, BitVec.ofNat 32 k)]) ∧ t.sec.slots = s.sec.slots ∧ SameBytes s t ∧
      RegsKept s t [(0xD00004, 0xD00008), (0xD00030, 0xD00034)]) ∧
    (Runs (.tamperSensorClear k) s fun t => (t.rd R.SEC_TAMP_LIVE).testBit k = false ∧ t.rd R.SEC_TAMP_STK = s.rd R.SEC_TAMP_STK ∧
      t.itemLive 22 k = false ∧ k.val ∉ t.sec.active ∧ SameBytes s t ∧ RegsKept s t [(0xD00030, 0xD00034)]))

/-! ### Twins (R478 to R501) -/

/-- The frame of a cycle that is due, or of 20 ms without ticks, is sent on PA and PB with its span, its bays' bitmaps, the next sequence number and its tag,
and counted. A received frame that is not from the partner is only taken; one of another version or without a valid tag, from another device, out of order or with a role clash is
counted; one that passes every check shows in the partner's registers, is counted, sets the mode and is held, an extra one as well where it repeats a lost frame. RELEARN forgets the partner. After SILENT the mode
is LOST and no window is open. Windows past their deadline are unchecked. An hour of different identities is reported. Other registers and all bytes
stay. -/
def Obligations.TwinUnit : Prop :=
  (∀ s : State, let en : Prop := s.on R.TWN_CFG_EN = true ∧ s.pg 8 = true
    let kept (t : State) : Prop := SameBytes s t ∧ RegsKept s t [(0xE0000C, 0xE00010), (0xE0002C, 0xE00038), Spec.portRegs 0 0x2C 0x30,
      Spec.portRegs 1 0x2C 0x30, (0xD00004, 0xD00008)]
    let sent (t : State) (a n : Nat) : Prop := t.rd R.TWN_CNT0_TX = (s.rd R.TWN_CNT0_TX + 1) % 65536 ∧ t.twn.sentAt = some s.tb2Ns ∧
      t.net.twnSeq = (s.net.twnSeq + 1) % 2 ^ 32 ∧ t.twn.own.head?.map (fun x => (x.t, x.len)) = some (a, n) ∧
      ∃ f, t.twn.last = some f ∧ f.inst = a ∧ f.len = n ∧ f.extra = false ∧ f.roleB = s.on R.TWN_CFG_ROLE ∧ f.partner.val = partnerNode s % 4096 ∧
        f.head.seq.val = s.net.twnSeq % 2 ^ 32 ∧ f.digest = retainedDigest s ∧
        (∀ p < 2, portUp s p = true →
          let q := queueFor s p (some (s.rd R.NET_BCN_CFG_PCP))
          let b := b5Frame s 0x034F58000002 (netMac s) (Spec.tagged s (b5Head s 2 s.net.twnSeq ++ twinBody s f (Spec.tagField s)))
          Spec.Roomy s p q → queueOf t p q = queueOf s p q ++ [⟨.twin, wireLen b.length + 6, localTag s p s.net.seq, b, 0, none, false⟩])
    (¬ en ∨ nextSpan s = none → exec .twinFrameSend s = .next s) ∧
    (∀ a b, nextSpan s = some (a, b) → spanDue s b = false → exec .twinFrameSend s = .next s) ∧
    (∀ a b, en → nextSpan s = some (a, b) → spanDue s b = true → Runs .twinFrameSend s fun t => kept t ∧ sent t a (b - a) ∧ t.twn.bound = some b ∧
      (∀ f, t.twn.last = some f → ∀ y < 24,
        let l := s.twn.snaps.filter fun x => decide (a ≤ x.t) && decide (x.t < b) && x.core == y / 3
        f.start.getLsbD y = (l.any fun x => x.start.testBit (y % 3)) ∧ f.trip.getLsbD y = (l.any fun x => x.trip.testBit (y % 3)) ∧
          f.valid.getLsbD y = (!l.isEmpty && !(s.on R.PRV_STAT_SAFE && decide (s.twn.safeAt < b)) && l.all fun x => x.valid.testBit (y % 3)))) ∧
    let idle : Prop := en ∧ ¬ (s.pg 1 = true ∧ (espFtg s (s.rd R.TWN_CFG_FTG)).started = true) ∧ ∀ x, s.twn.sentAt = some x → x + 20000000 ≤ s.tb2Ns
    (¬ idle → exec .twinIdleFrameSend s = .next s) ∧
    (idle → Runs .twinIdleFrameSend s fun t => kept t ∧ sent t s.activeNs 0 ∧
      t.twn.bound = none ∧ t.twn.snaps = [] ∧ ∀ f, t.twn.last = some f → f.start = 0 ∧ f.trip = 0 ∧ f.valid = 0)) ∧
  (∀ (f : TwinFrame) (s : State), let h := f.head
    let mine : Prop := s.on R.TWN_CFG_EN = true ∧ s.pg 8 = true ∧ h.port.val ≠ 2 ∧ h.node.val = partnerNode s ∧ h.version = 1
    let id := s.rd64 R.TWN_PDEVID_LO_PDEVID R.TWN_PDEVID_HI_PDEVID
    let known : Prop := mine ∧ b5Auth s h = true ∧ (s.on R.TWN_STAT_LEARNED = true → id = h.devId % 2 ^ 64)
    let clash : Prop := f.roleB = s.on R.TWN_CFG_ROLE ∨ f.partner.val ≠ ownNode s
    let regs := [(0xE0000C, 0xE00018), (0xE00038, 0xE0003C)]
    let r := s.takeFrame .twn
    let other := { r with net := { r.net with b5Other := r.net.b5Other + 1 } }
    let off : Prop := s.on R.TWN_CFG_EN = false ∨ h.port.val = 2
    let no (t : State) : Prop := t.twn = s.twn ∧ SameBytes s t ∧ t.rd R.NET_BCN_CFG_BCNBAD = min (s.rd R.NET_BCN_CFG_BCNBAD + 1) 65535 ∧
      RegsKept s t [(0x400018, 0x40001C)]
    (s.pg 8 = false → exec (.twinFrameReceive f) s = .next r) ∧
    (s.pg 8 = true → off → b5Auth s h = true → h.version ≠ 1 → exec (.twinFrameReceive f) s = .next other) ∧
    (s.pg 8 = true → off → b5Auth s h = false → Runs (.twinFrameReceive f) s no) ∧
    (s.pg 8 = true → off → h.version = 1 → b5Auth s h = true → exec (.twinFrameReceive f) s = .next r) ∧
    (s.pg 8 = true → ¬ off → h.node.val ≠ partnerNode s → exec (.twinFrameReceive f) s = .next r) ∧
    (s.pg 8 = true → ¬ off → h.node.val = partnerNode s → h.version ≠ 1 → exec (.twinFrameReceive f) s = .next other) ∧
    (mine → b5Auth s h = false → Runs (.twinFrameReceive f) s no) ∧
    (mine → b5Auth s h = true → s.on R.TWN_STAT_LEARNED = true → id ≠ h.devId % 2 ^ 64 → Runs (.twinFrameReceive f) s fun t =>
      t.rd R.TWN_CNT2_BAD = min (s.rd R.TWN_CNT2_BAD + 1) 255 ∧ t.twn.heard = s.twn.heard ∧ t.twn.part = s.twn.part ∧
      t.twn.accepted = false ∧ (s.twn.accepted = true → t.on R.TWN_STAT_PCHG_STK = true ∧
        ∃ e, t.yew.cross = s.yew.cross ++ [e] ∧ e.src = 0x0E ∧ e.code = 4) ∧ (s.twn.accepted = false → t.twn = s.twn ∧ t.yew.cross = s.yew.cross) ∧ SameBytes s t ∧ RegsKept s t regs) ∧
    (known → seqAhead s h.seq = false → Runs (.twinFrameReceive f) s fun t => t.twn = s.twn ∧ t.on R.TWN_STAT_LEARNED = true ∧
      t.rd R.TWN_CNT2_BAD = min (s.rd R.TWN_CNT2_BAD + 1) 255 ∧ SameBytes s t ∧ RegsKept s t regs) ∧
    (known → seqAhead s h.seq = true → clash → Runs (.twinFrameReceive f) s fun t => t.on R.TWN_STAT_ROLE_STK = true ∧
      t.rd R.TWN_CNT2_ROLECLASH = min (s.rd R.TWN_CNT2_ROLECLASH + 1) 255 ∧ t.twn.heard = s.twn.heard ∧ t.twn.part = s.twn.part ∧
      SameBytes s t ∧ RegsKept s t regs) ∧
    (known → seqAhead s h.seq = true → ¬ clash → Runs (.twinFrameReceive f) s fun t =>
      t.on R.TWN_STAT_LEARNED = true ∧ t.rd64 R.TWN_PDEVID_LO_PDEVID R.TWN_PDEVID_HI_PDEVID = h.devId % 2 ^ 64 ∧
      t.rd R.TWN_PHEALTH_HEALTH = f.health.toNat ∧ t.rd R.TWN_PSTART_START = f.start.toNat ∧ t.rd R.TWN_PTRIP_TRIP = f.trip.toNat ∧
      t.rd R.TWN_PVALID_VALID = f.valid.toNat ∧ t.rd R.TWN_PREV_REV = h.ifrev % 65536 ∧
      (∀ w < 8, t.rd (R.TWN_PIDw_PID w) = h.ident / 2 ^ (32 * w) % 2 ^ 32) ∧
      t.rd R.TWN_CNT0_RX = (s.rd R.TWN_CNT0_RX + 1) % 65536 ∧ t.twn.heard = some s.tb2Ns ∧ t.twn.seq = some h.seq.val ∧
      t.twn.pident = h.ident ∧ t.twn.lastAt = some s.tb2Ns ∧ t.twn.accepted = true ∧
      t.rd R.TWN_STAT_XMODE = (if h.ifrev % 65536 ≠ s.img.ifrev % 65536 then 4
        else if h.ident ≠ s.img.ident ∨ partnerClash s = true then 3 else 2) ∧
      (f.extra = false ∨ (∀ x ∈ s.twn.part, x.t ≠ f.inst ∨ x.len ≠ f.len) → t.twn.part.head? = some ⟨f.inst, f.len, f.start.toNat, f.trip.toNat, f.valid.toNat, f.digest⟩) ∧
      (f.extra = true → (∃ x ∈ s.twn.part, x.t = f.inst ∧ x.len = f.len) → t.twn.part = s.twn.part) ∧ SameBytes s t ∧ RegsKept s t [(0xE0000C, 0xE0003C), (0xE00100, 0xE00120)])) ∧
  (∀ s : State, (Runs .twinRelearn s fun t => t.on R.TWN_STAT_LEARNED = false ∧
      t.twn = { s.twn with heard := none, seq := none, since := s.tb2Ns } ∧ SameBytes s t ∧ RegsKept s t [(0xE0000C, 0xE00010)]) ∧
    (s.on R.TWN_CFG_EN = true → twinLost s = true → Runs .twinSilentExpiry s fun t => t.rd R.TWN_STAT_XMODE = 5 ∧ t.twn.wins = [] ∧
      (mget t.sch.live (ptTwin 4) (0, 0) = (5, qI)) ∧ SameBytes s t ∧ RegsKept s t [(0xE0000C, 0xE00010)] ∧
      (s.rd R.TWN_STAT_XMODE ≠ 5 → ∃ e, t.yew.cross = s.yew.cross ++ [e] ∧ e.src = 0x0E ∧ e.code = 1)) ∧
    (s.on R.TWN_CFG_EN = false ∨ twinLost s = false → exec .twinSilentExpiry s = .next s) ∧
    (Runs .twinWindowDeadline s fun t =>
      let late := fun w : TwWin => w.t + 4 * w.len + clamp 1 100 (s.rd R.TWN_CFG_LATE) * 1000000
      (∀ w, w ∈ t.twn.wins ↔ w ∈ s.twn.wins ∧ s.fabTime 4 / nsU < late w) ∧
      (s.rd R.TWN_STAT_XMODE = 2 ∨ s.rd R.TWN_STAT_XMODE = 3 → t.rd R.TWN_CNT1_UNCHK =
        min (s.rd R.TWN_CNT1_UNCHK + (s.twn.wins.filter fun w => decide (late w ≤ s.fabTime 4 / nsU)).length) 65535) ∧
      SameBytes s t ∧ RegsKept s t [(0xE00034, 0xE00038)]) ∧
    (∀ m, s.twn.mixed = some m → m + 3600000000000 ≤ s.tb2Ns → Runs .twnMixed s fun t => t.twn.mixed = some (m + 3600000000000) ∧
      (∃ e, t.yew.cross = s.yew.cross ++ [e] ∧ e.src = 0x0E ∧ e.code = 7 ∧
        e.payload = (leBytes 32 s.img.ident).take 12 ++ (leBytes 32 s.twn.pident).take 12) ∧ t.regs = s.regs ∧ SameBytes s t) ∧
    (s.twn.mixed = none → exec .twnMixed s = .next s) ∧
    (∀ m, s.twn.mixed = some m → s.tb2Ns < m + 3600000000000 → exec .twnMixed s = .next s))
end

