-- ==== Sys2Proof/Laws/Maps.lean ====
section
/-! SUPPORT. The laws of the sparse sorted maps: what a read sees after a write or a removal, and that the order is kept. -/

namespace Sys2Proof.Machine

variable {α : Type}

@[simp] theorem mget_nil (k : Nat) (d : α) : mget [] k d = d := rfl

@[simp] theorem mget_mput_self (m : List (Nat × α)) (k : Nat) (v d : α) : mget (mput m k v) k d = v := by
  induction m with
  | nil => simp [mput, mget]
  | cons e t ih =>
    obtain ⟨a, x⟩ := e
    simp only [mput]
    split
    · simp [mget]
    · split
      · simp [mget]
      · have : a ≠ k := fun h => by omega
        simp [mget, this, ih]

theorem mget_mput_ne (m : List (Nat × α)) {k j : Nat} (v d : α) (h : j ≠ k) : mget (mput m k v) j d = mget m j d := by
  induction m with
  | nil => simp [mput, mget, Ne.symm h]
  | cons e t ih =>
    obtain ⟨a, x⟩ := e
    simp only [mput]
    split
    · simp [mget, Ne.symm h]
    · split
      · subst_vars; simp [mget, Ne.symm h]
      · simp [mget, ih]

@[simp] theorem mget_mdel_self (m : List (Nat × α)) (k : Nat) (d : α) : mget (mdel m k) k d = d := by
  induction m with
  | nil => rfl
  | cons e t ih =>
    obtain ⟨a, x⟩ := e
    simp only [mdel]
    split
    · exact ih
    · simp [mget, *]

theorem mget_mdel_ne (m : List (Nat × α)) {k j : Nat} (d : α) (h : j ≠ k) : mget (mdel m k) j d = mget m j d := by
  induction m with
  | nil => rfl
  | cons e t ih =>
    obtain ⟨a, x⟩ := e
    simp only [mdel]
    split
    · have : a ≠ j := fun e => h (by omega)
      simp [mget, this, ih]
    · simp [mget, ih]

@[simp] theorem mput_mput_self (m : List (Nat × α)) (k : Nat) (v w : α) : mput (mput m k v) k w = mput m k w := by
  induction m with
  | nil => simp [mput]
  | cons e t ih =>
    obtain ⟨a, x⟩ := e
    simp only [mput]
    split
    · simp [mput]
    · split
      · simp [mput]
      · simp [mput, *]

/-- A map is sorted when each key lies below all that follow. -/
theorem msorted_iff (m : List (Nat × α)) : msorted m = true ↔ m.Pairwise fun a b => a.1 < b.1 := by
  induction m with
  | nil => simp [msorted]
  | cons e t ih =>
    obtain ⟨a, x⟩ := e
    cases t with
    | nil => simp [msorted]
    | cons f u =>
      obtain ⟨b, y⟩ := f
      simp only [msorted, Bool.and_eq_true, decide_eq_true_eq] at ih ⊢
      rw [ih, List.pairwise_cons (a := (a, x))]
      constructor
      · rintro ⟨h, p⟩
        refine ⟨fun e he => ?_, p⟩
        rcases List.mem_cons.mp he with rfl | he
        · exact h
        · exact h.trans (List.rel_of_pairwise_cons p he)
      · rintro ⟨h, p⟩
        exact ⟨h (b, y) (List.mem_cons_self ..), p⟩

theorem mem_mput {m : List (Nat × α)} {k : Nat} {v : α} {e : Nat × α} (h : e ∈ mput m k v) : e = (k, v) ∨ e ∈ m := by
  induction m with
  | nil => simpa [mput] using h
  | cons f t ih =>
    obtain ⟨a, x⟩ := f
    simp only [mput] at h
    split at h
    · simpa using h
    · split at h
      · rcases List.mem_cons.mp h with rfl | h
        · exact .inl rfl
        · exact .inr (List.mem_cons_of_mem _ h)
      · rcases List.mem_cons.mp h with rfl | h
        · exact .inr (List.mem_cons_self ..)
        · exact (ih h).imp_right (List.mem_cons_of_mem _)

theorem mem_mdel {m : List (Nat × α)} {k : Nat} {e : Nat × α} (h : e ∈ mdel m k) : e ∈ m := by
  induction m with
  | nil => exact h
  | cons f t ih =>
    obtain ⟨a, x⟩ := f
    simp only [mdel] at h
    split at h
    · exact List.mem_cons_of_mem _ (ih h)
    · rcases List.mem_cons.mp h with rfl | h
      · exact List.mem_cons_self ..
      · exact List.mem_cons_of_mem _ (ih h)

theorem msorted_mput {m : List (Nat × α)} (h : msorted m = true) (k : Nat) (v : α) : msorted (mput m k v) = true := by
  rw [msorted_iff] at h ⊢
  induction m with
  | nil => simp [mput]
  | cons f t ih =>
    obtain ⟨a, x⟩ := f
    rw [List.pairwise_cons] at h
    simp only [mput]
    split
    · refine List.pairwise_cons.mpr ⟨fun e he => ?_, List.pairwise_cons.mpr h⟩
      rcases List.mem_cons.mp he with rfl | he
      · assumption
      · have := h.1 e he
        simp only at this ⊢
        omega
    · split
      · subst_vars
        exact List.pairwise_cons.mpr h
      · refine List.pairwise_cons.mpr ⟨fun e he => ?_, ih h.2⟩
        rcases mem_mput he with rfl | he
        · simp only
          omega
        · exact h.1 e he

theorem msorted_mdel {m : List (Nat × α)} (h : msorted m = true) (k : Nat) : msorted (mdel m k) = true := by
  rw [msorted_iff] at h ⊢
  induction m with
  | nil => exact h
  | cons f t ih =>
    obtain ⟨a, x⟩ := f
    rw [List.pairwise_cons] at h
    simp only [mdel]
    split
    · exact ih h.2
    · exact List.pairwise_cons.mpr ⟨fun e he => h.1 e (mem_mdel he), ih h.2⟩

theorem msorted_filter {m : List (Nat × α)} (h : msorted m = true) (p : Nat × α → Bool) : msorted (m.filter p) = true := by
  rw [msorted_iff] at h ⊢
  exact h.filter p

end Sys2Proof.Machine
end

