-- ==== Sys2Proof/Laws/Issue.lean ====
section
/-! SUPPORT. What issuing a syllable does, once for every syllable: with nothing in its way it retires with exactly its effects; an
exception voids it. -/

namespace Sys2Proof.Machine

/-- Where a program is ready, its registers are those that run. -/
theorem Ready.rfOf {c : Instr} {s : State} {k : CoreSel} {last : Bool} {f : RegFile} {l : List Eff} (h : Ready c s k last f l) :
    rfOf s k = some f := by
  cases k with
  | pe n => obtain ⟨x, hx, rfl, -⟩ := h; simp [Machine.rfOf, hx]
  | sl => obtain ⟨h1, ⟨x, hx, rfl⟩, -⟩ := h; simp [Machine.rfOf, h1, hx]

/-- A running program's registers. -/
theorem Running.rfOf {c : Instr} {s : State} {k : CoreSel} {last : Bool} {f : RegFile} (h : Running c s k last f) : Machine.rfOf s k = some f := by
  cases k with
  | pe n => obtain ⟨x, hx, rfl, -⟩ := h; simp [Machine.rfOf, hx]
  | sl => obtain ⟨h1, ⟨x, hx, rfl⟩, -⟩ := h; simp [Machine.rfOf, h1, hx]

@[simp] theorem core_setCore (s : State) (n : Nat) (c : Core) : (s.setCore n c).core n = c := by
  simp [State.core, State.setCore]

@[simp] theorem setCore_setCore (s : State) (n : Nat) (c d : Core) : (s.setCore n c).setCore n d = s.setCore n d := by
  simp [State.setCore]

@[simp] theorem core_modCore (s : State) (n : Nat) (g : Core → Core) : (s.modCore n g).core n = g (s.core n) := core_setCore s n _

@[simp] theorem modCore_modCore (s : State) (n : Nat) (g h : Core → Core) : (s.modCore n g).modCore n h = s.modCore n (h ∘ g) := by
  simp [State.modCore]

/-! ### The fetch -/

/-- What a fetch that meets no uncorrectable word leaves as it was. -/
structure FetchKeeps (s t : State) : Prop where
  ec : t.ec = s.ec
  mem : t.mem = s.mem
  img : t.img = s.img
  sch : t.sch = s.sch

theorem FetchKeeps.refl (s : State) : FetchKeeps s s := ⟨rfl, rfl, rfl, rfl⟩

theorem FetchKeeps.core {s t : State} (h : FetchKeeps s t) (n : Nat) : t.core n = s.core n := by simp [State.core, h.ec]

theorem FetchKeeps.fetchOk {s t : State} (h : FetchKeeps s t) (k : CoreSel) (pc : Nat) : fetchOk t k pc = fetchOk s k pc := by
  cases k <;> simp only [Machine.fetchOk, progLen, State.rdW, State.rdMem, h.mem, h.img] <;> rfl

/-- Reading good words, corrected or not. -/
theorem ecReads_keeps (n : Nat) (l : List Nat) (s : State) (h : (l.any fun a => s.eccBad.contains a) = false) :
    FetchKeeps s (ecReads s n l).1 := by
  induction l generalizing s with
  | nil => exact FetchKeeps.refl s
  | cons a t ih =>
    simp only [List.any_cons, Bool.or_eq_false_iff] at h
    unfold ecReads ecRead
    simp only [h.1, Bool.false_eq_true, if_false]
    by_cases hs : s.eccSoft.contains a = true
    · simp only [hs, if_true]
      have hk := ih ((((s.sat1 (R.ELCn_ECC_CORR n)).wrb (R.ELCn_STAT_ECC_STK n) true)).raiseLine 0
        (ecMemNo n a * 2 ^ 28 + n * 2 ^ 25 + (a - ecInstrBase n) % 0x40000 / 4)) h.2
      exact ⟨hk.ec, hk.mem, hk.img, hk.sch⟩
    · simp only [hs, Bool.false_eq_true, if_false, if_true]
      exact ih s h.2

/-- The fetch of a program address without an uncorrectable word. -/
theorem fetch_keeps {s : State} {k : CoreSel} {pc : Nat} (h : fetchBad s k pc = false) : FetchKeeps s (fetch s k pc) := by
  cases k with
  | pe n => exact ecReads_keeps n.val _ s h
  | sl =>
    simp only [fetchBad, codeWords, List.any_cons, List.any_nil, Bool.or_false] at h
    unfold fetch scRead
    simp only [h, Bool.false_eq_true, if_false]
    split <;> exact ⟨rfl, rfl, rfl, rfl⟩

/-- The scheme cores' fetch touches no register. -/
theorem fetch_sl_regs {s : State} {pc : Nat} (h : fetchBad s .sl pc = false) : (fetch s .sl pc).regs = s.regs := by
  simp only [fetchBad, codeWords, List.any_cons, List.any_nil, Bool.or_false] at h
  unfold fetch scRead
  simp only [h, Bool.false_eq_true, if_false]
  split <;> rfl

/-- What a section's syllable fetches leaves its core as it was. -/
theorem fetchedBy_keeps {s : State} {n : Fin 8} {x : Section} (h : Fetched s n x) : FetchKeeps s (fetchedBy s n x) := by
  unfold fetchedBy
  split
  · exact fetch_keeps (h ‹_›).1
  · exact FetchKeeps.refl s

/-! ### Effects -/

theorem flowOf_plain_hasTickEnd {l : List Eff} (h : l.all plainEff = true) : hasTickEnd l = false := by
  induction l with
  | nil => rfl
  | cons e t ih =>
    simp only [List.all_cons, Bool.and_eq_true] at h
    have := ih h.2
    cases e <;> simp_all [hasTickEnd, plainEff]

theorem plain_withCycle (t : Nat) (l : List Eff) : (l.map (withCycle t)).all plainEff = l.all plainEff := by
  induction l with
  | nil => rfl
  | cons e r ih => cases e <;> simp_all [withCycle, plainEff]

/-- Plain effects outside the registers are their stores. -/
theorem foldl_peOutside {l : List Eff} (h : l.all plainEff = true) (s : State) (n : Nat) (x : Section) :
    l.foldl (fun a e => peOutside a n x e) s = storesOf s l := by
  induction l generalizing s with
  | nil => rfl
  | cons e t ih =>
    simp only [List.all_cons, Bool.and_eq_true] at h
    simp only [List.foldl_cons, storesOf]
    cases e <;> first | exact ih h.2 _ | (simp [plainEff] at h)

/-- Effects that are no stores leave the scheme cores' state but for the registers. -/
theorem foldl_slEff {l : List Eff} (h : (l.all fun e => plainEff e && !isStore e) = true)
    (s : State) (x : TaskRun) (hx : s.sch.cur = some x) :
    l.foldl slEff s = { s with sch := { s.sch with cur := some { x with rf := l.foldl RegFile.eff x.rf } } } := by
  induction l generalizing s x with
  | nil =>
    have : s = { s with sch := { s.sch with cur := some x } } := by rw [← hx]
    exact this
  | cons e t ih =>
    simp only [List.all_cons, Bool.and_eq_true] at h
    simp only [List.foldl_cons]
    have h2 (y : TaskRun) (hy : (slEff s e).sch.cur = some y) := ih (by simpa only [Bool.and_eq_true] using h.2) (slEff s e) y hy
    cases e with
    | store a v => exact absurd h.1.2 (by simp [isStore])
    | verdict o v => exact absurd h.1.1 (by simp [plainEff])
    | dose o v => exact absurd h.1.1 (by simp [plainEff])
    | tickEnd => exact absurd h.1.1 (by simp [plainEff])
    | setS r v => rw [h2 { x with rf := x.rf.eff (.setS r v) } (by simp only [slEff, hx, Option.map_some])]; rfl
    | setP r v => rw [h2 { x with rf := x.rf.eff (.setP r v) } (by simp only [slEff, hx, Option.map_some])]; rfl
    | setC r v => rw [h2 { x with rf := x.rf.eff (.setC r v) } (by simp only [slEff, hx, Option.map_some])]; rfl
    | flow g => rw [h2 { x with rf := x.rf.eff (.flow g) } (by simp only [slEff, hx, Option.map_some])]; rfl
    | cycle g => rw [h2 { x with rf := x.rf.eff (.cycle g) } (by simp only [slEff, hx, Option.map_some])]; rfl

/-! ### Issue -/

/-- Is the bundle of a running section fetched already? -/
theorem midBundle_pe {s : State} {n : Fin 8} {x : Section} (h : (s.core n.val).run = some x) :
    midBundle s (.pe n) = !x.syls.isEmpty := by simp [midBundle, h]

/-- A syllable of a section whose code is fetched joins its bundle with what it answers. -/
theorem issue_pe {c : Instr} {s : State} {n : Fin 8} {x : Section} (hx : (s.core n.val).run = some x) (hf : Fetched s n x)
    (hj : fitsBundle x c = true)
    (last g : Bool) (r : RegFile → SylRes) (a : Except Nat (List Eff)) (hr : (if g then r x.rf else (.ok [], s)) = (a, s)) :
    issue c s (.pe n) last g r = peIssue c n last (a, fetchedBy s n x) := by
  unfold issue fetchedBy
  simp only [rfOf, hx, Option.map_some, midBundle_pe hx, hr, joins, Option.all_some, hj, Bool.not_true, Bool.false_eq_true, if_false]
  by_cases h : x.syls = []
  · obtain ⟨h1, h2⟩ := hf h
    simp [h, h1, h2]
  · have : x.syls.isEmpty = false := by cases hh : x.syls <;> simp_all
    simp [h, this]

/-- A bundle within the budget of class 0 does what `peRetire` says (R185). -/
theorem peCommit_within {s : State} {n : Fin 8} {x : Section} (hx : (s.core n.val).run = some x)
    (hc : c0Cycles (s.core n.val) x < c0Budget) : peCommit s n = peRetire s n := by
  unfold peCommit
  simp only [hx]
  rw [if_neg (Nat.lt_asymm hc), if_neg (fun h => Nat.ne_of_lt hc h.1)]

/-- A bundle of plain effects, complete, whose program goes on. -/
theorem peCommit_plain {s : State} {n : Fin 8} {x : Section} (hx : (s.core n.val).run = some x) (he : x.exc = none) {l : List Eff}
    (hl : x.buf.map (withCycle (x.pipe.issueAt x.syls)) = l) (hp : l.all plainEff = true)
    (hok : fetchOk s (.pe n) (regsAfter x.rf l).pc = true) (hc : c0Cycles (s.core n.val) x < c0Budget) :
    peCommit s n = (feedC0 (storesOf s l)).modCore n.val fun d => { d with run := some { x.issued with rf := regsAfter x.rf l } } := by
  rw [peCommit_within hx hc]
  unfold peRetire
  simp only [hx, he, hl]
  rw [foldl_peOutside hp, flowOf_plain_hasTickEnd hp]
  have hgo : fetchGoes s (.pe n) (regsAfter x.rf l).pc = true := by simp [fetchGoes, hok]
  exact (if_neg (by simp)).trans (if_pos hgo)

/-- A syllable whose program is ready retires with its effects, and nothing else changes. -/
theorem issue_retired {c : Instr} {s : State} {k : CoreSel} {last : Bool} {f : RegFile} {l : List Eff} (h : Ready c s k last f l)
    (g : Bool) (r : RegFile → SylRes) (hr : (if g then r f else (.ok [], s)) = (.ok l, s)) :
    issue c s k last g r = retired c s k last l := by
  cases k with
  | pe n =>
    obtain ⟨x, hx, rfl, he, hf, ⟨hj, hc⟩, hl⟩ := h
    rw [issue_pe hx hf hj last g r (.ok l) hr]
    have hk := fetchedBy_keeps hf
    have hx1 : ((fetchedBy s n x).core n.val).run = some x := by rw [hk.core]; exact hx
    have hmod : ((fetchedBy s n x).modCore n.val fun c' => { c' with run := c'.run.map fun x' =>
          { x' with syls := x'.syls ++ [sylTime x'.rf c], buf := x'.buf ++ l } })
        = (fetchedBy s n x).modCore n.val fun d => { d with run := some { x with syls := askedWith x c, buf := x.buf ++ l } } := by
      simp only [State.modCore, hx1, Option.map_some, askedWith]
    have hm : peIssue c n last (.ok l, fetchedBy s n x) = if last then peCommit ((fetchedBy s n x).modCore n.val fun d =>
          { d with run := some { x with syls := askedWith x c, buf := x.buf ++ l } }) n
        else (fetchedBy s n x).modCore n.val fun d => { d with run := some { x with syls := askedWith x c, buf := x.buf ++ l } } := by
      simp only [peIssue, hmod, core_modCore]
    rw [hm]
    simp only [retired, hx]
    cases last with
    | false => rfl
    | true =>
      obtain ⟨hp, hpc⟩ := hl rfl
      have hp2 : (bundleEffs x c l).all plainEff = true := by rw [bundleEffs, plain_withCycle]; exact hp
      simp only [if_true]
      exact peCommit_plain (x := { x with syls := askedWith x c, buf := x.buf ++ l }) (by rw [core_modCore]) he rfl hp2
        ((hk.fetchOk (.pe n) _).trans hpc) (by rw [core_modCore, hk.core]; exact hc rfl)
  | sl =>
    obtain ⟨hr1, ⟨x, hx, rfl⟩, ⟨hb, hok⟩, hp, hpc⟩ := h
    have hk := fetch_keeps hb
    have hst : (fetch s .sl x.rf.pc).rd R.SCH_STAT_STATE = 1 := by
      unfold State.rd; rw [fetch_sl_regs hb]; exact hr1
    have hcur : (fetch s .sl x.rf.pc).sch.cur = some x := by rw [hk.sch]; exact hx
    unfold issue
    simp only [Machine.rfOf, hr1, if_true, hx, Option.map_some, joins, midBundle, Bool.false_eq_true, if_false, hb, hok, Bool.not_true,
      Bool.and_false, hr]
    unfold slIssue
    simp only [hst, ne_eq, not_true_eq_false, if_false]
    rw [foldl_slEff hp _ x hcur]
    have hfl : ∀ y : State, y.mem = s.mem → y.img = s.img → fetchOk y .sl (regsAfter x.rf l).pc = true := fun y h1 h2 => by
      rw [← hpc]; simp only [Machine.fetchOk, progLen, State.rdW, State.rdMem, h1, h2]; rfl
    simp only [retired, hx]
    have hgo : ∀ y : State, y.mem = s.mem → y.img = s.img → fetchGoes y .sl (regsAfter x.rf l).pc = true := fun y h1 h2 => by
      simp [fetchGoes, hfl y h1 h2]
    exact if_pos (hgo _ hk.mem hk.img)

/-- A syllable that raises an exception voids its bundle, or ends its task run. -/
theorem issue_raised {c : Instr} {s : State} {k : CoreSel} {f : RegFile} {last : Bool} (h : Running c s k last f) (cause : Nat)
    (r : RegFile → SylRes) (hr : r f = (.error cause, s)) :
    issue c s k last true r = raised c s k last cause := by
  cases k with
  | pe n =>
    obtain ⟨x, hx, rfl, he, hf, hj, hc⟩ := h
    rw [issue_pe hx hf hj last true r (.error cause) (by simpa using hr)]
    have hk := fetchedBy_keeps hf
    have hx1 : ((fetchedBy s n x).core n.val).run = some x := by rw [hk.core]; exact hx
    have hmod : ((fetchedBy s n x).modCore n.val fun c' => { c' with run := c'.run.map fun x' =>
          { x' with syls := x'.syls ++ [sylTime x'.rf c], exc := some (x'.exc.getD cause) } })
        = (fetchedBy s n x).modCore n.val fun d => { d with run := some { x with syls := askedWith x c, exc := some cause } } := by
      simp only [State.modCore, hx1, Option.map_some, askedWith, he, Option.getD_none]
    have hm : peIssue c n last (.error cause, fetchedBy s n x) = if last then peCommit ((fetchedBy s n x).modCore n.val fun d =>
          { d with run := some { x with syls := askedWith x c, exc := some cause } }) n
        else (fetchedBy s n x).modCore n.val fun d => { d with run := some { x with syls := askedWith x c, exc := some cause } } := by
      simp only [peIssue, hmod, core_modCore]
    rw [hm]
    simp only [raised, hx]
    cases last with
    | false => rfl
    | true =>
      have hw : peCommit ((fetchedBy s n x).modCore n.val fun d => { d with run := some { x with syls := askedWith x c, exc := some cause } }) n
          = peRetire ((fetchedBy s n x).modCore n.val fun d => { d with run := some { x with syls := askedWith x c, exc := some cause } }) n :=
        peCommit_within (x := { x with syls := askedWith x c, exc := some cause }) (by rw [core_modCore])
          (by rw [core_modCore, hk.core]; exact hc rfl)
      simp only [if_true, hw, peRetire, core_modCore, modCore_modCore]; rfl
  | sl =>
    obtain ⟨hr1, ⟨x, hx, rfl⟩, hb, hok⟩ := h
    unfold issue
    simp only [Machine.rfOf, hr1, if_true, hx, Option.map_some, joins, midBundle, Bool.false_eq_true, if_false, hb, hok, Bool.not_true,
      Bool.and_false, hr, slIssue, raised]

end Sys2Proof.Machine
end

