-- ==== Sys2Proof/Laws/Memory.lean ====
section
/-! SUPPORT. The laws of memory: a read after a write, and that every memory operation keeps the canonical form. -/

namespace Sys2Proof.Machine

/-- A byte reads what was written to it, and every other byte what it held. -/
theorem memRd_memWr (m : List Host.Cell) (a b : Nat) (v : Byte) : memRd (memWr m a v) b = if b = a then v else memRd m b := by
  unfold memRd memWr
  split
  · split
    · subst_vars; simp
    · exact mget_mdel_ne _ _ ‹_›
  · split
    · subst_vars; simp
    · exact mget_mput_ne _ _ _ ‹_›

/-- Stored bytes leave every byte outside them as it was. -/
theorem memRd_memWrs_out (l : List Byte) (m : List Host.Cell) (a b : Nat) (h : b < a ∨ a + l.length ≤ b) :
    memRd (memWrs m a l) b = memRd m b := by
  induction l generalizing m a with
  | nil => rfl
  | cons v t ih =>
    simp only [List.length_cons] at h
    rw [memWrs, ih _ _ (by omega), memRd_memWr, if_neg (by omega)]

/-- Stored bytes read back. -/
theorem memRd_memWrs_in (l : List Byte) (m : List Host.Cell) (a k : Nat) (h : k < l.length) :
    memRd (memWrs m a l) (a + k) = l[k] := by
  induction l generalizing m a k with
  | nil => simp at h
  | cons v t ih =>
    cases k with
    | zero => rw [memWrs, memRd_memWrs_out _ _ _ _ (by omega), memRd_memWr]; simp
    | succ k =>
      have := ih (memWr m a v) (a + 1) k (by simpa using h)
      simpa [memWrs, Nat.add_assoc, Nat.add_comm 1 k] using this

theorem wf_nil : Memory.wf [] := ⟨rfl, by simp⟩

/-- A write of one byte keeps the canonical form. -/
theorem wf_memWr {m : List Host.Cell} (h : Memory.wf m) (a : Nat) (v : Byte) : Memory.wf (memWr m a v) := by
  unfold memWr
  split
  · exact ⟨msorted_mdel h.1 a, fun e he => h.2 e (mem_mdel he)⟩
  · refine ⟨msorted_mput h.1 a v, fun e he => ?_⟩
    rcases mem_mput he with rfl | he
    · assumption
    · exact h.2 e he

theorem wf_memWrs {m : List Host.Cell} (h : Memory.wf m) (a : Nat) (l : List Byte) : Memory.wf (memWrs m a l) := by
  induction l generalizing m a with
  | nil => exact h
  | cons v t ih => exact ih (wf_memWr h a v) (a + 1)

theorem wf_filter {m : List Host.Cell} (h : Memory.wf m) (p : Host.Cell → Bool) : Memory.wf (m.filter p) :=
  ⟨msorted_filter h.1 p, fun e he => h.2 e (List.mem_of_mem_filter he)⟩

theorem wf_memClear {m : List Host.Cell} (h : Memory.wf m) (lo hi : Nat) : Memory.wf (memClear m lo hi) := wf_filter h _

/-- Writes one after another keep the canonical form. -/
theorem wf_foldl {β : Type} {f : List Host.Cell → β → List Host.Cell} (hf : ∀ m b, Memory.wf m → Memory.wf (f m b)) (l : List β)
    {m : List Host.Cell} (h : Memory.wf m) : Memory.wf (l.foldl f m) := by
  induction l generalizing m with
  | nil => exact h
  | cons b t ih => exact ih (hf m b h)

theorem wf_wrMem {s : State} (h : Memory.wf s.mem) (a : Nat) (l : List Byte) : Memory.wf (s.wrMem a l).mem := wf_memWrs h a l

theorem wf_putBytes {s : State} (h : Memory.wf s.mem) (a : Nat) (l : List Byte) : Memory.wf (s.putBytes a l).mem := wf_memWrs h a l

theorem wf_wrW {s : State} (h : Memory.wf s.mem) (a : Nat) (v : Word) : Memory.wf (s.wrW a v).mem := wf_memWrs h a _

end Sys2Proof.Machine
end

