-- ==== Sys2Proof/Laws/Registers.lean ====
section
/-! SUPPORT. The laws of register fields: a read after a write of the same field and of another one. -/

namespace Sys2Proof.Machine

/-- A field reads the low bits of what was written to it. -/
@[simp] theorem rd_wr_self (s : State) (f : Fld) (v : Nat) : (s.wr f v).rd f = v % 2 ^ f.w := by
  unfold State.rd State.wr
  simp only
  split
  · rw [mget_mdel_self]; exact Eq.symm ‹_›
  · simp

/-- A write leaves a field with another key as it was. -/
theorem rd_wr_ne (s : State) {f g : Fld} (v : Nat) (h : g.key ≠ f.key) : (s.wr f v).rd g = s.rd g := by
  unfold State.rd State.wr
  simp only
  split
  · exact mget_mdel_ne _ _ h
  · exact mget_mput_ne _ _ _ h

@[simp] theorem on_wrb_self (s : State) (f : Fld) (b : Bool) (h : f.w = 1) : (s.wrb f b).on f = b := by
  unfold State.on State.wrb
  rw [rd_wr_self, h]
  cases b <;> rfl

end Sys2Proof.Machine
end

