-- ==== Sys2Proof/Laws/State.lean ====
section
/-! SUPPORT. What each named update of the state leaves as it was: one lemma per field and update. -/

namespace Sys2Proof.Machine

/-! ### `wr` changes `regs` only -/

@[simp] theorem wr_wide (s : State) (f : Fld) (v : Nat) : (s.wr f v).wide = s.wide := rfl
@[simp] theorem wr_mem (s : State) (f : Fld) (v : Nat) : (s.wr f v).mem = s.mem := rfl
@[simp] theorem wr_yew (s : State) (f : Fld) (v : Nat) : (s.wr f v).yew = s.yew := rfl
@[simp] theorem wr_prv (s : State) (f : Fld) (v : Nat) : (s.wr f v).prv = s.prv := rfl
@[simp] theorem wr_tim (s : State) (f : Fld) (v : Nat) : (s.wr f v).tim = s.tim := rfl
@[simp] theorem wr_hst (s : State) (f : Fld) (v : Nat) : (s.wr f v).hst = s.hst := rfl
@[simp] theorem wr_dr (s : State) (f : Fld) (v : Nat) : (s.wr f v).dr = s.dr := rfl
@[simp] theorem wr_img (s : State) (f : Fld) (v : Nat) : (s.wr f v).img = s.img := rfl
@[simp] theorem wr_ec (s : State) (f : Fld) (v : Nat) : (s.wr f v).ec = s.ec := rfl
@[simp] theorem wr_ph (s : State) (f : Fld) (v : Nat) : (s.wr f v).ph = s.ph := rfl
@[simp] theorem wr_snapTick (s : State) (f : Fld) (v : Nat) : (s.wr f v).snapTick = s.snapTick := rfl
@[simp] theorem wr_thn (s : State) (f : Fld) (v : Nat) : (s.wr f v).thn = s.thn := rfl
@[simp] theorem wr_sch (s : State) (f : Fld) (v : Nat) : (s.wr f v).sch = s.sch := rfl
@[simp] theorem wr_glb (s : State) (f : Fld) (v : Nat) : (s.wr f v).glb = s.glb := rfl
@[simp] theorem wr_sec (s : State) (f : Fld) (v : Nat) : (s.wr f v).sec = s.sec := rfl
@[simp] theorem wr_net (s : State) (f : Fld) (v : Nat) : (s.wr f v).net = s.net := rfl
@[simp] theorem wr_twn (s : State) (f : Fld) (v : Nat) : (s.wr f v).twn = s.twn := rfl
@[simp] theorem wr_esp (s : State) (f : Fld) (v : Nat) : (s.wr f v).esp = s.esp := rfl
@[simp] theorem wr_svi (s : State) (f : Fld) (v : Nat) : (s.wr f v).svi = s.svi := rfl
@[simp] theorem wr_afe (s : State) (f : Fld) (v : Nat) : (s.wr f v).afe = s.afe := rfl
@[simp] theorem wr_dch (s : State) (f : Fld) (v : Nat) : (s.wr f v).dch = s.dch := rfl
@[simp] theorem wr_eccBad (s : State) (f : Fld) (v : Nat) : (s.wr f v).eccBad = s.eccBad := rfl
@[simp] theorem wr_eccSoft (s : State) (f : Fld) (v : Nat) : (s.wr f v).eccSoft = s.eccSoft := rfl
@[simp] theorem wr_parBad (s : State) (f : Fld) (v : Nat) : (s.wr f v).parBad = s.parBad := rfl
@[simp] theorem wr_freeCnt (s : State) (f : Fld) (v : Nat) : (s.wr f v).freeCnt = s.freeCnt := rfl
@[simp] theorem wr_pending (s : State) (f : Fld) (v : Nat) : (s.wr f v).pending = s.pending := rfl

/-! ### `wrb` changes `regs` only -/

@[simp] theorem wrb_wide (s : State) (f : Fld) (b : Bool) : (s.wrb f b).wide = s.wide := rfl
@[simp] theorem wrb_mem (s : State) (f : Fld) (b : Bool) : (s.wrb f b).mem = s.mem := rfl
@[simp] theorem wrb_yew (s : State) (f : Fld) (b : Bool) : (s.wrb f b).yew = s.yew := rfl
@[simp] theorem wrb_prv (s : State) (f : Fld) (b : Bool) : (s.wrb f b).prv = s.prv := rfl
@[simp] theorem wrb_tim (s : State) (f : Fld) (b : Bool) : (s.wrb f b).tim = s.tim := rfl
@[simp] theorem wrb_hst (s : State) (f : Fld) (b : Bool) : (s.wrb f b).hst = s.hst := rfl
@[simp] theorem wrb_dr (s : State) (f : Fld) (b : Bool) : (s.wrb f b).dr = s.dr := rfl
@[simp] theorem wrb_img (s : State) (f : Fld) (b : Bool) : (s.wrb f b).img = s.img := rfl
@[simp] theorem wrb_ec (s : State) (f : Fld) (b : Bool) : (s.wrb f b).ec = s.ec := rfl
@[simp] theorem wrb_ph (s : State) (f : Fld) (b : Bool) : (s.wrb f b).ph = s.ph := rfl
@[simp] theorem wrb_snapTick (s : State) (f : Fld) (b : Bool) : (s.wrb f b).snapTick = s.snapTick := rfl
@[simp] theorem wrb_thn (s : State) (f : Fld) (b : Bool) : (s.wrb f b).thn = s.thn := rfl
@[simp] theorem wrb_sch (s : State) (f : Fld) (b : Bool) : (s.wrb f b).sch = s.sch := rfl
@[simp] theorem wrb_glb (s : State) (f : Fld) (b : Bool) : (s.wrb f b).glb = s.glb := rfl
@[simp] theorem wrb_sec (s : State) (f : Fld) (b : Bool) : (s.wrb f b).sec = s.sec := rfl
@[simp] theorem wrb_net (s : State) (f : Fld) (b : Bool) : (s.wrb f b).net = s.net := rfl
@[simp] theorem wrb_twn (s : State) (f : Fld) (b : Bool) : (s.wrb f b).twn = s.twn := rfl
@[simp] theorem wrb_esp (s : State) (f : Fld) (b : Bool) : (s.wrb f b).esp = s.esp := rfl
@[simp] theorem wrb_svi (s : State) (f : Fld) (b : Bool) : (s.wrb f b).svi = s.svi := rfl
@[simp] theorem wrb_afe (s : State) (f : Fld) (b : Bool) : (s.wrb f b).afe = s.afe := rfl
@[simp] theorem wrb_dch (s : State) (f : Fld) (b : Bool) : (s.wrb f b).dch = s.dch := rfl
@[simp] theorem wrb_eccBad (s : State) (f : Fld) (b : Bool) : (s.wrb f b).eccBad = s.eccBad := rfl
@[simp] theorem wrb_eccSoft (s : State) (f : Fld) (b : Bool) : (s.wrb f b).eccSoft = s.eccSoft := rfl
@[simp] theorem wrb_parBad (s : State) (f : Fld) (b : Bool) : (s.wrb f b).parBad = s.parBad := rfl
@[simp] theorem wrb_freeCnt (s : State) (f : Fld) (b : Bool) : (s.wrb f b).freeCnt = s.freeCnt := rfl
@[simp] theorem wrb_pending (s : State) (f : Fld) (b : Bool) : (s.wrb f b).pending = s.pending := rfl

/-! ### `satAdd` changes `regs` only -/

@[simp] theorem satAdd_wide (s : State) (f : Fld) (n : Nat) : (s.satAdd f n).wide = s.wide := rfl
@[simp] theorem satAdd_mem (s : State) (f : Fld) (n : Nat) : (s.satAdd f n).mem = s.mem := rfl
@[simp] theorem satAdd_yew (s : State) (f : Fld) (n : Nat) : (s.satAdd f n).yew = s.yew := rfl
@[simp] theorem satAdd_prv (s : State) (f : Fld) (n : Nat) : (s.satAdd f n).prv = s.prv := rfl
@[simp] theorem satAdd_tim (s : State) (f : Fld) (n : Nat) : (s.satAdd f n).tim = s.tim := rfl
@[simp] theorem satAdd_hst (s : State) (f : Fld) (n : Nat) : (s.satAdd f n).hst = s.hst := rfl
@[simp] theorem satAdd_dr (s : State) (f : Fld) (n : Nat) : (s.satAdd f n).dr = s.dr := rfl
@[simp] theorem satAdd_img (s : State) (f : Fld) (n : Nat) : (s.satAdd f n).img = s.img := rfl
@[simp] theorem satAdd_ec (s : State) (f : Fld) (n : Nat) : (s.satAdd f n).ec = s.ec := rfl
@[simp] theorem satAdd_ph (s : State) (f : Fld) (n : Nat) : (s.satAdd f n).ph = s.ph := rfl
@[simp] theorem satAdd_snapTick (s : State) (f : Fld) (n : Nat) : (s.satAdd f n).snapTick = s.snapTick := rfl
@[simp] theorem satAdd_thn (s : State) (f : Fld) (n : Nat) : (s.satAdd f n).thn = s.thn := rfl
@[simp] theorem satAdd_sch (s : State) (f : Fld) (n : Nat) : (s.satAdd f n).sch = s.sch := rfl
@[simp] theorem satAdd_glb (s : State) (f : Fld) (n : Nat) : (s.satAdd f n).glb = s.glb := rfl
@[simp] theorem satAdd_sec (s : State) (f : Fld) (n : Nat) : (s.satAdd f n).sec = s.sec := rfl
@[simp] theorem satAdd_net (s : State) (f : Fld) (n : Nat) : (s.satAdd f n).net = s.net := rfl
@[simp] theorem satAdd_twn (s : State) (f : Fld) (n : Nat) : (s.satAdd f n).twn = s.twn := rfl
@[simp] theorem satAdd_esp (s : State) (f : Fld) (n : Nat) : (s.satAdd f n).esp = s.esp := rfl
@[simp] theorem satAdd_svi (s : State) (f : Fld) (n : Nat) : (s.satAdd f n).svi = s.svi := rfl
@[simp] theorem satAdd_afe (s : State) (f : Fld) (n : Nat) : (s.satAdd f n).afe = s.afe := rfl
@[simp] theorem satAdd_dch (s : State) (f : Fld) (n : Nat) : (s.satAdd f n).dch = s.dch := rfl
@[simp] theorem satAdd_eccBad (s : State) (f : Fld) (n : Nat) : (s.satAdd f n).eccBad = s.eccBad := rfl
@[simp] theorem satAdd_eccSoft (s : State) (f : Fld) (n : Nat) : (s.satAdd f n).eccSoft = s.eccSoft := rfl
@[simp] theorem satAdd_parBad (s : State) (f : Fld) (n : Nat) : (s.satAdd f n).parBad = s.parBad := rfl
@[simp] theorem satAdd_freeCnt (s : State) (f : Fld) (n : Nat) : (s.satAdd f n).freeCnt = s.freeCnt := rfl
@[simp] theorem satAdd_pending (s : State) (f : Fld) (n : Nat) : (s.satAdd f n).pending = s.pending := rfl

/-! ### `sat1` changes `regs` only -/

@[simp] theorem sat1_wide (s : State) (f : Fld) : (s.sat1 f).wide = s.wide := rfl
@[simp] theorem sat1_mem (s : State) (f : Fld) : (s.sat1 f).mem = s.mem := rfl
@[simp] theorem sat1_yew (s : State) (f : Fld) : (s.sat1 f).yew = s.yew := rfl
@[simp] theorem sat1_prv (s : State) (f : Fld) : (s.sat1 f).prv = s.prv := rfl
@[simp] theorem sat1_tim (s : State) (f : Fld) : (s.sat1 f).tim = s.tim := rfl
@[simp] theorem sat1_hst (s : State) (f : Fld) : (s.sat1 f).hst = s.hst := rfl
@[simp] theorem sat1_dr (s : State) (f : Fld) : (s.sat1 f).dr = s.dr := rfl
@[simp] theorem sat1_img (s : State) (f : Fld) : (s.sat1 f).img = s.img := rfl
@[simp] theorem sat1_ec (s : State) (f : Fld) : (s.sat1 f).ec = s.ec := rfl
@[simp] theorem sat1_ph (s : State) (f : Fld) : (s.sat1 f).ph = s.ph := rfl
@[simp] theorem sat1_snapTick (s : State) (f : Fld) : (s.sat1 f).snapTick = s.snapTick := rfl
@[simp] theorem sat1_thn (s : State) (f : Fld) : (s.sat1 f).thn = s.thn := rfl
@[simp] theorem sat1_sch (s : State) (f : Fld) : (s.sat1 f).sch = s.sch := rfl
@[simp] theorem sat1_glb (s : State) (f : Fld) : (s.sat1 f).glb = s.glb := rfl
@[simp] theorem sat1_sec (s : State) (f : Fld) : (s.sat1 f).sec = s.sec := rfl
@[simp] theorem sat1_net (s : State) (f : Fld) : (s.sat1 f).net = s.net := rfl
@[simp] theorem sat1_twn (s : State) (f : Fld) : (s.sat1 f).twn = s.twn := rfl
@[simp] theorem sat1_esp (s : State) (f : Fld) : (s.sat1 f).esp = s.esp := rfl
@[simp] theorem sat1_svi (s : State) (f : Fld) : (s.sat1 f).svi = s.svi := rfl
@[simp] theorem sat1_afe (s : State) (f : Fld) : (s.sat1 f).afe = s.afe := rfl
@[simp] theorem sat1_dch (s : State) (f : Fld) : (s.sat1 f).dch = s.dch := rfl
@[simp] theorem sat1_eccBad (s : State) (f : Fld) : (s.sat1 f).eccBad = s.eccBad := rfl
@[simp] theorem sat1_eccSoft (s : State) (f : Fld) : (s.sat1 f).eccSoft = s.eccSoft := rfl
@[simp] theorem sat1_parBad (s : State) (f : Fld) : (s.sat1 f).parBad = s.parBad := rfl
@[simp] theorem sat1_freeCnt (s : State) (f : Fld) : (s.sat1 f).freeCnt = s.freeCnt := rfl
@[simp] theorem sat1_pending (s : State) (f : Fld) : (s.sat1 f).pending = s.pending := rfl

/-! ### `inc` changes `regs` only -/

@[simp] theorem inc_wide (s : State) (f : Fld) : (s.inc f).wide = s.wide := rfl
@[simp] theorem inc_mem (s : State) (f : Fld) : (s.inc f).mem = s.mem := rfl
@[simp] theorem inc_yew (s : State) (f : Fld) : (s.inc f).yew = s.yew := rfl
@[simp] theorem inc_prv (s : State) (f : Fld) : (s.inc f).prv = s.prv := rfl
@[simp] theorem inc_tim (s : State) (f : Fld) : (s.inc f).tim = s.tim := rfl
@[simp] theorem inc_hst (s : State) (f : Fld) : (s.inc f).hst = s.hst := rfl
@[simp] theorem inc_dr (s : State) (f : Fld) : (s.inc f).dr = s.dr := rfl
@[simp] theorem inc_img (s : State) (f : Fld) : (s.inc f).img = s.img := rfl
@[simp] theorem inc_ec (s : State) (f : Fld) : (s.inc f).ec = s.ec := rfl
@[simp] theorem inc_ph (s : State) (f : Fld) : (s.inc f).ph = s.ph := rfl
@[simp] theorem inc_snapTick (s : State) (f : Fld) : (s.inc f).snapTick = s.snapTick := rfl
@[simp] theorem inc_thn (s : State) (f : Fld) : (s.inc f).thn = s.thn := rfl
@[simp] theorem inc_sch (s : State) (f : Fld) : (s.inc f).sch = s.sch := rfl
@[simp] theorem inc_glb (s : State) (f : Fld) : (s.inc f).glb = s.glb := rfl
@[simp] theorem inc_sec (s : State) (f : Fld) : (s.inc f).sec = s.sec := rfl
@[simp] theorem inc_net (s : State) (f : Fld) : (s.inc f).net = s.net := rfl
@[simp] theorem inc_twn (s : State) (f : Fld) : (s.inc f).twn = s.twn := rfl
@[simp] theorem inc_esp (s : State) (f : Fld) : (s.inc f).esp = s.esp := rfl
@[simp] theorem inc_svi (s : State) (f : Fld) : (s.inc f).svi = s.svi := rfl
@[simp] theorem inc_afe (s : State) (f : Fld) : (s.inc f).afe = s.afe := rfl
@[simp] theorem inc_dch (s : State) (f : Fld) : (s.inc f).dch = s.dch := rfl
@[simp] theorem inc_eccBad (s : State) (f : Fld) : (s.inc f).eccBad = s.eccBad := rfl
@[simp] theorem inc_eccSoft (s : State) (f : Fld) : (s.inc f).eccSoft = s.eccSoft := rfl
@[simp] theorem inc_parBad (s : State) (f : Fld) : (s.inc f).parBad = s.parBad := rfl
@[simp] theorem inc_freeCnt (s : State) (f : Fld) : (s.inc f).freeCnt = s.freeCnt := rfl
@[simp] theorem inc_pending (s : State) (f : Fld) : (s.inc f).pending = s.pending := rfl

/-! ### `setBit` changes `regs` only -/

@[simp] theorem setBit_wide (s : State) (f : Fld) (k : Nat) : (s.setBit f k).wide = s.wide := rfl
@[simp] theorem setBit_mem (s : State) (f : Fld) (k : Nat) : (s.setBit f k).mem = s.mem := rfl
@[simp] theorem setBit_yew (s : State) (f : Fld) (k : Nat) : (s.setBit f k).yew = s.yew := rfl
@[simp] theorem setBit_prv (s : State) (f : Fld) (k : Nat) : (s.setBit f k).prv = s.prv := rfl
@[simp] theorem setBit_tim (s : State) (f : Fld) (k : Nat) : (s.setBit f k).tim = s.tim := rfl
@[simp] theorem setBit_hst (s : State) (f : Fld) (k : Nat) : (s.setBit f k).hst = s.hst := rfl
@[simp] theorem setBit_dr (s : State) (f : Fld) (k : Nat) : (s.setBit f k).dr = s.dr := rfl
@[simp] theorem setBit_img (s : State) (f : Fld) (k : Nat) : (s.setBit f k).img = s.img := rfl
@[simp] theorem setBit_ec (s : State) (f : Fld) (k : Nat) : (s.setBit f k).ec = s.ec := rfl
@[simp] theorem setBit_ph (s : State) (f : Fld) (k : Nat) : (s.setBit f k).ph = s.ph := rfl
@[simp] theorem setBit_snapTick (s : State) (f : Fld) (k : Nat) : (s.setBit f k).snapTick = s.snapTick := rfl
@[simp] theorem setBit_thn (s : State) (f : Fld) (k : Nat) : (s.setBit f k).thn = s.thn := rfl
@[simp] theorem setBit_sch (s : State) (f : Fld) (k : Nat) : (s.setBit f k).sch = s.sch := rfl
@[simp] theorem setBit_glb (s : State) (f : Fld) (k : Nat) : (s.setBit f k).glb = s.glb := rfl
@[simp] theorem setBit_sec (s : State) (f : Fld) (k : Nat) : (s.setBit f k).sec = s.sec := rfl
@[simp] theorem setBit_net (s : State) (f : Fld) (k : Nat) : (s.setBit f k).net = s.net := rfl
@[simp] theorem setBit_twn (s : State) (f : Fld) (k : Nat) : (s.setBit f k).twn = s.twn := rfl
@[simp] theorem setBit_esp (s : State) (f : Fld) (k : Nat) : (s.setBit f k).esp = s.esp := rfl
@[simp] theorem setBit_svi (s : State) (f : Fld) (k : Nat) : (s.setBit f k).svi = s.svi := rfl
@[simp] theorem setBit_afe (s : State) (f : Fld) (k : Nat) : (s.setBit f k).afe = s.afe := rfl
@[simp] theorem setBit_dch (s : State) (f : Fld) (k : Nat) : (s.setBit f k).dch = s.dch := rfl
@[simp] theorem setBit_eccBad (s : State) (f : Fld) (k : Nat) : (s.setBit f k).eccBad = s.eccBad := rfl
@[simp] theorem setBit_eccSoft (s : State) (f : Fld) (k : Nat) : (s.setBit f k).eccSoft = s.eccSoft := rfl
@[simp] theorem setBit_parBad (s : State) (f : Fld) (k : Nat) : (s.setBit f k).parBad = s.parBad := rfl
@[simp] theorem setBit_freeCnt (s : State) (f : Fld) (k : Nat) : (s.setBit f k).freeCnt = s.freeCnt := rfl
@[simp] theorem setBit_pending (s : State) (f : Fld) (k : Nat) : (s.setBit f k).pending = s.pending := rfl

/-! ### `clrBit` changes `regs` only -/

@[simp] theorem clrBit_wide (s : State) (f : Fld) (k : Nat) : (s.clrBit f k).wide = s.wide := rfl
@[simp] theorem clrBit_mem (s : State) (f : Fld) (k : Nat) : (s.clrBit f k).mem = s.mem := rfl
@[simp] theorem clrBit_yew (s : State) (f : Fld) (k : Nat) : (s.clrBit f k).yew = s.yew := rfl
@[simp] theorem clrBit_prv (s : State) (f : Fld) (k : Nat) : (s.clrBit f k).prv = s.prv := rfl
@[simp] theorem clrBit_tim (s : State) (f : Fld) (k : Nat) : (s.clrBit f k).tim = s.tim := rfl
@[simp] theorem clrBit_hst (s : State) (f : Fld) (k : Nat) : (s.clrBit f k).hst = s.hst := rfl
@[simp] theorem clrBit_dr (s : State) (f : Fld) (k : Nat) : (s.clrBit f k).dr = s.dr := rfl
@[simp] theorem clrBit_img (s : State) (f : Fld) (k : Nat) : (s.clrBit f k).img = s.img := rfl
@[simp] theorem clrBit_ec (s : State) (f : Fld) (k : Nat) : (s.clrBit f k).ec = s.ec := rfl
@[simp] theorem clrBit_ph (s : State) (f : Fld) (k : Nat) : (s.clrBit f k).ph = s.ph := rfl
@[simp] theorem clrBit_snapTick (s : State) (f : Fld) (k : Nat) : (s.clrBit f k).snapTick = s.snapTick := rfl
@[simp] theorem clrBit_thn (s : State) (f : Fld) (k : Nat) : (s.clrBit f k).thn = s.thn := rfl
@[simp] theorem clrBit_sch (s : State) (f : Fld) (k : Nat) : (s.clrBit f k).sch = s.sch := rfl
@[simp] theorem clrBit_glb (s : State) (f : Fld) (k : Nat) : (s.clrBit f k).glb = s.glb := rfl
@[simp] theorem clrBit_sec (s : State) (f : Fld) (k : Nat) : (s.clrBit f k).sec = s.sec := rfl
@[simp] theorem clrBit_net (s : State) (f : Fld) (k : Nat) : (s.clrBit f k).net = s.net := rfl
@[simp] theorem clrBit_twn (s : State) (f : Fld) (k : Nat) : (s.clrBit f k).twn = s.twn := rfl
@[simp] theorem clrBit_esp (s : State) (f : Fld) (k : Nat) : (s.clrBit f k).esp = s.esp := rfl
@[simp] theorem clrBit_svi (s : State) (f : Fld) (k : Nat) : (s.clrBit f k).svi = s.svi := rfl
@[simp] theorem clrBit_afe (s : State) (f : Fld) (k : Nat) : (s.clrBit f k).afe = s.afe := rfl
@[simp] theorem clrBit_dch (s : State) (f : Fld) (k : Nat) : (s.clrBit f k).dch = s.dch := rfl
@[simp] theorem clrBit_eccBad (s : State) (f : Fld) (k : Nat) : (s.clrBit f k).eccBad = s.eccBad := rfl
@[simp] theorem clrBit_eccSoft (s : State) (f : Fld) (k : Nat) : (s.clrBit f k).eccSoft = s.eccSoft := rfl
@[simp] theorem clrBit_parBad (s : State) (f : Fld) (k : Nat) : (s.clrBit f k).parBad = s.parBad := rfl
@[simp] theorem clrBit_freeCnt (s : State) (f : Fld) (k : Nat) : (s.clrBit f k).freeCnt = s.freeCnt := rfl
@[simp] theorem clrBit_pending (s : State) (f : Fld) (k : Nat) : (s.clrBit f k).pending = s.pending := rfl

/-! ### `putBit` changes `regs` only -/

@[simp] theorem putBit_wide (s : State) (f : Fld) (k : Nat) (b : Bool) : (s.putBit f k b).wide = s.wide := by unfold State.putBit; split <;> rfl
@[simp] theorem putBit_mem (s : State) (f : Fld) (k : Nat) (b : Bool) : (s.putBit f k b).mem = s.mem := by unfold State.putBit; split <;> rfl
@[simp] theorem putBit_yew (s : State) (f : Fld) (k : Nat) (b : Bool) : (s.putBit f k b).yew = s.yew := by unfold State.putBit; split <;> rfl
@[simp] theorem putBit_prv (s : State) (f : Fld) (k : Nat) (b : Bool) : (s.putBit f k b).prv = s.prv := by unfold State.putBit; split <;> rfl
@[simp] theorem putBit_tim (s : State) (f : Fld) (k : Nat) (b : Bool) : (s.putBit f k b).tim = s.tim := by unfold State.putBit; split <;> rfl
@[simp] theorem putBit_hst (s : State) (f : Fld) (k : Nat) (b : Bool) : (s.putBit f k b).hst = s.hst := by unfold State.putBit; split <;> rfl
@[simp] theorem putBit_dr (s : State) (f : Fld) (k : Nat) (b : Bool) : (s.putBit f k b).dr = s.dr := by unfold State.putBit; split <;> rfl
@[simp] theorem putBit_img (s : State) (f : Fld) (k : Nat) (b : Bool) : (s.putBit f k b).img = s.img := by unfold State.putBit; split <;> rfl
@[simp] theorem putBit_ec (s : State) (f : Fld) (k : Nat) (b : Bool) : (s.putBit f k b).ec = s.ec := by unfold State.putBit; split <;> rfl
@[simp] theorem putBit_ph (s : State) (f : Fld) (k : Nat) (b : Bool) : (s.putBit f k b).ph = s.ph := by unfold State.putBit; split <;> rfl
@[simp] theorem putBit_snapTick (s : State) (f : Fld) (k : Nat) (b : Bool) : (s.putBit f k b).snapTick = s.snapTick := by unfold State.putBit; split <;> rfl
@[simp] theorem putBit_thn (s : State) (f : Fld) (k : Nat) (b : Bool) : (s.putBit f k b).thn = s.thn := by unfold State.putBit; split <;> rfl
@[simp] theorem putBit_sch (s : State) (f : Fld) (k : Nat) (b : Bool) : (s.putBit f k b).sch = s.sch := by unfold State.putBit; split <;> rfl
@[simp] theorem putBit_glb (s : State) (f : Fld) (k : Nat) (b : Bool) : (s.putBit f k b).glb = s.glb := by unfold State.putBit; split <;> rfl
@[simp] theorem putBit_sec (s : State) (f : Fld) (k : Nat) (b : Bool) : (s.putBit f k b).sec = s.sec := by unfold State.putBit; split <;> rfl
@[simp] theorem putBit_net (s : State) (f : Fld) (k : Nat) (b : Bool) : (s.putBit f k b).net = s.net := by unfold State.putBit; split <;> rfl
@[simp] theorem putBit_twn (s : State) (f : Fld) (k : Nat) (b : Bool) : (s.putBit f k b).twn = s.twn := by unfold State.putBit; split <;> rfl
@[simp] theorem putBit_esp (s : State) (f : Fld) (k : Nat) (b : Bool) : (s.putBit f k b).esp = s.esp := by unfold State.putBit; split <;> rfl
@[simp] theorem putBit_svi (s : State) (f : Fld) (k : Nat) (b : Bool) : (s.putBit f k b).svi = s.svi := by unfold State.putBit; split <;> rfl
@[simp] theorem putBit_afe (s : State) (f : Fld) (k : Nat) (b : Bool) : (s.putBit f k b).afe = s.afe := by unfold State.putBit; split <;> rfl
@[simp] theorem putBit_dch (s : State) (f : Fld) (k : Nat) (b : Bool) : (s.putBit f k b).dch = s.dch := by unfold State.putBit; split <;> rfl
@[simp] theorem putBit_eccBad (s : State) (f : Fld) (k : Nat) (b : Bool) : (s.putBit f k b).eccBad = s.eccBad := by unfold State.putBit; split <;> rfl
@[simp] theorem putBit_eccSoft (s : State) (f : Fld) (k : Nat) (b : Bool) : (s.putBit f k b).eccSoft = s.eccSoft := by unfold State.putBit; split <;> rfl
@[simp] theorem putBit_parBad (s : State) (f : Fld) (k : Nat) (b : Bool) : (s.putBit f k b).parBad = s.parBad := by unfold State.putBit; split <;> rfl
@[simp] theorem putBit_freeCnt (s : State) (f : Fld) (k : Nat) (b : Bool) : (s.putBit f k b).freeCnt = s.freeCnt := by unfold State.putBit; split <;> rfl
@[simp] theorem putBit_pending (s : State) (f : Fld) (k : Nat) (b : Bool) : (s.putBit f k b).pending = s.pending := by unfold State.putBit; split <;> rfl

/-! ### `wr64` changes `regs` only -/

@[simp] theorem wr64_wide (s : State) (lo hi : Fld) (v : Nat) : (s.wr64 lo hi v).wide = s.wide := rfl
@[simp] theorem wr64_mem (s : State) (lo hi : Fld) (v : Nat) : (s.wr64 lo hi v).mem = s.mem := rfl
@[simp] theorem wr64_yew (s : State) (lo hi : Fld) (v : Nat) : (s.wr64 lo hi v).yew = s.yew := rfl
@[simp] theorem wr64_prv (s : State) (lo hi : Fld) (v : Nat) : (s.wr64 lo hi v).prv = s.prv := rfl
@[simp] theorem wr64_tim (s : State) (lo hi : Fld) (v : Nat) : (s.wr64 lo hi v).tim = s.tim := rfl
@[simp] theorem wr64_hst (s : State) (lo hi : Fld) (v : Nat) : (s.wr64 lo hi v).hst = s.hst := rfl
@[simp] theorem wr64_dr (s : State) (lo hi : Fld) (v : Nat) : (s.wr64 lo hi v).dr = s.dr := rfl
@[simp] theorem wr64_img (s : State) (lo hi : Fld) (v : Nat) : (s.wr64 lo hi v).img = s.img := rfl
@[simp] theorem wr64_ec (s : State) (lo hi : Fld) (v : Nat) : (s.wr64 lo hi v).ec = s.ec := rfl
@[simp] theorem wr64_ph (s : State) (lo hi : Fld) (v : Nat) : (s.wr64 lo hi v).ph = s.ph := rfl
@[simp] theorem wr64_snapTick (s : State) (lo hi : Fld) (v : Nat) : (s.wr64 lo hi v).snapTick = s.snapTick := rfl
@[simp] theorem wr64_thn (s : State) (lo hi : Fld) (v : Nat) : (s.wr64 lo hi v).thn = s.thn := rfl
@[simp] theorem wr64_sch (s : State) (lo hi : Fld) (v : Nat) : (s.wr64 lo hi v).sch = s.sch := rfl
@[simp] theorem wr64_glb (s : State) (lo hi : Fld) (v : Nat) : (s.wr64 lo hi v).glb = s.glb := rfl
@[simp] theorem wr64_sec (s : State) (lo hi : Fld) (v : Nat) : (s.wr64 lo hi v).sec = s.sec := rfl
@[simp] theorem wr64_net (s : State) (lo hi : Fld) (v : Nat) : (s.wr64 lo hi v).net = s.net := rfl
@[simp] theorem wr64_twn (s : State) (lo hi : Fld) (v : Nat) : (s.wr64 lo hi v).twn = s.twn := rfl
@[simp] theorem wr64_esp (s : State) (lo hi : Fld) (v : Nat) : (s.wr64 lo hi v).esp = s.esp := rfl
@[simp] theorem wr64_svi (s : State) (lo hi : Fld) (v : Nat) : (s.wr64 lo hi v).svi = s.svi := rfl
@[simp] theorem wr64_afe (s : State) (lo hi : Fld) (v : Nat) : (s.wr64 lo hi v).afe = s.afe := rfl
@[simp] theorem wr64_dch (s : State) (lo hi : Fld) (v : Nat) : (s.wr64 lo hi v).dch = s.dch := rfl
@[simp] theorem wr64_eccBad (s : State) (lo hi : Fld) (v : Nat) : (s.wr64 lo hi v).eccBad = s.eccBad := rfl
@[simp] theorem wr64_eccSoft (s : State) (lo hi : Fld) (v : Nat) : (s.wr64 lo hi v).eccSoft = s.eccSoft := rfl
@[simp] theorem wr64_parBad (s : State) (lo hi : Fld) (v : Nat) : (s.wr64 lo hi v).parBad = s.parBad := rfl
@[simp] theorem wr64_freeCnt (s : State) (lo hi : Fld) (v : Nat) : (s.wr64 lo hi v).freeCnt = s.freeCnt := rfl
@[simp] theorem wr64_pending (s : State) (lo hi : Fld) (v : Nat) : (s.wr64 lo hi v).pending = s.pending := rfl

/-! ### `resetDom` changes `regs` only -/

@[simp] theorem resetDom_wide (s : State) (d : Dom) : (s.resetDom d).wide = s.wide := rfl
@[simp] theorem resetDom_mem (s : State) (d : Dom) : (s.resetDom d).mem = s.mem := rfl
@[simp] theorem resetDom_yew (s : State) (d : Dom) : (s.resetDom d).yew = s.yew := rfl
@[simp] theorem resetDom_prv (s : State) (d : Dom) : (s.resetDom d).prv = s.prv := rfl
@[simp] theorem resetDom_tim (s : State) (d : Dom) : (s.resetDom d).tim = s.tim := rfl
@[simp] theorem resetDom_hst (s : State) (d : Dom) : (s.resetDom d).hst = s.hst := rfl
@[simp] theorem resetDom_dr (s : State) (d : Dom) : (s.resetDom d).dr = s.dr := rfl
@[simp] theorem resetDom_img (s : State) (d : Dom) : (s.resetDom d).img = s.img := rfl
@[simp] theorem resetDom_ec (s : State) (d : Dom) : (s.resetDom d).ec = s.ec := rfl
@[simp] theorem resetDom_ph (s : State) (d : Dom) : (s.resetDom d).ph = s.ph := rfl
@[simp] theorem resetDom_snapTick (s : State) (d : Dom) : (s.resetDom d).snapTick = s.snapTick := rfl
@[simp] theorem resetDom_thn (s : State) (d : Dom) : (s.resetDom d).thn = s.thn := rfl
@[simp] theorem resetDom_sch (s : State) (d : Dom) : (s.resetDom d).sch = s.sch := rfl
@[simp] theorem resetDom_glb (s : State) (d : Dom) : (s.resetDom d).glb = s.glb := rfl
@[simp] theorem resetDom_sec (s : State) (d : Dom) : (s.resetDom d).sec = s.sec := rfl
@[simp] theorem resetDom_net (s : State) (d : Dom) : (s.resetDom d).net = s.net := rfl
@[simp] theorem resetDom_twn (s : State) (d : Dom) : (s.resetDom d).twn = s.twn := rfl
@[simp] theorem resetDom_esp (s : State) (d : Dom) : (s.resetDom d).esp = s.esp := rfl
@[simp] theorem resetDom_svi (s : State) (d : Dom) : (s.resetDom d).svi = s.svi := rfl
@[simp] theorem resetDom_afe (s : State) (d : Dom) : (s.resetDom d).afe = s.afe := rfl
@[simp] theorem resetDom_dch (s : State) (d : Dom) : (s.resetDom d).dch = s.dch := rfl
@[simp] theorem resetDom_eccBad (s : State) (d : Dom) : (s.resetDom d).eccBad = s.eccBad := rfl
@[simp] theorem resetDom_eccSoft (s : State) (d : Dom) : (s.resetDom d).eccSoft = s.eccSoft := rfl
@[simp] theorem resetDom_parBad (s : State) (d : Dom) : (s.resetDom d).parBad = s.parBad := rfl
@[simp] theorem resetDom_freeCnt (s : State) (d : Dom) : (s.resetDom d).freeCnt = s.freeCnt := rfl
@[simp] theorem resetDom_pending (s : State) (d : Dom) : (s.resetDom d).pending = s.pending := rfl

/-! ### `resetDomIn` changes `regs` only -/

@[simp] theorem resetDomIn_wide (s : State) (d : Dom) (lo hi : Nat) : (s.resetDomIn d lo hi).wide = s.wide := rfl
@[simp] theorem resetDomIn_mem (s : State) (d : Dom) (lo hi : Nat) : (s.resetDomIn d lo hi).mem = s.mem := rfl
@[simp] theorem resetDomIn_yew (s : State) (d : Dom) (lo hi : Nat) : (s.resetDomIn d lo hi).yew = s.yew := rfl
@[simp] theorem resetDomIn_prv (s : State) (d : Dom) (lo hi : Nat) : (s.resetDomIn d lo hi).prv = s.prv := rfl
@[simp] theorem resetDomIn_tim (s : State) (d : Dom) (lo hi : Nat) : (s.resetDomIn d lo hi).tim = s.tim := rfl
@[simp] theorem resetDomIn_hst (s : State) (d : Dom) (lo hi : Nat) : (s.resetDomIn d lo hi).hst = s.hst := rfl
@[simp] theorem resetDomIn_dr (s : State) (d : Dom) (lo hi : Nat) : (s.resetDomIn d lo hi).dr = s.dr := rfl
@[simp] theorem resetDomIn_img (s : State) (d : Dom) (lo hi : Nat) : (s.resetDomIn d lo hi).img = s.img := rfl
@[simp] theorem resetDomIn_ec (s : State) (d : Dom) (lo hi : Nat) : (s.resetDomIn d lo hi).ec = s.ec := rfl
@[simp] theorem resetDomIn_ph (s : State) (d : Dom) (lo hi : Nat) : (s.resetDomIn d lo hi).ph = s.ph := rfl
@[simp] theorem resetDomIn_snapTick (s : State) (d : Dom) (lo hi : Nat) : (s.resetDomIn d lo hi).snapTick = s.snapTick := rfl
@[simp] theorem resetDomIn_thn (s : State) (d : Dom) (lo hi : Nat) : (s.resetDomIn d lo hi).thn = s.thn := rfl
@[simp] theorem resetDomIn_sch (s : State) (d : Dom) (lo hi : Nat) : (s.resetDomIn d lo hi).sch = s.sch := rfl
@[simp] theorem resetDomIn_glb (s : State) (d : Dom) (lo hi : Nat) : (s.resetDomIn d lo hi).glb = s.glb := rfl
@[simp] theorem resetDomIn_sec (s : State) (d : Dom) (lo hi : Nat) : (s.resetDomIn d lo hi).sec = s.sec := rfl
@[simp] theorem resetDomIn_net (s : State) (d : Dom) (lo hi : Nat) : (s.resetDomIn d lo hi).net = s.net := rfl
@[simp] theorem resetDomIn_twn (s : State) (d : Dom) (lo hi : Nat) : (s.resetDomIn d lo hi).twn = s.twn := rfl
@[simp] theorem resetDomIn_esp (s : State) (d : Dom) (lo hi : Nat) : (s.resetDomIn d lo hi).esp = s.esp := rfl
@[simp] theorem resetDomIn_svi (s : State) (d : Dom) (lo hi : Nat) : (s.resetDomIn d lo hi).svi = s.svi := rfl
@[simp] theorem resetDomIn_afe (s : State) (d : Dom) (lo hi : Nat) : (s.resetDomIn d lo hi).afe = s.afe := rfl
@[simp] theorem resetDomIn_dch (s : State) (d : Dom) (lo hi : Nat) : (s.resetDomIn d lo hi).dch = s.dch := rfl
@[simp] theorem resetDomIn_eccBad (s : State) (d : Dom) (lo hi : Nat) : (s.resetDomIn d lo hi).eccBad = s.eccBad := rfl
@[simp] theorem resetDomIn_eccSoft (s : State) (d : Dom) (lo hi : Nat) : (s.resetDomIn d lo hi).eccSoft = s.eccSoft := rfl
@[simp] theorem resetDomIn_parBad (s : State) (d : Dom) (lo hi : Nat) : (s.resetDomIn d lo hi).parBad = s.parBad := rfl
@[simp] theorem resetDomIn_freeCnt (s : State) (d : Dom) (lo hi : Nat) : (s.resetDomIn d lo hi).freeCnt = s.freeCnt := rfl
@[simp] theorem resetDomIn_pending (s : State) (d : Dom) (lo hi : Nat) : (s.resetDomIn d lo hi).pending = s.pending := rfl

/-! ### `wrMem` changes `mem` only -/

@[simp] theorem wrMem_regs (s : State) (a : Nat) (l : List Byte) : (s.wrMem a l).regs = s.regs := rfl
@[simp] theorem wrMem_wide (s : State) (a : Nat) (l : List Byte) : (s.wrMem a l).wide = s.wide := rfl
@[simp] theorem wrMem_yew (s : State) (a : Nat) (l : List Byte) : (s.wrMem a l).yew = s.yew := rfl
@[simp] theorem wrMem_prv (s : State) (a : Nat) (l : List Byte) : (s.wrMem a l).prv = s.prv := rfl
@[simp] theorem wrMem_tim (s : State) (a : Nat) (l : List Byte) : (s.wrMem a l).tim = s.tim := rfl
@[simp] theorem wrMem_hst (s : State) (a : Nat) (l : List Byte) : (s.wrMem a l).hst = s.hst := rfl
@[simp] theorem wrMem_dr (s : State) (a : Nat) (l : List Byte) : (s.wrMem a l).dr = s.dr := rfl
@[simp] theorem wrMem_img (s : State) (a : Nat) (l : List Byte) : (s.wrMem a l).img = s.img := rfl
@[simp] theorem wrMem_ec (s : State) (a : Nat) (l : List Byte) : (s.wrMem a l).ec = s.ec := rfl
@[simp] theorem wrMem_ph (s : State) (a : Nat) (l : List Byte) : (s.wrMem a l).ph = s.ph := rfl
@[simp] theorem wrMem_snapTick (s : State) (a : Nat) (l : List Byte) : (s.wrMem a l).snapTick = s.snapTick := rfl
@[simp] theorem wrMem_thn (s : State) (a : Nat) (l : List Byte) : (s.wrMem a l).thn = s.thn := rfl
@[simp] theorem wrMem_sch (s : State) (a : Nat) (l : List Byte) : (s.wrMem a l).sch = s.sch := rfl
@[simp] theorem wrMem_glb (s : State) (a : Nat) (l : List Byte) : (s.wrMem a l).glb = s.glb := rfl
@[simp] theorem wrMem_sec (s : State) (a : Nat) (l : List Byte) : (s.wrMem a l).sec = s.sec := rfl
@[simp] theorem wrMem_net (s : State) (a : Nat) (l : List Byte) : (s.wrMem a l).net = s.net := rfl
@[simp] theorem wrMem_twn (s : State) (a : Nat) (l : List Byte) : (s.wrMem a l).twn = s.twn := rfl
@[simp] theorem wrMem_esp (s : State) (a : Nat) (l : List Byte) : (s.wrMem a l).esp = s.esp := rfl
@[simp] theorem wrMem_svi (s : State) (a : Nat) (l : List Byte) : (s.wrMem a l).svi = s.svi := rfl
@[simp] theorem wrMem_afe (s : State) (a : Nat) (l : List Byte) : (s.wrMem a l).afe = s.afe := rfl
@[simp] theorem wrMem_dch (s : State) (a : Nat) (l : List Byte) : (s.wrMem a l).dch = s.dch := rfl
@[simp] theorem wrMem_eccBad (s : State) (a : Nat) (l : List Byte) : (s.wrMem a l).eccBad = s.eccBad := rfl
@[simp] theorem wrMem_eccSoft (s : State) (a : Nat) (l : List Byte) : (s.wrMem a l).eccSoft = s.eccSoft := rfl
@[simp] theorem wrMem_parBad (s : State) (a : Nat) (l : List Byte) : (s.wrMem a l).parBad = s.parBad := rfl
@[simp] theorem wrMem_freeCnt (s : State) (a : Nat) (l : List Byte) : (s.wrMem a l).freeCnt = s.freeCnt := rfl
@[simp] theorem wrMem_pending (s : State) (a : Nat) (l : List Byte) : (s.wrMem a l).pending = s.pending := rfl

/-! ### `wrW` changes `mem` only -/

@[simp] theorem wrW_regs (s : State) (a : Nat) (v : Word) : (s.wrW a v).regs = s.regs := rfl
@[simp] theorem wrW_wide (s : State) (a : Nat) (v : Word) : (s.wrW a v).wide = s.wide := rfl
@[simp] theorem wrW_yew (s : State) (a : Nat) (v : Word) : (s.wrW a v).yew = s.yew := rfl
@[simp] theorem wrW_prv (s : State) (a : Nat) (v : Word) : (s.wrW a v).prv = s.prv := rfl
@[simp] theorem wrW_tim (s : State) (a : Nat) (v : Word) : (s.wrW a v).tim = s.tim := rfl
@[simp] theorem wrW_hst (s : State) (a : Nat) (v : Word) : (s.wrW a v).hst = s.hst := rfl
@[simp] theorem wrW_dr (s : State) (a : Nat) (v : Word) : (s.wrW a v).dr = s.dr := rfl
@[simp] theorem wrW_img (s : State) (a : Nat) (v : Word) : (s.wrW a v).img = s.img := rfl
@[simp] theorem wrW_ec (s : State) (a : Nat) (v : Word) : (s.wrW a v).ec = s.ec := rfl
@[simp] theorem wrW_ph (s : State) (a : Nat) (v : Word) : (s.wrW a v).ph = s.ph := rfl
@[simp] theorem wrW_snapTick (s : State) (a : Nat) (v : Word) : (s.wrW a v).snapTick = s.snapTick := rfl
@[simp] theorem wrW_thn (s : State) (a : Nat) (v : Word) : (s.wrW a v).thn = s.thn := rfl
@[simp] theorem wrW_sch (s : State) (a : Nat) (v : Word) : (s.wrW a v).sch = s.sch := rfl
@[simp] theorem wrW_glb (s : State) (a : Nat) (v : Word) : (s.wrW a v).glb = s.glb := rfl
@[simp] theorem wrW_sec (s : State) (a : Nat) (v : Word) : (s.wrW a v).sec = s.sec := rfl
@[simp] theorem wrW_net (s : State) (a : Nat) (v : Word) : (s.wrW a v).net = s.net := rfl
@[simp] theorem wrW_twn (s : State) (a : Nat) (v : Word) : (s.wrW a v).twn = s.twn := rfl
@[simp] theorem wrW_esp (s : State) (a : Nat) (v : Word) : (s.wrW a v).esp = s.esp := rfl
@[simp] theorem wrW_svi (s : State) (a : Nat) (v : Word) : (s.wrW a v).svi = s.svi := rfl
@[simp] theorem wrW_afe (s : State) (a : Nat) (v : Word) : (s.wrW a v).afe = s.afe := rfl
@[simp] theorem wrW_dch (s : State) (a : Nat) (v : Word) : (s.wrW a v).dch = s.dch := rfl
@[simp] theorem wrW_eccBad (s : State) (a : Nat) (v : Word) : (s.wrW a v).eccBad = s.eccBad := rfl
@[simp] theorem wrW_eccSoft (s : State) (a : Nat) (v : Word) : (s.wrW a v).eccSoft = s.eccSoft := rfl
@[simp] theorem wrW_parBad (s : State) (a : Nat) (v : Word) : (s.wrW a v).parBad = s.parBad := rfl
@[simp] theorem wrW_freeCnt (s : State) (a : Nat) (v : Word) : (s.wrW a v).freeCnt = s.freeCnt := rfl
@[simp] theorem wrW_pending (s : State) (a : Nat) (v : Word) : (s.wrW a v).pending = s.pending := rfl

/-! ### `putWord` changes `mem eccBad eccSoft` only -/

@[simp] theorem putWord_regs (s : State) (a : Nat) (v : Word) : (s.putWord a v).regs = s.regs := rfl
@[simp] theorem putWord_wide (s : State) (a : Nat) (v : Word) : (s.putWord a v).wide = s.wide := rfl
@[simp] theorem putWord_yew (s : State) (a : Nat) (v : Word) : (s.putWord a v).yew = s.yew := rfl
@[simp] theorem putWord_prv (s : State) (a : Nat) (v : Word) : (s.putWord a v).prv = s.prv := rfl
@[simp] theorem putWord_tim (s : State) (a : Nat) (v : Word) : (s.putWord a v).tim = s.tim := rfl
@[simp] theorem putWord_hst (s : State) (a : Nat) (v : Word) : (s.putWord a v).hst = s.hst := rfl
@[simp] theorem putWord_dr (s : State) (a : Nat) (v : Word) : (s.putWord a v).dr = s.dr := rfl
@[simp] theorem putWord_img (s : State) (a : Nat) (v : Word) : (s.putWord a v).img = s.img := rfl
@[simp] theorem putWord_ec (s : State) (a : Nat) (v : Word) : (s.putWord a v).ec = s.ec := rfl
@[simp] theorem putWord_ph (s : State) (a : Nat) (v : Word) : (s.putWord a v).ph = s.ph := rfl
@[simp] theorem putWord_snapTick (s : State) (a : Nat) (v : Word) : (s.putWord a v).snapTick = s.snapTick := rfl
@[simp] theorem putWord_thn (s : State) (a : Nat) (v : Word) : (s.putWord a v).thn = s.thn := rfl
@[simp] theorem putWord_sch (s : State) (a : Nat) (v : Word) : (s.putWord a v).sch = s.sch := rfl
@[simp] theorem putWord_glb (s : State) (a : Nat) (v : Word) : (s.putWord a v).glb = s.glb := rfl
@[simp] theorem putWord_sec (s : State) (a : Nat) (v : Word) : (s.putWord a v).sec = s.sec := rfl
@[simp] theorem putWord_net (s : State) (a : Nat) (v : Word) : (s.putWord a v).net = s.net := rfl
@[simp] theorem putWord_twn (s : State) (a : Nat) (v : Word) : (s.putWord a v).twn = s.twn := rfl
@[simp] theorem putWord_esp (s : State) (a : Nat) (v : Word) : (s.putWord a v).esp = s.esp := rfl
@[simp] theorem putWord_svi (s : State) (a : Nat) (v : Word) : (s.putWord a v).svi = s.svi := rfl
@[simp] theorem putWord_afe (s : State) (a : Nat) (v : Word) : (s.putWord a v).afe = s.afe := rfl
@[simp] theorem putWord_dch (s : State) (a : Nat) (v : Word) : (s.putWord a v).dch = s.dch := rfl
@[simp] theorem putWord_parBad (s : State) (a : Nat) (v : Word) : (s.putWord a v).parBad = s.parBad := rfl
@[simp] theorem putWord_freeCnt (s : State) (a : Nat) (v : Word) : (s.putWord a v).freeCnt = s.freeCnt := rfl
@[simp] theorem putWord_pending (s : State) (a : Nat) (v : Word) : (s.putWord a v).pending = s.pending := rfl

/-! ### `putBytes` changes `mem eccBad eccSoft` only -/

@[simp] theorem putBytes_regs (s : State) (a : Nat) (l : List Byte) : (s.putBytes a l).regs = s.regs := rfl
@[simp] theorem putBytes_wide (s : State) (a : Nat) (l : List Byte) : (s.putBytes a l).wide = s.wide := rfl
@[simp] theorem putBytes_yew (s : State) (a : Nat) (l : List Byte) : (s.putBytes a l).yew = s.yew := rfl
@[simp] theorem putBytes_prv (s : State) (a : Nat) (l : List Byte) : (s.putBytes a l).prv = s.prv := rfl
@[simp] theorem putBytes_tim (s : State) (a : Nat) (l : List Byte) : (s.putBytes a l).tim = s.tim := rfl
@[simp] theorem putBytes_hst (s : State) (a : Nat) (l : List Byte) : (s.putBytes a l).hst = s.hst := rfl
@[simp] theorem putBytes_dr (s : State) (a : Nat) (l : List Byte) : (s.putBytes a l).dr = s.dr := rfl
@[simp] theorem putBytes_img (s : State) (a : Nat) (l : List Byte) : (s.putBytes a l).img = s.img := rfl
@[simp] theorem putBytes_ec (s : State) (a : Nat) (l : List Byte) : (s.putBytes a l).ec = s.ec := rfl
@[simp] theorem putBytes_ph (s : State) (a : Nat) (l : List Byte) : (s.putBytes a l).ph = s.ph := rfl
@[simp] theorem putBytes_snapTick (s : State) (a : Nat) (l : List Byte) : (s.putBytes a l).snapTick = s.snapTick := rfl
@[simp] theorem putBytes_thn (s : State) (a : Nat) (l : List Byte) : (s.putBytes a l).thn = s.thn := rfl
@[simp] theorem putBytes_sch (s : State) (a : Nat) (l : List Byte) : (s.putBytes a l).sch = s.sch := rfl
@[simp] theorem putBytes_glb (s : State) (a : Nat) (l : List Byte) : (s.putBytes a l).glb = s.glb := rfl
@[simp] theorem putBytes_sec (s : State) (a : Nat) (l : List Byte) : (s.putBytes a l).sec = s.sec := rfl
@[simp] theorem putBytes_net (s : State) (a : Nat) (l : List Byte) : (s.putBytes a l).net = s.net := rfl
@[simp] theorem putBytes_twn (s : State) (a : Nat) (l : List Byte) : (s.putBytes a l).twn = s.twn := rfl
@[simp] theorem putBytes_esp (s : State) (a : Nat) (l : List Byte) : (s.putBytes a l).esp = s.esp := rfl
@[simp] theorem putBytes_svi (s : State) (a : Nat) (l : List Byte) : (s.putBytes a l).svi = s.svi := rfl
@[simp] theorem putBytes_afe (s : State) (a : Nat) (l : List Byte) : (s.putBytes a l).afe = s.afe := rfl
@[simp] theorem putBytes_dch (s : State) (a : Nat) (l : List Byte) : (s.putBytes a l).dch = s.dch := rfl
@[simp] theorem putBytes_parBad (s : State) (a : Nat) (l : List Byte) : (s.putBytes a l).parBad = s.parBad := rfl
@[simp] theorem putBytes_freeCnt (s : State) (a : Nat) (l : List Byte) : (s.putBytes a l).freeCnt = s.freeCnt := rfl
@[simp] theorem putBytes_pending (s : State) (a : Nat) (l : List Byte) : (s.putBytes a l).pending = s.pending := rfl

/-! ### `fresh` changes `freeCnt` only -/

@[simp] theorem fresh_regs (s : State) (w : Nat) : ((s.fresh w).2).regs = s.regs := rfl
@[simp] theorem fresh_wide (s : State) (w : Nat) : ((s.fresh w).2).wide = s.wide := rfl
@[simp] theorem fresh_mem (s : State) (w : Nat) : ((s.fresh w).2).mem = s.mem := rfl
@[simp] theorem fresh_yew (s : State) (w : Nat) : ((s.fresh w).2).yew = s.yew := rfl
@[simp] theorem fresh_prv (s : State) (w : Nat) : ((s.fresh w).2).prv = s.prv := rfl
@[simp] theorem fresh_tim (s : State) (w : Nat) : ((s.fresh w).2).tim = s.tim := rfl
@[simp] theorem fresh_hst (s : State) (w : Nat) : ((s.fresh w).2).hst = s.hst := rfl
@[simp] theorem fresh_dr (s : State) (w : Nat) : ((s.fresh w).2).dr = s.dr := rfl
@[simp] theorem fresh_img (s : State) (w : Nat) : ((s.fresh w).2).img = s.img := rfl
@[simp] theorem fresh_ec (s : State) (w : Nat) : ((s.fresh w).2).ec = s.ec := rfl
@[simp] theorem fresh_ph (s : State) (w : Nat) : ((s.fresh w).2).ph = s.ph := rfl
@[simp] theorem fresh_snapTick (s : State) (w : Nat) : ((s.fresh w).2).snapTick = s.snapTick := rfl
@[simp] theorem fresh_thn (s : State) (w : Nat) : ((s.fresh w).2).thn = s.thn := rfl
@[simp] theorem fresh_sch (s : State) (w : Nat) : ((s.fresh w).2).sch = s.sch := rfl
@[simp] theorem fresh_glb (s : State) (w : Nat) : ((s.fresh w).2).glb = s.glb := rfl
@[simp] theorem fresh_sec (s : State) (w : Nat) : ((s.fresh w).2).sec = s.sec := rfl
@[simp] theorem fresh_net (s : State) (w : Nat) : ((s.fresh w).2).net = s.net := rfl
@[simp] theorem fresh_twn (s : State) (w : Nat) : ((s.fresh w).2).twn = s.twn := rfl
@[simp] theorem fresh_esp (s : State) (w : Nat) : ((s.fresh w).2).esp = s.esp := rfl
@[simp] theorem fresh_svi (s : State) (w : Nat) : ((s.fresh w).2).svi = s.svi := rfl
@[simp] theorem fresh_afe (s : State) (w : Nat) : ((s.fresh w).2).afe = s.afe := rfl
@[simp] theorem fresh_dch (s : State) (w : Nat) : ((s.fresh w).2).dch = s.dch := rfl
@[simp] theorem fresh_eccBad (s : State) (w : Nat) : ((s.fresh w).2).eccBad = s.eccBad := rfl
@[simp] theorem fresh_eccSoft (s : State) (w : Nat) : ((s.fresh w).2).eccSoft = s.eccSoft := rfl
@[simp] theorem fresh_parBad (s : State) (w : Nat) : ((s.fresh w).2).parBad = s.parBad := rfl
@[simp] theorem fresh_pending (s : State) (w : Nat) : ((s.fresh w).2).pending = s.pending := rfl

/-! ### `setTb` changes `tim` only -/

@[simp] theorem setTb_regs (s : State) (b : Nat) (t : TBase) : (s.setTb b t).regs = s.regs := rfl
@[simp] theorem setTb_wide (s : State) (b : Nat) (t : TBase) : (s.setTb b t).wide = s.wide := rfl
@[simp] theorem setTb_mem (s : State) (b : Nat) (t : TBase) : (s.setTb b t).mem = s.mem := rfl
@[simp] theorem setTb_yew (s : State) (b : Nat) (t : TBase) : (s.setTb b t).yew = s.yew := rfl
@[simp] theorem setTb_prv (s : State) (b : Nat) (t : TBase) : (s.setTb b t).prv = s.prv := rfl
@[simp] theorem setTb_hst (s : State) (b : Nat) (t : TBase) : (s.setTb b t).hst = s.hst := rfl
@[simp] theorem setTb_dr (s : State) (b : Nat) (t : TBase) : (s.setTb b t).dr = s.dr := rfl
@[simp] theorem setTb_img (s : State) (b : Nat) (t : TBase) : (s.setTb b t).img = s.img := rfl
@[simp] theorem setTb_ec (s : State) (b : Nat) (t : TBase) : (s.setTb b t).ec = s.ec := rfl
@[simp] theorem setTb_ph (s : State) (b : Nat) (t : TBase) : (s.setTb b t).ph = s.ph := rfl
@[simp] theorem setTb_snapTick (s : State) (b : Nat) (t : TBase) : (s.setTb b t).snapTick = s.snapTick := rfl
@[simp] theorem setTb_thn (s : State) (b : Nat) (t : TBase) : (s.setTb b t).thn = s.thn := rfl
@[simp] theorem setTb_sch (s : State) (b : Nat) (t : TBase) : (s.setTb b t).sch = s.sch := rfl
@[simp] theorem setTb_glb (s : State) (b : Nat) (t : TBase) : (s.setTb b t).glb = s.glb := rfl
@[simp] theorem setTb_sec (s : State) (b : Nat) (t : TBase) : (s.setTb b t).sec = s.sec := rfl
@[simp] theorem setTb_net (s : State) (b : Nat) (t : TBase) : (s.setTb b t).net = s.net := rfl
@[simp] theorem setTb_twn (s : State) (b : Nat) (t : TBase) : (s.setTb b t).twn = s.twn := rfl
@[simp] theorem setTb_esp (s : State) (b : Nat) (t : TBase) : (s.setTb b t).esp = s.esp := rfl
@[simp] theorem setTb_svi (s : State) (b : Nat) (t : TBase) : (s.setTb b t).svi = s.svi := rfl
@[simp] theorem setTb_afe (s : State) (b : Nat) (t : TBase) : (s.setTb b t).afe = s.afe := rfl
@[simp] theorem setTb_dch (s : State) (b : Nat) (t : TBase) : (s.setTb b t).dch = s.dch := rfl
@[simp] theorem setTb_eccBad (s : State) (b : Nat) (t : TBase) : (s.setTb b t).eccBad = s.eccBad := rfl
@[simp] theorem setTb_eccSoft (s : State) (b : Nat) (t : TBase) : (s.setTb b t).eccSoft = s.eccSoft := rfl
@[simp] theorem setTb_parBad (s : State) (b : Nat) (t : TBase) : (s.setTb b t).parBad = s.parBad := rfl
@[simp] theorem setTb_freeCnt (s : State) (b : Nat) (t : TBase) : (s.setTb b t).freeCnt = s.freeCnt := rfl
@[simp] theorem setTb_pending (s : State) (b : Nat) (t : TBase) : (s.setTb b t).pending = s.pending := rfl

/-! ### `logEv` changes `yew` only -/

@[simp] theorem logEv_regs (s : State) (src code : Nat) (p : List Byte) (c : Nat) (tell : SeqTo) : (s.logEv src code p c tell).regs = s.regs := rfl
@[simp] theorem logEv_wide (s : State) (src code : Nat) (p : List Byte) (c : Nat) (tell : SeqTo) : (s.logEv src code p c tell).wide = s.wide := rfl
@[simp] theorem logEv_mem (s : State) (src code : Nat) (p : List Byte) (c : Nat) (tell : SeqTo) : (s.logEv src code p c tell).mem = s.mem := rfl
@[simp] theorem logEv_prv (s : State) (src code : Nat) (p : List Byte) (c : Nat) (tell : SeqTo) : (s.logEv src code p c tell).prv = s.prv := rfl
@[simp] theorem logEv_tim (s : State) (src code : Nat) (p : List Byte) (c : Nat) (tell : SeqTo) : (s.logEv src code p c tell).tim = s.tim := rfl
@[simp] theorem logEv_hst (s : State) (src code : Nat) (p : List Byte) (c : Nat) (tell : SeqTo) : (s.logEv src code p c tell).hst = s.hst := rfl
@[simp] theorem logEv_dr (s : State) (src code : Nat) (p : List Byte) (c : Nat) (tell : SeqTo) : (s.logEv src code p c tell).dr = s.dr := rfl
@[simp] theorem logEv_img (s : State) (src code : Nat) (p : List Byte) (c : Nat) (tell : SeqTo) : (s.logEv src code p c tell).img = s.img := rfl
@[simp] theorem logEv_ec (s : State) (src code : Nat) (p : List Byte) (c : Nat) (tell : SeqTo) : (s.logEv src code p c tell).ec = s.ec := rfl
@[simp] theorem logEv_ph (s : State) (src code : Nat) (p : List Byte) (c : Nat) (tell : SeqTo) : (s.logEv src code p c tell).ph = s.ph := rfl
@[simp] theorem logEv_snapTick (s : State) (src code : Nat) (p : List Byte) (c : Nat) (tell : SeqTo) : (s.logEv src code p c tell).snapTick = s.snapTick := rfl
@[simp] theorem logEv_thn (s : State) (src code : Nat) (p : List Byte) (c : Nat) (tell : SeqTo) : (s.logEv src code p c tell).thn = s.thn := rfl
@[simp] theorem logEv_sch (s : State) (src code : Nat) (p : List Byte) (c : Nat) (tell : SeqTo) : (s.logEv src code p c tell).sch = s.sch := rfl
@[simp] theorem logEv_glb (s : State) (src code : Nat) (p : List Byte) (c : Nat) (tell : SeqTo) : (s.logEv src code p c tell).glb = s.glb := rfl
@[simp] theorem logEv_sec (s : State) (src code : Nat) (p : List Byte) (c : Nat) (tell : SeqTo) : (s.logEv src code p c tell).sec = s.sec := rfl
@[simp] theorem logEv_net (s : State) (src code : Nat) (p : List Byte) (c : Nat) (tell : SeqTo) : (s.logEv src code p c tell).net = s.net := rfl
@[simp] theorem logEv_twn (s : State) (src code : Nat) (p : List Byte) (c : Nat) (tell : SeqTo) : (s.logEv src code p c tell).twn = s.twn := rfl
@[simp] theorem logEv_esp (s : State) (src code : Nat) (p : List Byte) (c : Nat) (tell : SeqTo) : (s.logEv src code p c tell).esp = s.esp := rfl
@[simp] theorem logEv_svi (s : State) (src code : Nat) (p : List Byte) (c : Nat) (tell : SeqTo) : (s.logEv src code p c tell).svi = s.svi := rfl
@[simp] theorem logEv_afe (s : State) (src code : Nat) (p : List Byte) (c : Nat) (tell : SeqTo) : (s.logEv src code p c tell).afe = s.afe := rfl
@[simp] theorem logEv_dch (s : State) (src code : Nat) (p : List Byte) (c : Nat) (tell : SeqTo) : (s.logEv src code p c tell).dch = s.dch := rfl
@[simp] theorem logEv_eccBad (s : State) (src code : Nat) (p : List Byte) (c : Nat) (tell : SeqTo) : (s.logEv src code p c tell).eccBad = s.eccBad := rfl
@[simp] theorem logEv_eccSoft (s : State) (src code : Nat) (p : List Byte) (c : Nat) (tell : SeqTo) : (s.logEv src code p c tell).eccSoft = s.eccSoft := rfl
@[simp] theorem logEv_parBad (s : State) (src code : Nat) (p : List Byte) (c : Nat) (tell : SeqTo) : (s.logEv src code p c tell).parBad = s.parBad := rfl
@[simp] theorem logEv_freeCnt (s : State) (src code : Nat) (p : List Byte) (c : Nat) (tell : SeqTo) : (s.logEv src code p c tell).freeCnt = s.freeCnt := rfl
@[simp] theorem logEv_pending (s : State) (src code : Nat) (p : List Byte) (c : Nat) (tell : SeqTo) : (s.logEv src code p c tell).pending = s.pending := rfl

/-! ### `logAon` changes `yew` only -/

@[simp] theorem logAon_regs (s : State) (src code : Nat) (p : List Byte) (c : Nat) (tell : SeqTo) : (s.logAon src code p c tell).regs = s.regs := rfl
@[simp] theorem logAon_wide (s : State) (src code : Nat) (p : List Byte) (c : Nat) (tell : SeqTo) : (s.logAon src code p c tell).wide = s.wide := rfl
@[simp] theorem logAon_mem (s : State) (src code : Nat) (p : List Byte) (c : Nat) (tell : SeqTo) : (s.logAon src code p c tell).mem = s.mem := rfl
@[simp] theorem logAon_prv (s : State) (src code : Nat) (p : List Byte) (c : Nat) (tell : SeqTo) : (s.logAon src code p c tell).prv = s.prv := rfl
@[simp] theorem logAon_tim (s : State) (src code : Nat) (p : List Byte) (c : Nat) (tell : SeqTo) : (s.logAon src code p c tell).tim = s.tim := rfl
@[simp] theorem logAon_hst (s : State) (src code : Nat) (p : List Byte) (c : Nat) (tell : SeqTo) : (s.logAon src code p c tell).hst = s.hst := rfl
@[simp] theorem logAon_dr (s : State) (src code : Nat) (p : List Byte) (c : Nat) (tell : SeqTo) : (s.logAon src code p c tell).dr = s.dr := rfl
@[simp] theorem logAon_img (s : State) (src code : Nat) (p : List Byte) (c : Nat) (tell : SeqTo) : (s.logAon src code p c tell).img = s.img := rfl
@[simp] theorem logAon_ec (s : State) (src code : Nat) (p : List Byte) (c : Nat) (tell : SeqTo) : (s.logAon src code p c tell).ec = s.ec := rfl
@[simp] theorem logAon_ph (s : State) (src code : Nat) (p : List Byte) (c : Nat) (tell : SeqTo) : (s.logAon src code p c tell).ph = s.ph := rfl
@[simp] theorem logAon_snapTick (s : State) (src code : Nat) (p : List Byte) (c : Nat) (tell : SeqTo) : (s.logAon src code p c tell).snapTick = s.snapTick := rfl
@[simp] theorem logAon_thn (s : State) (src code : Nat) (p : List Byte) (c : Nat) (tell : SeqTo) : (s.logAon src code p c tell).thn = s.thn := rfl
@[simp] theorem logAon_sch (s : State) (src code : Nat) (p : List Byte) (c : Nat) (tell : SeqTo) : (s.logAon src code p c tell).sch = s.sch := rfl
@[simp] theorem logAon_glb (s : State) (src code : Nat) (p : List Byte) (c : Nat) (tell : SeqTo) : (s.logAon src code p c tell).glb = s.glb := rfl
@[simp] theorem logAon_sec (s : State) (src code : Nat) (p : List Byte) (c : Nat) (tell : SeqTo) : (s.logAon src code p c tell).sec = s.sec := rfl
@[simp] theorem logAon_net (s : State) (src code : Nat) (p : List Byte) (c : Nat) (tell : SeqTo) : (s.logAon src code p c tell).net = s.net := rfl
@[simp] theorem logAon_twn (s : State) (src code : Nat) (p : List Byte) (c : Nat) (tell : SeqTo) : (s.logAon src code p c tell).twn = s.twn := rfl
@[simp] theorem logAon_esp (s : State) (src code : Nat) (p : List Byte) (c : Nat) (tell : SeqTo) : (s.logAon src code p c tell).esp = s.esp := rfl
@[simp] theorem logAon_svi (s : State) (src code : Nat) (p : List Byte) (c : Nat) (tell : SeqTo) : (s.logAon src code p c tell).svi = s.svi := rfl
@[simp] theorem logAon_afe (s : State) (src code : Nat) (p : List Byte) (c : Nat) (tell : SeqTo) : (s.logAon src code p c tell).afe = s.afe := rfl
@[simp] theorem logAon_dch (s : State) (src code : Nat) (p : List Byte) (c : Nat) (tell : SeqTo) : (s.logAon src code p c tell).dch = s.dch := rfl
@[simp] theorem logAon_eccBad (s : State) (src code : Nat) (p : List Byte) (c : Nat) (tell : SeqTo) : (s.logAon src code p c tell).eccBad = s.eccBad := rfl
@[simp] theorem logAon_eccSoft (s : State) (src code : Nat) (p : List Byte) (c : Nat) (tell : SeqTo) : (s.logAon src code p c tell).eccSoft = s.eccSoft := rfl
@[simp] theorem logAon_parBad (s : State) (src code : Nat) (p : List Byte) (c : Nat) (tell : SeqTo) : (s.logAon src code p c tell).parBad = s.parBad := rfl
@[simp] theorem logAon_freeCnt (s : State) (src code : Nat) (p : List Byte) (c : Nat) (tell : SeqTo) : (s.logAon src code p c tell).freeCnt = s.freeCnt := rfl
@[simp] theorem logAon_pending (s : State) (src code : Nat) (p : List Byte) (c : Nat) (tell : SeqTo) : (s.logAon src code p c tell).pending = s.pending := rfl

/-! ### `logIx` changes `yew` only -/

@[simp] theorem logIx_regs (s : State) (src code k : Nat) : (s.logIx src code k).regs = s.regs := rfl
@[simp] theorem logIx_wide (s : State) (src code k : Nat) : (s.logIx src code k).wide = s.wide := rfl
@[simp] theorem logIx_mem (s : State) (src code k : Nat) : (s.logIx src code k).mem = s.mem := rfl
@[simp] theorem logIx_prv (s : State) (src code k : Nat) : (s.logIx src code k).prv = s.prv := rfl
@[simp] theorem logIx_tim (s : State) (src code k : Nat) : (s.logIx src code k).tim = s.tim := rfl
@[simp] theorem logIx_hst (s : State) (src code k : Nat) : (s.logIx src code k).hst = s.hst := rfl
@[simp] theorem logIx_dr (s : State) (src code k : Nat) : (s.logIx src code k).dr = s.dr := rfl
@[simp] theorem logIx_img (s : State) (src code k : Nat) : (s.logIx src code k).img = s.img := rfl
@[simp] theorem logIx_ec (s : State) (src code k : Nat) : (s.logIx src code k).ec = s.ec := rfl
@[simp] theorem logIx_ph (s : State) (src code k : Nat) : (s.logIx src code k).ph = s.ph := rfl
@[simp] theorem logIx_snapTick (s : State) (src code k : Nat) : (s.logIx src code k).snapTick = s.snapTick := rfl
@[simp] theorem logIx_thn (s : State) (src code k : Nat) : (s.logIx src code k).thn = s.thn := rfl
@[simp] theorem logIx_sch (s : State) (src code k : Nat) : (s.logIx src code k).sch = s.sch := rfl
@[simp] theorem logIx_glb (s : State) (src code k : Nat) : (s.logIx src code k).glb = s.glb := rfl
@[simp] theorem logIx_sec (s : State) (src code k : Nat) : (s.logIx src code k).sec = s.sec := rfl
@[simp] theorem logIx_net (s : State) (src code k : Nat) : (s.logIx src code k).net = s.net := rfl
@[simp] theorem logIx_twn (s : State) (src code k : Nat) : (s.logIx src code k).twn = s.twn := rfl
@[simp] theorem logIx_esp (s : State) (src code k : Nat) : (s.logIx src code k).esp = s.esp := rfl
@[simp] theorem logIx_svi (s : State) (src code k : Nat) : (s.logIx src code k).svi = s.svi := rfl
@[simp] theorem logIx_afe (s : State) (src code k : Nat) : (s.logIx src code k).afe = s.afe := rfl
@[simp] theorem logIx_dch (s : State) (src code k : Nat) : (s.logIx src code k).dch = s.dch := rfl
@[simp] theorem logIx_eccBad (s : State) (src code k : Nat) : (s.logIx src code k).eccBad = s.eccBad := rfl
@[simp] theorem logIx_eccSoft (s : State) (src code k : Nat) : (s.logIx src code k).eccSoft = s.eccSoft := rfl
@[simp] theorem logIx_parBad (s : State) (src code k : Nat) : (s.logIx src code k).parBad = s.parBad := rfl
@[simp] theorem logIx_freeCnt (s : State) (src code k : Nat) : (s.logIx src code k).freeCnt = s.freeCnt := rfl
@[simp] theorem logIx_pending (s : State) (src code k : Nat) : (s.logIx src code k).pending = s.pending := rfl

/-! ### `raiseLine` changes `prv` only -/

@[simp] theorem raiseLine_regs (s : State) (k d : Nat) : (s.raiseLine k d).regs = s.regs := rfl
@[simp] theorem raiseLine_wide (s : State) (k d : Nat) : (s.raiseLine k d).wide = s.wide := rfl
@[simp] theorem raiseLine_mem (s : State) (k d : Nat) : (s.raiseLine k d).mem = s.mem := rfl
@[simp] theorem raiseLine_yew (s : State) (k d : Nat) : (s.raiseLine k d).yew = s.yew := rfl
@[simp] theorem raiseLine_tim (s : State) (k d : Nat) : (s.raiseLine k d).tim = s.tim := rfl
@[simp] theorem raiseLine_hst (s : State) (k d : Nat) : (s.raiseLine k d).hst = s.hst := rfl
@[simp] theorem raiseLine_dr (s : State) (k d : Nat) : (s.raiseLine k d).dr = s.dr := rfl
@[simp] theorem raiseLine_img (s : State) (k d : Nat) : (s.raiseLine k d).img = s.img := rfl
@[simp] theorem raiseLine_ec (s : State) (k d : Nat) : (s.raiseLine k d).ec = s.ec := rfl
@[simp] theorem raiseLine_ph (s : State) (k d : Nat) : (s.raiseLine k d).ph = s.ph := rfl
@[simp] theorem raiseLine_snapTick (s : State) (k d : Nat) : (s.raiseLine k d).snapTick = s.snapTick := rfl
@[simp] theorem raiseLine_thn (s : State) (k d : Nat) : (s.raiseLine k d).thn = s.thn := rfl
@[simp] theorem raiseLine_sch (s : State) (k d : Nat) : (s.raiseLine k d).sch = s.sch := rfl
@[simp] theorem raiseLine_glb (s : State) (k d : Nat) : (s.raiseLine k d).glb = s.glb := rfl
@[simp] theorem raiseLine_sec (s : State) (k d : Nat) : (s.raiseLine k d).sec = s.sec := rfl
@[simp] theorem raiseLine_net (s : State) (k d : Nat) : (s.raiseLine k d).net = s.net := rfl
@[simp] theorem raiseLine_twn (s : State) (k d : Nat) : (s.raiseLine k d).twn = s.twn := rfl
@[simp] theorem raiseLine_esp (s : State) (k d : Nat) : (s.raiseLine k d).esp = s.esp := rfl
@[simp] theorem raiseLine_svi (s : State) (k d : Nat) : (s.raiseLine k d).svi = s.svi := rfl
@[simp] theorem raiseLine_afe (s : State) (k d : Nat) : (s.raiseLine k d).afe = s.afe := rfl
@[simp] theorem raiseLine_dch (s : State) (k d : Nat) : (s.raiseLine k d).dch = s.dch := rfl
@[simp] theorem raiseLine_eccBad (s : State) (k d : Nat) : (s.raiseLine k d).eccBad = s.eccBad := rfl
@[simp] theorem raiseLine_eccSoft (s : State) (k d : Nat) : (s.raiseLine k d).eccSoft = s.eccSoft := rfl
@[simp] theorem raiseLine_parBad (s : State) (k d : Nat) : (s.raiseLine k d).parBad = s.parBad := rfl
@[simp] theorem raiseLine_freeCnt (s : State) (k d : Nat) : (s.raiseLine k d).freeCnt = s.freeCnt := rfl
@[simp] theorem raiseLine_pending (s : State) (k d : Nat) : (s.raiseLine k d).pending = s.pending := rfl

/-! ### `itemOn` changes `prv` only -/

@[simp] theorem itemOn_regs (s : State) (k x d : Nat) : (s.itemOn k x d).regs = s.regs := by unfold State.itemOn; split <;> rfl
@[simp] theorem itemOn_wide (s : State) (k x d : Nat) : (s.itemOn k x d).wide = s.wide := by unfold State.itemOn; split <;> rfl
@[simp] theorem itemOn_mem (s : State) (k x d : Nat) : (s.itemOn k x d).mem = s.mem := by unfold State.itemOn; split <;> rfl
@[simp] theorem itemOn_yew (s : State) (k x d : Nat) : (s.itemOn k x d).yew = s.yew := by unfold State.itemOn; split <;> rfl
@[simp] theorem itemOn_tim (s : State) (k x d : Nat) : (s.itemOn k x d).tim = s.tim := by unfold State.itemOn; split <;> rfl
@[simp] theorem itemOn_hst (s : State) (k x d : Nat) : (s.itemOn k x d).hst = s.hst := by unfold State.itemOn; split <;> rfl
@[simp] theorem itemOn_dr (s : State) (k x d : Nat) : (s.itemOn k x d).dr = s.dr := by unfold State.itemOn; split <;> rfl
@[simp] theorem itemOn_img (s : State) (k x d : Nat) : (s.itemOn k x d).img = s.img := by unfold State.itemOn; split <;> rfl
@[simp] theorem itemOn_ec (s : State) (k x d : Nat) : (s.itemOn k x d).ec = s.ec := by unfold State.itemOn; split <;> rfl
@[simp] theorem itemOn_ph (s : State) (k x d : Nat) : (s.itemOn k x d).ph = s.ph := by unfold State.itemOn; split <;> rfl
@[simp] theorem itemOn_snapTick (s : State) (k x d : Nat) : (s.itemOn k x d).snapTick = s.snapTick := by unfold State.itemOn; split <;> rfl
@[simp] theorem itemOn_thn (s : State) (k x d : Nat) : (s.itemOn k x d).thn = s.thn := by unfold State.itemOn; split <;> rfl
@[simp] theorem itemOn_sch (s : State) (k x d : Nat) : (s.itemOn k x d).sch = s.sch := by unfold State.itemOn; split <;> rfl
@[simp] theorem itemOn_glb (s : State) (k x d : Nat) : (s.itemOn k x d).glb = s.glb := by unfold State.itemOn; split <;> rfl
@[simp] theorem itemOn_sec (s : State) (k x d : Nat) : (s.itemOn k x d).sec = s.sec := by unfold State.itemOn; split <;> rfl
@[simp] theorem itemOn_net (s : State) (k x d : Nat) : (s.itemOn k x d).net = s.net := by unfold State.itemOn; split <;> rfl
@[simp] theorem itemOn_twn (s : State) (k x d : Nat) : (s.itemOn k x d).twn = s.twn := by unfold State.itemOn; split <;> rfl
@[simp] theorem itemOn_esp (s : State) (k x d : Nat) : (s.itemOn k x d).esp = s.esp := by unfold State.itemOn; split <;> rfl
@[simp] theorem itemOn_svi (s : State) (k x d : Nat) : (s.itemOn k x d).svi = s.svi := by unfold State.itemOn; split <;> rfl
@[simp] theorem itemOn_afe (s : State) (k x d : Nat) : (s.itemOn k x d).afe = s.afe := by unfold State.itemOn; split <;> rfl
@[simp] theorem itemOn_dch (s : State) (k x d : Nat) : (s.itemOn k x d).dch = s.dch := by unfold State.itemOn; split <;> rfl
@[simp] theorem itemOn_eccBad (s : State) (k x d : Nat) : (s.itemOn k x d).eccBad = s.eccBad := by unfold State.itemOn; split <;> rfl
@[simp] theorem itemOn_eccSoft (s : State) (k x d : Nat) : (s.itemOn k x d).eccSoft = s.eccSoft := by unfold State.itemOn; split <;> rfl
@[simp] theorem itemOn_parBad (s : State) (k x d : Nat) : (s.itemOn k x d).parBad = s.parBad := by unfold State.itemOn; split <;> rfl
@[simp] theorem itemOn_freeCnt (s : State) (k x d : Nat) : (s.itemOn k x d).freeCnt = s.freeCnt := by unfold State.itemOn; split <;> rfl
@[simp] theorem itemOn_pending (s : State) (k x d : Nat) : (s.itemOn k x d).pending = s.pending := by unfold State.itemOn; split <;> rfl

/-! ### `itemOnQuiet` changes `prv` only -/

@[simp] theorem itemOnQuiet_regs (s : State) (k x : Nat) : (s.itemOnQuiet k x).regs = s.regs := by unfold State.itemOnQuiet; split <;> rfl
@[simp] theorem itemOnQuiet_wide (s : State) (k x : Nat) : (s.itemOnQuiet k x).wide = s.wide := by unfold State.itemOnQuiet; split <;> rfl
@[simp] theorem itemOnQuiet_mem (s : State) (k x : Nat) : (s.itemOnQuiet k x).mem = s.mem := by unfold State.itemOnQuiet; split <;> rfl
@[simp] theorem itemOnQuiet_yew (s : State) (k x : Nat) : (s.itemOnQuiet k x).yew = s.yew := by unfold State.itemOnQuiet; split <;> rfl
@[simp] theorem itemOnQuiet_tim (s : State) (k x : Nat) : (s.itemOnQuiet k x).tim = s.tim := by unfold State.itemOnQuiet; split <;> rfl
@[simp] theorem itemOnQuiet_hst (s : State) (k x : Nat) : (s.itemOnQuiet k x).hst = s.hst := by unfold State.itemOnQuiet; split <;> rfl
@[simp] theorem itemOnQuiet_dr (s : State) (k x : Nat) : (s.itemOnQuiet k x).dr = s.dr := by unfold State.itemOnQuiet; split <;> rfl
@[simp] theorem itemOnQuiet_img (s : State) (k x : Nat) : (s.itemOnQuiet k x).img = s.img := by unfold State.itemOnQuiet; split <;> rfl
@[simp] theorem itemOnQuiet_ec (s : State) (k x : Nat) : (s.itemOnQuiet k x).ec = s.ec := by unfold State.itemOnQuiet; split <;> rfl
@[simp] theorem itemOnQuiet_ph (s : State) (k x : Nat) : (s.itemOnQuiet k x).ph = s.ph := by unfold State.itemOnQuiet; split <;> rfl
@[simp] theorem itemOnQuiet_snapTick (s : State) (k x : Nat) : (s.itemOnQuiet k x).snapTick = s.snapTick := by unfold State.itemOnQuiet; split <;> rfl
@[simp] theorem itemOnQuiet_thn (s : State) (k x : Nat) : (s.itemOnQuiet k x).thn = s.thn := by unfold State.itemOnQuiet; split <;> rfl
@[simp] theorem itemOnQuiet_sch (s : State) (k x : Nat) : (s.itemOnQuiet k x).sch = s.sch := by unfold State.itemOnQuiet; split <;> rfl
@[simp] theorem itemOnQuiet_glb (s : State) (k x : Nat) : (s.itemOnQuiet k x).glb = s.glb := by unfold State.itemOnQuiet; split <;> rfl
@[simp] theorem itemOnQuiet_sec (s : State) (k x : Nat) : (s.itemOnQuiet k x).sec = s.sec := by unfold State.itemOnQuiet; split <;> rfl
@[simp] theorem itemOnQuiet_net (s : State) (k x : Nat) : (s.itemOnQuiet k x).net = s.net := by unfold State.itemOnQuiet; split <;> rfl
@[simp] theorem itemOnQuiet_twn (s : State) (k x : Nat) : (s.itemOnQuiet k x).twn = s.twn := by unfold State.itemOnQuiet; split <;> rfl
@[simp] theorem itemOnQuiet_esp (s : State) (k x : Nat) : (s.itemOnQuiet k x).esp = s.esp := by unfold State.itemOnQuiet; split <;> rfl
@[simp] theorem itemOnQuiet_svi (s : State) (k x : Nat) : (s.itemOnQuiet k x).svi = s.svi := by unfold State.itemOnQuiet; split <;> rfl
@[simp] theorem itemOnQuiet_afe (s : State) (k x : Nat) : (s.itemOnQuiet k x).afe = s.afe := by unfold State.itemOnQuiet; split <;> rfl
@[simp] theorem itemOnQuiet_dch (s : State) (k x : Nat) : (s.itemOnQuiet k x).dch = s.dch := by unfold State.itemOnQuiet; split <;> rfl
@[simp] theorem itemOnQuiet_eccBad (s : State) (k x : Nat) : (s.itemOnQuiet k x).eccBad = s.eccBad := by unfold State.itemOnQuiet; split <;> rfl
@[simp] theorem itemOnQuiet_eccSoft (s : State) (k x : Nat) : (s.itemOnQuiet k x).eccSoft = s.eccSoft := by unfold State.itemOnQuiet; split <;> rfl
@[simp] theorem itemOnQuiet_parBad (s : State) (k x : Nat) : (s.itemOnQuiet k x).parBad = s.parBad := by unfold State.itemOnQuiet; split <;> rfl
@[simp] theorem itemOnQuiet_freeCnt (s : State) (k x : Nat) : (s.itemOnQuiet k x).freeCnt = s.freeCnt := by unfold State.itemOnQuiet; split <;> rfl
@[simp] theorem itemOnQuiet_pending (s : State) (k x : Nat) : (s.itemOnQuiet k x).pending = s.pending := by unfold State.itemOnQuiet; split <;> rfl

/-! ### `itemOff` changes `prv` only -/

@[simp] theorem itemOff_regs (s : State) (k x : Nat) : (s.itemOff k x).regs = s.regs := rfl
@[simp] theorem itemOff_wide (s : State) (k x : Nat) : (s.itemOff k x).wide = s.wide := rfl
@[simp] theorem itemOff_mem (s : State) (k x : Nat) : (s.itemOff k x).mem = s.mem := rfl
@[simp] theorem itemOff_yew (s : State) (k x : Nat) : (s.itemOff k x).yew = s.yew := rfl
@[simp] theorem itemOff_tim (s : State) (k x : Nat) : (s.itemOff k x).tim = s.tim := rfl
@[simp] theorem itemOff_hst (s : State) (k x : Nat) : (s.itemOff k x).hst = s.hst := rfl
@[simp] theorem itemOff_dr (s : State) (k x : Nat) : (s.itemOff k x).dr = s.dr := rfl
@[simp] theorem itemOff_img (s : State) (k x : Nat) : (s.itemOff k x).img = s.img := rfl
@[simp] theorem itemOff_ec (s : State) (k x : Nat) : (s.itemOff k x).ec = s.ec := rfl
@[simp] theorem itemOff_ph (s : State) (k x : Nat) : (s.itemOff k x).ph = s.ph := rfl
@[simp] theorem itemOff_snapTick (s : State) (k x : Nat) : (s.itemOff k x).snapTick = s.snapTick := rfl
@[simp] theorem itemOff_thn (s : State) (k x : Nat) : (s.itemOff k x).thn = s.thn := rfl
@[simp] theorem itemOff_sch (s : State) (k x : Nat) : (s.itemOff k x).sch = s.sch := rfl
@[simp] theorem itemOff_glb (s : State) (k x : Nat) : (s.itemOff k x).glb = s.glb := rfl
@[simp] theorem itemOff_sec (s : State) (k x : Nat) : (s.itemOff k x).sec = s.sec := rfl
@[simp] theorem itemOff_net (s : State) (k x : Nat) : (s.itemOff k x).net = s.net := rfl
@[simp] theorem itemOff_twn (s : State) (k x : Nat) : (s.itemOff k x).twn = s.twn := rfl
@[simp] theorem itemOff_esp (s : State) (k x : Nat) : (s.itemOff k x).esp = s.esp := rfl
@[simp] theorem itemOff_svi (s : State) (k x : Nat) : (s.itemOff k x).svi = s.svi := rfl
@[simp] theorem itemOff_afe (s : State) (k x : Nat) : (s.itemOff k x).afe = s.afe := rfl
@[simp] theorem itemOff_dch (s : State) (k x : Nat) : (s.itemOff k x).dch = s.dch := rfl
@[simp] theorem itemOff_eccBad (s : State) (k x : Nat) : (s.itemOff k x).eccBad = s.eccBad := rfl
@[simp] theorem itemOff_eccSoft (s : State) (k x : Nat) : (s.itemOff k x).eccSoft = s.eccSoft := rfl
@[simp] theorem itemOff_parBad (s : State) (k x : Nat) : (s.itemOff k x).parBad = s.parBad := rfl
@[simp] theorem itemOff_freeCnt (s : State) (k x : Nat) : (s.itemOff k x).freeCnt = s.freeCnt := rfl
@[simp] theorem itemOff_pending (s : State) (k x : Nat) : (s.itemOff k x).pending = s.pending := rfl

/-! ### `fireVec` changes `hst` only -/

@[simp] theorem fireVec_regs (s : State) (v : Nat) : (s.fireVec v).regs = s.regs := by unfold State.fireVec State.sendVec; (repeat' split) <;> rfl
@[simp] theorem fireVec_wide (s : State) (v : Nat) : (s.fireVec v).wide = s.wide := by unfold State.fireVec State.sendVec; (repeat' split) <;> rfl
@[simp] theorem fireVec_mem (s : State) (v : Nat) : (s.fireVec v).mem = s.mem := by unfold State.fireVec State.sendVec; (repeat' split) <;> rfl
@[simp] theorem fireVec_yew (s : State) (v : Nat) : (s.fireVec v).yew = s.yew := by unfold State.fireVec State.sendVec; (repeat' split) <;> rfl
@[simp] theorem fireVec_prv (s : State) (v : Nat) : (s.fireVec v).prv = s.prv := by unfold State.fireVec State.sendVec; (repeat' split) <;> rfl
@[simp] theorem fireVec_tim (s : State) (v : Nat) : (s.fireVec v).tim = s.tim := by unfold State.fireVec State.sendVec; (repeat' split) <;> rfl
@[simp] theorem fireVec_dr (s : State) (v : Nat) : (s.fireVec v).dr = s.dr := by unfold State.fireVec State.sendVec; (repeat' split) <;> rfl
@[simp] theorem fireVec_img (s : State) (v : Nat) : (s.fireVec v).img = s.img := by unfold State.fireVec State.sendVec; (repeat' split) <;> rfl
@[simp] theorem fireVec_ec (s : State) (v : Nat) : (s.fireVec v).ec = s.ec := by unfold State.fireVec State.sendVec; (repeat' split) <;> rfl
@[simp] theorem fireVec_ph (s : State) (v : Nat) : (s.fireVec v).ph = s.ph := by unfold State.fireVec State.sendVec; (repeat' split) <;> rfl
@[simp] theorem fireVec_snapTick (s : State) (v : Nat) : (s.fireVec v).snapTick = s.snapTick := by unfold State.fireVec State.sendVec; (repeat' split) <;> rfl
@[simp] theorem fireVec_thn (s : State) (v : Nat) : (s.fireVec v).thn = s.thn := by unfold State.fireVec State.sendVec; (repeat' split) <;> rfl
@[simp] theorem fireVec_sch (s : State) (v : Nat) : (s.fireVec v).sch = s.sch := by unfold State.fireVec State.sendVec; (repeat' split) <;> rfl
@[simp] theorem fireVec_glb (s : State) (v : Nat) : (s.fireVec v).glb = s.glb := by unfold State.fireVec State.sendVec; (repeat' split) <;> rfl
@[simp] theorem fireVec_sec (s : State) (v : Nat) : (s.fireVec v).sec = s.sec := by unfold State.fireVec State.sendVec; (repeat' split) <;> rfl
@[simp] theorem fireVec_net (s : State) (v : Nat) : (s.fireVec v).net = s.net := by unfold State.fireVec State.sendVec; (repeat' split) <;> rfl
@[simp] theorem fireVec_twn (s : State) (v : Nat) : (s.fireVec v).twn = s.twn := by unfold State.fireVec State.sendVec; (repeat' split) <;> rfl
@[simp] theorem fireVec_esp (s : State) (v : Nat) : (s.fireVec v).esp = s.esp := by unfold State.fireVec State.sendVec; (repeat' split) <;> rfl
@[simp] theorem fireVec_svi (s : State) (v : Nat) : (s.fireVec v).svi = s.svi := by unfold State.fireVec State.sendVec; (repeat' split) <;> rfl
@[simp] theorem fireVec_afe (s : State) (v : Nat) : (s.fireVec v).afe = s.afe := by unfold State.fireVec State.sendVec; (repeat' split) <;> rfl
@[simp] theorem fireVec_dch (s : State) (v : Nat) : (s.fireVec v).dch = s.dch := by unfold State.fireVec State.sendVec; (repeat' split) <;> rfl
@[simp] theorem fireVec_eccBad (s : State) (v : Nat) : (s.fireVec v).eccBad = s.eccBad := by unfold State.fireVec State.sendVec; (repeat' split) <;> rfl
@[simp] theorem fireVec_eccSoft (s : State) (v : Nat) : (s.fireVec v).eccSoft = s.eccSoft := by unfold State.fireVec State.sendVec; (repeat' split) <;> rfl
@[simp] theorem fireVec_parBad (s : State) (v : Nat) : (s.fireVec v).parBad = s.parBad := by unfold State.fireVec State.sendVec; (repeat' split) <;> rfl
@[simp] theorem fireVec_freeCnt (s : State) (v : Nat) : (s.fireVec v).freeCnt = s.freeCnt := by unfold State.fireVec State.sendVec; (repeat' split) <;> rfl
@[simp] theorem fireVec_pending (s : State) (v : Nat) : (s.fireVec v).pending = s.pending := by unfold State.fireVec State.sendVec; (repeat' split) <;> rfl

/-! ### `prvIrqEdge` changes `hst` only -/

@[simp] theorem prvIrqEdge_regs (s : State) (w : Bool) : (s.prvIrqEdge w).regs = s.regs := by unfold State.prvIrqEdge State.fireVec State.sendVec; (repeat' split) <;> rfl
@[simp] theorem prvIrqEdge_wide (s : State) (w : Bool) : (s.prvIrqEdge w).wide = s.wide := by unfold State.prvIrqEdge State.fireVec State.sendVec; (repeat' split) <;> rfl
@[simp] theorem prvIrqEdge_mem (s : State) (w : Bool) : (s.prvIrqEdge w).mem = s.mem := by unfold State.prvIrqEdge State.fireVec State.sendVec; (repeat' split) <;> rfl
@[simp] theorem prvIrqEdge_yew (s : State) (w : Bool) : (s.prvIrqEdge w).yew = s.yew := by unfold State.prvIrqEdge State.fireVec State.sendVec; (repeat' split) <;> rfl
@[simp] theorem prvIrqEdge_prv (s : State) (w : Bool) : (s.prvIrqEdge w).prv = s.prv := by unfold State.prvIrqEdge State.fireVec State.sendVec; (repeat' split) <;> rfl
@[simp] theorem prvIrqEdge_tim (s : State) (w : Bool) : (s.prvIrqEdge w).tim = s.tim := by unfold State.prvIrqEdge State.fireVec State.sendVec; (repeat' split) <;> rfl
@[simp] theorem prvIrqEdge_dr (s : State) (w : Bool) : (s.prvIrqEdge w).dr = s.dr := by unfold State.prvIrqEdge State.fireVec State.sendVec; (repeat' split) <;> rfl
@[simp] theorem prvIrqEdge_img (s : State) (w : Bool) : (s.prvIrqEdge w).img = s.img := by unfold State.prvIrqEdge State.fireVec State.sendVec; (repeat' split) <;> rfl
@[simp] theorem prvIrqEdge_ec (s : State) (w : Bool) : (s.prvIrqEdge w).ec = s.ec := by unfold State.prvIrqEdge State.fireVec State.sendVec; (repeat' split) <;> rfl
@[simp] theorem prvIrqEdge_ph (s : State) (w : Bool) : (s.prvIrqEdge w).ph = s.ph := by unfold State.prvIrqEdge State.fireVec State.sendVec; (repeat' split) <;> rfl
@[simp] theorem prvIrqEdge_snapTick (s : State) (w : Bool) : (s.prvIrqEdge w).snapTick = s.snapTick := by unfold State.prvIrqEdge State.fireVec State.sendVec; (repeat' split) <;> rfl
@[simp] theorem prvIrqEdge_thn (s : State) (w : Bool) : (s.prvIrqEdge w).thn = s.thn := by unfold State.prvIrqEdge State.fireVec State.sendVec; (repeat' split) <;> rfl
@[simp] theorem prvIrqEdge_sch (s : State) (w : Bool) : (s.prvIrqEdge w).sch = s.sch := by unfold State.prvIrqEdge State.fireVec State.sendVec; (repeat' split) <;> rfl
@[simp] theorem prvIrqEdge_glb (s : State) (w : Bool) : (s.prvIrqEdge w).glb = s.glb := by unfold State.prvIrqEdge State.fireVec State.sendVec; (repeat' split) <;> rfl
@[simp] theorem prvIrqEdge_sec (s : State) (w : Bool) : (s.prvIrqEdge w).sec = s.sec := by unfold State.prvIrqEdge State.fireVec State.sendVec; (repeat' split) <;> rfl
@[simp] theorem prvIrqEdge_net (s : State) (w : Bool) : (s.prvIrqEdge w).net = s.net := by unfold State.prvIrqEdge State.fireVec State.sendVec; (repeat' split) <;> rfl
@[simp] theorem prvIrqEdge_twn (s : State) (w : Bool) : (s.prvIrqEdge w).twn = s.twn := by unfold State.prvIrqEdge State.fireVec State.sendVec; (repeat' split) <;> rfl
@[simp] theorem prvIrqEdge_esp (s : State) (w : Bool) : (s.prvIrqEdge w).esp = s.esp := by unfold State.prvIrqEdge State.fireVec State.sendVec; (repeat' split) <;> rfl
@[simp] theorem prvIrqEdge_svi (s : State) (w : Bool) : (s.prvIrqEdge w).svi = s.svi := by unfold State.prvIrqEdge State.fireVec State.sendVec; (repeat' split) <;> rfl
@[simp] theorem prvIrqEdge_afe (s : State) (w : Bool) : (s.prvIrqEdge w).afe = s.afe := by unfold State.prvIrqEdge State.fireVec State.sendVec; (repeat' split) <;> rfl
@[simp] theorem prvIrqEdge_dch (s : State) (w : Bool) : (s.prvIrqEdge w).dch = s.dch := by unfold State.prvIrqEdge State.fireVec State.sendVec; (repeat' split) <;> rfl
@[simp] theorem prvIrqEdge_eccBad (s : State) (w : Bool) : (s.prvIrqEdge w).eccBad = s.eccBad := by unfold State.prvIrqEdge State.fireVec State.sendVec; (repeat' split) <;> rfl
@[simp] theorem prvIrqEdge_eccSoft (s : State) (w : Bool) : (s.prvIrqEdge w).eccSoft = s.eccSoft := by unfold State.prvIrqEdge State.fireVec State.sendVec; (repeat' split) <;> rfl
@[simp] theorem prvIrqEdge_parBad (s : State) (w : Bool) : (s.prvIrqEdge w).parBad = s.parBad := by unfold State.prvIrqEdge State.fireVec State.sendVec; (repeat' split) <;> rfl
@[simp] theorem prvIrqEdge_freeCnt (s : State) (w : Bool) : (s.prvIrqEdge w).freeCnt = s.freeCnt := by unfold State.prvIrqEdge State.fireVec State.sendVec; (repeat' split) <;> rfl
@[simp] theorem prvIrqEdge_pending (s : State) (w : Bool) : (s.prvIrqEdge w).pending = s.pending := by unfold State.prvIrqEdge State.fireVec State.sendVec; (repeat' split) <;> rfl

/-! ### `recEvent` changes `dr` only -/

@[simp] theorem recEvent_regs (s : State) (k x : Nat) : (s.recEvent k x).regs = s.regs := rfl
@[simp] theorem recEvent_wide (s : State) (k x : Nat) : (s.recEvent k x).wide = s.wide := rfl
@[simp] theorem recEvent_mem (s : State) (k x : Nat) : (s.recEvent k x).mem = s.mem := rfl
@[simp] theorem recEvent_yew (s : State) (k x : Nat) : (s.recEvent k x).yew = s.yew := rfl
@[simp] theorem recEvent_prv (s : State) (k x : Nat) : (s.recEvent k x).prv = s.prv := rfl
@[simp] theorem recEvent_tim (s : State) (k x : Nat) : (s.recEvent k x).tim = s.tim := rfl
@[simp] theorem recEvent_hst (s : State) (k x : Nat) : (s.recEvent k x).hst = s.hst := rfl
@[simp] theorem recEvent_img (s : State) (k x : Nat) : (s.recEvent k x).img = s.img := rfl
@[simp] theorem recEvent_ec (s : State) (k x : Nat) : (s.recEvent k x).ec = s.ec := rfl
@[simp] theorem recEvent_ph (s : State) (k x : Nat) : (s.recEvent k x).ph = s.ph := rfl
@[simp] theorem recEvent_snapTick (s : State) (k x : Nat) : (s.recEvent k x).snapTick = s.snapTick := rfl
@[simp] theorem recEvent_thn (s : State) (k x : Nat) : (s.recEvent k x).thn = s.thn := rfl
@[simp] theorem recEvent_sch (s : State) (k x : Nat) : (s.recEvent k x).sch = s.sch := rfl
@[simp] theorem recEvent_glb (s : State) (k x : Nat) : (s.recEvent k x).glb = s.glb := rfl
@[simp] theorem recEvent_sec (s : State) (k x : Nat) : (s.recEvent k x).sec = s.sec := rfl
@[simp] theorem recEvent_net (s : State) (k x : Nat) : (s.recEvent k x).net = s.net := rfl
@[simp] theorem recEvent_twn (s : State) (k x : Nat) : (s.recEvent k x).twn = s.twn := rfl
@[simp] theorem recEvent_esp (s : State) (k x : Nat) : (s.recEvent k x).esp = s.esp := rfl
@[simp] theorem recEvent_svi (s : State) (k x : Nat) : (s.recEvent k x).svi = s.svi := rfl
@[simp] theorem recEvent_afe (s : State) (k x : Nat) : (s.recEvent k x).afe = s.afe := rfl
@[simp] theorem recEvent_dch (s : State) (k x : Nat) : (s.recEvent k x).dch = s.dch := rfl
@[simp] theorem recEvent_eccBad (s : State) (k x : Nat) : (s.recEvent k x).eccBad = s.eccBad := rfl
@[simp] theorem recEvent_eccSoft (s : State) (k x : Nat) : (s.recEvent k x).eccSoft = s.eccSoft := rfl
@[simp] theorem recEvent_parBad (s : State) (k x : Nat) : (s.recEvent k x).parBad = s.parBad := rfl
@[simp] theorem recEvent_freeCnt (s : State) (k x : Nat) : (s.recEvent k x).freeCnt = s.freeCnt := rfl
@[simp] theorem recEvent_pending (s : State) (k x : Nat) : (s.recEvent k x).pending = s.pending := rfl

/-! ### `recStep` changes `dr` only -/

@[simp] theorem recStep_regs (s : State) : (s.recStep).regs = s.regs := rfl
@[simp] theorem recStep_wide (s : State) : (s.recStep).wide = s.wide := rfl
@[simp] theorem recStep_mem (s : State) : (s.recStep).mem = s.mem := rfl
@[simp] theorem recStep_yew (s : State) : (s.recStep).yew = s.yew := rfl
@[simp] theorem recStep_prv (s : State) : (s.recStep).prv = s.prv := rfl
@[simp] theorem recStep_tim (s : State) : (s.recStep).tim = s.tim := rfl
@[simp] theorem recStep_hst (s : State) : (s.recStep).hst = s.hst := rfl
@[simp] theorem recStep_img (s : State) : (s.recStep).img = s.img := rfl
@[simp] theorem recStep_ec (s : State) : (s.recStep).ec = s.ec := rfl
@[simp] theorem recStep_ph (s : State) : (s.recStep).ph = s.ph := rfl
@[simp] theorem recStep_snapTick (s : State) : (s.recStep).snapTick = s.snapTick := rfl
@[simp] theorem recStep_thn (s : State) : (s.recStep).thn = s.thn := rfl
@[simp] theorem recStep_sch (s : State) : (s.recStep).sch = s.sch := rfl
@[simp] theorem recStep_glb (s : State) : (s.recStep).glb = s.glb := rfl
@[simp] theorem recStep_sec (s : State) : (s.recStep).sec = s.sec := rfl
@[simp] theorem recStep_net (s : State) : (s.recStep).net = s.net := rfl
@[simp] theorem recStep_twn (s : State) : (s.recStep).twn = s.twn := rfl
@[simp] theorem recStep_esp (s : State) : (s.recStep).esp = s.esp := rfl
@[simp] theorem recStep_svi (s : State) : (s.recStep).svi = s.svi := rfl
@[simp] theorem recStep_afe (s : State) : (s.recStep).afe = s.afe := rfl
@[simp] theorem recStep_dch (s : State) : (s.recStep).dch = s.dch := rfl
@[simp] theorem recStep_eccBad (s : State) : (s.recStep).eccBad = s.eccBad := rfl
@[simp] theorem recStep_eccSoft (s : State) : (s.recStep).eccSoft = s.eccSoft := rfl
@[simp] theorem recStep_parBad (s : State) : (s.recStep).parBad = s.parBad := rfl
@[simp] theorem recStep_freeCnt (s : State) : (s.recStep).freeCnt = s.freeCnt := rfl
@[simp] theorem recStep_pending (s : State) : (s.recStep).pending = s.pending := rfl

/-! ### `deliver` changes `net` only -/

@[simp] theorem deliver_regs (s : State) (d : Dest) (p : Nat) (f : Frame) : (s.deliver d p f).regs = s.regs := rfl
@[simp] theorem deliver_wide (s : State) (d : Dest) (p : Nat) (f : Frame) : (s.deliver d p f).wide = s.wide := rfl
@[simp] theorem deliver_mem (s : State) (d : Dest) (p : Nat) (f : Frame) : (s.deliver d p f).mem = s.mem := rfl
@[simp] theorem deliver_yew (s : State) (d : Dest) (p : Nat) (f : Frame) : (s.deliver d p f).yew = s.yew := rfl
@[simp] theorem deliver_prv (s : State) (d : Dest) (p : Nat) (f : Frame) : (s.deliver d p f).prv = s.prv := rfl
@[simp] theorem deliver_tim (s : State) (d : Dest) (p : Nat) (f : Frame) : (s.deliver d p f).tim = s.tim := rfl
@[simp] theorem deliver_hst (s : State) (d : Dest) (p : Nat) (f : Frame) : (s.deliver d p f).hst = s.hst := rfl
@[simp] theorem deliver_dr (s : State) (d : Dest) (p : Nat) (f : Frame) : (s.deliver d p f).dr = s.dr := rfl
@[simp] theorem deliver_img (s : State) (d : Dest) (p : Nat) (f : Frame) : (s.deliver d p f).img = s.img := rfl
@[simp] theorem deliver_ec (s : State) (d : Dest) (p : Nat) (f : Frame) : (s.deliver d p f).ec = s.ec := rfl
@[simp] theorem deliver_ph (s : State) (d : Dest) (p : Nat) (f : Frame) : (s.deliver d p f).ph = s.ph := rfl
@[simp] theorem deliver_snapTick (s : State) (d : Dest) (p : Nat) (f : Frame) : (s.deliver d p f).snapTick = s.snapTick := rfl
@[simp] theorem deliver_thn (s : State) (d : Dest) (p : Nat) (f : Frame) : (s.deliver d p f).thn = s.thn := rfl
@[simp] theorem deliver_sch (s : State) (d : Dest) (p : Nat) (f : Frame) : (s.deliver d p f).sch = s.sch := rfl
@[simp] theorem deliver_glb (s : State) (d : Dest) (p : Nat) (f : Frame) : (s.deliver d p f).glb = s.glb := rfl
@[simp] theorem deliver_sec (s : State) (d : Dest) (p : Nat) (f : Frame) : (s.deliver d p f).sec = s.sec := rfl
@[simp] theorem deliver_twn (s : State) (d : Dest) (p : Nat) (f : Frame) : (s.deliver d p f).twn = s.twn := rfl
@[simp] theorem deliver_esp (s : State) (d : Dest) (p : Nat) (f : Frame) : (s.deliver d p f).esp = s.esp := rfl
@[simp] theorem deliver_svi (s : State) (d : Dest) (p : Nat) (f : Frame) : (s.deliver d p f).svi = s.svi := rfl
@[simp] theorem deliver_afe (s : State) (d : Dest) (p : Nat) (f : Frame) : (s.deliver d p f).afe = s.afe := rfl
@[simp] theorem deliver_dch (s : State) (d : Dest) (p : Nat) (f : Frame) : (s.deliver d p f).dch = s.dch := rfl
@[simp] theorem deliver_eccBad (s : State) (d : Dest) (p : Nat) (f : Frame) : (s.deliver d p f).eccBad = s.eccBad := rfl
@[simp] theorem deliver_eccSoft (s : State) (d : Dest) (p : Nat) (f : Frame) : (s.deliver d p f).eccSoft = s.eccSoft := rfl
@[simp] theorem deliver_parBad (s : State) (d : Dest) (p : Nat) (f : Frame) : (s.deliver d p f).parBad = s.parBad := rfl
@[simp] theorem deliver_freeCnt (s : State) (d : Dest) (p : Nat) (f : Frame) : (s.deliver d p f).freeCnt = s.freeCnt := rfl
@[simp] theorem deliver_pending (s : State) (d : Dest) (p : Nat) (f : Frame) : (s.deliver d p f).pending = s.pending := rfl

/-! ### `takeFrame` changes `net` only -/

@[simp] theorem takeFrame_regs (s : State) (d : Dest) : (s.takeFrame d).regs = s.regs := by unfold State.takeFrame; split <;> rfl
@[simp] theorem takeFrame_wide (s : State) (d : Dest) : (s.takeFrame d).wide = s.wide := by unfold State.takeFrame; split <;> rfl
@[simp] theorem takeFrame_mem (s : State) (d : Dest) : (s.takeFrame d).mem = s.mem := by unfold State.takeFrame; split <;> rfl
@[simp] theorem takeFrame_yew (s : State) (d : Dest) : (s.takeFrame d).yew = s.yew := by unfold State.takeFrame; split <;> rfl
@[simp] theorem takeFrame_prv (s : State) (d : Dest) : (s.takeFrame d).prv = s.prv := by unfold State.takeFrame; split <;> rfl
@[simp] theorem takeFrame_tim (s : State) (d : Dest) : (s.takeFrame d).tim = s.tim := by unfold State.takeFrame; split <;> rfl
@[simp] theorem takeFrame_hst (s : State) (d : Dest) : (s.takeFrame d).hst = s.hst := by unfold State.takeFrame; split <;> rfl
@[simp] theorem takeFrame_dr (s : State) (d : Dest) : (s.takeFrame d).dr = s.dr := by unfold State.takeFrame; split <;> rfl
@[simp] theorem takeFrame_img (s : State) (d : Dest) : (s.takeFrame d).img = s.img := by unfold State.takeFrame; split <;> rfl
@[simp] theorem takeFrame_ec (s : State) (d : Dest) : (s.takeFrame d).ec = s.ec := by unfold State.takeFrame; split <;> rfl
@[simp] theorem takeFrame_ph (s : State) (d : Dest) : (s.takeFrame d).ph = s.ph := by unfold State.takeFrame; split <;> rfl
@[simp] theorem takeFrame_snapTick (s : State) (d : Dest) : (s.takeFrame d).snapTick = s.snapTick := by unfold State.takeFrame; split <;> rfl
@[simp] theorem takeFrame_thn (s : State) (d : Dest) : (s.takeFrame d).thn = s.thn := by unfold State.takeFrame; split <;> rfl
@[simp] theorem takeFrame_sch (s : State) (d : Dest) : (s.takeFrame d).sch = s.sch := by unfold State.takeFrame; split <;> rfl
@[simp] theorem takeFrame_glb (s : State) (d : Dest) : (s.takeFrame d).glb = s.glb := by unfold State.takeFrame; split <;> rfl
@[simp] theorem takeFrame_sec (s : State) (d : Dest) : (s.takeFrame d).sec = s.sec := by unfold State.takeFrame; split <;> rfl
@[simp] theorem takeFrame_twn (s : State) (d : Dest) : (s.takeFrame d).twn = s.twn := by unfold State.takeFrame; split <;> rfl
@[simp] theorem takeFrame_esp (s : State) (d : Dest) : (s.takeFrame d).esp = s.esp := by unfold State.takeFrame; split <;> rfl
@[simp] theorem takeFrame_svi (s : State) (d : Dest) : (s.takeFrame d).svi = s.svi := by unfold State.takeFrame; split <;> rfl
@[simp] theorem takeFrame_afe (s : State) (d : Dest) : (s.takeFrame d).afe = s.afe := by unfold State.takeFrame; split <;> rfl
@[simp] theorem takeFrame_dch (s : State) (d : Dest) : (s.takeFrame d).dch = s.dch := by unfold State.takeFrame; split <;> rfl
@[simp] theorem takeFrame_eccBad (s : State) (d : Dest) : (s.takeFrame d).eccBad = s.eccBad := by unfold State.takeFrame; split <;> rfl
@[simp] theorem takeFrame_eccSoft (s : State) (d : Dest) : (s.takeFrame d).eccSoft = s.eccSoft := by unfold State.takeFrame; split <;> rfl
@[simp] theorem takeFrame_parBad (s : State) (d : Dest) : (s.takeFrame d).parBad = s.parBad := by unfold State.takeFrame; split <;> rfl
@[simp] theorem takeFrame_freeCnt (s : State) (d : Dest) : (s.takeFrame d).freeCnt = s.freeCnt := by unfold State.takeFrame; split <;> rfl
@[simp] theorem takeFrame_pending (s : State) (d : Dest) : (s.takeFrame d).pending = s.pending := by unfold State.takeFrame; split <;> rfl

/-! ### `modCore` changes `ec` only -/

@[simp] theorem modCore_regs (s : State) (n : Nat) (g : Core → Core) : (s.modCore n g).regs = s.regs := rfl
@[simp] theorem modCore_wide (s : State) (n : Nat) (g : Core → Core) : (s.modCore n g).wide = s.wide := rfl
@[simp] theorem modCore_mem (s : State) (n : Nat) (g : Core → Core) : (s.modCore n g).mem = s.mem := rfl
@[simp] theorem modCore_yew (s : State) (n : Nat) (g : Core → Core) : (s.modCore n g).yew = s.yew := rfl
@[simp] theorem modCore_prv (s : State) (n : Nat) (g : Core → Core) : (s.modCore n g).prv = s.prv := rfl
@[simp] theorem modCore_tim (s : State) (n : Nat) (g : Core → Core) : (s.modCore n g).tim = s.tim := rfl
@[simp] theorem modCore_hst (s : State) (n : Nat) (g : Core → Core) : (s.modCore n g).hst = s.hst := rfl
@[simp] theorem modCore_dr (s : State) (n : Nat) (g : Core → Core) : (s.modCore n g).dr = s.dr := rfl
@[simp] theorem modCore_img (s : State) (n : Nat) (g : Core → Core) : (s.modCore n g).img = s.img := rfl
@[simp] theorem modCore_ph (s : State) (n : Nat) (g : Core → Core) : (s.modCore n g).ph = s.ph := rfl
@[simp] theorem modCore_snapTick (s : State) (n : Nat) (g : Core → Core) : (s.modCore n g).snapTick = s.snapTick := rfl
@[simp] theorem modCore_thn (s : State) (n : Nat) (g : Core → Core) : (s.modCore n g).thn = s.thn := rfl
@[simp] theorem modCore_sch (s : State) (n : Nat) (g : Core → Core) : (s.modCore n g).sch = s.sch := rfl
@[simp] theorem modCore_glb (s : State) (n : Nat) (g : Core → Core) : (s.modCore n g).glb = s.glb := rfl
@[simp] theorem modCore_sec (s : State) (n : Nat) (g : Core → Core) : (s.modCore n g).sec = s.sec := rfl
@[simp] theorem modCore_net (s : State) (n : Nat) (g : Core → Core) : (s.modCore n g).net = s.net := rfl
@[simp] theorem modCore_twn (s : State) (n : Nat) (g : Core → Core) : (s.modCore n g).twn = s.twn := rfl
@[simp] theorem modCore_esp (s : State) (n : Nat) (g : Core → Core) : (s.modCore n g).esp = s.esp := rfl
@[simp] theorem modCore_svi (s : State) (n : Nat) (g : Core → Core) : (s.modCore n g).svi = s.svi := rfl
@[simp] theorem modCore_afe (s : State) (n : Nat) (g : Core → Core) : (s.modCore n g).afe = s.afe := rfl
@[simp] theorem modCore_dch (s : State) (n : Nat) (g : Core → Core) : (s.modCore n g).dch = s.dch := rfl
@[simp] theorem modCore_eccBad (s : State) (n : Nat) (g : Core → Core) : (s.modCore n g).eccBad = s.eccBad := rfl
@[simp] theorem modCore_eccSoft (s : State) (n : Nat) (g : Core → Core) : (s.modCore n g).eccSoft = s.eccSoft := rfl
@[simp] theorem modCore_parBad (s : State) (n : Nat) (g : Core → Core) : (s.modCore n g).parBad = s.parBad := rfl
@[simp] theorem modCore_freeCnt (s : State) (n : Nat) (g : Core → Core) : (s.modCore n g).freeCnt = s.freeCnt := rfl
@[simp] theorem modCore_pending (s : State) (n : Nat) (g : Core → Core) : (s.modCore n g).pending = s.pending := rfl

/-! ### `setCore` changes `ec` only -/

@[simp] theorem setCore_regs (s : State) (n : Nat) (c : Core) : (s.setCore n c).regs = s.regs := rfl
@[simp] theorem setCore_wide (s : State) (n : Nat) (c : Core) : (s.setCore n c).wide = s.wide := rfl
@[simp] theorem setCore_mem (s : State) (n : Nat) (c : Core) : (s.setCore n c).mem = s.mem := rfl
@[simp] theorem setCore_yew (s : State) (n : Nat) (c : Core) : (s.setCore n c).yew = s.yew := rfl
@[simp] theorem setCore_prv (s : State) (n : Nat) (c : Core) : (s.setCore n c).prv = s.prv := rfl
@[simp] theorem setCore_tim (s : State) (n : Nat) (c : Core) : (s.setCore n c).tim = s.tim := rfl
@[simp] theorem setCore_hst (s : State) (n : Nat) (c : Core) : (s.setCore n c).hst = s.hst := rfl
@[simp] theorem setCore_dr (s : State) (n : Nat) (c : Core) : (s.setCore n c).dr = s.dr := rfl
@[simp] theorem setCore_img (s : State) (n : Nat) (c : Core) : (s.setCore n c).img = s.img := rfl
@[simp] theorem setCore_ph (s : State) (n : Nat) (c : Core) : (s.setCore n c).ph = s.ph := rfl
@[simp] theorem setCore_snapTick (s : State) (n : Nat) (c : Core) : (s.setCore n c).snapTick = s.snapTick := rfl
@[simp] theorem setCore_thn (s : State) (n : Nat) (c : Core) : (s.setCore n c).thn = s.thn := rfl
@[simp] theorem setCore_sch (s : State) (n : Nat) (c : Core) : (s.setCore n c).sch = s.sch := rfl
@[simp] theorem setCore_glb (s : State) (n : Nat) (c : Core) : (s.setCore n c).glb = s.glb := rfl
@[simp] theorem setCore_sec (s : State) (n : Nat) (c : Core) : (s.setCore n c).sec = s.sec := rfl
@[simp] theorem setCore_net (s : State) (n : Nat) (c : Core) : (s.setCore n c).net = s.net := rfl
@[simp] theorem setCore_twn (s : State) (n : Nat) (c : Core) : (s.setCore n c).twn = s.twn := rfl
@[simp] theorem setCore_esp (s : State) (n : Nat) (c : Core) : (s.setCore n c).esp = s.esp := rfl
@[simp] theorem setCore_svi (s : State) (n : Nat) (c : Core) : (s.setCore n c).svi = s.svi := rfl
@[simp] theorem setCore_afe (s : State) (n : Nat) (c : Core) : (s.setCore n c).afe = s.afe := rfl
@[simp] theorem setCore_dch (s : State) (n : Nat) (c : Core) : (s.setCore n c).dch = s.dch := rfl
@[simp] theorem setCore_eccBad (s : State) (n : Nat) (c : Core) : (s.setCore n c).eccBad = s.eccBad := rfl
@[simp] theorem setCore_eccSoft (s : State) (n : Nat) (c : Core) : (s.setCore n c).eccSoft = s.eccSoft := rfl
@[simp] theorem setCore_parBad (s : State) (n : Nat) (c : Core) : (s.setCore n c).parBad = s.parBad := rfl
@[simp] theorem setCore_freeCnt (s : State) (n : Nat) (c : Core) : (s.setCore n c).freeCnt = s.freeCnt := rfl
@[simp] theorem setCore_pending (s : State) (n : Nat) (c : Core) : (s.setCore n c).pending = s.pending := rfl

/-! ### `setAfe` changes `afe` only -/

@[simp] theorem setAfe_regs (s : State) (x : Afe) : (setAfe s x).regs = s.regs := rfl
@[simp] theorem setAfe_wide (s : State) (x : Afe) : (setAfe s x).wide = s.wide := rfl
@[simp] theorem setAfe_mem (s : State) (x : Afe) : (setAfe s x).mem = s.mem := rfl
@[simp] theorem setAfe_yew (s : State) (x : Afe) : (setAfe s x).yew = s.yew := rfl
@[simp] theorem setAfe_prv (s : State) (x : Afe) : (setAfe s x).prv = s.prv := rfl
@[simp] theorem setAfe_tim (s : State) (x : Afe) : (setAfe s x).tim = s.tim := rfl
@[simp] theorem setAfe_hst (s : State) (x : Afe) : (setAfe s x).hst = s.hst := rfl
@[simp] theorem setAfe_dr (s : State) (x : Afe) : (setAfe s x).dr = s.dr := rfl
@[simp] theorem setAfe_img (s : State) (x : Afe) : (setAfe s x).img = s.img := rfl
@[simp] theorem setAfe_ec (s : State) (x : Afe) : (setAfe s x).ec = s.ec := rfl
@[simp] theorem setAfe_ph (s : State) (x : Afe) : (setAfe s x).ph = s.ph := rfl
@[simp] theorem setAfe_snapTick (s : State) (x : Afe) : (setAfe s x).snapTick = s.snapTick := rfl
@[simp] theorem setAfe_thn (s : State) (x : Afe) : (setAfe s x).thn = s.thn := rfl
@[simp] theorem setAfe_sch (s : State) (x : Afe) : (setAfe s x).sch = s.sch := rfl
@[simp] theorem setAfe_glb (s : State) (x : Afe) : (setAfe s x).glb = s.glb := rfl
@[simp] theorem setAfe_sec (s : State) (x : Afe) : (setAfe s x).sec = s.sec := rfl
@[simp] theorem setAfe_net (s : State) (x : Afe) : (setAfe s x).net = s.net := rfl
@[simp] theorem setAfe_twn (s : State) (x : Afe) : (setAfe s x).twn = s.twn := rfl
@[simp] theorem setAfe_esp (s : State) (x : Afe) : (setAfe s x).esp = s.esp := rfl
@[simp] theorem setAfe_svi (s : State) (x : Afe) : (setAfe s x).svi = s.svi := rfl
@[simp] theorem setAfe_dch (s : State) (x : Afe) : (setAfe s x).dch = s.dch := rfl
@[simp] theorem setAfe_eccBad (s : State) (x : Afe) : (setAfe s x).eccBad = s.eccBad := rfl
@[simp] theorem setAfe_eccSoft (s : State) (x : Afe) : (setAfe s x).eccSoft = s.eccSoft := rfl
@[simp] theorem setAfe_parBad (s : State) (x : Afe) : (setAfe s x).parBad = s.parBad := rfl
@[simp] theorem setAfe_freeCnt (s : State) (x : Afe) : (setAfe s x).freeCnt = s.freeCnt := rfl
@[simp] theorem setAfe_pending (s : State) (x : Afe) : (setAfe s x).pending = s.pending := rfl

/-! ### `setGlb` changes `glb` only -/

@[simp] theorem setGlb_regs (s : State) (x : Glb) : (setGlb s x).regs = s.regs := rfl
@[simp] theorem setGlb_wide (s : State) (x : Glb) : (setGlb s x).wide = s.wide := rfl
@[simp] theorem setGlb_mem (s : State) (x : Glb) : (setGlb s x).mem = s.mem := rfl
@[simp] theorem setGlb_yew (s : State) (x : Glb) : (setGlb s x).yew = s.yew := rfl
@[simp] theorem setGlb_prv (s : State) (x : Glb) : (setGlb s x).prv = s.prv := rfl
@[simp] theorem setGlb_tim (s : State) (x : Glb) : (setGlb s x).tim = s.tim := rfl
@[simp] theorem setGlb_hst (s : State) (x : Glb) : (setGlb s x).hst = s.hst := rfl
@[simp] theorem setGlb_dr (s : State) (x : Glb) : (setGlb s x).dr = s.dr := rfl
@[simp] theorem setGlb_img (s : State) (x : Glb) : (setGlb s x).img = s.img := rfl
@[simp] theorem setGlb_ec (s : State) (x : Glb) : (setGlb s x).ec = s.ec := rfl
@[simp] theorem setGlb_ph (s : State) (x : Glb) : (setGlb s x).ph = s.ph := rfl
@[simp] theorem setGlb_snapTick (s : State) (x : Glb) : (setGlb s x).snapTick = s.snapTick := rfl
@[simp] theorem setGlb_thn (s : State) (x : Glb) : (setGlb s x).thn = s.thn := rfl
@[simp] theorem setGlb_sch (s : State) (x : Glb) : (setGlb s x).sch = s.sch := rfl
@[simp] theorem setGlb_sec (s : State) (x : Glb) : (setGlb s x).sec = s.sec := rfl
@[simp] theorem setGlb_net (s : State) (x : Glb) : (setGlb s x).net = s.net := rfl
@[simp] theorem setGlb_twn (s : State) (x : Glb) : (setGlb s x).twn = s.twn := rfl
@[simp] theorem setGlb_esp (s : State) (x : Glb) : (setGlb s x).esp = s.esp := rfl
@[simp] theorem setGlb_svi (s : State) (x : Glb) : (setGlb s x).svi = s.svi := rfl
@[simp] theorem setGlb_afe (s : State) (x : Glb) : (setGlb s x).afe = s.afe := rfl
@[simp] theorem setGlb_dch (s : State) (x : Glb) : (setGlb s x).dch = s.dch := rfl
@[simp] theorem setGlb_eccBad (s : State) (x : Glb) : (setGlb s x).eccBad = s.eccBad := rfl
@[simp] theorem setGlb_eccSoft (s : State) (x : Glb) : (setGlb s x).eccSoft = s.eccSoft := rfl
@[simp] theorem setGlb_parBad (s : State) (x : Glb) : (setGlb s x).parBad = s.parBad := rfl
@[simp] theorem setGlb_freeCnt (s : State) (x : Glb) : (setGlb s x).freeCnt = s.freeCnt := rfl
@[simp] theorem setGlb_pending (s : State) (x : Glb) : (setGlb s x).pending = s.pending := rfl

/-! ### `setDch` changes `dch` only -/

@[simp] theorem setDch_regs (s : State) (x : Dch) : (setDch s x).regs = s.regs := rfl
@[simp] theorem setDch_wide (s : State) (x : Dch) : (setDch s x).wide = s.wide := rfl
@[simp] theorem setDch_mem (s : State) (x : Dch) : (setDch s x).mem = s.mem := rfl
@[simp] theorem setDch_yew (s : State) (x : Dch) : (setDch s x).yew = s.yew := rfl
@[simp] theorem setDch_prv (s : State) (x : Dch) : (setDch s x).prv = s.prv := rfl
@[simp] theorem setDch_tim (s : State) (x : Dch) : (setDch s x).tim = s.tim := rfl
@[simp] theorem setDch_hst (s : State) (x : Dch) : (setDch s x).hst = s.hst := rfl
@[simp] theorem setDch_dr (s : State) (x : Dch) : (setDch s x).dr = s.dr := rfl
@[simp] theorem setDch_img (s : State) (x : Dch) : (setDch s x).img = s.img := rfl
@[simp] theorem setDch_ec (s : State) (x : Dch) : (setDch s x).ec = s.ec := rfl
@[simp] theorem setDch_ph (s : State) (x : Dch) : (setDch s x).ph = s.ph := rfl
@[simp] theorem setDch_snapTick (s : State) (x : Dch) : (setDch s x).snapTick = s.snapTick := rfl
@[simp] theorem setDch_thn (s : State) (x : Dch) : (setDch s x).thn = s.thn := rfl
@[simp] theorem setDch_sch (s : State) (x : Dch) : (setDch s x).sch = s.sch := rfl
@[simp] theorem setDch_glb (s : State) (x : Dch) : (setDch s x).glb = s.glb := rfl
@[simp] theorem setDch_sec (s : State) (x : Dch) : (setDch s x).sec = s.sec := rfl
@[simp] theorem setDch_net (s : State) (x : Dch) : (setDch s x).net = s.net := rfl
@[simp] theorem setDch_twn (s : State) (x : Dch) : (setDch s x).twn = s.twn := rfl
@[simp] theorem setDch_esp (s : State) (x : Dch) : (setDch s x).esp = s.esp := rfl
@[simp] theorem setDch_svi (s : State) (x : Dch) : (setDch s x).svi = s.svi := rfl
@[simp] theorem setDch_afe (s : State) (x : Dch) : (setDch s x).afe = s.afe := rfl
@[simp] theorem setDch_eccBad (s : State) (x : Dch) : (setDch s x).eccBad = s.eccBad := rfl
@[simp] theorem setDch_eccSoft (s : State) (x : Dch) : (setDch s x).eccSoft = s.eccSoft := rfl
@[simp] theorem setDch_parBad (s : State) (x : Dch) : (setDch s x).parBad = s.parBad := rfl
@[simp] theorem setDch_freeCnt (s : State) (x : Dch) : (setDch s x).freeCnt = s.freeCnt := rfl
@[simp] theorem setDch_pending (s : State) (x : Dch) : (setDch s x).pending = s.pending := rfl

/-! ### `setHst` changes `hst` only -/

@[simp] theorem setHst_regs (s : State) (x : Hst) : (setHst s x).regs = s.regs := rfl
@[simp] theorem setHst_wide (s : State) (x : Hst) : (setHst s x).wide = s.wide := rfl
@[simp] theorem setHst_mem (s : State) (x : Hst) : (setHst s x).mem = s.mem := rfl
@[simp] theorem setHst_yew (s : State) (x : Hst) : (setHst s x).yew = s.yew := rfl
@[simp] theorem setHst_prv (s : State) (x : Hst) : (setHst s x).prv = s.prv := rfl
@[simp] theorem setHst_tim (s : State) (x : Hst) : (setHst s x).tim = s.tim := rfl
@[simp] theorem setHst_dr (s : State) (x : Hst) : (setHst s x).dr = s.dr := rfl
@[simp] theorem setHst_img (s : State) (x : Hst) : (setHst s x).img = s.img := rfl
@[simp] theorem setHst_ec (s : State) (x : Hst) : (setHst s x).ec = s.ec := rfl
@[simp] theorem setHst_ph (s : State) (x : Hst) : (setHst s x).ph = s.ph := rfl
@[simp] theorem setHst_snapTick (s : State) (x : Hst) : (setHst s x).snapTick = s.snapTick := rfl
@[simp] theorem setHst_thn (s : State) (x : Hst) : (setHst s x).thn = s.thn := rfl
@[simp] theorem setHst_sch (s : State) (x : Hst) : (setHst s x).sch = s.sch := rfl
@[simp] theorem setHst_glb (s : State) (x : Hst) : (setHst s x).glb = s.glb := rfl
@[simp] theorem setHst_sec (s : State) (x : Hst) : (setHst s x).sec = s.sec := rfl
@[simp] theorem setHst_net (s : State) (x : Hst) : (setHst s x).net = s.net := rfl
@[simp] theorem setHst_twn (s : State) (x : Hst) : (setHst s x).twn = s.twn := rfl
@[simp] theorem setHst_esp (s : State) (x : Hst) : (setHst s x).esp = s.esp := rfl
@[simp] theorem setHst_svi (s : State) (x : Hst) : (setHst s x).svi = s.svi := rfl
@[simp] theorem setHst_afe (s : State) (x : Hst) : (setHst s x).afe = s.afe := rfl
@[simp] theorem setHst_dch (s : State) (x : Hst) : (setHst s x).dch = s.dch := rfl
@[simp] theorem setHst_eccBad (s : State) (x : Hst) : (setHst s x).eccBad = s.eccBad := rfl
@[simp] theorem setHst_eccSoft (s : State) (x : Hst) : (setHst s x).eccSoft = s.eccSoft := rfl
@[simp] theorem setHst_parBad (s : State) (x : Hst) : (setHst s x).parBad = s.parBad := rfl
@[simp] theorem setHst_freeCnt (s : State) (x : Hst) : (setHst s x).freeCnt = s.freeCnt := rfl
@[simp] theorem setHst_pending (s : State) (x : Hst) : (setHst s x).pending = s.pending := rfl

/-! ### `setNet` changes `net` only -/

@[simp] theorem setNet_regs (s : State) (x : Net) : (setNet s x).regs = s.regs := rfl
@[simp] theorem setNet_wide (s : State) (x : Net) : (setNet s x).wide = s.wide := rfl
@[simp] theorem setNet_mem (s : State) (x : Net) : (setNet s x).mem = s.mem := rfl
@[simp] theorem setNet_yew (s : State) (x : Net) : (setNet s x).yew = s.yew := rfl
@[simp] theorem setNet_prv (s : State) (x : Net) : (setNet s x).prv = s.prv := rfl
@[simp] theorem setNet_tim (s : State) (x : Net) : (setNet s x).tim = s.tim := rfl
@[simp] theorem setNet_hst (s : State) (x : Net) : (setNet s x).hst = s.hst := rfl
@[simp] theorem setNet_dr (s : State) (x : Net) : (setNet s x).dr = s.dr := rfl
@[simp] theorem setNet_img (s : State) (x : Net) : (setNet s x).img = s.img := rfl
@[simp] theorem setNet_ec (s : State) (x : Net) : (setNet s x).ec = s.ec := rfl
@[simp] theorem setNet_ph (s : State) (x : Net) : (setNet s x).ph = s.ph := rfl
@[simp] theorem setNet_snapTick (s : State) (x : Net) : (setNet s x).snapTick = s.snapTick := rfl
@[simp] theorem setNet_thn (s : State) (x : Net) : (setNet s x).thn = s.thn := rfl
@[simp] theorem setNet_sch (s : State) (x : Net) : (setNet s x).sch = s.sch := rfl
@[simp] theorem setNet_glb (s : State) (x : Net) : (setNet s x).glb = s.glb := rfl
@[simp] theorem setNet_sec (s : State) (x : Net) : (setNet s x).sec = s.sec := rfl
@[simp] theorem setNet_twn (s : State) (x : Net) : (setNet s x).twn = s.twn := rfl
@[simp] theorem setNet_esp (s : State) (x : Net) : (setNet s x).esp = s.esp := rfl
@[simp] theorem setNet_svi (s : State) (x : Net) : (setNet s x).svi = s.svi := rfl
@[simp] theorem setNet_afe (s : State) (x : Net) : (setNet s x).afe = s.afe := rfl
@[simp] theorem setNet_dch (s : State) (x : Net) : (setNet s x).dch = s.dch := rfl
@[simp] theorem setNet_eccBad (s : State) (x : Net) : (setNet s x).eccBad = s.eccBad := rfl
@[simp] theorem setNet_eccSoft (s : State) (x : Net) : (setNet s x).eccSoft = s.eccSoft := rfl
@[simp] theorem setNet_parBad (s : State) (x : Net) : (setNet s x).parBad = s.parBad := rfl
@[simp] theorem setNet_freeCnt (s : State) (x : Net) : (setNet s x).freeCnt = s.freeCnt := rfl
@[simp] theorem setNet_pending (s : State) (x : Net) : (setNet s x).pending = s.pending := rfl

/-! ### `setSec` changes `sec` only -/

@[simp] theorem setSec_regs (s : State) (x : Sec) : (setSec s x).regs = s.regs := rfl
@[simp] theorem setSec_wide (s : State) (x : Sec) : (setSec s x).wide = s.wide := rfl
@[simp] theorem setSec_mem (s : State) (x : Sec) : (setSec s x).mem = s.mem := rfl
@[simp] theorem setSec_yew (s : State) (x : Sec) : (setSec s x).yew = s.yew := rfl
@[simp] theorem setSec_prv (s : State) (x : Sec) : (setSec s x).prv = s.prv := rfl
@[simp] theorem setSec_tim (s : State) (x : Sec) : (setSec s x).tim = s.tim := rfl
@[simp] theorem setSec_hst (s : State) (x : Sec) : (setSec s x).hst = s.hst := rfl
@[simp] theorem setSec_dr (s : State) (x : Sec) : (setSec s x).dr = s.dr := rfl
@[simp] theorem setSec_img (s : State) (x : Sec) : (setSec s x).img = s.img := rfl
@[simp] theorem setSec_ec (s : State) (x : Sec) : (setSec s x).ec = s.ec := rfl
@[simp] theorem setSec_ph (s : State) (x : Sec) : (setSec s x).ph = s.ph := rfl
@[simp] theorem setSec_snapTick (s : State) (x : Sec) : (setSec s x).snapTick = s.snapTick := rfl
@[simp] theorem setSec_thn (s : State) (x : Sec) : (setSec s x).thn = s.thn := rfl
@[simp] theorem setSec_sch (s : State) (x : Sec) : (setSec s x).sch = s.sch := rfl
@[simp] theorem setSec_glb (s : State) (x : Sec) : (setSec s x).glb = s.glb := rfl
@[simp] theorem setSec_net (s : State) (x : Sec) : (setSec s x).net = s.net := rfl
@[simp] theorem setSec_twn (s : State) (x : Sec) : (setSec s x).twn = s.twn := rfl
@[simp] theorem setSec_esp (s : State) (x : Sec) : (setSec s x).esp = s.esp := rfl
@[simp] theorem setSec_svi (s : State) (x : Sec) : (setSec s x).svi = s.svi := rfl
@[simp] theorem setSec_afe (s : State) (x : Sec) : (setSec s x).afe = s.afe := rfl
@[simp] theorem setSec_dch (s : State) (x : Sec) : (setSec s x).dch = s.dch := rfl
@[simp] theorem setSec_eccBad (s : State) (x : Sec) : (setSec s x).eccBad = s.eccBad := rfl
@[simp] theorem setSec_eccSoft (s : State) (x : Sec) : (setSec s x).eccSoft = s.eccSoft := rfl
@[simp] theorem setSec_parBad (s : State) (x : Sec) : (setSec s x).parBad = s.parBad := rfl
@[simp] theorem setSec_freeCnt (s : State) (x : Sec) : (setSec s x).freeCnt = s.freeCnt := rfl
@[simp] theorem setSec_pending (s : State) (x : Sec) : (setSec s x).pending = s.pending := rfl

/-! ### `setSvi` changes `svi` only -/

@[simp] theorem setSvi_regs (s : State) (x : Svi) : (setSvi s x).regs = s.regs := rfl
@[simp] theorem setSvi_wide (s : State) (x : Svi) : (setSvi s x).wide = s.wide := rfl
@[simp] theorem setSvi_mem (s : State) (x : Svi) : (setSvi s x).mem = s.mem := rfl
@[simp] theorem setSvi_yew (s : State) (x : Svi) : (setSvi s x).yew = s.yew := rfl
@[simp] theorem setSvi_prv (s : State) (x : Svi) : (setSvi s x).prv = s.prv := rfl
@[simp] theorem setSvi_tim (s : State) (x : Svi) : (setSvi s x).tim = s.tim := rfl
@[simp] theorem setSvi_hst (s : State) (x : Svi) : (setSvi s x).hst = s.hst := rfl
@[simp] theorem setSvi_dr (s : State) (x : Svi) : (setSvi s x).dr = s.dr := rfl
@[simp] theorem setSvi_img (s : State) (x : Svi) : (setSvi s x).img = s.img := rfl
@[simp] theorem setSvi_ec (s : State) (x : Svi) : (setSvi s x).ec = s.ec := rfl
@[simp] theorem setSvi_ph (s : State) (x : Svi) : (setSvi s x).ph = s.ph := rfl
@[simp] theorem setSvi_snapTick (s : State) (x : Svi) : (setSvi s x).snapTick = s.snapTick := rfl
@[simp] theorem setSvi_thn (s : State) (x : Svi) : (setSvi s x).thn = s.thn := rfl
@[simp] theorem setSvi_sch (s : State) (x : Svi) : (setSvi s x).sch = s.sch := rfl
@[simp] theorem setSvi_glb (s : State) (x : Svi) : (setSvi s x).glb = s.glb := rfl
@[simp] theorem setSvi_sec (s : State) (x : Svi) : (setSvi s x).sec = s.sec := rfl
@[simp] theorem setSvi_net (s : State) (x : Svi) : (setSvi s x).net = s.net := rfl
@[simp] theorem setSvi_twn (s : State) (x : Svi) : (setSvi s x).twn = s.twn := rfl
@[simp] theorem setSvi_esp (s : State) (x : Svi) : (setSvi s x).esp = s.esp := rfl
@[simp] theorem setSvi_afe (s : State) (x : Svi) : (setSvi s x).afe = s.afe := rfl
@[simp] theorem setSvi_dch (s : State) (x : Svi) : (setSvi s x).dch = s.dch := rfl
@[simp] theorem setSvi_eccBad (s : State) (x : Svi) : (setSvi s x).eccBad = s.eccBad := rfl
@[simp] theorem setSvi_eccSoft (s : State) (x : Svi) : (setSvi s x).eccSoft = s.eccSoft := rfl
@[simp] theorem setSvi_parBad (s : State) (x : Svi) : (setSvi s x).parBad = s.parBad := rfl
@[simp] theorem setSvi_freeCnt (s : State) (x : Svi) : (setSvi s x).freeCnt = s.freeCnt := rfl
@[simp] theorem setSvi_pending (s : State) (x : Svi) : (setSvi s x).pending = s.pending := rfl

/-! ### `setThn` changes `thn` only -/

@[simp] theorem setThn_regs (s : State) (x : Thn) : (setThn s x).regs = s.regs := rfl
@[simp] theorem setThn_wide (s : State) (x : Thn) : (setThn s x).wide = s.wide := rfl
@[simp] theorem setThn_mem (s : State) (x : Thn) : (setThn s x).mem = s.mem := rfl
@[simp] theorem setThn_yew (s : State) (x : Thn) : (setThn s x).yew = s.yew := rfl
@[simp] theorem setThn_prv (s : State) (x : Thn) : (setThn s x).prv = s.prv := rfl
@[simp] theorem setThn_tim (s : State) (x : Thn) : (setThn s x).tim = s.tim := rfl
@[simp] theorem setThn_hst (s : State) (x : Thn) : (setThn s x).hst = s.hst := rfl
@[simp] theorem setThn_dr (s : State) (x : Thn) : (setThn s x).dr = s.dr := rfl
@[simp] theorem setThn_img (s : State) (x : Thn) : (setThn s x).img = s.img := rfl
@[simp] theorem setThn_ec (s : State) (x : Thn) : (setThn s x).ec = s.ec := rfl
@[simp] theorem setThn_ph (s : State) (x : Thn) : (setThn s x).ph = s.ph := rfl
@[simp] theorem setThn_snapTick (s : State) (x : Thn) : (setThn s x).snapTick = s.snapTick := rfl
@[simp] theorem setThn_sch (s : State) (x : Thn) : (setThn s x).sch = s.sch := rfl
@[simp] theorem setThn_glb (s : State) (x : Thn) : (setThn s x).glb = s.glb := rfl
@[simp] theorem setThn_sec (s : State) (x : Thn) : (setThn s x).sec = s.sec := rfl
@[simp] theorem setThn_net (s : State) (x : Thn) : (setThn s x).net = s.net := rfl
@[simp] theorem setThn_twn (s : State) (x : Thn) : (setThn s x).twn = s.twn := rfl
@[simp] theorem setThn_esp (s : State) (x : Thn) : (setThn s x).esp = s.esp := rfl
@[simp] theorem setThn_svi (s : State) (x : Thn) : (setThn s x).svi = s.svi := rfl
@[simp] theorem setThn_afe (s : State) (x : Thn) : (setThn s x).afe = s.afe := rfl
@[simp] theorem setThn_dch (s : State) (x : Thn) : (setThn s x).dch = s.dch := rfl
@[simp] theorem setThn_eccBad (s : State) (x : Thn) : (setThn s x).eccBad = s.eccBad := rfl
@[simp] theorem setThn_eccSoft (s : State) (x : Thn) : (setThn s x).eccSoft = s.eccSoft := rfl
@[simp] theorem setThn_parBad (s : State) (x : Thn) : (setThn s x).parBad = s.parBad := rfl
@[simp] theorem setThn_freeCnt (s : State) (x : Thn) : (setThn s x).freeCnt = s.freeCnt := rfl
@[simp] theorem setThn_pending (s : State) (x : Thn) : (setThn s x).pending = s.pending := rfl

/-! ### `setTim` changes `tim` only -/

@[simp] theorem setTim_regs (s : State) (x : Tim) : (setTim s x).regs = s.regs := rfl
@[simp] theorem setTim_wide (s : State) (x : Tim) : (setTim s x).wide = s.wide := rfl
@[simp] theorem setTim_mem (s : State) (x : Tim) : (setTim s x).mem = s.mem := rfl
@[simp] theorem setTim_yew (s : State) (x : Tim) : (setTim s x).yew = s.yew := rfl
@[simp] theorem setTim_prv (s : State) (x : Tim) : (setTim s x).prv = s.prv := rfl
@[simp] theorem setTim_hst (s : State) (x : Tim) : (setTim s x).hst = s.hst := rfl
@[simp] theorem setTim_dr (s : State) (x : Tim) : (setTim s x).dr = s.dr := rfl
@[simp] theorem setTim_img (s : State) (x : Tim) : (setTim s x).img = s.img := rfl
@[simp] theorem setTim_ec (s : State) (x : Tim) : (setTim s x).ec = s.ec := rfl
@[simp] theorem setTim_ph (s : State) (x : Tim) : (setTim s x).ph = s.ph := rfl
@[simp] theorem setTim_snapTick (s : State) (x : Tim) : (setTim s x).snapTick = s.snapTick := rfl
@[simp] theorem setTim_thn (s : State) (x : Tim) : (setTim s x).thn = s.thn := rfl
@[simp] theorem setTim_sch (s : State) (x : Tim) : (setTim s x).sch = s.sch := rfl
@[simp] theorem setTim_glb (s : State) (x : Tim) : (setTim s x).glb = s.glb := rfl
@[simp] theorem setTim_sec (s : State) (x : Tim) : (setTim s x).sec = s.sec := rfl
@[simp] theorem setTim_net (s : State) (x : Tim) : (setTim s x).net = s.net := rfl
@[simp] theorem setTim_twn (s : State) (x : Tim) : (setTim s x).twn = s.twn := rfl
@[simp] theorem setTim_esp (s : State) (x : Tim) : (setTim s x).esp = s.esp := rfl
@[simp] theorem setTim_svi (s : State) (x : Tim) : (setTim s x).svi = s.svi := rfl
@[simp] theorem setTim_afe (s : State) (x : Tim) : (setTim s x).afe = s.afe := rfl
@[simp] theorem setTim_dch (s : State) (x : Tim) : (setTim s x).dch = s.dch := rfl
@[simp] theorem setTim_eccBad (s : State) (x : Tim) : (setTim s x).eccBad = s.eccBad := rfl
@[simp] theorem setTim_eccSoft (s : State) (x : Tim) : (setTim s x).eccSoft = s.eccSoft := rfl
@[simp] theorem setTim_parBad (s : State) (x : Tim) : (setTim s x).parBad = s.parBad := rfl
@[simp] theorem setTim_freeCnt (s : State) (x : Tim) : (setTim s x).freeCnt = s.freeCnt := rfl
@[simp] theorem setTim_pending (s : State) (x : Tim) : (setTim s x).pending = s.pending := rfl

/-! ### `setTwn` changes `twn` only -/

@[simp] theorem setTwn_regs (s : State) (x : Twn) : (setTwn s x).regs = s.regs := rfl
@[simp] theorem setTwn_wide (s : State) (x : Twn) : (setTwn s x).wide = s.wide := rfl
@[simp] theorem setTwn_mem (s : State) (x : Twn) : (setTwn s x).mem = s.mem := rfl
@[simp] theorem setTwn_yew (s : State) (x : Twn) : (setTwn s x).yew = s.yew := rfl
@[simp] theorem setTwn_prv (s : State) (x : Twn) : (setTwn s x).prv = s.prv := rfl
@[simp] theorem setTwn_tim (s : State) (x : Twn) : (setTwn s x).tim = s.tim := rfl
@[simp] theorem setTwn_hst (s : State) (x : Twn) : (setTwn s x).hst = s.hst := rfl
@[simp] theorem setTwn_dr (s : State) (x : Twn) : (setTwn s x).dr = s.dr := rfl
@[simp] theorem setTwn_img (s : State) (x : Twn) : (setTwn s x).img = s.img := rfl
@[simp] theorem setTwn_ec (s : State) (x : Twn) : (setTwn s x).ec = s.ec := rfl
@[simp] theorem setTwn_ph (s : State) (x : Twn) : (setTwn s x).ph = s.ph := rfl
@[simp] theorem setTwn_snapTick (s : State) (x : Twn) : (setTwn s x).snapTick = s.snapTick := rfl
@[simp] theorem setTwn_thn (s : State) (x : Twn) : (setTwn s x).thn = s.thn := rfl
@[simp] theorem setTwn_sch (s : State) (x : Twn) : (setTwn s x).sch = s.sch := rfl
@[simp] theorem setTwn_glb (s : State) (x : Twn) : (setTwn s x).glb = s.glb := rfl
@[simp] theorem setTwn_sec (s : State) (x : Twn) : (setTwn s x).sec = s.sec := rfl
@[simp] theorem setTwn_net (s : State) (x : Twn) : (setTwn s x).net = s.net := rfl
@[simp] theorem setTwn_esp (s : State) (x : Twn) : (setTwn s x).esp = s.esp := rfl
@[simp] theorem setTwn_svi (s : State) (x : Twn) : (setTwn s x).svi = s.svi := rfl
@[simp] theorem setTwn_afe (s : State) (x : Twn) : (setTwn s x).afe = s.afe := rfl
@[simp] theorem setTwn_dch (s : State) (x : Twn) : (setTwn s x).dch = s.dch := rfl
@[simp] theorem setTwn_eccBad (s : State) (x : Twn) : (setTwn s x).eccBad = s.eccBad := rfl
@[simp] theorem setTwn_eccSoft (s : State) (x : Twn) : (setTwn s x).eccSoft = s.eccSoft := rfl
@[simp] theorem setTwn_parBad (s : State) (x : Twn) : (setTwn s x).parBad = s.parBad := rfl
@[simp] theorem setTwn_freeCnt (s : State) (x : Twn) : (setTwn s x).freeCnt = s.freeCnt := rfl
@[simp] theorem setTwn_pending (s : State) (x : Twn) : (setTwn s x).pending = s.pending := rfl

/-! ### `setYew` changes `yew` only -/

@[simp] theorem setYew_regs (s : State) (x : Yew) : (setYew s x).regs = s.regs := rfl
@[simp] theorem setYew_wide (s : State) (x : Yew) : (setYew s x).wide = s.wide := rfl
@[simp] theorem setYew_mem (s : State) (x : Yew) : (setYew s x).mem = s.mem := rfl
@[simp] theorem setYew_prv (s : State) (x : Yew) : (setYew s x).prv = s.prv := rfl
@[simp] theorem setYew_tim (s : State) (x : Yew) : (setYew s x).tim = s.tim := rfl
@[simp] theorem setYew_hst (s : State) (x : Yew) : (setYew s x).hst = s.hst := rfl
@[simp] theorem setYew_dr (s : State) (x : Yew) : (setYew s x).dr = s.dr := rfl
@[simp] theorem setYew_img (s : State) (x : Yew) : (setYew s x).img = s.img := rfl
@[simp] theorem setYew_ec (s : State) (x : Yew) : (setYew s x).ec = s.ec := rfl
@[simp] theorem setYew_ph (s : State) (x : Yew) : (setYew s x).ph = s.ph := rfl
@[simp] theorem setYew_snapTick (s : State) (x : Yew) : (setYew s x).snapTick = s.snapTick := rfl
@[simp] theorem setYew_thn (s : State) (x : Yew) : (setYew s x).thn = s.thn := rfl
@[simp] theorem setYew_sch (s : State) (x : Yew) : (setYew s x).sch = s.sch := rfl
@[simp] theorem setYew_glb (s : State) (x : Yew) : (setYew s x).glb = s.glb := rfl
@[simp] theorem setYew_sec (s : State) (x : Yew) : (setYew s x).sec = s.sec := rfl
@[simp] theorem setYew_net (s : State) (x : Yew) : (setYew s x).net = s.net := rfl
@[simp] theorem setYew_twn (s : State) (x : Yew) : (setYew s x).twn = s.twn := rfl
@[simp] theorem setYew_esp (s : State) (x : Yew) : (setYew s x).esp = s.esp := rfl
@[simp] theorem setYew_svi (s : State) (x : Yew) : (setYew s x).svi = s.svi := rfl
@[simp] theorem setYew_afe (s : State) (x : Yew) : (setYew s x).afe = s.afe := rfl
@[simp] theorem setYew_dch (s : State) (x : Yew) : (setYew s x).dch = s.dch := rfl
@[simp] theorem setYew_eccBad (s : State) (x : Yew) : (setYew s x).eccBad = s.eccBad := rfl
@[simp] theorem setYew_eccSoft (s : State) (x : Yew) : (setYew s x).eccSoft = s.eccSoft := rfl
@[simp] theorem setYew_parBad (s : State) (x : Yew) : (setYew s x).parBad = s.parBad := rfl
@[simp] theorem setYew_freeCnt (s : State) (x : Yew) : (setYew s x).freeCnt = s.freeCnt := rfl
@[simp] theorem setYew_pending (s : State) (x : Yew) : (setYew s x).pending = s.pending := rfl

/-! ### `modSch` changes `sch` only -/

@[simp] theorem modSch_regs (s : State) (g : Sch → Sch) : (modSch s g).regs = s.regs := rfl
@[simp] theorem modSch_wide (s : State) (g : Sch → Sch) : (modSch s g).wide = s.wide := rfl
@[simp] theorem modSch_mem (s : State) (g : Sch → Sch) : (modSch s g).mem = s.mem := rfl
@[simp] theorem modSch_yew (s : State) (g : Sch → Sch) : (modSch s g).yew = s.yew := rfl
@[simp] theorem modSch_prv (s : State) (g : Sch → Sch) : (modSch s g).prv = s.prv := rfl
@[simp] theorem modSch_tim (s : State) (g : Sch → Sch) : (modSch s g).tim = s.tim := rfl
@[simp] theorem modSch_hst (s : State) (g : Sch → Sch) : (modSch s g).hst = s.hst := rfl
@[simp] theorem modSch_dr (s : State) (g : Sch → Sch) : (modSch s g).dr = s.dr := rfl
@[simp] theorem modSch_img (s : State) (g : Sch → Sch) : (modSch s g).img = s.img := rfl
@[simp] theorem modSch_ec (s : State) (g : Sch → Sch) : (modSch s g).ec = s.ec := rfl
@[simp] theorem modSch_ph (s : State) (g : Sch → Sch) : (modSch s g).ph = s.ph := rfl
@[simp] theorem modSch_snapTick (s : State) (g : Sch → Sch) : (modSch s g).snapTick = s.snapTick := rfl
@[simp] theorem modSch_thn (s : State) (g : Sch → Sch) : (modSch s g).thn = s.thn := rfl
@[simp] theorem modSch_glb (s : State) (g : Sch → Sch) : (modSch s g).glb = s.glb := rfl
@[simp] theorem modSch_sec (s : State) (g : Sch → Sch) : (modSch s g).sec = s.sec := rfl
@[simp] theorem modSch_net (s : State) (g : Sch → Sch) : (modSch s g).net = s.net := rfl
@[simp] theorem modSch_twn (s : State) (g : Sch → Sch) : (modSch s g).twn = s.twn := rfl
@[simp] theorem modSch_esp (s : State) (g : Sch → Sch) : (modSch s g).esp = s.esp := rfl
@[simp] theorem modSch_svi (s : State) (g : Sch → Sch) : (modSch s g).svi = s.svi := rfl
@[simp] theorem modSch_afe (s : State) (g : Sch → Sch) : (modSch s g).afe = s.afe := rfl
@[simp] theorem modSch_dch (s : State) (g : Sch → Sch) : (modSch s g).dch = s.dch := rfl
@[simp] theorem modSch_eccBad (s : State) (g : Sch → Sch) : (modSch s g).eccBad = s.eccBad := rfl
@[simp] theorem modSch_eccSoft (s : State) (g : Sch → Sch) : (modSch s g).eccSoft = s.eccSoft := rfl
@[simp] theorem modSch_parBad (s : State) (g : Sch → Sch) : (modSch s g).parBad = s.parBad := rfl
@[simp] theorem modSch_freeCnt (s : State) (g : Sch → Sch) : (modSch s g).freeCnt = s.freeCnt := rfl
@[simp] theorem modSch_pending (s : State) (g : Sch → Sch) : (modSch s g).pending = s.pending := rfl

end Sys2Proof.Machine
end

