-- ==== Sys2Proof/Tests/Slice0.lean ====
section
/-! SUPPORT. Small tests: what ill-formed commands look like, and for each statement a state and operands that meet its
hypotheses. -/

namespace Sys2Proof.Tests

open Sys2Proof Sys2Proof.Machine

set_option Elab.async false

/-! ### Helpers -/

/-- The machine after reset with some fields written. -/
def st (l : List (Fld × Nat)) : State := l.foldl (fun s e => s.wr e.1 e.2) State.reset

/-- The same, with no reset held and every domain powered. -/
def up (l : List (Fld × Nat)) : State := { st ((R.GLB_PWRSTAT_PG, 0xFFF) :: l) with glb := { hold := 0 } }

/-- A section of core 0 runs with registers `f`. -/
def pe (f : RegFile := {}) : State := { up [] with ec := [(0, { run := some { tick := 5, cls := 0, bay := 1, rf := f } })] }

/-- Task 2 runs with registers `f` on the scheme cores. -/
def sl (f : RegFile := {}) : State :=
  { up [(R.SCH_STAT_STATE, 1)] with sch := { cur := some { task := 2, rf := f } }, img := { slLen := 10 } }

def g0 : Guard := ⟨false, 0⟩

/-- The state a command leaves. -/
def after (c : Instr) (s : State) : State := match exec c s with | .next t => t | _ => State.reset

/-- The registers a syllable leaves on core 0, on the scheme cores. -/
def peR (c : Instr) (f : RegFile) : RegFile := match ((after c (pe f)).core 0).run with | some x => x.rf | none => {}
def slR (c : Instr) (f : RegFile) : RegFile := match (after c (sl f)).sch.cur with | some x => x.rf | none => {}

/-! ### Ill-formed commands are seen, well-formed ones pass -/

theorem test_wf_registerWrite : (Instr.registerWrite .hst 2 0).wf = false ∧ (Instr.registerWrite .hst 0x4000000 0).wf = false ∧
    (Instr.registerWrite .hst 0x3FFFFFC 0).wf = true := by decide
theorem test_wf_narrow : (Instr.bar0NarrowAccess (some 0) 0 4).wf = false ∧ (Instr.bar0NarrowAccess none 0 0).wf = false ∧
    (Instr.bar0NarrowAccess none 0 2).wf = true := by decide
theorem test_wf_reads : (Instr.wideLowRead 1).wf = false ∧ (Instr.readClear 0x4000000).wf = false ∧ (Instr.wideLowRead 8).wf = true := by
  decide
theorem test_wf_banks : (Instr.bankRequest (.hb 0 0) true).wf = false ∧ (Instr.fadeStart (.hb 0 6)).wf = false ∧
    (Instr.fadeEnd (.hb 0 7)).wf = false ∧ (Instr.bankRequest (.hb 0 5) true).wf = true := by decide
theorem test_wf_admit : (Instr.yewEventAdmit 0).wf = false ∧ (Instr.yewEventAdmit 1).wf = true := by decide
theorem test_wf_occurrence : (Instr.privetFaultOccurrence []).wf = false ∧ (Instr.privetFaultOccurrence [(3, 0)]).wf = true := by decide
set_option maxRecDepth 4000 in
theorem test_wf_bar2 : (Instr.bar2Read 0 0).wf = false ∧ (Instr.bar2Read 0 257).wf = false ∧ (Instr.bar2Read 0 256).wf = true := by
  decide
theorem test_wf_bar2Write : (Instr.bar2Write 0 []).wf = false ∧ (Instr.bar2Write 0 [some 1]).wf = true := by decide
set_option maxRecDepth 4000 in
theorem test_wf_mspi : (Instr.mspiWriteBar0 0 [] 0 0).wf = false ∧ (Instr.mspiWriteDram 0 (List.replicate 65 0) 0 0).wf = false ∧
    (Instr.mspiWriteBar0 0 (List.replicate 64 0) 0 0).wf = true := by decide

/-! ### The block and its registers -/

/-- The front command alone is taken: an idle block stays as it is, a ring gets nothing. -/
theorem test_step_front : step { State.reset with pending := [.safeRequest, .nop .sl true] } =
    exec .safeRequest { State.reset with pending := [.nop .sl true] } := rfl
theorem wit_StepsKeepMemory : Inv { State.reset with mem := [(3, 1), (7, 255)] } := by unfold Machine.Inv; decide

/-- R6 fields: 0x1234 over RWL fields once free, once locked. -/
theorem test_field_codes : (putField false 0x80001234 State.reset R.TWN_CFG_PARTNER).rd R.TWN_CFG_PARTNER = 1 ∧
    (putField true 0x80001234 State.reset R.TWN_CFG_PARTNER).rd R.TWN_CFG_PARTNER = 0 := by decide
theorem wit_AccessCodes : State.reset.rd R.TWN_DISBAY_BAY < 2 ^ R.TWN_DISBAY_BAY.w ∧ R.TWN_DISBAY_BAY.lo < 32 ∧
    R.TWN_DISBAY_BAY.acc = .w1c ∧ R.TWN_CFG_EN.acc = .rwl ∧ R.TWN_AGE_AGE.acc = .ro ∧ R.TWN_CTL_LOCK.acc = .w1s ∧
    lockAt R.TWN_CTL_LOCK.addr = some R.TWN_CTL_LOCK ∧ R.TWN_CTL_LOCK.w = 1 := by decide

set_option maxRecDepth 100000 in
theorem wit_RegisterWrites_plain : let s := up []; busUp s = true ∧ 0xE00008 % 4 = 0 ∧ s.pg (regPd 0xE00008) = true ∧
    mayWriteReg s .hst 0xE00008 = true ∧ wrSpecial s 0xE00008 0x1234 = none := by decide
set_option maxRecDepth 100000 in
theorem wit_RegisterWrites_special : let s := up []; busUp s = true ∧ s.pg 0 = true ∧ s.pg 1 = true ∧ s.pg 6 = true ∧ s.pg 8 = true ∧
    s.pg (regPd 0xD0001C) = true ∧ ([0x8, 0x100020, 0x200028, 0x300C4C, 0x70000C, 0xA00044, 0xD0001C, 0x14, 0x200044, 0x700008, 0x100014,
      0xA0001C].all fun a => mayWriteReg s .hst a) = true := by decide
set_option maxRecDepth 100000 in
theorem wit_RegisterWrites_indexed : let s := up []; s.pg (2 + 7 / 2) = true ∧ ([0x900100 + 0x10000 * 7 + 0x20 * 2, 0x900104, 0xB01018 + 0x20 * 15,
      0x300104 + 0x40 * 3, 0x300804 + 0x20 * 7, 0xC00100 + 0x100 * 3, 0x701000 + 0x40 * 47, 0x704000 + 0x40 * 191, 0x300130 + 0x40 * 3,
      0x501000 + 0x40 * 63, 0x504000 + 4 * 191].all fun a => mayWriteReg s .hst a) = true := by decide
set_option maxRecDepth 100000 in
theorem wit_RegisterWrites_denied : let s := up []; busUp s = true ∧ mayWrite s .hst 0x810000 = false ∧ s.on R.GLB_ACC_INIT_VALID = false ∧
    (up [(R.GLB_ACC_INIT_VALID, 1)]).on R.GLB_ACC_INIT_VALID = true := by decide
theorem wit_NarrowAccessAndLock : let s := up []; busUp s = true ∧ 0xFC1000 % 8 = 0 ∧ (s.wide.any fun e => e.1 == 0xFC1000 || e.1 == 0xFC1000 + 4) = false ∧ ¬ (2 = 4 ∧ 0xFC0000 % 4 = 0) ∧ ¬ (8 = 8 ∧ 0xFC1008 % 8 = 0 ∧ 0xFC1008 < 0xFC1008) ∧
    lockFlds[22]? = some (R.ELCn_CTL_LOCK 7) ∧ s.pg (regPd (R.ELCn_CTL_LOCK 7).addr) = true ∧
    R.TWN_CFG_EN.acc = .rwl ∧ lockAt (ctlAddr R.TWN_CFG_EN.addr) = some R.TWN_CTL_LOCK := by decide
theorem wit_WideReads : let s := up []; busUp s = true ∧ lowOf64 0x817FF0 = true ∧ (s.wide.any fun e => e.1 == 0x817FF0) = false := by
  decide

theorem wit_ReadClears : findReg regTable 0x800130 = some [R.ESP_FTGg_LAGMAX_LAGMAX 0] ∧ (R.ESP_FTGg_LAGMAX_LAGMAX 0).acc = .rc ∧
    ¬ (0x800000 ≤ 0x800130 ∧ inPlanes (0x800130 - 0x800000) = true) := by decide
theorem wit_DiagnosticReads : let s := up []; busUp s = true ∧ s.pg (2 + 7 / 2) = true ∧ s.pg 1 = true ∧
    s.eccBad.contains (ecDataBase 7 + 0x1FFFC) = false ∧ s.eccSoft.contains (ecElemBase 7 + 0x7FFC) = false ∧
    ({ s with eccBad := [ecDataBase 7 + 0x1FFFC] } : State).eccBad.contains (ecDataBase 7 + 0x1FFFC) = true ∧
    inPlanes 0x20000 = true ∧ s.parBad = [] ∧ (s.wide.any fun e => e.1 == 0x800000 + 0x20000) = false := by decide

/-! ### Porlon (worked values by hand from R213 to R220) -/

theorem test_add_wraps : (peR (.add (.pe 0) g0 3 1 2 true) { s := [(1, 0xFFFFFFFF), (2, 2)] }).gs 3 = 1 := by decide
theorem test_sub_same : (peR (.sub (.pe 0) g0 1 1 2 true) { s := [(1, 1), (2, 2)] }).gs 1 = 0xFFFFFFFF := by decide
theorem test_s0_kept : (peR (.add (.pe 0) g0 0 1 1 true) { s := [(1, 7)] }).gs 0 = 0 ∧
    (peR (.add (.pe 0) g0 0 1 1 true) { s := [(1, 7)] }).pc = 1 := by decide
theorem test_sra_sign : (peR (.sra (.pe 0) g0 3 1 2 true) { s := [(1, 0x80000000), (2, 33)] }).gs 3 = 0xC0000000 := by decide
theorem test_mulh : (peR (.mulh (.pe 0) g0 3 1 2 true) { s := [(1, 0xFFFFFFFF), (2, 2)] }).gs 3 = 0xFFFFFFFF := by decide
theorem test_mulhu : (slR (.mulhu .sl g0 3 1 2 true) { s := [(1, 0xFFFFFFFF), (2, 2)] }).gs 3 = 1 := by decide
theorem test_div_corner : (peR (.div (.pe 0) g0 3 1 2 true) { s := [(1, 0x80000000), (2, 0xFFFFFFFF)] }).gs 3 = 0x80000000 ∧
    (peR (.div (.pe 0) g0 3 1 2 true) { s := [(1, 0xFFFFFFF9), (2, 2)] }).gs 3 = 0xFFFFFFFD := by decide
theorem test_rem_sign : (peR (.rem (.pe 0) g0 3 1 2 true) { s := [(1, 0xFFFFFFF9), (2, 2)] }).gs 3 = 0xFFFFFFFF ∧
    (peR (.rem (.pe 0) g0 3 1 2 true) { s := [(1, 5)] }).gs 3 = 5 := by decide
theorem test_clz_popc : (peR (.clz (.pe 0) g0 3 1 true) { s := [(1, 0x00F00000)] }).gs 3 = 8 ∧
    (peR (.popc (.pe 0) g0 3 1 true) { s := [(1, 0x80000101)] }).gs 3 = 3 := by decide
theorem test_addi_sign : (peR (.addi (.pe 0) g0 3 1 0xFFF true) { s := [(1, 0)] }).gs 3 = 0xFFFFFFFF := by decide
theorem test_li_lih : (peR (.lih (.pe 0) 3 0x1234 true) (peR (.li (.pe 0) 3 0x1FFFFF true) {})).gs 3 = 0x1234FFFF := by decide
theorem test_fli : (peR (.fli (.pe 0) 3 0x07F000 true) {}).gs 3 = 0x3F800000 := by decide
theorem test_guard_false : (peR (.add (.pe 0) ⟨true, 0⟩ 3 1 1 true) { s := [(1, 7)] }).gs 3 = 0 := by decide
theorem test_cmp : (peR (.cmpLt (.pe 0) g0 2 1 2 true) { s := [(1, 0xFFFFFFFF)] }).gp 2 = true ∧
    (peR (.cmpLtu (.pe 0) g0 2 1 2 true) { s := [(1, 0xFFFFFFFF)] }).gp 2 = false := by decide
theorem test_pandn : (slR (.pandn .sl g0 2 1 3 true) { p := [(1, true)] }).gp 2 = true := by decide
theorem test_br_wraps : (peR (.br (.pe 0) g0 0x1FFFFF true) { pc := 3 }).pc = 2 ∧ (slR (.br .sl g0 0x1FFFFF true) { pc := 3 }).pc = 2 := by
  decide
theorem test_call_ret : (peR (.call (.pe 0) g0 5 true) { pc := 3 }).rs = [4] ∧ (peR (.ret (.pe 0) g0 true) { pc := 8, rs := [4] }).pc = 4 := by
  decide
theorem test_loop_end : (RegFile.advance { pc := 4, ls := [⟨2, 4, 2⟩] }).pc = 2 ∧ (RegFile.advance { pc := 4, ls := [⟨2, 4, 1⟩] }).pc = 5 := by
  decide
theorem test_fadd : F32.add 0x3F800000 0x40000000 = 0x40400000 ∧ F32.add 0x4B800000 0x3F800000 = 0x4B800000 := by decide
theorem test_fmul_subnormal : F32.mul 0x00800000 0x3F000000 = 0x00400000 := by decide
theorem test_fdiv_third : F32.div 0x3F800000 0x40400000 = 0x3EAAAAAB := by decide
set_option maxRecDepth 8000 in
theorem test_fsqrt : F32.sqrt 0x40000000 = 0x3FB504F3 := by decide
theorem test_fma_exact : F32.fma 0x3F800001 0x3F800001 0xBF800002 = 0x28800000 := by decide
theorem test_fcvt : F32.toI32 0xBF000000 = 0 ∧ F32.toI32 0x4F000000 = 0x7FFFFFFF := by decide
theorem test_cmul_i : (peR (.cmul 0 g0 2 0 1 true) { c := [(0, (0, 0x3F800000)), (1, (0, 0x3F800000))] }).gc 2 = (0xBF800000, 0) := by decide
theorem test_store_load : memRds (after (.stW (.pe 0) g0 1 0 8 true) (pe { s := [(1, 0x11223344)] })).mem (ecDataBase 0 + 8) 4 =
    [0x44, 0x33, 0x22, 0x11] := by decide
set_option maxRecDepth 8000 in
theorem test_crc32 : crc32 [0x31, 0x32, 0x33, 0x34, 0x35, 0x36, 0x37, 0x38, 0x39] = 0xCBF43926 := by decide

/-! ### Witnesses for the Porlon statements -/

/-- A program is ready for a syllable on an element core, at its last bundle address, and on the scheme cores. -/
theorem wit_Ready_pe : Ready (.li (.pe 0) 31 7 true) (pe { pc := 4094 }) (.pe 0) true { pc := 4094 } [.setS 31 7] := ⟨_, rfl, rfl, rfl, fun _ => ⟨by decide, by decide⟩, ⟨by decide, fun _ => by decide⟩, fun _ => by decide⟩
theorem wit_Ready_sl : Ready (.pnot .sl g0 7 1 true) (sl { pc := 8 }) .sl true { pc := 8 } [.setP 7 true] :=
  ⟨by decide, ⟨_, rfl, rfl⟩, ⟨by decide, by decide⟩, by decide, by decide⟩
theorem wit_IntegerResults : ∃ y, Spec.intReg (.divu (.pe 0) g0 31 1 2 true) = some y ∧ (guardHolds {} y.g = true → y.ok (pe) {}) ∧
    Ready (.divu (.pe 0) g0 31 1 2 true) pe y.k y.last {} (y.effects pe {}) := ⟨_, rfl, fun _ => trivial, _, rfl, rfl, rfl, fun _ => ⟨by decide, by decide⟩, ⟨by decide, fun _ => by decide⟩, fun _ => by decide⟩
theorem wit_ImmediateResults : ∃ y, Spec.intImm (.lih .sl 31 0xFFFF true) = some y ∧ (guardHolds {} y.g = true → y.ok sl {}) ∧
    Ready (.lih .sl 31 0xFFFF true) sl y.k y.last {} (y.effects sl {}) := ⟨_, rfl, fun _ => trivial, by decide, ⟨_, rfl, rfl⟩, ⟨by decide, by decide⟩, by decide, by decide⟩
theorem wit_PredicateResults : ∃ y, Spec.predOps (.pnot (.pe 0) g0 7 1 true) = some y ∧ Ready (.pnot (.pe 0) g0 7 1 true) pe y.k y.last {} (y.effects pe {}) :=
  ⟨_, rfl, _, rfl, rfl, rfl, fun _ => ⟨by decide, by decide⟩, ⟨by decide, fun _ => by decide⟩, fun _ => by decide⟩

/-- A call with seven entries on the return stack, a return with one, a loop with three. -/
theorem wit_ControlTransfers_call : let f : RegFile := { rs := List.replicate 7 1 }
    ∃ y, Spec.flowOps (.call (.pe 0) g0 5 true) = some y ∧ y.ok (pe f) f ∧ Ready (.call (.pe 0) g0 5 true) (pe f) y.k y.last f (y.effects (pe f) f) :=
  ⟨_, rfl, by decide, _, rfl, rfl, rfl, fun _ => ⟨by decide, by decide⟩, ⟨by decide, fun _ => by decide⟩, fun _ => by decide⟩
theorem wit_ControlTransfers_ret : let f : RegFile := { rs := [9] }
    ∃ y, Spec.flowOps (.ret .sl g0 true) = some y ∧ y.ok (sl f) f ∧ Ready (.ret .sl g0 true) (sl f) y.k y.last f (y.effects (sl f) f) :=
  ⟨_, rfl, by decide, by decide, ⟨_, rfl, rfl⟩, ⟨by decide, by decide⟩, by decide, by decide⟩
theorem wit_ControlTransfers_loop : let f : RegFile := { ls := List.replicate 3 ⟨0, 9, 1⟩ }
    ∃ y, Spec.flowOps (.loop (.pe 0) 0 0xFFF 1 true) = some y ∧ y.ok (pe f) f ∧ Ready (.loop (.pe 0) 0 0xFFF 1 true) (pe f) y.k y.last f (y.effects (pe f) f) :=
  ⟨_, rfl, Or.inr (by decide), _, rfl, rfl, rfl, fun _ => ⟨by decide, by decide⟩, ⟨by decide, fun _ => by decide⟩, fun _ => by decide⟩
theorem wit_ControlTransfers_stack : let f : RegFile := { pc := 4, ls := [⟨2, 4, 2⟩, ⟨1, 9, 1⟩], rs := [3] }
    f.ls = [] ++ ⟨2, 4, 2⟩ :: [⟨1, 9, 1⟩] ∧ ¬ (2 ≤ 9 % 4096 ∧ 9 % 4096 ≤ 4) ∧ (∀ x ∈ [(⟨1, 9, 1⟩ : LoopEnt)], x.start ≤ 9 % 4096 ∧ 9 % 4096 ≤ x.last) ∧
    f.rs = 3 :: [] ∧ ({ f with pc := 5 } : RegFile).ls.all (fun e => e.last != 5) = true := by decide
theorem wit_LoopIterations : let f : RegFile := { pc := 7, ls := [⟨7, 7, 1⟩, ⟨1, 9, 3⟩] }
    1 ≤ 1 ∧ f.pc = 7 ∧ (∀ e ∈ [(⟨1, 9, 3⟩ : LoopEnt)], e.last ≠ 7) ∧ f.ls = ⟨7, 7, 1⟩ :: [⟨1, 9, 3⟩] := by decide
theorem wit_FloatResults : ∃ y, Spec.f32Ops (.fmsub (.pe 0) g0 3 1 2 false) = some y ∧ Ready (.fmsub (.pe 0) g0 3 1 2 false) pe y.k y.last {} (y.effects pe {}) :=
  ⟨_, rfl, _, rfl, rfl, rfl, fun _ => ⟨by decide, by decide⟩, ⟨by decide, fun _ => by decide⟩, fun h => absurd h (by decide)⟩
theorem wit_FloatSpecials : F32.isNaN 0x7F800001 = true ∧ F32.isNaN 0xFF800000 = false ∧ F32.isNaN 0x80000000 = false := by decide
theorem wit_ComplexResults : ∃ y, Spec.cxOps (.sqSeq 0 g0 15 14 true) = some y ∧ Ready (.sqSeq 0 g0 15 14 true) pe y.k y.last {} (y.effects pe {}) :=
  ⟨_, rfl, _, rfl, rfl, rfl, fun _ => ⟨by decide, by decide⟩, ⟨by decide, fun _ => by decide⟩, fun _ => by decide⟩
theorem wit_ComplexResults_carg : guardHolds {} (some g0) = true ∧ ∀ v : Word, Ready (.carg 0 g0 3 0 true) pe (.pe 0) true {} [.setS 3 v] :=
  ⟨rfl, fun _ => ⟨_, rfl, rfl, rfl, fun _ => ⟨by decide, by decide⟩, ⟨by decide, fun _ => by decide⟩, fun _ => ⟨rfl, (by decide : fetchOk pe (.pe 0) 1 = true)⟩⟩⟩

/-- A word access at the last word of data memory; of bay 1's own region; of the common region; refused just outside. -/
theorem wit_LoadsAndStores_map : Spec.peMap 0 1 0x1FFFC = some (ecDataBase 0 + 0x1FFFC) ∧ Spec.peMap 0 1 0x22800 = some (ecElemBase 0 + 0x2800) ∧
    Spec.peMap 0 1 0x227FC = none ∧ Spec.peMap 0 1 0x24FFC = some (ecElemBase 0 + 0x4FFC) ∧ Spec.peMap 0 1 0x25000 = none ∧
    Spec.peMap 0 1 0x27800 = some (ecElemBase 0 + 0x7800) ∧ Spec.peMap 0 1 0x28000 = none := by decide
theorem wit_LoadsAndStores_load : ∃ y, Spec.memOps (.ldW (.pe 0) g0 3 0 0xC true) = some y ∧ y.ok (pe {}) {} ∧
    Ready (.ldW (.pe 0) g0 3 0 0xC true) (pe {}) y.k y.last {} (y.effects (pe {}) {}) :=
  ⟨_, rfl, ⟨_, rfl, rfl, rfl⟩, _, rfl, rfl, rfl, fun _ => ⟨by decide, by decide⟩, ⟨by decide, fun _ => by decide⟩, fun _ => by decide⟩
theorem wit_LoadsAndStores_pair : ∃ y, Spec.memOps (.stC 0 g0 3 0 8 true) = some y ∧ y.ok (pe {}) {} ∧
    Ready (.stC 0 g0 3 0 8 true) (pe {}) y.k y.last {} (y.effects (pe {}) {}) := ⟨_, rfl, ⟨_, rfl⟩, _, rfl, rfl, rfl, fun _ => ⟨by decide, by decide⟩, ⟨by decide, fun _ => by decide⟩, fun _ => by decide⟩
theorem wit_LoadsAndStores_store : ∃ x m, ((pe {}).core 0).run = some x ∧ x.buf = [] ∧ guardHolds x.rf (some g0) = true ∧
    Spec.peAt (pe {}) 0 x.rf 0 12 4 = some m ∧ Ready (.stW (.pe 0) g0 1 0 12 true) (pe {}) (.pe 0) true x.rf [.store m (x.rf.gs 1)] ∧
    Spec.peAt (pe {}) 0 x.rf 0 8 8 = some (ecDataBase 0 + 8) :=
  ⟨_, _, rfl, rfl, rfl, rfl, ⟨_, rfl, rfl, rfl, fun _ => ⟨by decide, by decide⟩, ⟨by decide, fun _ => by decide⟩, fun _ => by decide⟩, rfl⟩
theorem wit_LoadsAndStores_sl : let f : RegFile := { s := [(1, 0x7FFFC), (2, 0x40000000)] }
    Running (.stW .sl g0 3 1 0 true) (sl f) .sl true f ∧ guardHolds f (some g0) = true ∧ effAddr f 1 0 % 4 = 0 ∧ effAddr f 1 0 < 0x80000 ∧
      fetchOk ((sl f).putWord (scBase + effAddr f 1 0) (f.gs 3)) .sl (regsAfter f []).pc = true ∧ 0x40000000 ≤ effAddr f 2 0 ∧ effAddr f 2 0 < 0x44000000 :=
  ⟨⟨by decide, ⟨_, rfl, rfl⟩, by decide, by decide⟩, by decide, by decide, by decide, by decide, by decide, by decide⟩
theorem wit_LoadsAndStores_bus : let f : RegFile := { s := [(2, 0x40000000)] }
    let p := busRead (sl f) .sc (effAddr f 2 0 - 0x40000000)
    Ready (.ldW .sl g0 3 2 0 true) p.2 .sl true f [.setS 3 (BitVec.ofNat 32 p.1)] :=
  ⟨by decide, ⟨_, rfl, rfl⟩, ⟨by decide, by decide⟩, by decide, by decide⟩

/-- Core 0 runs a section of tick 5 whose context is open. -/
def ctx (f : RegFile := {}) (cls : Nat := 0) : State :=
  { up [] with ec := [(0, { run := some { tick := 5, cls := cls, bay := 1, rf := f }, ctxs := [{ tick := 5, rest := [(cls, 1)] }] })] }

theorem wit_SectionReads : ∃ y, Spec.readOps (.vrd 0 g0 3 12 true) = some y ∧ Ready (.vrd 0 g0 3 12 true) pe y.k y.last {} (y.effects pe {}) :=
  ⟨_, rfl, _, rfl, rfl, rfl, fun _ => ⟨by decide, by decide⟩, ⟨by decide, fun _ => by decide⟩, fun _ => by decide⟩
theorem wit_SectionReads_rdsr : ∃ x c, (ctx.core 0).run = some x ∧ guardHolds x.rf (some g0) = true ∧ (12 : Fin 13) ≠ 0 ∧
    ctxAt ctx 0 x.tick = some c ∧ ∀ v : Word, Ready (.rdsr 0 g0 3 12 true) ctx (.pe 0) true x.rf [.setS 3 v] :=
  ⟨_, _, rfl, rfl, by decide, rfl, fun _ => ⟨_, rfl, rfl, rfl, fun _ => ⟨by decide, by decide⟩, ⟨by decide, fun _ => by decide⟩, fun _ => ⟨rfl, (by decide : fetchOk ctx (.pe 0) 1 = true)⟩⟩⟩
theorem wit_EspalierWindow : ∃ x c, (ctx.core 0).run = some x ∧ ctx.parBad = [] ∧ ctxAt ctx 0 x.tick = some c ∧
    (∀ v w : Word, Ready (.ldg 0 g0 31 23 0 true) ctx (.pe 0) true x.rf [.setS 31 v, .setS 0 w]) ∧ slotReused ctx (ftgOf ctx 0) x.tick = true :=
  ⟨_, _, rfl, rfl, rfl, fun _ _ => ⟨_, rfl, rfl, rfl, fun _ => ⟨by decide, by decide⟩, ⟨by decide, fun _ => by decide⟩, fun _ => ⟨rfl, (by decide : fetchOk ctx (.pe 0) 1 = true)⟩⟩, by decide⟩
theorem wit_VerdictWrites : ∃ x, ((ctx { s := [(1, 3)] }).core 0).run = some x ∧ x.buf = [] ∧ x.exc = none ∧
    guardHolds x.rf (some g0) = true ∧ Fetched (ctx { s := [(1, 3)] }) 0 x ∧ fetchOk (ctx { s := [(1, 3)] }) (.pe 0) (x.rf.advance).pc = true ∧
    (∀ c ∈ [Instr.vwr 0 g0 1 0 true, .vset 0 g0 1 0 true, .vclr 0 g0 1 0 true], Joins c (ctx { s := [(1, 3)] }) 0 x true) ∧
    x.rf.gs 1 &&& ~~~verdictMask 0 x.cls = 0 := ⟨_, rfl, rfl, rfl, rfl, fun _ => ⟨by decide, by decide⟩, by decide, by simp only [List.forall_mem_cons]; exact ⟨⟨by decide, fun _ => by decide⟩, ⟨by decide, fun _ => by decide⟩, ⟨by decide, fun _ => by decide⟩, fun _ h => nomatch h⟩, by decide⟩
theorem test_verdict_or : verWord (after (.vset 0 g0 1 4 true) (ctx { s := [(1, 0x8001)] })) 0 1 4 = 0x8001 := by decide
theorem wit_CurveInstances : F32.isNaN 0x7FC00000 = true ∧ F32.isNaN 0x3F000000 = false ∧
    ∃ x, (ctx.core 0).run = some x ∧ x.buf = [] ∧ x.exc = none ∧ guardHolds x.rf (some g0) = true ∧
      ∀ w ∈ doseWords 0 x.bay 31 ++ paramWords ctx 0 x 31, Spec.goodWord ctx w := by
  exact ⟨by decide, by decide, _, rfl, rfl, rfl, rfl, fun _ _ => ⟨rfl, rfl⟩⟩
theorem test_cvSet_half : doseGet (after (.cvSet 0 g0 31 1 true) (ctx { s := [(1, 0x3F000000)] })) 0 1 31 = 2 ^ 45 := by decide

/-- Each exception's condition at its boundary. -/
theorem wit_SyllableExceptions : let f : RegFile := { s := [(1, 24), (2, 256), (3, 0x7FF84), (4, 0x80000), (5, 0x44000000), (6, 2)], rs := List.replicate 8 0, ls := List.replicate 4 ⟨0, 9, 1⟩ }
    8 ≤ f.rs.length ∧ ({} : RegFile).rs = [] ∧ Spec.loopCount f 0 1 ≠ 0 ∧ 4 ≤ f.ls.length ∧ effAddr f 6 0 % 4 ≠ 0 ∧ effAddr f 0 4 % 8 ≠ 0 ∧
    Spec.peMap 0 1 (effAddr f 4 0) = none ∧ 0x80000 ≤ effAddr f 4 0 ∧ effAddr f 4 0 < 0x40000000 ∧ 0x44000000 ≤ effAddr f 5 0 ∧
    23 < (f.gs 1).toNat ∧ 255 < (f.gs 2).toNat ∧ 0x80000 < (f.gs 3).toNat + 128 := by decide
theorem wit_SyllableExceptions_running : Running (.nop (.pe 0) true) (pe {}) (.pe 0) true {} ∧ Running (.nop .sl true) (sl {}) .sl true {} ∧
    ∃ x, ((ctx { s := [(1, 4)] }).core 0).run = some x ∧ x.rf.gs 1 &&& ~~~verdictMask 0 x.cls ≠ 0 :=
  ⟨⟨_, rfl, rfl, rfl, fun _ => ⟨by decide, by decide⟩, by decide, fun _ => by decide⟩, ⟨by decide, ⟨_, rfl, rfl⟩, by decide, by decide⟩, _, rfl, by decide⟩
set_option maxRecDepth 20000 in
theorem test_vwr_cause : (after (.vwr 0 g0 1 0 true) (ctx { s := [(1, 4)] } 1)).on (R.ELCn_STAT_VWR_STK 0) = true := by decide

/-! ### Sections' ends and the scheme cores -/

theorem wit_SectionEnds : ∃ x, (ctx.core 0).run = some x ∧ x.buf = [] ∧ x.exc = none ∧ guardHolds x.rf (some g0) = true ∧
    (ctx.core 0).held = [] ∧ guardHolds {} (some ⟨true, 0⟩) = false ∧ fetchedBy ctx 0 x = ctx ∧ Joins (.tickEnd 0 g0 true) ctx 0 x true ∧ Ready (.tickEnd 0 ⟨true, 0⟩ true) pe (.pe 0) true {} [] :=
  ⟨_, rfl, rfl, rfl, rfl, rfl, rfl, by decide, ⟨by decide, fun _ => by decide⟩, _, rfl, rfl, rfl, fun _ => ⟨by decide, by decide⟩, ⟨by decide, fun _ => by decide⟩, fun _ => by decide⟩
theorem wit_ElementExceptions : ∃ x, (ctx.core 0).run = some x ∧ (ctx.core 0).held = [] ∧ fetchedBy ctx 0 x = ctx ∧ x.tick ∉ (ctx.core 0).excTicks ∧
    x.tick ∈ ({ ctx.core 0 with excTicks := [5] } : Core).excTicks := ⟨_, rfl, rfl, by decide, by decide, by decide⟩
theorem wit_SchemeExceptions : ∃ x, (sl {}).sch.cur = some x ∧ (sl {}).rd R.SCH_STAT_STATE = 1 := ⟨_, rfl, by decide⟩
theorem wit_SchemeSyllables : ∃ y, Spec.slOps (.bmxOr g0 3 1 2) = some y ∧ y.ok (sl { s := [(2, 0x7FF80)] }) { s := [(2, 0x7FF80)] } ∧
    Ready (.bmxOr g0 3 1 2) (sl { s := [(2, 0x7FF80)] }) y.k y.last { s := [(2, 0x7FF80)] } (y.effects (sl { s := [(2, 0x7FF80)] }) { s := [(2, 0x7FF80)] }) :=
  ⟨_, rfl, ⟨by decide, by decide, fun _ _ => ⟨rfl, rfl⟩⟩, by decide, ⟨_, rfl, rfl⟩, ⟨by decide, by decide⟩, by decide, by decide⟩
theorem wit_SchemeSyllables_run : ∃ x, (sl {}).sch.cur = some x ∧ guardHolds x.rf (some g0) = true ∧ (∀ c, Ready c (sl {}) .sl true x.rf []) ∧
    ∀ c, ∀ b : Bool, Ready c (sl {}) .sl true x.rf [.setP 7 b] :=
  ⟨_, rfl, rfl, fun _ => ⟨by decide, ⟨_, rfl, rfl⟩, ⟨by decide, by decide⟩, by decide, by decide⟩,
    fun _ _ => ⟨by decide, ⟨_, rfl, rfl⟩, ⟨by decide, by decide⟩, rfl, (by decide : fetchOk (sl {}) .sl 1 = true)⟩⟩
/-- A timer of preset 10 that started at 0 has elapsed at 10, not at 9; a pulse ends at 10. -/
theorem test_timers : (Spec.onDelay { pre := 10, run := true } 10 true).2 = true ∧ (Spec.onDelay { pre := 10, run := true } 9 true).2 = false ∧
    (Spec.pulse { pre := 10, run := true } 10 false).2 = false ∧ (Spec.offDelay { pre := 10, q := true, run := true } 9 false).2 = true := by
  decide
theorem test_istb : (after (.istb g0 3 31 0) (sl {})).sch.cur.map (fun x => mget x.stg 3 0) = some 0x80000000 := by decide
theorem wit_SchemeCommit : ∃ x, (sl {}).sch.cur = some x ∧ Running (.tkEnd g0) (sl {}) .sl true x.rf ∧ guardHolds x.rf (some g0) = true ∧
    x.task < 16 ∧ (∀ a ∈ x.acts, a < 16) ∧ (∀ y ∈ (sl {}).sch.pre, y.task < 16) ∧
    (∀ e ∈ (sl {}).img.outBits ++ (sl {}).img.outWords, ∀ b, e.2 = .sg b ∨ e.2 = .mode b → b < 24) ∧
    guardHolds {} (some ⟨true, 0⟩) = false ∧ Ready (.tkEnd ⟨true, 0⟩) (sl {}) .sl true {} [] :=
  ⟨_, rfl, ⟨by decide, ⟨_, rfl, rfl⟩, by decide, by decide⟩, rfl, by decide, by decide, by decide, (by intro e h; cases h), rfl, by decide,
    ⟨_, rfl, rfl⟩, ⟨by decide, by decide⟩, by decide, by decide⟩

/-! ### Grid, core commands, Privet -/

/-- FTG 0 runs with channel 0 of core group 0 and one open instant, which channel 0 has written or not; active time is `us` µs. -/
def grid (w : List Nat) (us : Nat) : State :=
  { up [(R.ESP_STAT_FTG_EN, 1), (R.DCH_RSm_CTL_RUN 0, 1)] with
    img := { used := 1 }, tim := { tb := [(0, { val := us * 1000 * nsU }), (2, { val := us * 1000 * nsU })] },
    esp := { ftg := [(0, { started := true, next := 4, insts := [⟨3, 1, 50000000, 32, 0, false, w, []⟩] })] } }

set_option maxRecDepth 20000 in
theorem wit_GridCloses : (oldestOpen (espFtg (grid [0] 0) 0)).map (complete (grid [0] 0) 0) = some true ∧
    (oldestOpen (espFtg (grid [] 0) 0)).map (complete (grid [] 0) 0) = some false ∧ Spec.noRecorder (grid [] 0) ∧
    (grid [] 0).rd (R.ESP_FTGg_FILL_FILL 0) < 2 ^ 32 ∧ oldestOpen (espFtg State.reset 0) = none := by
  unfold Spec.noRecorder; decide
set_option maxRecDepth 20000 in
theorem wit_GridCloses_deadline : ∃ i, oldestOpen (espFtg (grid [] 50000) 0) = some i ∧ i.t + dlnNs (grid [] 50000) 0 * nsU ≤ actU (grid [] 50000) :=
  ⟨_, rfl, by decide⟩
set_option maxRecDepth 20000 in
theorem wit_GridConfiguration : (up [(R.ESP_CTL_LOCK, 1)]).on R.ESP_CTL_LOCK = true ∧ ftgOn State.reset 0 = false ∧
    ftgOn (grid [] 0) 0 = true ∧ (espFtg (grid [] 0) 0).started = true ∧ cfgBreaks ((grid [] 0).wr (R.DCH_CHn_CFG_NHB 0) 3) 0 false 0 8 = true ∧
    cfgBreaks (up [(R.ESP_STAT_FTG_EN, 1)]) 0 false 0 8 = false := by decide
/-- A configuration to N = 256 waits at a cycle's first instant. -/
def regrid : State :=
  { grid [] 50000 with esp := { ftg := [(0, { started := true, next := 96, prev := some 1, cfg := some (true, 1, 8), insts := [⟨95, 1, 50000000, 96, 0, true, [0], []⟩] })] } }
set_option maxRecDepth 20000 in
theorem wit_GridConfiguration_effect : (espFtg regrid 0).cfg = some (true, 1, 8) ∧ 8 < 9 ∧ (espFtg regrid 0).started = true ∧
    (espFtg regrid 0).next % ftgN regrid 0 = 0 ∧ (espFtg regrid 0).prev = some 1 ∧
    nextInstant (Spec.underConfig regrid 0 true 1 8) 0 1 (espFtg regrid 0).cycNo ≤ actU regrid := by decide +kernel
theorem wit_CoreModesAndGroups : 1 ≤ (5 : Fin 8).val ∧ (5 : Fin 8).val ≤ 5 ∧ (0 : Fin 8).val = 0 ∧ 5 < (6 : Fin 8).val ∧
    ((up [(R.ELCn_BAYj_SG_DEF 7 2, 0x80)]).rd (R.ELCn_BAYj_SG_DEF 7 2)).testBit 7 = true ∧
    ((up [(R.ELCn_BAYj_SG_DEF 7 2, 0x80)]).rd (R.ELCn_BAYj_SG_DEF 7 2)).testBit 6 = false ∧
    2 ∈ (({ up [] with ec := [(7, { reinit := [2] })] } : State).core 7).reinit := by decide
theorem wit_CoreModesAndGroups_image : let a := ecElemBase 7 + 0x2800 * 2
    ({ used := 1, blocks := [(a + 0x27FE, [1, 2])] } : Image).blocks = [(a + 0x27FE, [1, 2])] ∧ a + 0x27FE + 2 ≤ a + 0x2800 := by decide
theorem wit_CoreBreachAndReset : class0Busy ((pe {}).core 0) = true ∧ ((pe {}).core 0).held = [] ∧ 3 ∉ (pe {}).prv.inRst ∧
    recentReset (pe {}) 3 = false ∧ 3 ∈ ({ pe {} with prv := { inRst := [3] } } : State).prv.inRst ∧
    (up [(R.ELCn_STAT_STATE 3, 2)]).rd (R.ELCn_STAT_STATE 3) = 2 := by decide

/-- The AON clock at its band's edges 752 and 848, and outside; a receive clock on a port that is up. -/
theorem wit_FaultMonitors : ¬ (4 ≤ (0 : Fin 9).val ∧ (0 : Fin 9).val ≤ 6) ∧ srcMasked (up []) (clockSource 0) = false ∧
    clockBand (up []) 0 = (752, 848) ∧ (up [(R.NET_Pp_STAT_LINK 2, 1)]).on (R.NET_Pp_STAT_LINK (6 - 4)) = true ∧
    (fifoEnds 21).1.all (up []).pg = true ∧ (fifoEnds 21).1.all State.reset.pg = false := by decide
theorem test_clock_edge : (after (.clockMonitorWindow 0 848) (up [])).itemLive 8 0 = false ∧
    (after (.clockMonitorWindow 0 849) (up [])).itemLive 8 0 = true := by decide
theorem wit_FaultOccurrences : let s := up [(R.PRV_SRCs_CFG_ACTION 5, 0), (R.PRV_SRCs_CFG_ACTION 6, 1), (R.PRV_SRCs_CFG_ACTION 9, 4),
      (R.PRV_SRCs_CFG_ACTION 10, 3)]
    [5, 6, 9, 10].all (fun k => !srcMasked s k && !consequential s k 0) = true ∧ s.on R.PRV_STAT_SAFE = false ∧ s.glb.hold = 0 ∧
    actionOf s 5 = 0 ∧ actionOf s 6 = 1 ∧ actionOf s 9 = 4 ∧ actionOf s 10 = 3 ∧ s.on R.PRV_FF_CTL_VALID = false ∧
    (up [(R.PRV_FF_CTL_VALID, 1)]).on R.PRV_FF_CTL_VALID = true := by decide
theorem wit_SafeState : (up []).on R.PRV_STAT_SAFE = false ∧ (up [(R.PRV_STAT_SAFE, 1)]).on R.PRV_STAT_SAFE = true ∧ aliveMode (up []) = 0 ∧
    aliveMode (up [(R.GLB_BOOT_DONE, 1), (R.GLB_PWR_STATE, 2)]) = 1 := by decide
theorem test_bay_clear : (after (.bayBlockClear 0xFFFFF0) (up [(R.PRV_BAYBLK_BLK, 0x81)])).rd R.PRV_BAYBLK_BLK = 1 := by decide

/-! ### Yew -/

/-- An event that waits, before a FIFO of entries like `e`. -/
def yewS (e : YEntry) (n cls : Nat) : State :=
  { up [(R.YEW_NEXT_LO_NEXT, 9), (R.YEW_STAT_SCAN, 0)] with yew := { cross := [⟨cls, 4, 1, none, [], .nobody⟩], fifo := List.replicate n e } }
def ent : YEntry := { cls := 2, src := 3, code := 1, seq := some 8, stamp := {}, payload := [] }

set_option maxRecDepth 20000 in
theorem wit_YewAdmission : (yewS ent 447 0).yew.fifo.length < 448 ∧ 448 ≤ (yewS ent 448 0).yew.fifo.length ∧ reservedEv 0 4 1 = false ∧
    reservedEv 3 4 1 = true ∧ (yewS ent 511 3).yew.fifo.length < 512 ∧ 512 ≤ (yewS ent 512 3).yew.fifo.length ∧
    yewNext (yewS ent 0 0) + 1 < 2 ^ 48 ∧ (yewS ent 0 0).on R.YEW_STAT_OVF_PER = false ∧ (yewS ent 0 0).on R.YEW_STAT_SCAN = false := by
  decide
set_option maxRecDepth 20000 in
theorem wit_YewAdmission_alone : ∀ e ∈ (yewS ent 512 3).yew.fifo.tail, ¬ (e.src = 4 ∧ e.code = 1 ∧ reservedEv e.cls e.src e.code = true) := by
  decide
theorem wit_YewAdmission_merge : let m : YEntry := { ent with cls := 3, src := 4 }
    ({ yewS ent 0 3 with yew := { fifo := [m, ent, m, ent] } } : State).yew.fifo = m :: [ent] ++ m :: [ent] ∧
    (∀ x ∈ [ent], ¬ (x.src = 4 ∧ x.code = 1 ∧ reservedEv x.cls x.src x.code = true)) ∧
    m.src = 4 ∧ m.code = 1 ∧ reservedEv m.cls m.src m.code = true := by decide
theorem wit_YewRecords_written : let s := yewS ent 1 0
    s.yew.fifo = ent :: [] ∧ ent.seq = some 8 ∧ 8 < 2 ^ 48 ∧ yewOldest s < 2 ^ 48 ∧ ¬ (ent.src = 2 ∧ ent.code = 2) ∧
    s.on R.YEW_CFG_HOSTRING = false := by decide

/-- The slot of number 8 holds its record. -/
def ringed : State := { up [(R.YEW_STAT_SCAN, 1), (R.YEW_NEXT_LO_NEXT, 9), (R.YEW_OLDEST_LO_OLDEST, 8), (R.YEW_RD_SEL_LO_SEQLO, 8)] with
  mem := memWrs [] (yewSlot 8) (recBytes ent 8) }
set_option maxRecDepth 20000 in
theorem test_record_read : slotSeq ringed.mem (yewSlot 8) = some 8 ∧ leNat (memRds ringed.mem (yewSlot 8) 4) = 0x12030001 := by decide
set_option maxRecDepth 20000 in
theorem wit_YewRecords_scan : scanSeqs (up []).mem = [] ∧ ringed.on R.YEW_STAT_SCAN = true ∧ ringed.glb.hold = 0 ∧
    ringed.on R.YEW_STAT_OVF_PER = false ∧ 8 + 514 + 513 < 2 ^ 48 ∧ ringed.yew.fifo.length < 512 := by decide
theorem wit_YewRecords_fetch : yewSel ringed = 8 ∧ yewOldest ringed ≤ 8 ∧ 8 < yewNext ringed ∧
    yewNext ringed ≤ yewSel (up [(R.YEW_NEXT_LO_NEXT, 9), (R.YEW_RD_SEL_LO_SEQLO, 9)]) := by decide
/-- A token of the right magic, this device's ID and nonce, whose bound is 8; the variants that fail one check each. -/
def token (w : Nat → Nat) : State :=
  { up ([(R.YEW_CLR_STAT_BUSY, 1), (R.SEC_LC_OWNER, 1), (R.YEW_OLDEST_LO_OLDEST, 8), (R.YEW_NEXT_LO_NEXT, 9)]
      ++ (List.range 24).map fun k => (R.YEW_CLR_BUFw_TOKEN k, w k)) with yew := { nonce := 5 } }
def tokenW (k : Nat) : Nat := if k = 0 then 0x59434C52 else if k = 1 then 5 else if k = 4 then 8 else 0
set_option maxRecDepth 20000 in
theorem wit_YewRecords_clear : let s := token tokenW
    s.on R.YEW_CLR_STAT_BUSY = true ∧ s.on R.SEC_LC_OWNER = true ∧ leNat ((tokenBytes s).take 4) = 0x59434C52 ∧
    leNat (((tokenBytes s).drop 8).take 8) = s.rd64 R.SEC_DEVID_LO_DEVID R.SEC_DEVID_HI_DEVID ∧
    leNat (((tokenBytes s).drop 4).take 4) = s.yew.nonce.toNat ∧ yewOldest s ≤ leNat (((tokenBytes s).drop 16).take 6) ∧
    (up []).on R.SEC_LC_OWNER = false := by decide
set_option maxRecDepth 20000 in
theorem wit_YewRecords_refused : let bad (i v : Nat) := token fun k => if k = i then v else tokenW k
    leNat ((tokenBytes (bad 0 1)).take 4) ≠ 0x59434C52 ∧
    leNat (((tokenBytes (bad 2 1)).drop 8).take 8) ≠ (bad 2 1).rd64 R.SEC_DEVID_LO_DEVID R.SEC_DEVID_HI_DEVID ∧
    leNat (((tokenBytes (bad 1 6)).drop 4).take 4) ≠ (bad 1 6).yew.nonce.toNat ∧
    leNat (((tokenBytes (bad 4 7)).drop 16).take 6) < yewOldest (bad 4 7) := by decide
theorem wit_YewRecords_zero : ({ up [] with yew := { zero := some (1, 9) } } : State).yew.zero = some (1, 9) := by decide

/-! ### Host interface and DRAM -/

/-- Ring 3's latest message left at 0, its holdoff is 10 µs, it has advanced since; TB2 at `ns`. -/
def held (ns : Nat) : State :=
  { up [(R.HST_Rr_IRQ_HOLD 3, 10)] with hst := { hold := [(3, 0)], holdPend := [3] }, tim := { tb := [(2, { val := ns * nsU })] } }
theorem wit_HostLinkAndRings : true ≠ (up []).on R.HST_STAT_LINK ∧ false = (up []).on R.HST_STAT_LINK ∧ (3 : Fin 4).val ≠ 1 ∧
    (ringProd (up []) 3 + 2 ^ 32 - (0xFFFFFFFF : BitVec 32).toNat) % 2 ^ 32 ≤ ringE (up []) 3 ∧
    ringE (up []) 3 < (ringProd (up []) 3 + 2 ^ 32 - (1 : BitVec 32).toNat) % 2 ^ 32 ∧
    ((1 : BitVec 32).toNat + 2 ^ 32 - ringCons (up []) 1) % 2 ^ 32 ≤ ringE (up []) 1 ∧
    ringE (up []) 1 < ((0xFFFFFFFF : BitVec 32).toNat + 2 ^ 32 - ringCons (up []) 1) % 2 ^ 32 ∧
    inHold (held 9999) 3 = true ∧ inHold (held 10000) 3 = false ∧ 3 ∈ (held 0).hst.holdPend ∧ 2 ∉ (held 0).hst.holdPend ∧
    (held 0).rd (R.HST_Rr_IRQ_HOLD 3) ≠ 0 ∧ (up []).pg 11 = true ∧ (up []).on R.MEM_STAT_TRAINED = false ∧
    (up []).on R.MEM_STAT_FAIL = false := by decide
/-- 512 MiB of DRAM, 448 of them usable, with the host-ring area at 16 MiB, 4 MiB long. -/
def dram (bad : List Nat) : State :=
  { up [(R.MEM_STAT_TRAINED, 1), (R.MEM_SIZE_USABLE, 448), (R.HST_AREA_BASE, 16), (R.HST_AREA_SIZE, 4)] with hst := { badWords := bad } }
theorem wit_DramAccess : (dram []).on R.MEM_STAT_TRAINED = true ∧ insideArea (dram []) 0x13FFFFF [some 7, none] = true ∧
    insideArea (dram []) 0x13FFFFF [some 7, some 7] = false ∧ 0x1400000 < usableBytes (dram []) ∧
    areaBase (dram []) + areaSize (dram []) ≤ 0x1400000 ∧ 0x1000007 / 8 ∈ (dram [0x200000]).hst.badWords ∧
    (up []).on R.MEM_STAT_TRAINED = false := by decide
theorem wit_DramAccess_clean : ∀ w, 0x1000007 < 8 * w + 8 → 8 * w < 0x1000007 + 1 → w ∉ (dram []).hst.badWords ∧ w ∉ (dram []).hst.softWords :=
  fun _ _ _ => ⟨by simp [dram, up, st], by simp [dram, up, st]⟩
set_option maxRecDepth 20000 in
theorem wit_MaintenanceSpi : busUp (dram []) = true ∧ (0x1000000 : BitVec 32).toNat % 4 = 0 ∧ (2 : BitVec 32).toNat % 4 ≠ 0 ∧
    Spec.transaction 0x1000000 0 [7] (crc8 [3, 0, 1, 0, 0, 0, 7, 0, 0, 0]) (.mspiWriteDram 0x1000000 [7] (crc8 [3, 0, 1, 0, 0, 0, 7, 0, 0, 0]) 1)
      [3, 0, 1, 0, 0, 0, 7, 0, 0, 0] true ∧ iniWrites (dram []) .mspi = true :=
  ⟨by decide, by decide, by decide, Or.inr (Or.inr (Or.inl ⟨1, rfl, by decide, by decide, by decide, rfl⟩)), by decide⟩
set_option maxRecDepth 20000 in
theorem wit_MaintenanceSpi_crc : crc8 [5, 63, 0, 0, 0, 1] ≠ 0 ∧
    Spec.transaction 1 63 [] (crc8 [5, 63, 0, 0, 0, 1]) (.mspiStatus ⟨5, 1⟩ 63 (crc8 [5, 63, 0, 0, 0, 1]) true) [5, 63, 0, 0, 0, 1] false :=
  ⟨by decide, Or.inr (Or.inr (Or.inr (Or.inr ⟨_, true, rfl, rfl, rfl, by decide, rfl⟩)))⟩

/-! ### Resets, start-up, power -/

/-- A boot that verifies (step 3) or loads (step 6) slot A, MRAM with an image header of `w` words. -/
def boot (step : Nat) (w : List Nat) (l : List (Fld × Nat)) : State :=
  { up l with glb := { hold := 0, step := step }, mem := memWrs [] (slotBase 0) (w.flatMap (leBytes 4)) }
def goodHdr : List Nat := [0x484D5249, 0x01000001, 256, 0, 0, 0, 0, 0, 0, 0, 0, 0, 0, 0, 0, 1]

theorem wit_ResetsHeld : (up []).glb.hold ≠ 1 ∧ (up []).glb.hib = false ∧ (up []).glb.wdt = none ∧
    ({ hold := 0, wdt := some 0 } : Glb).wdt.isSome = true ∧ (up [(R.GLB_WDT_TO, 1)]).rd R.GLB_WDT_TO ≠ 0 ∧ ({ hold := 0, hib := true } : Glb).hib = true := by decide
set_option maxRecDepth 20000 in
theorem test_sysreq_cause : (after .sysreq (up [])).rd R.GLB_RSTCAUSE_CAUSE = 2 := by decide
/-- HIBERNATE with a wake time of 5 ns, the coarse clock at 5 ns, and one short of it. -/
def asleep (c : Nat) : State :=
  { st [(R.GLB_PWRSTAT_PG, 1), (R.GLB_WAKE_LO_WAKE, 5), (R.GLB_WAKE_HI_EN, 1)] with glb := { hold := 0, hib := true }, tim := { coarse := c * nsU } }
theorem wit_StartUp : State.reset.glb.hold ≠ 0 ∧ (up []).glb.hold = 0 ∧ (asleep 5).glb.hib = true ∧ (asleep 5).on R.GLB_WAKE_HI_EN = true ∧
    (asleep 5).rd R.GLB_WAKE_LO_WAKE + (asleep 5).rd R.GLB_WAKE_HI_WAKEHI * 2 ^ 32 ≤ (asleep 5).coarseNs ∧
    [1, 2, 3, 4, 5, 6, 8, 9, 10].all (fun d => !(asleep 5).pg d) = true ∧ (asleep 4).coarseNs < 5 := by decide
theorem wit_StartUp_domain : let s := { st [(R.GLB_PWRSTAT_PG, 0x101)] with glb := { hold := 0, step := 6 } }
    s.pg 9 = false ∧ powering s 9 = true ∧ s.pg 8 = true ∧ s.pg 10 = false ∧ powering s 10 = true ∧ s.pg 1 = false := by decide
set_option maxRecDepth 20000 in
theorem wit_StartUp_verdict : let s := boot 3 goodHdr [(R.SEC_LC_OWNER, 1)]
    s.glb.step = 3 ∧ s.pg 7 = true ∧ s.glb.trying < 2 ∧ imageVerdict s 0 true = 0 ∧ imageVerdict s 0 false = 2 ∧
    imageVerdict (boot 3 [] [(R.SEC_LC_OWNER, 1)]) 0 true = 1 := by decide
theorem wit_LoadAndPowerStates : let s := boot 6 [] []
    s.glb.hold = 0 ∧ s.glb.step = 6 ∧ s.glb.trying < 2 ∧ (neededPds s false).all s.pg = true ∧ s.glb.second = false := by decide
set_option maxRecDepth 20000 in
theorem wit_LoadAndPowerStates_load : let s := boot 6 [] []
    hdr s 0 0x18 32 = 0 ∧ loadAll s 0 (sections s 0) {} = .ok {} := ⟨by decide, rfl⟩
theorem wit_LoadAndPowerStates_requests : let s := up [(R.GLB_BOOT_DONE, 1), (R.GLB_PWR_STATE, 1)]
    s.rd R.GLB_PWR_STATE = 1 ∧ s.on R.PRV_STAT_SAFE = false ∧ s.on R.GLB_BOOT_MAINT = false ∧ s.on R.GLB_BOOT_DONE = true ∧
    s.rd R.SCH_EXCH_STAT_STATE = 0 ∧ s.glb.trans = 0 ∧ (up []).on R.GLB_BOOT_DONE = false ∧ (neededPds s true).all s.pg = true := by decide
theorem wit_LoadAndPowerStates_done : [1, 2, 3].map (fun k => ({ hold := 0, trans := k } : Glb).trans) = [1, 2, 3] := by decide
theorem wit_ClocksAdvance : State.reset.pending = [] ∧ State.reset.glb.hold = 1 ∧ (up []).glb.hold ≠ 1 ∧ (up []).pg 8 = true ∧ (up []).pg 1 = true ∧
    ((up []).tbOf 3).path = 0 ∧ (up []).tim.resid = 0 ∧ (st []).pg 8 = false := by decide

/-! ### Analogue front end -/

set_option maxRecDepth 20000 in
theorem wit_AnalogueFrontEnd : (up [(R.AFE_STAT_REF_RDY, 1)]).on R.AFE_STAT_REF_RDY = true ∧ (up []).on R.AFE_STAT_REF_RDY = false ∧
    ((up [(R.AFE_GRP_LIVE_REF_FAIL, 0x1000)]).rd R.AFE_GRP_LIVE_REF_FAIL).testBit 12 = true ∧ (up []).pg 10 = true ∧
    lpmFail ((up []).wrb R.AFE_CTL_LPM true) true = none := by decide
/-- Input 0 enabled, its resampler running at a rate that T_m = 400 ns does not reach with 3 half-band stages. -/
def slow : State := { up [(R.AFE_CHn_CFG_EN 0, 1), (R.DCH_RSm_CTL_RUN 0, 1), (R.DCH_CHn_CFG_NHB 0, 3)] with img := { used := 1 } }
set_option maxRecDepth 40000 in
theorem wit_AnalogueFrontEnd_lpm : lpmFail (slow.wrb R.AFE_CTL_LPM true) true = some 0 ∧
    ({ lpmReq := some (true, 5) } : Afe).lpmReq = some (true, 5) ∧ (up []).on R.AFE_CTL_LOCK = false ∧ true ≠ (up []).on R.AFE_CTL_REFSEL := by decide +kernel
theorem wit_AnalogueFrontEnd_overload : modEnabled (up []) 51 = true ∧ modEnabled (up [(R.AFE_CHn_CFG_EN 47, 1)]) 47 = true ∧
    modEnabled (up []) 47 = false ∧ mget (up []).afe.rst 47 [] = [] ∧ (up []).afe.ovl = [] ∧
    (47, 0) ∈ ({ ovl := [(47, 0)] } : Afe).ovl ∧ (({ ovl := [(47, 0)] } : Afe).ovl.find? fun e => e.1 == 47) = some (47, 0) := by decide
/-- Modulator 51 in a loop reset that ends at 1,600 ns, TB2 at `ns`; its interval ended at 0. -/
def looped (ns : Nat) : State :=
  { up [] with afe := { ovl := [(51, 0)], rst := [(51, [(1600 * nsU, true)])], ntail := [(51, 0, 0)] }, tim := { tb := [(2, { val := ns * nsU })] } }
theorem wit_AnalogueFrontEnd_loop : inLoopReset (looped 1599) 51 = true ∧ inLoopReset (looped 1600) 51 = false ∧
    (looped 1600).afe.ovl.find? (fun e => e.1 == 51) = some (51, 0) ∧
    (looped 20000).afe.ntail.find? (fun e => e.1 == 51 && decide (e.2.2 + 20000 * 2 ^ 32 ≤ tb2U (looped 20000))) = some (51, 0, 0) ∧
    (looped 19999).afe.ntail.find? (fun e => e.1 == 51 && decide (e.2.2 + 20000 * 2 ^ 32 ≤ tb2U (looped 19999))) = none := by decide
/-- Group 12 left its window at 0, PD10 reported power-good at 0, a mode change was accepted at 0; TB2 at `ns`. -/
def settling (ns : Nat) : State :=
  { up [(R.AFE_GRP_LIVE_REF_FAIL, 0x1000)] with afe := { refBad := [(12, 0)], lpmReq := some (true, 0) }, tim := { tb := [(2, { val := ns * nsU })] } }
theorem wit_AnalogueFrontEnd_times : (settling 0).afe.refBad = [(12, 0)] ∧ tb2U (settling 1999999) < 0 + 2000000 * 2 ^ 32 ∧
    0 + 2000000 * 2 ^ 32 ≤ tb2U (settling 2000000) ∧ (settling 0).afe.pgAt + 2000000 * 2 ^ 32 ≤ tb2U (settling 2000000) ∧
    tb2U (settling 999) < 0 + 1000 * 2 ^ 32 ∧ 0 + 1000 * 2 ^ 32 ≤ tb2U (settling 1000) ∧ (settling 0).on R.AFE_STAT_LPM_ACT = false := by decide
theorem wit_AnalogueFrontEnd_gain : (up []).rd (R.AFE_CHn_CFG_GAIN 47) ≠ 2 ∧ (up [(R.AFE_CHn_CFG_GAIN 47, 2)]).rd (R.AFE_CHn_CFG_GAIN 47) = 2 ∧
    (up []).on (R.AFE_CHn_CFG_EN 47) = false ∧ (up [(R.AFE_CHn_CFG_EN 47, 1)]).on (R.AFE_CHn_CFG_EN 47) = true := by decide
/-- A window of 32,768 results is full at 32,768 and not at 32,767. -/
theorem wit_AnalogueFrontEnd_window : let s (c : Nat) : State := { up [] with afe := { acc := [(47, { cnt := c, len := some 32768 })] } }
    (windowAt (s 32768) 47).all (fun l => decide (l ≤ (mget (s 32768).afe.acc 47 {}).cnt)) = true ∧
    (windowAt (s 32767) 47).all (fun l => decide (l ≤ (mget (s 32767).afe.acc 47 {}).cnt)) = false := by decide
/-- Checker 3 at position 11 of a dwell of 5 ms, 781 pairs, at TB2 0: void, at its limit (1 unit times m samples), and just over it. -/
def dwell (sd m : Nat) : State :=
  { up [(R.AFE_CKk_CTL_EN 3, 1), (R.AFE_CKk_CTL_TOL_ABS 3, 1), (R.AFE_CKk_CTL_TOL_REL 3, 0), (R.AFE_CKk_CTL_DWELL 3, 5)] with
    afe := { ck := [(3, { phase := 2, pos := 11, sd := sd, m := m })] } }
theorem wit_AnalogueFrontEnd_dwell : (dwell 0 0).on (R.AFE_CKk_CTL_EN 3) = true ∧ (dwell 0 0).on (R.AFE_CKk_STAT_FAILED 3) = false ∧
    (mget (dwell 0 0).afe.ck 3 {}).phase = 2 ∧ (mget (dwell 0 0).afe.ck 3 {}).pos < 12 ∧ (mget (dwell 0 0).afe.ck 3 {}).void = false ∧
    dwellPairs (dwell 0 0) 3 = 781 ∧ dwellMs (dwell 0 0) 3 = 5 ∧ 0 < 0 + dwellMs (dwell 0 0) 3 * 1000000 * 2 ^ 32 ∧
    ¬ (max 1 ((dwell 655150 781).rd (R.AFE_CKk_CTL_TOL_ABS 3)) * 8388607 * 781 + (dwell 655150 781).rd (R.AFE_CKk_CTL_TOL_REL 3) * 0 < 655150 * 10000) ∧
    max 1 ((dwell 655151 781).rd (R.AFE_CKk_CTL_TOL_ABS 3)) * 8388607 * 781 + (dwell 655151 781).rd (R.AFE_CKk_CTL_TOL_REL 3) * 0 < 655151 * 10000 ∧
    ({ phase := 1 } : Ck).phase = 1 := by decide
set_option maxRecDepth 20000 in
/-- Checker 3, which may sweep, idle, with input 47 its only eligible one; settling over at its settle time and not before. -/
theorem wit_AnalogueFrontEnd_sweep : let s := up [(R.AFE_CKk_CTL_EN 3, 1), (R.AFE_CHn_CFG_EN 47, 1)]
    ckRuns s 3 = true ∧ (mget s.afe.ck 3 {}).phase = 0 ∧ s.on (R.AFE_CHn_CFG_EN (12 * 3 + 11)) = true ∧
    s.on (R.AFE_CHn_CFG_CKEXCL (12 * 3 + 11)) = false ∧ ((List.range 11).all fun i => !s.on (R.AFE_CHn_CFG_EN (12 * 3 + i))) = true ∧
    0 < ckSettleNs s 3 ∧ ckRuns (up [(R.AFE_CKk_CTL_EN 3, 0)]) 3 = false := by decide
set_option maxRecDepth 20000 in
theorem test_dwell_fails : (after (.checkerDwellEnd 3) (dwell 655151 781)).rd (R.AFE_CKk_STAT_SUSPECT 3) = 0x800 ∧
    (after (.checkerDwellEnd 3) (dwell 655150 781)).rd (R.AFE_CKk_LASTD_RESULT 3) = 0 ∧
    after (.checkerDwellEnd 3) (dwell 0 780) = dwell 0 780 := by decide +kernel

/-! ### Chains and resamplers -/

theorem wit_ChainsAndBanks_tap : let s := { up [(R.DCH_CHn_CTL_RUN 47, 1), (R.AFE_CHn_CFG_EN 47, 1)] with
      dch := { chain := [(47, { cic := { cnt := 31 }, hb := [(1, { odd := true })] })] }, tim := { tb := [(2, { val := 6401 * nsU })] } }
    s.pg 1 = true ∧ tapBits (chainOf s 47) = 1 ∧ tapBits (chainOf s 46) = 50 ∧ mget s.afe.rst 47 [] = [] ∧ s.on (hbPend 47 1) = false ∧
    mget s.afe.enAt 47 0 + 64 * tmNs (s.on R.AFE_STAT_LPM_ACT) * 2 ^ 32 < tb2U s ∧ s.on (R.DCH_CHn_CTL_RUN 46) = false ∧ State.reset.pg 1 = false ∧
    s.on (R.DCH_CHn_CTL_RUN 47) = true ∧ s.on (R.AFE_CHn_CFG_EN 47) = true ∧ (mget s.afe.ck (47 / 12) {}).phase = 0 ∧
    (chainOf s 47).cic.cnt = 31 ∧ (chainOf s 47).srstAt = none ∧ (hbOf (chainOf s 47) 1).odd = true ∧ (hbOf (chainOf s 47) 1).fade = none ∧ (chainOf s 46).cic.cnt < 32 := by decide
/-- Window words: chain 47, stage 5, K = 11; stage 0; chain 48; a resampler. -/
theorem wit_ChainsAndBanks_window : let w := 5 * 2 ^ 28 + 47 * 2 ^ 20 + 11 * 2 ^ 16
    w / 2 ^ 31 = 0 ∧ 1 ≤ w / 2 ^ 28 % 8 ∧ w / 2 ^ 28 % 8 ≤ 5 ∧ 1 ≤ w / 2 ^ 16 % 16 ∧ w / 2 ^ 16 % 16 ≤ 11 ∧ w / 2 ^ 20 % 256 ≤ 47 ∧
    (48 * 2 ^ 20 + 2 ^ 28) / 2 ^ 20 % 256 = 48 ∧ (2 ^ 31 + 191 * 2 ^ 20) / 2 ^ 31 = 1 := by decide
theorem wit_ChainsAndBanks_commit : (up [(R.DCH_LD_STAT_OPENED, 1)]).on R.DCH_LD_STAT_OPENED = true ∧ (up []).on R.DCH_LD_STAT_OPENED = false ∧
    (up [(R.DCH_CTL_LOCK, 1)]).on R.DCH_CTL_LOCK = true ∧ (up [(R.DCH_LD_STAT_BUSY, 1)]).on R.DCH_LD_STAT_BUSY = true ∧ (up []).dch.res < 8 := by decide
/-- Stage 1 of chain 47 with both banks loaded; no stage above NHB + 1 = 1. -/
def banked (l : List (Fld × Nat)) (f : Option Fade) : State :=
  { up (l ++ [(R.DCH_CHn_BSTAT_LOADED 47, 3), (R.DCH_CHn_CFG_NHB 47, 0)]) with dch := { chain := [(47, { hb := [(1, { fade := f })] })] } }
theorem wit_ChainsAndBanks_bank : nhbOf (banked [] none) 47 + 1 < 5 ∧ hbLoaded (banked [] none) 47 1 1 = true ∧ ¬ (nhbOf (banked [] none) 47 + 1 < 1) ∧
    (banked [] none).on (R.DCH_CHn_CTL_RUN 47) = false ∧ (banked [(R.DCH_CHn_CTL_RUN 47, 1)] none).on (R.DCH_CHn_CTL_RUN 47) = true ∧
    (banked [(hbPend 47 1, 1)] none).on (hbPend 47 1) = true ∧ (banked [] none).rd (hbAct 47 1) ≠ 1 ∧
    (hbOf (chainOf (banked [] (some { bank := 1 })) 47) 1).fade = some { bank := 1 } ∧
    ({ bank := 1, j := 4, len := 4, busy := true } : Fade).len ≤ 4 := by decide
set_option maxRecDepth 20000 in
theorem wit_ChainsAndBanks_run : rsOfInput (up []) 47 = none ∧
    (up []).on (R.DCH_CHn_CTL_RUN 47) = false ∧ stagesLoaded (banked [] none) 47 (nhbOf (banked [] none) 47) = true ∧
    stagesLoaded (banked [] none) 47 4 = false ∧ ({ nhb := some 2 } : Chain).nhb = some 2 := by decide
set_option maxRecDepth 40000 in
theorem wit_ChainsAndBanks_feed : let s := up [(R.DCH_RSm_CFG_SRC 5, 47), (R.DCH_RSm_CTL_RUN 5, 1), (R.DCH_CHn_BSTAT_LOADED 47, 3), (R.DCH_CHn_CFG_NHB 47, 0), (R.DCH_RSm_STAT_LOADED_A 5, 1)]
    rsOfInput s 47 = some 5 ∧ feedOk s 47 (nhbOf s 47) 5 = true ∧ rsActLoaded s 5 = true := by decide

/-- Channel 0's sample of tick 3 is due, not yet, or its instant has closed. -/
def due (us : Nat) (done : Bool) : State :=
  { grid [] us with esp := { ftg := [(0, { started := true, next := 4, insts := [⟨3, 1, 50000000, 96, 0, done, [], [1]⟩] })] } }
set_option maxRecDepth 20000 in
theorem wit_ResamplersAtWork : rsRun (due 50000 false) 0 = true ∧ isLocal (due 50000 false) 0 = true ∧ usedGroup (due 50000 false) (0 / 24) = true ∧
    (instFor (espFtg (due 50000 false) (ftgOfCh (due 50000 false) 0)) 0 3).map (·.t) = some 1 ∧
    1 + relDelay (readyRs (due 50000 false) 0) ((due 50000 false).rd (R.DCH_RSm_CFG_SRC 0)) 0 * 2 ^ 32 ≤ actU (due 50000 false) ∧
    (instFor (espFtg (due 50000 false) (ftgOfCh (due 50000 false) 0)) 0 3).map (·.absent) = some [1] ∧ actU (due 0 true) < 1 + relDelay (readyRs (due 0 true) 0) 0 0 * 2 ^ 32 ∧
    (instFor (espFtg (due 50000 true) (ftgOfCh (due 50000 true) 0)) 0 3).map (·.done) = some true := by decide
/-- A sample of subscription 63 that channel 191 takes; none takes subscription 0's. -/
def sv (h : List RsIn) : State :=
  { up [(R.DCH_RSm_CFG_SRCSEL 191, 1), (R.DCH_RSm_CTL_RUN 191, 1), (R.SVI_MAPm_EN 191, 1), (R.SVI_MAPm_SUB 191, 63), (R.SVI_SUBs_CFG_EN 63, 1),
      (R.SVI_SUBs_CFG_NQTY 63, 24)] with svi := { fifo := [{ sub := 63, idx := 4098, t := 0, vals := [] }] }, dch := { rs := [(191, { hist := h })] } }
set_option maxRecDepth 20000 in
theorem wit_ResamplersAtWork_sv : (sv []).svi.fifo = { sub := 63, idx := 4098, t := 0, vals := [] } :: [] ∧ svChans (sv []) 63 = [191] ∧
    svChans (sv []) 0 = [] ∧ (espFtg (sv []) (ftgOfCh (sv []) 191)).insts = [] ∧ (rsOf (sv []) 191).hist = [] ∧
    (rsOf (sv [⟨4097, 0, 0, 0, 0⟩]) 191).hist = ⟨4097, 0, 0, 0, 0⟩ :: [] ∧ 4098 = 4097 + 1 ∧ 4098 = 4096 + 2 := by decide
theorem wit_ResamplersAtWork_restart : ({ sub := 63, idx := 7, t := 0, vals := [], restart := true } : SvIn).restart = true ∧ svFed (sv []) 63 = [191] ∧
    svFed (sv []) 0 = [] ∧ (rsOf (sv []) 191).cut = 0 ∧ ({ srstAt := some 0 } : Rs).srstAt = some (tb2U (sv [])) ∧ (rsOf (sv []) 191).srstAt = none ∧
    ({ srstAt := some 0 } : Chain).srstAt = some (tb2U (up [])) := by decide
theorem wit_ResamplersAtWork_run : rsRun (up []) 191 = false ∧ rsActLoaded (up []) 191 = false ∧ rsActLoaded (up [(R.DCH_RSm_STAT_LOADED_A 191, 1)]) 191 = true ∧
    isLocal (sv []) 191 = false ∧ rsRun (sv []) 191 = true := by decide
theorem wit_ResamplersAtWork_source : (up [(R.DCH_CTL_LOCK, 1)]).on R.DCH_CTL_LOCK = true ∧ (up []).on R.DCH_CTL_LOCK = false ∧
    (up []).rd (R.DCH_RSm_CFG_SRC 191) ≠ 47 ∧ (∃ x < 192, x ≠ 191 ∧ (up []).on (R.DCH_RSm_CFG_SRCSEL x) = false ∧ (up []).rd (R.DCH_RSm_CFG_SRC x) = 0) :=
  ⟨by decide, by decide, by decide, 0, by decide, by decide, by decide, by decide⟩

/-! ### Sampled values -/

/-- Subscription 63, VALID, after sample 4,096 with smpCnt 3,999 of second 7 (80 samples per 50 Hz cycle), and a frame with smpCnt 0. -/
def subS (l : List (Fld × Nat)) (miss : Nat) (ns : Nat) : State :=
  { up ([(R.SVI_SUBs_CFG_EN 63, 1), (R.SVI_SUBs_CFG_NASDU 63, 1), (R.SVI_SUBs_CFG_NQTY 63, 1), (R.SVI_SUBs_ID_APPID 63, 0x4000), (R.SVI_SUBs_CFG_RATE 63, 0), (R.SVI_SUBs_STAT_STATE 63, 2)] ++ l) with
    tim := { tb := [(0, { val := ns * nsU }), (2, { val := ns * nsU })] },
    svi := { sub := [(63, { last := some (4096, 3999, 7999750000, 7), seen := [], due := 4097, timed := some true, miss := miss })] } }
def svF (wf : Bool) (rev : Nat) : SvFrame := ⟨0, 1, 0, 0x4000, wf, false, none, [⟨[], [], 0, rev, 2, [(5, 0)]⟩], 0⟩
set_option maxRecDepth 20000 in
theorem wit_SampledValueIngest_frame : let s := subS [] 0 8000300000
    State.reset.pg 8 = false ∧ s.pg 8 = true ∧ svCands s (svF false 0) = [63] ∧ (svF false 0).wellFormed = false ∧ svCands s (svF true 0) = [63] ∧
    svNameOk s 63 (svF true 0) = true ∧ s.on (R.SVI_SUBs_CFG_AUTH 63) = false ∧ 2 ≠ svRev s 63 ∧ s.rd (R.SVI_SUBs_STAT_STATE 63) ≠ 5 := by decide
set_option maxRecDepth 20000 in
theorem wit_SampledValueIngest_accept : let s := subS [] 0 0
    1 = s.rd (R.SVI_SUBs_CONFREV_CONFREV 63) ∧ s.rd (R.SVI_SUBs_CFG_NASDU 63) = 1 ∧ [(5, 0)].length = s.rd (R.SVI_SUBs_CFG_NQTY 63) ∧ 0 < svSubRate s 63 ∧
    s.rd (R.SVI_SUBs_STAT_STATE 63) = 2 ∧ (subOf s 63).timed = some true ∧ (subOf s 63).restart = false ∧
    (subOf s 63).last = some (4096, 3999, 7999750000, 7) ∧ cntAhead 3999 0 (svSubRate s 63) = 1 ∧ (subOf s 63).due ≤ 4096 + 1 ∧
    (subOf s 63).seen.contains (4096 + 1) = false ∧ s.pg 1 = true ∧ s.activeNs = 0 := by decide +kernel
set_option maxRecDepth 40000 in
theorem wit_SampledValueIngest_deadline : ((subS [] 2 9000000000).rd (R.SVI_SUBs_STAT_STATE 63)) = 2 ∧ (subOf (subS [] 2 0) 63).seen = [] ∧
    (sampleDeadline (subS [] 2 9000000000) 63 4097).any (fun d => decide (d ≤ (subS [] 2 9000000000).activeNs)) = true ∧
    (sampleDeadline (subS [] 2 0) 63 4097).any (fun d => decide ((subS [] 2 0).activeNs < d)) = true ∧ svChans (subS [] 2 0) 63 = [] ∧
    (subOf (subS [] 2 0) 63).miss = 2 ∧ (subOf (subS [] 1 0) 63).miss ≠ 2 ∧ (up []).rd (R.SVI_SUBs_STAT_STATE 63) = 0 ∧ (subOf (subS [] 2 0) 63).back ≤ 4097 ∧
    (subS [(R.SVI_SUBs_STAT_STATE 63, 3)] 3 9000000000).rd (R.SVI_SUBs_STAT_STATE 63) = 3 ∧
    (sampleDeadline (subS [(R.SVI_SUBs_STAT_STATE 63, 3)] 3 9000000000) 63 4097).any (fun d => decide (d ≤ 9000000000)) = true := by decide +kernel
theorem wit_SampledValueIngest_config : (up [(R.SVI_CTL_LOCK, 1)]).on R.SVI_CTL_LOCK = true ∧ (up []).on R.SVI_CTL_LOCK = false ∧
    (up []).on (R.SVI_SUBs_CFG_EN 63) = false ∧ (0x88000000 : BitVec 32).toNat / 2 ^ 25 % 8 < 5 ∧ (0x80000000 : BitVec 32).getLsbD 31 = true ∧
    (23 : Fin 32).val < 24 ∧ 24 ≤ (24 : Fin 32).val ∧ (sv []).on (R.DCH_RSm_CFG_SRCSEL 191) = true ∧ (sv []).rd (R.SVI_MAPm_SUB 191) ≠ 0 := by decide
/-- Entry 4,095 of the directory, last heard at 0, and its age limit of 1 s. -/
def dirS (e : DirEnt) (ns : Nat) (b : Nat) : State :=
  { up [(R.SVI_STAT_SNAP_BUSY, b), (R.SVI_DIR_CFG_AGE, 1), (R.SVI_DIR_CFG_SNAP, 1)] with tim := { tb := [(2, { val := ns * nsU })] }, svi := { dir := [(4095, e)], snap := some (1, [(4095, e)]) } }
theorem wit_SampledValueIngest_directory : (dirS {} 0 0).svi.dir.find? (fun p => p.1 == 4095) = some (4095, {}) ∧
    (dirS {} 0 0).svi.dir.find? (fun p => p.1 == 4094) = none ∧ (dirS {} 1000000000 0).tb2Ns ≤ 0 + max 1 ((dirS {} 0 0).rd R.SVI_DIR_CFG_AGE) * 1000000000 ∧
    0 + max 1 ((dirS {} 0 0).rd R.SVI_DIR_CFG_AGE) * 1000000000 < (dirS {} 1000000001 0).tb2Ns ∧ (dirS {} 0 0).rd R.SVI_DIR_CFG_SNAP ≠ 0 ∧
    (dirS {} 0 1).on R.SVI_STAT_SNAP_BUSY = true ∧ (dirS {} 0 0).on R.SVI_STAT_SNAP_BUSY = false ∧ (dirS {} 0 0).svi.snap = some (1, [(4095, {})]) ∧
    (∀ e ∈ [(4095, ({} : DirEnt))], e.1 < 4096) ∧ (dirS {} 0 0).svi.dir.length ≤ 4096 := by decide

/-! ### Pins, pulses, captures -/

theorem wit_PinsAndCaptures_trip : ({ drv := 2 ^ 47 } : Thn).drv.testBit 47 = true ∧ State.reset.pg 1 = false ∧ (up []).pg 1 = true ∧
    ((up []).rd (rbFld 47).1).testBit (rbFld 47).2 = false ∧ ((up [(R.THN_RB_HI_MISM, 0x8000)]).rd (rbFld 47).1).testBit (rbFld 47).2 = true ∧
    (up []).itemLive 19 47 = false := by decide
/-- Input 63 with an edge at 0 and debounce 0, having changed `n` times this second, chatter limit 2; frozen or not. -/
def binS (n : Nat) (fr : Bool) (ns : Nat) : State :=
  { up [(R.THN_BINi_CFG_CHEN 63, 1), (R.THN_BINi_CFG_CHATN 63, 2), (R.THN_BINi_CFG_DEB 63, 0)] with
    tim := { tb := [(2, { val := ns * nsU })] }, thn := { bin := [(63, { sync := true, changes := n, frozen := fr })] } }
theorem wit_PinsAndCaptures_bin : (binOf (binS 1 false 0) 63).sync ≠ (binOf (binS 1 false 0) 63).deb ∧ (binOf (binS 1 false 0) 63).frozen = false ∧
    (binOf (binS 1 false 0) 63).edgeAt + min 100 ((binS 1 false 0).rd (R.THN_BINi_CFG_DEB 63)) * 100000 ≤ (binS 1 false 0).tb2Ns ∧
    (binS 1 false 0).thn.fifo.length < 256 ∧ (binS 1 false 0).on (R.THN_BINi_CFG_CHEN 63) = true ∧
    max 2 ((binS 2 false 0).rd (R.THN_BINi_CFG_CHATN 63)) < 2 + 1 ∧ ¬ (max 2 ((binS 1 false 0).rd (R.THN_BINi_CFG_CHATN 63)) < 1 + 1) ∧
    (binOf (binS 0 true 0) 63).frozen = true ∧ 0 + 1000000000 < (binS 0 true 2000000000).tb2Ns / 1000000000 * 1000000000 ∧
    (binS 0 true 1999999999).tb2Ns / 1000000000 * 1000000000 ≤ 0 + 1000000000 := by decide
theorem test_chatter : (binOf (after (.binDebounceAccept 63) (binS 2 false 0)) 63).frozen = true ∧
    (binOf (after (.binDebounceAccept 63) (binS 1 false 0)) 63).frozen = false := by decide
theorem wit_PinsAndCaptures_pop : ({ fifo := [⟨true, false, 1, 2, 3⟩] } : Thn).fifo = ⟨true, false, 1, 2, 3⟩ :: [] := by decide
/-- A pulse output on TB0, at `now` ns, to start at 2,000 ns; periodic or not. -/
def tpoS (now : Nat) (x : Tpo) (p : Nat) : State :=
  { up [(R.TIM_TPOk_START_LO_START 7, 2000), (R.TIM_TPOk_CFG_PERIODIC 7, p), (R.TIM_TPOk_CFG_BASE 0, 7)] with tim := { tb := [(0, { val := now * nsU })], tpo := [(7, x)] } }
theorem wit_PinsAndCaptures_tpo : baseNs (tpoS 999 {} 0) ((tpoS 999 {} 0).rd (R.TIM_TPOk_CFG_BASE 7)) = some 999 ∧
    999 + 1000 < (tpoS 999 {} 0).rd64 (R.TIM_TPOk_START_LO_START 7) (R.TIM_TPOk_START_HI_START 7) ∧
    (tpoS 1000 {} 0).rd64 (R.TIM_TPOk_START_LO_START 7) (R.TIM_TPOk_START_HI_START 7) ≤ 1000 + 1000 ∧
    (tpoS 999 {} 0).on (R.TIM_TPOk_CFG_PERIODIC 7) = false ∧ (tpoS 999 {} 1).on (R.TIM_TPOk_CFG_PERIODIC 7) = true ∧
    (tpoOf (tpoS 2000 { edge := some 2000 } 0) 7).edge = some 2000 ∧ (tpoOf (tpoS 2000 { off := some 2000 } 0) 7).off = some 2000 ∧
    baseNs (tpoS 0 {} 0) ((tpoS 0 {} 0).rd (R.TIM_TPOk_CFG_BASE 0)) = none := by decide
theorem wit_PinsAndCaptures_tci : let s := up [(R.TIM_TCIi_CFG_EN 7, 1), (R.TIM_TCIi_CFG_EDGE 7, 3)]
    s.pg 8 = true ∧ s.on (R.TIM_TCIi_CFG_EN 7) = true ∧ s.rd (R.TIM_TCIi_CFG_EDGE 7) = 3 ∧ baseNs s (s.rd (R.TIM_TCIi_CFG_BASE 7)) = some 0 ∧
    s.tim.tci.length < 64 ∧ 64 ≤ (List.replicate 64 (⟨true, 0, 0, 0, 0⟩ : TciEnt)).length ∧ (up []).on (R.TIM_TCIi_CFG_EN 7) = false := by decide

/-! ### Time -/

/-- Bases 0 and 1 with values in ns; base 0 in a state; the master 9, port number 1, on PA. -/
def timS (a b c : Nat) (x : TBase) (l : List (Fld × Nat)) : State :=
  { up ([(R.TIM_TBb_CFG_MODE 0, 1), (R.TIM_TBb_MID_LO_MID 0, 9), (R.TIM_TBb_MPN_MPN 0, 1), (R.TIM_TBb_CFG_PORT 0, 0), (R.TIM_Pp_PDSTAT_VALID 0, 1)] ++ l) with
    tim := { tb := [(0, { x with val := a * nsU }), (1, { val := b * nsU }), (2, { val := c * nsU })] } }
theorem wit_TimeBases_coarse : (timS 0 0 0 {} [(R.TIM_TBb_STAT_STATE 0, 3)]).rd (R.TIM_TBb_STAT_STATE (timS 0 0 0 {} []).followed) = 3 ∧
    (timS 0 0 0 {} []).tim.coarseSec ≠ some 0 ∧ (timS 0 0 0 {} []).pg 8 = true ∧
    (up []).tim.resid = 0 ∧ ({ resid := -1 } : Tim).resid ≠ 0 ∧ (up []).rd (R.TIM_TBb_STAT_STATE (up []).followed) ≠ 3 := by decide
theorem wit_TimeBases_pdelay : let s := { up [(R.NET_Pp_STAT_LINK 2, 1)] with tim := { pd := [(2, { seq := 65535, open_ := true, t1 := some 1, missed := 2 })] } }
    portUp s 2 = true ∧ s.pg 8 = true ∧ hasRoom s 2 (queueFor s 2 none) 1 = true ∧ (pdOf s 2).open_ = true ∧ (pdOf s 2).missed = 2 ∧
    (pdOf s 2).seq = 65535 ∧ (pdOf s 2).t1 = some 1 ∧ (pdOf s 2).sentAt = none ∧
    125000000 * 2 ^ (clampI (-3) 3 (sgn 8 (s.rd R.TIM_PDCFG_LOGINT)) + 3).toNat = 1000000000 ∧ portUp (up []) 2 = false ∧ (pdOf (up []) 2).t1 = none := by decide
def sync1 (o : Option Nat) : SyncMsg := ⟨0, 0, 9, 1, 5, o, 0, 0⟩
theorem wit_TimeBases_sync : let s := timS 0 0 0 {} []
    fromMaster s 0 (sync1 none).port (sync1 none).domain (sync1 none).srcId (sync1 none).srcPort = true ∧ fromMaster s 1 0 0 9 1 = false ∧
    fromMaster s 3 0 0 9 1 = false ∧ fromMaster (up []) 0 0 0 9 1 = false ∧ s.on (R.TIM_Pp_PDSTAT_VALID 0) = true ∧
    (up []).on (R.TIM_Pp_PDSTAT_VALID 0) = false ∧ (sync1 (some 7)).origin = some 7 := by decide
theorem wit_TimeBases_followUp : ((timS 0 0 0 { pend := [⟨5, 0, 0, 9, 1, 77, 0⟩] } []).tbOf 0).pend = [⟨(5 : Fin 65536), (0 : Fin 3), 0, 9, 1, 77, 0⟩] ∧
    ((timS 0 0 0 {} []).tbOf 0).pend = [] := by decide
/-- What OffsetUsed distinguishes: NOMASTER, ACQUIRE with seven in a row and 1 ms or more, LOCKED inside and outside GUARD. -/
theorem wit_TimeBases_offset : (up [(R.TIM_TBb_STAT_STATE 0, 1)]).rd (R.TIM_TBb_STAT_STATE 0) = 1 ∧ ({ run := 7 } : TBase).run = 7 ∧
    16000000 < (16000001 : Int).natAbs ∧ (16000000 : Int).natAbs ≤ 16000000 ∧
    (0 - f32Times (predicted {} 0) 16 1).natAbs ≤ 16 * max 1 ((up []).rd (R.TIM_TBb_GUARD_GUARD 0)) ∧
    16 * max 1 ((up []).rd (R.TIM_TBb_GUARD_GUARD 0)) < (2 ^ 30 - f32Times (predicted {} 0) 16 1).natAbs := by decide +kernel
theorem wit_TimeBases_timeouts : let s := fun c => timS 0 0 c {} [(R.TIM_TBb_STAT_STATE 0, 2), (R.TIM_TBb_TO_SYNCTO 0, 1), (R.TIM_TBb_TO_HOLDMAX 0, 1)]
    0 + max 1 ((s 100000000).rd (R.TIM_TBb_TO_SYNCTO 0)) * 100000000 * 2 ^ 32 ≤ ((s 100000000).tbOf 2).val ∧
    ((s 99999999).tbOf 2).val < 0 + max 1 ((s 0).rd (R.TIM_TBb_TO_SYNCTO 0)) * 100000000 * 2 ^ 32 ∧ ((s 0).tbOf 0).path = 0 ∧
    ({ path := -1 } : TBase).path ≠ 0 ∧ (up [(R.TIM_TBb_STAT_STATE 0, 4)]).rd (R.TIM_TBb_STAT_STATE 0) = 4 ∧
    0 + max 1 ((s 0).rd (R.TIM_TBb_TO_HOLDMAX 0)) * 1000000000 * 2 ^ 32 ≤ ((s 1000000000).tbOf 2).val := by decide
theorem wit_TimeBases_masterSelect : (up [(R.TIM_TBb_CFG_MODE 3, 1), (R.TIM_TBb_STAT_STATE 3, 2)]).rd (R.TIM_TBb_CFG_MODE 3) = 1 ∧
    masterId (after (.masterSelect 3 .midLo 0) (up [(R.TIM_TBb_CFG_MODE 3, 1), (R.TIM_TBb_STAT_STATE 3, 2), (R.TIM_TBb_MID_LO_MID 3, 4)])) 3 = 0 := by decide
theorem wit_TimeBases_switch : (1 : Fin 2).val ≠ (timS 0 0 0 {} []).followed ∧ (0 : Fin 2).val = (timS 0 0 0 {} []).followed ∧
    (((timS 0 99 0 {} []).tbOf 1).val - (actU (timS 0 99 0 {} []) : Int)).natAbs < 100 * 2 ^ 32 ∧
    100 * 2 ^ 32 ≤ (((timS 0 100 0 {} []).tbOf 1).val - (actU (timS 0 100 0 {} []) : Int)).natAbs := by decide
theorem wit_TimeBases_set : (3 : Fin 4).val ≠ 2 ∧ (up [(R.TIM_TBb_CFG_MODE 3, 0)]).rd (R.TIM_TBb_CFG_MODE 3) = 0 ∧
    (up [(R.TIM_TBb_CFG_MODE 3, 2)]).rd (R.TIM_TBb_CFG_MODE 3) = 2 ∧ true = !(up []).on (R.TIM_TBb_CFG_PPSPOL 3) ∧
    (up [(R.TIM_TBb_STAT_STATE 3, 1)]).rd (R.TIM_TBb_STAT_STATE 3) = 1 ∧ ((up []).tbOf 3).reacq = false := by decide

/-! ### The switch -/

def linkS (l : List (Fld × Nat)) (n : Net) : State := { up ((List.range 3).map (fun p => (R.NET_Pp_STAT_LINK p, 1)) ++ l) with net := n }
def eg (n : Nat) : EgFrame := { kind := .forwarded, len := n }
theorem wit_Switch_links : (linkS [] {}).on (R.NET_Pp_STAT_LINK 2) = true ∧ (linkS [] {}).rd (R.NET_Pp_DROP_Q 2) < 2 ^ 32 ∧
    (up []).on (R.NET_Pp_STAT_LINK 2) = false ∧ (up [(R.NET_Pp_CFG_SPEED 2, 2)]).rd (R.NET_Pp_CFG_SPEED 2) = 2 ∧
    (up [(R.NET_Pp_CFG_SPEED 0, 1)]).rd (R.NET_Pp_CFG_SPEED 0) < 2 ∧ ¬ ((up [(R.NET_Pp_CFG_SPEED 0, 2)]).rd (R.NET_Pp_CFG_SPEED 0) < 2) ∧
    (up [(R.NET_Pp_STAT_VSTATE 1, 1)]).rd (R.NET_Pp_STAT_VSTATE 1) = 1 ∧ ({ verify := 2 } : NPort).verify = 2 := by decide
/-- A frame of `n` octets to the device's own address from node 5. -/
def fr (k : FrameKind) (tag : RedTag) (dst n : Nat) : Frame := ⟨dst, 5, none, tag, true, k, List.replicate n 0, 0⟩
set_option maxRecDepth 40000 in
theorem wit_Switch_sizes : frameLen (fr .supervision (.hsr 0) 0 1512) ≤ 1522 ∧ 1522 < frameLen (fr .supervision (.hsr 0) 0 1513) ∧
    ({ fr .supervision .none 0 60 with fcsOk := false } : Frame).fcsOk = false ∧ (fr .pause .none 0 60).kind = .pause := by decide
theorem wit_Switch_receive : let f := fr (.sv (svF true 0)) (.rct true 7) (netMac (linkS [(R.NET_CFG_RMODE, 1)] {})) 60
    prp (linkS [(R.NET_CFG_RMODE, 1)] {}) = true ∧ prp (linkS [] {}) = false ∧ f.tag = .rct ((1 : Fin 3).val == 1) 7 ∧ toDevice (linkS [(R.NET_CFG_RMODE, 1)] {}) 1 f.dst = true ∧
    Spec.taker f.kind = some .svi ∧ (linkS [] {}).on R.NET_CFG_HOSTMC = false ∧ (linkS [] {}).net.dup.length < 8192 ∧
    dupFind (linkS [] {}) f.src 7 = none ∧ dupFind (linkS [] { dup := [⟨5, 7, 0, true, []⟩] }) f.src 7 = some ⟨5, 7, 0, true, []⟩ ∧
    toDevice (linkS [] {}) 2 (netMac (linkS [] {}) + 1) = true ∧ toDevice (linkS [] {}) 2 2 = false := by decide
theorem wit_Switch_ring : let f := fr (.sv (svF true 0)) (.hsr 7) (netMac (up [])) 60
    goesOn (linkS [] {}) 0 f = false ∧ toDevice (linkS [] {}) 0 f.dst = true ∧ f.src ≠ netMac (linkS [] {}) ∧
    goesOn (linkS [] {}) 0 (fr (.sv (svF true 0)) (.hsr 7) 2 60) = true ∧ toDevice (linkS [] {}) 0 2 = false ∧ isPtp f.kind = false ∧
    cutThrough (linkS [] {}) 1 0 64 = true ∧ cutThrough (linkS [] { ports := [(1, { queues := [(0, [eg 64])] })] }) 1 0 64 = false ∧
    Spec.Roomy (linkS [] { ports := [(1, { queues := [(0, List.replicate 10 (eg 64))] })] }) 1 0 := by unfold Spec.Roomy; decide
theorem wit_Switch_supervision : let s := linkS [(R.HST_Rr_CFG_LOG2E 0, 4), (R.MEM_STAT_TRAINED, 1)] {}
    ringLog s 0 ≠ 0 ∧ s.on R.MEM_STAT_TRAINED = true ∧ ringCount s 0 < ringE s 0 ∧ toDevice s 2 (netMac s) = true := by decide
theorem wit_Switch_expire : dupFind (linkS [] { dup := [⟨5, 7, 0, true, []⟩] }) 5 7 = some ⟨5, 7, 0, true, []⟩ ∧
    0 + 400000000 * 2 ^ 32 ≤ ((timS 0 0 400000000 {} []).tbOf 2).val ∧ ((timS 0 0 399999999 {} []).tbOf 2).val < 0 + 400000000 * 2 ^ 32 := by decide
theorem wit_Switch_egress : let s := linkS [] { ports := [(2, { queues := [(3, [eg 64]), (1, [eg 64])] })] }
    portUp s 2 = true ∧ (portOf s 2).fin ≤ (s.tbOf 2).val ∧ (portOf s 2).held = none ∧ mayStart s 2 3 = true ∧ queueOf s 2 3 = eg 64 :: [] ∧
    ((List.range 8).all fun r => decide (r ≤ 3) || !mayStart s 2 r) = true ∧ ((List.range 8).all fun r => !mayStart (linkS [] {}) 2 r) = true := by decide
/-- 58 ns into a preemptable frame on PA, a frame of 64 octets waiting in queue 7. -/
def cutting : State :=
  { linkS [(R.NET_Pp_STAT_VSTATE 0, 2)] { ports := [(0, { queues := [(7, [eg 64])], fin := 2 ^ 60, pre := true })] } with
    tim := { tb := [(2, { val := 58 * nsU })] } }
theorem wit_Switch_preempt : let s := cutting
    cutAt s 0 = some (tb2U s) ∧ cutAt (linkS [] { ports := [(0, { fin := 9, pre := true })] }) 0 = none ∧ (s.tbOf 2).val < (portOf s 0).fin ∧ (portOf s 0).pre = true ∧ preemptActive s 0 = true ∧
    mayStart s 0 7 = true ∧ queueOf s 0 7 = eg 64 :: [] ∧ preemptActive (linkS [] {}) 0 = false := by decide
theorem wit_Switch_held : let s := linkS [] { ports := [(0, { held := some 9 })] }
    (portOf s 0).held = some 9 ∧ mayStart s 0 7 = false ∧ netGateOpen s 0 (portOf s 0).q = true := by decide
theorem wit_Switch_gates : let s := linkS [(R.NET_Pp_STAT_GRUN 2, 1)] { ports := [(2, { entry := some 1, till := 0, cycEnd := 64 })] }
    s.on (R.NET_Pp_STAT_GRUN 2) = true ∧ (portOf s 2).till ≤ s.activeNs ∧ (portOf s 2).entry = some 1 ∧ (portOf s 2).till ≠ (portOf s 2).cycEnd ∧
    (portOf (linkS [] {}) 2).entry = none ∧ s.activeNs < ({ till := 1 } : NPort).till ∧ (up []).on (R.NET_Pp_STAT_GRUN 2) = false := by decide
theorem wit_Switch_lists : let s := linkS [(R.NET_Pp_STAT_GRUN 2, 1)] { ports := [(2, { swap := true, stop := true, entry := some 0, cycEnd := 0 })] }
    (portOf s 2).swap = true ∧ cycleStart s 2 (portOf s 2).change ≤ s.activeNs ∧ s.rd (R.NET_Pp_STAT_GBANK 2) < 2 ∧ (portOf s 2).act = [] ∧
    (portOf s 2).stop = true ∧ (portOf s 2).cycEnd ≤ s.activeNs ∧ cycleStart s 2 1 = 1000 ∧ (portOf (linkS [] {}) 2).swap = false ∧
    (portOf (linkS [] {}) 2).stop = false := by decide
theorem wit_Switch_tx : let s := linkS [(R.HST_Rr_CFG_LOG2E 1, 4), (R.HST_Rr_PROD_PROD 1, 1), (R.MEM_STAT_TRAINED, 1)] {}
    ringLog s 1 ≠ 0 ∧ s.net.tx.length < ringCount s 1 ∧ s.on R.MEM_STAT_TRAINED = true ∧ s.pg 8 = true ∧ ¬ (ringLog (up []) 1 ≠ 0) ∧
    txRefusal 3 6 14 = none ∧ txRefusal 3 6 13 = some 3 ∧ txRefusal 1 0 1513 = some 3 ∧ txRefusal 2 0 1518 = none ∧ txRefusal 1 7 60 = some 2 ∧
    txRefusal 0 0 60 = some 5 ∧ portUp s 2 = true ∧ queueCells (queueOf s 2 6) ≤ 10 := by decide

/-! ### GOOSE, beacons, twins -/

/-- Control block `c` is configured with no members, on both networks. -/
def gS (c : Nat) (p : Pub) (ns : Nat) : State :=
  { linkS [(R.NET_GCBc_CFG_PORTS c, 3)] { pub := [(c, p)] } with
    img := { gcbs := [(c, ⟨0x010CCD010001, 1, 0, 4, [], [], [], 1, []⟩)] }, tim := { tb := [(2, { val := ns * nsU })] } }
theorem wit_Goose_build : gcbOf (up []) 0 = none ∧ (gcbOf (gS 0 {} 0) 0).any (gooseChanged (gS 0 {} 0) 0) = true ∧
    (gcbOf (gS 0 { data := some [] } 0) 0).any (fun g => !gooseChanged (gS 0 { data := some [] } 0) 0 g) = true ∧
    (gcbOf (gS 127 {} 0) 127).any (gooseChanged (gS 127 {} 0) 127) = true ∧ (gS 127 {} 0).net.c0 = [] ∧ (127 : Fin 128).val ≠ 0 ∧
    (gcbOf (gS 127 { data := some [] } 0) 127).any (fun g => !gooseChanged (gS 127 { data := some [] } 0) 127 g) = true := by decide
theorem wit_Goose_retransmit : let s := gS 127 { data := some [], due := 5, sq := 0xFFFFFFFF } 5
    s.pg 8 = true ∧ (pubOf s 127).due ≤ s.tb2Ns ∧ (pubOf s 127).sq = 0xFFFFFFFF ∧ (gS 127 {} 4).tb2Ns < 5 ∧
    Spec.sentOn s 127 2 ∧ s.on (R.NET_GCBc_CFG_AUTH 127) = false := by unfold Spec.sentOn; decide
theorem test_goose_sq_wraps : (pubOf (after (.gooseRetransmit 127) (gS 127 { data := some [], due := 5, sq := 0xFFFFFFFF } 5)) 127).sq = 1 := by
  decide
/-- Subscription 1023 holds state 7 with sequence number 3, and a frame for it. -/
def gsS (l : List (Fld × Nat)) (x : GSubSt) (ns : Nat) : State :=
  { up ((R.NET_GSUBs_ST_ST 1023, 7) :: l) with
    img := { gsubs := [(1023, ⟨9, 1, [], [], [], 1, []⟩)] }, net := { gsub := [(1023, x)] }, tim := { tb := [(2, { val := ns * nsU })] } }
def gF (wf sim : Bool) (rev : Nat) (st sq : Fin 4294967296) : GFrame := ⟨0, 5, 9, 1, wf, sim, none, [], [], [], rev, st, sq, 100, [], 0⟩
theorem wit_Goose_receive : let s := gsS [] { held := true, sq := 3 } 0
    s.pg 8 = true ∧ ((gsubCand s (gF false false 1 7 4)).head?.map (·.1)) = some 1023 ∧
    (((gsubCand s (gF true false 1 7 4)).find? (fun e => gsubMatch (gF true false 1 7 4) e)).map (·.1)) = some 1023 ∧
    s.on (R.NET_GSUBs_STAT_AUTH 1023) = false ∧ s.rd (R.NET_GSUBs_STAT_STATE 1023) ≠ 4 ∧ s.on (R.NET_GSUBs_STAT_SIMOK 1023) = false ∧
    (gsubOf s 1023).held = true ∧ (gsubOf (up []) 1023).held = false ∧ s.rd (R.NET_GSUBs_ST_ST 1023) = (7 : Fin 4294967296).val ∧
    s.rd (R.NET_GSUBs_ST_ST 1023) ≠ (8 : Fin 4294967296).val := by decide
/-- Ahead by 1 and by 2^31 − 1; equal; ahead by 2^31. -/
theorem wit_Goose_sequence : (4 + 2 ^ 32 - 3) % 2 ^ 32 = 1 ∧ (3 + (2 ^ 31 - 1) + 2 ^ 32 - 3) % 2 ^ 32 < 2 ^ 31 ∧ (3 + 2 ^ 32 - 3) % 2 ^ 32 = 0 ∧
    2 ^ 31 ≤ (3 + 2 ^ 31 + 2 ^ 32 - 3) % 2 ^ 32 := by decide
theorem wit_Goose_expired : let s := fun ns => gsS [(R.NET_GSUBs_STAT_STATE 1023, 2), (R.NET_GSUBs_STAT_TALMARGIN 1023, 0)] { held := true, tal := 100 } ns
    (s 0).rd (R.NET_GSUBs_STAT_STATE 1023) = 2 ∧ 0 + (100 + (s 0).rd (R.NET_GSUBs_STAT_TALMARGIN 1023)) * 1000000 < (s 100000001).tb2Ns ∧
    ¬ (0 + (100 + (s 0).rd (R.NET_GSUBs_STAT_TALMARGIN 1023)) * 1000000 < (s 100000000).tb2Ns) := by decide
def hd (node : Fin 4096) (id : Nat) (seq : Fin 4294967296) : B5Head := ⟨0, 1, node, 0, id, seq, 0, none⟩
theorem wit_Beacons : let s := linkS [] {}
    s.pg 8 = true ∧ s.on R.NET_BCN_CFG_TAUTH = false ∧ (hd 64 1 0).version = 1 ∧ b5Auth s (hd 64 1 0) = true ∧
    b5Auth (linkS [(R.NET_BCN_CFG_RAUTH, 1)] {}) (hd 64 1 0) = false ∧ (hd 64 1 0).port.val ≠ 2 ∧ 64 / 64 ≠ ownNode s / 64 ∧ 0 = ownNode s ∧
    (1 : Nat) % 2 ^ 64 ≠ devId s ∧ ({ hd 64 1 0 with version := 2 } : B5Head).version ≠ 1 := by decide
/-- TWN enabled, the partner node 77 with device ID 5 learned, its latest frame numbered 8 heard at 0. -/
def twS (l : List (Fld × Nat)) (ns : Nat) (x : Twn) : State :=
  { up ([(R.TWN_CFG_EN, 1), (R.TWN_CFG_PARTNER, 77), (R.TWN_STAT_LEARNED, 1), (R.TWN_PDEVID_LO_PDEVID, 5)] ++ l) with
    twn := x, tim := { tb := [(0, { val := ns * nsU }), (2, { val := ns * nsU })] } }
def twF (id : Nat) (seq : Fin 4294967296) (role : Bool) : TwinFrame := ⟨hd 77 id seq, role, false, 0, 0, 0, 0, 0, 0, 0, 0, 0, 0⟩
def oneCycle : Esp := { ftg := [(0, { started := true, insts := [⟨32, 2000000 * nsU, 0, 32, 1, true, [], []⟩, ⟨0, 0, 0, 32, 0, true, [], []⟩] })] }
theorem wit_Twin_send : let s := { twS [] 4000000 {} with esp := oneCycle }
    s.on R.TWN_CFG_EN = true ∧ s.pg 8 = true ∧ nextSpan s = some (0, 2000000) ∧ spanDue s 2000000 = true ∧ nextSpan (twS [] 0 {}) = none ∧
    ¬ (s.pg 1 = true ∧ ftgOn s (s.rd R.TWN_CFG_FTG) = true) ∧ (up []).on R.TWN_CFG_EN = false ∧
    (∀ x, s.twn.sentAt = some x → x + 20000000 ≤ s.tb2Ns) ∧ ftgOn ({ twS [] 0 {} with img := { used := 1 } } : State) ((twS [] 0 {}).rd R.TWN_CFG_FTG) = true :=
  ⟨by decide, by decide, by decide, by decide, by decide, by decide, by decide, fun _ h => (nomatch h), by decide⟩
/-- An idle frame sent at 0 waits for 20 ms. -/
theorem wit_Twin_idle : 0 + 20000000 ≤ (twS [] 20000000 { sentAt := some 0 }).tb2Ns ∧ ¬ (0 + 20000000 ≤ (twS [] 19999999 { sentAt := some 0 }).tb2Ns) := by decide
theorem wit_Twin_early : let s := { twS [(R.ELCn_STAT_STATE 0, 1)] 3999999 {} with esp := oneCycle }
    nextSpan s = some (0, 2000000) ∧ spanDue s 2000000 = false := by decide
theorem wit_Twin_receive : let s := twS [] 0 { seq := some 8 }
    (twF 5 9 true).head.node.val = partnerNode s ∧ (twF 5 9 true).head.version = 1 ∧ b5Auth s (twF 5 9 true).head = true ∧ s.on R.TWN_STAT_LEARNED = true ∧
    s.rd64 R.TWN_PDEVID_LO_PDEVID R.TWN_PDEVID_HI_PDEVID = (twF 5 9 true).head.devId % 2 ^ 64 ∧
    s.rd64 R.TWN_PDEVID_LO_PDEVID R.TWN_PDEVID_HI_PDEVID ≠ (twF 6 9 true).head.devId % 2 ^ 64 ∧ seqAhead s 9 = true ∧ seqAhead s 8 = false ∧
    (twF 5 9 false).roleB = s.on R.TWN_CFG_ROLE ∧ ¬ ((twF 5 9 true).roleB = s.on R.TWN_CFG_ROLE ∨ (twF 5 9 true).partner.val ≠ ownNode s) ∧
    b5Auth (twS [(R.NET_BCN_CFG_RAUTH, 1)] 0 {}) (twF 5 9 true).head = false ∧ partnerNode (up []) ≠ 77 := by decide
theorem test_twin_mode : (after (.twinFrameReceive (twF 5 9 true)) (twS [] 0 { seq := some 8 })).rd R.TWN_STAT_XMODE = 2 := by decide
theorem wit_Twin_lost : twinLost (twS [(R.TWN_TIM_SILENT, 20)] 20000000 { heard := some 0 }) = true ∧ twinLost (twS [(R.TWN_TIM_SILENT, 20)] 19999999 { heard := some 0 }) = false ∧
    (up []).on R.TWN_CFG_EN = false ∧ (twS [(R.TWN_STAT_XMODE, 2)] 0 {}).rd R.TWN_STAT_XMODE = 2 ∧ (twS [] 0 {}).rd R.TWN_STAT_XMODE ≠ 5 := by decide
theorem wit_Twin_mixed : (twS [] 0 { mixed := some 0 }).twn.mixed = some 0 ∧ 0 + 3600000000000 ≤ (twS [] 3600000000000 {}).tb2Ns ∧
    (twS [] 3599999999999 {}).tb2Ns < 0 + 3600000000000 ∧ (twS [] 0 {}).twn.mixed = none := by decide

/-! ### The scheme cores and the exchange -/

/-- The scheme runs, task 1 periodic, task 2 an event task. -/
def schS (x : Sch) (l : List (Fld × Nat)) : State :=
  { up ([(R.SCH_STAT_STATE, 1), (R.SCH_TKn_CFG_KIND 1, 2), (R.SCH_TKn_CFG_KIND 2, 3), (R.SCH_TKn_CFG_KIND 0, 1), (R.SCH_TKn_CFG_PARAM 0, 4)] ++ l) with sch := x }
theorem wit_Scheme_resets : (up [(R.SCH_STAT_STATE, 2)]).rd R.SCH_STAT_STATE = 2 ∧ (schS {} []).rd R.SCH_STAT_STATE ≠ 2 ∧
    8 ∈ ({ inRst := [8] } : Prv).inRst ∧ 8 ∉ (schS {} []).prv.inRst ∧ recentReset (schS {} []) 8 = false ∧
    (schS {} [(R.SCH_STAT_STATE, 3)]).rd R.SCH_STAT_STATE = 3 ∧ warmCkpt (schS {} []) = none ∧
    ((schS {} [(R.SCH_RSTPOL_WARM, 8)]).rd R.SCH_RSTPOL_WARM).testBit 3 = true ∧
    reloadGood (schS {} []) schemeSection = true := by decide +kernel
/-- MRAM with a whole checkpoint in copy 1 that includes record 8. -/
def ckS : State := putCkpt (schS {} []) 1 ⟨0, 8, [], [], []⟩ 128
theorem wit_Scheme_warm : (warmCkpt ckS).map (fun e => (e.1, e.2.seq)) = some (1, 8) ∧ (goodCkpts ckS).map (·.1) = [1] ∧ nextCopy ckS = 0 ∧
    ((goodCkpts ckS).head?.map fun e => newerRecs ckS e) = some [] := by decide +kernel
theorem wit_Scheme_frames : (schS {} []).sch.frame = none ∧ 10 ≤ (schS {} []).rd R.SCH_FRAME_MFRAME ∧
    (schS {} []).tb2Ns < (0 / max 1 ((schS {} []).rd R.SCH_FRAME_MFRAME * 1000000) + 1) * ((schS {} []).rd R.SCH_FRAME_MFRAME * 1000000) ∧ (schS {} []).rd R.SCH_STAT_STATE = 1 ∧ (up []).rd R.SCH_STAT_STATE ≠ 1 ∧
    (schS { frame := some 0 } []).sch.frame = some 0 ∧ coresAlive (schS {} []) = true ∧
    (schS {} []).glb.wdt = none ∧ (up []).rd R.GLB_PWR_STATE ≠ 1 ∧ (schS {} [(R.GLB_PWR_STATE, 1)]).rd R.GLB_PWR_STATE = 1 := by decide
/-- Task 1 has period 20 ms in frames of 10 ms that began at 30 ms, TB2 at `ns`; the frame counter 2 and 3. -/
def perS (n ns : Nat) : State :=
  { schS { frame := some 30000000 } [(R.SCH_TKn_CFG_PARAM 1, 20000), (R.SCH_FRAME_MFRAME, 10), (R.SCH_FCNT_FCNT, n)] with
    tim := { tb := [(2, { val := ns * nsU })] } }
theorem wit_Scheme_period : Spec.PeriodDue (perS 2 30000000) 1 30000000 ∧ mget (perS 2 0).sch.relAt 1 0 < 30000000 ∧
    0 + 10 * 1000000 ≤ (perS 2 39999999).tb2Ns ∧ ¬ Spec.PeriodDue (perS 3 30000000) 1 30000000 :=
  ⟨⟨30000000, by decide, by decide, Or.inr ⟨by decide, by decide, rfl⟩⟩, by decide, by decide, by
    rintro ⟨f, h, -, h2⟩
    rcases h2 with h2 | h2
    · exact absurd h2.1 (by decide)
    · exact absurd h2.2.1 (by decide)⟩
theorem wit_Scheme_frameStart : (perS 2 40000000).sch.frame = some 30000000 ∧
    30000000 + (perS 2 40000000).rd R.SCH_FRAME_MFRAME * 1000000 ≤ (perS 2 40000000).tb2Ns ∧
    (perS 2 39999999).tb2Ns < 30000000 + (perS 2 39999999).rd R.SCH_FRAME_MFRAME * 1000000 := by decide
/-- TK0 runs on every fourth tick of FTG 0, whose latest closed tick is 8. -/
def tk0S (k : Option Nat) : State :=
  { schS { tk0Tick := k } [(R.ELCn_STAT_STATE 0, 0)] with esp := { ftg := [(0, { started := true, insts := [⟨8, 0, 0, 32, 0, true, [], []⟩] })] } }
set_option maxRecDepth 20000 in
theorem wit_Scheme_tk0 : 8 ∈ closedTicks (tk0S none) ((tk0S none).rd (R.SCH_TKn_CFG_FTG 0)) ∧
    (∀ n ∈ missing (tk0S none) ((tk0S none).rd (R.SCH_TKn_CFG_FTG 0)) 8, (tk0S none).rd (R.ELCn_STAT_STATE n) ≠ 1) ∧
    (tk0S none).sch.tk0Tick = none ∧ ticksAfter (tk0S none) 0 8 = [] ∧ (tk0S (some 8)).sch.tk0Tick = some 8 := by decide
theorem wit_Scheme_release : (schS { frame := some 0 } []).rd (R.SCH_TKn_CFG_KIND 1) = 2 ∧ (schS {} []).rd (R.SCH_TKn_CFG_KIND 2) = 3 ∧
    (schS {} []).rd (R.SCH_TKn_CFG_KIND 2) ≠ 2 ∧ (schS {} []).rd (R.SCH_TKn_CFG_KIND 0) = 1 ∧ 8 % (schS {} []).rd (R.SCH_TKn_CFG_PARAM 0) = 0 ∧
    9 % (schS {} []).rd (R.SCH_TKn_CFG_PARAM 0) ≠ 0 ∧ isReleased (schS { rel := [0] } []) 0 = true ∧ isReleased (schS {} []) 0 = false ∧
    ({ trig := [2] } : Sch).trig = 2 :: [] := by decide
/-- What Release distinguishes: running, merged, full by an instance, held at a boundary, preempting. -/
theorem wit_Scheme_releaseCases : let s := schS { cur := some { task := 2 }, rel := [2] } []
    s.rd R.SCH_STAT_STATE = 1 ∧ s.sch.stopping = false ∧ s.sch.coldWait = false ∧ isReleased s 2 = true ∧ hasInstance s 2 = true ∧
    hasInstance s 1 = false ∧ s.sch.quiesce = false ∧ dispatchable s 1 = true ∧ ({ coldWait := true } : Sch).coldWait = true := by decide
theorem wit_Scheme_dispatch : bestReleased (schS { rel := [2, 1] } []) = some 1 ∧ bestReleased (schS {} []) = none ∧ (schS { rel := [2, 1] } []).sch.cur = none ∧
    (∀ x ∈ (schS { rel := [2, 1], pre := [{ task := 1 }] } []).sch.pre, 1 ≤ x.task) ∧ mget (schS {} []).sch.restore 1 [] = [] := by decide
theorem wit_Scheme_journal : ({ jrn := [⟨64, 1, 2, 3, [], [], []⟩] } : Sch).jrn = ⟨64, 1, 2, 3, [], [], []⟩ :: [] ∧
    (recWords ⟨64, 1, 2, 3, [], [], []⟩).length ≤ ringSize ∧ (ckptBytes ⟨0, 1, [], [], []⟩).length ≤ 0x3FFFC ∧
    ({ ckpt := some ⟨0, 1, [], [], []⟩, jfill := 262144 } : Sch).ckpt = some ⟨0, 1, [], [], []⟩ ∧ (262144 : Nat) - 0 ≤ 262144 := by decide +kernel
/-- A record that has become durable is read back whole: number, task and time. -/
theorem test_journal_record : ((recsFrom (after .journalRecordDurable (schS { jrn := [⟨128, 9, 2, 3, [], [], []⟩] } [])) 8 8 128).map
    fun r => (r.seq, r.task, r.now)) = [(9, 2, 3)] := by decide +kernel
theorem wit_Exchange_checks : (schS {} []).rd R.SCH_EXCH_STAT_STATE = 0 ∧ (schS {} [(R.SCH_EXCH_STAT_STATE, 1)]).rd R.SCH_EXCH_STAT_STATE = 1 ∧
    Spec.checkResult (schS {} []) { outWords := [(0, .sg 0), (4096, .sg 0)] } = some 3 ∧ Spec.checkResult (schS {} []) { base := 1 } = some 4 ∧
    Spec.checkResult (schS {} []) { fields := [(R.ESP_GRP_FTG_FTG.key, 1)] } = some 5 ∧
    Spec.checkResult (schS {} []) { fields := [(R.SCH_FRAME_MFRAME.key, 9)] } = some 9 ∧
    Spec.checkResult { schS {} [] with img := { blocks := [(scBase, [1])] } } { blocks := [(scBase, [2])] } = some 6 ∧
    Spec.checkResult (schS {} []) {} = none := by decide +kernel
/-- An exchange checks the image in slot 0, whose header alone stands in MRAM. -/
def exS (w : List Nat) : State :=
  { schS {} [(R.SCH_EXCH_STAT_STATE, 1), (R.SEC_LC_OWNER, 1)] with mem := memWrs [] (slotBase 0) (w.flatMap (leBytes 4)) }
/-- Its one section is an empty register list. -/
def goodImg : List Nat := (goodHdr.set 2 272) ++ List.replicate 48 0 ++ [1, 0, 0, 0]
theorem wit_Exchange_checkAll : (exS goodImg).rd R.SCH_EXCH_STAT_STATE = 1 ∧ imageVerdict (exS goodImg) (exS goodImg).sch.exSlot true = 0 ∧
    imageVerdict (exS []) 0 true ≠ 0 ∧ (match loadAll (exS goodImg) 0 (sections (exS goodImg) 0) {} with | .ok l => decide (l = {}) | .error _ => false) = true ∧
    Spec.checkResult (exS goodImg) (imageOf (exS goodImg) 0 {} {}) = none :=
  by decide +kernel
theorem wit_Exchange_switch : let s := schS { cand := some {}, quiesce := true, heldRel := [1] } [(R.SCH_EXCH_STAT_STATE, 3)]
    s.sch.cand = some {} ∧ s.rd R.SCH_EXCH_STAT_STATE = 3 ∧ s.sch.quiesce = true ∧ s.sch.cur = none ∧ s.sch.pre = [] ∧
    s.rd R.SCH_FCNT_FCNT % max 1 (s.rd R.SCH_FRAME_HRATIO) = 0 ∧ ({} : Image).fields = s.img.fields ∧
    (schS {} [(R.SCH_EXCH_STAT_STATE, 4)]).rd R.SCH_EXCH_STAT_STATE = 4 ∧
    1 % max 1 ((schS {} [(R.SCH_FRAME_HRATIO, 2)]).rd R.SCH_FRAME_HRATIO) ≠ 0 := by decide
theorem wit_Exchange_defer : let s := schS { cur := some { task := 2 }, quiesce := true, heldRel := [1] } [(R.SCH_EXCH_STAT_STATE, 3), (R.SCH_EXCH_STAT_DEFERS, 7)]
    s.sch.quiesce = true ∧ s.sch.cur ≠ none ∧ s.rd R.SCH_EXCH_STAT_DEFERS = 7 ∧ (schS {} []).rd R.SCH_EXCH_STAT_DEFERS < 7 ∧
    s.sch.frame.getD 0 + 1000000 ≤ ({ s with tim := { tb := [(2, { val := 1000000 * nsU })] } } : State).tb2Ns ∧
    (after .exchangeQuiesceTimeout { s with tim := { tb := [(2, { val := 1000000 * nsU })] } }).rd R.SCH_EXCH_STAT_RESULT = 7 ∧
    after .exchangeQuiesceTimeout s = s := by decide +kernel

/-! ### The recorder -/

/-- AU 3 in fast mode, keeping every row, its pre-trigger count 2, in a partition of 16 MiB, DRAM trained; kind `k` of trigger unit 15. -/
def auS (st k : Nat) (x : Au) (l : List (Fld × Nat)) : State :=
  { up ([(R.REC_AUu_STAT_STATE 3, st), (R.REC_AUu_CFG_MODE 3, 1), (R.REC_AUu_CFG_K 3, 1), (R.REC_AUu_PRE_PRE 3, 2), (R.REC_AUu_POST_POST 3, 1), (R.MEM_STAT_TRAINED, 1),
      (R.MEM_SIZE_USABLE, 448), (R.REC_AUu_PART_SIZE 3, 16), (R.REC_AUu_TRGt_CFG_KIND 3 15, k)] ++ l) with dr := { au := [(3, x)], ev := [(3, 7, 0)] } }
theorem wit_Recorder_row : let s := auS 1 0 { store := 1 } []
    s.pg 1 = true ∧ s.rd (R.REC_AUu_STAT_STATE 3) = 1 ∧ s.on (R.REC_AUu_CFG_MODE 3) = true ∧ (auOf s 3).src % clamp 1 1024 (s.rd (R.REC_AUu_CFG_K 3)) = 0 ∧
    Spec.NoMasks s 3 ∧ (∀ k < 16, s.rd (R.REC_AUu_TRGt_CFG_KIND 3 k) = 0) ∧ (auOf s 3).cur = none ∧ hitSlots s 3 = [] ∧ s.on R.MEM_STAT_TRAINED = true ∧
    s.rd (R.REC_AUu_PRE_PRE 3) ≤ 1 + 1 ∧ 1 % clamp 1 1024 2 ≠ 0 ∧ (auS 0 0 {} []).rd (R.REC_AUu_STAT_STATE 3) = 0 := by unfold Spec.NoMasks; decide
set_option maxRecDepth 20000 in
theorem wit_Recorder_trigger : let s := auS 2 7 { store := 2 } []
    (∀ j < 16, s.rd (R.REC_AUu_TRGt_CFG_KIND 3 j) = if j = 15 then 7 else 0) ∧ s.on (R.REC_AUu_TRGt_CFG_GROUP 3 15) = false ∧ (3, 7, 0) ∈ s.dr.ev ∧
    s.rd (R.REC_AUu_STAT_STATE 3) = 2 ∧ pickSlot s 3 = some 0 ∧ (∀ h ∈ hitSlots s 3, h = 0) ∧ (auOf s 3).pos + rowBytes s 3 ≤ regionSize s 3 := by decide
def recC (count last : Nat) : CurRec := { slot := 15, first := 0, count := count, preRows := 2, last := last }
theorem wit_Recorder_end : (auOf (auS 3 0 { cur := some (recC 3 3) } []) 3).cur = some (recC 3 3) ∧ (recC 3 3).last ≤ (recC 3 3).count ∧ (recC 2 3).count < (recC 2 3).last ∧
    (recC 3 3).slot < 16 ∧ ringLog (auS 3 0 {} []) 3 = 0 := by decide
theorem wit_Recorder_hold : (auS 4 0 {} []).rd (R.REC_AUu_STAT_STATE 3) = 4 ∧ (auS 4 0 {} []).on (R.REC_AUu_CFG_HMODE 3) = false ∧
    0 + clamp 1 60000000 ((auS 4 0 {} [(R.REC_AUu_HOLD_HOLD 3, 1)]).rd (R.REC_AUu_HOLD_HOLD 3)) * 1000 ≤ (timS 0 0 1000 {} []).tb2Ns ∧
    clamp 1 65535 ((auS 4 0 {} [(R.REC_AUu_HOLD_HOLD 3, 9)]).rd (R.REC_AUu_HOLD_HOLD 3)) ≤ 9 := by decide
set_option maxRecDepth 20000 in
theorem wit_Recorder_arm : let s := auS 0 0 {} []
    s.rd (R.REC_AUu_STAT_STATE 3) = 0 ∧ s.pg 1 = true ∧ s.on R.MEM_STAT_TRAINED = true ∧ (up []).on R.MEM_STAT_TRAINED = false ∧ (s.rd (R.REC_AUu_PRE_PRE 3) + max 1 (s.rd (R.REC_AUu_POST_POST 3))) * rowBytes s 3 ≤ regionSize s 3 ∧
    partBad s 3 = false ∧ regionSize (auS 0 0 {} [(R.REC_AUu_PRE_PRE 3, 0xFFFFFF)]) 3 < 0xFFFFFF * rowBytes s 3 ∧
    (auS 5 0 {} []).rd (R.REC_AUu_STAT_STATE 3) = 5 ∧ ¬ (∃ k ∈ hitSlots (auS 5 0 {} []) 3, (0 : BitVec 16).getLsbD k = true) := by decide

/-! ### Security -/

theorem wit_Secure_start : (up []).on R.SEC_STAT_BUSY = false ∧ (up [(R.SEC_STAT_BUSY, 1)]).on R.SEC_STAT_BUSY = true ∧ (Instr.keyclr, 6) ∈ Spec.secOps ∧
    (up [(R.SEC_STAT_TAMP_STK, 1)]).on R.SEC_STAT_TAMP_STK = true := by decide
theorem wit_Secure_stage : let s := fun n => up [(R.SEC_STG_CFG_LEN, n), (R.MEM_STAT_TRAINED, 1)]
    (s 64).rd R.SEC_STG_CFG_LEN = 64 ∧ (s 63).rd R.SEC_STG_CFG_LEN < 64 ∧ (s 4194304).rd R.SEC_STG_CFG_LEN ≤ 4194304 ∧ 4194304 < (s 4194305).rd R.SEC_STG_CFG_LEN ∧
    (s 64).on R.MEM_STAT_TRAINED = true ∧ (up []).on R.MEM_STAT_TRAINED = false ∧ (s 64).on R.GLB_BOOT_DONE = false ∧ (s 64).rd R.SCH_EXCH_STAT_STATE = 0 ∧
    (up [(R.GLB_BOOT_DONE, 1)]).on R.GLB_BOOT_DONE = true ∧ (up []).rd R.GLB_BOOT_SLOT = (up []).rd R.SEC_STG_CFG_SLOT := by decide
/-- An operation in progress. -/
def secS (op early : Nat) (l : List (Fld × Nat)) : State := { up ((R.SEC_STAT_BUSY, 1) :: l) with sec := { op := op, early := early } }
set_option maxRecDepth 20000 in
theorem wit_Secure_tokens : [1, 2, 3, 4, 5, 6].all (fun k => (secS k 0 []).sec.op == k) = true ∧ (secS 1 10 []).sec.early < 16 ∧
    Spec.tokenResult (secS 2 0 []) true = 5 ∧ Spec.tokenResult (secS 2 0 [(R.SEC_LC_OWNER, 1)]) true = 2 ∧
    Spec.tokenResult (secS 2 0 [(R.SEC_LC_OWNER, 1), (R.SEC_LC_STATE, 1), (R.SEC_BUFw_WORD 0, 0x53454354), (R.SEC_BUFw_WORD 4, 1)]) true = 1 := by decide
theorem wit_Secure_enroll : (up []).rd R.SEC_LC_STATE = 0 ∧ (up [(R.SEC_LC_STATE, 2)]).rd R.SEC_LC_STATE ≠ 0 := by decide
theorem wit_Secure_keys : ¬ (4 < (up [(R.SEC_KCFG_ALG, 4)]).rd R.SEC_KCFG_ALG) ∧ 4 < (up [(R.SEC_KCFG_ALG, 5)]).rd R.SEC_KCFG_ALG ∧
    (keySlot (up []) 255).cur = none ∧ ({ cur := some ⟨1, []⟩ } : KeySlot).cur ≠ none ∧
    (up []).activeNs < (up [(R.SEC_KROLL_LO_KROLL, 1)]).rd64 R.SEC_KROLL_LO_KROLL R.SEC_KROLL_HI_KROLL := by decide
theorem wit_Secure_rollover : let s := { up [] with sec := { slots := [(255, { nxt := some ⟨1, []⟩, ret := some ⟨2, []⟩ })] } }
    (keySlot s 255).nxt = some ⟨1, []⟩ ∧ (keySlot s 255).roll ≤ s.activeNs ∧ (keySlot s 255).ret ≠ none ∧ (keySlot s 255).expiry ≤ s.activeNs ∧
    s.activeNs < ({ roll := 1 } : KeySlot).roll ∧ s.itemLive 22 4 = false := by decide

/-! ### Syllables from their words (R204 to R232), the worked example of 07 and one or two words of every family -/

theorem test_decode_example0 : decodeSyl (.pe 0) .a false 0x2B400003 = some (.li (.pe 0) 26 3 false) ∧ decodeSyl (.pe 0) .f false 0 = some (.nop (.pe 0) false) ∧
    decodeSyl (.pe 0) .l false 0x91880000 = some (.ldg 0 g0 12 8 0 false) ∧ decodeSyl (.pe 0) .x true 0xDD280001 = some (.rdsr 0 g0 9 8 true) := by decide
theorem test_decode_example3 : decodeSyl (.pe 2) .a false 0x06ED7803 = some (.or (.pe 2) g0 23 13 15 false) ∧
    decodeSyl (.pe 2) .f false 0x428C0005 = some (.fabs (.pe 2) g0 20 12 false) ∧ decodeSyl (.pe 2) .l false 0x920A0000 = some (.ldg 2 g0 16 10 0 false) := by decide
theorem test_decode_example11 : decodeSyl (.pe 2) .x true 0xC7600188 = some (.vset 2 ⟨false, 3⟩ 27 8 true) ∧
    decodeSyl (.pe 2) .x true 0xDC000000 = some (.tickEnd 2 g0 true) ∧ decodeSyl (.pe 2) .l true 0x81490000 = some (.ldW (.pe 2) g0 10 9 0 true) := by decide
theorem test_decode_integer : decodeSyl .sl .a true 0x0EF70808 = some (.andi .sl g0 23 23 0x88 true) ∧
    decodeSyl .sl .a true 0x0B40F87F = some (.addi .sl g0 26 0 0xFFF true) ∧ decodeSyl .sl .a true 0x1822F802 = some (.srai .sl g0 1 2 31 true) := by decide
theorem test_decode_predicate : decodeSyl .sl .a true 0x1C370000 = some (.cmpEq .sl g0 1 23 0 true) ∧
    decodeSyl .sl .a true 0x24611000 = some (.pand .sl g0 3 1 2 true) := by decide
theorem test_decode_transfer : decodeSyl .sl .a true 0x33DFFFFF = some (.br .sl ⟨true, 7⟩ 0x1FFFFF true) ∧
    decodeSyl .sl .a true 0x30200005 = some (.call .sl g0 5 true) ∧ decodeSyl .sl .a true 0x34000E03 = some (.loop .sl 0 7 3 true) ∧
    decodeSyl .sl .a true 0x34A00003 = some (.loop .sl 5 0 3 true) ∧ decodeSyl .sl .a true 0x34A00E03 = none ∧
    decodeSyl .sl .a true 0x38000002 = some (.ret .sl g0 true) := by decide
theorem test_decode_float : decodeSyl (.pe 7) .f true 0x4314A808 = some (.fmax (.pe 7) g0 24 20 21 true) ∧
    decodeSyl (.pe 7) .f true 0x484AC801 = some (.fcmpLt (.pe 7) g0 2 10 25 true) ∧ decodeSyl (.pe 7) .f true 0x44221800 = some (.fmadd (.pe 7) g0 1 2 3 true) ∧
    decodeSyl (.pe 7) .f true 0x4C221802 = some (.cmul 7 g0 1 2 3 true) := by decide
theorem test_decode_units : decodeSyl (.pe 7) .x true 0xD1FF001F = some (.phRd 7 g0 15 31 15 true true) ∧
    decodeSyl (.pe 7) .x true 0xD422F800 = some (.cvStep 7 g0 1 2 31 true) ∧ decodeSyl (.pe 7) .x true 0xD9A00000 = some (.sqSeq 7 g0 13 0 true) ∧
    decodeSyl (.pe 7) .l true 0x84858004 = some (.stW (.pe 7) g0 4 5 0x804 true) := by decide
theorem test_decode_scheme : decodeSyl .sl .a true 0xF0E5787F = some (.ton g0 7 5 2047) ∧ decodeSyl .sl .a true 0xF0F5787F = some (.tpl g0 7 5 2047) ∧
    decodeSyl .sl .a true 0xF832F87F = some (.edg g0 1 2 4095 2) ∧ decodeSyl .sl .a true 0xEC7FF87F = some (.istb g0 4095 31 3) ∧
    decodeSyl .sl .a true 0xFC0F0001 = some (.tkAct g0 15) ∧ decodeSyl .sl .a true 0xFC221811 = some (.bmxAnd g0 1 2 3) := by decide
/-- Reserved majors, a reserved fn, a wrong slot, a profile without the major, a predicate above p7, an unused field that is not 0. -/
theorem test_decode_reserved : decodeSyl .sl .a true 0x20000000 = none ∧ decodeSyl .sl .a true 0x0400000F = none ∧
    decodeSyl (.pe 0) .f true 0x0B40F87F = none ∧ decodeSyl .sl .a true 0xDC000000 = none ∧ decodeSyl (.pe 0) .x true 0xF0E5787F = none ∧
    decodeSyl .sl .a true 0x1D370000 = none ∧ decodeSyl .sl .a true 0x38010002 = none ∧ decodeSyl .sl .a true 0x91A80000 = none := by decide
/-- Bundle 0 of the worked example, as four words. -/
theorem test_decode_bundle : decodeBundle 2 (fun k => [0x2B400003#32, 0, 0x91880000, 0xDD280001].getD k 0) =
    some [.li (.pe 2) 26 3 false, .nop (.pe 2) false, .ldg 2 g0 12 8 0 false, .rdsr 2 g0 9 8 true] := by decide

/-! ### The TAP (R538) -/

theorem test_tap : tapIdcode = 0xB0024A53#32 ∧ tapCapture .bypass = some [false] ∧
    [0, 1, 2, 3].map (fun k => tapAvailable (up [(R.SEC_LC_STATE, k)]) .extest) = [true, false, false, true] ∧
    [0, 1, 2, 3].all (fun k => tapAvailable (up [(R.SEC_LC_STATE, k)]) .idcode) = true ∧ tapAvailable (up [(R.SEC_LC_STATE, 2)]) .samplePreload = false := by
  decide +kernel

/-! ### Where times, fetches and sections decide -/

/-- A program of 10 syllables in memory of zeros: its last is fetched, the one beyond is illegal; a reserved word is illegal too. -/
theorem wit_FetchesIllegal : Spec.FetchesIllegal (.nop .sl true) (sl { pc := 10 }) .sl true { pc := 10 } ∧
    fetchOk { sl {} with mem := memWrs [] scBase (leBytes 4 0x20000000) } .sl 0 = false ∧ fetchOk (sl {}) .sl 9 = true :=
  ⟨⟨by decide +kernel, by decide +kernel, by decide +kernel, _, rfl, rfl⟩, by decide +kernel, by decide +kernel⟩
/-- A watchdog of 250 ms refreshed at 0. -/
theorem wit_ResetsHeld_times : let s := fun ns : Nat => { up [(R.GLB_WDT_TO, 25)] with glb := { hold := 0, wdt := some 0 }, tim := { tb := [(2, { val := ns * nsU })] } }
    wdtMs (s 0) = 250 ∧ 0 + wdtMs (s 0) * 1000000 ≤ (s 250000000).tb2Ns ∧ (s 249999999).tb2Ns < 0 + wdtMs (s 0) * 1000000 := by decide
theorem wit_StartUp_hold : let s := fun ns : Nat => { st [] with glb := { hold := 2, holdAt := 0 }, tim := { tb := [(2, { val := ns * nsU })] } }
    (s 0).glb.hold ≠ 0 ∧ (s 0).glb.hold ≠ 1 ∧ (s 0).glb.holdAt + 100000 ≤ (s 100000).tb2Ns ∧ (s 99999).tb2Ns < (s 99999).glb.holdAt + 100000 := by decide
/-- A running bay keeps a transition to STANDBY for 150 ms at most. -/
theorem wit_LoadAndPowerStates_quiet : quietNow { up [] with glb := { hold := 0, trans := 1 } } = true ∧
    (let s := fun ns : Nat => { sl {} with glb := { hold := 0, trans := 1 }, tim := { tb := [(2, { val := ns * nsU })] } }
     quietNow (s 99999999) = false ∧ quietNow (s 100000000) = true) := by decide
/-- A window whose reset ended at 0; ALIVE toggled at 0, in modes 1 and 2. -/
theorem wit_SafeState_times : let s := fun ns : Nat => { up [] with prv := { tail := [(3, 0)] }, tim := { tb := [(2, { val := ns * nsU })] } }
    (∀ e ∈ (s 10000).prv.tail, e.1 = 3 → e.2 + 10000 ≤ (s 10000).tb2Ns) ∧ (∃ e ∈ (s 9999).prv.tail, e.1 = 3 ∧ (s 9999).tb2Ns < e.2 + 10000) ∧
    (s 9999).prv.aliveAt = 0 ∧ (s 500000).tb2Ns = 500000 :=
  ⟨by decide, ⟨(3, 0), by decide, by decide⟩, by decide, by decide⟩
/-- A core in RELOAD whose slot has one section for it, with a right and a wrong CRC. -/
def reloading (crc : Nat) : State :=
  { up [(R.ELCn_STAT_STATE 0, 2)] with mem := memWrs [] (slotBase 0) (((goodHdr.set 2 272) ++ List.replicate 48 0 ++ [5, 0, 0, crc]).flatMap (leBytes 4)) }
theorem wit_CoreReload : (reloading 0).rd (R.ELCn_STAT_STATE 0) = 2 ∧
    ((sections (reloading 0) 0).filter (coreSection 0)).all (crcGood (reloading 0) 0) = true ∧
    ((sections (reloading 1) 0).filter (coreSection 0)).map (crcGood (reloading 1) 0) = [false] ∧
    (after (.coreReloadDone 0 true) (reloading 1)).rd (R.ELCn_STAT_CAUSE 0) = 5 := by decide +kernel
/-- FAB's crossing side: shadows placed once, 1,023 and 1,024 NET cycles ago. -/
theorem wit_ClocksAdvance_shadow : let s := fun n : Nat => { up [] with tim := { shadow := [(0, 0, 9)], netCnt := n, fabPhase := 9 } }
    (s 1024).tim.shadow ≠ [] ∧ 1024 ≤ (s 1024).tim.netCnt ∧ (s 1023).tim.netCnt < 1024 ∧ 25 ≤ (s 0).tim.fabPhase + 16 ∧ ¬ (25 ≤ (up []).tim.fabPhase + 16) := by
  decide
/-- Beacon, supervision frame and peer-delay request follow their intervals. -/
theorem wit_Net_times : let s := fun ns : Nat => { linkS [(R.NET_SUP_CFG_INTV, 0)] { bcnAt := some 0, supAt := some 0, c0 := [(0, 0, 1)], c0at := some 0 } with
      tim := { tb := [(2, { val := ns * nsU })], pd := [(0, { sentAt := some 0 })] } }
    (s 0).pg 8 = true ∧ 0 + 1000000000 ≤ (s 1000000000).tb2Ns ∧ (s 999999999).tb2Ns < 0 + 1000000000 ∧
    clamp 100 10000 ((s 0).rd R.NET_SUP_CFG_INTV) = 100 ∧ 0 + 100 * 1000000 ≤ (s 100000000).tb2Ns ∧ (s 99999999).tb2Ns < 0 + 100 * 1000000 ∧
    0 + 1500 * 2 ^ 32 ≤ tb2U (s 1500) ∧ tb2U (s 1499) < 0 + 1500 * 2 ^ 32 ∧ (s 0).net.c0 = (0, 0, 1) :: [] ∧
    (pdOf (s 0) 0).sentAt = some 0 := by decide
/-- A bad frame of the ring whose copy is already leaving. -/
theorem wit_Switch_stomp : let f := { fr (.sv (svF true 0)) (.hsr 7) 2 60 with fcsOk := false }
    f.fcsOk = false ∧ f.tag = .hsr 7 ∧ prp (linkS [] {}) = false ∧ goesOn (linkS [] {}) 0 f = true ∧ dupFind (linkS [] {}) f.src 7 = none ∧
    cutThrough (linkS [] {}) 1 (queueFor (linkS [] {}) 1 none) (frameLen f) = true ∧
    cutThrough (linkS [] { ports := [(1, { fin := 1 })] }) 1 (queueFor (linkS [] {}) 1 none) (frameLen f) = false := by decide
/-- A changed block of GOOSE in its order; authentication that fails; members of another type. -/
theorem wit_Goose_more : let s := gsS [(R.NET_GSUBs_STAT_AUTH 1023, 1)] {} 0
    s.on (R.NET_GSUBs_STAT_AUTH 1023) = true ∧ authOk s (s.rd (R.NET_GSUBs_STAT_KSLOT 1023)) none 0 = false ∧
    ({ gF true false 1 7 4 with members := [(.boolean, 1)] } : GFrame).members.map (·.1) ≠ [] ∧
    gsubMatch { gF true false 1 7 4 with goID := [1] } (1023, ⟨9, 1, [], [], [], 1, []⟩) = false ∧
    ({ dirty := [127, 3] } : Net).dirty.head? = some 127 ∧ ((gsubCand s (gF true false 1 7 4)).filter fun e => e.1 == 1023).length = 1 := by decide
/-- The next fast row comes 64 periods of 100 ns after the one before. -/
theorem wit_Recorder_edge : let s := fun ns : Nat => { auS 1 0 { edgeAt := some 0 } [] with tim := { tb := [(2, { val := ns * nsU })] } }
    (auOf (s 0) 3).edgeAt = some 0 ∧ 0 + 64 * tmNs (lpmAct (s 6400)) ≤ (s 6400).tb2Ns ∧ (s 6399).tb2Ns < 0 + 64 * tmNs (lpmAct (s 6399)) := by decide
/-- Two tasks from 8 on share no boundary: an exchange whose frame began at READY, and one that began before it. -/
theorem wit_Exchange_boundary : let s := fun f : Nat => schS { frame := some f, readyAt := 5 } [(R.SCH_EXCH_STAT_STATE, 3)]
    (s 5).sch.frame = some 5 ∧ (s 5).sch.readyAt ≤ 5 ∧ 4 < (s 4).sch.readyAt ∧ (s 5).rd R.SCH_EXCH_STAT_STATE = 3 ∧ (s 5).sch.quiesce = false ∧
    (s 5).rd R.SCH_FCNT_FCNT % max 1 ((s 5).rd R.SCH_FRAME_HRATIO) = 0 := by decide

/-! ### Signatures: the owner key is the generator, its private key 1; a signature with the nonce 1 -/

def ownerG : List Byte := (leBytes 32 p256gx).reverse ++ (leBytes 32 p256gy).reverse
def sigG (m : List Byte) : List Byte :=
  (leBytes 32 p256gx).reverse ++ (leBytes 32 ((beNat (sha256 m) + p256gx) % p256n)).reverse
def wordsOf (b : List Byte) (k : Nat) : Nat := leNat ((b.drop (4 * k)).take 4)
/-- The clear token of `tokenW`, signed. -/
def signedToken : State :=
  let b := (List.range 8).flatMap fun k => leBytes 4 (tokenW k)
  let s := token (wordsOf (b ++ sigG b))
  { s.wr R.YEW_STAT_SCAN 0 with sec := { s.sec with owner := ownerG } }
set_option maxRecDepth 100000 in
theorem wit_YewRecords_signed : let s := signedToken
    clearSig s = true ∧ s.on R.YEW_CLR_STAT_BUSY = true ∧ s.on R.SEC_LC_OWNER = true ∧ leNat ((tokenBytes s).take 4) = 0x59434C52 ∧
    leNat (((tokenBytes s).drop 8).take 8) = s.rd64 R.SEC_DEVID_LO_DEVID R.SEC_DEVID_HI_DEVID ∧
    leNat (((tokenBytes s).drop 4).take 4) = s.yew.nonce.toNat ∧ yewOldest s ≤ leNat (((tokenBytes s).drop 16).take 6) ∧
    s.on R.YEW_STAT_SCAN = false ∧ s.yew.fifo.length < 512 ∧ yewNext s + 1 < 2 ^ 48 ∧ clearSig (token tokenW) = false := by decide +kernel

/-! ### Notifications held, budget breaches, lines written with an error, further conditions -/

/-- As `ctx`, with the notification of tick 6 held back, whose class 0 has a section of bay 1. -/
def ctxHeld (ns : Nat := 0) : State :=
  { ctx with img := { entry := [(1, 0)] }, tim := { tb := [(2, { val := ns * nsU })] },
             ec := [(0, { run := some { tick := 5, cls := 0, bay := 1 }, ctxs := [{ tick := 5, rest := [(0, 1)] }],
                          held := [{ tick := 6, mode := [(1, 1)], rest := [(0, 1)] }] })] }
theorem wit_SectionEnds_held : ∃ x h, (ctxHeld.core 0).run = some x ∧ x.buf = [] ∧ x.exc = none ∧ fetchedBy ctxHeld 0 x = ctxHeld ∧
    Joins (.tickEnd 0 g0 true) ctxHeld 0 x true ∧ (∀ h ∈ (ctxHeld.core 0).held, h.tick ≠ x.tick) ∧ (ctxHeld.core 0).held = h :: [] ∧ x.cls = 0 ∧
    (∀ y ∈ (ctxHeld.core 0).ctxs, ∀ e ∈ y.rest, e.1 = 0 → y.tick = x.tick ∧ e = (0, x.bay)) ∧ (0, 1) ∈ h.rest ∧ runnable ctxHeld 0 h (0, 1) = true :=
  ⟨_, _, rfl, rfl, rfl, by decide, ⟨by decide, fun _ => by decide⟩, by decide, rfl, rfl, by decide, by decide, by decide⟩
/-- Class 0 runs for 12 µs; an exception of the same cycle ended it; a bundle that would complete beyond 1,200 cycles. -/
theorem wit_CoreBreach : breachTick (ctxHeld 12000) 0 = some 5 ∧ ((ctxHeld 12000).core 0).c0From + 12000 ≤ (ctxHeld 12000).tb2Ns ∧
    (ctxHeld 11999).tb2Ns < ((ctxHeld 11999).core 0).c0From + 12000 ∧ breachTick (up []) 0 = none ∧
    breachTick { up [(R.ELCn_TICKIX_TICK 0, 7)] with ec := [(0, { c0Exc := some (7, 0) })] } 0 = some 7 := by decide
theorem wit_CoreBreach_bundle : let s := { ctx with ec := [(0, { c0Cnt := 1200, run := some { tick := 5, cls := 0, bay := 1 }, ctxs := [{ tick := 5, rest := [(0, 1)] }] })] }
    ∃ x, (s.core 0).run = some x ∧ x.cls = 0 ∧ x.exc = none ∧ fetchedBy s 0 x = s ∧ fitsBundle x (.tickEnd 0 g0 true) = true ∧
      1200 < c0Cycles (s.core 0) { x with syls := askedWith x (.tickEnd 0 g0 true) } ∧ (s.core 0).held = [] :=
  ⟨_, rfl, rfl, rfl, by decide, by decide, by decide, rfl⟩
/-- An instance that wrote a line in which a word cannot be corrected. -/
theorem wit_SchemeCommit_bad : let s := { sl {} with sch := { cur := some { task := 2, lines := [64] } }, eccBad := [scBase + 68] }
    ∃ x, s.sch.cur = some x ∧ Running (.tkEnd g0) s .sl true x.rf ∧ ∃ w ∈ scWords (x.lines.map fun a => (a, 32)), s.eccBad.contains w = true :=
  ⟨_, rfl, ⟨by decide, ⟨_, rfl, rfl⟩, by decide, by decide⟩, _, List.mem_cons_of_mem _ (List.mem_cons_self ..), by decide⟩
/-- A core in RUN with no context and with eight; one whose class 0 runs; the image gives bay 1 a class-0 section. -/
theorem wit_GridCloses_cores : let s := fun c : Core => { up [(R.ELCn_STAT_STATE 0, 1), (R.ELCn_BAYj_MODE_ACT 0 1, 1)] with
      img := { used := 1, entry := [(1, 0)] }, ec := [(0, c)] }
    groupsOf (s {}) 0 = [0] ∧ (s {}).rd (R.ELCn_STAT_STATE 0) = 1 ∧ ((s {}).core 0).openCtxs < 8 ∧ class0Busy ((s {}).core 0) = false ∧
    0 < (s {}).rd (R.ELCn_BAYj_MODE_ACT 0 1) ∧ (s {}).rd (R.ELCn_BAYj_MODE_ACT 0 1) < 5 ∧ ((s {}).core 0).reloaded = false ∧ ((s {}).core 0).held = [] ∧
    8 ≤ ((s { ctxs := List.replicate 8 { tick := 1 } }).core 0).openCtxs ∧ class0Busy ((s { run := some { tick := 1, cls := 0, bay := 1 } }).core 0) = true := by
  decide +kernel
/-- TEMP at the threshold, 5 °C below it and between, at 135 °C and above 127 °C. -/
theorem wit_FaultMonitors_hot : let w := clamp 85 130 ((up []).rd R.PRV_TMON_WARN)
    (w : Int) ≤ (BitVec.ofNat 9 w).toInt ∧ (BitVec.ofNat 9 (w - 5)).toInt + 5 ≤ w ∧ (BitVec.ofNat 9 (w - 1)).toInt < w ∧
    (w : Int) < (BitVec.ofNat 9 (w - 1)).toInt + 5 ∧ 135 ≤ (135 : BitVec 9).toInt ∧
    (after (.temperatureCrossing 135) (up [])).itemLive 17 0 = true ∧ (after (.temperatureCrossing 134) (up [])).itemLive 17 0 = false := by decide
/-- BLOCK_RESET of a core: none in progress, one in progress, one 1 ms ago. -/
theorem wit_FaultOccurrences_target : let s := fun p : Prv => { up [(R.PRV_SRCs_CFG_ACTION 5, 2)] with prv := p, tim := { tb := [(2, { val := 1000000 * nsU })] } }
    lineMasked (s {}) 5 4 = false ∧ consequential (s {}) 5 4 = false ∧ (s {}).on R.PRV_STAT_SAFE = false ∧ (s {}).glb.hold = 0 ∧ actionOf (s {}) 5 = 2 ∧
    occTarget 5 4 = some 4 ∧ recentReset (s {}) 4 = false ∧ recentReset (s { lastBrst := [(4, 0)] }) 4 = true ∧ 4 ∈ (s { inRst := [4] }).prv.inRst := by
  decide
/-- Sources 5 and 6 in one cycle; source 2 with a word of the directory, and of the packet buffer with a frame in it. -/
theorem wit_FaultOccurrences_two : let s := up [(R.PRV_SRCs_CFG_ACTION 5, 1), (R.PRV_SRCs_CFG_ACTION 6, 4), (R.PRV_SRCs_CFG_ACTION 2, 0)]
    lineMasked s 5 0 = false ∧ consequential s 5 0 = false ∧ lineMasked s 6 0 = false ∧ consequential s 6 0 = false ∧ actionOf s 5 = 1 ∧ actionOf s 6 = 4 ∧
    lineMasked s 2 0x50000080 = false ∧ actionOf s 2 = 0 ∧ 0x50000080 / 2 ^ 28 = 5 ∧ 0x40000000 / 2 ^ 28 = 4 ∧ lineMasked s 2 0x40000000 = false ∧
    buffered s = [] ∧ buffered cutting ≠ [] := by decide
/-- The block in progress while WDT's reset is held: within 4 µs and after; at POR. -/
theorem wit_YewRecords_held : let s := fun h ns : Nat => { yewS ent 1 0 with glb := { hold := h }, tim := { tb := [(2, { val := ns * nsU })] } }
    (s 2 4000).glb.hold ≠ 1 ∧ (s 2 4000).tb2Ns ≤ (s 2 4000).glb.holdAt + 4000 ∧ (s 2 4001).glb.holdAt + 4000 < (s 2 4001).tb2Ns ∧ (s 1 0).glb.hold = 1 := by
  decide
/-- A recorder's event, admitted and found by the scan's end, with DRAM trained. -/
theorem wit_Yew_header : let e : YEntry := { ent with src := 0xC, seq := none, tell := .recHeader 3 0 }
    let s := { up [(R.MEM_STAT_TRAINED, 1), (R.YEW_STAT_SCAN, 1)] with yew := { fifo := [e], cross := [⟨0, 0xC, 1, none, [], .recHeader 3 0⟩] } }
    s.yew.fifo = [e] ∧ e.tell = .recHeader 3 0 ∧ s.on R.MEM_STAT_TRAINED = true ∧ s.hst.badWords = [] ∧ s.hst.softWords = [] ∧
    s.on R.YEW_STAT_SCAN = true ∧ s.on R.YEW_STAT_OVF_PER = false ∧ (s.wr R.YEW_STAT_SCAN 0).yew.fifo.length < 448 := by decide
/-- A pending vector that the host's change of the configuration space lets go; a masked vector of a ring that has advanced. -/
theorem wit_HostLinkAndRings_messages : let s := { up [] with hst := { msix := [(3, { ctl := 0, pend := true })], cfg := { busMaster := true, msixEn := true } } }
    (mget s.hst.msix 3 {}).pend = true ∧ s.msgOn = true ∧ s.vecMasked 3 = false ∧ (up []).msgOn = false ∧
    ({ up [] with hst := { cfg := { busMaster := true, msixEn := true } } } : State).vecMasked 4 = true := by decide
set_option maxRecDepth 20000 in
theorem wit_MaintenanceSpi_unknown : (up []).pg 0 = true ∧ busUp (up []) = true ∧ (6 : BitVec 8) ≠ 0 ∧ 5 < (6 : BitVec 8).toNat ∧
    (after (.mspiStatus ⟨6, 0⟩ 0 (crc8 [6, 0, 0, 0, 0, 0]) true) (up [])).hst.mspi = [0x3C] := by decide

/-! ### Start-up and power states -/

/-- Slot A holds an image that bears a right signature; `h` its header. -/
def signedBoot (h : List Nat) : State :=
  let b := (h ++ List.replicate 48 0).flatMap (leBytes 4)
  let s := boot 3 [] [(R.SEC_LC_OWNER, 1)]
  { s with mem := memWrs s.mem (slotBase 0) (b ++ sigG b), sec := { s.sec with owner := ownerG } }
set_option maxRecDepth 100000 in
theorem wit_StartUp_signed : imageSig (signedBoot goodHdr) 0 = true ∧ imageVerdict (signedBoot goodHdr) 0 true = 0 ∧ (signedBoot goodHdr).pg 11 = true ∧
    imageSig (boot 3 goodHdr [(R.SEC_LC_OWNER, 1)]) 0 = false ∧ (signedBoot goodHdr).glb.second = false := by decide +kernel
/-- The order of step 5: PD9 follows PD8; PD6 comes after PD9. -/
theorem wit_StartUp_turn : let s := { st [(R.GLB_PWRSTAT_PG, 0x101)] with glb := { hold := 0, step := 6 } }
    ((neededPds s false).takeWhile (· != 9)).all s.pg = true ∧ ((neededPds s false).takeWhile (· != 6)).all s.pg = false ∧ s.pg 6 = false ∧
    powering s 6 = true := by decide
/-- Images of one section: none that is wrong, a wrong CRC, an unknown kind; a device that the image does not name. -/
def loading (sec : List Nat) (dev : Nat) : State :=
  { boot 6 [] [] with mem := memWrs [] (slotBase 0) ((((goodHdr.set 2 272).set 6 dev) ++ List.replicate 48 0 ++ sec).flatMap (leBytes 4)) }
set_option maxRecDepth 100000 in
theorem wit_LoadAndPowerStates_sections :
    let res := fun s : State => match loadAll s 0 (sections s 0) {} with | .ok _ => 0 | .error r => r
    hdr (loading [] 0) 0 0x18 32 = 0 ∧ hdr (loading [] 1) 0 0x18 32 ≠ 0 ∧ res (loading [5, 0, 0, 0] 0) = 0 ∧ res (loading [5, 0, 0, 1] 0) = 5 ∧
    res (loading [99, 0, 0, 0] 0) = 6 := by decide +kernel
/-- The machine once an image without sections is placed. -/
def loadedEmpty : State := startGrids (placeImage (imageOf (boot 6 [] []) 0 {} {}) {} (boot 6 [] []))
theorem wit_LoadAndPowerStates_good : loadChecks loadedEmpty = true := by
  simp only [loadChecks, Bool.and_eq_true]
  exact ⟨⟨⟨⟨⟨⟨⟨⟨⟨⟨⟨⟨by decide +kernel, by decide +kernel⟩, by decide +kernel⟩, by decide +kernel⟩, by decide +kernel⟩, by decide +kernel⟩,
    by decide +kernel⟩, by decide +kernel⟩, by decide +kernel⟩, by decide +kernel⟩, by decide +kernel⟩, by decide +kernel⟩, by decide +kernel⟩
theorem wit_AnalogueFrontEnd_off : (st []).pg 10 = false := by decide
/-- HIBERNATE with nothing retained and with a retained word that cannot be corrected; a failed return to RUN. -/
theorem wit_LoadAndPowerStates_checkpoint : let s := fun b : List Nat => { up [] with glb := { hold := 0, trans := 2 }, img := { retained := [(0, 0, 32)] }, eccBad := b }
    quietNow (s []) = true ∧ (ckptBytes (takeCkpt (standbySteps (s [])))).length ≤ 0x3FFFC ∧
    (scWords (retRegions (standbySteps (s [])))).all (fun w => !(s []).eccBad.contains w && !(s []).eccSoft.contains w) = true ∧
    (scWords (retRegions (standbySteps (s [scBase])))).any (fun w => (standbySteps (s [scBase])).eccBad.contains w) = true := by decide +kernel
theorem wit_LoadAndPowerStates_back : let s := fun d : List Nat => { loading d 0 with glb := { hold := 0, trans := 3 } }
    (neededPds (s []) true).all (s []).pg = true ∧ (match loadAll (s [5, 0, 0, 0]) 0 (sections (s [5, 0, 0, 0]) 0) {} with | .ok _ => true | _ => false) = true ∧
    (match loadAll (s [5, 0, 0, 1]) 0 (sections (s [5, 0, 0, 1]) 0) {} with | .error 5 => true | _ => false) = true := by decide +kernel

/-! ### Pins, switch -/

/-- Output 47 driven with TMIN to pass at 1 ns, its bay's gate open. -/
theorem wit_PinsAndCaptures_stretch : let s := { up [(R.ELCn_BAYj_MODE_ACT 7 2, 1)] with thn := { drv := 2 ^ 47, stretch := [(47, 1)] } }
    s.thn.drv.testBit 47 = true ∧ (s.thn.stretch.any fun e => e.1 == 47 && decide (s.tb2Ns < e.2)) = true ∧ gateOpen s (47 / 2) = true ∧
    State.reset.glb.hold ≠ 0 := by decide
theorem wit_Switch_express : startsAfter cutting 0 7 16 = true ∧
    startsAfter (linkS [(R.NET_Pp_STAT_GRUN 0, 1), (R.NET_C0CFG_RESV7, 0)] { ports := [(0, { queues := [(7, [eg 1500])], act := [1], entry := some 0 })] }) 0 7 16 = false ∧
    (let s := linkS [(R.HST_Rr_CFG_LOG2E 0, 4), (R.MEM_STAT_TRAINED, 1)] {}
     (ringProd s 0 + 2 ^ 32 - consAtStart s 0) % 2 ^ 32 < ringE s 0 ∧ s.hst.badWords = [] ∧ s.hst.softWords = []) := by decide +kernel

/-! ### GOOSE, the exchange -/

/-- TAUTH with a current key in slot 0; the slot's key empty. -/
theorem wit_Beacons_tag : let s := { linkS [(R.NET_BCN_CFG_TAUTH, 1)] {} with sec := { slots := [(0, { cur := some ⟨1, [1, 2]⟩ })] } }
    (Spec.tagKey s).map (·.bytes) = some [1, 2] ∧ Spec.tagKey (linkS [(R.NET_BCN_CFG_TAUTH, 1)] {}) = none ∧ Spec.tagKey (linkS [] {}) = none ∧
    Spec.tagField s = 0x8000 ∧ (Spec.tagged s []).length = 16 := by decide +kernel
/-- A subscription that a wrong confRev has made INVALID receives another one. -/
theorem wit_Goose_invalid : let s := gsS [(R.NET_GSUBs_STAT_STATE 1023, 4)] {} 0
    s.rd (R.NET_GSUBs_STAT_STATE 1023) = 4 ∧ (gsubCand s (gF true false 2 7 4)).map (fun e => (e.1, e.2.confRev)) = [(1023, 1)] ∧
    (gsubCand s (gF true false 2 7 4)).all (gsubMatch (gF true false 2 7 4)) = true := by decide
/-- The image of `goodImg`, signed, under CHECKING. -/
def signedEx : State :=
  let b := goodImg.flatMap (leBytes 4)
  let s := exS []
  { s with mem := memWrs [] (slotBase 0) (b ++ sigG b), sec := { s.sec with owner := ownerG } }
set_option maxRecDepth 100000 in
theorem wit_Exchange_signed : signedEx.rd R.SCH_EXCH_STAT_STATE = 1 ∧ imageSig signedEx signedEx.sch.exSlot = true ∧ imageVerdict signedEx 0 true = 0 ∧
    signedEx.sch.exStg = false ∧ (match loadAll signedEx 0 (sections signedEx 0) {} with | .ok l => decide (l = {}) | .error _ => false) = true ∧
    imageSig (exS goodImg) 0 = false ∧ ({ exStg := true } : Sch).exStg = true := by decide +kernel
/-- A program laid over a live retained region; the same block again; a survivor that cannot be read. -/
theorem wit_Exchange_regions : Spec.checkResult { schS {} [] with img := { retained := [(1, 0, 32)] } } { blocks := [(scBase, [2])] } = some 6 ∧
    Spec.checkResult { schS {} [] with img := { blocks := [(scBase, [1])] } } { blocks := [(scBase, [1])] } = none ∧
    (let i : Image := { carryVar := [(64, 0, 4)] }
     (scWords (carryRegions i)).any (fun a => ({ schS {} [] with eccBad := [scBase + 64] } : State).eccBad.contains a) = true) := by decide +kernel

/-! ### The recorder -/

/-- AU 3 in READY with unit 15 of kind `k` on channel 0, whose input 0 stands at 5 with flags `fl`. -/
def trgS (k : Nat) (fl : Nat) (t : TrgSt) (l : List (Fld × Nat)) : State :=
  { auS 2 k {} ((R.REC_AUu_NSRC_NCH 3, 1) :: (R.REC_AUu_TRGt_THR_THR 3 15, 0) :: (R.REC_AUu_TRGt_CFG_EDGE 3 15, 0) :: l) with
    dr := { au := [(3, { store := 2, trg := [(15, t)] })], ev := [(3, 7, 0), (3, 6, 0)] }, dch := { tap := [(0, (5, fl))] }, sch := { recSig := [(0, true)] } }
set_option maxRecDepth 100000 in
theorem wit_Recorder_ready : Spec.ReadyFor (auS 2 7 { store := 2 } []) 3 0 ∧ Spec.OnlyUnit (auS 2 7 {} []) 3 15 := by
  unfold Spec.ReadyFor Spec.OnlyUnit; decide +kernel
/-- A level above its threshold in the one row asked for; an edge of a scheme signal; a capture, the host; a flag; none of a unit without a kind. -/
theorem wit_Recorder_fires_level : Spec.Fires (trgS 3 0 {} []) 3 15 := by
  have h : (trgS 3 0 {} []).rd (R.REC_AUu_TRGt_CFG_KIND 3 15) = 3 := by decide +kernel
  simp only [Spec.Fires, h]
  exact ⟨F32.ofInt 5, ⟨by decide +kernel, by decide +kernel, by decide +kernel, by decide +kernel⟩, by decide +kernel, by decide +kernel, by decide +kernel⟩
theorem wit_Recorder_fires_signal : Spec.Fires (trgS 9 0 {} []) 3 15 := by
  have h : (trgS 9 0 {} []).rd (R.REC_AUu_TRGt_CFG_KIND 3 15) = 9 := by decide +kernel
  simp only [Spec.Fires, h]
  exact Or.inl (by decide +kernel)
theorem wit_Recorder_fires_event : Spec.Fires (trgS 6 0 {} []) 3 15 ∧ Spec.Fires (trgS 7 0 {} []) 3 15 := by
  have h : (trgS 6 0 {} []).rd (R.REC_AUu_TRGt_CFG_KIND 3 15) = 6 := by decide +kernel
  have k : (trgS 7 0 {} []).rd (R.REC_AUu_TRGt_CFG_KIND 3 15) = 7 := by decide +kernel
  simp only [Spec.Fires, h, k]
  decide +kernel
theorem wit_Recorder_fires_flag : Spec.Fires (trgS 10 0x80 {} [(R.REC_AUu_TRGt_THR_THR 3 15, 0x80)]) 3 15 ∧ ¬ Spec.Fires (trgS 0 0 {} []) 3 15 := by
  have h : (trgS 10 0x80 {} [(R.REC_AUu_TRGt_THR_THR 3 15, 0x80)]).rd (R.REC_AUu_TRGt_CFG_KIND 3 15) = 10 := by decide +kernel
  have k : (trgS 0 0 {} []).rd (R.REC_AUu_TRGt_CFG_KIND 3 15) = 0 := by decide +kernel
  simp only [Spec.Fires, h, k]
  decide +kernel
set_option maxRecDepth 100000 in
/-- A slot with M = 1 and limits of 0 on a channel that stands at 5. -/
theorem wit_Recorder_violated : Spec.Violated (trgS 0 0 {} [(R.REC_AUu_MSKm_CFG_EN 3 7, 1), (R.REC_AUu_MSKm_CFG_M 3 7, 1)]) 3 7 :=
  ⟨by decide, by decide +kernel, by decide +kernel, F32.ofInt 5, ⟨by decide +kernel, by decide +kernel, by decide +kernel, by decide +kernel⟩, Or.inl (by decide +kernel)⟩
/-- A close of FTG 0 with AU 3 in grid mode. -/
def auGrid : State := { grid [0] 0 with dr := { au := [(3, {})] } }.wr (R.REC_AUu_STAT_STATE 3) 1 |>.wr R.MEM_STAT_TRAINED 1 |>.wr (R.REC_AUu_PART_SIZE 3) 16
set_option maxRecDepth 100000 in
theorem wit_Recorder_grid : let s := auGrid
    (oldestOpen (espFtg s 0)).map (complete s 0) = some true ∧ s.rd (R.REC_AUu_STAT_STATE 3) = 1 ∧ s.on (R.REC_AUu_CFG_MODE 3) = false ∧
    s.rd (R.REC_AUu_CFG_FTG 3) = 0 ∧ (∀ v < 4, v ≠ 3 → s.rd (R.REC_AUu_STAT_STATE v) = 0) ∧ (∀ k < 16, s.rd (R.REC_AUu_TRGt_CFG_KIND 3 k) = 0) ∧
    hitSlots s 3 = [] ∧ s.on R.MEM_STAT_TRAINED = true ∧ (auOf s 3).pos + rowBytes s 3 ≤ regionSize s 3 ∧ s.parBad = [] := by decide +kernel

/-! ### Security -/

/-- A token of REKEY for the device, signed, in SEC_BUF, its operation at its end. -/
def signedTok : State :=
  let b := (List.range 24).flatMap fun k => leBytes 4 (if k = 0 then 0x53454354 else if k = 4 then 2 else 0)
  let w := wordsOf (b ++ sigG b)
  { secS 2 0 ([(R.SEC_LC_OWNER, 1), (R.SEC_LC_STATE, 1)] ++ (List.range 40).map fun k => (R.SEC_BUFw_WORD k, w k)) with
    sec := { op := 2, owner := ownerG } }
set_option maxRecDepth 100000 in
theorem wit_Secure_signed : tokenSig signedTok = true ∧ signedTok.on R.SEC_STAT_BUSY = true ∧ signedTok.sec.early = 0 ∧ Spec.tokenResult signedTok true = 1 ∧
    tokenSig (secS 2 0 []) = false := by decide +kernel
/-- The owner key in SEC_BUF, for ENROLL. -/
def enrolling : State :=
  { secS 4 0 ((List.range 16).map fun k => (R.SEC_BUFw_WORD k, wordsOf ownerG k)) with sec := { op := 4 } }
set_option maxRecDepth 100000 in
theorem wit_Secure_point : enrollPoint enrolling = true ∧ enrolling.rd R.SEC_LC_STATE = 0 ∧ enrollPoint (secS 4 0 []) = false := by decide +kernel
/-- A staged image of `goodHdr` with its signature in DRAM, to go to slot B. -/
def staged : State :=
  let b := (goodHdr ++ List.replicate 48 0).flatMap (leBytes 4)
  { secS 3 0 [(R.MEM_STAT_TRAINED, 1), (R.MEM_SIZE_USABLE, 448), (R.SEC_LC_OWNER, 1)] with
    mem := memWrs [] dramBase (b ++ sigG b), sec := { op := 3, stg := (1, 0, 320), owner := ownerG } }
set_option maxRecDepth 100000 in
theorem wit_Secure_staged : let u := staged.wrMem (slotBase 1) (dramGet staged 0 320).1
    imageSig u 1 = true ∧ imageVerdict u 1 true = 0 ∧ staged.sec.early = 0 ∧ staged.sec.op = 3 := by decide +kernel
/-- The device key's signature verifies, and no other report bears it. -/
theorem test_attest_signature : let d := sha256 [1, 2, 3]
    ecdsaOk (beBytes 32 State.reset.sec.pubX ++ beBytes 32 State.reset.sec.pubY) d (ecdsaSign State.reset.sec.priv 5 d) = true ∧
    ecdsaOk (beBytes 32 State.reset.sec.pubX ++ beBytes 32 State.reset.sec.pubY) (sha256 [1, 2, 4]) (ecdsaSign State.reset.sec.priv 5 d) = false := by decide +kernel
theorem wit_Secure_tamper : State.reset.pg 7 = false ∧ (up []).pg 7 = true ∧ (up []).itemLive 22 4 = false := by decide

/-! ### Twins -/

/-- A grid that runs and one that does not; a known partner that has been accepted, and one not yet; an extra frame of a span held and not held. -/
theorem wit_Twin_accepted : let s := twS [] 0 { accepted := true, part := [⟨0, 5, 0, 0, 0, 0⟩], seq := some 8 }
    s.twn.accepted = true ∧ (twS [] 0 {}).twn.accepted = false ∧ (s.twn.part.any fun x => x.t == 0 && x.len == 5) = true ∧
    (s.twn.part.any fun x => x.t == (twF 5 9 true).inst && x.len == (twF 5 9 true).len) = false ∧
    ({ twF 5 9 true with extra := true, len := 5 } : TwinFrame).extra = true ∧
    (espFtg { twS [] 0 {} with esp := oneCycle } 0).started = true ∧ (espFtg (twS [] 0 {}) ((twS [] 0 {}).rd R.TWN_CFG_FTG)).started = false := by decide

end Sys2Proof.Tests
end

section
/-! PROOFS. What a written word does to a field (R18, R19). -/
namespace Sys2Proof.Machine

/-- Taking away the bits that two numbers share clears exactly the bits set in the second one. -/
theorem testBit_sub_and (a b k : Nat) : (a - (a &&& b)).testBit k = (a.testBit k && !b.testBit k) := by
  induction k generalizing a b with
  | zero =>
    have hand := @Nat.and_mod_two_eq_one a b
    have hle := @Nat.and_le_left a b
    rw [Bool.eq_iff_iff]
    simp only [Nat.testBit_zero, Bool.and_eq_true, Bool.not_eq_true', decide_eq_true_eq, decide_eq_false_iff_not]
    omega
  | succ k ih =>
    have hdiv := @Nat.and_div_two a b
    have hand := @Nat.and_mod_two_eq_one a b
    have hle := @Nat.and_le_left a b
    have half : (a - (a &&& b)) / 2 = a / 2 - (a / 2 &&& b / 2) := by omega
    simp only [Nat.testBit_succ, half, ih]

/-- The field's part of a written word, bit by bit. -/
theorem testBit_fldIn (f : Fld) (v k : Nat) : (fldIn f v).testBit k = (decide (k < f.w) && v.testBit (f.lo + k)) := by
  simp [fldIn, Nat.testBit_mod_two_pow, Nat.testBit_div_two_pow, Nat.add_comm]

theorem fldIn_lt (f : Fld) (v : Nat) : fldIn f v < 2 ^ f.w := Nat.mod_lt _ (by positivity)

/-- A field of one bit is written 0 or 1 by its bit of the word. -/
theorem fldIn_ne_zero {f : Fld} (h : f.w = 1) (v : Nat) : fldIn f v ≠ 0 ↔ v.testBit f.lo = true := by
  simp only [fldIn, h, pow_one, Nat.testBit_eq_decide_div_mod_eq, decide_eq_true_eq]
  omega

section Putting
variable (lk : Bool) (v : Nat) (s : State) {f : Fld}

theorem putField_rw (h : f.acc = .rw) : putField lk v s f = s.wr f (fldIn f v) := by simp [putField, h]
theorem putField_rwl (h : f.acc = .rwl) : putField lk v s f = if lk then s else s.wr f (fldIn f v) := by simp [putField, h]
theorem putField_readOnly (h : f.acc = .ro ∨ f.acc = .rc) : putField lk v s f = s := by rcases h with h | h <;> simp [putField, h]
theorem putField_w1c (h : f.acc = .w1c) : putField lk v s f = s.wr f (s.rd f - (s.rd f &&& fldIn f v)) := by simp [putField, h]
theorem putField_lock (h : f.acc = .w1s) (hl : lockAt f.addr = some f) :
    putField lk v s f = if fldIn f v ≠ 0 then s.wr f 1 else s := by simp [putField, h, hl]

/-- Whatever its access code, a field is left as it was or written. -/
theorem putField_cases (f : Fld) : putField lk v s f = s ∨ ∃ x, putField lk v s f = s.wr f x := by
  unfold putField
  cases f.acc with
  | rw | wo | w1c => exact .inr ⟨_, rfl⟩
  | ro | rc => exact .inl rfl
  | rwl =>
    cases lk
    · exact .inr ⟨_, rfl⟩
    · exact .inl rfl
  | w1s =>
    simp only
    split
    · exact .inr ⟨_, rfl⟩
    · exact .inl rfl

/-- A write of one field leaves every other field as it was. -/
theorem putField_rd_ne {g : Fld} (h : g.key ≠ f.key) : (putField lk v s f).rd g = s.rd g := by
  rcases putField_cases lk v s f with e | ⟨x, e⟩ <;> rw [e]
  exact rd_wr_ne s x h

/-- Writing a field stores no byte of memory. -/
@[simp] theorem putField_mem (f : Fld) : (putField lk v s f).mem = s.mem := by
  rcases putField_cases lk v s f with e | ⟨x, e⟩ <;> rw [e]
  exact wr_mem s f x

/-- A W1C field keeps exactly the bits at which the word has a 0. -/
theorem putField_w1c_testBit (h : f.acc = .w1c) {k : Nat} (hk : k < f.w) (hf : s.rd f < 2 ^ f.w) :
    ((putField lk v s f).rd f).testBit k = ((s.rd f).testBit k && !v.testBit (f.lo + k)) := by
  rw [putField_w1c lk v s h, rd_wr_self, Nat.mod_eq_of_lt (lt_of_le_of_lt (Nat.sub_le _ _) hf), testBit_sub_and, testBit_fldIn]
  simp [hk]

end Putting

/-- Settles O7, access code by access code. -/
theorem accessCodes : Obligations.AccessCodes := by
  intro s f v lk hf _ t
  refine ⟨fun h => ?_, fun h => ?_, fun h => ?_, fun h k hk => ?_, fun h hl hw => ?_, fun g hg => ?_, putField_mem lk v s f⟩
  · rw [show t = _ from putField_rw lk v s h, rd_wr_self, Nat.mod_eq_of_lt (fldIn_lt f v), fldIn]
  · rw [show t = _ from putField_rwl lk v s h]
    cases lk
    · simp [fldIn]
    · rfl
  · rw [show t = _ from putField_readOnly lk v s h]
  · exact putField_w1c_testBit lk v s h hk hf
  · rw [show t = _ from putField_lock lk v s h hl]
    simp only [fldIn_ne_zero hw]
    split <;> simp [hw]
  · exact putField_rd_ne lk v s hg

end Sys2Proof.Machine
end

section
/-! PROOFS. The register table: where its registers lie and which fields they have (R18, R508). -/
namespace Sys2Proof.Machine

/-- The fields of a register as the table must have them: at the register's own offset, inside the word, at reset values that fit
their widths, and no two of them under one key. -/
def RegDef.sound (r : RegDef) : Bool :=
  (r.flds.all fun f => f.addr == r.off && decide (f.lo < 32) && decide (f.rst < 2 ^ f.w)) && decide (r.flds.map Fld.lo).Nodup

theorem regTable_sound : regTable.all RegDef.sound = true := by decide +kernel

/-- What a register found at an offset is: a copy of one that the table lists. -/
theorem findReg_some {l : List RegDef} {a : Nat} {fs : List Fld} (h : findReg l a = some fs) :
    ∃ r ∈ l, r.off ≤ a ∧ inDims (a - r.off) r.dims = true ∧ fs = r.flds.map (·.shift (a - r.off)) := by
  induction l with
  | nil => simp [findReg] at h
  | cons r t ih =>
    rw [findReg] at h
    split at h
    next hr =>
      simp only [Bool.and_eq_true, decide_eq_true_eq] at hr
      exact ⟨r, List.mem_cons_self, hr.1, hr.2, by simpa using h.symm⟩
    next =>
      obtain ⟨r, hr, rest⟩ := ih h
      exact ⟨r, List.mem_cons_of_mem _ hr, rest⟩

section Found
variable {a : Nat} {l : List Fld} (h : findReg regTable a = some l)
include h

theorem mem_findReg {f : Fld} (hf : f ∈ l) : f.addr = a ∧ f.lo < 32 ∧ f.rst < 2 ^ f.w := by
  obtain ⟨r, hr, hle, -, rfl⟩ := findReg_some h
  obtain ⟨g, hg, rfl⟩ := List.mem_map.mp hf
  have hs := List.all_eq_true.mp regTable_sound r hr
  simp only [RegDef.sound, Bool.and_eq_true, List.all_eq_true, beq_iff_eq, decide_eq_true_eq] at hs
  obtain ⟨⟨haddr, hlo⟩, hrst⟩ := hs.1 g hg
  exact ⟨by simp only [Fld.shift]; omega, hlo, hrst⟩

theorem findReg_nodup : (l.map Fld.lo).Nodup := by
  obtain ⟨r, hr, -, -, rfl⟩ := findReg_some h
  have hs := List.all_eq_true.mp regTable_sound r hr
  simp only [RegDef.sound, Bool.and_eq_true, decide_eq_true_eq] at hs
  simpa [Function.comp_def, Fld.shift] using hs.2

end Found

/-- Two fields under one key have one offset and one place in the word. -/
theorem key_inj {f g : Fld} (hf : f.lo < 32) (hg : g.lo < 32) (haf : f.addr < 0x4000000) (hag : g.addr < 0x4000000)
    (h : f.key = g.key) : f.dom.num = g.dom.num ∧ f.addr = g.addr ∧ f.lo = g.lo := by
  simp only [Fld.key] at h
  omega

theorem key_ne_of_addr {f g : Fld} (hf : f.lo < 32) (hg : g.lo < 32) (haf : f.addr < 0x4000000) (hag : g.addr < 0x4000000)
    (h : f.addr ≠ g.addr) : f.key ≠ g.key := fun e => h (key_inj hf hg haf hag e).2.1

end Sys2Proof.Machine
end

section
/-! PROOFS. Reads of registers (R16 to R18): what they answer, capture and clear. -/
namespace Sys2Proof.Machine

/-- A field's value lies in the register map alone. -/
theorem rd_of_regs {s t : State} (h : t.regs = s.regs) (f : Fld) : t.rd f = s.rd f := by simp only [State.rd, h]

/-! ### What a read leaves as it was -/

@[simp] theorem clearRc_mem (s : State) (l : List Fld) : (clearRc s l).mem = s.mem := by
  induction l generalizing s with
  | nil => rfl
  | cons f t ih => rw [clearRc, ih]; split <;> rfl

@[simp] theorem planeTouch_mem (s : State) (o : Nat) : (planeTouch s o).mem = s.mem := by
  refine List.foldlRecOn (motive := fun t : State => t.mem = s.mem) (planeChecks o) _ rfl fun t ht e _ => ?_
  split
  · simpa [parityErr] using ht
  · exact ht

/-- A choice between two states neither of which stores a byte stores none. -/
theorem ite_mem {c : Prop} [Decidable c] {s t u : State} (ht : t.mem = s.mem) (hu : u.mem = s.mem) :
    (if c then t else u).mem = s.mem := by
  split
  · exact ht
  · exact hu

/-- What a read of the planes checks at ESP offset `o`, BAR0 offset `a`: of an instant record's stamp the high word too. -/
def touchAt (s : State) (a o : Nat) : State :=
  if o < 0x20000 ∧ a % 16 = 0 then planeTouch (planeTouch s o) (a + 4 - 0x800000) else planeTouch s o

theorem touchAt_mem (s : State) (a o : Nat) : (touchAt s a o).mem = s.mem :=
  ite_mem (by rw [planeTouch_mem, planeTouch_mem]) (planeTouch_mem s o)

theorem touchPlanes_inside {s : State} {a : Nat} (h : 0x800000 ≤ a ∧ inPlanes (a - 0x800000) = true) :
    touchPlanes s a = touchAt s a (a - 0x800000) := if_pos h

theorem touchPlanes_outside {s : State} {a : Nat} (h : ¬ (0x800000 ≤ a ∧ inPlanes (a - 0x800000) = true)) : touchPlanes s a = s :=
  if_neg h

@[simp] theorem touchPlanes_mem (s : State) (a : Nat) : (touchPlanes s a).mem = s.mem := by
  by_cases h : 0x800000 ≤ a ∧ inPlanes (a - 0x800000) = true
  · rw [touchPlanes_inside h, touchAt_mem]
  · rw [touchPlanes_outside h]

/-- The state after a read that no held capture answers, before it captures anything itself. -/
def readOnce (s : State) (a : Nat) : State :=
  match findReg regTable a with
  | some l => clearRc (touchPlanes s a) l
  | none => touchPlanes s a

@[simp] theorem readOnce_mem (s : State) (a : Nat) : (readOnce s a).mem = s.mem := by
  unfold readOnce
  split <;> simp

/-- A read of the word that a capture holds answers it and uses it up. -/
theorem regRead_held {s : State} {a : Nat} (ha : a % 4 = 0) (h : (s.wide.any fun e => e.1 == a) = true) :
    regRead s a = (mget s.wide a 0, { s with wide := mdel s.wide a }) := by
  simp [regRead, ha, h]

/-- Any other read answers the register's word. -/
theorem regRead_free {s : State} {a : Nat} (ha : a % 4 = 0) (h : (s.wide.any fun e => e.1 == a) = false) :
    regRead s a = (peek s a,
      if lowOf64 a then { readOnce s a with wide := mput (readOnce s a).wide (a + 4) (peek s (a + 4)) } else readOnce s a) := by
  simp only [regRead, ha, h, readOnce]
  rfl

/-- The host may read any register (R29). -/
theorem hostRead_eq (s : State) (a : Nat) : hostRead s a = showRead (regRead s a).2 (leBytes 4 (regRead s a).1) := rfl

/-! ### 64-bit quantities (R17) -/

theorem any_mput (m : List (Nat × Nat)) (k v : Nat) : ((mput m k v).any fun e => e.1 == k) = true := by
  induction m with
  | nil => simp [mput]
  | cons e t ih =>
    obtain ⟨a, x⟩ := e
    simp only [mput]
    split
    · simp
    · split <;> simp [ih]

/-- A read of the low word captures the high word as it stands. -/
theorem lowRead_captures {s : State} {a : Nat} (ha : a % 4 = 0) (hl : lowOf64 a = true) (h : (s.wide.any fun e => e.1 == a) = false) :
    hostRead s a = showRead { readOnce s a with wide := mput (readOnce s a).wide (a + 4) (peek s (a + 4)) } (leBytes 4 (peek s a)) := by
  rw [hostRead_eq, regRead_free ha h, if_pos hl]

theorem exec_wideLowRead {s : State} {a : Nat} (hb : busUp s = true) (h : lowOf64 a = true ∨ (4 ≤ a ∧ lowOf64 (a - 4) = true)) :
    exec (.wideLowRead a) s = .next (hostRead s a) := by
  have : (lowOf64 a || (decide (4 ≤ a) && lowOf64 (a - 4))) = true := by simpa using h
  simp [exec, execWideLowRead, hb, this]

/-- Settles O10: the capture that the low word's read makes is what the next read of the high register finds. -/
theorem wideReads : Obligations.WideReads := by
  intro s a hb ha hl hfree
  refine ⟨_, exec_wideLowRead hb (.inl hl), ?_⟩
  rw [lowRead_captures ha hl hfree]
  refine ⟨rfl, fun x => by simp [showRead], fun u hu hw => ?_⟩
  have hheld : (u.wide.any fun e => e.1 == a + 4) = true := by rw [hw]; exact any_mput _ _ _
  refine ⟨_, exec_wideLowRead hu (.inr ⟨by omega, hl⟩), ?_⟩
  rw [hostRead_eq, regRead_held (by omega) hheld]
  refine ⟨?_, rfl, fun f _ _ _ => rfl, fun x => rfl⟩
  rw [hw]
  exact congrArg (leBytes 4) (mget_mput_self _ _ _ _)

/-! ### RC fields (R18) -/

/-- Clearing a register's RC fields leaves a field under another key as it was. -/
theorem clearRc_rd_ne {g : Fld} {l : List Fld} (s : State) (h : ∀ f ∈ l, f.acc = .rc → g.key ≠ f.key) :
    (clearRc s l).rd g = s.rd g := by
  induction l generalizing s with
  | nil => rfl
  | cons f t ih =>
    rw [clearRc, ih _ fun e he => h e (List.mem_cons_of_mem _ he)]
    split
    next hf => exact rd_wr_ne s _ (h f List.mem_cons_self hf)
    next => rfl

/-- An RC field of a register reads its reset value once they are cleared. -/
theorem clearRc_rd_mem {f : Fld} {l : List Fld} (s : State) (hf : f ∈ l) (hacc : f.acc = .rc) (hrst : f.rst < 2 ^ f.w)
    (hnd : (l.map Fld.key).Nodup) : (clearRc s l).rd f = f.rst := by
  induction l generalizing s with
  | nil => simp at hf
  | cons e t ih =>
    rw [List.map_cons, List.nodup_cons] at hnd
    rw [clearRc]
    rcases List.mem_cons.mp hf with rfl | ht
    · have hne : ∀ g ∈ t, g.acc = .rc → f.key ≠ g.key := fun g hg _ he => hnd.1 (by rw [he]; exact List.mem_map_of_mem hg)
      rw [clearRc_rd_ne _ hne, if_pos hacc, rd_wr_self, Nat.mod_eq_of_lt hrst]
    · exact ih _ ht hnd.2

theorem exec_readClear {s : State} {a : Nat} {l : List Fld} (hb : busUp s = true) (hl : findReg regTable a = some l)
    (hrc : (l.any fun f => f.acc == .rc) = true) : exec (.readClear a) s = .next (hostRead s a) := by
  simp [exec, execReadClear, hb, hl, hrc]

/-- The fields after a read of a register outside the planes. -/
theorem hostRead_rd {s : State} {a : Nat} {l : List Fld} (ha : a % 4 = 0) (hfree : (s.wide.any fun e => e.1 == a) = false)
    (hp : ¬ (0x800000 ≤ a ∧ inPlanes (a - 0x800000) = true)) (hl : findReg regTable a = some l) (f : Fld) :
    (hostRead s a).rd f = (clearRc s l).rd f := by
  rw [hostRead_eq, regRead_free ha hfree]
  have hr : readOnce s a = clearRc s l := by simp only [readOnce, hl, touchPlanes_outside hp]
  rw [hr]
  refine rd_of_regs ?_ f
  cases lowOf64 a <;> rfl

/-- The fields of one register have different keys. -/
theorem findReg_keys_nodup {a : Nat} {l : List Fld} (ha : a < 0x4000000) (h : findReg regTable a = some l) : (l.map Fld.key).Nodup := by
  have hlo := findReg_nodup h
  rw [List.Nodup, List.pairwise_map] at hlo ⊢
  refine hlo.imp_of_mem fun {f g} hf hg hne he => hne ?_
  obtain ⟨haf, hlf, -⟩ := mem_findReg h hf
  obtain ⟨hag, hlg, -⟩ := mem_findReg h hg
  exact (key_inj hlf hlg (haf ▸ ha) (hag ▸ ha) he).2.2

/-- Settles O11: the fields that the read clears are the register's own RC fields, and no other field has one of their keys. -/
theorem readClears : Obligations.ReadClears := by
  intro s a l hb ha halt hfree hp hl hrc
  have hnd := findReg_keys_nodup (by omega) hl
  refine ⟨_, exec_readClear hb hl hrc, ?_, fun f hf hacc => ?_, fun f hf hacc => ?_, fun f hlo hlt hout => ?_, fun x => ?_⟩
  · rw [hostRead_eq, regRead_free ha hfree]; rfl
  · rw [hostRead_rd ha hfree hp hl, clearRc_rd_mem s hf hacc (mem_findReg hl hf).2.2 hnd]
  · rw [hostRead_rd ha hfree hp hl]
    refine clearRc_rd_ne s fun g hg hgacc he => hacc ?_
    rwa [List.inj_on_of_nodup_map hnd hf hg he]
  · rw [hostRead_rd ha hfree hp hl]
    refine clearRc_rd_ne s fun g hg _ => ?_
    obtain ⟨haddr, hglo, -⟩ := mem_findReg hl hg
    have := hout (a, a + 4) (by simp)
    exact key_ne_of_addr hlo hglo hlt (by omega) (by dsimp at this; omega)
  · rw [hostRead_eq, regRead_free ha hfree]
    simp only [showRead, setHst_mem]
    split <;> simp

end Sys2Proof.Machine
end

section
/-! PROOFS. Commands always complete, and what the machine is after power-on reset (R21). -/
namespace Sys2Proof.Machine

/-- Every arm answers a next state: each meaning is a state under `next`, so neither a fault nor a refusal. -/
theorem exec_eq_next (u : State) (c : Instr) (s : State) : exec c s = .next (nextOr u (exec c s)) := by
  cases c with
  | _ => rfl

/-- Settles O2. -/
theorem everyCommandCompletes : Obligations.EveryCommandCompletes := fun c s => ⟨_, exec_eq_next s c s⟩

/-- Settles O5: nothing is listed after reset, and what is not listed reads 0. -/
theorem resetMemory : Obligations.ResetMemory := ⟨wf_nil, rfl, fun _ => rfl⟩

/-- A field that nothing has written reads its reset value. -/
theorem rd_reset (f : Fld) : State.reset.rd f = f.rst := mget_nil f.key f.rst

/-- No pad is driven where the pad registers and the power-good bits have their reset values. -/
theorem pads_low {t : State} (hlo : t.rd R.THN_TRIP_LO_LEVEL = 0) (hhi : t.rd R.THN_TRIP_HI_LEVEL = 0)
    (hpg : t.rd R.GLB_PWRSTAT_PG = 0) : padsNow t = 0 ∧ gpoTerms t = 0 := by
  simp [padsNow, gpoTerms, State.pg, hlo, hhi, hpg]

/-- Settles O6: no field is listed after reset, and the pads follow from the fields. -/
theorem resetRegisters : Obligations.ResetRegisters := by
  obtain ⟨hpads, hgpo⟩ := pads_low (rd_reset R.THN_TRIP_LO_LEVEL) (rd_reset R.THN_TRIP_HI_LEVEL) (rd_reset R.GLB_PWRSTAT_PG)
  exact ⟨rd_reset, rfl, hpads, hgpo, fun _ => rfl, rfl, rfl⟩

end Sys2Proof.Machine
end

section
/-! PROOFS. Where the register map ends, accesses that are not an aligned word, and LOCK (R16, R18, R19, R508, R509). -/
namespace Sys2Proof.Machine

/-! ### The end of the register map -/

/-- The bytes that the copies of a register take up, by its outermost index. -/
def spanOf : List (Nat × Nat) → Nat
  | [] => 1
  | (c, st) :: _ => c * st

theorem inDims_lt_span {d : Nat} {ds : List (Nat × Nat)} (hst : ds.all (fun e => decide (0 < e.2)) = true) (h : inDims d ds = true) :
    d < spanOf ds := by
  cases ds with
  | nil =>
    simp only [inDims, beq_iff_eq] at h
    simp [spanOf, h]
  | cons e t =>
    obtain ⟨c, st⟩ := e
    simp only [inDims, List.all_cons, Bool.and_eq_true, decide_eq_true_eq] at h hst
    exact (Nat.div_lt_iff_lt_mul hst.1).mp h.1

/-- All copies of what starts at an offset with these indices lie below `b`. -/
def endsBelow (b off : Nat) (ds : List (Nat × Nat)) : Bool := ds.all (fun e => decide (0 < e.2)) && decide (off + spanOf ds ≤ b)

theorem lt_of_endsBelow {b off a : Nat} {ds : List (Nat × Nat)} (he : endsBelow b off ds = true) (hle : off ≤ a)
    (h : inDims (a - off) ds = true) : a < b := by
  simp only [endsBelow, Bool.and_eq_true, decide_eq_true_eq] at he
  have := inDims_lt_span he.1 h
  omega

theorem regTable_ends : (regTable.all fun r => endsBelow 0xFC0000 r.off r.dims) = true := by decide +kernel

theorem wideLow_ends : (wideLow.all fun e => endsBelow 0xFC0000 e.1 e.2) = true := by decide +kernel

/-- No register of the table lies at the MSI-X table or above it. -/
theorem findReg_none {a : Nat} (h : 0xFC0000 ≤ a) : findReg regTable a = none := by
  refine Option.eq_none_iff_forall_ne_some.mpr fun l hl => ?_
  obtain ⟨r, hr, hle, hd, -⟩ := findReg_some hl
  have := lt_of_endsBelow (List.all_eq_true.mp regTable_ends r hr) hle hd
  omega

theorem isWideLow_some {l : List (Nat × List (Nat × Nat))} {a : Nat} (h : isWideLow l a = true) :
    ∃ e ∈ l, e.1 ≤ a ∧ inDims (a - e.1) e.2 = true := by
  induction l with
  | nil => simp [isWideLow] at h
  | cons e t ih =>
    simp only [isWideLow, Bool.or_eq_true, Bool.and_eq_true, decide_eq_true_eq] at h
    rcases h with h | h
    · exact ⟨e, List.mem_cons_self, h⟩
    · obtain ⟨e, he, rest⟩ := ih h
      exact ⟨e, List.mem_cons_of_mem _ he, rest⟩

theorem lowOf64_none {a : Nat} (h : 0xFC0000 ≤ a) : lowOf64 a = false := by
  have hw : isWideLow wideLow a = false := by
    refine Bool.eq_false_iff.mpr fun hw => ?_
    obtain ⟨e, he, hle, hd⟩ := isWideLow_some hw
    have := lt_of_endsBelow (List.all_eq_true.mp wideLow_ends e he) hle hd
    omega
  have hp : ¬ a < 0x818000 := by omega
  simp [lowOf64, hw, hp]

theorem inPlanes_none {o : Nat} (h : 0xA0000 ≤ o) : inPlanes o = false := by
  have h1 : ¬ o < 0x18000 := by omega
  have h2 : ¬ o < 0x38000 := by omega
  have h3 : ¬ o < 0xA0000 := by omega
  simp [inPlanes, h1, h2, h3]

/-- A read of a word at or above the MSI-X table has no effect. -/
theorem busRead_msix {s : State} {a : Nat} (ha : a % 4 = 0) (hlo : 0xFC0000 ≤ a) (h : (s.wide.any fun e => e.1 == a) = false) :
    busRead s .hst a = (peek s a, s) := by
  have hp : ¬ (0x800000 ≤ a ∧ inPlanes (a - 0x800000) = true) := by
    rw [inPlanes_none (by omega)]
    simp
  have hr : readOnce s a = s := by simp only [readOnce, findReg_none hlo, touchPlanes_outside hp]
  rw [show busRead s .hst a = regRead s a from rfl, regRead_free ha h, lowOf64_none hlo, hr]
  rfl

/-! ### Accesses that are not an aligned word (R16, R509) -/

theorem padTo_nil (n : Nat) : padTo n [] = List.replicate n 0 := by
  induction n with
  | zero => rfl
  | succ n ih => rw [padTo, List.replicate_succ, List.tail_nil, ih]

theorem exec_narrow {s : State} {w : Option (BitVec 64)} {a n : Nat} (hb : busUp s = true) (h4 : ¬ (n = 4 ∧ a % 4 = 0))
    (h8 : ¬ (n = 8 ∧ a % 8 = 0 ∧ 0xFC0000 ≤ a ∧ a < 0xFC1008)) :
    exec (.bar0NarrowAccess w a n) s = .next (if w.isSome then s else showRead s (List.replicate n 0)) := by
  have hc : (!busUp s || (n == 4 && a % 4 == 0)) = false := by simpa [hb] using h4
  simp only [exec, execBar0NarrowAccess, hc, if_neg h8, padTo_nil]
  rfl

theorem exec_msixWide {s : State} {a : Nat} (w : Option (BitVec 64)) (hb : busUp s = true) (h8 : a % 8 = 0) (hlo : 0xFC0000 ≤ a)
    (hhi : a < 0xFC1008) : exec (.bar0NarrowAccess w a 8) s = .next (msixWide w a s) := by
  simp [exec, execBar0NarrowAccess, hb, h8, hlo, hhi]

theorem msixWide_read {s : State} {a : Nat} (h8 : a % 8 = 0) (hlo : 0xFC0000 ≤ a)
    (h : (s.wide.any fun e => e.1 == a || e.1 == a + 4) = false) :
    msixWide none a s = showRead s (leBytes 4 (peek s a) ++ leBytes 4 (peek s (a + 4))) := by
  have hl : (s.wide.any fun e => e.1 == a) = false := by
    simp only [List.any_eq_false, Bool.or_eq_true, not_or] at h ⊢
    exact fun e he => (h e he).1
  have hh : (s.wide.any fun e => e.1 == a + 4) = false := by
    simp only [List.any_eq_false, Bool.or_eq_true, not_or] at h ⊢
    exact fun e he => (h e he).2
  simp only [msixWide, busRead_msix (by omega : a % 4 = 0) hlo hl, busRead_msix (by omega : (a + 4) % 4 = 0) (by omega) hh]

/-! ### LOCK (R18, R19) -/

/-- Every LOCK field is one bit wide. -/
theorem lockFlds_width {f : Fld} (h : f ∈ lockFlds) : f.w = 1 := by
  have hall : (lockFlds.all fun f => f.w == 1) = true := by decide
  simpa using List.all_eq_true.mp hall f h

/-- A register of a block whose LOCK is set is locked. -/
theorem locked_of_lock {s : State} {a : Nat} {f : Fld} (hl : lockAt (ctlAddr a) = some f) : locked s a = s.on f := by
  simp only [locked, hl]

theorem exec_blockLock {s : State} {k : Fin 23} {f : Fld} (hf : lockFlds[k.val]? = some f) (hb : busUp s = true)
    (hp : s.pg (regPd f.addr) = true) : exec (.blockLock k) s = .next (s.wr f 1) := by
  simp [exec, execBlockLock, hf, hb, hp]

theorem on_wr_one {f : Fld} (hw : f.w = 1) (s : State) : (s.wr f 1).on f = true := by simp [State.on, hw]

/-- Settles O9: a narrow access has no case but zeros, the table's wide one is its two words, and a locked block's RWL field is left. -/
theorem narrowAccessAndLock : Obligations.NarrowAccessAndLock := by
  refine ⟨fun s w a n hb h4 h8 => exec_narrow hb h4 h8, fun s a hb h8 hlo hhi => ⟨fun v => ?_, fun hw => ?_⟩,
    fun s k f hf hb hp => ?_⟩
  · rw [exec_msixWide (some v) hb h8 hlo hhi, msixWide]
  · refine ⟨_, exec_msixWide none hb h8 hlo hhi, ?_⟩
    rw [msixWide_read h8 hlo hw]
    exact ⟨rfl, fun _ => rfl⟩
  · have hw := lockFlds_width (List.mem_of_getElem? hf)
    have hon := on_wr_one hw s
    refine ⟨_, exec_blockLock hf hb hp, rfl, hon, fun g hg hl v => ?_⟩
    rw [locked_of_lock hl, hon, putField_rwl true v _ hg]
    rfl

end Sys2Proof.Machine
end

section
/-! PROOFS. Writes of registers (R16, R20, R29): what reaches a register, the operations that a write starts, and denied writes. -/
namespace Sys2Proof.Machine

/-! ### Privet's protected registers (R430) -/

/-- Does no protected field of Privet lie at `a`? -/
def unprotected (a : Nat) : Bool := protectedFlds.all fun f => f.addr != a

theorem prvRewrite_unprotected {a : Nat} (h : unprotected a = true) (s : State) : prvRewrite s a = s := by
  have hk : (protectedFlds.filter fun f => f.addr == a) = [] := by
    simpa [unprotected, List.filter_eq_nil_iff] using h
  simp [prvRewrite, hk]

theorem prvWritten_unprotected {a : Nat} (h : unprotected a = true) (s : State) : prvWritten s a = s := by
  rw [prvWritten, prvRewrite_unprotected h, ite_self]

@[simp] theorem prvWritten_mem (s : State) (a : Nat) : (prvWritten s a).mem = s.mem := by
  unfold prvWritten
  split <;> rfl

theorem protectedFlds_listed : (protectedFlds.all fun f => (findReg regTable f.addr).isSome) = true := by decide +kernel

/-- A protected field lies in a register of the table. -/
theorem unprotected_of_findReg_none {a : Nat} (h : findReg regTable a = none) : unprotected a = true := by
  refine List.all_eq_true.mpr fun f hf => bne_iff_ne.mpr fun he => ?_
  have := List.all_eq_true.mp protectedFlds_listed f hf
  rw [he, h] at this
  exact Bool.false_ne_true this

/-! ### A word that reaches a register -/

@[simp] theorem putWord_mem (s : State) (a v : Nat) : (putWord s a v).mem = s.mem :=
  List.foldlRecOn (motive := fun t : State => t.mem = s.mem) _ _ rfl fun t ht f _ => (putField_mem _ v t f).trans ht

theorem putWord_unlisted {a : Nat} (h : findReg regTable a = none) (s : State) (v : Nat) : putWord s a v = s := by
  simp [putWord, h]

theorem exec_registerWrite {s : State} {i : Ini} {a : Nat} (v : BitVec 32) (hb : busUp s = true) (ha : a % 4 = 0) :
    exec (.registerWrite i a v) s = .next (busWrite s i a v.toNat) := by
  simp [exec, execRegisterWrite, hb, ha]

theorem busWrite_gap {s : State} {i : Ini} {a : Nat} (v : Nat) (h : isGap a = true) : busWrite s i a v = s := by
  simp [busWrite, h]

/-- A write by an initiator with the right to it reaches the register; the load engine's has its own meaning. -/
theorem busWrite_granted {s : State} {i : Ini} {a : Nat} (v : Nat) (hg : isGap a = false) (hw : mayWriteReg s i a = true)
    (hi : i ≠ .load) : busWrite s i a v = writeReg s a v := by
  simp only [busWrite, hg, hw]
  cases i with
  | load => exact absurd rfl hi
  | _ => rfl

theorem busWrite_denied {s : State} {i : Ini} {a : Nat} (v : Nat) (hg : isGap a = false) (hw : mayWriteReg s i a = false) :
    busWrite s i a v = denied s i true a := by
  simp [busWrite, hg, hw]

theorem writeReg_powered {s : State} {a : Nat} (v : Nat) (ha : a % 4 = 0) (hlt : a < 0x1000000) (hp : s.pg (regPd a) = true) :
    writeReg s a v = prvWritten ((wrSpecial s a v).getD (putWord s a v)) a := by
  have hc : ¬ (a % 4 ≠ 0 ∨ 0x1000000 ≤ a) := by omega
  simp [writeReg, if_neg hc, hp]

theorem findReg_none_of_gap {a : Nat} (ha : a % 4 = 0) (hlt : a < 0x1000000) (h : isGap a = true) : findReg regTable a = none := by
  have hd : a / 4 * 4 = a := by omega
  have hn : ¬ 0x1000000 ≤ a := by omega
  simp only [isGap, hd, hn, decide_false, Bool.false_or, Bool.and_eq_true, Option.isNone_iff_eq_none] at h
  exact h.1.1.1

/-- What a granted write of a register that starts nothing else leaves. -/
theorem busWrite_plain {s : State} {i : Ini} {a : Nat} {v : Nat} (ha : a % 4 = 0) (hlt : a < 0x1000000) (hp : s.pg (regPd a) = true)
    (hw : mayWriteReg s i a = true) (hi : i ≠ .load) (hs : wrSpecial s a v = none) :
    busWrite s i a v = prvWritten (putWord s a v) a := by
  cases hg : isGap a with
  | true =>
    have hn := findReg_none_of_gap ha hlt hg
    rw [busWrite_gap v hg, putWord_unlisted hn, prvWritten_unprotected (unprotected_of_findReg_none hn)]
  | false => rw [busWrite_granted v hg hw hi, writeReg_powered v ha hlt hp, hs, Option.getD_none]

/-! ### The operations that the host's writes start -/

/-- Is there a register at `a`, and is it none of Privet's protected ones? -/
def opReg (a : Nat) : Bool := a % 4 == 0 && decide (a < 0x1000000) && (findReg regTable a).isSome && unprotected a

/-- The host's write of a register that starts an operation leaves what the operation leaves. -/
theorem hostWrite_op {s t : State} {a : Nat} {v : BitVec 32} (hr : opReg a = true) (hb : busUp s = true) (hp : s.pg (regPd a) = true)
    (hw : mayWriteReg s .hst a = true) (hs : wrSpecial s a v.toNat = some t) : exec (.registerWrite .hst a v) s = .next t := by
  simp only [opReg, Bool.and_eq_true, beq_iff_eq, decide_eq_true_eq] at hr
  obtain ⟨⟨⟨ha, hlt⟩, hl⟩, hu⟩ := hr
  have hg : isGap a = false := by
    refine Bool.eq_false_iff.mpr fun hg => ?_
    rw [findReg_none_of_gap ha hlt hg] at hl
    exact Bool.false_ne_true hl
  rw [exec_registerWrite v hb ha, busWrite_granted _ hg hw (by decide), writeReg_powered _ ha hlt hp, hs, Option.getD_some,
    prvWritten_unprotected hu]

/-- Where the operation is the one of a command's row, the write does what the command does. -/
theorem hostWrite_command {s t u : State} {a : Nat} {v : BitVec 32} {c : Instr} (hr : opReg a = true) (hb : busUp s = true)
    (hp : s.pg (regPd a) = true) (hw : mayWriteReg s .hst a = true) (hs : wrSpecial s a v.toNat = some (nextOr u (exec c t))) :
    exec (.registerWrite .hst a v) s = exec c t := by
  rw [hostWrite_op hr hb hp hw hs, ← exec_eq_next u c t]

end Sys2Proof.Machine
end

section
/-! PROOFS. The rows whose command a host write starts (R20): what each write of `wrSpecial` does. -/
namespace Sys2Proof.Machine

/-! ### Copies of indexed registers -/

theorem copyAt_hit {b st n k : Nat} (hst : 0 < st) (hk : k < n) : copyAt (b + st * k) b st n = some k := by
  simp [copyAt, hst, hk]

theorem copyAt_miss {a b st n : Nat} (h : (a - b) % st ≠ 0 ∨ n ≤ (a - b) / st) : copyAt a b st n = none := by
  refine if_neg fun hc => ?_
  obtain ⟨-, hm, hd⟩ := hc
  omega

@[simp] theorem ix_val {n : Nat} (k : Fin n) (h : 0 < n) : ix n k.val h = k := Fin.ext (Nat.mod_eq_of_lt k.isLt)

/-! ### One word, one command -/

/-- The requests of single registers: offset, word, command. -/
def requestRows : List (Nat × Nat × Instr) :=
  [(0x8, 0x80000000, .sysreq), (0x100020, 0x80000000, .firstFaultRearm), (0x200028, 1, .yewClearGo),
    (0x300C4C, 1, .tciPop), (0x70000C, 1, .dchLoadOpen), (0x70000C, 2, .dchLoadCommit), (0xA00044, 1, .binEventPop),
    (0xD0001C, 1, .attest), (0xD0001C, 3, .stage), (0xD0001C, 4, .enroll), (0xD0001C, 5, .keyload), (0xD0001C, 6, .keyclr)]

theorem requestRows_opReg : (requestRows.all fun e => opReg e.1 && decide (e.2.1 < 2 ^ 32)) = true := by decide +kernel

theorem wrSpecial_requestRows (s : State) : ∀ e ∈ requestRows, wrSpecial s e.1 e.2.1 = some (nextOr s (exec e.2.2 s)) := by
  simp only [requestRows, List.forall_mem_cons, List.not_mem_nil, false_imp_iff, implies_true, and_true]
  exact ⟨rfl, rfl, rfl, rfl, rfl, rfl, rfl, rfl, rfl, rfl, rfl, rfl⟩

/-! ### Copies of registers: TIM, SVI, DCH, ELC, SCH, REC -/

theorem wrSpecial_midLo (s : State) (b : Fin 4) (v : Nat) : wrSpecial s (0x300130 + 0x40 * b.val) v =
    some (nextOr s (execMasterSelect b .midLo (BitVec.ofNat 32 v) s)) := by
  have hblk : (0x300130 + 0x40 * b.val) / 0x100000 = 3 := by omega
  have ho : 0x300130 + 0x40 * b.val - 0x300000 = 0x130 + 0x40 * b.val := by omega
  simp (disch := omega) only [wrSpecial, hblk, wrTim, ho, if_neg, copyAt_miss, copyAt_hit, Option.map_none, Option.map_some, ix_val]
  rfl

theorem wrSpecial_tbCtl (s : State) (u : Fin 4) (v : Nat) : wrSpecial s (0x300104 + 0x40 * u.val) v = some (wrTbCtl s v u.val) := by
  have hblk : (0x300104 + 0x40 * u.val) / 0x100000 = 3 := by omega
  have ho : 0x300104 + 0x40 * u.val - 0x300000 = 0x104 + 0x40 * u.val := by omega
  simp (disch := omega) only [wrSpecial, hblk, wrTim, ho, if_neg, copyAt_miss, copyAt_hit]
  rfl

theorem wrSpecial_tpoCtl (s : State) (m : Fin 8) (v : Nat) : wrSpecial s (0x300804 + 0x20 * m.val) v = some (wrTpoCtl s v m.val) := by
  have hblk : (0x300804 + 0x20 * m.val) / 0x100000 = 3 := by omega
  have ho : 0x300804 + 0x20 * m.val - 0x300000 = 0x804 + 0x20 * m.val := by omega
  simp (disch := omega) only [wrSpecial, hblk, wrTim, ho, if_neg, copyAt_miss, copyAt_hit]
  rfl

theorem wrSpecial_svCfg (s : State) (n : Fin 64) (v : Nat) : wrSpecial s (0x501000 + 0x40 * n.val) v =
    some (nextOr s (execSvSubConfigWrite n .cfg (BitVec.ofNat 32 v) s)) := by
  have hblk : (0x501000 + 0x40 * n.val) / 0x100000 = 5 := by omega
  have ho : 0x501000 + 0x40 * n.val - 0x500000 = 0x1000 + 0x40 * n.val := by omega
  simp (disch := omega) only [wrSpecial, hblk, wrSvi, ho, if_neg, svRegs, List.findSome?_cons, copyAt_hit, ix_val, Option.map_some]
  rfl

theorem wrSpecial_svMap (s : State) (m : Fin 192) (v : Nat) : wrSpecial s (0x504000 + 4 * m.val) v =
    some (nextOr s (execSvMapWrite m (v.testBit 31) (ix 64 (v / 0x10000)) (ix 32 v) s)) := by
  have hblk : (0x504000 + 4 * m.val) / 0x100000 = 5 := by omega
  have ho : 0x504000 + 4 * m.val - 0x500000 = 0x4000 + 4 * m.val := by omega
  simp (disch := omega) only [wrSpecial, hblk, wrSvi, ho, if_neg, svRegs, List.findSome?_cons, copyAt_miss, copyAt_hit, List.findSome?_nil, Option.map_none, Option.map_some, ix_val]
  rfl

theorem wrSpecial_chainCtl (s : State) (q : Fin 48) (v : Nat) : wrSpecial s (0x701000 + 0x40 * q.val) v = some (wrChainCtl s v q.val) := by
  have hblk : (0x701000 + 0x40 * q.val) / 0x100000 = 7 := by omega
  have ho : 0x701000 + 0x40 * q.val - 0x700000 = 0x1000 + 0x40 * q.val := by omega
  simp (disch := omega) only [wrSpecial, hblk, wrDch, ho, if_neg, copyAt_hit]
  rfl

theorem wrSpecial_rsCtl (s : State) (p : Fin 192) (v : Nat) : wrSpecial s (0x704000 + 0x40 * p.val) v = some (wrRsCtl s v p.val) := by
  have hblk : (0x704000 + 0x40 * p.val) / 0x100000 = 7 := by omega
  have ho : 0x704000 + 0x40 * p.val - 0x700000 = 0x4000 + 0x40 * p.val := by omega
  simp (disch := omega) only [wrSpecial, hblk, wrDch, ho, if_neg, copyAt_miss, copyAt_hit]
  rfl

theorem wrSpecial_bayMode (s : State) (n : Fin 8) (j : Fin 3) (v : Nat) :
    wrSpecial s (0x900100 + 0x10000 * n.val + 0x20 * j.val) v = some (hostMode s n.val j.val (v % 8)) := by
  have hblk : (0x900100 + 0x10000 * n.val + 0x20 * j.val) / 0x100000 = 9 := by omega
  have hn : (0x900100 + 0x10000 * n.val + 0x20 * j.val) % 0x100000 / 0x10000 = n.val := by omega
  have ho : (0x900100 + 0x10000 * n.val + 0x20 * j.val) % 0x10000 = 0x100 + 0x20 * j.val := by omega
  simp (disch := omega) only [wrSpecial, hblk, wrElc, hn, ho, if_neg, copyAt_hit]
  rfl

theorem wrSpecial_bayGroup (s : State) (n : Fin 8) (j : Fin 3) (v : Nat) :
    wrSpecial s (0x900104 + 0x10000 * n.val + 0x20 * j.val) v =
      some (groupRequest (putField false v s (R.ELCn_BAYj_SG_SG_REFUSED n.val j.val)) n.val j.val (v % 8)) := by
  have hblk : (0x900104 + 0x10000 * n.val + 0x20 * j.val) / 0x100000 = 9 := by omega
  have hn : (0x900104 + 0x10000 * n.val + 0x20 * j.val) % 0x100000 / 0x10000 = n.val := by omega
  have ho : (0x900104 + 0x10000 * n.val + 0x20 * j.val) % 0x10000 = 0x104 + 0x20 * j.val := by omega
  simp (disch := omega) only [wrSpecial, hblk, wrElc, hn, ho, if_neg, copyAt_miss, copyAt_hit]
  rfl

theorem wrSpecial_taskAct (s : State) (k : Fin 16) (v : Nat) : wrSpecial s (0xB01018 + 0x20 * k.val) v =
    some (if v.testBit 0 then nextOr s (execTaskHostActivate k s) else s) := by
  have hblk : (0xB01018 + 0x20 * k.val) / 0x100000 = 11 := by omega
  have ho : 0xB01018 + 0x20 * k.val - 0xB00000 = 0x1018 + 0x20 * k.val := by omega
  simp (disch := omega) only [wrSpecial, hblk, wrSch, ho, if_neg, copyAt_hit, Option.map_some, ix_val]

theorem wrSpecial_auCtl (s : State) (u : Fin 4) (v : Nat) : wrSpecial s (0xC00100 + 0x100 * u.val) v = some (wrAuCtl s v u.val) := by
  have hblk : (0xC00100 + 0x100 * u.val) / 0x100000 = 12 := by omega
  have ho : 0xC00100 + 0x100 * u.val - 0xC00000 = 0x100 + 0x100 * u.val := by omega
  simp (disch := omega) only [wrSpecial, hblk, wrRec, ho, copyAt_hit]
  rfl

end Sys2Proof.Machine
end

section
/-! PROOFS. Register writes, put together: plain writes, requests, denials (R16, R20, R29). -/
namespace Sys2Proof.Machine

/-! ### Where the registers of the named rows lie -/

theorem findReg_isSome {l : List RegDef} {r : RegDef} {a : Nat} (hr : r ∈ l) (hle : r.off ≤ a) (hd : inDims (a - r.off) r.dims = true) :
    (findReg l a).isSome = true := by
  induction l with
  | nil => simp at hr
  | cons e t ih =>
    rw [findReg]
    split
    next => rfl
    next hne =>
      rcases List.mem_cons.mp hr with rfl | ht
      · simp [hle, hd] at hne
      · exact ih ht

theorem protectedFlds_block : (protectedFlds.all fun f => f.addr / 0x100000 == 1) = true := by decide

theorem unprotected_of_block {a : Nat} (h : a / 0x100000 ≠ 1) : unprotected a = true := by
  refine List.all_eq_true.mpr fun f hf => bne_iff_ne.mpr fun he => h ?_
  have := List.all_eq_true.mp protectedFlds_block f hf
  rwa [he, beq_iff_eq] at this

/-- A copy of a register that the table lists, outside Privet. -/
theorem opReg_listed {o a : Nat} {ds : List (Nat × Nat)} (ht : (regTable.any fun r => r.off == o && r.dims == ds) = true) (hle : o ≤ a)
    (hd : inDims (a - o) ds = true) (ha : a % 4 = 0) (hlt : a < 0x1000000) (hb : a / 0x100000 ≠ 1) : opReg a = true := by
  obtain ⟨r, hr, he⟩ := List.any_eq_true.mp ht
  simp only [Bool.and_eq_true, beq_iff_eq] at he
  obtain ⟨rfl, rfl⟩ := he
  simp [opReg, ha, hlt, findReg_isSome hr hle hd, unprotected_of_block hb]

theorem inDims_one {n st k : Nat} (hst : 0 < st) (hk : k < n) : inDims (st * k) [(n, st)] = true := by simp [inDims, hst, hk]

theorem opReg_copy {o n st k : Nat} (ht : (regTable.any fun r => r.off == o && r.dims == [(n, st)]) = true) (hst : 0 < st) (hk : k < n)
    (ha : (o + st * k) % 4 = 0) (hlt : o + st * k < 0x1000000) (hb : (o + st * k) / 0x100000 ≠ 1) : opReg (o + st * k) = true :=
  opReg_listed ht (Nat.le_add_right _ _) (by rw [Nat.add_sub_cancel_left]; exact inDims_one hst hk) ha hlt hb

theorem opReg_bay (n : Fin 8) (j : Fin 3) {o : Nat} (ho : o = 0x900100 ∨ o = 0x900104) :
    opReg (o + 0x10000 * n.val + 0x20 * j.val) = true := by
  have ht : (regTable.any fun r => r.off == o && r.dims == [(8, 0x10000), (3, 0x20)]) = true := by
    rcases ho with rfl | rfl <;> decide +kernel
  refine opReg_listed ht (by omega) ?_ (by omega) (by omega) (by omega)
  have h1 : (o + 0x10000 * n.val + 0x20 * j.val - o) / 0x10000 = n.val := by omega
  have h2 : (o + 0x10000 * n.val + 0x20 * j.val - o) % 0x10000 = 0x20 * j.val := by omega
  simp [inDims, h1, h2]

theorem opReg_task (k : Fin 16) : opReg (0xB01018 + 0x20 * k.val) = true :=
  opReg_copy (by decide +kernel) (by decide) k.isLt (by omega) (by omega) (by omega)
theorem opReg_tbCtl (u : Fin 4) : opReg (0x300104 + 0x40 * u.val) = true :=
  opReg_copy (by decide +kernel) (by decide) u.isLt (by omega) (by omega) (by omega)
theorem opReg_midLo (b : Fin 4) : opReg (0x300130 + 0x40 * b.val) = true :=
  opReg_copy (by decide +kernel) (by decide) b.isLt (by omega) (by omega) (by omega)
theorem opReg_tpo (m : Fin 8) : opReg (0x300804 + 0x20 * m.val) = true :=
  opReg_copy (by decide +kernel) (by decide) m.isLt (by omega) (by omega) (by omega)
theorem opReg_au (u : Fin 4) : opReg (0xC00100 + 0x100 * u.val) = true :=
  opReg_copy (by decide +kernel) (by decide) u.isLt (by omega) (by omega) (by omega)
theorem opReg_chain (q : Fin 48) : opReg (0x701000 + 0x40 * q.val) = true :=
  opReg_copy (by decide +kernel) (by decide) q.isLt (by omega) (by omega) (by omega)
theorem opReg_resampler (p : Fin 192) : opReg (0x704000 + 0x40 * p.val) = true :=
  opReg_copy (by decide +kernel) (by decide) p.isLt (by omega) (by omega) (by omega)
theorem opReg_svSub (n : Fin 64) : opReg (0x501000 + 0x40 * n.val) = true :=
  opReg_copy (by decide +kernel) (by decide) n.isLt (by omega) (by omega) (by omega)
theorem opReg_svMap (m : Fin 192) : opReg (0x504000 + 4 * m.val) = true :=
  opReg_copy (by decide +kernel) (by decide) m.isLt (by omega) (by omega) (by omega)
theorem opReg_single : ∀ a ∈ [0x14, 0x200044, 0x700008, 0x100014, 0xA0001C], opReg a = true := by decide +kernel

/-! ### Their power domains (R22) -/

theorem regPd_tim {a : Nat} (h : a / 0x100000 = 3) : regPd a = 8 := by simp only [regPd, h]
theorem regPd_svi {a : Nat} (h : a / 0x100000 = 5) : regPd a = 8 := by simp only [regPd, h]
theorem regPd_dch {a : Nat} (h : a / 0x100000 = 7) : regPd a = 1 := by simp only [regPd, h]
theorem regPd_sch {a : Nat} (h : a / 0x100000 = 11) : regPd a = 6 := by simp only [regPd, h]
theorem regPd_rec {a : Nat} (h : a / 0x100000 = 12) : regPd a = 11 := by simp only [regPd, h]
theorem regPd_bay (n : Fin 8) (j : Fin 3) {o : Nat} (ho : o = 0x900100 ∨ o = 0x900104) :
    regPd (o + 0x10000 * n.val + 0x20 * j.val) = 2 + n.val / 2 := by
  have h : (o + 0x10000 * n.val + 0x20 * j.val) / 0x100000 = 9 := by omega
  simp only [regPd, h]
  omega

theorem busUp_pg {s : State} (h : busUp s = true) : s.pg 11 = true := by
  simp only [busUp, Bool.and_eq_true] at h
  exact h.2

/-! ### A plain write, and the requests of single registers -/

/-- A granted write of a register that starts nothing else. -/
theorem write_plain {s : State} {i : Ini} {a : Nat} {v : BitVec 32} (hb : busUp s = true) (ha : a % 4 = 0) (hlt : a < 0x1000000)
    (hp : s.pg (regPd a) = true) (hw : mayWriteReg s i a = true) (hi : i ≠ .load) (hs : wrSpecial s a v.toNat = none) :
    Runs (.registerWrite i a v) s fun t =>
      t = prvWritten (putWord s a v.toNat) a ∧ SameBytes s t ∧ (findReg regTable a = none → t = s) := by
  refine ⟨_, exec_registerWrite v hb ha, ?_⟩
  rw [busWrite_plain ha hlt hp hw hi hs]
  refine ⟨rfl, fun x => by rw [prvWritten_mem, putWord_mem], fun hn => ?_⟩
  rw [putWord_unlisted hn, prvWritten_unprotected (unprotected_of_findReg_none hn)]

/-- The requests of single registers are the commands of their rows. -/
theorem write_request {s : State} {a v : Nat} {c : Instr} (hb : busUp s = true) (hp : s.pg (regPd a) = true)
    (hw : mayWriteReg s .hst a = true) (h : (a, v, c) ∈ requestRows) :
    exec (.registerWrite .hst a (BitVec.ofNat 32 v)) s = exec c s := by
  have hr := List.all_eq_true.mp requestRows_opReg _ h
  simp only [Bool.and_eq_true, decide_eq_true_eq] at hr
  have hv : (BitVec.ofNat 32 v).toNat = v := by rw [BitVec.toNat_ofNat, Nat.mod_eq_of_lt hr.2]
  exact hostWrite_command (u := s) hr.1 hb hp hw (by rw [hv]; exact wrSpecial_requestRows s _ h)

/-! ### The requests of indexed registers -/

/-- Below the bits of a mode or group, a word is its number. -/
theorem toNat_fin8 (m : Fin 8) : (BitVec.ofNat 32 m.val).toNat = m.val := by
  rw [BitVec.toNat_ofNat]
  omega

section Rows
variable {s : State} (hb : busUp s = true)
include hb

theorem write_bayMode (n : Fin 8) (j : Fin 3) (m : Fin 8) (hp : s.pg (2 + n.val / 2) = true)
    (hw : mayWriteReg s .hst (0x900100 + 0x10000 * n.val + 0x20 * j.val) = true) :
    exec (.registerWrite .hst (0x900100 + 0x10000 * n.val + 0x20 * j.val) (BitVec.ofNat 32 m.val)) s = exec (.bayModeRequest n j m) s := by
  refine hostWrite_command (u := s) (opReg_bay n j (.inl rfl)) hb (by rwa [regPd_bay n j (.inl rfl)]) hw ?_
  rw [wrSpecial_bayMode, toNat_fin8, Nat.mod_eq_of_lt m.isLt]
  rfl

theorem write_bayGroup (n : Fin 8) (j : Fin 3) (m : Fin 8) (hp : s.pg (2 + n.val / 2) = true)
    (hw : mayWriteReg s .hst (0x900104 + 0x10000 * n.val + 0x20 * j.val) = true) :
    exec (.registerWrite .hst (0x900104 + 0x10000 * n.val + 0x20 * j.val) (BitVec.ofNat 32 m.val)) s =
      exec (.settingGroupRequest n j m) (putField false m.val s (R.ELCn_BAYj_SG_SG_REFUSED n.val j.val)) := by
  refine hostWrite_command (u := s) (opReg_bay n j (.inr rfl)) hb (by rwa [regPd_bay n j (.inr rfl)]) hw ?_
  rw [wrSpecial_bayGroup, toNat_fin8, Nat.mod_eq_of_lt m.isLt]
  rfl

theorem write_taskAct (k : Fin 16) (hp : s.pg 6 = true) (hw : mayWriteReg s .hst (0xB01018 + 0x20 * k.val) = true) :
    exec (.registerWrite .hst (0xB01018 + 0x20 * k.val) 1) s = exec (.taskHostActivate k) s := by
  refine hostWrite_command (u := s) (opReg_task k) hb (by rwa [regPd_sch (by omega)]) hw ?_
  rw [wrSpecial_taskAct]
  rfl

theorem write_tbCtl (u : Fin 4) (hp : s.pg 8 = true) (hw : mayWriteReg s .hst (0x300104 + 0x40 * u.val) = true) :
    exec (.registerWrite .hst (0x300104 + 0x40 * u.val) 0x80000000) s = exec (.baseReacquire u) s ∧
    exec (.registerWrite .hst (0x300104 + 0x40 * u.val) 0x40000000) s = exec (.baseSet u) s := by
  have hpd : s.pg (regPd (0x300104 + 0x40 * u.val)) = true := by rwa [regPd_tim (by omega)]
  refine ⟨hostWrite_command (u := s) (opReg_tbCtl u) hb hpd hw ?_, hostWrite_command (u := s) (opReg_tbCtl u) hb hpd hw ?_⟩ <;>
    rw [wrSpecial_tbCtl, wrTbCtl, ix_val] <;> rfl

theorem write_tpoCtl (m : Fin 8) (hp : s.pg 8 = true) (hw : mayWriteReg s .hst (0x300804 + 0x20 * m.val) = true) :
    exec (.registerWrite .hst (0x300804 + 0x20 * m.val) 0x80000000) s = exec (.tpoArm m) s ∧
    exec (.registerWrite .hst (0x300804 + 0x20 * m.val) 0x40000000) s = exec (.tpoDisarm m) s := by
  have hpd : s.pg (regPd (0x300804 + 0x20 * m.val)) = true := by rwa [regPd_tim (by omega)]
  refine ⟨hostWrite_command (u := s) (opReg_tpo m) hb hpd hw ?_, hostWrite_command (u := s) (opReg_tpo m) hb hpd hw ?_⟩ <;>
    rw [wrSpecial_tpoCtl, wrTpoCtl, ix_val] <;> rfl

theorem write_auCtl (u : Fin 4) (hw : mayWriteReg s .hst (0xC00100 + 0x100 * u.val) = true) :
    exec (.registerWrite .hst (0xC00100 + 0x100 * u.val) 0x40000000) s = exec (.recDisarm u) s ∧
    exec (.registerWrite .hst (0xC00100 + 0x100 * u.val) 0x20000000) s = exec (.recHostTrigger u) s := by
  have hpd : s.pg (regPd (0xC00100 + 0x100 * u.val)) = true := by rw [regPd_rec (by omega)]; exact busUp_pg hb
  refine ⟨hostWrite_command (u := s) (opReg_au u) hb hpd hw ?_, hostWrite_command (u := s) (opReg_au u) hb hpd hw ?_⟩ <;>
    rw [wrSpecial_auCtl, wrAuCtl, ix_val] <;> rfl

theorem write_chainCtl (q : Fin 48) (hp : s.pg 1 = true) (hw : mayWriteReg s .hst (0x701000 + 0x40 * q.val) = true) :
    exec (.registerWrite .hst (0x701000 + 0x40 * q.val) 0x80000000) s = exec (.chainRunSet q) s ∧
    exec (.registerWrite .hst (0x701000 + 0x40 * q.val) 0) s = exec (.chainRunClear q) s := by
  have hpd : s.pg (regPd (0x701000 + 0x40 * q.val)) = true := by rwa [regPd_dch (by omega)]
  refine ⟨hostWrite_command (u := s) (opReg_chain q) hb hpd hw ?_, hostWrite_command (u := s) (opReg_chain q) hb hpd hw ?_⟩ <;>
    rw [wrSpecial_chainCtl, wrChainCtl, ix_val] <;> rfl

theorem write_rsCtl (p : Fin 192) (hp : s.pg 1 = true) (hw : mayWriteReg s .hst (0x704000 + 0x40 * p.val) = true) :
    exec (.registerWrite .hst (0x704000 + 0x40 * p.val) 0x80000000) s = exec (.resamplerRunSet p) s ∧
    exec (.registerWrite .hst (0x704000 + 0x40 * p.val) 0) s = exec (.resamplerRunClear p) s := by
  have hpd : s.pg (regPd (0x704000 + 0x40 * p.val)) = true := by rwa [regPd_dch (by omega)]
  refine ⟨hostWrite_command (u := s) (opReg_resampler p) hb hpd hw ?_, hostWrite_command (u := s) (opReg_resampler p) hb hpd hw ?_⟩ <;>
    rw [wrSpecial_rsCtl, wrRsCtl, ix_val] <;> rfl

/-! ### Words that are handed to a command whole -/

theorem write_power (v : BitVec 32) (hp : s.pg 0 = true) (hw : mayWriteReg s .hst 0x14 = true) (hv : v.toNat / 2 ^ 30 < 3) :
    exec (.registerWrite .hst 0x14 v) s = exec (if v.toNat / 2 ^ 30 = 0 then .runRequest else if v.toNat / 2 ^ 30 = 1 then .standbyRequest
      else .hibernateRequest) (putField false v.toNat s R.GLB_PWR_REFUSED_STK) := by
  have hs : wrSpecial s 0x14 v.toNat =
      some (powerRequest (putField false v.toNat s R.GLB_PWR_REFUSED_STK) (v.toNat / 2 ^ 30 % 4)) := rfl
  refine hostWrite_command (u := s) (opReg_single _ (by simp)) hb hp hw ?_
  rw [hs]
  generalize v.toNat / 2 ^ 30 = r at hv
  match r, hv with
  | 0, _ | 1, _ | 2, _ => rfl

theorem write_yewFetch (v : BitVec 32) (hp : s.pg 0 = true) (hw : mayWriteReg s .hst 0x200044 = true) (hv : v.getLsbD 31 = true) :
    exec (.registerWrite .hst 0x200044 v) s = exec .yewFetch (putWord s 0x200044 v.toNat) := by
  have hs : wrSpecial s 0x200044 v.toNat = some (if v.getLsbD 31 then
      nextOr (putWord s 0x200044 v.toNat) (execYewFetch (putWord s 0x200044 v.toNat)) else putWord s 0x200044 v.toNat) := rfl
  exact hostWrite_command (opReg_single _ (by simp)) hb hp hw (by rw [hs, if_pos hv]; rfl)

theorem write_loadData (v : BitVec 32) (hp : s.pg 1 = true) (hw : mayWriteReg s .hst 0x700008 = true) :
    exec (.registerWrite .hst 0x700008 v) s = exec (.dchLoadData v) s := by
  have hs : wrSpecial s 0x700008 v.toNat = some (nextOr s (execDchLoadData (BitVec.ofNat 32 v.toNat) s)) := rfl
  exact hostWrite_command (opReg_single _ (by simp)) hb hp hw (by rw [hs, BitVec.ofNat_toNat, BitVec.setWidth_eq]; rfl)

theorem write_bayBlockClear (v : BitVec 32) (hp : s.pg 0 = true) (hw : mayWriteReg s .hst 0x100014 = true) :
    exec (.registerWrite .hst 0x100014 v) s = exec (.bayBlockClear (BitVec.ofNat 24 v.toNat)) s :=
  hostWrite_command (u := s) (opReg_single _ (by simp)) hb hp hw rfl

theorem write_gpoHost (v : BitVec 32) (hp : s.pg 1 = true) (hw : mayWriteReg s .hst 0xA0001C = true) :
    exec (.registerWrite .hst 0xA0001C v) s = exec (.gpoHostWrite (BitVec.ofNat 16 v.toNat)) s :=
  hostWrite_command (u := s) (opReg_single _ (by simp)) hb hp hw rfl

theorem write_midLo (b : Fin 4) (v : BitVec 32) (hp : s.pg 8 = true) (hw : mayWriteReg s .hst (0x300130 + 0x40 * b.val) = true) :
    exec (.registerWrite .hst (0x300130 + 0x40 * b.val) v) s = exec (.masterSelect b .midLo v) s := by
  refine hostWrite_command (u := s) (opReg_midLo b) hb (by rwa [regPd_tim (by omega)]) hw ?_
  rw [wrSpecial_midLo, BitVec.ofNat_toNat, BitVec.setWidth_eq]
  rfl

theorem write_svCfg (n : Fin 64) (v : BitVec 32) (hp : s.pg 8 = true) (hw : mayWriteReg s .hst (0x501000 + 0x40 * n.val) = true) :
    exec (.registerWrite .hst (0x501000 + 0x40 * n.val) v) s = exec (.svSubConfigWrite n .cfg v) s := by
  refine hostWrite_command (u := s) (opReg_svSub n) hb (by rwa [regPd_svi (by omega)]) hw ?_
  rw [wrSpecial_svCfg, BitVec.ofNat_toNat, BitVec.setWidth_eq]
  rfl

theorem write_svMap (m : Fin 192) (v : BitVec 32) (hp : s.pg 8 = true) (hw : mayWriteReg s .hst (0x504000 + 4 * m.val) = true) :
    exec (.registerWrite .hst (0x504000 + 4 * m.val) v) s =
      exec (.svMapWrite m (v.getLsbD 31) (ix 64 (v.toNat / 0x10000)) (ix 32 v.toNat)) s := by
  refine hostWrite_command (u := s) (opReg_svMap m) hb (by rwa [regPd_svi (by omega)]) hw ?_
  rw [wrSpecial_svMap]
  rfl

end Rows

end Sys2Proof.Machine
end

section
/-! PROOFS. Denied accesses (R29), and the register writes put together. -/
namespace Sys2Proof.Machine

/-! ### What a denied access records (R29) -/

/-- The capture of a denied access, where none has been since the last clear. -/
def accCaptured (s : State) (i : Ini) (write : Bool) (a : Nat) : State :=
  (((s.wrb R.GLB_ACC_INIT_VALID true).wrb R.GLB_ACC_INIT_WRITE write).wr R.GLB_ACC_INIT_INIT (iniNo i)).wr R.GLB_ACC_ADDR_ADDR a

theorem denied_first {s : State} (i : Ini) (write : Bool) (a : Nat) (h : s.on R.GLB_ACC_INIT_VALID = false) :
    denied s i write a = ((accCaptured s i write a).sat1 R.GLB_ACC_INIT_COUNT).logIx 0 1 (iniNo i) := by
  simp only [denied, h]
  rfl

theorem denied_again {s : State} (i : Ini) (write : Bool) (a : Nat) (h : s.on R.GLB_ACC_INIT_VALID = true) :
    denied s i write a = (s.sat1 R.GLB_ACC_INIT_COUNT).logIx 0 1 (iniNo i) := by
  simp only [denied, h]
  rfl

@[simp] theorem logIx_rd (s : State) (src code n : Nat) (f : Fld) : (s.logIx src code n).rd f = s.rd f := rfl

/-- A count that stays at its largest value: 16 bits. -/
theorem rd_sat1_self (s : State) {f : Fld} (h : f.w = 16) : (s.sat1 f).rd f = min (s.rd f + 1) 65535 := by
  rw [State.sat1, State.satAdd, rd_wr_self, h]
  exact Nat.mod_eq_of_lt (by omega)

theorem rd_sat1_ne (s : State) {f g : Fld} (h : g.key ≠ f.key) : (s.sat1 f).rd g = s.rd g := rd_wr_ne s _ h

/-- The fields of the access monitor. -/
def accFlds : List Fld :=
  [R.GLB_ACC_INIT_VALID, R.GLB_ACC_INIT_WRITE, R.GLB_ACC_INIT_INIT, R.GLB_ACC_ADDR_ADDR, R.GLB_ACC_INIT_COUNT]

theorem iniNo_lt (i : Ini) : iniNo i < 2 ^ 4 := by cases i <;> decide

theorem accCaptured_rd (s : State) (i : Ini) (a : Nat) (ha : a < 2 ^ 32) :
    let t := accCaptured s i true a
    t.rd R.GLB_ACC_INIT_VALID = 1 ∧ t.rd R.GLB_ACC_INIT_WRITE = 1 ∧ t.rd R.GLB_ACC_INIT_INIT = iniNo i ∧ t.rd R.GLB_ACC_ADDR_ADDR = a := by
  refine ⟨?_, ?_, ?_, ?_⟩
  · rw [accCaptured, rd_wr_ne _ _ (by decide), rd_wr_ne _ _ (by decide), State.wrb, rd_wr_ne _ _ (by decide), State.wrb, rd_wr_self]
    rfl
  · rw [accCaptured, rd_wr_ne _ _ (by decide), rd_wr_ne _ _ (by decide), State.wrb, rd_wr_self]
    rfl
  · rw [accCaptured, rd_wr_ne _ _ (by decide), rd_wr_self]
    exact Nat.mod_eq_of_lt (iniNo_lt i)
  · rw [accCaptured, rd_wr_self]
    exact Nat.mod_eq_of_lt ha

theorem accCaptured_rd_ne (s : State) (i : Ini) (write : Bool) (a : Nat) {f : Fld} (h1 : f.key ≠ R.GLB_ACC_INIT_VALID.key)
    (h2 : f.key ≠ R.GLB_ACC_INIT_WRITE.key) (h3 : f.key ≠ R.GLB_ACC_INIT_INIT.key) (h4 : f.key ≠ R.GLB_ACC_ADDR_ADDR.key) :
    (accCaptured s i write a).rd f = s.rd f := by
  rw [accCaptured, rd_wr_ne _ _ h4, rd_wr_ne _ _ h3, State.wrb, rd_wr_ne _ _ h2, State.wrb, rd_wr_ne _ _ h1]

theorem on_of_rd_one {s : State} {f : Fld} (h : s.rd f = 1) : s.on f = true := by simp [State.on, h]

/-- What a denied access records of itself. -/
theorem denied_shows {s : State} (i : Ini) {a : Nat} (ha : a < 2 ^ 32) (h : s.on R.GLB_ACC_INIT_VALID = false) :
    let t := denied s i true a
    t.on R.GLB_ACC_INIT_VALID = true ∧ t.on R.GLB_ACC_INIT_WRITE = true ∧ t.rd R.GLB_ACC_INIT_INIT = iniNo i ∧
      t.rd R.GLB_ACC_ADDR_ADDR = a := by
  obtain ⟨hv, hwr, hi, had⟩ := accCaptured_rd s i a ha
  rw [denied_first i true a h]
  refine ⟨on_of_rd_one ?_, on_of_rd_one ?_, ?_, ?_⟩ <;> rw [logIx_rd, rd_sat1_ne _ (by decide)] <;> assumption

theorem denied_keeps {s : State} (i : Ini) (write : Bool) (a : Nat) (h : s.on R.GLB_ACC_INIT_VALID = true) {f : Fld}
    (hf : f.key ≠ R.GLB_ACC_INIT_COUNT.key) : (denied s i write a).rd f = s.rd f := by
  rw [denied_again i write a h, logIx_rd, rd_sat1_ne _ hf]

theorem denied_count (s : State) (i : Ini) (write : Bool) (a : Nat) :
    (denied s i write a).rd R.GLB_ACC_INIT_COUNT = min (s.rd R.GLB_ACC_INIT_COUNT + 1) 65535 := by
  cases h : s.on R.GLB_ACC_INIT_VALID with
  | true => rw [denied_again i write a h, logIx_rd, rd_sat1_self _ rfl]
  | false =>
    rw [denied_first i write a h, logIx_rd, rd_sat1_self _ rfl,
      accCaptured_rd_ne s i write a (by decide) (by decide) (by decide) (by decide)]

/-- A denied access changes no field but the access monitor's. -/
theorem denied_rd_other (s : State) (i : Ini) (write : Bool) (a : Nat) {f : Fld} (h : ∀ g ∈ accFlds, f.key ≠ g.key) :
    (denied s i write a).rd f = s.rd f := by
  simp only [accFlds, List.forall_mem_cons, List.not_mem_nil, false_imp_iff, implies_true, and_true] at h
  obtain ⟨hv, hwr, hi, had, hc⟩ := h
  cases hon : s.on R.GLB_ACC_INIT_VALID with
  | true => exact denied_keeps i write a hon hc
  | false => rw [denied_first i write a hon, logIx_rd, rd_sat1_ne _ hc, accCaptured_rd_ne s i write a hv hwr hi had]

theorem denied_mem (s : State) (i : Ini) (write : Bool) (a : Nat) : (denied s i write a).mem = s.mem := by
  cases h : s.on R.GLB_ACC_INIT_VALID with
  | true => rw [denied_again i write a h]; rfl
  | false => rw [denied_first i write a h]; rfl

/-- One event ACCESS_DENIED with the initiator in its payload. -/
theorem denied_event (s : State) (i : Ini) (write : Bool) (a : Nat) :
    ∃ e, (denied s i write a).yew.cross = s.yew.cross ++ [e] ∧ e.src = 0 ∧ e.code = 1 ∧ e.payload = padTo 24 (leBytes 4 (iniNo i)) := by
  cases h : s.on R.GLB_ACC_INIT_VALID with
  | true => rw [denied_again i write a h]; exact ⟨_, rfl, rfl, rfl, rfl⟩
  | false => rw [denied_first i write a h]; exact ⟨_, rfl, rfl, rfl, rfl⟩

theorem accFlds_at : ∀ g ∈ accFlds, g.lo < 32 ∧ (g.addr = 0x30 ∨ g.addr = 0x34) := by decide

theorem denied_regsKept (s : State) (i : Ini) (write : Bool) (a : Nat) : RegsKept s (denied s i write a)
    [(R.GLB_ACC_INIT_COUNT.addr, R.GLB_ACC_INIT_COUNT.addr + 4), (R.GLB_ACC_ADDR_ADDR.addr, R.GLB_ACC_ADDR_ADDR.addr + 4)] := by
  intro f hlo hlt hout
  refine denied_rd_other s i write a fun g hg => ?_
  obtain ⟨hglo, hga⟩ := accFlds_at g hg
  have h30 : ¬ (0x30 ≤ f.addr ∧ f.addr < 0x30 + 4) := hout _ List.mem_cons_self
  have h34 : ¬ (0x34 ≤ f.addr ∧ f.addr < 0x34 + 4) := hout _ (List.mem_cons_of_mem _ List.mem_cons_self)
  exact key_ne_of_addr hlo hglo hlt (by omega) (by omega)

/-! ### The host's rights (R29) -/

theorem hostField_readOnly {lk : Bool} {f : Fld} (h : f.acc = .ro ∨ f.acc = .rc ∨ (f.acc = .rwl ∧ lk = true)) : hostField lk f = false := by
  rcases h with h | h | ⟨h, rfl⟩ <;> simp [hostField, h]

/-- The host has no right to a register all of whose fields are read-only or locked. -/
theorem mayWriteReg_readOnly {s : State} {a : Nat} {l : List Fld} (hl : findReg regTable a = some l) (hi : hostIndex a = false)
    (h : ∀ f ∈ l, f.acc = .ro ∨ f.acc = .rc ∨ (f.acc = .rwl ∧ locked s a = true)) : mayWriteReg s .hst a = false := by
  have hf : (l.any (hostField (locked s a))) = false :=
    List.any_eq_false.mpr fun f hf => by simp [hostField_readOnly (h f hf)]
  simp [mayWriteReg, hostReg, hl, hi, hf]

/-- Settles O8: plain writes, the requests row by row, gaps, read-only registers, and denials. -/
theorem registerWrites : Obligations.RegisterWrites := by
  refine ⟨fun s i a v hb ha hlt hp hw hi hs => write_plain hb ha hlt hp hw hi hs, fun s a v c hb hp hw h => write_request hb hp hw h,
    fun s n j m k u p q hb hpc hp1 hp6 hp8 => ⟨write_bayMode hb n j m hpc, write_bayGroup hb n j m hpc, write_taskAct hb k hp6,
      write_tbCtl hb u hp8, write_tpoCtl hb m hp8, write_auCtl hb u, write_chainCtl hb q hp1, write_rsCtl hb p hp1⟩,
    fun s v hb hp0 hp1 hp8 => ⟨write_power hb v hp0, write_yewFetch hb v hp0, write_loadData hb v hp1, write_bayBlockClear hb v hp0,
      write_gpoHost hb v hp1, fun b => write_midLo hb b v hp8, fun n => write_svCfg hb n v hp8, fun m => write_svMap hb m v hp8⟩,
    fun s i a v hb ha hg => ?_, fun s a l hl hi h => mayWriteReg_readOnly hl hi h, fun s i a v hb ha hlt hg hw => ?_⟩
  · rw [exec_registerWrite v hb ha, busWrite_gap _ hg]
  · refine ⟨_, exec_registerWrite v hb ha, ?_⟩
    rw [busWrite_denied _ hg hw]
    exact ⟨denied_shows i (by omega), fun h => ⟨denied_keeps i true a h (by decide), denied_keeps i true a h (by decide)⟩,
      denied_count s i true a, denied_event s i true a, denied_regsKept s i true a, fun x => by rw [denied_mem]⟩

end Sys2Proof.Machine
end

section
/-! PROOFS. What a held reset keeps and loses (R21, R454 to R456, R473, R528). -/
namespace Sys2Proof.Machine

/-! ### Maps cut down to some of their keys -/

theorem mget_filter {α : Type} (m : List (Nat × α)) (p : Nat → Bool) (k : Nat) (d : α) :
    mget (m.filter fun e => p e.1) k d = if p k then mget m k d else d := by
  induction m with
  | nil => simp
  | cons e t ih =>
    obtain ⟨a, x⟩ := e
    by_cases hak : a = k
    · subst hak
      cases hp : p a <;> simp [hp, mget, ih]
    · cases hp : p a <;> simp [hp, mget, hak, ih]

theorem dom_num_inj {d e : Dom} (h : d.num = e.num) : d = e := by
  cases d <;> cases e <;> cases h <;> rfl

/-- A field's key tells its reset domain. -/
theorem keyDom_key {f : Fld} (hlo : f.lo < 32) (hlt : f.addr < 0x4000000) (d : Dom) : keyDom d f.key = decide (f.dom = d) := by
  have hk : f.key / 0x10000000000 = f.dom.num := by
    simp only [Fld.key]
    omega
  rw [keyDom, hk, Bool.eq_iff_iff, beq_iff_eq, decide_eq_true_eq]
  exact ⟨dom_num_inj, congrArg Dom.num⟩

theorem memRd_keptMem (m : List Host.Cell) (por : Bool) (a : Nat) :
    memRd (keptMem m por) a =
      if a < 0x1000000 ∨ (por = false ∧ dramBase ≤ a ∧ a < dramBase + 0x100000000) then memRd m a else 0 := by
  rw [memRd, keptMem, mget_filter m fun x => decide (x < 0x1000000) || (!por && decide (dramBase ≤ x) && decide (x < dramBase + 0x100000000))]
  simp only [Bool.or_eq_true, Bool.and_eq_true, Bool.not_eq_true', decide_eq_true_eq, and_assoc]
  rfl

/-! ### The state while a reset is held -/

/-- A field that the reset keeps stands; any other has its reset value. -/
theorem heldState_rd (s : State) (kind : Nat) {f : Fld} (hlo : f.lo < 32) (hlt : f.addr < 0x4000000) :
    (heldState s kind).rd f = if f.dom = .kept ∨ (kind ≠ 1 ∧ f.dom = .por) then s.rd f else f.rst := by
  rw [State.rd, heldState, keptRegs, mget_filter s.regs fun k => keyDom .kept k || (!(kind == 1) && keyDom .por k)]
  simp only [keyDom_key hlo hlt, Bool.or_eq_true, Bool.and_eq_true, Bool.not_eq_true', beq_eq_false_iff_ne, decide_eq_true_eq]
  rfl

theorem heldState_lost (s : State) {kind : Nat} {f : Fld} (hlo : f.lo < 32) (hlt : f.addr < 0x4000000) (hk : f.dom ≠ .kept)
    (hp : kind = 1 ∨ f.dom ≠ .por) : (heldState s kind).rd f = f.rst := by
  rw [heldState_rd s kind hlo hlt, if_neg]
  rintro (h | ⟨h1, h2⟩)
  · exact hk h
  · rcases hp with h | h
    · exact h1 h
    · exact h h2

theorem heldState_kept (s : State) {kind : Nat} {f : Fld} (hlo : f.lo < 32) (hlt : f.addr < 0x4000000)
    (h : f.dom = .kept ∨ (kind ≠ 1 ∧ f.dom = .por)) : (heldState s kind).rd f = s.rd f := by
  rw [heldState_rd s kind hlo hlt, if_pos h]

/-! ### SYS and WDR -/

/-- The fields that SYS and WDR write: what shows the reset, safe state, self-refresh. -/
def resetFlds : List Fld :=
  [R.PRV_STAT_SAFE, R.GLB_RSTCAUSE_COUNT, R.MEM_STAT_SR, R.GLB_RSTCAUSE_CAUSE, R.GLB_RSTCAUSE_PRVSRC]

theorem assertReset_sys {s : State} {kind : Nat} (cause : Nat) (h : s.glb.hold ≠ 1) (hk : kind ≠ 1) :
    assertReset s kind cause 0 = (((((heldState s kind).wrb R.PRV_STAT_SAFE (s.on R.PRV_STAT_SAFE)).sat1 R.GLB_RSTCAUSE_COUNT).wrb
      R.MEM_STAT_SR (s.pg 11 || s.on R.MEM_STAT_SR)).wr R.GLB_RSTCAUSE_CAUSE cause).wr R.GLB_RSTCAUSE_PRVSRC 0 := by
  have hb : (kind != 1) = true := bne_iff_ne.mpr hk
  simp only [assertReset, h, hk, hb, false_and, if_false, Bool.true_and]

section Sys
variable {s : State} {kind : Nat} (cause : Nat) (h : s.glb.hold ≠ 1) (hk : kind ≠ 1)
include h hk

theorem assertReset_sys_rd {f : Fld} (hf : ∀ g ∈ resetFlds, f.key ≠ g.key) : (assertReset s kind cause 0).rd f = (heldState s kind).rd f := by
  simp only [resetFlds, List.forall_mem_cons, List.not_mem_nil, false_imp_iff, implies_true, and_true] at hf
  obtain ⟨hsafe, hcount, hsr, hcause, hsrc⟩ := hf
  rw [assertReset_sys cause h hk, rd_wr_ne _ _ hsrc, rd_wr_ne _ _ hcause, State.wrb, rd_wr_ne _ _ hsr, rd_sat1_ne _ hcount, State.wrb,
    rd_wr_ne _ _ hsafe]

/-- What SYS and WDR show of themselves. -/
theorem assertReset_sys_shows (hc : cause < 16) :
    let t := assertReset s kind cause 0
    t.rd R.GLB_RSTCAUSE_CAUSE = cause ∧ t.rd R.GLB_RSTCAUSE_PRVSRC = 0 ∧
      t.rd R.GLB_RSTCAUSE_COUNT = min (s.rd R.GLB_RSTCAUSE_COUNT + 1) 65535 ∧
      t.on R.PRV_STAT_SAFE = s.on R.PRV_STAT_SAFE ∧ t.on R.MEM_STAT_SR = (s.pg 11 || s.on R.MEM_STAT_SR) := by
  rw [assertReset_sys cause h hk]
  refine ⟨?_, ?_, ?_, ?_, ?_⟩
  · rw [rd_wr_ne _ _ (by decide), rd_wr_self]
    exact Nat.mod_eq_of_lt hc
  · rw [rd_wr_self]
    rfl
  · rw [rd_wr_ne _ _ (by decide), rd_wr_ne _ _ (by decide), State.wrb, rd_wr_ne _ _ (by decide), rd_sat1_self _ rfl, State.wrb,
      rd_wr_ne _ _ (by decide), heldState_kept s (by decide) (by decide) (.inr ⟨hk, rfl⟩)]
  · rw [State.on, rd_wr_ne _ _ (by decide), rd_wr_ne _ _ (by decide), State.wrb, rd_wr_ne _ _ (by decide), rd_sat1_ne _ (by decide)]
    exact on_wrb_self _ _ _ rfl
  · rw [State.on, rd_wr_ne _ _ (by decide), rd_wr_ne _ _ (by decide)]
    exact on_wrb_self _ _ _ rfl

theorem assertReset_sys_lost {f : Fld} (hkept : f.dom ≠ .kept) (hpor : f.dom ≠ .por) (hlo : f.lo < 32) (hlt : f.addr < 0x4000000)
    (hprv : f.addr ≠ 0x100004) (hmem : f.addr ≠ 0xF00000) : (assertReset s kind cause 0).rd f = f.rst := by
  rw [assertReset_sys_rd cause h hk, heldState_lost s hlo hlt hkept (.inr hpor)]
  intro g hg he
  have hall : ∀ g ∈ resetFlds, g.lo < 32 ∧ g.addr < 0x4000000 ∧ (g.addr = 0x100004 ∨ g.addr = 0xF00000 ∨ g.dom = .por) := by decide
  obtain ⟨hglo, hglt, hg⟩ := hall g hg
  obtain ⟨hdom, haddr, -⟩ := key_inj hlo hglo hlt hglt he
  rcases hg with hg | hg | hg
  · exact hprv (haddr.trans hg)
  · exact hmem (haddr.trans hg)
  · exact hpor ((dom_num_inj hdom).trans hg)

theorem assertReset_sys_kept {f : Fld} (hf : f.dom = .kept ∨ (f.dom = .por ∧ f.addr ≠ 0xC)) (hlo : f.lo < 32)
    (hlt : f.addr < 0x4000000) : (assertReset s kind cause 0).rd f = s.rd f := by
  rw [assertReset_sys_rd cause h hk, heldState_kept s hlo hlt (hf.imp_right fun hp => ⟨hk, hp.1⟩)]
  intro g hg he
  have hall : ∀ g ∈ resetFlds, g.lo < 32 ∧ g.addr < 0x4000000 ∧ (g.dom = .sys ∨ (g.dom = .por ∧ g.addr = 0xC)) := by decide
  obtain ⟨hglo, hglt, hg⟩ := hall g hg
  obtain ⟨hdom, haddr, -⟩ := key_inj hlo hglo hlt hglt he
  have hd := dom_num_inj hdom
  rcases hf with hf | ⟨hf, ha⟩ <;> rcases hg with hg | ⟨hg, hga⟩
  · exact Dom.noConfusion (hf.symm.trans (hd.trans hg))
  · exact Dom.noConfusion (hf.symm.trans (hd.trans hg))
  · exact Dom.noConfusion (hf.symm.trans (hd.trans hg))
  · exact ha (haddr.trans hga)

/-- What no register shows: the hold, memory and cores are those of the held state. -/
theorem assertReset_sys_rest : (assertReset s kind cause 0).glb.hold = kind ∧ (assertReset s kind cause 0).mem = keptMem s.mem false ∧
    ∀ n, ((assertReset s kind cause 0).core n).run = none := by
  have hb : (kind == 1) = false := beq_eq_false_iff_ne.mpr hk
  rw [assertReset_sys cause h hk]
  refine ⟨rfl, ?_, fun n => rfl⟩
  rw [← hb]
  rfl

theorem assertReset_sys_pads : padsNow (assertReset s kind cause 0) = 0 ∧ gpoTerms (assertReset s kind cause 0) = 0 := by
  refine pads_low ?_ ?_ ?_ <;>
    exact assertReset_sys_lost cause h hk (by decide) (by decide) (by decide) (by decide) (by decide) (by decide)

end Sys

/-- The commands of the statement assert SYS or WDR. -/
theorem exec_sysReset {s : State} {c : Instr} {k cause : Nat}
    (hc : (c = .rstNAssert ∧ k = 2 ∧ cause = 1 ∧ s.glb.hib = false) ∨ (c = .sysreq ∧ k = 2 ∧ cause = 2) ∨
      (c = .watchdogExpiry ∧ k = 3 ∧ cause = 4 ∧ wdtMs s ≠ 0 ∧ ∃ w, s.glb.wdt = some w ∧ w + wdtMs s * 1000000 ≤ s.tb2Ns)) :
    exec c s = .next (assertReset s k cause 0) ∧ k ≠ 1 ∧ cause < 16 := by
  rcases hc with ⟨rfl, rfl, rfl, hh⟩ | ⟨rfl, rfl, rfl⟩ | ⟨rfl, rfl, rfl, h0, w, hw, hle⟩
  · exact ⟨by simp [exec, execRstNAssert, hh], by decide, by decide⟩
  · exact ⟨rfl, by decide, by decide⟩
  · exact ⟨by simp [exec, execWatchdogExpiry, hw, h0, hle], by decide, by decide⟩

/-- A watchdog that is paused, disabled or not yet due does not expire (R457). -/
theorem exec_watchdog_idle {s : State} (h : ∀ w, s.glb.wdt = some w → wdtMs s = 0 ∨ s.tb2Ns < w + wdtMs s * 1000000) :
    exec .watchdogExpiry s = .next s := by
  cases hw : s.glb.wdt with
  | none => simp [exec, execWatchdogExpiry, hw]
  | some w =>
    have hc : ¬ (wdtMs s ≠ 0 ∧ w + wdtMs s * 1000000 ≤ s.tb2Ns) := by
      have := h w hw
      omega
    simp only [exec, execWatchdogExpiry, hw, if_neg hc]

end Sys2Proof.Machine
end

section
/-! PROOFS. Power-on reset and the record that Yew was writing (R405, R456, R473, R528), and the resets put together. -/
namespace Sys2Proof.Machine

/-! ### Bytes read in a row -/

theorem memRds_eq_map (m : List Host.Cell) (a n : Nat) : memRds m a n = (List.range n).map fun k => memRd m (a + k) := by
  induction n generalizing a with
  | zero => rfl
  | succ n ih => simp [memRds, ih, List.range_succ_eq_map, Function.comp_def, Nat.add_assoc, Nat.add_comm 1]

theorem memRds_congr {m m' : List Host.Cell} {a n : Nat} (h : ∀ k < n, memRd m (a + k) = memRd m' (a + k)) :
    memRds m a n = memRds m' a n := by
  rw [memRds_eq_map, memRds_eq_map]
  exact List.map_congr_left fun k hk => h k (List.mem_range.mp hk)

theorem memRds_add (m : List Host.Cell) (a n k : Nat) : memRds m a (n + k) = memRds m a n ++ memRds m (a + n) k := by
  simp [memRds_eq_map, List.range_add, Function.comp_def, Nat.add_assoc]

theorem memRds_memWrs (m : List Host.Cell) (a : Nat) (l : List Byte) : memRds (memWrs m a l) a l.length = l := by
  rw [memRds_eq_map]
  refine List.ext_getElem (by simp) fun k _ hk => ?_
  simp [memRd_memWrs_in l m a k hk]

theorem leBytes_length (n v : Nat) : (leBytes n v).length = n := by
  induction n generalizing v with
  | zero => rfl
  | succ n ih => simp [leBytes, ih]

theorem padTo_length (n : Nat) (l : List Byte) : (padTo n l).length = n := by
  induction n generalizing l with
  | zero => rfl
  | succ n ih => simp [padTo, ih]

/-! ### The record in progress (R405, R528) -/

theorem recBytes_length (e : YEntry) (q : Nat) : (recBytes e q).length = 64 := by
  simp [recBytes, recBody, leBytes_length, padTo_length]

theorem yewSlot_end (q : Nat) : yewSlot q + 64 ≤ 0x1000000 := by
  simp only [yewSlot, mramBase]
  omega

section LastWrite
variable (s : State) (whole : Bool)

theorem lastWrite_none (h : ∀ e q, s.yew.fifo.head? = some e → e.seq ≠ some q) : lastWrite s whole = s := by
  cases hf : s.yew.fifo with
  | nil => simp only [lastWrite, hf]
  | cons e t =>
    cases hq : e.seq with
    | none => simp only [lastWrite, hf, hq]
    | some q => exact absurd hq (h e q (by rw [hf]; rfl))

theorem lastWrite_some {e : YEntry} {q : Nat} (he : s.yew.fifo.head? = some e) (hq : e.seq = some q) :
    lastWrite s whole = if whole then s.wrMem (yewSlot q) (recBytes e q) else s.wrMem (yewSlot q + 60) (leBytes 4 0) := by
  cases hf : s.yew.fifo with
  | nil => simp [hf] at he
  | cons e' t =>
    obtain rfl : e' = e := by simpa [hf] using he
    simp only [lastWrite, hf, hq]

/-- Nothing is written, or bytes inside the slot of the record in progress. -/
theorem lastWrite_cases : lastWrite s whole = s ∨ ∃ e q a l, s.yew.fifo.head? = some e ∧ e.seq = some q ∧
    yewSlot q ≤ a ∧ a + l.length ≤ yewSlot q + 64 ∧ lastWrite s whole = s.wrMem a l := by
  by_cases hn : ∀ e q, s.yew.fifo.head? = some e → e.seq ≠ some q
  · exact .inl (lastWrite_none s whole hn)
  · push Not at hn
    obtain ⟨e, q, he, hq⟩ := hn
    have hs := lastWrite_some s whole he hq
    cases whole
    · exact .inr ⟨e, q, yewSlot q + 60, leBytes 4 0, he, hq, by omega, by rw [leBytes_length], hs⟩
    · exact .inr ⟨e, q, yewSlot q, recBytes e q, he, hq, le_rfl, by rw [recBytes_length], hs⟩

@[simp] theorem lastWrite_regs : (lastWrite s whole).regs = s.regs := by
  rcases lastWrite_cases s whole with h | ⟨e, q, a, l, -, -, -, -, h⟩ <;> rw [h]
  exact wrMem_regs s a l

/-- Only bytes of the record's slot may change. -/
theorem lastWrite_outside {x : Nat} (h : ∀ e q, s.yew.fifo.head? = some e → e.seq = some q → x < yewSlot q ∨ yewSlot q + 64 ≤ x) :
    memRd (lastWrite s whole).mem x = memRd s.mem x := by
  rcases lastWrite_cases s whole with hs | ⟨e, q, a, l, he, hq, hlo, hhi, hs⟩ <;> rw [hs]
  have := h e q he hq
  exact memRd_memWrs_out l s.mem a x (by omega)

/-- The slot holds the record whole, or what it held with a valid mark of zero. -/
theorem lastWrite_slot {e : YEntry} {q : Nat} (he : s.yew.fifo.head? = some e) (hq : e.seq = some q) :
    (lastWrite s whole).rdMem (yewSlot q) 64 = recBytes e q ∨
      (lastWrite s whole).rdMem (yewSlot q) 64 = s.rdMem (yewSlot q) 60 ++ [0, 0, 0, 0] := by
  have hs := lastWrite_some s whole he hq
  cases whole
  · right
    have hlow : memRds (memWrs s.mem (yewSlot q + 60) (leBytes 4 0)) (yewSlot q) 60 = memRds s.mem (yewSlot q) 60 :=
      memRds_congr fun k hk => memRd_memWrs_out _ _ _ _ (by omega)
    have hmark : memRds (memWrs s.mem (yewSlot q + 60) (leBytes 4 0)) (yewSlot q + 60) 4 = [0, 0, 0, 0] :=
      memRds_memWrs s.mem (yewSlot q + 60) (leBytes 4 0)
    rw [hs, if_neg Bool.false_ne_true]
    exact (memRds_add _ (yewSlot q) 60 4).trans (congrArg₂ (· ++ ·) hlow hmark)
  · left
    have hrec := memRds_memWrs s.mem (yewSlot q) (recBytes e q)
    rw [recBytes_length] at hrec
    rwa [hs, if_pos rfl]

end LastWrite

/-! ### POR -/

/-- The fields that POR writes: self-refresh, what shows the reset, and the random nonce. -/
def porFlds : List Fld := [R.MEM_STAT_SR, R.GLB_RSTCAUSE_CAUSE, R.GLB_RSTCAUSE_PRVSRC, R.SEC_NONCE_NONCE]

theorem assertReset_por (s : State) : assertReset s 1 0 0 =
    (((heldState s 1).wrb R.MEM_STAT_SR false).wr R.GLB_RSTCAUSE_CAUSE 0).wr R.GLB_RSTCAUSE_PRVSRC 0 := by
  simp [assertReset]

/-- The state that POR leaves. -/
def porState (s : State) (whole : Bool) : State := freshNonces (assertReset (lastWrite (s.fresh 1).2 whole) 1 0 0)

theorem exec_por (s : State) : exec .porAssert s = .next (porState s ((s.fresh 1).1 == 1)) := rfl

section Por
variable (s : State) (whole : Bool)

theorem porState_rd {f : Fld} (hf : ∀ g ∈ porFlds, f.key ≠ g.key) : (porState s whole).rd f = (heldState s 1).rd f := by
  simp only [porFlds, List.forall_mem_cons, List.not_mem_nil, false_imp_iff, implies_true, and_true] at hf
  obtain ⟨hsr, hcause, hsrc, hnonce⟩ := hf
  have hheld : (heldState (lastWrite (s.fresh 1).2 whole) 1).rd f = (heldState s 1).rd f := by
    refine rd_of_regs ?_ f
    simp only [heldState, lastWrite_regs, fresh_regs]
  rw [porState, assertReset_por, freshNonces, rd_wr_ne _ _ hnonce, ← hheld]
  refine Eq.trans (rd_wr_ne (f := R.GLB_RSTCAUSE_PRVSRC) _ 0 hsrc) ?_
  rw [rd_wr_ne _ _ hcause, State.wrb, rd_wr_ne _ _ hsr]

theorem porState_cause : (porState s whole).glb.hold = 1 ∧ (porState s whole).rd R.GLB_RSTCAUSE_CAUSE = 0 := by
  rw [porState, assertReset_por, freshNonces]
  refine ⟨rfl, ?_⟩
  rw [rd_wr_ne _ _ (by decide)]
  refine Eq.trans (rd_wr_ne (f := R.GLB_RSTCAUSE_PRVSRC) _ 0 (by decide)) ?_
  rw [rd_wr_self]
  rfl

theorem porState_lost {f : Fld} (hkept : f.dom ≠ .kept) (hlo : f.lo < 32) (hlt : f.addr < 0x4000000) (hnonce : f.addr ≠ 0xD00018)
    (hmem : f.addr ≠ 0xF00000) (hcause : f.addr ≠ 0xC) : (porState s whole).rd f = f.rst := by
  rw [porState_rd s whole, heldState_lost s hlo hlt hkept (.inl rfl)]
  intro g hg
  have hall : ∀ g ∈ porFlds, g.lo < 32 ∧ g.addr < 0x4000000 ∧ (g.addr = 0xD00018 ∨ g.addr = 0xF00000 ∨ g.addr = 0xC) := by decide
  obtain ⟨hglo, hglt, hg⟩ := hall g hg
  exact key_ne_of_addr hlo hglo hlt hglt (by omega)

theorem porState_kept {f : Fld} (hkept : f.dom = .kept) (hlo : f.lo < 32) (hlt : f.addr < 0x4000000) :
    (porState s whole).rd f = s.rd f := by
  rw [porState_rd s whole, heldState_kept s hlo hlt (.inl hkept)]
  intro g hg he
  have hall : ∀ g ∈ porFlds, g.lo < 32 ∧ g.addr < 0x4000000 ∧ g.dom ≠ .kept := by decide
  obtain ⟨hglo, hglt, hg⟩ := hall g hg
  exact hg ((dom_num_inj (key_inj hlo hglo hlt hglt he).1).symm.trans hkept)

theorem porState_mem : (porState s whole).mem = keptMem (lastWrite (s.fresh 1).2 whole).mem true := by
  rw [porState, assertReset_por]
  rfl

theorem memRd_porState (a : Nat) :
    memRd (porState s whole).mem a = if a < 0x1000000 then memRd (lastWrite (s.fresh 1).2 whole).mem a else 0 := by
  rw [porState_mem, memRd_keptMem]
  simp

/-- What MRAM holds of the record in progress. -/
theorem porState_slot {e : YEntry} {q : Nat} (he : s.yew.fifo.head? = some e) (hq : e.seq = some q) :
    (porState s whole).rdMem (yewSlot q) 64 = recBytes e q ∨
      (porState s whole).rdMem (yewSlot q) 64 = s.rdMem (yewSlot q) 60 ++ [0, 0, 0, 0] := by
  have hend := yewSlot_end q
  have hkeep : (porState s whole).rdMem (yewSlot q) 64 = (lastWrite (s.fresh 1).2 whole).rdMem (yewSlot q) 64 :=
    memRds_congr fun k hk => by rw [memRd_porState, if_pos (by omega)]
  rw [hkeep]
  exact lastWrite_slot (s.fresh 1).2 whole he hq

theorem porState_pads : padsNow (porState s whole) = 0 ∧ gpoTerms (porState s whole) = 0 := by
  refine pads_low ?_ ?_ ?_ <;>
    exact porState_lost s whole (by decide) (by decide) (by decide) (by decide) (by decide) (by decide)

theorem porState_cores (n : Nat) : ((porState s whole).core n).run = none := by
  rw [porState, assertReset_por]
  rfl

end Por

/-- RST_N leaves HIBERNATE with cause 5 (R471). -/
theorem exec_rstN_hib {s : State} (h : s.glb.hold ≠ 1) (hh : s.glb.hib = true) :
    Runs .rstNAssert s fun t => t.glb.hold = 2 ∧ t.rd R.GLB_RSTCAUSE_CAUSE = 5 := by
  refine ⟨setGlb (assertReset s 2 5 0) { (assertReset s 2 5 0).glb with start := 5 }, by simp [exec, execRstNAssert, hh], ?_, ?_⟩
  · exact (assertReset_sys_rest 5 h (by decide)).1
  · exact (assertReset_sys_shows 5 h (by decide) (by decide)).1

/-- Settles O45: SYS and WDR by what the held state keeps, a watchdog that is not due, POR with the record in progress. -/
theorem resetsHeld : Obligations.ResetsHeld := by
  refine ⟨fun s c k cause h hc => ?_, fun s h hh => exec_rstN_hib h hh, fun s h => exec_watchdog_idle h, fun s => ?_⟩
  · obtain ⟨he, hk, hlt⟩ := exec_sysReset hc
    obtain ⟨hcause, hsrc, hcount, hsafe, hsr⟩ := assertReset_sys_shows cause h hk hlt
    obtain ⟨hhold, hmem, hcore⟩ := assertReset_sys_rest cause h hk
    obtain ⟨hpads, hgpo⟩ := assertReset_sys_pads cause h hk
    refine ⟨_, he, hhold, hcause, hsrc, hcount, fun f hd hp hlo ha hx hy => assertReset_sys_lost cause h hk hd hp hlo ha hx hy,
      fun f hf hlo ha => assertReset_sys_kept cause h hk hf hlo ha, hsafe, hsr, fun a => ?_, hpads, hgpo, hcore⟩
    rw [hmem, memRd_keptMem]
    simp only [true_and]
  · refine ⟨_, exec_por s, (porState_cause s _).1, (porState_cause s _).2,
      fun f hd hlo ha hx hy hz => porState_lost s _ hd hlo ha hx hy hz, fun f hd hlo ha => porState_kept s _ hd hlo ha,
      fun a ha => ?_, fun e q he hq => porState_slot s _ he hq, (porState_pads s _).1, (porState_pads s _).2, porState_cores s _⟩
    rw [memRd_porState, lastWrite_outside (s.fresh 1).2 _ ha, fresh_mem]

end Sys2Proof.Machine
end

section
/-! PROOFS. What leaves memory as it was: the operations that write registers and hidden state only. -/
namespace Sys2Proof.Machine

@[simp] theorem mem_ite {c : Prop} [Decidable c] {s t : State} : (if c then s else t).mem = if c then s.mem else t.mem :=
  apply_ite _ _ _ _

/-! A fold of steps that each leave memory alone leaves it alone, the state alone or beside another result. -/

@[simp] theorem foldl_mem {β : Type} {g : State → β → State} (h : ∀ t b, (g t b).mem = t.mem) (l : List β) (s : State) :
    (l.foldl g s).mem = s.mem := by
  induction l generalizing s with
  | nil => rfl
  | cons b t ih => exact (ih _).trans (h s b)

@[simp] theorem foldl_fst_mem {β γ : Type} {g : State × γ → β → State × γ} (h : ∀ t b, (g t b).1.mem = t.1.mem) (l : List β)
    (s : State × γ) :
    (l.foldl g s).1.mem = s.1.mem := by
  induction l generalizing s with
  | nil => rfl
  | cons b t ih => exact (ih _).trans (h s b)

@[simp] theorem foldl_snd_mem {β γ : Type} {g : γ × State → β → γ × State} (h : ∀ t b, (g t b).2.mem = t.2.mem) (l : List β)
    (s : γ × State) :
    (l.foldl g s).2.mem = s.2.mem := by
  induction l generalizing s with
  | nil => rfl
  | cons b t ih => exact (ih _).trans (h s b)

/-- Peels a pair by hand, where unification would compare the states behind it (their arithmetic is big). -/
theorem snd_mk_mem {α : Type} (v : α) (t : State) : (v, t).2.mem = t.mem := rfl

/-! ### Words and events -/
@[simp] theorem sendVec_mem (s : State) (v : Nat) : (s.sendVec v).mem = s.mem := by simp [State.sendVec]
@[simp] theorem sendPending_mem (s : State) (v : Nat) : (s.sendPending v).mem = s.mem := by simp [State.sendPending]

/-! ### Trips and the GOOSE FIFO -/
@[simp] theorem setVer_mem (s : State) (n j off : Nat) (v : Word) : (setVer s n j off v).mem = s.mem := by simp [setVer]
@[simp] theorem tripEvent_mem (s : State) (rose now : Nat) : (tripEvent s rose now).mem = s.mem := by simp [tripEvent]
@[simp] theorem gateUpdate_mem (s : State) : (gateUpdate s).mem = s.mem := by simp [gateUpdate]
@[simp] theorem noteGcbs_mem (s : State) (hit : GType × GSrc → Bool) : (noteGcbs s hit).mem = s.mem := by simp [noteGcbs]
@[simp] theorem setScState_mem (s : State) (k : Nat) : (setScState s k).mem = s.mem := by simp [setScState]
@[simp] theorem vstUpdate_mem (s : State) (n j : Nat) : (vstUpdate s n j).mem = s.mem := by simp [vstUpdate]
@[simp] theorem vstAll_mem (s : State) (n : Nat) : (vstAll s n).mem = s.mem := by simp [vstAll]
@[simp] theorem clearVerdicts_mem (s : State) (n j : Nat) : (clearVerdicts s n j).mem = s.mem := by simp [clearVerdicts]
@[simp] theorem setAct_mem (s : State) (n j m : Nat) : (setAct s n j m).mem = s.mem := by simp [setAct]
@[simp] theorem coreFail_mem (s : State) (n cause : Nat) : (coreFail s n cause).mem = s.mem := by simp [coreFail]
@[simp] theorem stageC0_mem (s : State) (n bay off : Nat) (v : Word) : (stageC0 s n bay off v).mem = s.mem := by simp [stageC0]
@[simp] theorem enterC0_mem (s : State) (n : Nat) (w : Nat × Nat × Word) : (enterC0 s n w).mem = s.mem := by simp [enterC0]
@[simp] theorem feedOne_mem (s : State) : (feedOne s).mem = s.mem := by
  unfold feedOne
  (repeat' split) <;> simp
@[simp] theorem feedFor_mem (s : State) (k : Nat) : (feedFor s k).mem = s.mem := by
  induction k generalizing s with
  | zero => rfl
  | succ k ih => rw [feedFor, ih, feedOne_mem]
@[simp] theorem feedC0_mem (s : State) : (feedC0 s).mem = s.mem := by simp [feedC0]
@[simp] theorem verdictWrite_mem (s : State) (n j cls tick off : Nat) (v : Word) :
    (verdictWrite s n j cls tick off v).mem = s.mem := by simp [verdictWrite]

/-! ### Filters -/
@[simp] theorem setChain_mem (s : State) (n : Nat) (c : Chain) : (setChain s n c).mem = s.mem := by simp [setChain]
@[simp] theorem setRs_mem (s : State) (m : Nat) (r : Rs) : (setRs s m r).mem = s.mem := by simp [setRs]
@[simp] theorem modRs_mem (s : State) (m : Nat) (f : Rs → Rs) : (modRs s m f).mem = s.mem := by simp [modRs]
@[simp] theorem countSat_mem (s : State) (n : Nat) (b : Bool) : (countSat s n b).mem = s.mem := by simp [countSat]

/-! ### Live points -/
@[simp] theorem setLive_mem (s : State) (p : Nat) (v : Word) (q : Nat) : (setLive s p v q).mem = s.mem := by rw [setLive]
@[simp] theorem setLive64_mem (s : State) (lo hi : Nat) (v : BitVec 64) (q : Nat) :
    (setLive64 s lo hi v q).mem = s.mem := by simp [setLive64]
@[simp] theorem setLiveQ_mem (s : State) (p q : Nat) : (setLiveQ s p q).mem = s.mem := by simp [setLiveQ]
@[simp] theorem trigEvent_mem (s : State) (k sel : Nat) : (trigEvent s k sel).mem = s.mem := by simp [trigEvent]
@[simp] theorem trigVerdictBits_mem (s : State) (b isTrip : Nat) (old new : Word) :
    (trigVerdictBits s b isTrip old new).mem = s.mem := by simp [trigVerdictBits]
@[simp] theorem snapM_mem (s : State) (n j k : Nat) : (snapM s n j k).mem = s.mem := by
  induction k with
  | zero => rfl
  | succ k ih => rw [snapM, setLive_mem, ih]
@[simp] theorem snapBay_mem (s : State) (n tick j : Nat) : (snapBay s n tick j).mem = s.mem := by simp [snapBay]
@[simp] theorem twinSnap_mem (s : State) (n stamp : Nat) : (twinSnap s n stamp).mem = s.mem := by simp [twinSnap]
@[simp] theorem verdictSnapshot_mem (s : State) (n tick stamp : Nat) :
    (verdictSnapshot s n tick stamp).mem = s.mem := by simp [verdictSnapshot]

/-! ### Program checks -/
@[simp] theorem showBounds_mem (i : Image) (s : State) : (showBounds i s).mem = s.mem := foldl_mem (fun _ _ => wr_mem ..) _ s

/-! ### Element cores -/
@[simp] theorem startSection_mem (s : State) (n : Nat) (x : Ctx) (e : Nat × Nat) :
    (startSection s n x e).mem = s.mem := by simp [startSection]
@[simp] theorem takeSnaps_mem (s : State) (n : Nat) (l : List Ctx) : (takeSnaps s n l).mem = s.mem := by
  induction l generalizing s with
  | nil => rfl
  | cons x t ih =>
    rw [takeSnaps]
    split <;> simp [ih]
@[simp] theorem closeCtxs_mem (s : State) (n : Nat) : (closeCtxs s n).mem = s.mem := by simp [closeCtxs]
@[simp] theorem dispatchNext_mem (s : State) (n : Nat) : (dispatchNext s n).mem = s.mem := by
  simp only [dispatchNext]
  (repeat' split) <;> simp
@[simp] theorem setQtimed_mem (s : State) (n : Nat) (b : Bool) : (setQtimed s n b).mem = s.mem := by simp [setQtimed]
@[simp] theorem suspendOlder_mem (s : State) (n : Nat) : (suspendOlder s n).mem = s.mem := by simp [suspendOlder]
@[simp] theorem recordC0_mem (s : State) (n v : Nat) : (recordC0 s n v).mem = s.mem := by simp [recordC0]
@[simp] theorem openContext_mem (s : State) (n : Nat) (x : Ctx) : (openContext s n x).mem = s.mem := by simp [openContext]
@[simp] theorem openHeld_mem (s : State) (n : Nat) (l : List Ctx) : (openHeld s n l).mem = s.mem := by
  induction l generalizing s with
  | nil => rfl
  | cons x t ih =>
    rw [openHeld]
    split <;> simp [ih]
@[simp] theorem goOn_mem (s : State) (n : Nat) : (goOn s n).mem = s.mem := by simp [goOn]
@[simp] theorem beginContext_mem (s : State) (n : Nat) (x : Ctx) : (beginContext s n x).mem = s.mem := by simp [beginContext]
@[simp] theorem notifyCore_mem (s : State) (n : Nat) (x : Ctx) : (notifyCore s n x).mem = s.mem := by simp [notifyCore]
@[simp] theorem endSection_mem (s : State) (n : Nat) : (endSection s n).mem = s.mem := by
  unfold endSection
  split <;> simp
@[simp] theorem budgetBreach_mem (s : State) (n t : Nat) : (budgetBreach s n t).mem = s.mem := by simp [budgetBreach]
@[simp] theorem modeRequest_mem (s : State) (n j m : Nat) : (modeRequest s n j m).mem = s.mem := by simp [modeRequest]
@[simp] theorem hostMode_mem (s : State) (n j m : Nat) : (hostMode s n j m).mem = s.mem := by simp [hostMode]
@[simp] theorem applyMode_mem (s : State) (n j : Nat) : (applyMode s n j).mem = s.mem := by simp [applyMode]
@[simp] theorem groupRequest_mem (s : State) (n j g : Nat) : (groupRequest s n j g).mem = s.mem := by simp [groupRequest]
@[simp] theorem applyGroup_mem (s : State) (n j tick nn : Nat) : (applyGroup s n j tick nn).mem = s.mem := by simp [applyGroup]
@[simp] theorem applyBoundary_mem (s : State) (n tick nn : Nat) :
    (applyBoundary s n tick nn).mem = s.mem := by simp [applyBoundary]
@[simp] theorem tickNotify_mem (s : State) (n tick stamp fword nn : Nat) :
    (tickNotify s n tick stamp fword nn).mem = s.mem := by simp [tickNotify]
@[simp] theorem coreResetStart_mem (s : State) (n : Nat) : (coreResetStart s n).mem = s.mem := by simp [coreResetStart]

/-! ### Live registers -/
@[simp] theorem parityErr_mem (s : State) (o : Nat) : (parityErr s o).mem = s.mem := by simp [parityErr]

theorem parityErrIf_mem (c : Prop) [Decidable c] (s : State) (o : Nat) : (if c then parityErr s o else s).mem = s.mem := by simp

/-! ### Reads of registers -/
@[simp] theorem regRead_mem (s : State) (a : Nat) : (regRead s a).2.mem = s.mem := by
  unfold regRead
  (repeat' split) <;> simp
@[simp] theorem busRead_mem (s : State) (i : Ini) (a : Nat) : (busRead s i a).2.mem = s.mem := by
  unfold busRead
  split
  · exact regRead_mem s a
  · split <;> simp [denied_mem]

/-! ### Issue of syllables -/
@[simp] theorem ecRead_mem (s : State) (n a : Nat) : (ecRead s n a).1.mem = s.mem := by
  unfold ecRead
  (repeat' split) <;> simp
@[simp] theorem ecReads_mem (s : State) (n : Nat) (l : List Nat) : (ecReads s n l).1.mem = s.mem := by
  induction l generalizing s with
  | nil => rfl
  | cons a t ih =>
    rw [ecReads]
    split <;> simp [ih]
@[simp] theorem excReport_mem (s : State) (n cause : Nat) (x : Section) :
    (excReport s n cause x).mem = s.mem := by simp [excReport]
@[simp] theorem peException_mem (s : State) (n cause : Nat) : (peException s n cause).mem = s.mem := by
  unfold peException
  split <;> simp
@[simp] theorem taskState_mem (s : State) (t : Nat) : (taskState s t).mem = s.mem := by simp [taskState]
@[simp] theorem schedule_mem (s : State) : (schedule s).mem = s.mem := by
  unfold schedule
  (repeat' split) <;> simp
@[simp] theorem slAbort_mem (s : State) (cause : Nat) : (slAbort s cause).mem = s.mem := by
  unfold slAbort
  split <;> simp
@[simp] theorem slException_mem (s : State) (cause : Nat) : (slException s cause).mem = s.mem := by
  unfold slException
  split <;> simp
@[simp] theorem lockstepHalt_mem (s : State) (addr : Nat) : (lockstepHalt s addr).mem = s.mem := by simp [lockstepHalt]
@[simp] theorem scRead_mem (s : State) (a pc : Nat) : (scRead s a pc).1.mem = s.mem := by
  unfold scRead
  (repeat' split) <;> simp
@[simp] theorem scReads_mem (s : State) (pc : Nat) (l : List Nat) : (scReads s pc l).1.mem = s.mem := by
  induction l generalizing s with
  | nil => rfl
  | cons a t ih =>
    rw [scReads]
    split <;> simp [ih]
@[simp] theorem scRegions_mem (s : State) (l : List (Nat × Nat)) : (scRegions s l).1.mem = s.mem := scReads_mem s _ _
@[simp] theorem fetch_mem (s : State) (k : CoreSel) (pc : Nat) : (fetch s k pc).mem = s.mem := by
  cases k with
  | pe n => exact ecReads_mem s n.val _
  | sl => exact scRead_mem s _ pc

/-! ### Scheme syllables -/
@[simp] theorem modCur_mem (s : State) (f : TaskRun → TaskRun) : (modCur s f).mem = s.mem := by simp [modCur]
@[simp] theorem setTm_mem (s : State) (t : Nat) (x : Timer) : (setTm s t x).mem = s.mem := by simp [setTm]
@[simp] theorem markTm_mem (s : State) (t : Nat) : (markTm s t).mem = s.mem := by simp [markTm]

/-! ### Scheme cores -/
@[simp] theorem overrun_mem (s : State) (t : Nat) : (overrun s t).mem = s.mem := by
  simp only [overrun]
  (repeat' split) <;> simp
@[simp] theorem enqueue_mem (s : State) (t : Nat) : (enqueue s t).mem = s.mem := by simp [enqueue]
@[simp] theorem release_mem (s : State) (t : Nat) : (release s t).mem = s.mem := by simp [release]
@[simp] theorem wdtRefresh_mem (s : State) : (wdtRefresh s).mem = s.mem := by simp [wdtRefresh]
@[simp] theorem wdtFrame_mem (s : State) : (wdtFrame s).mem = s.mem := by simp [wdtFrame]
@[simp] theorem jrnFill_mem (s : State) : (jrnFill s).mem = s.mem := by simp [jrnFill]
@[simp] theorem drainWait_mem (s : State) (l : List JRec) : (drainWait s l).mem = s.mem := by
  induction l generalizing s with
  | nil => rfl
  | cons r t ih =>
    rw [drainWait]
    split
    · rfl
    · simp [ih]
@[simp] theorem sendPoint_mem (s : State) (d : OutDst) (v : Word) : (sendPoint s d v).mem = s.mem := by
  unfold sendPoint
  split <;> simp
@[simp] theorem sendAll_mem (s : State) (task : Nat) (old : List (Nat × Word)) :
    (sendAll s task old).mem = s.mem := by simp [sendAll]
@[simp] theorem recordTime_mem (s : State) (t : Nat) : (recordTime s t).mem = s.mem := by simp [recordTime]
@[simp] theorem readLines_mem (s : State) (x : TaskRun) : (readLines s x).1.mem = s.mem := by simp [readLines]
@[simp] theorem taskStates_mem (s : State) : (taskStates s).mem = s.mem := by simp [taskStates]
@[simp] theorem scResetStart_mem (s : State) : (scResetStart s).mem = s.mem := by simp [scResetStart]
@[simp] theorem setExch_mem (s : State) (st : Nat) : (setExch s st).mem = s.mem := by simp [setExch]
@[simp] theorem endExch_mem (s : State) (r : Nat) : (endExch s r).mem = s.mem := by simp [endExch]
@[simp] theorem releaseHeld_mem (s : State) : (releaseHeld s).mem = s.mem := by simp [releaseHeld]
@[simp] theorem swapCores_mem (s : State) (i : Image) : (swapCores s i).mem = s.mem := foldl_mem (fun _ _ => modCore_mem ..) _ s

/-! ### DRAM and the rings -/
@[simp] theorem ringDrop_mem (s : State) (r : Nat) : (ringDrop s r).mem = s.mem := by simp [ringDrop]
@[simp] theorem eccUncorr_mem (s : State) (w : Nat) : (eccUncorr s w).mem = s.mem := by simp [eccUncorr]
@[simp] theorem eccCorr_mem (s : State) (w : Nat) : (eccCorr s w).mem = s.mem := by simp [eccCorr]
@[simp] theorem readWord_mem (s : State) (w : Nat) : (readWord s w).2.2.mem = s.mem := by
  unfold readWord
  split <;> simp
@[simp] theorem readWords_mem (s : State) (l : List Nat) : (readWords s l).2.2.mem = s.mem := by
  induction l generalizing s with
  | nil => rfl
  | cons w t ih => simp [readWords, ih]
@[simp] theorem dramGet_mem (s : State) (x n : Nat) : (dramGet s x n).2.mem = s.mem := by
  unfold dramGet
  split <;> simp
@[simp] theorem freshWord_mem (s : State) (w : Nat) : (freshWord s w).mem = s.mem := by simp [freshWord]
@[simp] theorem ringVec_mem (s : State) (r : Nat) : (ringVec s r).mem = s.mem := by simp [ringVec]

/-! ### Yew -/
@[simp] theorem setYewNext_mem (s : State) (n : Nat) : (setYewNext s n).mem = s.mem := by simp [setYewNext]
@[simp] theorem setYewOldest_mem (s : State) (n : Nat) : (setYewOldest s n).mem = s.mem := by simp [setYewOldest]
@[simp] theorem yewLevel_mem (s : State) : (yewLevel s).mem = s.mem := by simp [yewLevel]
@[simp] theorem returnSeq_mem (s : State) (tell : SeqTo) (n : Nat) : (returnSeq s tell n).mem = s.mem := by
  unfold returnSeq
  split <;> simp
@[simp] theorem yewAppend_mem (s : State) (ev : Ev) : (yewAppend s ev).mem = s.mem := by simp [yewAppend]
@[simp] theorem yewLose_mem (s : State) (ev : Ev) : (yewLose s ev).mem = s.mem := by
  unfold yewLose
  split <;> simp
@[simp] theorem yewOvfEnd_mem (s : State) : (yewOvfEnd s).mem = s.mem := by simp [yewOvfEnd]
@[simp] theorem yewAdmit_mem (s : State) (ev : Ev) : (yewAdmit s ev).mem = s.mem := by
  unfold yewAdmit
  (repeat' split) <;> simp
@[simp] theorem admitEvents_mem (k : Nat) (s : State) : (admitEvents k s).mem = s.mem := by simp [admitEvents]
@[simp] theorem yewClearedDone_mem (s : State) (e : YEntry) : (yewClearedDone s e).mem = s.mem := by
  rw [yewClearedDone, fireVec_mem, wrb_mem, setYew_mem, wrb_mem, wr_mem, setYewOldest_mem]
@[simp] theorem yewFillBuf_mem (s : State) (b : List Byte) (w : Nat) : (yewFillBuf s b w).mem = s.mem := by
  induction w with
  | zero => rfl
  | succ w ih => rw [yewFillBuf, wr_mem, ih]
@[simp] theorem yewRenew_mem (s : State) : (yewRenew s).mem = s.mem := by simp [yewRenew]
@[simp] theorem numberEntries_mem (s : State) (l : List YEntry) (n : Nat) : (numberEntries s l n).1.mem = s.mem := by
  induction l generalizing s n with
  | nil => rfl
  | cons e t ih => simp [numberEntries, ih]
@[simp] theorem scanEnd_mem (s : State) : (scanEnd s).mem = s.mem := by simp [scanEnd]

/-! ### Resets -/
@[simp] theorem freshNonces_mem (s : State) : (freshNonces s).mem = s.mem := by simp [freshNonces]

/-! ### Privet -/
@[simp] theorem safeFrames_mem (s : State) : (safeFrames s).mem = s.mem := by simp [safeFrames]
@[simp] theorem enterSafe_mem (s : State) (cause detail : Nat) : (enterSafe s cause detail).mem = s.mem := by simp [enterSafe]
@[simp] theorem prvRewrite_mem (s : State) (a : Nat) : (prvRewrite s a).mem = s.mem := by simp [prvRewrite]
@[simp] theorem prvUpset_mem (s : State) : (prvUpset s).mem = s.mem := by simp [prvUpset]
@[simp] theorem selfCheckFails_mem (s : State) : (selfCheckFails s).mem = s.mem := by simp [selfCheckFails]
@[simp] theorem blockBays_mem (s : State) (b : Nat) : (blockBays s b).mem = s.mem := by simp [blockBays]
@[simp] theorem showWindows_mem (s : State) : (showWindows s).mem = s.mem := by simp [showWindows]
@[simp] theorem escalate_mem (s : State) (t det : Nat) : (escalate s t det).mem = s.mem := by simp [escalate]
@[simp] theorem performReset_mem (s : State) (t : Nat) : (performReset s t).mem = s.mem := by simp [performReset]
@[simp] theorem blockReset_mem (s : State) (t det : Nat) : (blockReset s t det).mem = s.mem := by simp [blockReset]
@[simp] theorem submit_mem (s : State) (k det act flags target : Nat) (tell : SeqTo) :
    (submit s k det act flags target tell).mem = s.mem := by simp [submit]
@[simp] theorem capture_mem (s : State) (k det : Nat) (sup : Option Nat) (multi : Bool) :
    (capture s k det sup multi).mem = s.mem := by simp [capture]
@[simp] theorem recordConseq_mem (s : State) (o : Nat × Nat) : (recordConseq s o).mem = s.mem := by simp [recordConseq]
@[simp] theorem recordOcc_mem (s : State) (eff : Nat) (cap : Bool) (o : Nat × Nat) :
    (recordOcc s eff cap o).mem = s.mem := by simp [recordOcc]
@[simp] theorem recordAll_mem (s : State) (eff : Nat) (l : List (Nat × Nat)) : (recordAll s eff l).mem = s.mem := by
  unfold recordAll
  split <;> simp
@[simp] theorem reactLocal_mem (s : State) (o : Nat × Nat) : (reactLocal s o).mem = s.mem := by
  unfold reactLocal
  (repeat' split) <;> simp
@[simp] theorem clockGate_mem (s : State) : (clockGate s).mem = s.mem := by simp [clockGate]
@[simp] theorem linkItem_mem (s : State) (p : Nat) : (linkItem s p).mem = s.mem := by simp [linkItem]

/-! ### Analogue front end -/
@[simp] theorem markTag_mem (s : State) (m letter a b : Nat) : (markTag s m letter a b).mem = s.mem := by simp [markTag]
@[simp] theorem markU32_mem (s : State) (m : Nat) : (markU32 s m).mem = s.mem := by simp [markU32]
@[simp] theorem chainEvent_mem (s : State) (n : Nat) : (chainEvent s n).mem = s.mem := by simp [chainEvent]
@[simp] theorem rsEvent_mem (s : State) (m : Nat) : (rsEvent s m).mem = s.mem := by simp [rsEvent]
@[simp] theorem chainFade_mem (s : State) (n a : Nat) : (chainFade s n a).mem = s.mem := by simp [chainFade]
@[simp] theorem rsFade_mem (s : State) (m a : Nat) : (rsFade s m a).mem = s.mem := by simp [rsFade]
@[simp] theorem showOverload_mem (s : State) (m : Nat) : (showOverload s m).mem = s.mem := by
  unfold showOverload
  split
  · rfl
  · exact (putBit_mem ..).trans (foldl_mem (fun _ _ => by simp) _ s)
@[simp] theorem voidDwell_mem (s : State) (k : Nat) : (voidDwell s k).mem = s.mem := by simp [voidDwell]
@[simp] theorem voidAll_mem (s : State) : (voidAll s).mem = s.mem := by simp [voidAll]
@[simp] theorem markNbrEnd_mem (s : State) (m t : Nat) : (markNbrEnd s m t).mem = s.mem := by simp [markNbrEnd]
@[simp] theorem startLoopReset_mem (s : State) (m : Nat) (pos : Bool) :
    (startLoopReset s m pos).mem = s.mem := by simp [startLoopReset]
@[simp] theorem endOverload_mem (s : State) (m : Nat) : (endOverload s m).mem = s.mem := by
  unfold endOverload
  split <;> simp
@[simp] theorem setCk_mem (s : State) (k : Nat) (c : Ck) : (setCk s k c).mem = s.mem := by simp [setCk]
@[simp] theorem ckMove_mem (s : State) (k j : Nat) : (ckMove s k j).mem = s.mem := by simp [ckMove]
@[simp] theorem ckSweep_mem (s : State) (k : Nat) : (ckSweep s k).mem = s.mem := by
  unfold ckSweep
  split <;> simp
@[simp] theorem ckFail_mem (s : State) (k : Nat) : (ckFail s k).mem = s.mem := by simp [ckFail]
@[simp] theorem ckWake_mem (s : State) (k : Nat) : (ckWake s k).mem = s.mem := by simp [ckWake]
@[simp] theorem showInval_mem (s : State) (n : Nat) (b : Bool) : (showInval s n b).mem = s.mem := by simp [showInval]
@[simp] theorem ckPass_mem (s : State) (n : Nat) : (ckPass s n).mem = s.mem := by simp [ckPass]
@[simp] theorem ckFailInput_mem (s : State) (n : Nat) : (ckFailInput s n).mem = s.mem := by simp [ckFailInput]
@[simp] theorem ckGroups_mem (s : State) (k j : Nat) : (ckGroups s k j).mem = s.mem := by simp [ckGroups]
@[simp] theorem ckNext_mem (s : State) (k : Nat) : (ckNext s k).mem = s.mem := by
  unfold ckNext
  (repeat' split) <;> simp
@[simp] theorem refFail_mem (s : State) (g : Nat) : (refFail s g).mem = s.mem := by simp [refFail]
@[simp] theorem settleGroup_mem (s : State) (g : Nat) : (settleGroup s g).mem = s.mem := by simp [settleGroup]
@[simp] theorem startInput_mem (s : State) (n : Nat) : (startInput s n).mem = s.mem := by simp [startInput]
@[simp] theorem closeSet_mem (s : State) (n : Nat) (a : Accum) : (closeSet s n a).mem = s.mem := by simp [closeSet]
@[simp] theorem openWindow_mem (s : State) (n : Nat) : (openWindow s n).mem = s.mem := by simp [openWindow]

/-! ### Memory syllables -/
@[simp] theorem slLoad_mem (s : State) (a pc : Nat) : (slLoad s a pc).2.mem = s.mem := by
  rw [slLoad]
  split
  · rfl
  split
  · exact (snd_mk_mem ..).trans (scRead_mem s _ pc)
  split
  · exact (snd_mk_mem ..).trans (busRead_mem s .sc _)
  · rfl
@[simp] theorem window_mem (s : State) (n : Nat) (x : Section) (ch age : Nat) : (window s n x ch age).2.mem = s.mem := by
  rw [window]
  split
  · rfl
  · rw [parityErrIf_mem, parityErrIf_mem]

/-! ### The grid -/
@[simp] theorem setFtg_mem (s : State) (g : Nat) (f : Ftg) : (setFtg s g f).mem = s.mem := by simp [setFtg]
@[simp] theorem modFtg_mem (s : State) (g : Nat) (k : Ftg → Ftg) : (modFtg s g k).mem = s.mem := by simp [modFtg]
@[simp] theorem showFtgs_mem (s : State) : (showFtgs s).mem = s.mem := by simp [showFtgs]
@[simp] theorem espRead_mem (s : State) (m slot : Nat) :
    (espRead s m slot).2.mem = s.mem := by rw [espRead, parityErrIf_mem, parityErrIf_mem]
@[simp] theorem phStored_mem (s : State) (m : Nat) (i : Inst) : (phStored s m i).mem = s.mem := by simp [phStored]
@[simp] theorem placeInstant_mem (s : State) (g : Nat) : (placeInstant s g).mem = s.mem := by simp [placeInstant]
@[simp] theorem placeAll_mem (s : State) : (placeAll s).mem = s.mem := by simp [placeAll]
@[simp] theorem startFtg_mem (s : State) (g : Nat) : (startFtg s g).mem = s.mem := by simp [startFtg]
@[simp] theorem restartLocal_mem (s : State) (m : Nat) : (restartLocal s m).mem = s.mem := by simp [restartLocal]
@[simp] theorem restartSv_mem (s : State) (m : Nat) : (restartSv s m).mem = s.mem := by simp [restartSv]
@[simp] theorem markAbsent_mem (s : State) (m : Nat) : (markAbsent s m).mem = s.mem := by simp [markAbsent]
@[simp] theorem restartRs_mem (s : State) (m : Nat) : (restartRs s m).mem = s.mem := by simp [restartRs]
@[simp] theorem phaseStepFtg_mem (s : State) (d : Int) (g : Nat) : (phaseStepFtg s d g).mem = s.mem := by simp [phaseStepFtg]
@[simp] theorem switchStep_mem (s : State) : (switchStep s).mem = s.mem := by simp [switchStep]

/-! ### Chains and resamplers -/
@[simp] theorem settleStage_mem (s : State) (n : Nat) (keepPend : Bool) (st : Nat) :
    (settleStage s n keepPend st).mem = s.mem := by
  simp only [settleStage]
  (repeat' split) <;> simp
@[simp] theorem settleChain_mem (s : State) (n : Nat) : (settleChain s n).mem = s.mem := by simp [settleChain]
@[simp] theorem settleRs_mem (s : State) (m : Nat) : (settleRs s m).mem = s.mem := by
  unfold settleRs
  split <;> simp
@[simp] theorem requestHb_mem (s : State) (n st b : Nat) : (requestHb s n st b).mem = s.mem := by simp [requestHb]
@[simp] theorem requestRs_mem (s : State) (m b : Nat) : (requestRs s m b).mem = s.mem := by simp [requestRs]
@[simp] theorem startHb_mem (s : State) (n st : Nat) : (startHb s n st).mem = s.mem := by
  simp only [startHb]
  (repeat' split) <;> simp
@[simp] theorem startRs_mem (s : State) (m : Nat) : (startRs s m).mem = s.mem := by
  unfold startRs
  split <;> simp
@[simp] theorem finishHb_mem (s : State) (n st : Nat) : (finishHb s n st).mem = s.mem := by
  simp only [finishHb]
  (repeat' split) <;> simp
@[simp] theorem finishRs_mem (s : State) (m : Nat) : (finishRs s m).mem = s.mem := by
  unfold finishRs
  split <;> simp
@[simp] theorem dwellPair_mem (s : State) (n : Nat) (p c : Int) : (dwellPair s n p c).mem = s.mem := by simp [dwellPair]
@[simp] theorem pushLocal_mem (s : State) (n m : Nat) (x : Int) : (pushLocal s n m x).mem = s.mem := by simp [pushLocal]
@[simp] theorem stageIn_mem (s : State) (n st : Nat) (x : Int) : (stageIn s n st x).1.mem = s.mem := by simp [stageIn]
@[simp] theorem restOfChain_mem (fuel : Nat) (s : State) (n st : Nat) (x : Int) : (restOfChain fuel s n st x).mem = s.mem := by
  induction fuel generalizing s st x with
  | zero => rfl
  | succ fuel ih =>
    rw [restOfChain]
    split
    · dsimp only
      split
      · split <;> simp
      · simp
    · dsimp only
      split
      · simp [ih]
      · simp
@[simp] theorem fastTap_mem (s : State) (n : Nat) (x : Int) (c : Int) : (fastTap s n x c).mem = s.mem := by simp [fastTap]
@[simp] theorem tapBit_mem (n : Nat) (c : Int) (s : State) (b : Bool) : (tapBit n c s b).mem = s.mem := by
  simp only [tapBit]
  (repeat' split) <;> simp
@[simp] theorem feedBits_mem (n : Nat) (c : Int) (l : List Bool) (s : State) : (feedBits n c l s).mem = s.mem := by
  induction l generalizing s with
  | nil => rfl
  | cons b t ih => simp [feedBits, ih]
@[simp] theorem readyRs_mem (s : State) (m : Nat) : (readyRs s m).mem = s.mem := by simp [readyRs]
@[simp] theorem bridgeAt_mem (m j : Nat) (s : State) : (bridgeAt m j s).mem = s.mem := by
  simp only [bridgeAt]
  (repeat' split) <;> simp
@[simp] theorem seeInput_mem (e : SvIn) (s : State) (m : Nat) : (seeInput e s m).mem = s.mem := by simp [seeInput]
@[simp] theorem storeBank_mem (w : Nat) (l : List Word) (s : State) : (storeBank w l s).mem = s.mem := by simp [storeBank]
@[simp] theorem commitEnds_mem (s : State) : (commitEnds s).mem = s.mem := by simp [commitEnds]
@[simp] theorem zeroRsOf_mem (s : State) (n : Nat) : (zeroRsOf s n).mem = s.mem := by
  unfold zeroRsOf
  split <;> simp
@[simp] theorem restartChain_mem (s : State) (n : Nat) : (restartChain s n).mem = s.mem := by simp [restartChain]
@[simp] theorem stopRs_mem (s : State) (m : Nat) : (stopRs s m).mem = s.mem := by simp [stopRs]
@[simp] theorem startRsRun_mem (s : State) (m : Nat) : (startRsRun s m).mem = s.mem := by simp [startRsRun]

/-! ### Recorder rows -/
@[simp] theorem setAu_mem (s : State) (u : Nat) (x : Au) : (setAu s u x).mem = s.mem := by simp [setAu]
@[simp] theorem setAuState_mem (s : State) (u st : Nat) : (setAuState s u st).mem = s.mem := by simp [setAuState]
@[simp] theorem gridVals_mem (slot : Nat) (l : List Nat) (s : State) : (gridVals slot l s).2.mem = s.mem := by
  induction l generalizing s with
  | nil => rfl
  | cons m t ih => simp [gridVals, ih]
@[simp] theorem gridRow_mem (s : State) (u : Nat) (i : Inst) : (gridRow s u i).2.mem = s.mem := gridVals_mem _ _ s
@[simp] theorem maskStep_mem (u : Nat) (r : SrcRow) (a : State × List Nat) (m : Nat) : (maskStep u r a m).1.mem = a.1.mem := by
  unfold maskStep
  dsimp only
  split
  · rfl
  · split
    · rfl
    · split <;> simp
@[simp] theorem recEvt_mem (s : State) (code u n : Nat) : (recEvt s code u n).mem = s.mem := by simp [recEvt]
@[simp] theorem stallTrigger_mem (s : State) (u : Nat) : (stallTrigger s u).mem = s.mem := by simp [stallTrigger]
@[simp] theorem holdTrigger_mem (s : State) (u : Nat) : (holdTrigger s u).mem = s.mem := by simp [holdTrigger]
@[simp] theorem retrigger_mem (s : State) (u : Nat) (c : CurRec) (kept : Bool) :
    (retrigger s u c kept).mem = s.mem := by simp [retrigger]
@[simp] theorem loseRow_mem (s : State) (u : Nat) : (loseRow s u).mem = s.mem := by simp [loseRow]

/-! ### Espalier -/
@[simp] theorem strChannel_mem (s : State) (b m t nn closed : Nat) : (strChannel s b m t nn closed).2.mem = s.mem := by
  unfold strChannel
  (repeat' split) <;> simp
@[simp] theorem strScan_mem (b t nn closed : Nat) (chs : List Nat) (s : State) :
    (strScan b t nn closed chs s).2.mem = s.mem := by simp [strScan]
@[simp] theorem starter_mem (t nn closed : Nat) (s : State) (b : Nat) :
    (starter t nn closed s b).mem = s.mem := by simp [starter]
@[simp] theorem srcSample_mem (s : State) (one : Bool) (c0 c1 c2 slot : Nat) :
    (srcSample s one c0 c1 c2 slot).2.mem = s.mem := by
  simp only [srcSample]
  (repeat' split) <;> simp
@[simp] theorem cycPhasor_mem (one : Bool) (c0 c1 c2 nn j : Nat) (l : List Nat) (p : Option F32.Cx) (s : State) :
    (cycPhasor one c0 c1 c2 nn j l p s).2.mem = s.mem := by
  induction l generalizing s j p with
  | nil => rfl
  | cons x t ih => exact (ih ..).trans (srcSample_mem ..)
@[simp] theorem srcPhase_mem (s : State) (one : Bool) (c0 c1 c2 nn : Nat) (slots : List Nat) (mn : Word) :
    (srcPhase s one c0 c1 c2 nn slots mn).2.mem = s.mem := by
  unfold srcPhase
  dsimp only
  split
  · simp
  · split <;> simp
@[simp] theorem putCyc_mem (s : State) (g k : Nat) (c : Cyc) : (putCyc s g k c).mem = s.mem := by simp [putCyc]
@[simp] theorem trackTo_mem (s : State) (g k fm : Nat) (cur : Bool) : (trackTo s g k fm cur).mem = s.mem := by simp [trackTo]
@[simp] theorem holdTo_mem (s : State) (g k : Nat) : (holdTo s g k).mem = s.mem := by simp [holdTo]
@[simp] theorem measure_mem (s : State) (g : Nat) (i : Inst) : (measure s g i).mem = s.mem := by
  simp only [measure]
  (repeat' split) <;> simp
@[simp] theorem storeCfg_mem (s : State) (g : Nat) (fixed : Bool) (fnom n : Nat) :
    (storeCfg s g fixed fnom n).mem = s.mem := by simp [storeCfg]
@[simp] theorem restartGrid_mem (s : State) (g : Nat) : (restartGrid s g).mem = s.mem := by simp [restartGrid]

/-! ### Security -/
@[simp] theorem putSecBuf_mem (w : Nat) (l : List Byte) (s : State) : (putSecBuf w l s).mem = s.mem := by
  fun_induction putSecBuf w l s with
  | case1 w b0 b1 b2 b3 t s ih => rw [ih, wr_mem]
  | case2 => rfl
@[simp] theorem secStart_mem (s : State) (op : Nat) : (secStart s op).mem = s.mem := by simp [secStart]
@[simp] theorem attestDone_mem (s : State) : (attestDone s).mem = s.mem := by simp [attestDone]
@[simp] theorem tokenAct_mem (s : State) (b : List Byte) : (tokenAct s b).mem = s.mem := by
  unfold tokenAct
  split <;> simp
@[simp] theorem renewNonce_mem (s : State) : (renewNonce s).mem = s.mem := by simp [renewNonce]
@[simp] theorem tokenDone_mem (s : State) (sigOk : Bool) : (tokenDone s sigOk).1.mem = s.mem := by
  unfold tokenDone
  split <;> simp
@[simp] theorem enrollDone_mem (s : State) (onCurve : Bool) : (enrollDone s onCurve).1.mem = s.mem := by
  unfold enrollDone
  (repeat' split) <;> simp
@[simp] theorem setKeySlot_mem (s : State) (k : Nat) (x : KeySlot) : (setKeySlot s k x).mem = s.mem := by simp [setKeySlot]
@[simp] theorem rollSlot_mem (s : State) (k : Nat) : (rollSlot s k).mem = s.mem := by
  simp only [rollSlot]
  (repeat' split) <;> simp
@[simp] theorem rollAll_mem (s : State) : (rollAll s).mem = s.mem := by simp [rollAll]
@[simp] theorem keyloadDone_mem (s : State) : (keyloadDone s).1.mem = s.mem := by
  simp only [keyloadDone]
  (repeat' split) <;> simp
@[simp] theorem keyclrDone_mem (s : State) : (keyclrDone s).1.mem = s.mem := by simp [keyclrDone]
@[simp] theorem signWith_mem (s : State) (k : Nat) : (signWith s k).2.mem = s.mem := by
  unfold signWith
  dsimp only
  split
  · rfl
  · split <;> simp
@[simp] theorem seeSensor_mem (s : State) (k : Nat) : (seeSensor s k).mem = s.mem := by simp [seeSensor]

/-! ### Sampled values -/
@[simp] theorem setSub_mem (s : State) (n : Nat) (x : SvSub) : (setSub s n x).mem = s.mem := by simp [setSub]
@[simp] theorem setSubState_mem (s : State) (n st : Nat) : (setSubState s n st).mem = s.mem := by simp [setSubState]
@[simp] theorem setDir_mem (s : State) (d : List (Nat × DirEnt)) : (setDir s d).mem = s.mem := by simp [setDir]
@[simp] theorem unlinkSub_mem (s : State) (goose : Bool) (n : Nat) : (unlinkSub s goose n).mem = s.mem := by simp [unlinkSub]
@[simp] theorem dirLearn_mem (s : State) (port : Nat) (e : DirEnt) : (dirLearn s port e).1.mem = s.mem := by
  unfold dirLearn
  (repeat' split) <;> simp
@[simp] theorem dirClaim_mem (node src appid : Nat) (s : State) (e : Nat × DirEnt) :
    (dirClaim node src appid s e).mem = s.mem := by simp [dirClaim]
@[simp] theorem snapStart_mem (s : State) : (snapStart s).mem = s.mem := by simp [snapStart]
@[simp] theorem dirRestore_mem (s0 : State) : (dirRestore s0).mem = s0.mem := by
  simp only [dirRestore]
  (repeat' split) <;> simp
@[simp] theorem fillBuf_mem (l : List Byte) (s : State) : (fillBuf l s).mem = s.mem := foldl_mem (fun _ _ => wr_mem ..) _ s
@[simp] theorem formatDrop_mem (s : State) (n : Nat) : (formatDrop s n).mem = s.mem := by simp [formatDrop]
@[simp] theorem authDrop_mem (s : State) (n : Nat) : (authDrop s n).mem = s.mem := by simp [authDrop]
@[simp] theorem confrevBad_mem (s0 : State) (n got : Nat) : (confrevBad s0 n got).mem = s0.mem := by simp [confrevBad]
@[simp] theorem acceptState_mem (s : State) (n : Nat) : (acceptState s n).mem = s.mem := by simp [acceptState]
@[simp] theorem svAsdu_mem (n : Nat) (f : SvFrame) (ta total : Nat) (exact : Bool) (p : State × Nat) (a : SvAsdu) :
    (svAsdu n f ta total exact p a).1.mem = p.1.mem := by
  unfold svAsdu
  extract_lets s k r x timed b nom ts st fresh idx late
  split
  · exact sat1_mem s _
  split
  · exact sat1_mem s _
  · rw [acceptState_mem, mem_ite, setSvi_mem, ite_self, setSub_mem]
@[simp] theorem svAccept_mem (s : State) (n : Nat) (f : SvFrame) (ta : Nat) : (svAccept s n f ta).mem = s.mem := by
  unfold svAccept
  extract_lets sync timed x change s1 s2 s3 s4 r old s5
  have h2 : s2.mem = s.mem := by simp [s2, s1]
  have h4 : s4.mem = s.mem := by simp [s4, s3, h2]
  have h5 : s5.mem = s4.mem := by
    simp only [s5]
    split
    · split
      · rw [wr_mem, wr_mem]
      · rfl
    · rfl
  exact (foldl_fst_mem (fun _ _ => svAsdu_mem ..) _ (s5, 0)).trans (h5.trans h4)
@[simp] theorem svSteps_mem (s : State) (n : Nat) (f : SvFrame) (ta : Nat) : (svSteps s n f ta).mem = s.mem := by
  unfold svSteps
  split <;> simp
@[simp] theorem svLearn_mem (s : State) (f : SvFrame) (link : Option Nat) : (svLearn s f link).mem = s.mem := by
  unfold svLearn
  (repeat' split) <;> simp
@[simp] theorem svFrame_mem (s : State) (f : SvFrame) : (svFrame s f).mem = s.mem := by
  simp only [svFrame]
  (repeat' split) <;> simp
@[simp] theorem svRestart_mem (s : State) (n : Nat) : (svRestart s n).mem = s.mem := by simp [svRestart]
@[simp] theorem storeSvCfg_mem (s : State) (n v : Nat) : (storeSvCfg s n v).mem = s.mem := by simp [storeSvCfg]
@[simp] theorem storeSvReg_mem (s : State) (n : Nat) (r : SvReg) (v : Nat) : (storeSvReg s n r v).mem = s.mem := by
  unfold storeSvReg
  split <;> simp
@[simp] theorem phaseStep_mem (s : State) (d : Int) : (phaseStep s d).mem = s.mem := by simp [phaseStep]

/-! ### The network -/
@[simp] theorem setPort_mem (s : State) (p : Nat) (x : NPort) : (setPort s p x).mem = s.mem := by simp [setPort]
@[simp] theorem c0Update_mem (s : State) : (c0Update s).mem = s.mem := by simp [c0Update]
@[simp] theorem setQueue_mem (s : State) (p q : Nat) (l : List EgFrame) : (setQueue s p q l).mem = s.mem := by simp [setQueue]
@[simp] theorem modTx_mem (s : State) (k : Nat) (f : TxDesc → TxDesc) : (modTx s k f).mem = s.mem := by simp [modTx]
@[simp] theorem dropFrame_mem (s : State) (p : Nat) (f : EgFrame) : (dropFrame s p f).mem = s.mem := by
  unfold dropFrame
  split <;> simp
@[simp] theorem enqueueFrame_mem (s : State) (p q : Nat) (f : EgFrame) :
    (enqueueFrame s p q f).mem = s.mem := by simp [enqueueFrame]
@[simp] theorem gateNext_mem (s : State) (p : Nat) : (gateNext s p).mem = s.mem := by
  simp only [gateNext]
  (repeat' split) <;> simp
@[simp] theorem gateHold_mem (s : State) (p : Nat) : (gateHold s p).mem = s.mem := by
  unfold gateHold
  split <;> simp
@[simp] theorem gateWait_mem (s : State) (p : Nat) : (gateWait s p).mem = s.mem := by simp [gateWait]
@[simp] theorem gateStep_mem (s : State) : (gateStep s).mem = s.mem := by simp [gateStep]
@[simp] theorem putBank_mem (p : Nat) (l : List Nat) (e : Nat) (s : State) : (putBank p l e s).mem = s.mem := by
  induction l generalizing e s with
  | nil => rfl
  | cons v t ih => rw [putBank, ih, wr_mem, wr_mem]
@[simp] theorem swapBanks_mem (s : State) (p : Nat) : (swapBanks s p).mem = s.mem := by simp [swapBanks]
@[simp] theorem syncCorr_mem (s : State) (port base : Nat) (stamp : Int) (o pos : Nat) :
    (syncCorr s port base stamp o pos).2.mem = s.mem := by
  unfold syncCorr
  split <;> simp
@[simp] theorem frameSent_mem (s : State) (p pos : Nat) (f : EgFrame) : (frameSent s p pos f).1.mem = s.mem := by
  simp only [frameSent]
  (repeat' split) <;> simp
@[simp] theorem sendCopy_mem (f : EgFrame) (qOf : Nat → Nat) (seq : Nat) (s : State) (p : Nat) :
    (sendCopy f qOf seq s p).mem = s.mem := by simp [sendCopy]
@[simp] theorem sendLocal_mem (s : State) (ports : List Nat) (qOf : Nat → Nat) (f : EgFrame) :
    (sendLocal s ports qOf f).mem = s.mem := by simp [sendLocal]
@[simp] theorem verifyStart_mem (s : State) (p : Nat) : (verifyStart s p).mem = s.mem := by simp [verifyStart]
@[simp] theorem verifyAgain_mem (s : State) (p : Nat) : (verifyAgain s p).mem = s.mem := by simp [verifyAgain]
@[simp] theorem pdDown_mem (s : State) (p : Nat) : (pdDown s p).mem = s.mem := by simp [pdDown]
@[simp] theorem dupPut_mem (s : State) (e : DupEnt) : (dupPut s e).mem = s.mem := by
  unfold dupPut
  split <;> simp

/-! ### GOOSE -/
@[simp] theorem setPub_mem (s : State) (c : Nat) (x : Pub) : (setPub s c x).mem = s.mem := by simp [setPub]
@[simp] theorem extOctets_mem (s : State) (k : Option (Nat × Nat)) : (extOctets s k).2.mem = s.mem := by
  unfold extOctets
  split <;> simp
@[simp] theorem supersede_mem (s : State) : (supersede s).mem = s.mem := by simp [supersede]
@[simp] theorem emitGoose_mem (s : State) (c : Nat) (g : Gcb) : (emitGoose s c g).mem = s.mem := by
  unfold emitGoose
  extract_lets x k r f ports
  have hk : k.2.mem = s.mem := by
    simp only [k]
    split <;> simp
  have hr : r.2.mem = s.mem := (extOctets_mem k.2 k.1).trans hk
  split
  · simp [hr]
  next q s1 _ =>
    have h1 : s1.mem = s.mem := by simp [s1, hr]
    split <;> simp [h1]
@[simp] theorem newGooseState_mem (s : State) (c : Nat) (g : Gcb) : (newGooseState s c g).mem = s.mem := by simp [newGooseState]
@[simp] theorem readC0_mem (s : State) : (readC0 s).mem = s.mem := by
  simp only [readC0]
  (repeat' split) <;> simp
@[simp] theorem buildC0_mem (s : State) : (buildC0 s).mem = s.mem := by
  unfold buildC0
  split <;> simp
@[simp] theorem setGsub_mem (s : State) (n : Nat) (x : GSubSt) : (setGsub s n x).mem = s.mem := by simp [setGsub]
@[simp] theorem gsubRequal_mem (s : State) (n : Nat) : (gsubRequal s n).mem = s.mem := by simp [gsubRequal]
@[simp] theorem setGsubState_mem (s : State) (n st : Nat) : (setGsubState s n st).mem = s.mem := by simp [setGsubState]
@[simp] theorem gsubStart_mem (s : State) (n : Nat) : (gsubStart s n).mem = s.mem := by simp [gsubStart]
@[simp] theorem putMembers_mem (n m : Nat) (l : List (GType × BitVec 64)) (s : State) : (putMembers n m l s).mem = s.mem := by
  induction l generalizing m s with
  | nil => rfl
  | cons e t ih => rw [putMembers, ih, setLive64_mem]
@[simp] theorem takeState_mem (s : State) (n : Nat) (f : GFrame) (x : GSubSt) : (takeState s n f x).mem = s.mem := by
  rw [takeState]
  simp
@[simp] theorem gooseNumbers_mem (s : State) (n : Nat) (f : GFrame) : (gooseNumbers s n f).mem = s.mem := by simp [gooseNumbers]
@[simp] theorem gooseChecks_mem (f : GFrame) (s : State) (e : Nat × Gsub) :
    (gooseChecks f s e).mem = s.mem := by simp [gooseChecks]
@[simp] theorem gooseLearn_mem (s : State) (f : GFrame) (link : Option Nat) :
    (gooseLearn s f link).mem = s.mem := by simp [gooseLearn]

/-! ### Recorder -/
@[simp] theorem fillState_mem (s : State) (u : Nat) : (fillState s u).mem = s.mem := by simp [fillState]

/-! ### Loading -/
@[simp] theorem putFld_mem (s : State) (e : Fld × Nat) : (putFld s e).mem = s.mem := by simp [putFld]
@[simp] theorem putFlds_mem (lo hi : Nat) (l : List (Fld × Nat)) (s : State) :
    (putFlds lo hi l s).mem = s.mem := by simp [putFlds]
@[simp] theorem loadBank_mem (s : State) (e : Nat × List Word) : (loadBank s e).mem = s.mem := by simp [loadBank]
@[simp] theorem putBanks_mem (l : List (Nat × List Word)) (s : State) : (putBanks l s).mem = s.mem := by simp [putBanks]
@[simp] theorem startGrids_mem (s : State) : (startGrids s).mem = s.mem := by simp [startGrids]
@[simp] theorem startAfe_mem (s : State) : (startAfe s).mem = s.mem := by simp [startAfe]
@[simp] theorem endReset_mem (s : State) (t : Nat) : (endReset s t).mem = s.mem := by simp [endReset]

/-! ### Thorn -/
@[simp] theorem setBin_mem (s : State) (i : Nat) (b : Bin) : (setBin s i b).mem = s.mem := by simp [setBin]
@[simp] theorem edgeTo_mem (s : State) (i : Nat) (pin : Bool) : (edgeTo s i pin).mem = s.mem := by simp [edgeTo]
@[simp] theorem binLevels_mem (s : State) : (binLevels s).mem = s.mem := by simp [binLevels]
@[simp] theorem pushBev_mem (s : State) (i : Nat) (level chatrel : Bool) (ts : Nat) :
    (pushBev s i level chatrel ts).mem = s.mem := by simp [pushBev]
@[simp] theorem takeLevel_mem (s : State) (i : Nat) (b : Bin) (chatrel : Bool) (ts : Nat) :
    (takeLevel s i b chatrel ts).mem = s.mem := by simp [takeLevel]

/-! ### Time -/
@[simp] theorem shadowAll_mem (s : State) : (shadowAll s).mem = s.mem := by simp [shadowAll]
@[simp] theorem tickShadows_mem (s : State) : (tickShadows s).mem = s.mem := by simp [tickShadows]
@[simp] theorem timEvent_mem (s : State) (code : Nat) (head : List Byte) (a b : Int) :
    (timEvent s code head a b).mem = s.mem := by simp [timEvent]
@[simp] theorem tqUpdate_mem (s : State) : (tqUpdate s).mem = s.mem := by simp [tqUpdate]
@[simp] theorem stickAct_mem (s : State) (f : Fld) : (stickAct s f).mem = s.mem := by simp [stickAct]
@[simp] theorem setTpo_mem (s : State) (k : Nat) (x : Tpo) : (setTpo s k x).mem = s.mem := by simp [setTpo]
@[simp] theorem tpoLate_mem (s : State) (k : Nat) : (tpoLate s k).mem = s.mem := by simp [tpoLate]
@[simp] theorem tpoFall_mem (s : State) (k now : Nat) : (tpoFall s k now).mem = s.mem := by
  simp only [tpoFall]
  (repeat' split) <;> simp
@[simp] theorem tpoRise_mem (s : State) (k now : Nat) : (tpoRise s k now).mem = s.mem := by
  simp only [tpoRise]
  (repeat' split) <;> simp
@[simp] theorem tpoJump_mem (s : State) (k : Nat) : (tpoJump s k).mem = s.mem := by
  unfold tpoJump
  split <;> simp
@[simp] theorem tpoJumps_mem (s : State) (b : Nat) : (tpoJumps s b).mem = s.mem := by simp [tpoJumps]
@[simp] theorem stepBase_mem (s : State) (b v cause : Nat) : (stepBase s b v cause).mem = s.mem := by simp [stepBase]
@[simp] theorem domainSwitch_mem (s : State) (sel : Nat) : (domainSwitch s sel).mem = s.mem := by simp [domainSwitch]
@[simp] theorem setTbState_mem (s : State) (b st : Nat) : (setTbState s b st).mem = s.mem := by simp [setTbState]
@[simp] theorem applyAdj_mem (s : State) (b : Nat) (integ adj : Word) :
    (applyAdj s b integ adj).mem = s.mem := by simp [applyAdj]
@[simp] theorem runServo_mem (s : State) (b : Nat) (o : Int) : (runServo s b o).mem = s.mem := by
  simp only [runServo]
  (repeat' split) <;> simp
@[simp] theorem acquire_mem (s : State) (b : Nat) (o : Int) (cause : Nat) :
    (acquire s b o cause).mem = s.mem := by simp [acquire]
@[simp] theorem pathChange_mem (s : State) (b : Nat) (d : Int) : (pathChange s b d).mem = s.mem := by simp [pathChange]
@[simp] theorem rejectOffset_mem (s : State) (b : Nat) (d : Int) : (rejectOffset s b d).mem = s.mem := by simp [rejectOffset]
@[simp] theorem endPath_mem (s : State) (b : Nat) : (endPath s b).mem = s.mem := by simp [endPath]
@[simp] theorem useOffset_mem (s : State) (b : Nat) (raw : Int) : (useOffset s b raw).mem = s.mem := by simp [useOffset]
@[simp] theorem syncFor_mem (m : SyncMsg) (s : State) (b : Nat) : (syncFor m s b).mem = s.mem := by
  unfold syncFor
  (repeat' split) <;> simp
@[simp] theorem followFor_mem (m : FollowUp) (s : State) (b : Nat) : (followFor m s b).mem = s.mem := by
  unfold followFor
  (repeat' split) <;> simp
@[simp] theorem tbModeSet_mem (s : State) (b : Nat) : (tbModeSet s b).mem = s.mem := by simp [tbModeSet]
@[simp] theorem setPd_mem (s : State) (p : Nat) (x : PDelay) : (setPd s p x).mem = s.mem := by simp [setPd]
@[simp] theorem pdMiss_mem (s : State) (p : Nat) : (pdMiss s p).mem = s.mem := by simp [pdMiss]
@[simp] theorem tciPush_mem (s : State) (e : TciEnt) : (tciPush s e).mem = s.mem := by simp [tciPush]

/-! ### Twins -/
@[simp] theorem b5Key_mem (s : State) : (b5Key s).2.mem = s.mem := by
  unfold b5Key
  split <;> simp
@[simp] theorem twinPoints_mem (s : State) : (twinPoints s).mem = s.mem := by simp [twinPoints]
@[simp] theorem evalXmode_mem (s : State) : (evalXmode s).mem = s.mem := by simp [evalXmode]
@[simp] theorem twinPace_mem (s : State) : (twinPace s).mem = s.mem := by simp [twinPace]
@[simp] theorem twinEnable_mem (s : State) : (twinEnable s).mem = s.mem := by simp [twinEnable]
@[simp] theorem disagree_mem (s : State) (w : TwWin) : (disagree s w).mem = s.mem := by simp [disagree]
@[simp] theorem judgeOne_mem (s : State) (w : TwWin) : (judgeOne s w).mem = s.mem := by
  unfold judgeOne
  split <;> simp
@[simp] theorem judgeAll_mem (s : State) : (judgeAll s).mem = s.mem := by simp [judgeAll]
@[simp] theorem takeSpan_mem (s : State) (own : Bool) (f : TwSpan) : (takeSpan s own f).mem = s.mem := by simp [takeSpan]
@[simp] theorem sendTwin_mem (s : State) (f : TwinFrame) : (sendTwin s f).mem = s.mem := by simp [sendTwin]
@[simp] theorem twinExtra_mem (s : State) (u : Nat) : (twinExtra s u).mem = s.mem := by simp [twinExtra]
@[simp] theorem storePartner_mem (s : State) (f : TwinFrame) : (storePartner s f).mem = s.mem :=
  foldl_mem (fun _ _ => wr_mem ..) _ _
@[simp] theorem compareDigest_mem (s : State) (f : TwinFrame) : (compareDigest s f).mem = s.mem := by
  unfold compareDigest
  (repeat' split) <;> simp
@[simp] theorem acceptTwin_mem (s : State) (f : TwinFrame) : (acceptTwin s f).mem = s.mem := by simp [acceptTwin]
@[simp] theorem otherPartner_mem (s : State) (id : Nat) : (otherPartner s id).mem = s.mem := by simp [otherPartner]
@[simp] theorem twinSteps_mem (s : State) (f : TwinFrame) : (twinSteps s f).mem = s.mem := by simp [twinSteps]
@[simp] theorem b5OtherVersion_mem (s : State) : (b5OtherVersion s).mem = s.mem := by simp [b5OtherVersion]
@[simp] theorem clashCheck_mem (s : State) (h : B5Head) : (clashCheck s h).mem = s.mem := by simp [clashCheck]
@[simp] theorem segmentCheck_mem (s : State) (h : B5Head) : (segmentCheck s h).mem = s.mem := by simp [segmentCheck]
@[simp] theorem beaconClaims_mem (s : State) (f : Beacon) : (beaconClaims s f).mem = s.mem := by simp [beaconClaims]

/-! ### Start-up and power -/
@[simp] theorem glbEvent_mem (s : State) (code : Nat) (payload : List Byte) :
    (glbEvent s code payload).mem = s.mem := by simp [glbEvent]
@[simp] theorem setPwr_mem (s : State) (st : Nat) : (setPwr s st).mem = s.mem := by simp [setPwr]
@[simp] theorem movePwr_mem (s : State) (st : Nat) : (movePwr s st).mem = s.mem := by simp [movePwr]
@[simp] theorem dropFlds_mem (s : State) (lo hi : Nat) : (dropFlds s lo hi).mem = s.mem := by simp [dropFlds]
@[simp] theorem clearCrossings_mem (s : State) : (clearCrossings s).mem = s.mem := by simp [clearCrossings]
@[simp] theorem loadBases_mem (s : State) : (loadBases s).mem = s.mem := by simp [loadBases]
@[simp] theorem dropPd0_mem (s : State) : (dropPd0 s).mem = s.mem := by simp [dropPd0]
@[simp] theorem pdStarts_mem (s : State) (d : Nat) : (pdStarts s d).mem = s.mem := by
  unfold pdStarts
  split <;> simp
@[simp] theorem setFail_mem (s : State) (slot reason : Nat) : (setFail s slot reason).mem = s.mem := by simp [setFail]
@[simp] theorem startCore_mem (s : State) (n : Nat) : (startCore s n).mem = s.mem := by simp [startCore]
@[simp] theorem startFab_mem (s : State) : (startFab s).mem = s.mem := by simp [startFab]
@[simp] theorem startPd8_mem (s : State) : (startPd8 s).mem = s.mem := by
  simp only [startPd8]
  (repeat' split) <;> simp
@[simp] theorem putLocks_mem (lo hi : Nat) (l : List Fld) (s : State) : (putLocks lo hi l s).mem = s.mem := by simp [putLocks]
@[simp] theorem tamperAgain_mem (s : State) : (tamperAgain s).mem = s.mem := foldl_mem (fun _ _ => raiseLine_mem ..) _ s
@[simp] theorem stopTasks_mem (s : State) : (stopTasks s).mem = s.mem := by simp [stopTasks]
@[simp] theorem powerRequest_mem (s : State) (req : Nat) : (powerRequest s req).mem = s.mem := by simp [powerRequest]
@[simp] theorem abortTasks_mem (s : State) : (abortTasks s).mem = s.mem := by simp [abortTasks]

/-! ### The host -/
@[simp] theorem dramRead_mem (s : State) (x n : Nat) : (dramRead s x n).2.2.mem = s.mem := by simp [dramRead]
@[simp] theorem ringIndexWrite_mem (s : State) (r : Nat) (prod : Bool) (v : Nat) :
    (ringIndexWrite s r prod v).mem = s.mem := by simp [ringIndexWrite]

/-! ### Writes of registers -/
@[simp] theorem wrSrcCfg_mem (s : State) (a v k : Nat) : (wrSrcCfg s a v k).mem = s.mem := by simp [wrSrcCfg]
@[simp] theorem wrFadj_mem (s : State) (v b : Nat) : (wrFadj s v b).mem = s.mem := by simp [wrFadj]
@[simp] theorem wrTpo_mem (s : State) (a v k : Nat) : (wrTpo s a v k).mem = s.mem := by simp [wrTpo]
@[simp] theorem wrPortCfg_mem (s : State) (a v p : Nat) : (wrPortCfg s a v p).mem = s.mem := by simp [wrPortCfg]
@[simp] theorem wrGctl_mem (s : State) (a v p : Nat) : (wrGctl s a v p).mem = s.mem := by simp [wrGctl]
@[simp] theorem wrGbase_mem (s : State) (hi : Bool) (v p : Nat) : (wrGbase s hi v p).mem = s.mem := by simp [wrGbase]
@[simp] theorem wrTrk_mem (s : State) (a v g : Nat) : (wrTrk s a v g).mem = s.mem := by simp [wrTrk]
@[simp] theorem wrFtgSrc_mem (s : State) (a v g : Nat) (mode : Fld) : (wrFtgSrc s a v g mode).mem = s.mem := by simp [wrFtgSrc]
@[simp] theorem wrMsix_mem (s : State) (a v : Nat) : (wrMsix s a v).mem = s.mem := by rw [wrMsix, sendPending_mem, setHst_mem]
@[simp] theorem wrDarkMode_mem (s : State) (a v : Nat) : (wrDarkMode s a v).mem = s.mem := by
  unfold wrDarkMode
  split <;> simp
@[simp] theorem loadReg_mem (s : State) (a v : Nat) : (loadReg s a v).mem = s.mem := by
  unfold loadReg
  split <;> simp
@[simp] theorem showRead_mem (s : State) (l : List Byte) : (showRead s l).mem = s.mem := by simp [showRead]
@[simp] theorem hostRead_mem (s : State) (a : Nat) : (hostRead s a).mem = s.mem := by simp [hostRead]
@[simp] theorem diagCore_mem (s : State) (n m : Nat) : (diagCore s n m).mem = s.mem := by simp [diagCore]

/-! ### Exchange -/
@[simp] theorem changeRo_mem (i : Image) (s : State) (f : Fld) : (changeRo i s f).mem = s.mem := by
  unfold changeRo
  (repeat' split) <;> simp
@[simp] theorem acceptRev_mem (s : State) (a : Nat) : (acceptRev s a).mem = s.mem := by
  unfold acceptRev
  split <;> simp
@[simp] theorem changeSch_mem (s : State) (i : Image) : (changeSch s i).mem = s.mem := by
  refine foldl_mem (fun t x => ?_) _ s
  split
  · exact foldl_mem (fun _ _ => wr_mem ..) _ t
  · rfl
@[simp] theorem changeGoose_mem (s : State) (old new : Image) : (changeGoose s old new).mem = s.mem := by simp [changeGoose]

/-! ### MSPI -/
@[simp] theorem mspiAnswer_mem (s : State) (l : List Byte) : (mspiAnswer s l).mem = s.mem := by simp [mspiAnswer]
@[simp] theorem mspiRegs_mem (n a : Nat) (s : State) : (mspiRegs n a s).2.mem = s.mem := by
  induction n generalizing a s with
  | zero => rfl
  | succ n ih => simp [mspiRegs, ih]
@[simp] theorem mspiUnknown_mem (h : MspiHead) (n : Fin 64) (crc : Byte) (s : State) :
    (mspiUnknown h n crc s).mem = s.mem := by simp [mspiUnknown]

/-! ### The NET cycle -/
@[simp] theorem tickBase_mem (s : State) (b : Nat) : (tickBase s b).mem = s.mem := by simp [tickBase]
@[simp] theorem tickResid_mem (s : State) : (tickResid s).mem = s.mem := by simp [tickResid]
@[simp] theorem tickCoarse_mem (s : State) : (tickCoarse s).mem = s.mem := by simp [tickCoarse]
@[simp] theorem tickShadow2_mem (s : State) : (tickShadow2 s).mem = s.mem := by simp [tickShadow2]
@[simp] theorem netCycle_mem (s : State) : (netCycle s).mem = s.mem := by simp [netCycle]

/-! ### The step -/
@[simp] theorem withFetchWord_mem (s : State) (nbits w : Nat) : (s.withFetchWord nbits w).mem = s.mem := by
  unfold State.withFetchWord
  split <;> simp

end Sys2Proof.Machine
end

section
/-! PROOFS. What keeps the memory canonical: each operation that writes memory, each command, and so every step. -/
namespace Sys2Proof.Machine

/-- Memory in its canonical form, kept folded: the invariant as a predicate of the memory alone. -/
def Canonical (m : List Host.Cell) : Prop := Memory.wf m

theorem inv_iff (s : State) : Inv s ↔ Canonical s.mem := Iff.rfl

@[simp] theorem canon_memWrs {m : List Host.Cell} (h : Canonical m) (a : Nat) (l : List Byte) : Canonical (memWrs m a l) :=
  wf_memWrs h a l
@[simp] theorem canon_memClear {m : List Host.Cell} (h : Canonical m) (lo hi : Nat) : Canonical (memClear m lo hi) :=
  wf_memClear h lo hi

/-- What a step answers, where it answers a state, has its memory in canonical form. -/
def NextOk (o : Host.Outcome State Fault Refusal) : Prop := ∀ t, o = .next t → Canonical t.mem

@[simp] theorem nextOk_next (t : State) : NextOk (.next t) ↔ Canonical t.mem :=
  ⟨fun h => h _ rfl, fun h _ e => by cases e; exact h⟩

theorem canon_next {t : State} (h : Canonical t.mem) : NextOk (.next t) := (nextOk_next t).mpr h

@[simp] theorem nextOk_ite {c : Prop} [Decidable c] {a b : Host.Outcome State Fault Refusal} :
    NextOk (if c then a else b) ↔ if c then NextOk a else NextOk b := by split <;> rfl

/-- A state that may be missing has its memory in canonical form, where it is there. -/
def SomeOk (o : Option State) : Prop := ∀ t, o = some t → Canonical t.mem

@[simp] theorem someOk_none : SomeOk none := fun _ e => nomatch e
@[simp] theorem someOk_some {t : State} : SomeOk (some t) ↔ Canonical t.mem :=
  ⟨fun h => h _ rfl, fun h _ e => by cases e; exact h⟩
@[simp] theorem someOk_ite {c : Prop} [Decidable c] {a b : Option State} :
    SomeOk (if c then a else b) ↔ if c then SomeOk a else SomeOk b := by split <;> rfl

theorem someOk_map {α : Type} {f : α → State} (h : ∀ x, Canonical (f x).mem) (o : Option α) : SomeOk (o.map f) := by
  cases o with
  | none => exact someOk_none
  | some x => exact someOk_some.mpr (h x)

theorem someOk_orElse {a : Option State} {b : Unit → Option State} (ha : SomeOk a) (hb : SomeOk (b ())) :
    SomeOk (a.orElse b) := by
  cases a with
  | none => exact hb
  | some x => exact ha

@[simp] theorem canon_ite {c : Prop} [Decidable c] {a b : List Host.Cell} :
    Canonical (if c then a else b) ↔ if c then Canonical a else Canonical b := by
  split <;> rfl

theorem canon_foldlState {β : Type} {g : State → β → State} (hg : ∀ t b, Canonical t.mem → Canonical (g t b).mem) (l : List β)
    {s : State} (h : Canonical s.mem) : Canonical (l.foldl g s).mem := by
  induction l generalizing s with
  | nil => exact h
  | cons b t ih => exact ih (hg s b h)

theorem canon_foldl {β : Type} {g : List Host.Cell → β → List Host.Cell} (hg : ∀ m b, Canonical m → Canonical (g m b))
    (l : List β) {m : List Host.Cell} (h : Canonical m) : Canonical (l.foldl g m) := wf_foldl hg l h

@[simp] theorem canon_loadRange {m : List Host.Cell} (h : Canonical m) (bl : List (Nat × List Byte)) (lo hi : Nat) :
    Canonical (loadRange m bl lo hi) := canon_foldl (fun _ _ hm => canon_memWrs hm _ _) bl (canon_memClear h lo hi)

@[simp] theorem canon_keptMem {m : List Host.Cell} (h : Canonical m) (por : Bool) : Canonical (keptMem m por) := wf_filter h _

@[simp] theorem canon_optBytes {m : List Host.Cell} (h : Canonical m) (a : Nat) (l : List (Option Byte)) :
    Canonical (putBytes m a l) := by
  induction l generalizing m a with
  | nil => exact h
  | cons o t ih =>
    cases o with
    | none => exact ih h (a + 1)
    | some b => exact ih (wf_memWr h a b) (a + 1)

@[simp] theorem canon_zeroMarks {m : List Host.Cell} (h : Canonical m) (bound : Nat) (l : List Nat) :
    Canonical (zeroMarks m bound l) := by
  induction l generalizing m with
  | nil => exact h
  | cons a t ih =>
    rw [zeroMarks]
    refine ih ?_
    split
    · split
      · exact canon_memWrs h _ _
      · exact h
    · exact h

theorem canon_putBack {m : List Host.Cell} (h : Canonical m) (l : List (Nat × Word)) : Canonical (putBack m l) :=
  canon_foldl (fun _ _ hm => canon_memWrs hm _ _) l h

@[simp] theorem canon_committedMem (s : State) (h : Canonical s.mem) : Canonical (committedMem s) :=
  canon_foldl (fun _ _ hm => canon_putBack hm _) _ (canon_foldl (fun _ _ hm => canon_putBack hm _) _ h)

@[simp] theorem ldgRes_mem (s : State) (n rd ch age : Nat) : (ldgRes s n rd ch age).2.mem = s.mem := by
  unfold ldgRes
  split
  · rfl
  · exact (snd_mk_mem ..).trans (window_mem s n _ ch age)

/-! ### Words and events -/
@[simp] theorem canon_wrMem (s : State) (a : Nat) (l : List Byte) (h : Canonical s.mem) :
    Canonical (s.wrMem a l).mem := by simp [State.wrMem, h]
@[simp] theorem canon_putBytes (s : State) (a : Nat) (l : List Byte) (h : Canonical s.mem) :
    Canonical (s.putBytes a l).mem := by simp [State.putBytes, h]
@[simp] theorem canon_wrW (s : State) (a : Nat) (v : Word) (h : Canonical s.mem) :
    Canonical (s.wrW a v).mem := by simp [State.wrW, h]

/-! ### Element cores -/
@[simp] theorem canon_execC0BudgetBreach (n : Fin 8) (s : State) (h : Canonical s.mem) : NextOk (execC0BudgetBreach n s) := by
  unfold execC0BudgetBreach
  split <;> simp [h]
@[simp] theorem canon_execBayModeRequest (n : Fin 8) (j : Fin 3) (m : Fin 8) (s : State) (h : Canonical s.mem) :
    NextOk (execBayModeRequest n j m s) := by simp [execBayModeRequest, h]
@[simp] theorem canon_rewrite (s : State) (lo hi : Nat) (h : Canonical s.mem) : Canonical (rewrite s lo hi).mem :=
  canon_loadRange h _ lo hi
@[simp] theorem canon_execBayReinitDone (n : Fin 8) (j : Fin 3) (s : State) (h : Canonical s.mem) :
    NextOk (execBayReinitDone n j s) := by simp [execBayReinitDone, h]
@[simp] theorem canon_execSettingGroupRequest (n : Fin 8) (j : Fin 3) (g : Fin 8) (s : State) (h : Canonical s.mem) :
    NextOk (execSettingGroupRequest n j g s) := by simp [execSettingGroupRequest, h]

/-! ### Issue of syllables -/
@[simp] theorem canon_putWord (s : State) (a : Nat) (v : Word) (h : Canonical s.mem) : Canonical (s.putWord a v).mem :=
  canon_wrW s a v h
@[simp] theorem canon_peOutside (s : State) (n : Nat) (x : Section) (e : Eff) (h : Canonical s.mem) :
    Canonical (peOutside s n x e).mem := by
  cases e with
  | store a v => exact canon_putWord s a v h
  | dose i acc => exact canon_putWord _ _ _ (canon_putWord s _ _ h)
  | verdict off v => simp [peOutside, h]
  | _ => exact h
@[simp] theorem canon_peRetire (s : State) (n : Fin 8) (h : Canonical s.mem) : Canonical (peRetire s n).mem := by
  unfold peRetire
  split
  · exact h
  next x _ =>
    split
    · simp [h]
    extract_lets l f0 f1 s1 x' s2
    have hs : Canonical (l.foldl (fun a e => peOutside a n.val x e) s).mem := canon_foldlState (fun t => canon_peOutside t _ x)
      l h
    have h2 : Canonical s2.mem := by simpa [s2, s1] using hs
    split
    · simp [h2]
    · split <;> simp [h2]
@[simp] theorem canon_peCommit (s : State) (n : Fin 8) (h : Canonical s.mem) : Canonical (peCommit s n).mem := by
  unfold peCommit
  (repeat' split) <;> simp [h]
@[simp] theorem canon_peIssue (i : Instr) (n : Fin 8) (last : Bool) (r : SylRes) (h : Canonical r.2.mem) :
    Canonical (peIssue i n last r).mem := by
  unfold peIssue
  extract_lets s1
  have h1 : Canonical s1.mem := by simpa [s1] using h
  split
  · exact h1
  · split
    · exact canon_peCommit s1 n h1
    · exact h1
@[simp] theorem canon_slEff (s : State) (e : Eff) (h : Canonical s.mem) : Canonical (slEff s e).mem := by
  cases e with
  | store a v => exact canon_putWord s a v h
  | _ => exact h
@[simp] theorem canon_slIssue (r : SylRes) (h : Canonical r.2.mem) : Canonical (slIssue r).mem := by
  unfold slIssue
  split
  · simp [h]
  next l _ =>
    split
    · exact h
    · have hl : Canonical (l.foldl slEff r.2).mem := canon_foldlState (canon_slEff) l h
      dsimp only
      split
      · exact hl
      · split <;> simp [hl]
/-- A syllable that keeps the memory canonical when it answers keeps it so when it issues. -/
theorem canon_issue {i : Instr} {s : State} {k : CoreSel} {last guardOk : Bool} {f : RegFile → SylRes}
    (hf : ∀ rf, Canonical (f rf).2.mem) (h : Canonical s.mem) : Canonical (issue i s k last guardOk f).mem := by
  unfold issue
  split
  · exact h
  next rf _ =>
    have hg : Canonical (if guardOk then f rf else (.ok [], s)).2.mem := by
      split
      · exact hf rf
      · exact h
    split
    · exact h
    split
    · cases k with
      | pe n => exact canon_peIssue _ _ _ _ hg
      | sl => exact h
    split
    · rw [fetch_mem]
      exact h
    · extract_lets r
      have hr : Canonical r.2.mem := by
        simp only [r]
        split
        · exact h
        · exact hg
      cases k with
      | pe n => exact canon_peIssue _ _ _ _ (by simpa using hr)
      | sl => exact canon_slIssue _ (by simpa using hr)
theorem canon_sylF {i : Instr} {s : State} {k : CoreSel} {g : Guard} {last : Bool} {f : RegFile → SylRes}
    (hf : ∀ rf, Canonical (f rf).2.mem) (h : Canonical s.mem) : Canonical (sylF i s k g last f).mem := canon_issue hf h

/-! ### Scheme syllables -/
@[simp] theorem canon_bmxSyl (i : Instr) (s : State) (g : Guard) (rd ra rb : SReg) (hit : Word → Word → Bool)
    (h : Canonical s.mem) :
    Canonical (bmxSyl i s g rd ra rb hit).mem := by
  refine canon_sylF (fun f => ?_) h
  dsimp only
  split
  · exact h
  · simpa using h
@[simp] theorem canon_execBmxOr (g : Guard) (rd ra rb : SReg) (s : State) (h : Canonical s.mem) :
    NextOk (execBmxOr g rd ra rb s) := by simp [execBmxOr, h]
@[simp] theorem canon_execBmxAnd (g : Guard) (rd ra rb : SReg) (s : State) (h : Canonical s.mem) :
    NextOk (execBmxAnd g rd ra rb s) := by simp [execBmxAnd, h]

/-! ### Checkpoints and the journal -/
@[simp] theorem canon_putCkpt (s : State) (c : Nat) (k : Ckpt) (pos : Nat) (h : Canonical s.mem) :
    Canonical (putCkpt s c k pos).mem := by simp [putCkpt, h]
@[simp] theorem canon_putRing (s : State) (p : Nat) (l : List Byte) (h : Canonical s.mem) :
    Canonical (putRing s p l).mem := by simp [putRing, h]

/-! ### Scheme cores -/
@[simp] theorem canon_execTaskReleasePeriodic (t : Fin 16) (s : State) (h : Canonical s.mem) :
    NextOk (execTaskReleasePeriodic t s) := by
  unfold execTaskReleasePeriodic
  split <;> simp [h]
@[simp] theorem canon_execTk0Release (tick : Nat) (s : State) (h : Canonical s.mem) :
    NextOk (execTk0Release tick s) := by simp [execTk0Release, h]
@[simp] theorem canon_execEventTaskTrigger (s : State) (h : Canonical s.mem) : NextOk (execEventTaskTrigger s) := by
  unfold execEventTaskTrigger
  split <;> simp [h]
@[simp] theorem canon_execTaskHostActivate (t : Fin 16) (s : State) (h : Canonical s.mem) :
    NextOk (execTaskHostActivate t s) := by simp [execTaskHostActivate, h]
@[simp] theorem canon_execMajorFrameStart (s : State) (h : Canonical s.mem) : NextOk (execMajorFrameStart s) := by
  unfold execMajorFrameStart
  split <;> simp [h]
@[simp] theorem canon_execTaskDispatch (s : State) (h : Canonical s.mem) : NextOk (execTaskDispatch s) := by
  rw [execTaskDispatch, nextOk_next]
  split
  · split
    · exact h
    · rw [taskState_mem]
      exact canon_foldlState (fun t _ => canon_putWord t _ _) _ h
  · exact h
@[simp] theorem canon_startCkpt (s : State) (h : Canonical s.mem) : Canonical (startCkpt s).mem := by simp [startCkpt, h]
@[simp] theorem canon_appendRec (s : State) (r : JRec) (h : Canonical s.mem) :
    Canonical (appendRec s r).mem := by simp [appendRec, h]
@[simp] theorem canon_execJournalRecordDurable (s : State) (h : Canonical s.mem) : NextOk (execJournalRecordDurable s) := by
  rw [execJournalRecordDurable, nextOk_next]
  split
  · exact h
  next r t _ =>
    rw [schedule_mem, wr64_mem]
    exact canon_putRing _ _ _ h
@[simp] theorem canon_execCheckpointComplete (s : State) (h : Canonical s.mem) : NextOk (execCheckpointComplete s) := by
  simp only [execCheckpointComplete]
  (repeat' split) <;> simp [h]
@[simp] theorem canon_commit (s : State) (x : TaskRun) (h : Canonical s.mem) : Canonical (commit s x).mem := by simp [commit, h]
@[simp] theorem canon_execTkEnd (g : Guard) (s : State) (h : Canonical s.mem) : NextOk (execTkEnd g s) := by
  rw [execTkEnd, nextOk_next]
  split
  · exact h
  split
  · exact h
  split
  next x _ _ _ =>
    extract_lets p
    have hp : Canonical p.1.mem := by simpa [p] using h
    split
    · exact canon_commit p.1 x hp
    · exact hp
  · exact canon_issue (fun _ => h) h
@[simp] theorem canon_execTaskBudgetExpiry (s : State) (h : Canonical s.mem) : NextOk (execTaskBudgetExpiry s) := by
  unfold execTaskBudgetExpiry
  split <;> simp [h]
@[simp] theorem canon_execLockstepMismatch (s : State) (h : Canonical s.mem) :
    NextOk (execLockstepMismatch s) := by simp [execLockstepMismatch, h]
@[simp] theorem canon_replay (s : State) (r : JRec) (h : Canonical s.mem) :
    Canonical (replay s r).mem := canon_foldlState (fun t _ => canon_putBytes t _ _) r.lines h
@[simp] theorem canon_warmRestart (s : State) (k : Nat × Ckpt) (h : Canonical s.mem) : Canonical (warmRestart s k).mem := by
  rw [warmRestart, jrnFill_mem, modSch_mem]
  exact canon_foldlState (canon_replay) _ (canon_foldlState (fun t _ => canon_putBytes t _ _) k.2.regions h)
@[simp] theorem canon_coldRestart (s : State) (h : Canonical s.mem) :
    Canonical (coldRestart s).mem := canon_startCkpt _ (canon_foldlState (fun t _ => canon_putBytes t _ _) s.img.retInit h)
@[simp] theorem canon_scRestart (s : State) (k : Nat) (h : Canonical s.mem) : Canonical (scRestart s k).mem := by
  simp only [scRestart]
  (repeat' split) <;> simp [h]
@[simp] theorem canon_execExchangeRequest (s : State) (h : Canonical s.mem) :
    NextOk (execExchangeRequest s) := by simp [execExchangeRequest, h]
@[simp] theorem canon_execExchangePreloadDone (s : State) (h : Canonical s.mem) : NextOk (execExchangePreloadDone s) := by
  rw [execExchangePreloadDone, nextOk_next]
  split
  · rw [setExch_mem, modSch_mem]
    exact canon_foldlState (fun t _ => canon_putBytes t _ _) _ h
  · exact h
@[simp] theorem canon_execExchangeBoundary (s : State) (h : Canonical s.mem) : NextOk (execExchangeBoundary s) := by
  unfold execExchangeBoundary
  split <;> simp [h]
@[simp] theorem canon_execExchangeQuiesceTimeout (s : State) (h : Canonical s.mem) :
    NextOk (execExchangeQuiesceTimeout s) := by simp [execExchangeQuiesceTimeout, h]
@[simp] theorem canon_execExchangeCancel (s : State) (h : Canonical s.mem) :
    NextOk (execExchangeCancel s) := by simp [execExchangeCancel, h]
@[simp] theorem canon_carryOver (s : State) (i : Image) (h : Canonical s.mem) :
    Canonical (carryOver s i).mem := canon_foldlState (fun t _ => canon_putBytes t _ _) i.carryVar
  (canon_foldlState (fun t _ => canon_putBytes t _ _) i.retInit (canon_committedMem s h))

/-! ### DRAM and the rings -/
@[simp] theorem canon_writeWord (x : Nat) (l : List (Option Byte)) (s : State) (w : Nat) (h : Canonical s.mem) :
    Canonical (writeWord x l s w).mem := by
  unfold writeWord
  extract_lets b put
  have hput : ∀ a : State, Canonical a.mem → Canonical (put a).mem := fun a ha => canon_optBytes ha _ b
  split
  · exact h
  split
  · simpa using hput s h
  split
  · simp [h]
  · exact hput _ (by simp [h])
@[simp] theorem canon_dramPut (s : State) (x : Nat) (l : List Byte) (h : Canonical s.mem) : Canonical (dramPut s x l).mem := by
  unfold dramPut
  split
  · exact canon_wrMem s _ l h
  · exact canon_foldlState (fun t w => canon_writeWord x _ t w) _ h
@[simp] theorem canon_dramPutWords (s : State) (x : Nat) (l : List Byte) (h : Canonical s.mem) :
    Canonical (dramPutWords s x l).mem := by simp [dramPutWords, h]
@[simp] theorem canon_ringPush (s : State) (r : Nat) (desc buf : List Byte) (h : Canonical s.mem) :
    Canonical (ringPush s r desc buf).mem := by simp [ringPush, h]

/-! ### Yew -/
@[simp] theorem canon_execYewRecordWritten (s : State) (h : Canonical s.mem) : NextOk (execYewRecordWritten s) := by
  unfold execYewRecordWritten
  (repeat' split) <;> simp [h]
@[simp] theorem canon_execYewFetch (s : State) (h : Canonical s.mem) : NextOk (execYewFetch s) := by
  rw [execYewFetch, nextOk_next, wrb_mem, wr_mem, yewFillBuf_mem]
  exact h
@[simp] theorem canon_execYewClearGo (s : State) (h : Canonical s.mem) :
    NextOk (execYewClearGo s) := by simp [execYewClearGo, h]
@[simp] theorem canon_execYewClearVerifyDone (sigOk : Bool) (s : State) (h : Canonical s.mem) :
    NextOk (execYewClearVerifyDone sigOk s) := by
  unfold execYewClearVerifyDone
  (repeat' split) <;> simp [h]
@[simp] theorem canon_execYewZeroingDone (s : State) (h : Canonical s.mem) : NextOk (execYewZeroingDone s) := by
  rw [execYewZeroingDone, nextOk_next]
  split
  · exact h
  · exact canon_zeroMarks h _ _

/-! ### Resets -/
@[simp] theorem canon_lastWrite (s : State) (whole : Bool) (h : Canonical s.mem) : Canonical (lastWrite s whole).mem := by
  unfold lastWrite
  (repeat' split) <;> simp [h]
@[simp] theorem canon_heldState (s : State) (kind : Nat) (h : Canonical s.mem) : Canonical (heldState s kind).mem :=
  canon_keptMem h _
@[simp] theorem canon_assertReset (s : State) (kind cause src : Nat) (h : Canonical s.mem) :
    Canonical (assertReset s kind cause src).mem := by simp [assertReset, h]
@[simp] theorem canon_execPorAssert (s : State) (h : Canonical s.mem) : NextOk (execPorAssert s) := by
  rw [execPorAssert, nextOk_next, freshNonces_mem]
  exact canon_assertReset _ _ _ _ (canon_lastWrite _ _ h)
@[simp] theorem canon_execSysreq (s : State) (h : Canonical s.mem) : NextOk (execSysreq s) := by simp [execSysreq, h]
@[simp] theorem canon_execWatchdogExpiry (s : State) (h : Canonical s.mem) : NextOk (execWatchdogExpiry s) := by
  unfold execWatchdogExpiry
  split <;> simp [h]

/-! ### Privet -/
@[simp] theorem canon_execSafeRequest (s : State) (h : Canonical s.mem) :
    NextOk (execSafeRequest s) := by simp [execSafeRequest, h]
@[simp] theorem canon_execPrivetSelfcheck (s : State) (h : Canonical s.mem) :
    NextOk (execPrivetSelfcheck s) := by simp [execPrivetSelfcheck, h]
@[simp] theorem canon_execCoreBlockReset (n : Fin 8) (s : State) (h : Canonical s.mem) :
    NextOk (execCoreBlockReset n s) := by simp [execCoreBlockReset, h]
@[simp] theorem canon_execSchemeBlockReset (s : State) (h : Canonical s.mem) :
    NextOk (execSchemeBlockReset s) := by simp [execSchemeBlockReset, h]
@[simp] theorem canon_execConseqWindowClose (t : Fin 9) (s : State) (h : Canonical s.mem) :
    NextOk (execConseqWindowClose t s) := by simp [execConseqWindowClose, h]
@[simp] theorem canon_execBayBlockClear (mask : BitVec 24) (s : State) (h : Canonical s.mem) :
    NextOk (execBayBlockClear mask s) := by simp [execBayBlockClear, h]
@[simp] theorem canon_execFirstFaultRearm (s : State) (h : Canonical s.mem) :
    NextOk (execFirstFaultRearm s) := by simp [execFirstFaultRearm, h]
@[simp] theorem canon_execClockMonitorWindow (c : Fin 9) (count : Nat) (s : State) (h : Canonical s.mem) :
    NextOk (execClockMonitorWindow c count s) := by simp [execClockMonitorWindow, h]
@[simp] theorem canon_execTemperatureCrossing (tj : BitVec 9) (s : State) (h : Canonical s.mem) :
    NextOk (execTemperatureCrossing tj s) := by simp [execTemperatureCrossing, h]
@[simp] theorem canon_execSupplyRailFault (r : Fin 10) (s : State) (h : Canonical s.mem) :
    NextOk (execSupplyRailFault r s) := by simp [execSupplyRailFault, h]
@[simp] theorem canon_execSupplyRailRecover (r : Fin 10) (s : State) (h : Canonical s.mem) :
    NextOk (execSupplyRailRecover r s) := by simp [execSupplyRailRecover, h]
@[simp] theorem canon_execCrossingStall (k : Fin 22) (s : State) (h : Canonical s.mem) :
    NextOk (execCrossingStall k s) := by simp [execCrossingStall, h]
@[simp] theorem canon_execAliveToggle (s : State) (h : Canonical s.mem) :
    NextOk (execAliveToggle s) := by simp [execAliveToggle, h]

/-! ### Analogue front end -/
@[simp] theorem canon_execOverloadDetect (x : Fin 52 × Bool) (s : State) (h : Canonical s.mem) :
    NextOk (execOverloadDetect x s) := by simp [execOverloadDetect, h]
@[simp] theorem canon_execOverloadIntervalEnd (m : Fin 52) (s : State) (h : Canonical s.mem) :
    NextOk (execOverloadIntervalEnd m s) := by simp [execOverloadIntervalEnd, h]
@[simp] theorem canon_execNeighbourTagEnd (m : Fin 52) (s : State) (h : Canonical s.mem) :
    NextOk (execNeighbourTagEnd m s) := by
  simp only [execNeighbourTagEnd]
  (repeat' split) <;> simp [h]
@[simp] theorem canon_execCheckerSettleEnd (k : Fin 4) (s : State) (h : Canonical s.mem) :
    NextOk (execCheckerSettleEnd k s) := by simp [execCheckerSettleEnd, h]
@[simp] theorem canon_execCheckerDwellEnd (k : Fin 4) (s : State) (h : Canonical s.mem) : NextOk (execCheckerDwellEnd k s) := by
  simp only [execCheckerDwellEnd]
  (repeat' split) <;> simp [h]
@[simp] theorem canon_execCheckerRestart (k : Fin 4) (s : State) (h : Canonical s.mem) : NextOk (execCheckerRestart k s) := by
  simp only [execCheckerRestart]
  (repeat' split) <;> simp [h]
@[simp] theorem canon_execRefWindowExit (g : Fin 13) (s : State) (h : Canonical s.mem) :
    NextOk (execRefWindowExit g s) := by simp [execRefWindowExit, h]
@[simp] theorem canon_execRefRecoveryEnd (g : Fin 13) (s : State) (h : Canonical s.mem) :
    NextOk (execRefRecoveryEnd g s) := by simp [execRefRecoveryEnd, h]
@[simp] theorem canon_execRefSettleEnd (s : State) (h : Canonical s.mem) :
    NextOk (execRefSettleEnd s) := by simp [execRefSettleEnd, h]
@[simp] theorem canon_execLpmRequest (v : Bool) (s : State) (h : Canonical s.mem) : NextOk (execLpmRequest v s) := by
  simp only [execLpmRequest]
  (repeat' split) <;> simp [h]
@[simp] theorem canon_execLpmChangeEffect (s : State) (h : Canonical s.mem) : NextOk (execLpmChangeEffect s) := by
  unfold execLpmChangeEffect
  split <;> simp [h]
@[simp] theorem canon_execGainWrite (n : Fin 48) (g : Fin 4) (s : State) (h : Canonical s.mem) :
    NextOk (execGainWrite n g s) := by simp [execGainWrite, h]
@[simp] theorem canon_execRefselChange (v : Bool) (s : State) (h : Canonical s.mem) :
    NextOk (execRefselChange v s) := by simp [execRefselChange, h]
@[simp] theorem canon_execAfeInputEnable (n : Fin 48) (s : State) (h : Canonical s.mem) :
    NextOk (execAfeInputEnable n s) := by simp [execAfeInputEnable, h]
@[simp] theorem canon_execAfeInputDisable (n : Fin 48) (s : State) (h : Canonical s.mem) :
    NextOk (execAfeInputDisable n s) := by simp [execAfeInputDisable, h]
@[simp] theorem canon_execAccumulatorSwap (n : Fin 48) (s : State) (h : Canonical s.mem) :
    NextOk (execAccumulatorSwap n s) := by simp [execAccumulatorSwap, h]

/-! ### Memory syllables -/
@[simp] theorem canon_execLdW (k : CoreSel) (g : Guard) (rd ra : SReg) (imm : BitVec 12) (last : Bool) (s : State)
    (h : Canonical s.mem) :
    NextOk (execLdW k g rd ra imm last s) := by
  refine canon_next (canon_sylF (fun f => ?_) h)
  cases k with
  | pe n =>
    dsimp only
    split
    · split
      · exact h
      · simpa using h
    · exact h
  | sl =>
    have hl := slLoad_mem s (effAddr f ra.val imm) f.pc
    dsimp only
    split <;> simp_all
@[simp] theorem canon_execLdC (n : Fin 8) (g : Guard) (cd : CReg) (ra : SReg) (imm : BitVec 12) (last : Bool) (s : State)
    (h : Canonical s.mem) :
    NextOk (execLdC n g cd ra imm last s) := by
  refine canon_next (canon_sylF (fun f => ?_) h)
  dsimp only
  split
  · split
    · exact h
    · simpa using h
  · exact h
@[simp] theorem canon_execLdg (n : Fin 8) (g : Guard) (rd : SReg) (ch : Fin 24) (age : Fin 256) (last : Bool) (s : State)
    (h : Canonical s.mem) :
    NextOk (execLdg n g rd ch age last s) := canon_next (canon_sylF (fun _ => by rw [ldgRes_mem]; exact h) h)
@[simp] theorem canon_execLdgr (n : Fin 8) (g : Guard) (rd ra rb : SReg) (last : Bool) (s : State) (h : Canonical s.mem) :
    NextOk (execLdgr n g rd ra rb last s) := by
  refine canon_next (canon_sylF (fun f => ?_) h)
  split
  · exact h
  · rw [ldgRes_mem]
    exact h
@[simp] theorem canon_execRdsr (n : Fin 8) (g : Guard) (rd : SReg) (item : Fin 13) (last : Bool) (s : State)
    (h : Canonical s.mem) :
    NextOk (execRdsr n g rd item last s) := by
  refine canon_next (canon_sylF (fun _ => ?_) h)
  split
  · exact h
  · split <;> exact h
@[simp] theorem canon_execCvStep (n : Fin 8) (g : Guard) (rd ra : SReg) (i : Fin 32) (last : Bool) (s : State)
    (h : Canonical s.mem) :
    NextOk (execCvStep n g rd ra i last s) := by
  refine canon_next (canon_sylF (fun f => ?_) h)
  split
  · exact h
  · simpa using h
@[simp] theorem canon_execCvRd (n : Fin 8) (g : Guard) (rd : SReg) (i : Fin 32) (last : Bool) (s : State) (h : Canonical s.mem)
    :
    NextOk (execCvRd n g rd i last s) := canon_next (canon_sylF (fun _ => by simpa using h) h)

/-! ### The grid -/
@[simp] theorem canon_espPut (s : State) (a : Nat) (l : List Byte) (h : Canonical s.mem) :
    Canonical (espPut s a l).mem := by simp [espPut, h]
@[simp] theorem canon_espStore (s : State) (m slot : Nat) (v : Word) (fl : Nat) (h : Canonical s.mem) :
    Canonical (espStore s m slot v fl).mem := by simp [espStore, h]
@[simp] theorem canon_espWrite (s : State) (g m : Nat) (i : Inst) (v : Word) (fl : Nat) (h : Canonical s.mem) :
    Canonical (espWrite s g m i v fl).mem := by simp [espWrite, h]

/-! ### Chains and resamplers -/
@[simp] theorem canon_execBankRequest (t : BankSel) (b : Bool) (s : State) (h : Canonical s.mem) :
    NextOk (execBankRequest t b s) := by
  unfold execBankRequest
  split <;> simp [h]
@[simp] theorem canon_execFadeStart (t : BankSel) (s : State) (h : Canonical s.mem) : NextOk (execFadeStart t s) := by
  unfold execFadeStart
  split <;> simp [h]
@[simp] theorem canon_execFadeEnd (t : BankSel) (s : State) (h : Canonical s.mem) : NextOk (execFadeEnd t s) := by
  unfold execFadeEnd
  split <;> simp [h]
@[simp] theorem canon_execFastTapValue (n : Fin 48) (bits cbits : List Bool) (s : State) (h : Canonical s.mem) :
    NextOk (execFastTapValue n bits cbits s) := by simp [execFastTapValue, h]
@[simp] theorem canon_putSample (s : State) (g m : Nat) (i : Inst) (y : Word) (fd : Option Fade) (fl : Nat)
    (h : Canonical s.mem) :
    Canonical (putSample s g m i y fd fl).mem := by simp [putSample, h]
@[simp] theorem canon_releaseLocal (s0 : State) (g m : Nat) (i : Inst) (h : Canonical s0.mem) :
    Canonical (releaseLocal s0 g m i).mem := by simp [releaseLocal, h]
@[simp] theorem canon_execResamplerRelease (m : Fin 192) (tick : Nat) (s : State) (h : Canonical s.mem) :
    NextOk (execResamplerRelease m tick s) := by
  simp only [execResamplerRelease]
  (repeat' split) <;> simp [h]
@[simp] theorem canon_svTick (g m : Nat) (s : State) (i : Inst) (h : Canonical s.mem) : Canonical (svTick g m s i).mem := by
  simp only [svTick]
  (repeat' split) <;> simp [h]
@[simp] theorem canon_svTicks (s : State) (m : Nat) (h : Canonical s.mem) : Canonical (svTicks s m).mem := by
  unfold svTicks
  dsimp only
  split
  · exact h
  · exact canon_foldlState (fun t i => canon_svTick _ m t i) _ h
@[simp] theorem canon_svEnterRs (e : SvIn) (s : State) (m : Nat) (h : Canonical s.mem) : Canonical (svEnterRs e s m).mem := by
  simp only [svEnterRs]
  (repeat' split) <;> simp [h]
@[simp] theorem canon_execSvSampleEnter (s : State) (h : Canonical s.mem) : NextOk (execSvSampleEnter s) := by
  rw [execSvSampleEnter, nextOk_next]
  split
  · exact h
  next e t _ => exact canon_foldlState (fun t m => canon_svEnterRs e t m) _ (by simpa using h)
@[simp] theorem canon_execDchLoadOpen (s : State) (h : Canonical s.mem) :
    NextOk (execDchLoadOpen s) := by simp [execDchLoadOpen, h]
@[simp] theorem canon_execDchLoadData (v : BitVec 32) (s : State) (h : Canonical s.mem) :
    NextOk (execDchLoadData v s) := by simp [execDchLoadData, h]
@[simp] theorem canon_execDchLoadCommit (s : State) (h : Canonical s.mem) :
    NextOk (execDchLoadCommit s) := by simp [execDchLoadCommit, h]
@[simp] theorem canon_execDchLoadCommitDone (s : State) (h : Canonical s.mem) :
    NextOk (execDchLoadCommitDone s) := by simp [execDchLoadCommitDone, h]
@[simp] theorem canon_execChainSrst (n : Fin 48) (s : State) (h : Canonical s.mem) :
    NextOk (execChainSrst n s) := by simp [execChainSrst, h]
@[simp] theorem canon_execResamplerSrst (m : Fin 192) (s : State) (h : Canonical s.mem) :
    NextOk (execResamplerSrst m s) := by simp [execResamplerSrst, h]
@[simp] theorem canon_execChainRunClear (n : Fin 48) (s : State) (h : Canonical s.mem) : NextOk (execChainRunClear n s) := by
  simp only [execChainRunClear]
  (repeat' split) <;> simp [h]
@[simp] theorem canon_execChainRunSet (n : Fin 48) (s : State) (h : Canonical s.mem) : NextOk (execChainRunSet n s) := by
  unfold execChainRunSet
  (repeat' split) <;> simp [h]
@[simp] theorem canon_execResamplerRunClear (m : Fin 192) (s : State) (h : Canonical s.mem) :
    NextOk (execResamplerRunClear m s) := by simp [execResamplerRunClear, h]
@[simp] theorem canon_execResamplerRunSet (m : Fin 192) (s : State) (h : Canonical s.mem) :
    NextOk (execResamplerRunSet m s) := by simp [execResamplerRunSet, h]
@[simp] theorem canon_execNhbWrite (n : Fin 48) (v : Fin 8) (s : State) (h : Canonical s.mem) :
    NextOk (execNhbWrite n v s) := by simp [execNhbWrite, h]
@[simp] theorem canon_execNhbChangeEffect (n : Fin 48) (s : State) (h : Canonical s.mem) :
    NextOk (execNhbChangeEffect n s) := by
  unfold execNhbChangeEffect
  split <;> simp [h]
@[simp] theorem canon_execResamplerSourceWrite (m : Fin 192) (sv : Bool) (src : Fin 64) (s : State) (h : Canonical s.mem) :
    NextOk (execResamplerSourceWrite m sv src s) := by simp [execResamplerSourceWrite, h]

/-! ### Recorder rows -/
@[simp] theorem canon_writeHead (s : State) (u : Nat) (c : CurRec) (complete : Bool) (h : Canonical s.mem) :
    Canonical (writeHead s u c complete).mem := by simp [writeHead, h]
@[simp] theorem canon_recnEntry (s : State) (u : Nat) (c : CurRec) (h : Canonical s.mem) :
    Canonical (recnEntry s u c).mem := by simp [recnEntry, h]
@[simp] theorem canon_finishRecord (s : State) (u : Nat) (h : Canonical s.mem) : Canonical (finishRecord s u).mem := by
  simp only [finishRecord]
  (repeat' split) <;> simp [h]
@[simp] theorem canon_cutRecord (s : State) (u : Nat) (h : Canonical s.mem) : Canonical (cutRecord s u).mem := by
  simp only [cutRecord]
  (repeat' split) <;> simp [h]
@[simp] theorem canon_numberRow (s : State) (a i : Nat) (h : Canonical s.mem) :
    Canonical (numberRow s a i).mem := by simp [numberRow, h]
@[simp] theorem canon_numberRows (u first rb cap : Nat) (s : State) (n i : Nat) (h : Canonical s.mem) :
    Canonical (numberRows u first rb cap s n i).mem := by
  induction n generalizing s i with
  | zero => exact h
  | succ n ih => exact ih _ _ (canon_numberRow s _ i h)
@[simp] theorem canon_startRecord (s : State) (u : Nat) (r : SrcRow) (units masks : Nat) (h : Canonical s.mem) :
    Canonical (startRecord s u r units masks).mem := by
  unfold startRecord
  split
  · simp [h]
  extract_lets x rb cap fit pre last first c c1 c3 c2 s0 d0 s1 s2 s3 s4 w s5
  have h0 : Canonical s0.mem := by simp [s0, h]
  have h5 : s5.mem = s0.mem := by simp [s5, s4, s3, s2, s1]
  rw [logEv_mem]
  refine canon_writeHead s5 u c2 false ?_
  rw [h5]
  exact h0
@[simp] theorem canon_applyTrigger (s : State) (u : Nat) (r : SrcRow) (kept : Bool) (units masks : Nat) (h : Canonical s.mem) :
    Canonical (applyTrigger s u r kept units masks).mem := by
  unfold applyTrigger
  split <;> simp [h]
@[simp] theorem canon_applyStop (s : State) (u : Nat) (r : SrcRow) (units masks : Nat) (h : Canonical s.mem) :
    Canonical (applyStop s u r units masks).mem := by
  simp only [applyStop]
  (repeat' split) <;> simp [h]
@[simp] theorem canon_drainStage (s : State) (u : Nat) (h : Canonical s.mem) : Canonical (drainStage s u).mem := by
  unfold drainStage
  split
  · exact canon_foldlState (fun t _ => canon_dramPutWords t _ _) _ h
  · exact h
@[simp] theorem canon_storeRow (s : State) (u : Nat) (r : SrcRow) (h : Canonical s.mem) :
    Canonical (storeRow s u r).mem := by simp [storeRow, h]
@[simp] theorem canon_writeRow (s : State) (u : Nat) (r : SrcRow) (h : Canonical s.mem) : Canonical (writeRow s u r).mem := by
  unfold writeRow
  split
  · exact h
  extract_lets hits pinned
  split
  · simp [h]
  next s1 _ =>
    have h1 : Canonical s1.mem := by
      rw [foldl_mem fun _ _ => clrBit_mem ..]
      exact h
    split
    · simp [h1]
    · exact canon_storeRow s1 u r h1
@[simp] theorem canon_sourceRow (s : State) (u : Nat) (r : SrcRow) (h : Canonical s.mem) : Canonical (sourceRow s u r).mem := by
  unfold sourceRow
  split
  · exact h
  extract_lets ev d0 s0 kept mk s1 tr hit masks a1 s2 s3 s4
  have h2 : s2.mem = s.mem := by simp [s2, s1, mk, s0]
  have h3 : Canonical s3.mem := by simp [s3, h2, h]
  have h4 : Canonical s4.mem := by simp [s4, h3]
  split
  · exact canon_writeRow s4 u r h4
  · exact h4
@[simp] theorem canon_recClose (s : State) (g : Nat) (i : Inst) (h : Canonical s.mem) :
    Canonical (recClose s g i).mem := canon_foldlState (fun t u ht => by split <;> simp [ht]) _ h

/-! ### Espalier -/
@[simp] theorem canon_fillChannel (g : Nat) (i : Inst) (s : State) (m : Nat) (h : Canonical s.mem) :
    Canonical (fillChannel g i s m).mem := by simp [fillChannel, h]
@[simp] theorem canon_writeRecord (s : State) (g : Nat) (i : Inst) (h : Canonical s.mem) :
    Canonical (writeRecord s g i).mem := by simp [writeRecord, h]
@[simp] theorem canon_closeTick (s : State) (g : Nat) (i : Inst) (h : Canonical s.mem) : Canonical (closeTick s g i).mem := by
  unfold closeTick
  extract_lets s1 s2 closed s3 s5 s6 s7
  have h1 : Canonical s1.mem := canon_foldlState (fun t m => canon_fillChannel g i t m) _ h
  have h7 : s7.mem = s2.mem := by simp [s7, s6, s5, s3]
  refine canon_recClose _ g i ?_
  rw [foldl_mem (fun _ _ => tickNotify_mem ..), h7]
  exact canon_writeRecord s1 g i h1
@[simp] theorem canon_execGridClose (g : Fin 4) (s : State) (h : Canonical s.mem) : NextOk (execGridClose g s) := by
  unfold execGridClose
  split <;> simp [h]
@[simp] theorem canon_execTickDeadline (g : Fin 4) (s : State) (h : Canonical s.mem) : NextOk (execTickDeadline g s) := by
  rw [execTickDeadline, nextOk_next]
  split
  · split
    · exact h
    · exact canon_closeTick _ _ _ h
  · exact h
@[simp] theorem canon_execFtgConfigWrite (g : Fin 4) (fixed : Bool) (fnom : Fin 2) (n : Fin 16) (s : State)
    (h : Canonical s.mem) :
    NextOk (execFtgConfigWrite g fixed fnom n s) := by simp [execFtgConfigWrite, h]
@[simp] theorem canon_execFtgConfigEffect (g : Fin 4) (s : State) (h : Canonical s.mem) : NextOk (execFtgConfigEffect g s) := by
  simp only [execFtgConfigEffect]
  (repeat' split) <;> simp [h]

/-! ### Security -/
@[simp] theorem canon_execAttest (s : State) (h : Canonical s.mem) : NextOk (execAttest s) := by simp [execAttest, h]
@[simp] theorem canon_execAdvance (s : State) (h : Canonical s.mem) : NextOk (execAdvance s) := by simp [execAdvance, h]
@[simp] theorem canon_execRekey (s : State) (h : Canonical s.mem) : NextOk (execRekey s) := by simp [execRekey, h]
@[simp] theorem canon_execRma (s : State) (h : Canonical s.mem) : NextOk (execRma s) := by simp [execRma, h]
@[simp] theorem canon_execMinver (s : State) (h : Canonical s.mem) : NextOk (execMinver s) := by simp [execMinver, h]
@[simp] theorem canon_execStage (s : State) (h : Canonical s.mem) : NextOk (execStage s) := by simp [execStage, h]
@[simp] theorem canon_execEnroll (s : State) (h : Canonical s.mem) : NextOk (execEnroll s) := by simp [execEnroll, h]
@[simp] theorem canon_execKeyload (s : State) (h : Canonical s.mem) : NextOk (execKeyload s) := by simp [execKeyload, h]
@[simp] theorem canon_execKeyclr (s : State) (h : Canonical s.mem) : NextOk (execKeyclr s) := by simp [execKeyclr, h]
@[simp] theorem canon_stageCopy (s : State) (h : Canonical s.mem) : Canonical (stageCopy s).mem := by simp [stageCopy, h]
@[simp] theorem canon_stageDone (s : State) (sigOk : Bool) (h : Canonical s.mem) : Canonical (stageDone s sigOk).1.mem := by
  simp only [stageDone]
  (repeat' split) <;> simp [h]
@[simp] theorem canon_execKeyRollover (k : Fin 256) (s : State) (h : Canonical s.mem) :
    NextOk (execKeyRollover k s) := by simp [execKeyRollover, h]
@[simp] theorem canon_execRetiringKeyExpiry (k : Fin 256) (s : State) (h : Canonical s.mem) :
    NextOk (execRetiringKeyExpiry k s) := by simp [execRetiringKeyExpiry, h]
@[simp] theorem canon_execSecOperationDone (ok : Bool) (s : State) (h : Canonical s.mem) :
    NextOk (execSecOperationDone ok s) := by
  rw [execSecOperationDone, nextOk_next]
  split
  · exact h
  extract_lets r s1
  have hr : Canonical r.1.mem := by
    simp only [r]
    split
    · split <;> simp [h]
    all_goals simp [h]
  rw [fireVec_mem, wrb_mem, wr_mem, wr_mem, setSec_mem]
  exact hr
@[simp] theorem canon_execTamperSensor (k : Fin 5) (s : State) (h : Canonical s.mem) :
    NextOk (execTamperSensor k s) := by simp [execTamperSensor, h]
@[simp] theorem canon_execTamperSensorClear (k : Fin 5) (s : State) (h : Canonical s.mem) :
    NextOk (execTamperSensorClear k s) := by simp [execTamperSensorClear, h]

/-! ### Sampled values -/
@[simp] theorem canon_execDirectoryAgeOut (i : Fin 4096) (s : State) (h : Canonical s.mem) :
    NextOk (execDirectoryAgeOut i s) := by
  unfold execDirectoryAgeOut
  split <;> simp [h]
@[simp] theorem canon_execDirectorySnapshot (s : State) (h : Canonical s.mem) :
    NextOk (execDirectorySnapshot s) := by simp [execDirectorySnapshot, h]
@[simp] theorem canon_execSnapshotRequest (s : State) (h : Canonical s.mem) :
    NextOk (execSnapshotRequest s) := by simp [execSnapshotRequest, h]
@[simp] theorem canon_execSnapshotComplete (s : State) (h : Canonical s.mem) : NextOk (execSnapshotComplete s) := by
  rw [execSnapshotComplete, nextOk_next]
  split
  · exact h
  · exact canon_foldl (fun _ _ hm => canon_memWrs hm _ _) _ (canon_memClear h _ _)
@[simp] theorem canon_execDirectoryFlush (s : State) (h : Canonical s.mem) :
    NextOk (execDirectoryFlush s) := by simp [execDirectoryFlush, h]
@[simp] theorem canon_execDirectoryFetch (i : Fin 4096) (s : State) (h : Canonical s.mem) :
    NextOk (execDirectoryFetch i s) := by
  unfold execDirectoryFetch
  split <;> simp [h]
@[simp] theorem canon_execSvFrameReceive (f : SvFrame) (s : State) (h : Canonical s.mem) :
    NextOk (execSvFrameReceive f s) := by simp [execSvFrameReceive, h]
@[simp] theorem canon_sampleMissing (s : State) (n : Nat) (h : Canonical s.mem) : Canonical (sampleMissing s n).mem := by
  unfold sampleMissing
  extract_lets x st live miss y s1
  have h1 : Canonical s1.mem := by simpa [s1] using h
  split
  · exact h1
  next s2 _ =>
    have h2 : Canonical s2.mem := by
      simp only [s2]
      split
      · exact canon_foldlState canon_svTicks _ h1
      · exact h1
    split <;> simp [h2]
@[simp] theorem canon_execSampleDeadline (n : Fin 64) (s : State) (h : Canonical s.mem) : NextOk (execSampleDeadline n s) := by
  unfold execSampleDeadline
  split <;> simp [h]
@[simp] theorem canon_execSvSubConfigWrite (n : Fin 64) (r : SvReg) (v : BitVec 32) (s : State) (h : Canonical s.mem) :
    NextOk (execSvSubConfigWrite n r v s) := by simp [execSvSubConfigWrite, h]
@[simp] theorem canon_execSvMapWrite (m : Fin 192) (en : Bool) (sub : Fin 64) (qty : Fin 32) (s : State) (h : Canonical s.mem) :
    NextOk (execSvMapWrite m en sub qty s) := by simp [execSvMapWrite, h]

/-! ### The network -/
@[simp] theorem canon_execGateEntryAdvance (p : Fin 3) (s : State) (h : Canonical s.mem) :
    NextOk (execGateEntryAdvance p s) := by simp [execGateEntryAdvance, h]
@[simp] theorem canon_execGateListSwap (p : Fin 3) (s : State) (h : Canonical s.mem) :
    NextOk (execGateListSwap p s) := by simp [execGateListSwap, h]
@[simp] theorem canon_execGateListStop (p : Fin 3) (s : State) (h : Canonical s.mem) :
    NextOk (execGateListStop p s) := by simp [execGateListStop, h]
@[simp] theorem canon_txAnswer (fuel : Nat) (s : State) (h : Canonical s.mem) : Canonical (txAnswer fuel s).mem := by
  induction fuel generalizing s with
  | zero => simpa [txAnswer] using h
  | succ fuel ih =>
    unfold txAnswer
    split
    next hf _ =>
      obtain rfl := Nat.succ.inj hf
      split
      · exact h
      · refine ih _ ?_
        rw [ringVec_mem, inc_mem, setNet_mem]
        exact canon_dramPut _ _ _ (canon_dramPut s _ _ h)
    · exact h
@[simp] theorem canon_txFlush (s : State) (h : Canonical s.mem) : Canonical (txFlush s).mem := by simp [txFlush, h]
@[simp] theorem canon_startFrame (s : State) (p pos q : Nat) (f : EgFrame) (h : Canonical s.mem) :
    Canonical (startFrame s p pos q f).mem := by simp [startFrame, h]
@[simp] theorem canon_startExpress (s : State) (p pos : Nat) (f : EgFrame) (h : Canonical s.mem) :
    Canonical (startExpress s p pos f).mem := by simp [startExpress, h]
theorem canon_sendHead {s : State} {p q : Nat} {k : State → Nat → Nat → EgFrame → State}
    (hk : ∀ t p q f, Canonical t.mem → Canonical (k t p q f).mem) (h : Canonical s.mem) : Canonical (sendHead s p q k).mem := by
  unfold sendHead
  split
  · exact h
  · exact hk _ _ _ _ h
@[simp] theorem canon_egress (s : State) (p pos : Nat) (h : Canonical s.mem) : Canonical (egress s p pos).mem := by
  unfold egress
  extract_lets x now
  split
  · split
    · exact canon_sendHead (fun t p _ f ht => canon_startExpress t p pos f ht) h
    · exact h
  · split
    · split
      · exact canon_sendHead (fun t p _ f ht => canon_startFrame t p pos 7 f ht) h
      · split <;> exact h
    · split
      · exact canon_sendHead (fun t p q f ht => canon_startFrame t p pos q f ht) h
      · exact h
@[simp] theorem canon_execEgressTransmit (x : Fin 3 × Fin 8) (s : State) (h : Canonical s.mem) :
    NextOk (execEgressTransmit x s) := by simp [execEgressTransmit, h]
@[simp] theorem canon_execSupervisionSend (s : State) (h : Canonical s.mem) :
    NextOk (execSupervisionSend s) := by simp [execSupervisionSend, h]
@[simp] theorem canon_flushPort (s : State) (p : Nat) (h : Canonical s.mem) :
    Canonical (flushPort s p).mem := by simp [flushPort, h]
@[simp] theorem canon_execLinkDown (p : Fin 3) (s : State) (h : Canonical s.mem) :
    NextOk (execLinkDown p s) := by simp [execLinkDown, h]
@[simp] theorem canon_execLinkUp (p : Fin 3) (s : State) (h : Canonical s.mem) :
    NextOk (execLinkUp p s) := by simp [execLinkUp, h]
@[simp] theorem canon_execPreemptVerify (p : Fin 3) (ok : Bool) (s : State) (h : Canonical s.mem) :
    NextOk (execPreemptVerify p ok s) := by simp [execPreemptVerify, h]
@[simp] theorem canon_execDupEntryExpire (src : Nat) (seq : Fin 65536) (s : State) (h : Canonical s.mem) :
    NextOk (execDupEntryExpire src seq s) := by
  unfold execDupEntryExpire
  split <;> simp [h]
@[simp] theorem canon_toHost (s : State) (p cls : Nat) (f : Frame) (h : Canonical s.mem) :
    Canonical (toHost s p cls f).mem := by simp [toHost, h]
@[simp] theorem canon_deliverLocal (s : State) (p : Nat) (f : Frame) (first : Bool) (h : Canonical s.mem) :
    Canonical (deliverLocal s p f first).mem := by
  have hd : ∀ d, Canonical (s.deliver d p f).mem := fun d => by simpa using h
  have ht : ∀ (c : Prop) [Decidable c] d n, Canonical (if c then toHost (s.deliver d p f) p n f else s.deliver d p f).mem := fun
    c _ d n => by
    split
    · exact canon_toHost _ p n f (hd d)
    · exact hd d
  unfold deliverLocal
  split
  · exact ht _ _ _
  · exact ht _ _ _
  · exact hd _
  · exact hd _
  · exact ht _ _ _
  · exact ht _ _ _
  · exact canon_toHost s p 3 f h
  · exact hd _
  · exact hd _
  · exact h
  · split
    · exact canon_toHost s p 4 f h
    · split
      · exact canon_toHost s p 5 f h
      · exact h
@[simp] theorem canon_forward (s : State) (p : Nat) (f : Frame) (h : Canonical s.mem) :
    Canonical (forward s p f).mem := by simp [forward, h]
@[simp] theorem canon_ringFrame (s : State) (p : Nat) (f : Frame) (seq : Nat) (h : Canonical s.mem) :
    Canonical (ringFrame s p f seq).mem := by simp [ringFrame, h]
@[simp] theorem canon_prpFrame (s : State) (p : Nat) (f : Frame) (lanB : Bool) (seq : Nat) (h : Canonical s.mem) :
    Canonical (prpFrame s p f lanB seq).mem := by
  simp only [prpFrame]
  (repeat' split) <;> simp [h]
@[simp] theorem canon_goodFrame (s : State) (p : Nat) (f : Frame) (h : Canonical s.mem) : Canonical (goodFrame s p f).mem := by
  unfold goodFrame
  extract_lets s1
  have h1 : Canonical s1.mem := h
  split
  · split
    · exact canon_deliverLocal s1 p f true h1
    · exact h1
  split
  · split
    · exact canon_prpFrame s1 p f _ _ h1
    · split
      · exact canon_deliverLocal s1 p f true h1
      · exact h1
  · split
    · exact canon_ringFrame s1 p f _ h1
    · exact h1
@[simp] theorem canon_badFrame (s : State) (p : Nat) (f : Frame) (h : Canonical s.mem) : Canonical (badFrame s p f).mem := by
  unfold badFrame
  split <;> simp [h]
@[simp] theorem canon_execFrameReceive (p : Fin 3) (f : Frame) (s : State) (h : Canonical s.mem) :
    NextOk (execFrameReceive p f s) := by simp [execFrameReceive, h]
@[simp] theorem canon_execHostTxDescriptor (s : State) (h : Canonical s.mem) : NextOk (execHostTxDescriptor s) := by
  simp only [execHostTxDescriptor]
  (repeat' split) <;> simp [h]

/-! ### GOOSE -/
@[simp] theorem canon_execGooseC0WordRead (s : State) (h : Canonical s.mem) :
    NextOk (execGooseC0WordRead s) := by simp [execGooseC0WordRead, h]
@[simp] theorem canon_execGooseBuild (c : Fin 128) (s : State) (h : Canonical s.mem) : NextOk (execGooseBuild c s) := by
  unfold execGooseBuild
  (repeat' split) <;> simp [h]
@[simp] theorem canon_execGooseRetransmit (c : Fin 128) (s : State) (h : Canonical s.mem) :
    NextOk (execGooseRetransmit c s) := by
  unfold execGooseRetransmit
  split <;> simp [h]
@[simp] theorem canon_execGooseFrameReceive (f : GFrame) (s : State) (h : Canonical s.mem) :
    NextOk (execGooseFrameReceive f s) := by simp [execGooseFrameReceive, h]
@[simp] theorem canon_execGooseExpired (n : Fin 1024) (s : State) (h : Canonical s.mem) :
    NextOk (execGooseExpired n s) := by simp [execGooseExpired, h]

/-! ### Recorder -/
@[simp] theorem canon_execFastRow (u : Fin 4) (s : State) (h : Canonical s.mem) :
    NextOk (execFastRow u s) := by simp [execFastRow, h]
@[simp] theorem canon_execRecRecordEnd (u : Fin 4) (s : State) (h : Canonical s.mem) : NextOk (execRecRecordEnd u s) := by
  unfold execRecRecordEnd
  split <;> simp [h]
@[simp] theorem canon_execRecHoldoffEnd (u : Fin 4) (s : State) (h : Canonical s.mem) :
    NextOk (execRecHoldoffEnd u s) := by simp [execRecHoldoffEnd, h]
@[simp] theorem canon_execRecArm (u : Fin 4) (edge : Fin 64) (s : State) (h : Canonical s.mem) :
    NextOk (execRecArm u edge s) := by simp [execRecArm, h]
@[simp] theorem canon_recStop (s : State) (u : Nat) (h : Canonical s.mem) : Canonical (recStop s u).mem := by simp [recStop, h]
@[simp] theorem canon_execRecDisarm (u : Fin 4) (s : State) (h : Canonical s.mem) :
    NextOk (execRecDisarm u s) := by simp [execRecDisarm, h]
@[simp] theorem canon_recPowerDown (s : State) (h : Canonical s.mem) :
    Canonical (recPowerDown s).mem := canon_foldlState (fun t u => canon_recStop t u) _ h
@[simp] theorem canon_execRecHostTrigger (u : Fin 4) (s : State) (h : Canonical s.mem) :
    NextOk (execRecHostTrigger u s) := by simp [execRecHostTrigger, h]
@[simp] theorem canon_execRecPin (u : Fin 4) (v : BitVec 16) (s : State) (h : Canonical s.mem) :
    NextOk (execRecPin u v s) := by simp [execRecPin, h]
@[simp] theorem canon_recNumbered (s : State) (u slot n : Nat) (h : Canonical s.mem) :
    Canonical (recNumbered s u slot n).mem := by simp [recNumbered, h]

/-! ### Loading -/
@[simp] theorem canon_putCores (i : Image) (s : State) (h : Canonical s.mem) :
    Canonical (putCores i s).mem := canon_foldl (fun _ _ hm => canon_loadRange hm _ _ _) _ h
@[simp] theorem canon_putSc (i : Image) (s : State) (h : Canonical s.mem) : Canonical (putSc i s).mem := canon_loadRange h _ _ _
@[simp] theorem canon_putCfg (i : Image) (s : State) (h : Canonical s.mem) : Canonical (putCfg i s).mem :=
  canon_loadRange h _ _ _
@[simp] theorem canon_placeImage (i : Image) (l : Load) (s : State) (h : Canonical s.mem) :
    Canonical (placeImage i l s).mem := by
  rw [placeImage, showBounds_mem, showFtgs_mem, startAfe_mem]
  refine canon_putSc i _ (canon_putCores i _ ?_)
  rw [putBanks_mem, putFlds_mem]
  exact canon_putCfg i _ h
@[simp] theorem canon_execCoreReloadDone (n : Fin 8) (readOk : Bool) (s : State) (h : Canonical s.mem) :
    NextOk (execCoreReloadDone n readOk s) := by simp [execCoreReloadDone, h]
@[simp] theorem canon_execSchemeReloadDone (readOk : Bool) (s : State) (h : Canonical s.mem) :
    NextOk (execSchemeReloadDone readOk s) := by simp [execSchemeReloadDone, h]

/-! ### Thorn -/
@[simp] theorem canon_execMinPulseEnd (o : Fin 48) (s : State) (h : Canonical s.mem) :
    NextOk (execMinPulseEnd o s) := by simp [execMinPulseEnd, h]
@[simp] theorem canon_execReadbackMismatch (o : Fin 48) (s : State) (h : Canonical s.mem) :
    NextOk (execReadbackMismatch o s) := by simp [execReadbackMismatch, h]
@[simp] theorem canon_execReadbackMismatchEnd (o : Fin 48) (s : State) (h : Canonical s.mem) :
    NextOk (execReadbackMismatchEnd o s) := by simp [execReadbackMismatchEnd, h]
@[simp] theorem canon_execBinEdge (i : Fin 64) (pin : Bool) (s : State) (h : Canonical s.mem) :
    NextOk (execBinEdge i pin s) := by simp [execBinEdge, h]
@[simp] theorem canon_execBinDebounceAccept (i : Fin 64) (s : State) (h : Canonical s.mem) :
    NextOk (execBinDebounceAccept i s) := by simp [execBinDebounceAccept, h]
@[simp] theorem canon_execBinChatterThaw (i : Fin 64) (s : State) (h : Canonical s.mem) :
    NextOk (execBinChatterThaw i s) := by simp [execBinChatterThaw, h]
@[simp] theorem canon_execBinEventPop (s : State) (h : Canonical s.mem) : NextOk (execBinEventPop s) := by
  unfold execBinEventPop
  split <;> simp [h]
@[simp] theorem canon_execGpoHostWrite (v : BitVec 16) (s : State) (h : Canonical s.mem) :
    NextOk (execGpoHostWrite v s) := by simp [execGpoHostWrite, h]

/-! ### Time -/
@[simp] theorem canon_execTpoArm (k : Fin 8) (s : State) (h : Canonical s.mem) : NextOk (execTpoArm k s) := by
  unfold execTpoArm
  split <;> simp [h]
@[simp] theorem canon_execTpoDisarm (k : Fin 8) (s : State) (h : Canonical s.mem) :
    NextOk (execTpoDisarm k s) := by simp [execTpoDisarm, h]
@[simp] theorem canon_execTpoEdge (k : Fin 8) (s : State) (h : Canonical s.mem) : NextOk (execTpoEdge k s) := by
  unfold execTpoEdge
  split <;> simp [h]
@[simp] theorem canon_execBaseSet (b : Fin 4) (s : State) (h : Canonical s.mem) :
    NextOk (execBaseSet b s) := by simp [execBaseSet, h]
@[simp] theorem canon_execBaseReacquire (b : Fin 4) (s : State) (h : Canonical s.mem) :
    NextOk (execBaseReacquire b s) := by simp [execBaseReacquire, h]
@[simp] theorem canon_execTimeDomainSwitch (sel : Fin 2) (s : State) (h : Canonical s.mem) :
    NextOk (execTimeDomainSwitch sel s) := by simp [execTimeDomainSwitch, h]
@[simp] theorem canon_execSwitchSlewEnd (s : State) (h : Canonical s.mem) :
    NextOk (execSwitchSlewEnd s) := by simp [execSwitchSlewEnd, h]
@[simp] theorem canon_execSyncReceive (m : SyncMsg) (s : State) (h : Canonical s.mem) :
    NextOk (execSyncReceive m s) := by simp [execSyncReceive, h]
@[simp] theorem canon_execFollowUpReceive (m : FollowUp) (s : State) (h : Canonical s.mem) :
    NextOk (execFollowUpReceive m s) := by simp [execFollowUpReceive, h]
@[simp] theorem canon_execPathSlewEnd (b : Fin 4) (s : State) (h : Canonical s.mem) :
    NextOk (execPathSlewEnd b s) := by simp [execPathSlewEnd, h]
@[simp] theorem canon_execSyncTimeout (b : Fin 4) (s : State) (h : Canonical s.mem) :
    NextOk (execSyncTimeout b s) := by simp [execSyncTimeout, h]
@[simp] theorem canon_execHoldoverTimeout (b : Fin 4) (s : State) (h : Canonical s.mem) :
    NextOk (execHoldoverTimeout b s) := by simp [execHoldoverTimeout, h]
@[simp] theorem canon_execMasterSelect (b : Fin 4) (w : MasterSel) (v : BitVec 32) (s : State) (h : Canonical s.mem) :
    NextOk (execMasterSelect b w v s) := by
  unfold execMasterSelect
  split <;> simp [h]
@[simp] theorem canon_execCoarseClockLoad (s : State) (h : Canonical s.mem) :
    NextOk (execCoarseClockLoad s) := by simp [execCoarseClockLoad, h]
@[simp] theorem canon_execPdelayReqSend (p : Fin 3) (s : State) (h : Canonical s.mem) :
    NextOk (execPdelayReqSend p s) := by simp [execPdelayReqSend, h]
@[simp] theorem canon_execPdelayReqReceive (m : PdReq) (s : State) (h : Canonical s.mem) :
    NextOk (execPdelayReqReceive m s) := by simp [execPdelayReqReceive, h]
@[simp] theorem canon_execPdelayRespReceive (p : Fin 3) (m : PdResp) (s : State) (h : Canonical s.mem) :
    NextOk (execPdelayRespReceive p m s) := by
  rw [execPdelayRespReceive, nextOk_next]
  extract_lets s0 x
  have h0 : Canonical s0.mem := by simpa [s0] using h
  split
  · rw [wrb_mem, wr_mem, wr_mem, setPd_mem]
    exact h0
  · exact h0
@[simp] theorem canon_execTciCapture (i : Fin 8) (rise : Bool) (s : State) (h : Canonical s.mem) :
    NextOk (execTciCapture i rise s) := by
  simp only [execTciCapture]
  (repeat' split) <;> simp [h]
@[simp] theorem canon_execTciPop (s : State) (h : Canonical s.mem) : NextOk (execTciPop s) := by simp [execTciPop, h]
@[simp] theorem canon_execPpsEdge (rise : Bool) (s : State) (h : Canonical s.mem) : NextOk (execPpsEdge rise s) := by
  rw [execPpsEdge, nextOk_next]
  extract_lets x sec
  split
  · exact h
  split
  · rw [stepBase_mem, setTbState_mem, endPath_mem, setTb_mem]
    exact h
  · rw [useOffset_mem, setTb_mem]
    exact h

/-! ### Twins -/
@[simp] theorem canon_execBeaconSend (s : State) (h : Canonical s.mem) :
    NextOk (execBeaconSend s) := by simp [execBeaconSend, h]
@[simp] theorem canon_execTwinSilentExpiry (s : State) (h : Canonical s.mem) :
    NextOk (execTwinSilentExpiry s) := by simp [execTwinSilentExpiry, h]
@[simp] theorem canon_execTwinRelearn (s : State) (h : Canonical s.mem) :
    NextOk (execTwinRelearn s) := by simp [execTwinRelearn, h]
@[simp] theorem canon_execTwnMixed (s : State) (h : Canonical s.mem) : NextOk (execTwnMixed s) := by
  unfold execTwnMixed
  split <;> simp [h]
@[simp] theorem canon_execTwinWindowDeadline (s : State) (h : Canonical s.mem) :
    NextOk (execTwinWindowDeadline s) := by simp [execTwinWindowDeadline, h]
@[simp] theorem canon_execTwinFrameSend (s : State) (h : Canonical s.mem) : NextOk (execTwinFrameSend s) := by
  unfold execTwinFrameSend
  split <;> simp [h]
@[simp] theorem canon_execTwinIdleFrameSend (s : State) (h : Canonical s.mem) :
    NextOk (execTwinIdleFrameSend s) := by simp [execTwinIdleFrameSend, h]
@[simp] theorem canon_tellRecords (s s1 : State) (h : Canonical s1.mem) : Canonical (tellRecords s s1).mem :=
  canon_foldlState (fun t e ht => by simp [ht]) _ h
@[simp] theorem canon_execYewEventAdmit (k : Nat) (s : State) (h : Canonical s.mem) :
    NextOk (execYewEventAdmit k s) := by simp [execYewEventAdmit, h]
@[simp] theorem canon_execYewScanEnd (s : State) (h : Canonical s.mem) :
    NextOk (execYewScanEnd s) := by simp [execYewScanEnd, h]
@[simp] theorem canon_execTwinFrameReceive (f : TwinFrame) (s : State) (h : Canonical s.mem) :
    NextOk (execTwinFrameReceive f s) := by simp [execTwinFrameReceive, h]
@[simp] theorem canon_execBeaconReceive (f : Beacon) (s : State) (h : Canonical s.mem) :
    NextOk (execBeaconReceive f s) := by simp [execBeaconReceive, h]

/-! ### Start-up and power -/
@[simp] theorem canon_losePd (s : State) (d : Nat) (h : Canonical s.mem) : Canonical (losePd s d).mem := by
  unfold losePd
  split <;> simp [h]
@[simp] theorem canon_powerOff (s : State) (ds : List Nat) (h : Canonical s.mem) : Canonical (powerOff s ds).mem := by
  unfold powerOff
  extract_lets s0 s1
  have h0 : Canonical s0.mem := by simp [s0, h]
  have h1 : Canonical s1.mem := by
    rw [foldl_mem fun _ _ => endReset_mem ..]
    exact canon_foldlState canon_losePd ds h0
  simpa using h1
@[simp] theorem canon_execRstNAssert (s : State) (h : Canonical s.mem) :
    NextOk (execRstNAssert s) := by simp [execRstNAssert, h]
@[simp] theorem canon_enterMaint (s : State) (h : Canonical s.mem) : Canonical (enterMaint s).mem := by simp [enterMaint, h]
@[simp] theorem canon_startBoot (s : State) (straps : Nat) (h : Canonical s.mem) : Canonical (startBoot s straps).mem := by
  unfold startBoot
  extract_lets first g s1
  have h1 : Canonical s1.mem := h
  split
  · exact canon_enterMaint s1 h1
  · exact h1
@[simp] theorem canon_execResetRelease (straps : Fin 4) (s : State) (h : Canonical s.mem) :
    NextOk (execResetRelease straps s) := by simp [execResetRelease, h]
@[simp] theorem canon_execHibernateWake (straps : Fin 4) (s : State) (h : Canonical s.mem) :
    NextOk (execHibernateWake straps s) := by simp [execHibernateWake, h]
@[simp] theorem canon_execDomainPowerGood (d : Fin 12) (s : State) (h : Canonical s.mem) :
    NextOk (execDomainPowerGood d s) := by simp [execDomainPowerGood, h]
@[simp] theorem canon_bootFails (s : State) (reason : Nat) (h : Canonical s.mem) :
    Canonical (bootFails s reason).mem := by simp [bootFails, h]
@[simp] theorem canon_execImageVerifyDone (sigOk : Bool) (s : State) (h : Canonical s.mem) :
    NextOk (execImageVerifyDone sigOk s) := by
  rw [execImageVerifyDone, nextOk_next]
  split
  · exact h
  split
  · extract_lets g s1 idle
    split
    · exact h
    · exact canon_powerOff s1 idle h
  · exact canon_bootFails s _ h
@[simp] theorem canon_bootRelease (s : State) (locks : List Fld) (h : Canonical s.mem) :
    Canonical (bootRelease s locks).mem := by simp [bootRelease, h]
@[simp] theorem canon_execImageLoadDone (readOk tablesOk : Bool) (i : Image) (s : State) (h : Canonical s.mem) :
    NextOk (execImageLoadDone readOk tablesOk i s) := by
  simp only [execImageLoadDone]
  (repeat' split) <;> simp [h]
@[simp] theorem canon_execStandbyRequest (s : State) (h : Canonical s.mem) :
    NextOk (execStandbyRequest s) := by simp [execStandbyRequest, h]
@[simp] theorem canon_execHibernateRequest (s : State) (h : Canonical s.mem) :
    NextOk (execHibernateRequest s) := by simp [execHibernateRequest, h]
@[simp] theorem canon_execRunRequest (s : State) (h : Canonical s.mem) :
    NextOk (execRunRequest s) := by simp [execRunRequest, h]
@[simp] theorem canon_standbySteps (s : State) (h : Canonical s.mem) :
    Canonical (standbySteps s).mem := by simp [standbySteps, h]
@[simp] theorem canon_writeCkpt (s : State) (h : Canonical s.mem) : Canonical (writeCkpt s).mem := by simp [writeCkpt, h]
@[simp] theorem canon_hibernate (s : State) (h : Canonical s.mem) : Canonical (hibernate s).mem := by
  have h0 : Canonical (if s.pg 1 then standbySteps s else s).mem := by simp [h]
  exact canon_powerOff _ _ (canon_writeCkpt _ h0)
@[simp] theorem canon_resume (s : State) (l : Load) (h : Canonical s.mem) : Canonical (resume s l).mem := by simp [resume, h]
@[simp] theorem canon_execPowerTransitionDone (s : State) (h : Canonical s.mem) : NextOk (execPowerTransitionDone s) := by
  simp only [execPowerTransitionDone]
  (repeat' split) <;> simp [h]

/-! ### The host -/
@[simp] theorem canon_execPerstAssert (s : State) (h : Canonical s.mem) :
    NextOk (execPerstAssert s) := by simp [execPerstAssert, h]
@[simp] theorem canon_execHostLinkChange (up : Bool) (speed : LinkCfg) (width : Fin 4) (s : State) (h : Canonical s.mem) :
    NextOk (execHostLinkChange up speed width s) := by simp [execHostLinkChange, h]
@[simp] theorem canon_dramWrite (s : State) (i : Ini) (x : Nat) (l : List (Option Byte)) (h : Canonical s.mem) :
    Canonical (dramWrite s i x l).mem := by
  unfold dramWrite
  split
  · exact h
  split
  · rw [denied_mem]
    exact h
  · exact canon_foldlState (fun t w => canon_writeWord x l t w) _ h
@[simp] theorem canon_execBar2Write (x : Nat) (l : List (Option (BitVec 8))) (s : State) (h : Canonical s.mem) :
    NextOk (execBar2Write x l s) := by simp [execBar2Write, h]
@[simp] theorem canon_execBar2Read (x n : Nat) (s : State) (h : Canonical s.mem) :
    NextOk (execBar2Read x n s) := by simp [execBar2Read, h]
@[simp] theorem canon_execRingIndexWrite (r : Fin 4) (prod : Bool) (v : BitVec 32) (s : State) (h : Canonical s.mem) :
    NextOk (execRingIndexWrite r prod v s) := by simp [execRingIndexWrite, h]
@[simp] theorem canon_execRingIrqHoldoffEnd (r : Fin 4) (s : State) (h : Canonical s.mem) :
    NextOk (execRingIrqHoldoffEnd r s) := by simp [execRingIrqHoldoffEnd, h]
@[simp] theorem canon_execDramTrainingDone (ok : Bool) (density : Nat) (s : State) (h : Canonical s.mem) :
    NextOk (execDramTrainingDone ok density s) := by
  rw [execDramTrainingDone, nextOk_next]
  split
  · exact h
  extract_lets d s1
  have h1 : Canonical s1.mem := by simpa [s1] using h
  split
  · exact canon_foldlState canon_drainStage _ h1
  · simpa using h1

/-! ### Writes of registers -/
@[simp] theorem canon_nextOr (s : State) (o : Host.Outcome State Fault Refusal) (h : Canonical s.mem) (ho : NextOk o) :
    Canonical (nextOr s o).mem := by
  unfold nextOr
  split
  · exact ho _ rfl
  · exact h

theorem canon_nextOrIf (c : Prop) [Decidable c] {s : State} {o : Host.Outcome State Fault Refusal} (h : Canonical s.mem)
    (ho : NextOk o) :
    Canonical (if c then nextOr s o else s).mem := by
  split
  · exact canon_nextOr s o h ho
  · exact h
@[simp] theorem canon_wrGlb (s : State) (a v : Nat) (h : Canonical s.mem) : SomeOk (wrGlb s a v) := by simp [wrGlb, h]
@[simp] theorem canon_wrPrv (s : State) (a v : Nat) (h : Canonical s.mem) : SomeOk (wrPrv s a v) := by
  have hw : Canonical (putWord s a v).mem := by simpa using h
  unfold wrPrv
  extract_lets o
  split
  · exact someOk_some.mpr (canon_nextOrIf _ hw (canon_execSafeRequest _ hw))
  split
  · exact someOk_some.mpr (canon_nextOr _ _ h (canon_execBayBlockClear _ s h))
  split
  · exact someOk_some.mpr (canon_nextOrIf _ h (canon_execFirstFaultRearm s h))
  · exact someOk_map (fun _ => by simpa using h) _
@[simp] theorem canon_wrYew (s : State) (a v : Nat) (h : Canonical s.mem) : SomeOk (wrYew s a v) := by
  have hw : Canonical (putWord s a v).mem := by simpa using h
  unfold wrYew
  extract_lets o
  split
  · exact someOk_some.mpr (canon_nextOrIf _ h (canon_execYewClearGo s h))
  split
  · exact someOk_some.mpr (canon_nextOrIf _ hw (canon_execYewFetch _ hw))
  · exact someOk_none
@[simp] theorem canon_wrTbCfg (s : State) (a v b : Nat) (h : Canonical s.mem) :
    Canonical (wrTbCfg s a v b).mem := by simp [wrTbCfg, h]
@[simp] theorem canon_wrTbCtl (s : State) (v b : Nat) (h : Canonical s.mem) :
    Canonical (wrTbCtl s v b).mem := have h1 := canon_nextOrIf (v.testBit 31 = true) h (canon_execBaseReacquire (ix 4 b) s h)
  canon_nextOrIf _ h1 (canon_execBaseSet (ix 4 b) _ h1)
@[simp] theorem canon_wrTpoCtl (s : State) (v k : Nat) (h : Canonical s.mem) :
    Canonical (wrTpoCtl s v k).mem := have h1 := canon_nextOrIf (v.testBit 31 = true) h (canon_execTpoArm (ix 8 k) s h)
  canon_nextOrIf _ h1 (canon_execTpoDisarm (ix 8 k) _ h1)
@[simp] theorem canon_wrTim (s : State) (a v : Nat) (h : Canonical s.mem) : SomeOk (wrTim s a v) := by
  unfold wrTim
  extract_lets o
  split
  · simp [h]
  split
  · exact someOk_some.mpr (canon_nextOrIf _ h (canon_execTciPop s h))
  exact someOk_orElse (someOk_map (fun b => canon_wrTbCfg s a v b h) _) <|
    someOk_orElse (someOk_map (fun b => canon_wrTbCtl s v b h) _) <|
    someOk_orElse (someOk_map (fun _ => by simpa using h) _) <|
    someOk_orElse (someOk_map (fun _ => canon_nextOr _ _ h (canon_execMasterSelect _ _ _ s h)) _) <|
    someOk_orElse (someOk_map (fun _ => canon_nextOr _ _ h (canon_execMasterSelect _ _ _ s h)) _) <|
    someOk_orElse (someOk_map (fun _ => canon_nextOr _ _ h (canon_execMasterSelect _ _ _ s h)) _) <|
    someOk_orElse (someOk_map (fun k => canon_wrTpoCtl s v k h) _) (someOk_map (fun _ => by simpa using h) _)
@[simp] theorem canon_wrNet (s : State) (a v : Nat) (h : Canonical s.mem) : SomeOk (wrNet s a v) := by
  unfold wrNet
  extract_lets o
  split
  · simp [h]
  exact someOk_orElse (someOk_map (fun _ => by simpa using h) _) <|
    someOk_orElse (someOk_map (fun _ => by simpa using h) _) <|
    someOk_orElse (someOk_map (fun _ => by simpa using h) _) <|
    someOk_orElse (someOk_map (fun _ => by simpa using h) _) (someOk_map (fun _ => by simpa using h) _)
@[simp] theorem canon_wrSvi (s : State) (a v : Nat) (h : Canonical s.mem) : SomeOk (wrSvi s a v) := by
  unfold wrSvi
  extract_lets o
  split
  next s1 s2 _ =>
    have h1 : Canonical s1.mem := canon_nextOrIf _ h (canon_execSnapshotRequest s h)
    have h2 : Canonical s2.mem := canon_nextOrIf _ h1 (canon_execDirectoryFlush s1 h1)
    simpa using h2
  split
  · split <;> simp [h]
  refine someOk_orElse ?_ (someOk_map (fun _ => canon_nextOr _ _ h (canon_execSvMapWrite _ _ _ _ s h)) _)
  intro t ht
  obtain ⟨e, -, he⟩ := List.exists_of_findSome?_eq_some ht
  exact someOk_map (fun _ => canon_nextOr _ _ h (canon_execSvSubConfigWrite _ _ _ s h)) _ t he
@[simp] theorem canon_wrCkCtl (s : State) (a v k : Nat) (h : Canonical s.mem) :
    Canonical (wrCkCtl s a v k).mem := by simp [wrCkCtl, h]
@[simp] theorem canon_wrChCfg (s : State) (a v n : Nat) (h : Canonical s.mem) : Canonical (wrChCfg s a v n).mem := by
  unfold wrChCfg
  extract_lets i s1 s2
  have h1 : Canonical s1.mem := canon_nextOr _ _ h (canon_execGainWrite _ _ s h)
  have h2 : Canonical s2.mem := by
    refine canon_nextOr _ _ h1 ?_
    split
    · exact canon_execAfeInputEnable i s1 h1
    · exact canon_execAfeInputDisable i s1 h1
  split
  · exact h2
  next s3 k _ =>
    have h3 : Canonical s3.mem := h2
    simp [h3]
@[simp] theorem canon_wrAfe (s : State) (a v : Nat) (h : Canonical s.mem) : SomeOk (wrAfe s a v) := by
  unfold wrAfe
  extract_lets o
  split
  next s1 s2 _ =>
    have h1 : Canonical s1.mem := canon_nextOr _ _ h (canon_execRefselChange _ s h)
    have h2 : Canonical s2.mem := canon_nextOr _ _ h1 (canon_execLpmRequest _ s1 h1)
    simpa using h2
  exact someOk_orElse (someOk_map (fun k => canon_wrCkCtl s a v k h) _) (someOk_map (fun n => canon_wrChCfg s a v n h) _)
@[simp] theorem canon_wrChainCtl (s : State) (v n : Nat) (h : Canonical s.mem) : Canonical (wrChainCtl s v n).mem := by
  unfold wrChainCtl
  extract_lets i s1
  have h1 : Canonical s1.mem := by
    refine canon_nextOr _ _ h ?_
    split
    · exact canon_execChainRunSet i s h
    · exact canon_execChainRunClear i s h
  exact canon_nextOrIf _ h1 (canon_execChainSrst i s1 h1)
@[simp] theorem canon_wrRsCtl (s : State) (v m : Nat) (h : Canonical s.mem) : Canonical (wrRsCtl s v m).mem := by
  unfold wrRsCtl
  extract_lets i s1
  have h1 : Canonical s1.mem := by
    refine canon_nextOr _ _ h ?_
    split
    · exact canon_execResamplerRunSet i s h
    · exact canon_execResamplerRunClear i s h
  exact canon_nextOrIf _ h1 (canon_execResamplerSrst i s1 h1)
@[simp] theorem canon_wrDch (s : State) (a v : Nat) (h : Canonical s.mem) : SomeOk (wrDch s a v) := by
  unfold wrDch
  extract_lets o
  split
  · exact someOk_some.mpr (canon_nextOr _ _ h (canon_execDchLoadData _ s h))
  split
  · split
    · exact someOk_some.mpr (canon_nextOr _ _ h (canon_execDchLoadOpen s h))
    · exact someOk_some.mpr (canon_nextOrIf _ h (canon_execDchLoadCommit s h))
  exact someOk_orElse (someOk_map (fun n => canon_wrChainCtl s v n h) _) <|
    someOk_orElse (someOk_map (fun _ => canon_nextOr _ _ h (canon_execNhbWrite _ _ (s.wr _ v) h)) _) <|
    someOk_orElse (someOk_map (fun _ => canon_nextOr _ _ h (canon_execBankRequest _ _ s h)) _) <|
    someOk_orElse (someOk_map (fun m => canon_wrRsCtl s v m h) _) <|
    someOk_orElse (someOk_map (fun _ => canon_nextOr _ _ h (canon_execResamplerSourceWrite _ _ _ (s.wr _ v) h)) _)
      (someOk_map (fun _ => canon_nextOr _ _ h (canon_execBankRequest _ _ s h)) _)
@[simp] theorem canon_wrFtgCfg (s : State) (a v g : Nat) (h : Canonical s.mem) :
    Canonical (wrFtgCfg s a v g).mem := by simp [wrFtgCfg, h]
@[simp] theorem canon_wrEsp (s : State) (a v : Nat) (h : Canonical s.mem) : SomeOk (wrEsp s a v) := by
  unfold wrEsp
  extract_lets o
  exact someOk_orElse (someOk_map (fun g => canon_wrFtgCfg s a v g h) _) <|
    someOk_orElse (someOk_map (fun _ => by simpa using h) _) <|
    someOk_orElse (someOk_map (fun _ => by simpa using h) _) (someOk_map (fun _ => by simpa using h) _)
@[simp] theorem canon_wrElc (s : State) (a v : Nat) (h : Canonical s.mem) : SomeOk (wrElc s a v) := by
  unfold wrElc
  extract_lets n o
  split
  · exact someOk_none
  split
  · simp [h]
  · exact someOk_orElse (someOk_map (fun _ => by simpa using h) _) (someOk_map (fun _ => by simpa using h) _)
@[simp] theorem canon_wrBinCfg (s : State) (a v i : Nat) (h : Canonical s.mem) :
    Canonical (wrBinCfg s a v i).mem := by simp [wrBinCfg, h]
@[simp] theorem canon_wrThn (s : State) (a v : Nat) (h : Canonical s.mem) : SomeOk (wrThn s a v) := by
  simp only [wrThn]
  (repeat' split) <;> simp [h]
@[simp] theorem canon_wrExch (s : State) (v : Nat) (h : Canonical s.mem) :
    Canonical (wrExch s v).mem :=
  have h1 := canon_nextOrIf (v.testBit 31 = true) (s := s.wr R.SCH_EXCH_CTL_SLOT v) h
    (canon_execExchangeRequest (s.wr R.SCH_EXCH_CTL_SLOT v) h)
  canon_nextOrIf _ h1 (canon_execExchangeCancel _ h1)
@[simp] theorem canon_wrSch (s : State) (a v : Nat) (h : Canonical s.mem) : SomeOk (wrSch s a v) := by
  unfold wrSch
  extract_lets o
  split
  · simp [h]
  split
  · exact someOk_some.mpr (canon_wrExch s v h)
  · exact someOk_map (fun _ => canon_nextOrIf _ h (canon_execTaskHostActivate _ s h)) _
@[simp] theorem canon_wrAuCtl (s : State) (v u : Nat) (h : Canonical s.mem) : Canonical (wrAuCtl s v u).mem := by
  unfold wrAuCtl
  extract_lets i k s1 s2
  have h1 : Canonical s1.mem := by
    simp only [s1]
    split
    · exact canon_nextOr _ _ h (canon_execRecArm i _ _ h)
    · exact h
  have h2 : Canonical s2.mem := canon_nextOrIf _ h1 (canon_execRecDisarm i s1 h1)
  exact canon_nextOrIf _ h2 (canon_execRecHostTrigger i s2 h2)
@[simp] theorem canon_wrRec (s : State) (a v : Nat) (h : Canonical s.mem) : SomeOk (wrRec s a v) := by
  unfold wrRec
  extract_lets o
  refine someOk_orElse (someOk_map (fun u => canon_wrAuCtl s v u h) _) <|
    someOk_orElse (someOk_map (fun _ => canon_nextOr _ _ h (canon_execRecPin _ _ s h)) _) ?_
  split
  · simp [h]
  · exact someOk_none
@[simp] theorem canon_wrSecCmd (s : State) (op : Nat) (h : Canonical s.mem) : Canonical (wrSecCmd s op).mem := by
  unfold wrSecCmd
  split <;> simp [h]
@[simp] theorem canon_wrSec (s : State) (a v : Nat) (h : Canonical s.mem) : SomeOk (wrSec s a v) := by simp [wrSec, h]
@[simp] theorem canon_wrTwn (s : State) (a v : Nat) (h : Canonical s.mem) : SomeOk (wrTwn s a v) := by simp [wrTwn, h]
@[simp] theorem canon_wrHst (s : State) (a v : Nat) (h : Canonical s.mem) : SomeOk (wrHst s a v) := by
  unfold wrHst
  split
  · simp [h]
  · exact someOk_orElse (someOk_map (fun _ => by simp [h]) _) <|
      someOk_orElse (someOk_map (fun _ => by simpa using h) _) (someOk_map (fun _ => by simpa using h) _)
@[simp] theorem canon_wrSpecial (s : State) (a v : Nat) (h : Canonical s.mem) : SomeOk (wrSpecial s a v) := by
  unfold wrSpecial
  split <;> simp [h]
@[simp] theorem canon_writeReg (s : State) (a v : Nat) (h : Canonical s.mem) : Canonical (writeReg s a v).mem := by
  unfold writeReg
  split
  · exact h
  split
  · split <;> simp [h]
  rw [prvWritten_mem]
  cases hs : wrSpecial s a v with
  | none => simpa using h
  | some t => exact canon_wrSpecial s a v h t hs
@[simp] theorem canon_busWrite (s : State) (i : Ini) (a v : Nat) (h : Canonical s.mem) : Canonical (busWrite s i a v).mem := by
  unfold busWrite
  split
  · exact h
  split
  · rw [denied_mem]
    exact h
  · split
    · simp [h]
    · exact canon_writeReg s a v h
@[simp] theorem canon_execRegisterWrite (i : Ini) (a : Nat) (v : BitVec 32) (s : State) (h : Canonical s.mem) :
    NextOk (execRegisterWrite i a v s) := by simp [execRegisterWrite, h]
@[simp] theorem canon_msixWide (write : Option (BitVec 64)) (a : Nat) (s : State) (h : Canonical s.mem) :
    Canonical (msixWide write a s).mem := by
  unfold msixWide
  split <;> simp [h]
@[simp] theorem canon_execBar0NarrowAccess (write : Option (BitVec 64)) (a n : Nat) (s : State) (h : Canonical s.mem) :
    NextOk (execBar0NarrowAccess write a n s) := by simp [execBar0NarrowAccess, h]
@[simp] theorem canon_execWideLowRead (a : Nat) (s : State) (h : Canonical s.mem) :
    NextOk (execWideLowRead a s) := by simp [execWideLowRead, h]
@[simp] theorem canon_execReadClear (a : Nat) (s : State) (h : Canonical s.mem) :
    NextOk (execReadClear a s) := by simp [execReadClear, h]
@[simp] theorem canon_execBlockLock (k : Fin 23) (s : State) (h : Canonical s.mem) : NextOk (execBlockLock k s) := by
  unfold execBlockLock
  split <;> simp [h]
@[simp] theorem canon_execDiagnosticPortRead (d : DiagSel) (s : State) (h : Canonical s.mem) :
    NextOk (execDiagnosticPortRead d s) := by
  unfold execDiagnosticPortRead
  (repeat' split) <;> simp [h]

/-! ### Exchange -/
@[simp] theorem canon_execExchangeCheckDone (sigOk readOk tablesOk : Bool) (i : Image) (s : State) (h : Canonical s.mem) :
    NextOk (execExchangeCheckDone sigOk readOk tablesOk i s) := by
  unfold execExchangeCheckDone
  (repeat' split) <;> simp [h]
@[simp] theorem canon_unlockedWrite (s : State) (a v : Nat) (h : Canonical s.mem) : Canonical (unlockedWrite s a v).mem := by
  unfold unlockedWrite
  split
  next f _ => exact canon_writeReg (s.wr f 0) a v h
  · exact canon_writeReg s a v h
@[simp] theorem canon_changeReg (i : Image) (s : State) (a : Nat) (h : Canonical s.mem) :
    Canonical (changeReg i s a).mem := by simp [changeReg, h]
@[simp] theorem canon_changeFields (s : State) (i : Image) (h : Canonical s.mem) :
    Canonical (changeFields s i).mem := canon_foldlState (fun t a => canon_changeReg i t a) _ h
@[simp] theorem canon_swapImage (s : State) (i : Image) (h : Canonical s.mem) :
    Canonical (swapImage s i).mem := by simp [swapImage, h]
@[simp] theorem canon_execExchangeSwitch (s : State) (h : Canonical s.mem) : NextOk (execExchangeSwitch s) := by
  rw [execExchangeSwitch, nextOk_next]
  split
  · exact h
  next i _ =>
    split
    · exact h
    have hc : Canonical (scRegions s (carryRegions i)).1.mem := by simpa using h
    split
    · exact hc
    · rw [endExch_mem, releaseHeld_mem]
      exact canon_startCkpt _ (canon_swapImage _ i (canon_changeFields _ i
        (canon_carryOver _ i (by rw [setExch_mem]; exact hc))))

/-! ### Faults -/
@[simp] theorem canon_loseFrame (s : State) (h : Canonical s.mem) : Canonical (loseFrame s).mem := by
  simp only [loseFrame]
  (repeat' split) <;> simp [h]
@[simp] theorem canon_dropDirEntry (s : State) (o : Fin 25 × BitVec 32) (h : Canonical s.mem) :
    Canonical (dropDirEntry s o).mem := by simp [dropDirEntry, h]
@[simp] theorem canon_execPrivetFaultOccurrence (occs : List (Fin 25 × BitVec 32)) (s : State) (h : Canonical s.mem) :
    NextOk (execPrivetFaultOccurrence occs s) := by
  rw [execPrivetFaultOccurrence, nextOk_next]
  extract_lets p s0 all cons acted safe0 isSafe isDev eff s1
  have h0 : Canonical s0.mem := canon_foldlState canon_dropDirEntry _ h
  have h1 : Canonical s1.mem := by simpa [s1] using h0
  split
  · simp [h1]
  · split
    · exact h1
    · exact canon_assertReset _ _ _ _ h1
  · split
    · exact h1
    · exact canon_foldlState (fun t o ht => by simpa using ht) _ h1

/-! ### MSPI -/
theorem canon_mspiWords {w : State → Nat → Nat → State} (hw : ∀ t a v, Canonical t.mem → Canonical (w t a v).mem)
    (l : List (BitVec 32)) (a : Nat) {s : State} (h : Canonical s.mem) : Canonical (mspiWords w l a s).mem := by
  induction l generalizing a s with
  | nil => exact h
  | cons v t ih =>
    refine ih _ ?_
    split
    · exact hw s a _ h
    · exact h
theorem canon_mspiWrite {cmd : Nat} {w : State → Nat → Nat → State} (hw : ∀ t a v, Canonical t.mem → Canonical (w t a v).mem)
    {a : BitVec 32}
    {l : List (BitVec 32)} {crc : Byte} {quick : Nat} {s : State} (h : Canonical s.mem) : Canonical
      (mspiWrite cmd w a l crc quick s).mem := by
  unfold mspiWrite
  split
  · exact h
  · split
    · exact h
    · exact canon_mspiWords hw _ _ h
theorem canon_mspiRead {cmd : Nat} {r : State → List Byte × State} (hr : ∀ t, Canonical t.mem → Canonical (r t).2.mem)
    {a : BitVec 32}
    {n : Fin 64} {crc : Byte} {quick : Bool} {s : State} (h : Canonical s.mem) : Canonical (mspiRead cmd r a n crc quick s).mem
      := by
  unfold mspiRead
  split
  · exact h
  · split
    · exact h
    · exact hr s h
@[simp] theorem canon_execMspiWriteBar0 (a : BitVec 32) (l : List (BitVec 32)) (crc : BitVec 8) (quick : Nat) (s : State)
    (h : Canonical s.mem) :
    NextOk (execMspiWriteBar0 a l crc quick s) := canon_next (canon_mspiWrite (fun t _ _ => canon_busWrite t .mspi _ _) h)
@[simp] theorem canon_execMspiReadBar0 (a : BitVec 32) (n : Fin 64) (crc : BitVec 8) (quick : Bool) (s : State)
    (h : Canonical s.mem) :
    NextOk (execMspiReadBar0 a n crc quick s) := canon_next (canon_mspiRead (fun t ht => by simpa using ht) h)
@[simp] theorem canon_execMspiWriteDram (a : BitVec 32) (l : List (BitVec 32)) (crc : BitVec 8) (quick : Nat) (s : State)
    (h : Canonical s.mem) :
    NextOk (execMspiWriteDram a l crc quick s) := canon_next (canon_mspiWrite (fun t _ _ => canon_dramWrite t .mspi _ _)
      h)
@[simp] theorem canon_execMspiReadDram (a : BitVec 32) (n : Fin 64) (crc : BitVec 8) (quick : Bool) (s : State)
    (h : Canonical s.mem) :
    NextOk (execMspiReadDram a n crc quick s) := canon_next (canon_mspiRead (fun t ht => by simpa using ht) h)
@[simp] theorem canon_execMspiStatus (a : MspiHead) (n : Fin 64) (crc : BitVec 8) (quick : Bool) (s : State)
    (h : Canonical s.mem) :
    NextOk (execMspiStatus a n crc quick s) := by
  rw [execMspiStatus, nextOk_next]
  split
  · exact canon_mspiRead (fun _ ht => ht) h
  · split
    · exact h
    · simpa using h

/-! ### The NET cycle -/
@[simp] theorem canon_execTimeShadowCorrection (s : State) (h : Canonical s.mem) :
    NextOk (execTimeShadowCorrection s) := by simp [execTimeShadowCorrection, h]

/-! ### Dispatch -/
/-- Whatever command runs, it keeps the memory canonical: a syllable that changes registers only by what its issue does, any
other command by its own law. -/
theorem canon_exec (c : Instr) (s : State) (h : Canonical s.mem) : NextOk (exec c s) := by
  cases c with
  | ild | ildb | ist | istb | tpre | tel | trst | edg | rdtime | tkAct | stW | stC | vwr | vset | vclr | vrd | tickEnd
    | phRd | cvClr | cvSet | sqSeq | sqPwr | sqPwr1 | fadd | fsub | fmul | fdiv | fmin | fmax | fsqrt | fabs | fneg | fcvtWs |
      fcvtSw
    | fcvtSwu | fmadd | fmsub | fcmpEq | fcmpLt | fcmpLe | fcmpUn | cadd | csub | cmul | cmulc | cconj | cscale | cmag2 | cabs |
      cre | cim
    | carg | cpack | nop | add | sub | and | or | xor | andn | sll | srl | sra | slt | sltu | min | max | minu | maxu | mul |
      mulh | mulhu
    | div | divu | rem | remu | clz | popc | addi | andi | ori | xori | slli | srli | srai | li | lih | fli | cmpEq | cmpNe |
      cmpLt
    | cmpGe | cmpLtu | cmpGeu | pand | por | pxor | pandn | pnot | br | call | jr | callr | ret | loop =>
    exact canon_next (canon_issue (fun _ => h) h)
  | ton | tof | tpl => exact canon_next (canon_sylF (fun _ => h) h)
  | _ => simp [exec, h]

/-- Settles O4: with no command waiting a NET cycle leaves memory alone; a command keeps it canonical by its own law. -/
theorem stepsKeepMemory : Obligations.StepsKeepMemory := by
  intro s t h hs
  rw [inv_iff] at h ⊢
  unfold step at hs
  split at hs
  · cases hs
    rwa [netCycle_mem]
  next c q _ => exact canon_exec c { s with pending := q } h t hs

/-- Settles O1: a step is defined by the front of its queue. -/
theorem stepRunsFront : Obligations.StepRunsFront := fun _ _ _ => rfl

end Sys2Proof.Machine
end

section
/-! PROOFS. The passing of time (R37, R343, R345, R362, R466, R467): what a NET cycle does to each clock and shadow. -/
namespace Sys2Proof.Machine

/-! ### Slews and bases -/

theorem rdiv_nonneg {n : Int} (h : 0 ≤ n) (d : Nat) : 0 ≤ rdiv n d := by
  rw [rdiv, if_pos h]
  exact Int.ediv_nonneg (by omega) (by omega)

/-- A slew with nothing left does not move. -/
theorem slewMove_zero (s : State) (adv : Nat) : slewMove s adv 0 = 0 := by
  have hm : 0 ≤ rdiv ((adv : Int) * slewRate s) 1000000000 := rdiv_nonneg (by positivity) _
  simp only [slewMove, clampI]
  omega

theorem advance_eq (x : TBase) : advance x = 6 * 2 ^ 32 + x.addend := rfl

theorem tbOf_setTb_self (s : State) (b : Nat) (x : TBase) : (s.setTb b x).tbOf b = x := mget_mput_self ..

theorem tbOf_setTb_ne (s : State) {b c : Nat} (x : TBase) (h : c ≠ b) : (s.setTb b x).tbOf c = s.tbOf c := mget_mput_ne _ _ _ h

theorem tbOf_congr {s t : State} (h : t.tim.tb = s.tim.tb) (b : Nat) : t.tbOf b = s.tbOf b := by
  rw [State.tbOf, State.tbOf, h]

theorem followed_congr {s t : State} (h : t.regs = s.regs) : t.followed = s.followed := by
  simp only [State.followed, State.rd, h]

/-! ### The parts of a NET cycle -/

@[simp] theorem tickBase_regs (s : State) (b : Nat) : (tickBase s b).regs = s.regs := by simp [tickBase]
@[simp] theorem tickBase_pending (s : State) (b : Nat) : (tickBase s b).pending = s.pending := by simp [tickBase]

/-- A base's tick alters that base alone, of the clocks. -/
theorem tickBase_tim (s : State) (b : Nat) : (tickBase s b).tim = { s.tim with tb := (tickBase s b).tim.tb } := rfl

theorem tickBase_tbOf_ne (s : State) {b c : Nat} (h : c ≠ b) : (tickBase s b).tbOf c = s.tbOf c := tbOf_setTb_ne s _ h

/-- A base without a path slew moves on by its own advance. -/
theorem tickBase_tbOf_self {s : State} {b : Nat} (h : (s.tbOf b).path = 0) :
    (tickBase s b).tbOf b = { s.tbOf b with val := (s.tbOf b).val + advance (s.tbOf b) } := by
  have hv : (((s.tbOf b).val : Int) + advance (s.tbOf b) - 0).toNat = (s.tbOf b).val + advance (s.tbOf b) := by omega
  rw [tickBase, tbOf_setTb_self, h, slewMove_zero, hv, Int.sub_zero, ← h]

theorem tickBase_addend (s : State) (b c : Nat) : ((tickBase s b).tbOf c).addend = (s.tbOf c).addend := by
  rcases eq_or_ne c b with rfl | h
  · rw [tickBase, tbOf_setTb_self]
  · rw [tickBase_tbOf_ne s h]

theorem tickBase_path {s : State} {c : Nat} (h : (s.tbOf c).path = 0) (b : Nat) : ((tickBase s b).tbOf c).path = 0 := by
  rcases eq_or_ne c b with rfl | hc
  · rw [tickBase_tbOf_self h, h]
  · rw [tickBase_tbOf_ne s hc, h]

/-- The four bases of a NET cycle, one after the other. -/
def tickBases (s : State) : State := [0, 1, 2, 3].foldl tickBase s

theorem tickBases_eq (s : State) : tickBases s = tickBase (tickBase (tickBase (tickBase s 0) 1) 2) 3 := rfl

@[simp] theorem tickBases_regs (s : State) : (tickBases s).regs = s.regs := by simp [tickBases_eq]
@[simp] theorem tickBases_pending (s : State) : (tickBases s).pending = s.pending := by simp [tickBases_eq]
@[simp] theorem tickBases_mem (s : State) : (tickBases s).mem = s.mem := by simp [tickBases_eq]

theorem tickBases_tim (s : State) : (tickBases s).tim = { s.tim with tb := (tickBases s).tim.tb } := by
  rw [tickBases_eq, tickBase_tim, tickBase_tim (tickBase (tickBase s 0) 1), tickBase_tim (tickBase s 0), tickBase_tim s]

theorem tickBases_addend (s : State) (c : Nat) : ((tickBases s).tbOf c).addend = (s.tbOf c).addend := by
  simp only [tickBases_eq, tickBase_addend]

theorem tickBases_path {s : State} {c : Nat} (h : (s.tbOf c).path = 0) : ((tickBases s).tbOf c).path = 0 :=
  tickBase_path (tickBase_path (tickBase_path (tickBase_path h 0) 1) 2) 3

theorem tickBases_val {s : State} {b : Nat} (hb : b < 4) (h : (s.tbOf b).path = 0) :
    ((tickBases s).tbOf b).val = (s.tbOf b).val + advance (s.tbOf b) := by
  have hself (u : State) (hu : u.tbOf b = s.tbOf b) : ((tickBase u b).tbOf b).val = (s.tbOf b).val + advance (s.tbOf b) := by
    rw [tickBase_tbOf_self (hu ▸ h), hu]
  rw [tickBases_eq]
  interval_cases b
  · rw [tickBase_tbOf_ne _ (by decide), tickBase_tbOf_ne _ (by decide), tickBase_tbOf_ne _ (by decide), hself s rfl]
  · rw [tickBase_tbOf_ne _ (by decide), tickBase_tbOf_ne _ (by decide), hself _ (tickBase_tbOf_ne _ (by decide))]
  · rw [tickBase_tbOf_ne _ (by decide), hself _ ((tickBase_tbOf_ne _ (by decide)).trans (tickBase_tbOf_ne _ (by decide)))]
  · rw [hself _ (((tickBase_tbOf_ne _ (by decide)).trans (tickBase_tbOf_ne _ (by decide))).trans (tickBase_tbOf_ne _ (by decide)))]

/-! ### Grid instants leave the clocks alone -/

@[simp] theorem setFtg_tim (s : State) (g : Nat) (f : Ftg) : (setFtg s g f).tim = s.tim := rfl
@[simp] theorem setFtg_pending (s : State) (g : Nat) (f : Ftg) : (setFtg s g f).pending = s.pending := rfl

@[simp] theorem placeInstant_tim (s : State) (g : Nat) : (placeInstant s g).tim = s.tim := by
  unfold placeInstant
  extract_lets f n i last k s1 lim s2 s3
  have h3 : s3.tim = s.tim := by
    simp only [s3, s2, s1]
    split <;> simp
  split
  · simpa using h3
  · exact h3

@[simp] theorem placeInstant_pending (s : State) (g : Nat) : (placeInstant s g).pending = s.pending := by
  unfold placeInstant
  extract_lets f n i last k s1 lim s2 s3
  have h3 : s3.pending = s.pending := by
    simp only [s3, s2, s1]
    split <;> simp
  split
  · simpa using h3
  · exact h3

theorem foldl_keeps {α β : Type} {p : State → α} {g : State → β → State} (h : ∀ t b, p (g t b) = p t) (l : List β) (s : State) :
    p (l.foldl g s) = p s := by
  induction l generalizing s with
  | nil => rfl
  | cons b t ih => exact (ih _).trans (h s b)

theorem placeAll_tim (s : State) : (placeAll s).tim = s.tim :=
  foldl_keeps (p := State.tim) (fun t g => by split <;> simp) _ s

theorem placeAll_pending (s : State) : (placeAll s).pending = s.pending :=
  foldl_keeps (p := State.pending) (fun t g => by split <;> simp) _ s

/-! ### The NET cycle -/

/-- The state of a NET cycle before its bases move: the trim taken, the coarse clock and the residual moved on. -/
def tickPre (s : State) : State := tickResid (tickCoarse (setTim s { s.tim with trim := (s.tbOf 2).addend }))

@[simp] theorem tickPre_regs (s : State) : (tickPre s).regs = s.regs := rfl
@[simp] theorem tickPre_pending (s : State) : (tickPre s).pending = s.pending := rfl
@[simp] theorem tickPre_mem (s : State) : (tickPre s).mem = s.mem := rfl
theorem tickPre_tbOf (s : State) (b : Nat) : (tickPre s).tbOf b = s.tbOf b := rfl
theorem tickPre_coarse (s : State) : (tickPre s).tim.coarse = s.tim.coarse + 6 * 2 ^ 32 + (s.tbOf 2).addend := rfl
theorem tickPre_shadow (s : State) : (tickPre s).tim.shadow = s.tim.shadow := rfl
theorem tickPre_netCnt (s : State) : (tickPre s).tim.netCnt = s.tim.netCnt := rfl
theorem tickPre_fabPhase (s : State) : (tickPre s).tim.fabPhase = s.tim.fabPhase := rfl

theorem tickPre_resid {s : State} (h : s.tim.resid = 0) : (tickPre s).tim.resid = 0 := by
  have hs (u : State) (hu : u.tim.resid = 0) : (tickResid u).tim.resid = 0 := by
    simp only [tickResid, setTim, hu, slewMove_zero, Int.sub_zero]
  exact hs _ h

theorem netCycle_por {s : State} (h : s.glb.hold = 1) : netCycle s = s := if_pos h

theorem netCycle_shadow2 {s : State} (h : s.glb.hold ≠ 1) (h8 : s.glb.hold ≠ 0 ∨ s.pg 8 = false) :
    netCycle s = tickShadow2 (tickCoarse s) := by rw [netCycle, if_neg h, if_pos h8]

theorem netCycle_run {s : State} (h : s.glb.hold = 0) (h8 : s.pg 8 = true) :
    netCycle s = if s.pg 1 = true then placeAll (tickShadows (tickBases (tickPre s))) else tickBases (tickPre s) := by
  rw [netCycle, if_neg (by omega), if_neg (by simp [h, h8])]
  rfl

/-! ### The time shadows -/

/-- The base that shadow `b` follows, 4 being active time. -/
def shadowSrc (s : State) (b : Nat) : TBase := s.tbOf (if b < 4 then b else s.followed)

/-- A shadow's base that neither slews nor, for active time, works a residual off moves on by its own advance. -/
theorem shadowBase_rate {s : State} {b : Nat} (hp : (shadowSrc s b).path = 0) (hr : ¬ b < 4 → s.tim.resid = 0) :
    (shadowBase s b).2 = advance (shadowSrc s b) := by
  rw [shadowSrc] at hp ⊢
  rw [shadowBase, hp, slewMove_zero]
  split
  · exact Int.sub_zero _
  next h =>
    rw [hr h, slewMove_zero]
    omega

theorem shadowInc_eq {s : State} {b : Nat} (hp : (shadowSrc s b).path = 0) (hr : ¬ b < 4 → s.tim.resid = 0) :
    shadowInc s b = (6 * 2 ^ 32 + (shadowSrc s b).addend) * 25 / 16 := by
  rw [shadowInc, shadowBase_rate hp hr, ← advance_eq]
  omega

theorem shadowBase_val (s : State) (b : Nat) :
    (shadowBase s b).1 = if b < 4 then (shadowSrc s b).val else (((shadowSrc s b).val : Int) - s.tim.resid).toNat := by
  rw [shadowBase, shadowSrc]
  split <;> rfl

/-- Where an idle shadow is placed (R37). -/
theorem shadowWord_eq {s : State} {b : Nat} (hp : (shadowSrc s b).path = 0) (hr : ¬ b < 4 → s.tim.resid = 0) :
    shadowWord s b = ((((shadowBase s b).1 : Int) + (24 * 2 ^ 32 / 5 : Nat) -
      ((6 * 2 ^ 32 + (shadowSrc s b).addend : Nat) : Int) * s.tim.fabPhase / 16).toNat, (6 * 2 ^ 32 + (shadowSrc s b).addend) * 25 / 16) := by
  rw [shadowWord, shadowInc_eq hp hr, shadowBase_rate hp hr, advance_eq]
  rfl

theorem tickShadows_early {s : State} (h : s.tim.fabPhase + 16 < 25) :
    tickShadows s = setTim s { s.tim with netCnt := s.tim.netCnt + 1, fabPhase := s.tim.fabPhase + 16 } := if_pos h

theorem tickShadows_edge {s : State} (h : 25 ≤ s.tim.fabPhase + 16) :
    tickShadows s = setTim s { s.tim with
      netCnt := s.tim.netCnt + 1, fabPhase := s.tim.fabPhase + 16 - 25,
      shadow := s.tim.shadow.map fun e => (e.1, (e.2.1 + shadowInc s e.1, shadowInc s e.1)) } := if_neg (by omega)

@[simp] theorem tickShadows_pending (s : State) : (tickShadows s).pending = s.pending := by
  rcases lt_or_ge (s.tim.fabPhase + 16) 25 with h | h
  · rw [tickShadows_early h, setTim_pending]
  · rw [tickShadows_edge h, setTim_pending]

/-- The shadows' tick counts, and leaves the bases, the coarse clock and the residual alone. -/
theorem tickShadows_clocks (s : State) : (tickShadows s).tim.netCnt = s.tim.netCnt + 1 ∧ (tickShadows s).tim.tb = s.tim.tb ∧
    (tickShadows s).tim.coarse = s.tim.coarse ∧ (tickShadows s).tim.resid = s.tim.resid := by
  rcases lt_or_ge (s.tim.fabPhase + 16) 25 with h | h
  · rw [tickShadows_early h]
    exact ⟨rfl, rfl, rfl, rfl⟩
  · rw [tickShadows_edge h]
    exact ⟨rfl, rfl, rfl, rfl⟩

/-! ### ClocksAdvance, clause by clause -/

theorem step_idle {s : State} (h : s.pending = []) : step s = .next (netCycle s) := by rw [step, h]

/-- The clocks of a NET cycle outside reset with PD8 up. -/
theorem netCycle_clocks {s : State} (h : s.glb.hold = 0) (h8 : s.pg 8 = true) :
    (netCycle s).pending = s.pending ∧ (netCycle s).tim.coarse = s.tim.coarse + 6 * 2 ^ 32 + (s.tbOf 2).addend ∧
    (netCycle s).tim.tb = (tickBases (tickPre s)).tim.tb ∧ (netCycle s).tim.resid = (tickPre s).tim.resid := by
  have hb := tickBases_tim (tickPre s)
  have hc : (tickBases (tickPre s)).tim.coarse = (tickPre s).tim.coarse := by rw [hb]
  have hr : (tickBases (tickPre s)).tim.resid = (tickPre s).tim.resid := by rw [hb]
  obtain ⟨-, htb, hco, hre⟩ := tickShadows_clocks (tickBases (tickPre s))
  rw [netCycle_run h h8]
  split
  · rw [placeAll_tim, placeAll_pending, tickShadows_pending, tickBases_pending, tickPre_pending, htb, hco, hre, hc, hr, tickPre_coarse]
    exact ⟨rfl, rfl, rfl, rfl⟩
  · rw [tickBases_pending, tickPre_pending, hc, hr, tickPre_coarse]
    exact ⟨rfl, rfl, rfl, rfl⟩

/-- With PD1 up the shadows of a NET cycle are those that `tickShadows` gives. -/
theorem netCycle_shadows {s : State} (h : s.glb.hold = 0) (h8 : s.pg 8 = true) (h1 : s.pg 1 = true) :
    (netCycle s).tim = (tickShadows (tickBases (tickPre s))).tim := by
  rw [netCycle_run h h8, if_pos h1, placeAll_tim]

/-- The shadow of a base, or of active time, as it stands while nothing slews. -/
theorem shadowInc_tick {s : State} {b : Nat} (hp : (shadowSrc s b).path = 0) (hr : ¬ b < 4 → s.tim.resid = 0) :
    shadowInc (tickBases (tickPre s)) b = (6 * 2 ^ 32 + (shadowSrc s b).addend) * 25 / 16 := by
  have hsrc : shadowSrc (tickBases (tickPre s)) b = (tickBases (tickPre s)).tbOf (if b < 4 then b else s.followed) := by
    rw [shadowSrc, followed_congr ((tickBases_regs _).trans (tickPre_regs s))]
  have hadd : (shadowSrc (tickBases (tickPre s)) b).addend = (shadowSrc s b).addend := by
    rw [hsrc, tickBases_addend, tickPre_tbOf, shadowSrc]
  have hpath : (shadowSrc (tickBases (tickPre s)) b).path = 0 := by
    rw [hsrc]
    exact tickBases_path hp
  have hres : ¬ b < 4 → (tickBases (tickPre s)).tim.resid = 0 := fun hb => by
    rw [tickBases_tim]
    exact tickPre_resid (hr hb)
  rw [shadowInc_eq hpath hres, hadd]

theorem tickShadow2_regs (s : State) : (tickShadow2 (tickCoarse s)).regs = s.regs := by
  rw [tickShadow2, setTb_regs, tickCoarse, setTim_regs]

theorem tickShadow2_pending (s : State) : (tickShadow2 (tickCoarse s)).pending = s.pending := by
  rw [tickShadow2, setTb_pending, tickCoarse, setTim_pending]

theorem tickShadow2_coarse (s : State) : (tickShadow2 (tickCoarse s)).tim.coarse = s.tim.coarse + 6 * 2 ^ 32 + s.tim.trim := rfl

theorem tickShadow2_val (s : State) :
    ((tickShadow2 (tickCoarse s)).tbOf 2).val = (s.tbOf 2).val + 6 * 2 ^ 32 + s.tim.trim := by
  rw [tickShadow2, tbOf_setTb_self]
  rfl

/-! A NET cycle without TIM: the coarse clock and TB2's shadow in AON go on at the latest rate (R345, R467). -/

section
variable {s : State} (h : s.glb.hold ≠ 1) (h8 : s.glb.hold ≠ 0 ∨ s.pg 8 = false)
include h h8

theorem netCycle_offTim_regs : (netCycle s).regs = s.regs := by rw [netCycle_shadow2 h h8, tickShadow2_regs]

theorem netCycle_offTim_coarse : (netCycle s).tim.coarse = s.tim.coarse + 6 * 2 ^ 32 + s.tim.trim := by
  rw [netCycle_shadow2 h h8, tickShadow2_coarse]

theorem netCycle_offTim_tb2 : ((netCycle s).tbOf 2).val = (s.tbOf 2).val + 6 * 2 ^ 32 + s.tim.trim := by
  rw [netCycle_shadow2 h h8, tickShadow2_val]

theorem netCycle_offTim_pending : (netCycle s).pending = s.pending := by rw [netCycle_shadow2 h h8, tickShadow2_pending]

end

theorem netCycle_bytes (s : State) : SameBytes s (netCycle s) := fun a => by
  have hm : (netCycle s).mem = s.mem := netCycle_mem s
  rw [hm]

theorem tickShadows_early_tim {s : State} (h : s.tim.fabPhase + 16 < 25) :
    (tickShadows s).tim.fabPhase = s.tim.fabPhase + 16 ∧ (tickShadows s).tim.shadow = s.tim.shadow := by
  rw [tickShadows_early h]
  exact ⟨rfl, rfl⟩

theorem tickShadows_edge_tim {s : State} (h : 25 ≤ s.tim.fabPhase + 16) :
    (tickShadows s).tim.fabPhase = s.tim.fabPhase + 16 - 25 ∧
    (tickShadows s).tim.shadow = s.tim.shadow.map fun e => (e.1, (e.2.1 + shadowInc s e.1, shadowInc s e.1)) := by
  rw [tickShadows_edge h]
  exact ⟨rfl, rfl⟩

theorem tickBases_tickPre_fabPhase (s : State) : (tickBases (tickPre s)).tim.fabPhase = s.tim.fabPhase := by
  rw [tickBases_tim, tickPre_fabPhase]

theorem tickBases_tickPre_shadow (s : State) : (tickBases (tickPre s)).tim.shadow = s.tim.shadow := by
  rw [tickBases_tim, tickPre_shadow]

/-- A FAB edge in the NET cycle: each shadow goes on by its increment, which is that of its base (R37). -/
theorem netCycle_fabEdge {s : State} (h : s.glb.hold = 0) (h8 : s.pg 8 = true) (h1 : s.pg 1 = true) (he : 25 ≤ s.tim.fabPhase + 16) :
    (netCycle s).tim.fabPhase = s.tim.fabPhase + 16 - 25 ∧
    (netCycle s).tim.shadow =
      s.tim.shadow.map fun e =>
        (e.1, (e.2.1 + shadowInc (tickBases (tickPre s)) e.1, shadowInc (tickBases (tickPre s)) e.1)) := by
  have ht := tickShadows_edge_tim (s := tickBases (tickPre s)) (by rwa [tickBases_tickPre_fabPhase])
  rwa [← netCycle_shadows h h8 h1, tickBases_tickPre_fabPhase, tickBases_tickPre_shadow] at ht

/-- No FAB edge in the NET cycle. -/
theorem netCycle_noEdge {s : State} (h : s.glb.hold = 0) (h8 : s.pg 8 = true) (h1 : s.pg 1 = true) (he : s.tim.fabPhase + 16 < 25) :
    (netCycle s).tim.fabPhase = s.tim.fabPhase + 16 ∧ (netCycle s).tim.shadow = s.tim.shadow := by
  have ht := tickShadows_early_tim (s := tickBases (tickPre s)) (by rwa [tickBases_tickPre_fabPhase])
  rwa [← netCycle_shadows h h8 h1, tickBases_tickPre_fabPhase, tickBases_tickPre_shadow] at ht

theorem netCycle_netCnt {s : State} (h : s.glb.hold = 0) (h8 : s.pg 8 = true) (h1 : s.pg 1 = true) :
    (netCycle s).tim.netCnt = s.tim.netCnt + 1 := by
  rw [netCycle_shadows h h8 h1, (tickShadows_clocks _).1, tickBases_tim, tickPre_netCnt]

/-- Settles O48: a NET cycle by its parts, a correction by where it places each shadow. -/
theorem clocksAdvance : Obligations.ClocksAdvance := by
  refine ⟨fun s hp hh => by rw [step_idle hp, netCycle_por hh], fun s hp hh => ⟨_, step_idle hp, ?_, ?_, ?_⟩, ?_⟩
  · rcases Classical.em (s.glb.hold ≠ 0 ∨ s.pg 8 = false) with h | h
    · rw [netCycle_offTim_pending hh h, hp]
    · rw [(netCycle_clocks (by omega) (by simpa using (not_or.mp h).2)).1, hp]
  · exact fun h => ⟨netCycle_offTim_regs hh h, netCycle_bytes s, netCycle_offTim_coarse hh h, netCycle_offTim_tb2 hh h⟩
  · intro h h8
    obtain ⟨-, hcoarse, htb, hresid⟩ := netCycle_clocks h h8
    refine ⟨hcoarse, fun b hb hpath => ?_, fun hr => hresid.trans (tickPre_resid hr), fun h1 => ?_, fun h1 => ?_⟩
    · rw [tbOf_congr htb, tickBases_val (s := tickPre s) hb hpath, tickPre_tbOf, advance_eq, ← Nat.add_assoc]
      exact ⟨rfl, tickBases_path hpath⟩
    · exact ⟨by rw [netCycle_run h h8, if_neg (by simp [h1]), tickBases_regs, tickPre_regs], netCycle_bytes s⟩
    · refine ⟨netCycle_netCnt h h8 h1, netCycle_noEdge h h8 h1, fun he => ?_⟩
      obtain ⟨hphase, hshadow⟩ := netCycle_fabEdge h h8 h1 he
      refine ⟨hphase, by rw [hshadow, List.map_map]; rfl, fun k e f hk hf => ?_⟩
      rw [hshadow, List.getElem?_map, hk] at hf
      cases hf
      refine ⟨rfl, fun h4 hpath => ?_, fun h4 hpath hr => ?_⟩
      · have hsrc : shadowSrc s e.1 = s.tbOf e.1 := by rw [shadowSrc, if_pos h4]
        rw [← hsrc] at hpath ⊢
        exact shadowInc_tick hpath fun hn => absurd h4 hn
      · have hsrc : shadowSrc s e.1 = s.tbOf s.followed := by rw [shadowSrc, if_neg (by omega)]
        rw [← hsrc] at hpath ⊢
        exact shadowInc_tick hpath fun _ => hr
  · intro s h h8 h1
    refine ⟨fun hn => ?_, fun b hb => ?_, fun hs hn => ?_⟩
    · have hgo : ¬ (s.glb.hold ≠ 0 ∨ s.pg 8 = false ∨ s.pg 1 = false ∨ (s.tim.shadow ≠ [] ∧ s.tim.netCnt < 1024)) := by
        rcases hn with hn | hn
        · simp [h, h8, h1, hn]
        · simp [h, h8, h1, hn]
      rw [exec, execTimeShadowCorrection, if_neg hgo, setTim]
    · intro x v adv hpath hr
      have hr' : ¬ b < 4 → s.tim.resid = 0 := fun h4 => hr (by omega)
      rw [shadowWord_eq hpath hr', shadowBase_val]
      rfl
    · rw [exec, execTimeShadowCorrection, if_pos (.inr (.inr (.inr ⟨hs, hn⟩)))]

end Sys2Proof.Machine
end

section
/-! PROOFS. Fields outside given ranges, live items, and the gate's update (R34, R413, R548). -/
namespace Sys2Proof.Machine

/-! ### Fields outside given ranges -/

theorem regsKept_refl (s : State) (l : List (Nat × Nat)) : RegsKept s s l := fun _ _ _ _ => rfl

theorem regsKept_of_regs {s t u : State} {l : List (Nat × Nat)} (h : RegsKept s t l) (hu : u.regs = t.regs) : RegsKept s u l :=
  fun f hlo hlt hr => (rd_of_regs hu f).trans (h f hlo hlt hr)

theorem regsKept_trans {s t u : State} {l : List (Nat × Nat)} (h : RegsKept s t l) (hu : RegsKept t u l) : RegsKept s u l :=
  fun f hlo hlt hr => (hu f hlo hlt hr).trans (h f hlo hlt hr)

/-- The field lies in one of the ranges, and in the register map. -/
def Within (f : Fld) (l : List (Nat × Nat)) : Prop := f.lo < 32 ∧ f.addr < 0x4000000 ∧ ∃ r ∈ l, r.1 ≤ f.addr ∧ f.addr < r.2

theorem regsKept_wr {s t : State} {l : List (Nat × Nat)} {f : Fld} (hf : Within f l) (h : RegsKept s t l) (v : Nat) :
    RegsKept s (t.wr f v) l := by
  obtain ⟨hlo, hlt, r, hr, hin⟩ := hf
  intro g hglo hglt hg
  rw [rd_wr_ne _ _ (key_ne_of_addr hglo hlo hglt hlt fun he => hg r hr (he ▸ hin))]
  exact h g hglo hglt hg

theorem sameBytes_of_mem {s t : State} (h : t.mem = s.mem) : SameBytes s t := fun a => by rw [h]

/-! ### Live items of Privet's sources -/

theorem itemLive_of_items {s t : State} (h : t.prv.items = s.prv.items) (k x : Nat) : t.itemLive k x = s.itemLive k x := by
  rw [State.itemLive, State.itemLive, h]

theorem itemLive_itemOn_self (s : State) (k x d : Nat) : (s.itemOn k x d).itemLive k x = true := by
  unfold State.itemOn
  split
  next h => exact h
  next => simp [State.itemLive, State.raiseLine]

theorem itemLive_itemOn_ne (s : State) {k x k' x' : Nat} (d : Nat) (h : (k', x') ≠ (k, x)) :
    (s.itemOn k x d).itemLive k' x' = s.itemLive k' x' := by
  unfold State.itemOn
  split
  next => rfl
  next => simp [State.itemLive, State.raiseLine, h]

theorem itemLive_itemOff_self (s : State) (k x : Nat) : (s.itemOff k x).itemLive k x = false := by
  simp [State.itemLive, State.itemOff]

theorem itemLive_itemOff_ne (s : State) {k x k' x' : Nat} (h : (k', x') ≠ (k, x)) :
    (s.itemOff k x).itemLive k' x' = s.itemLive k' x' := by
  rw [Bool.eq_iff_iff]
  simp [State.itemLive, State.itemOff, h]

theorem itemOn_lines (s : State) (k x d : Nat) :
    (s.itemOn k x d).prv.lines = s.prv.lines ++ (if s.itemLive k x = true then [] else [(k, BitVec.ofNat 32 d)]) := by
  unfold State.itemOn
  split <;> simp [State.raiseLine]

theorem itemLive_itemOnQuiet (s : State) (k x : Nat) : (s.itemOnQuiet k x).itemLive k x = true := by
  unfold State.itemOnQuiet
  split
  next h => exact h
  next => simp [State.itemLive]

theorem itemOnQuiet_lines (s : State) (k x : Nat) : (s.itemOnQuiet k x).prv.lines = s.prv.lines := by
  unfold State.itemOnQuiet
  split <;> rfl

/-! ### What the gate's update does beside memory -/

@[simp] theorem tripEvent_regs (s : State) (rose now : Nat) : (tripEvent s rose now).regs = s.regs := by
  unfold tripEvent
  extract_lets
  split <;> rfl

@[simp] theorem tripEvent_prv (s : State) (rose now : Nat) : (tripEvent s rose now).prv = s.prv := by
  unfold tripEvent
  extract_lets
  split <;> rfl

/-- The fields that the update writes: the pads' terms, the GPO levels and whether the gate is closed. -/
theorem gateUpdate_regs (s : State) : ∃ g c, (gateUpdate s).regs =
    ((((s.wr R.THN_TRIP_LO_LEVEL (padTerms s (bitmap 48 (tripDrv s)) % 2 ^ 32)).wr R.THN_TRIP_HI_LEVEL
      (padTerms s (bitmap 48 (tripDrv s)) / 2 ^ 32)).wr R.THN_GPO_LEVEL g).wrb R.THN_STAT_SAFE c).regs := by
  unfold gateUpdate
  extract_lets d st old new rose th s1 s2 s3
  refine ⟨gpoTerms s2, gateClosed s2, ?_⟩
  split
  · rfl
  · exact tripEvent_regs s3 rose new

@[simp] theorem gateUpdate_prv (s : State) : (gateUpdate s).prv = s.prv := by
  unfold gateUpdate
  extract_lets d st old new rose th s1 s2 s3
  split
  · rfl
  · exact tripEvent_prv s3 rose new

theorem gateUpdate_kept (s : State) : RegsKept s (gateUpdate s) [(0xA00000, 0xB00000)] := by
  obtain ⟨g, c, he⟩ := gateUpdate_regs s
  refine regsKept_of_regs ?_ he
  have hin : ∀ f ∈ [R.THN_TRIP_LO_LEVEL, R.THN_TRIP_HI_LEVEL, R.THN_GPO_LEVEL, R.THN_STAT_SAFE],
      f.lo < 32 ∧ f.addr < 0x4000000 ∧ 0xA00000 ≤ f.addr ∧ f.addr < 0xB00000 := by decide
  have hw (f : Fld) (hf : f ∈ [R.THN_TRIP_LO_LEVEL, R.THN_TRIP_HI_LEVEL, R.THN_GPO_LEVEL, R.THN_STAT_SAFE]) :
      Within f [(0xA00000, 0xB00000)] := by
    obtain ⟨hlo, hlt, hr⟩ := hin f hf
    exact ⟨hlo, hlt, _, List.mem_singleton.mpr rfl, hr⟩
  exact regsKept_wr (hw _ (by simp)) (regsKept_wr (hw _ (by simp)) (regsKept_wr (hw _ (by simp))
    (regsKept_wr (hw _ (by simp)) (regsKept_refl s _) _) _) _) _

/-- A field outside Thornline reads as before the update. -/
theorem gateUpdate_rd (s : State) {f : Fld} (hlo : f.lo < 32) (hlt : f.addr < 0x4000000) (hf : f.addr < 0xA00000 ∨ 0xB00000 ≤ f.addr) :
    (gateUpdate s).rd f = s.rd f :=
  gateUpdate_kept s f hlo hlt fun r hr => by
    rw [List.mem_singleton.mp hr]
    dsimp only
    omega

theorem gateClosed_gateUpdate (s : State) : gateClosed (gateUpdate s) = gateClosed s := by
  rw [gateClosed, gateClosed, gateUpdate_prv, State.on, gateUpdate_rd s (by decide) (by decide) (by decide), ← State.on]

theorem pg_gateUpdate (s : State) (d : Nat) : (gateUpdate s).pg d = s.pg d := by
  rw [State.pg, gateUpdate_rd s (by decide) (by decide) (by decide), ← State.pg]

/-- With the gate closed, or PD1 off, the update drives no pad. -/
theorem gateUpdate_pads {s : State} (h : (gateClosed s || !s.pg 1) = true) : padsNow (gateUpdate s) = 0 ∧ gpoTerms (gateUpdate s) = 0 := by
  obtain ⟨g, c, he⟩ := gateUpdate_regs s
  have h0 : padTerms s (bitmap 48 (tripDrv s)) = 0 := if_pos h
  rw [h0] at he
  refine ⟨?_, if_pos (by rwa [gateClosed_gateUpdate, pg_gateUpdate])⟩
  have hlo : (gateUpdate s).rd R.THN_TRIP_LO_LEVEL = 0 := by
    rw [rd_of_regs he, State.wrb, rd_wr_ne _ _ (by decide), rd_wr_ne _ _ (by decide), rd_wr_ne _ _ (by decide), rd_wr_self]
    rfl
  have hhi : (gateUpdate s).rd R.THN_TRIP_HI_LEVEL = 0 := by
    rw [rd_of_regs he, State.wrb, rd_wr_ne _ _ (by decide), rd_wr_ne _ _ (by decide), rd_wr_self]
    rfl
  rw [padsNow, hlo, hhi, Nat.zero_mul]

end Sys2Proof.Machine
end

section
/-! PROOFS. The monitors of Privet (R33, R412, R413, R528, R548). -/
namespace Sys2Proof.Machine

/-! ### The monitors' commands -/

/-- The next state of a clock monitor outside the receive clocks, its source not masked: the item, then the gate. -/
theorem exec_clockMonitor {c : Fin 9} {s : State} (count : Nat) (hc : ¬ (4 ≤ c.val ∧ c.val ≤ 6)) (hm : srcMasked s (clockSource c) = false) :
    exec (.clockMonitorWindow c count) s =
      .next (clockGate (if (decide (count < (clockBand s c).1) || decide ((clockBand s c).2 < count)) = true
        then s.itemOn (clockSource c) 0 count else s.itemOff (clockSource c) 0)) := by
  simp only [exec, execClockMonitorWindow, if_neg hc, hm, Bool.false_eq_true, if_false]

section Gate
variable (s : State)

theorem clockGate_items : (clockGate s).prv.items = s.prv.items := by rw [clockGate, gateUpdate_prv]
theorem clockGate_lines : (clockGate s).prv.lines = s.prv.lines := by rw [clockGate, gateUpdate_prv]

theorem clockGate_fabGate : (clockGate s).prv.fabGate = ((clockGate s).itemLive 8 0 || (clockGate s).itemLive 9 0) := by
  rw [itemLive_of_items (clockGate_items s), itemLive_of_items (clockGate_items s), clockGate, gateUpdate_prv]

theorem clockGate_pads (h : (clockGate s).prv.fabGate = true) : padsNow (clockGate s) = 0 ∧ gpoTerms (clockGate s) = 0 := by
  rw [clockGate, gateUpdate_prv] at h
  exact gateUpdate_pads (by rw [gateClosed, h]; simp)

theorem clockGate_kept : RegsKept s (clockGate s) [(0xA00000, 0xB00000)] := gateUpdate_kept _

end Gate

/-- An item switched on or off by a condition: live as it says, and told once. -/
theorem item_by (s : State) (k x d : Nat) (bad : Bool) :
    let t := if bad = true then s.itemOn k x d else s.itemOff k x
    t.itemLive k x = bad ∧ t.regs = s.regs ∧ t.mem = s.mem ∧
      t.prv.lines = s.prv.lines ++ (if (bad && !s.itemLive k x) = true then [(k, BitVec.ofNat 32 d)] else []) := by
  cases bad with
  | true =>
    refine ⟨itemLive_itemOn_self .., itemOn_regs .., itemOn_mem .., ?_⟩
    rw [if_pos rfl, itemOn_lines]
    cases s.itemLive k x <;> rfl
  | false => exact ⟨itemLive_itemOff_self .., itemOff_regs .., itemOff_mem .., (List.append_nil _).symm⟩

theorem clockMonitor_window {c : Fin 9} {s : State} (count : Nat) (hc : ¬ (4 ≤ c.val ∧ c.val ≤ 6))
    (hm : srcMasked s (clockSource c) = false) :
    let bad := decide (count < (clockBand s c).1) || decide ((clockBand s c).2 < count)
    Runs (.clockMonitorWindow c count) s fun t => t.itemLive (clockSource c) 0 = bad ∧
      t.prv.fabGate = (t.itemLive 8 0 || t.itemLive 9 0) ∧
      t.prv.lines = s.prv.lines ++ (if bad && !s.itemLive (clockSource c) 0 then [(clockSource c, BitVec.ofNat 32 count)] else []) ∧
      (t.prv.fabGate = true → padsNow t = 0 ∧ gpoTerms t = 0) ∧ SameBytes s t ∧ RegsKept s t [(0xA00000, 0xB00000)] := by
  intro bad
  obtain ⟨hlive, hregs, hmem, hlines⟩ := item_by s (clockSource c) 0 count bad
  refine ⟨_, exec_clockMonitor count hc hm, ?_, clockGate_fabGate _, ?_, clockGate_pads _, ?_, ?_⟩
  · exact (itemLive_of_items (clockGate_items _) _ _).trans hlive
  · exact (clockGate_lines _).trans hlines
  · exact sameBytes_of_mem ((gateUpdate_mem _).trans hmem)
  · exact regsKept_trans (regsKept_of_regs (regsKept_refl s _) hregs) (clockGate_kept _)

/-- Port `p`'s receive clock marked bad or good. -/
def markRx (s : State) (p : Nat) (bad : Bool) : State :=
  { s with prv := { s.prv with rxBad := (if bad then [p] else []) ++ s.prv.rxBad.filter (· ≠ p) } }

theorem markRx_contains (s : State) (p : Nat) (bad : Bool) : (markRx s p bad).prv.rxBad.contains p = bad := by
  cases bad <;> simp [markRx]

theorem linkItem_live {s : State} {p : Nat} (h : s.on (R.NET_Pp_STAT_LINK p) = true) :
    (linkItem s p).itemLive 20 p = s.prv.rxBad.contains p := by
  rw [linkItem, h, Bool.not_true, Bool.false_or]
  split
  next hb => rw [hb, itemLive_itemOn_self]
  next hb => rw [itemLive_itemOff_self, Bool.eq_false_iff.mpr hb]

theorem linkItem_regs (s : State) (p : Nat) : (linkItem s p).regs = s.regs := by
  unfold linkItem
  split <;> simp

theorem clockMonitor_link {c : Fin 9} {s : State} (count : Nat) (h4 : 4 ≤ c.val) (h6 : c.val ≤ 6)
    (hl : s.on (R.NET_Pp_STAT_LINK (c.val - 4)) = true) :
    let bad := decide (count < (clockBand s c).1) || decide ((clockBand s c).2 < count)
    Runs (.clockMonitorWindow c count) s fun t => t.itemLive 20 (c.val - 4) = bad ∧ t.regs = s.regs ∧ SameBytes s t := by
  intro bad
  have hx : exec (.clockMonitorWindow c count) s = .next (linkItem (markRx s (c.val - 4) bad) (c.val - 4)) := by
    simp only [exec, execClockMonitorWindow, if_pos (And.intro h4 h6), hl, Bool.not_true, Bool.false_eq_true, if_false, bad, markRx]
  refine ⟨_, hx, ?_, linkItem_regs _ _, sameBytes_of_mem (linkItem_mem _ _)⟩
  rw [linkItem_live (s := markRx s (c.val - 4) bad) hl, markRx_contains]

/-- TEMP_WARN's item after a temperature: on from the threshold, off 5 °C below, between them as it was (R412). -/
def warnItem (s : State) (tj : Int) (d : Nat) : State :=
  let warn : Int := (clamp 85 130 (s.rd R.PRV_TMON_WARN) : Nat)
  if warn ≤ tj then s.itemOn 16 0 d else if tj ≤ warn - 5 then s.itemOff 16 0 else s

/-- The next state of a temperature: TEMP, then TEMP_WARN's item, then TEMP_CRIT's. -/
theorem exec_temperature (tj : BitVec 9) (s : State) : exec (.temperatureCrossing tj) s =
    .next (if 135 ≤ tj.toInt then (warnItem (s.wr R.PRV_TMON_TEMP tj.toNat) tj.toInt (usg 32 tj.toInt)).itemOn 17 0 (usg 32 tj.toInt)
      else (warnItem (s.wr R.PRV_TMON_TEMP tj.toNat) tj.toInt (usg 32 tj.toInt)).itemOff 17 0) := by
  have hw : (s.wr R.PRV_TMON_TEMP tj.toNat).rd R.PRV_TMON_WARN = s.rd R.PRV_TMON_WARN := rd_wr_ne s _ (by decide)
  simp only [exec, execTemperatureCrossing, warnItem, hw]

theorem warnItem_regs (s : State) (tj : Int) (d : Nat) : (warnItem s tj d).regs = s.regs := by
  unfold warnItem
  extract_lets w
  split
  · exact itemOn_regs ..
  · split <;> rfl

theorem warnItem_mem (s : State) (tj : Int) (d : Nat) : (warnItem s tj d).mem = s.mem := by
  unfold warnItem
  extract_lets w
  split
  · exact itemOn_mem ..
  · split <;> rfl

section Warn
variable {s : State} {tj : Int} (d : Nat)

theorem warnItem_on (h : (clamp 85 130 (s.rd R.PRV_TMON_WARN) : Nat) ≤ tj) : (warnItem s tj d).itemLive 16 0 = true := by
  rw [warnItem, if_pos h, itemLive_itemOn_self]

theorem warnItem_off (h : tj + 5 ≤ (clamp 85 130 (s.rd R.PRV_TMON_WARN) : Nat)) : (warnItem s tj d).itemLive 16 0 = false := by
  rw [warnItem, if_neg (by omega), if_pos (by omega), itemLive_itemOff_self]

theorem warnItem_between (h1 : tj < (clamp 85 130 (s.rd R.PRV_TMON_WARN) : Nat))
    (h2 : (clamp 85 130 (s.rd R.PRV_TMON_WARN) : Nat) < tj + 5) : warnItem s tj d = s := by
  rw [warnItem, if_neg (by omega), if_neg (by omega)]

end Warn

theorem temperature_crossing (tj : BitVec 9) (s : State) : Runs (.temperatureCrossing tj) s fun t =>
    t.rd R.PRV_TMON_TEMP = tj.toNat % 256 ∧ t.itemLive 17 0 = decide (135 ≤ tj.toInt) ∧
    ((clamp 85 130 (s.rd R.PRV_TMON_WARN) : Nat) ≤ tj.toInt → t.itemLive 16 0 = true) ∧
    (tj.toInt + 5 ≤ (clamp 85 130 (s.rd R.PRV_TMON_WARN) : Nat) → t.itemLive 16 0 = false) ∧
    (tj.toInt < (clamp 85 130 (s.rd R.PRV_TMON_WARN) : Nat) → (clamp 85 130 (s.rd R.PRV_TMON_WARN) : Nat) < tj.toInt + 5 →
      t.itemLive 16 0 = s.itemLive 16 0) ∧
    RegsKept s t [(0x100044, 0x100048)] ∧ SameBytes s t := by
  have hw : (s.wr R.PRV_TMON_TEMP tj.toNat).rd R.PRV_TMON_WARN = s.rd R.PRV_TMON_WARN := rd_wr_ne s _ (by decide)
  refine ⟨_, exec_temperature tj s, ?_⟩
  set s1 := s.wr R.PRV_TMON_TEMP tj.toNat with hs1
  set s2 := warnItem s1 tj.toInt (usg 32 tj.toInt) with hs2
  set t := if 135 ≤ tj.toInt then s2.itemOn 17 0 (usg 32 tj.toInt) else s2.itemOff 17 0 with ht
  have hregs : t.regs = s1.regs := by
    rw [ht]
    split
    · rw [itemOn_regs, hs2, warnItem_regs]
    · rw [itemOff_regs, hs2, warnItem_regs]
  have hmem : t.mem = s1.mem := by
    rw [ht]
    split
    · rw [itemOn_mem, hs2, warnItem_mem]
    · rw [itemOff_mem, hs2, warnItem_mem]
  have hcrit : t.itemLive 17 0 = decide (135 ≤ tj.toInt) := by
    rw [ht]
    split
    next h => rw [itemLive_itemOn_self, decide_eq_true h]
    next h => rw [itemLive_itemOff_self, decide_eq_false h]
  have hwarn : t.itemLive 16 0 = s2.itemLive 16 0 := by
    rw [ht]
    split
    · exact itemLive_itemOn_ne _ _ (by decide)
    · exact itemLive_itemOff_ne _ (by decide)
  rw [hwarn, ← hw]
  refine ⟨?_, hcrit, warnItem_on _, warnItem_off _, fun h1 h2 => ?_, ?_, sameBytes_of_mem hmem⟩
  · rw [rd_of_regs hregs, hs1, rd_wr_self]
    rfl
  · rw [hs2, warnItem_between _ h1 h2]
    rfl
  · refine regsKept_of_regs (regsKept_wr ?_ (regsKept_refl s _) _) hregs
    exact ⟨by decide, by decide, _, List.mem_singleton.mpr rfl, by decide⟩

theorem rail_fault (r : Fin 10) (s : State) :
    Runs (.supplyRailFault r) s fun t => t.itemLive 15 r.val = true ∧ t.regs = s.regs ∧ SameBytes s t ∧
      t.prv.lines = s.prv.lines ++ (if s.itemLive 15 r.val = true ∨ s.glb.hold ≠ 0 then [] else [(15, BitVec.ofNat 32 r.val)]) := by
  refine ⟨_, rfl, ?_⟩
  split
  next h =>
    refine ⟨itemLive_itemOn_self .., itemOn_regs .., sameBytes_of_mem (itemOn_mem ..), ?_⟩
    simp only [itemOn_lines, h, ne_eq, not_true_eq_false, or_false]
  next h =>
    refine ⟨itemLive_itemOnQuiet .., itemOnQuiet_regs .., sameBytes_of_mem (itemOnQuiet_mem ..), ?_⟩
    rw [itemOnQuiet_lines, if_pos (.inr h), List.append_nil]

theorem rail_recover (r : Fin 10) (s : State) :
    Runs (.supplyRailRecover r) s fun t => t.itemLive 15 r.val = false ∧ t.regs = s.regs ∧ SameBytes s t ∧ t.prv.lines = s.prv.lines :=
  ⟨_, rfl, itemLive_itemOff_self .., itemOff_regs .., sameBytes_of_mem (itemOff_mem ..), rfl⟩

/-- Settles O37, monitor by monitor. -/
theorem faultMonitors : Obligations.FaultMonitors := by
  refine ⟨fun c count s hc hm => clockMonitor_window count hc hm, fun c count s h4 h6 hl => clockMonitor_link count h4 h6 hl,
    fun tj s => temperature_crossing tj s, fun r s => ⟨rail_fault r s, rail_recover r s⟩, fun k s h => ?_, fun k s h => ?_⟩
  · rw [exec, execCrossingStall, if_pos h, State.raiseLine]
  · rw [exec, execCrossingStall, if_neg (by simp [h])]

end Sys2Proof.Machine
end

section
/-! PROOFS. Bit maps, power-good bits, and fields that a loss of power resets (R41, R42, R473). -/
namespace Sys2Proof.Machine

/-! ### Fields and bits -/

theorem on_of_rd {s t : State} {f : Fld} (h : t.rd f = s.rd f) : t.on f = s.on f := by rw [State.on, State.on, h]

theorem rd_wrb_ne (s : State) {f g : Fld} (b : Bool) (h : g.key ≠ f.key) : (s.wrb f b).rd g = s.rd g := rd_wr_ne s _ h

theorem pg_of_rd {s t : State} (h : t.rd R.GLB_PWRSTAT_PG = s.rd R.GLB_PWRSTAT_PG) (d : Nat) : t.pg d = s.pg d := by
  rw [State.pg, State.pg, h]

theorem bitmap_succ (n : Nat) (p : Nat → Bool) : bitmap (n + 1) p = if p n then bitmap n p + 2 ^ n else bitmap n p := by
  rw [bitmap, List.range_succ, List.foldl_append]
  rfl

theorem bitmap_lt (n : Nat) (p : Nat → Bool) : bitmap n p < 2 ^ n := by
  induction n with
  | zero => exact Nat.one_pos
  | succ n ih =>
    rw [bitmap_succ, pow_succ]
    split <;> omega

theorem testBit_bitmap (n : Nat) (p : Nat → Bool) {k : Nat} (hk : k < n) : (bitmap n p).testBit k = p k := by
  induction n with
  | zero => exact absurd hk (Nat.not_lt_zero k)
  | succ n ih =>
    rw [bitmap_succ]
    rcases Nat.lt_succ_iff_lt_or_eq.mp hk with h | rfl
    · split
      · rw [Nat.add_comm, Nat.testBit_two_pow_add_gt h, ih h]
      · exact ih h
    · have hlow : (bitmap k p).testBit k = false := Nat.testBit_lt_two_pow (bitmap_lt k p)
      split
      next hp => rw [Nat.add_comm, Nat.testBit_two_pow_add_eq, hlow, hp]; rfl
      next hp => rw [hlow, Bool.eq_false_iff.mpr hp]

/-- A power-good bit after a write of the register. -/
theorem pg_wr (s : State) (v : Nat) {d : Nat} (hd : d < 12) : (s.wr R.GLB_PWRSTAT_PG v).pg d = v.testBit d := by
  rw [State.pg, rd_wr_self, show R.GLB_PWRSTAT_PG.w = 12 from rfl, Nat.testBit_mod_two_pow, decide_eq_true hd, Bool.true_and]

/-! ### Fields that are lost -/

theorem resetDomIn_rd (s : State) (d : Dom) (lo hi : Nat) {f : Fld} (hlo : f.lo < 32) (hlt : f.addr < 0x4000000) :
    (s.resetDomIn d lo hi).rd f = if f.dom = d ∧ lo ≤ f.addr ∧ f.addr < hi then f.rst else s.rd f := by
  have ha : f.key % 0x10000000000 / 32 = f.addr := by
    simp only [Fld.key]
    omega
  rw [State.rd, State.resetDomIn,
    mget_filter s.regs fun k => !(keyDom d k && decide (lo ≤ k % 0x10000000000 / 32) && decide (k % 0x10000000000 / 32 < hi)),
    keyDom_key hlo hlt, ha]
  by_cases h : f.dom = d ∧ lo ≤ f.addr ∧ f.addr < hi
  · rw [if_pos h, if_neg (by simp [h])]
  · rw [if_neg h, if_pos (by simp only [Bool.not_eq_true', Bool.and_eq_false_iff, decide_eq_false_iff_not]; tauto), State.rd]

/-- Ranges that cover [lo, hi). -/
def Covers (l : List (Nat × Nat)) (lo hi : Nat) : Prop := ∃ r ∈ l, r.1 ≤ lo ∧ hi ≤ r.2

theorem regsKept_resetDomIn {s t : State} {l : List (Nat × Nat)} {lo hi : Nat} (hc : Covers l lo hi) (h : RegsKept s t l) (d : Dom) :
    RegsKept s (t.resetDomIn d lo hi) l := by
  obtain ⟨r, hr, hrlo, hrhi⟩ := hc
  intro f hlo hlt hf
  have hout := hf r hr
  rw [resetDomIn_rd t d lo hi hlo hlt, if_neg (by omega)]
  exact h f hlo hlt hf

theorem regsKept_dropFlds {s t : State} {l : List (Nat × Nat)} {lo hi : Nat} (hc : Covers l lo hi) (h : RegsKept s t l) :
    RegsKept s (dropFlds t lo hi) l := regsKept_resetDomIn hc (regsKept_resetDomIn hc (regsKept_resetDomIn hc h _) _) _

/-- Where the registers of the domains that can be off lie: all above those of PD0. -/
def offRegs : List (Nat × Nat) := [(0x300000, 0x1000000)]

theorem covers_offRegs {lo hi : Nat} (h : 0x300000 ≤ lo) (hh : hi ≤ 0x1000000) : Covers offRegs lo hi :=
  ⟨_, List.mem_singleton.mpr rfl, h, hh⟩

/-- A field of PD0 keeps its value where only registers of other domains change. -/
theorem rd_of_offRegs {s t : State} (h : RegsKept s t offRegs) {f : Fld} (hlo : f.lo < 32) (ha : f.addr < 0x300000) : t.rd f = s.rd f :=
  h f hlo (by omega) fun r hr => by
    rw [List.mem_singleton.mp hr]
    dsimp only
    omega

end Sys2Proof.Machine
end

section
/-! PROOFS. Power off (R42, R43, R392, R473): what it loses, and what it leaves alone. -/
namespace Sys2Proof.Machine

/-! ### Domains switched off -/

theorem losePd_kept (s : State) (d : Nat) : RegsKept s (losePd s d) offRegs := by
  have drop {t : State} (h : RegsKept s t offRegs) (lo hi : Nat) (hl : 0x300000 ≤ lo) (hh : hi ≤ 0x1000000) :
      RegsKept s (dropFlds t lo hi) offRegs := regsKept_dropFlds (covers_offRegs hl hh) h
  have h0 := regsKept_refl s offRegs
  unfold losePd
  extract_lets core
  have hcore {t : State} (h : RegsKept s t offRegs) (n : Nat) (hn : n < 8) : RegsKept s (core t n) offRegs :=
    regsKept_of_regs (drop h (0x900000 + 0x10000 * n) (0x910000 + 0x10000 * n) (by omega) (by omega)) rfl
  split
  · exact regsKept_of_regs (drop (drop h0 0x700000 0x900000 (by omega) (by omega)) 0xA00000 0xB00000 (by omega) (by omega)) rfl
  · exact hcore (hcore h0 0 (by omega)) 1 (by omega)
  · exact hcore (hcore h0 2 (by omega)) 3 (by omega)
  · exact hcore (hcore h0 4 (by omega)) 5 (by omega)
  · exact hcore (hcore h0 6 (by omega)) 7 (by omega)
  · exact regsKept_of_regs (drop h0 0xB00000 0xC00000 (by omega) (by omega)) rfl
  · exact regsKept_of_regs (drop h0 0xD00000 0xE00000 (by omega) (by omega)) rfl
  · exact regsKept_of_regs (drop (drop h0 0x300000 0x600000 (by omega) (by omega)) 0xE00000 0xF00000 (by omega) (by omega)) rfl
  · exact regsKept_of_regs (drop h0 0x600000 0x700000 (by omega) (by omega)) rfl
  · exact regsKept_of_regs (drop (drop h0 0xC00000 0xD00000 (by omega) (by omega)) 0xF00000 0x1000000 (by omega) (by omega)) rfl
  · exact h0

theorem losePd_glb (s : State) (d : Nat) : (losePd s d).glb = s.glb := by
  unfold losePd
  extract_lets core
  split <;> rfl

theorem memRd_memClear (m : List Host.Cell) {lo hi a : Nat} (h : a < lo ∨ hi ≤ a) : memRd (memClear m lo hi) a = memRd m a := by
  rw [memRd, memClear, mget_filter m fun k => !(decide (lo ≤ k) && decide (k < hi)), if_pos]
  · rfl
  · rw [Bool.not_eq_true', Bool.and_eq_false_iff, decide_eq_false_iff_not, decide_eq_false_iff_not]
    omega

/-- A domain of cores loses its own memories, which lie above those of MRAM and DRAM. -/
theorem losePd_cores_memRd (s : State) {d a : Nat} (hd : d ∈ [2, 3, 4, 5]) (ha : a < 0x200000000) :
    memRd (losePd s d).mem a = memRd s.mem a := by
  have hc (m : List Host.Cell) (n : Nat) : memRd (memClear m (ecInstrBase n) (ecInstrBase n + 0x100000)) a = memRd m a :=
    memRd_memClear m (.inl (by simp only [ecInstrBase]; omega))
  simp only [List.mem_cons, List.not_mem_nil, or_false] at hd
  rcases hd with rfl | rfl | rfl | rfl <;> exact (hc _ _).trans (hc _ _)

/-! ### The DRAM writer's records as PD1 goes off -/

theorem ringVec_regs (s : State) (r : Nat) : (ringVec s r).regs = s.regs := by
  unfold ringVec
  split
  · rfl
  · exact fireVec_regs ..

/-- An index or a count of ring `r` lies among the registers of the host interface. -/
theorem within_ring {r : Nat} (hr : r < 4) {f : Fld} (hlo : f.lo < 32) (ha : f.addr = 0xF80104 + 0x20 * r ∨ f.addr = 0xF80110 + 0x20 * r) :
    Within f offRegs := ⟨hlo, by omega, _, List.mem_singleton.mpr rfl, by dsimp only; omega, by dsimp only; omega⟩

theorem dramPutWords_regs (s : State) (x : Nat) (l : List Byte) : (dramPutWords s x l).regs = s.regs := by
  rw [dramPutWords, setHst_regs, wrMem_regs]

/-- A ring that has no buffers takes an entry, or drops it: registers of the host rings alone change. -/
theorem ringPush_kept {s t : State} (h : RegsKept s t offRegs) {r : Nat} (hr : r < 4) (hne : ¬ r < 2) (desc buf : List Byte) :
    RegsKept s (ringPush t r desc buf) offRegs := by
  have hlost : (R.HST_Rr_STAT_LOST r).lo < 32 := Nat.zero_lt_succ _
  have hprod : (R.HST_Rr_PROD_PROD r).lo < 32 := Nat.zero_lt_succ _
  unfold ringPush
  split
  · exact h
  · split
    · rw [ringDrop, if_neg (by omega)]
      exact regsKept_wr (within_ring hr hlost (.inr rfl)) h _
    · extract_lets k s1 s2
      have h2 : s2.regs = t.regs := dramPutWords_regs ..
      exact regsKept_of_regs (regsKept_wr (within_ring hr hprod (.inl rfl)) (regsKept_of_regs h h2) _) (ringVec_regs _ r)

theorem writeHead_regs (s : State) (u : Nat) (c : CurRec) (done : Bool) : (writeHead s u c done).regs = s.regs := by
  unfold writeHead
  split
  · exact dramPutWords_regs ..
  · rfl

/-- A register of an AU lies among those of REC. -/
theorem within_au {u : Nat} (hu : u < 4) {f : Fld} (hlo : f.lo < 32) (ha : f.addr = 0xC0011C + 0x100 * u ∨ f.addr = 0xC0012C + 0x100 * u) :
    Within f offRegs := ⟨hlo, by omega, _, List.mem_singleton.mpr rfl, by dsimp only; omega, by dsimp only; omega⟩

theorem finishRecord_kept {s t : State} (h : RegsKept s t offRegs) {u : Nat} (hu : u < 4) : RegsKept s (finishRecord t u) offRegs := by
  unfold finishRecord
  extract_lets x
  split
  · exact h
  next c _ =>
    extract_lets ext s1 s2 s3
    have h2 : RegsKept s s2 offRegs := regsKept_of_regs h (writeHead_regs t u c true)
    have h3 : RegsKept s s3 offRegs := by
      simp only [s3]
      split
      · exact regsKept_wr (within_au hu (f := R.REC_AUu_STAT_TRUNC_STK u) (Nat.le_of_ble_eq_true rfl) (.inl rfl)) h2 _
      · exact h2
    have hcomplete : Within (R.REC_AUu_VALID_COMPLETE u) offRegs := within_au hu (Nat.le_of_ble_eq_true rfl) (.inr rfl)
    exact ringPush_kept (regsKept_wr hcomplete h3 _) (by decide) (by decide) _ _

theorem recStop_kept {s t : State} (h : RegsKept s t offRegs) {u : Nat} (hu : u < 4) : RegsKept s (recStop t u) offRegs := by
  have hcut : RegsKept s (cutRecord t u) offRegs := by
    unfold cutRecord
    extract_lets x
    split
    · exact finishRecord_kept (t := setAu t u _) (regsKept_of_regs h rfl) hu
    · exact h
  exact regsKept_of_regs (regsKept_wr (within_au hu (f := R.REC_AUu_STAT_STATE u) (Nat.le_of_ble_eq_true rfl) (.inl rfl)) hcut 0) rfl

theorem recPowerDown_kept (s : State) : RegsKept s (recPowerDown s) offRegs :=
  recStop_kept (recStop_kept (recStop_kept (recStop_kept (regsKept_refl s _) (by decide)) (by decide)) (by decide)) (by decide)

/-! ### Power off -/

/-- The state in which domains have lost what they hold, before power-good shows it. -/
def domainsLost (s : State) (ds : List Nat) : State :=
  (resetTargets ds).foldl endReset (ds.foldl losePd (if ds.contains 1 && s.pg 1 then recPowerDown s else s))

theorem powerOff_eq (s : State) (ds : List Nat) : powerOff s ds = gateUpdate (clearCrossings ((domainsLost s ds).wr R.GLB_PWRSTAT_PG
    (s.rd R.GLB_PWRSTAT_PG &&& bitmap 12 fun d => !ds.contains d))) := rfl

theorem regsKept_foldl {β : Type} {g : State → β → State} {l : List (Nat × Nat)} (hg : ∀ t b, RegsKept t (g t b) l) (bs : List β)
    {s t : State} (h : RegsKept s t l) : RegsKept s (bs.foldl g t) l := by
  induction bs generalizing t with
  | nil => exact h
  | cons b bs ih => exact ih (regsKept_trans h (hg t b))

theorem domainsLost_kept (s : State) (ds : List Nat) : RegsKept s (domainsLost s ds) offRegs := by
  refine regsKept_foldl (g := endReset) (fun t b => regsKept_of_regs (regsKept_refl t _) rfl) _ (regsKept_foldl losePd_kept _ ?_)
  split
  · exact recPowerDown_kept s
  · exact regsKept_refl s _

theorem clearCrossings_regs (s : State) : (clearCrossings s).regs = s.regs := by
  unfold clearCrossings
  dsimp only
  split <;> rfl

theorem clearCrossings_glb (s : State) : (clearCrossings s).glb = s.glb := by
  unfold clearCrossings
  dsimp only
  split <;> rfl

@[simp] theorem tripEvent_glb (s : State) (rose now : Nat) : (tripEvent s rose now).glb = s.glb := by
  unfold tripEvent
  extract_lets
  split <;> rfl

@[simp] theorem tripEvent_tim (s : State) (rose now : Nat) : (tripEvent s rose now).tim = s.tim := by
  unfold tripEvent
  extract_lets
  split <;> rfl

@[simp] theorem gateUpdate_glb (s : State) : (gateUpdate s).glb = s.glb := by
  unfold gateUpdate
  extract_lets d st old new rose th s1 s2 s3
  split
  · rfl
  · exact tripEvent_glb s3 rose new

@[simp] theorem gateUpdate_tim (s : State) : (gateUpdate s).tim = s.tim := by
  unfold gateUpdate
  extract_lets d st old new rose th s1 s2 s3
  split
  · rfl
  · exact tripEvent_tim s3 rose new

/-- Power-good after power off: the domains named have lost it. -/
theorem powerOff_pg (s : State) (ds : List Nat) {d : Nat} (hd : d < 12) : (powerOff s ds).pg d = (s.pg d && !ds.contains d) := by
  rw [powerOff_eq, pg_gateUpdate, pg_of_rd (rd_of_regs (clearCrossings_regs _) _), pg_wr _ _ hd, Nat.testBit_and, testBit_bitmap _ _ hd,
    State.pg]

/-- Power off leaves the fields of PD0 alone, but for power-good. -/
theorem powerOff_rd (s : State) (ds : List Nat) {f : Fld} (hlo : f.lo < 32) (ha : f.addr < 0x300000) (hf : f.key ≠ R.GLB_PWRSTAT_PG.key) :
    (powerOff s ds).rd f = s.rd f := by
  rw [powerOff_eq, gateUpdate_rd _ hlo (by omega) (by omega), rd_of_regs (clearCrossings_regs _), rd_wr_ne _ _ hf,
    rd_of_offRegs (domainsLost_kept s ds) hlo ha]

theorem powerOff_pads (s : State) {ds : List Nat} (h : ds.contains 1 = true) : padsNow (powerOff s ds) = 0 := by
  have hpg : (powerOff s ds).pg 1 = false := by rw [powerOff_pg s ds (by decide), h, Bool.not_true, Bool.and_false]
  rw [powerOff_eq, pg_gateUpdate] at hpg
  rw [powerOff_eq]
  exact (gateUpdate_pads (by rw [hpg]; simp)).1

/-- Without PD1 the sequencer's own state stands. -/
theorem powerOff_glb (s : State) {ds : List Nat} (h : ds.contains 1 = false) : (powerOff s ds).glb = s.glb := by
  have hl : (domainsLost s ds).glb = s.glb := by
    rw [domainsLost, h, Bool.false_and, foldl_keeps (p := State.glb) (g := endReset) fun t b => rfl, foldl_keeps (p := State.glb) losePd_glb]
    rfl
  rw [powerOff_eq, gateUpdate_glb, clearCrossings_glb, wr_glb, hl]

/-- Domains of cores that go off leave MRAM and DRAM alone. -/
theorem powerOff_cores_memRd (s : State) {ds : List Nat} (h : ∀ d ∈ ds, d ∈ [2, 3, 4, 5]) {a : Nat} (ha : a < 0x200000000) :
    memRd (powerOff s ds).mem a = memRd s.mem a := by
  have h1 : ds.contains 1 = false := by
    rw [Bool.eq_false_iff]
    intro hc
    have := h 1 (List.contains_iff_mem.mp hc)
    simp at this
  have hlose : memRd (ds.foldl losePd s).mem a = memRd s.mem a := by
    clear h1
    induction ds generalizing s with
    | nil => rfl
    | cons d ds ih =>
      exact (ih _ fun e he => h e (List.mem_cons_of_mem _ he)).trans (losePd_cores_memRd s (h d List.mem_cons_self) ha)
  have hmem : (powerOff s ds).mem = (ds.foldl losePd s).mem := by
    rw [powerOff_eq, gateUpdate_mem, clearCrossings_mem, wr_mem, domainsLost, h1, Bool.false_and,
      foldl_keeps (p := State.mem) endReset_mem]
    rfl
  rw [hmem, hlose]

end Sys2Proof.Machine
end

section
/-! PROOFS. Maintenance state and the start of boot (R455, R456, R459, R460, R462, R467). -/
namespace Sys2Proof.Machine

/-! ### Maintenance state -/

theorem setPwr_rd_self (s : State) {st : Nat} (h : st < 8) : (setPwr s st).rd R.GLB_PWR_STATE = st := by
  unfold setPwr
  split
  next he => exact he
  next =>
    rw [rd_of_regs (fireVec_regs ..), rd_wr_self]
    exact Nat.mod_eq_of_lt h

theorem setPwr_rd_ne (s : State) (st : Nat) {f : Fld} (h : f.key ≠ R.GLB_PWR_STATE.key) : (setPwr s st).rd f = s.rd f := by
  unfold setPwr
  split
  · rfl
  · rw [rd_of_regs (fireVec_regs ..), rd_wr_ne _ _ h]

theorem setPwr_tim (s : State) (st : Nat) : (setPwr s st).tim = s.tim := by
  unfold setPwr
  split
  · rfl
  · rw [fireVec_tim, wr_tim]

/-- The domains that maintenance state switches off. -/
def maintOff : List Nat := [1, 2, 3, 4, 5, 6, 8, 9, 10]

/-- The state with only PD0, PD7 and PD11 powered. -/
def offAll (s : State) : State := if maintOff.filter s.pg = [] then s else powerOff s (maintOff.filter s.pg)

theorem enterMaint_eq (s : State) : enterMaint s =
    glbEvent (setGlb (setPwr ((offAll s).wrb R.GLB_BOOT_MAINT true) 5) { s.glb with step := 0, wdt := none }) 5 [] := rfl

theorem offAll_rd (s : State) {f : Fld} (hlo : f.lo < 32) (ha : f.addr < 0x300000) (hf : f.key ≠ R.GLB_PWRSTAT_PG.key) :
    (offAll s).rd f = s.rd f := by
  unfold offAll
  split
  · rfl
  · exact powerOff_rd s _ hlo ha hf

theorem offAll_pg (s : State) {d : Nat} (hd : d ∈ maintOff) : (offAll s).pg d = false := by
  have hlt : d < 12 := (show ∀ e ∈ maintOff, e < 12 by decide) d hd
  unfold offAll
  split
  next he => exact Bool.eq_false_iff.mpr fun hp => List.filter_eq_nil_iff.mp he d hd hp
  next =>
    rw [powerOff_pg s _ hlt]
    cases hp : s.pg d with
    | false => rfl
    | true => rw [List.contains_iff_mem.mpr (List.mem_filter.mpr ⟨hd, hp⟩)]; rfl

theorem offAll_pads {s : State} (h : s.pg 1 = true) : padsNow (offAll s) = 0 := by
  have hmem : 1 ∈ maintOff.filter s.pg := List.mem_filter.mpr ⟨by decide, h⟩
  rw [offAll, if_neg (List.ne_nil_of_mem hmem)]
  exact powerOff_pads s (List.contains_iff_mem.mpr hmem)

theorem offAll_of_off {s : State} (h : ∀ d ∈ maintOff, s.pg d = false) : offAll s = s :=
  if_pos (List.filter_eq_nil_iff.mpr fun d hd => by rw [h d hd]; exact Bool.false_ne_true)

section Maint
variable (s : State)

theorem enterMaint_glb : (enterMaint s).glb = { s.glb with step := 0, wdt := none } := rfl

theorem enterMaint_regs : (enterMaint s).regs = (setPwr ((offAll s).wrb R.GLB_BOOT_MAINT true) 5).regs := by
  rw [enterMaint_eq, glbEvent, logAon_regs, setGlb_regs]

theorem enterMaint_mem_offAll : (enterMaint s).mem = (offAll s).mem := by
  rw [enterMaint_eq, glbEvent, logAon_mem, setGlb_mem, setPwr_mem, wrb_mem]

theorem enterMaint_tim : (enterMaint s).tim = (offAll s).tim := by
  rw [enterMaint_eq, glbEvent, logAon_tim, setGlb_tim, setPwr_tim, wrb_tim]

theorem enterMaint_rd_offAll {f : Fld} (h : f.key ≠ R.GLB_BOOT_MAINT.key) (hp : f.key ≠ R.GLB_PWR_STATE.key) :
    (enterMaint s).rd f = (offAll s).rd f := by
  rw [rd_of_regs (enterMaint_regs s), setPwr_rd_ne _ _ hp, rd_wrb_ne _ _ h]

theorem enterMaint_rd {f : Fld} (hlo : f.lo < 32) (ha : f.addr < 0x300000) (hf : f.key ≠ R.GLB_PWRSTAT_PG.key)
    (hm : f.key ≠ R.GLB_BOOT_MAINT.key) (hp : f.key ≠ R.GLB_PWR_STATE.key) : (enterMaint s).rd f = s.rd f := by
  rw [enterMaint_rd_offAll s hm hp, offAll_rd s hlo ha hf]

theorem enterMaint_maint : (enterMaint s).on R.GLB_BOOT_MAINT = true := by
  rw [on_of_rd (rd_of_regs (enterMaint_regs s) _), on_of_rd (setPwr_rd_ne _ 5 (by decide)), on_wrb_self _ _ _ rfl]

theorem enterMaint_pwr : (enterMaint s).rd R.GLB_PWR_STATE = 5 := by
  rw [rd_of_regs (enterMaint_regs s), setPwr_rd_self _ (by decide)]

theorem enterMaint_pg {d : Nat} (hd : d ∈ maintOff) : (enterMaint s).pg d = false := by
  rw [pg_of_rd (enterMaint_rd_offAll s (by decide) (by decide)), offAll_pg s hd]

theorem enterMaint_pads (h : s.pg 1 = true) : padsNow (enterMaint s) = 0 := by
  rw [padsNow, enterMaint_rd_offAll s (by decide) (by decide), enterMaint_rd_offAll s (by decide) (by decide), ← padsNow, offAll_pads h]

end Maint

/-! ### The start of boot -/

/-- The sequencer at the start of step 3 of boot. -/
def bootGlb (s : State) (straps : Nat) : Glb :=
  { s.glb with hold := 0, hib := false, trans := 0, step := 3, second := false, wdt := none,
               trying := if straps = 2 then 0 else if straps = 3 then 1 else s.rd R.GLB_BOOT_PREF }

/-- The straps sampled, and the first slot chosen. -/
def strapped (s : State) (straps : Nat) : State := setGlb (s.wr R.GLB_STRAP_BOOT straps) (bootGlb s straps)

theorem startBoot_eq (s : State) (straps : Nat) :
    startBoot s straps = if straps = 1 then enterMaint (strapped s straps) else strapped s straps := rfl

/-- What a start of boot shows, `s0` being the state before: the straps, the slot to verify or maintenance state. -/
def Boots (s0 t : State) (straps : Fin 4) : Prop := t.glb.hold = 0 ∧ t.glb.hib = false ∧ t.rd R.GLB_STRAP_BOOT = straps.val ∧
  (straps.val ≠ 1 → t.glb.step = 3 ∧ t.glb.second = false ∧ t.on R.GLB_BOOT_MAINT = s0.on R.GLB_BOOT_MAINT ∧
    t.glb.trying = if straps.val = 2 then 0 else if straps.val = 3 then 1 else s0.rd R.GLB_BOOT_PREF) ∧
  (straps.val = 1 → t.glb.step = 0 ∧ t.on R.GLB_BOOT_MAINT = true ∧ t.rd R.GLB_PWR_STATE = 5)

theorem strapped_rd (s : State) (straps : Nat) {f : Fld} (h : f.key ≠ R.GLB_STRAP_BOOT.key) : (strapped s straps).rd f = s.rd f :=
  rd_wr_ne s _ h

theorem strapped_straps (s : State) (straps : Fin 4) : (strapped s straps).rd R.GLB_STRAP_BOOT = straps.val :=
  (rd_wr_self s _ _).trans (Nat.mod_eq_of_lt straps.isLt)

theorem startBoot_boots {s0 s : State} (straps : Fin 4) (hm : s.rd R.GLB_BOOT_MAINT = s0.rd R.GLB_BOOT_MAINT)
    (hp : s.rd R.GLB_BOOT_PREF = s0.rd R.GLB_BOOT_PREF) : Boots s0 (startBoot s straps) straps := by
  rw [startBoot_eq]
  split
  next h1 =>
    refine ⟨rfl, rfl, ?_, fun h => absurd h1 h, fun _ => ⟨rfl, enterMaint_maint _, enterMaint_pwr _⟩⟩
    rw [enterMaint_rd _ (by decide) (by decide) (by decide) (by decide) (by decide), strapped_straps]
  next h1 =>
    refine ⟨rfl, rfl, strapped_straps s straps, fun _ => ⟨rfl, rfl, ?_, ?_⟩, fun h => absurd h h1⟩
    · rw [on_of_rd (strapped_rd s straps (by decide)), on_of_rd hm]
    · rw [← hp]
      rfl

/-! With only PD0, PD7 and PD11 powered a start of boot switches nothing off. -/

section Off
variable {s : State} (h : ∀ d ∈ maintOff, s.pg d = false) (straps : Nat)
include h

theorem strapped_off : offAll (strapped s straps) = strapped s straps :=
  offAll_of_off fun d hd => (pg_of_rd (strapped_rd s straps (by decide)) d).trans (h d hd)

theorem startBoot_rd_off {f : Fld} (hs : f.key ≠ R.GLB_STRAP_BOOT.key) (hm : f.key ≠ R.GLB_BOOT_MAINT.key)
    (hp : f.key ≠ R.GLB_PWR_STATE.key) : (startBoot s straps).rd f = s.rd f := by
  rw [startBoot_eq]
  split
  · rw [enterMaint_rd_offAll _ hm hp, strapped_off h, strapped_rd s _ hs]
  · exact strapped_rd s _ hs

theorem startBoot_mem_off : (startBoot s straps).mem = s.mem := by
  have hs : (strapped s straps).mem = s.mem := rfl
  rw [startBoot_eq]
  split
  · rw [enterMaint_mem_offAll, strapped_off h, hs]
  · exact hs

theorem startBoot_tim_off : (startBoot s straps).tim = s.tim := by
  have hs : (strapped s straps).tim = s.tim := rfl
  rw [startBoot_eq]
  split
  · rw [enterMaint_tim, strapped_off h, hs]
  · exact hs

end Off

theorem boots_gateUpdate {s0 t : State} {straps : Fin 4} (h : Boots s0 t straps) : Boots s0 (gateUpdate t) straps := by
  have hr {f : Fld} (hlo : f.lo < 32) (ha : f.addr < 0xA00000) : (gateUpdate t).rd f = t.rd f := gateUpdate_rd t hlo (by omega) (.inl ha)
  rw [Boots, gateUpdate_glb, hr (by decide) (by decide), hr (by decide) (by decide), on_of_rd (hr (by decide) (by decide))]
  exact h

/-! ### Reset release -/

section Bases
variable (s : State)

theorem loadBases_regs : (loadBases s).regs = s.regs := rfl
theorem loadBases_glb : (loadBases s).glb = s.glb := rfl

theorem loadBases_eq : loadBases s = ((s.setTb 0 { s.tbOf 0 with val := s.tim.coarse }).setTb 1 { s.tbOf 1 with val := s.tim.coarse }).setTb 3
    { s.tbOf 3 with val := s.tim.coarse } := by
  have h1 : (s.setTb 0 { s.tbOf 0 with val := s.tim.coarse }).tbOf 1 = s.tbOf 1 := tbOf_setTb_ne s _ (by decide)
  have h3 : ((s.setTb 0 { s.tbOf 0 with val := s.tim.coarse }).setTb 1 { s.tbOf 1 with val := s.tim.coarse }).tbOf 3 = s.tbOf 3 :=
    (tbOf_setTb_ne _ _ (by decide)).trans (tbOf_setTb_ne s _ (by decide))
  rw [← h3, ← h1]
  rfl

theorem loadBases_coarse {b : Nat} (hb : b = 0 ∨ b = 1 ∨ b = 3) : ((loadBases s).tbOf b).val = s.tim.coarse := by
  rw [loadBases_eq]
  rcases hb with rfl | rfl | rfl
  · rw [tbOf_setTb_ne _ _ (by decide), tbOf_setTb_ne _ _ (by decide), tbOf_setTb_self]
  · rw [tbOf_setTb_ne _ _ (by decide), tbOf_setTb_self]
  · rw [tbOf_setTb_self]

theorem loadBases_tb2 : (loadBases s).tbOf 2 = s.tbOf 2 := by
  rw [loadBases_eq, tbOf_setTb_ne _ _ (by decide), tbOf_setTb_ne _ _ (by decide), tbOf_setTb_ne _ _ (by decide)]

end Bases

/-- A released reset, before its boot starts: safe state and self-refresh over, PD0 alone powered, the bases loaded. -/
def released (s : State) : State := loadBases (((s.wrb R.PRV_STAT_SAFE false).wrb R.MEM_STAT_SR false).wr R.GLB_PWRSTAT_PG 1)

section Release
variable (s : State)

theorem released_regs : (released s).regs = (((s.wrb R.PRV_STAT_SAFE false).wrb R.MEM_STAT_SR false).wr R.GLB_PWRSTAT_PG 1).regs :=
  loadBases_regs _

theorem released_pgField : (released s).rd R.GLB_PWRSTAT_PG = 1 := by
  rw [rd_of_regs (released_regs s), rd_wr_self]
  rfl

theorem released_off : ∀ d ∈ maintOff, (released s).pg d = false := by
  intro d hd
  rw [State.pg, released_pgField]
  revert d
  decide

theorem released_rd {f : Fld} (h1 : f.key ≠ R.PRV_STAT_SAFE.key) (h2 : f.key ≠ R.MEM_STAT_SR.key) (h3 : f.key ≠ R.GLB_PWRSTAT_PG.key) :
    (released s).rd f = s.rd f := by
  rw [rd_of_regs (released_regs s), rd_wr_ne _ _ h3, rd_wrb_ne _ _ h2, rd_wrb_ne _ _ h1]

theorem released_safe : (released s).on R.PRV_STAT_SAFE = false := by
  rw [on_of_rd (rd_of_regs (released_regs s) _), on_of_rd (rd_wr_ne _ _ (by decide)), on_of_rd (rd_wrb_ne _ _ (by decide)),
    on_wrb_self _ _ _ rfl]

theorem released_sr : (released s).on R.MEM_STAT_SR = false := by
  rw [on_of_rd (rd_of_regs (released_regs s) _), on_of_rd (rd_wr_ne _ _ (by decide)), on_wrb_self _ _ _ rfl]

theorem released_mem : (released s).mem = s.mem := rfl

end Release

theorem exec_resetRelease {s : State} (straps : Fin 4) (hh : s.glb.hold ≠ 0) (ht : s.glb.hold = 1 ∨ s.glb.holdAt + 100000 ≤ s.tb2Ns) :
    exec (.resetRelease straps) s = .next (gateUpdate (startBoot (released s) straps)) := by
  rw [exec, execResetRelease, if_neg (by omega)]
  rfl

theorem resetRelease_boots {s : State} (straps : Fin 4) (hh : s.glb.hold ≠ 0) (ht : s.glb.hold = 1 ∨ s.glb.holdAt + 100000 ≤ s.tb2Ns) :
    Runs (.resetRelease straps) s fun t => Boots s t straps ∧
      t.on R.PRV_STAT_SAFE = false ∧ t.on R.MEM_STAT_SR = false ∧ t.rd R.GLB_PWRSTAT_PG = 1 ∧ padsNow t = 0 ∧
      (∀ b, b = 0 ∨ b = 1 ∨ b = 3 → (t.tbOf b).val = s.tim.coarse) ∧ (t.tbOf 2).val = (s.tbOf 2).val ∧ SameBytes s t := by
  have hoff := released_off s
  have htim : (gateUpdate (startBoot (released s) straps)).tim = (released s).tim := by rw [gateUpdate_tim, startBoot_tim_off hoff]
  have hrd {f : Fld} (hlo : f.lo < 32) (hlt : f.addr < 0x4000000) (ha : f.addr < 0xA00000 ∨ 0xB00000 ≤ f.addr)
      (hs : f.key ≠ R.GLB_STRAP_BOOT.key) (hm : f.key ≠ R.GLB_BOOT_MAINT.key) (hp : f.key ≠ R.GLB_PWR_STATE.key) :
      (gateUpdate (startBoot (released s) straps)).rd f = (released s).rd f := by
    rw [gateUpdate_rd _ hlo hlt ha, startBoot_rd_off hoff straps hs hm hp]
  refine ⟨_, exec_resetRelease straps hh ht, ?_, ?_, ?_, ?_, ?_, fun b hb => ?_, ?_, ?_⟩
  · exact boots_gateUpdate (startBoot_boots straps (released_rd s (by decide) (by decide) (by decide))
      (released_rd s (by decide) (by decide) (by decide)))
  · rw [on_of_rd (hrd (by decide) (by decide) (by decide) (by decide) (by decide) (by decide)), released_safe]
  · rw [on_of_rd (hrd (by decide) (by decide) (by decide) (by decide) (by decide) (by decide)), released_sr]
  · rw [hrd (by decide) (by decide) (by decide) (by decide) (by decide) (by decide), released_pgField]
  · have hpg : (startBoot (released s) straps).pg 1 = false := by
      rw [pg_of_rd (startBoot_rd_off hoff straps (by decide) (by decide) (by decide)), hoff 1 (by decide)]
    exact (gateUpdate_pads (by rw [hpg]; simp)).1
  · rw [tbOf_congr (congrArg Tim.tb htim), released, loadBases_coarse _ hb]
    rfl
  · rw [tbOf_congr (congrArg Tim.tb htim), released, loadBases_tb2]
    rfl
  · exact sameBytes_of_mem (by rw [gateUpdate_mem, startBoot_mem_off hoff, released_mem])

end Sys2Proof.Machine
end

section
/-! PROOFS. The wake from HIBERNATE, power-good, verification, and start-up put together (R40, R41, R444, R459 to R461, R471, R477). -/
namespace Sys2Proof.Machine

/-! ### The wake from HIBERNATE -/

/-- The registers of PD0 that a wake sets before the L fields are lost: the cause, and no result of an earlier boot. -/
def wakeRegs (s : State) : State :=
  (((((s.wr R.GLB_RSTCAUSE_CAUSE 6).wr R.GLB_RSTCAUSE_PRVSRC 0).wrb R.GLB_BOOT_DONE false).wrb R.GLB_BOOT_FALLBACK false).wr
    R.GLB_BOOT_FAILA 0).wr R.GLB_BOOT_FAILB 0

/-- The state in which a wake starts boot. -/
def woken (s : State) : State := setGlb (setPwr (dropPd0 (wakeRegs s)) 0) { (wakeRegs s).glb with start := 5 }

/-- The fields that a wake writes before boot starts. -/
def wakeFlds : List Fld :=
  [R.GLB_RSTCAUSE_CAUSE, R.GLB_RSTCAUSE_PRVSRC, R.GLB_BOOT_DONE, R.GLB_BOOT_FALLBACK, R.GLB_BOOT_FAILA, R.GLB_BOOT_FAILB]

section Wake
variable (s : State)

theorem wakeRegs_rd {f : Fld} (h : ∀ g ∈ wakeFlds, f.key ≠ g.key) : (wakeRegs s).rd f = s.rd f := by
  simp only [wakeFlds, List.forall_mem_cons, List.not_mem_nil, false_imp_iff, implies_true, and_true] at h
  obtain ⟨hcause, hsrc, hdone, hfall, ha, hb⟩ := h
  rw [wakeRegs, rd_wr_ne _ _ hb, rd_wr_ne _ _ ha, rd_wrb_ne _ _ hfall, rd_wrb_ne _ _ hdone, rd_wr_ne _ _ hsrc, rd_wr_ne _ _ hcause]

theorem wakeRegs_cause : (wakeRegs s).rd R.GLB_RSTCAUSE_CAUSE = 6 := by
  rw [wakeRegs, rd_wr_ne _ _ (by decide), rd_wr_ne _ _ (by decide), rd_wrb_ne _ _ (by decide), rd_wrb_ne _ _ (by decide),
    rd_wr_ne _ _ (by decide), rd_wr_self]
  rfl

theorem wakeRegs_done : (wakeRegs s).on R.GLB_BOOT_DONE = false := by
  rw [wakeRegs, on_of_rd (rd_wr_ne _ _ (by decide)), on_of_rd (rd_wr_ne _ _ (by decide)), on_of_rd (rd_wrb_ne _ _ (by decide)),
    on_wrb_self _ _ _ rfl]

theorem dropPd0_rd {f : Fld} (hlo : f.lo < 32) (hlt : f.addr < 0x4000000) :
    (dropPd0 s).rd f = if f.dom = .img ∧ 0 ≤ f.addr ∧ f.addr < 0x300000 then f.rst else s.rd f := by
  have hr : (dropPd0 s).regs = (s.resetDomIn .img 0 0x300000).regs := rfl
  rw [rd_of_regs hr, resetDomIn_rd s .img 0 0x300000 hlo hlt]

theorem woken_regs : (woken s).regs = (setPwr (dropPd0 (wakeRegs s)) 0).regs := by rw [woken, setGlb_regs]

theorem woken_rd {f : Fld} (hp : f.key ≠ R.GLB_PWR_STATE.key) : (woken s).rd f = (dropPd0 (wakeRegs s)).rd f := by
  rw [rd_of_regs (woken_regs s), setPwr_rd_ne _ 0 hp]

theorem woken_pwr : (woken s).rd R.GLB_PWR_STATE = 0 := by
  rw [rd_of_regs (woken_regs s), setPwr_rd_self _ (by decide)]

/-- A field that the image does not load stands, but for those a wake writes. -/
theorem woken_rd_kept {f : Fld} (hlo : f.lo < 32) (hlt : f.addr < 0x4000000) (hd : f.dom ≠ .img) (hp : f.key ≠ R.GLB_PWR_STATE.key) :
    (woken s).rd f = (wakeRegs s).rd f := by rw [woken_rd s hp, dropPd0_rd _ hlo hlt, if_neg fun h => hd h.1]

theorem woken_rd_img {f : Fld} (hlo : f.lo < 32) (ha : f.addr < 0x300000) (hd : f.dom = .img) (hp : f.key ≠ R.GLB_PWR_STATE.key) :
    (woken s).rd f = f.rst := by rw [woken_rd s hp, dropPd0_rd _ hlo (by omega), if_pos ⟨hd, Nat.zero_le _, ha⟩]

theorem woken_mem : (woken s).mem = s.mem := by rw [woken, setGlb_mem, setPwr_mem, dropPd0_mem]; rfl

theorem exec_wake (straps : Fin 4) (hh : s.glb.hib = true) (he : s.on R.GLB_WAKE_HI_EN = true)
    (hw : s.rd R.GLB_WAKE_LO_WAKE + s.rd R.GLB_WAKE_HI_WAKEHI * 2 ^ 32 ≤ s.coarseNs) :
    exec (.hibernateWake straps) s = .next (startBoot (woken s) straps) := by
  have hlt : decide (s.coarseNs < s.rd R.GLB_WAKE_LO_WAKE + s.rd R.GLB_WAKE_HI_WAKEHI * 2 ^ 32) = false := decide_eq_false (by omega)
  simp only [exec, execHibernateWake, hh, he, hlt, Bool.not_true, Bool.or_self, Bool.false_eq_true, if_false]
  rfl

theorem exec_wake_idle (straps : Fin 4) (h : s.glb.hib = false ∨ s.on R.GLB_WAKE_HI_EN = false ∨
    s.coarseNs < s.rd R.GLB_WAKE_LO_WAKE + s.rd R.GLB_WAKE_HI_WAKEHI * 2 ^ 32) : exec (.hibernateWake straps) s = .next s := by
  have hc : (!s.glb.hib || !s.on R.GLB_WAKE_HI_EN ||
      decide (s.coarseNs < s.rd R.GLB_WAKE_LO_WAKE + s.rd R.GLB_WAKE_HI_WAKEHI * 2 ^ 32)) = true := by
    rcases h with h | h | h
    · simp only [h, Bool.not_false, Bool.true_or]
    · simp only [h, Bool.not_false, Bool.or_true, Bool.true_or]
    · rw [decide_eq_true h, Bool.or_true]
  simp only [exec, execHibernateWake, hc, if_true]

end Wake

theorem wake_boots {s : State} (straps : Fin 4) (hh : s.glb.hib = true) (he : s.on R.GLB_WAKE_HI_EN = true)
    (hw : s.rd R.GLB_WAKE_LO_WAKE + s.rd R.GLB_WAKE_HI_WAKEHI * 2 ^ 32 ≤ s.coarseNs) (hoff : ∀ d ∈ maintOff, s.pg d = false) :
    Runs (.hibernateWake straps) s fun t => Boots s t straps ∧ t.rd R.GLB_RSTCAUSE_CAUSE = 6 ∧ t.on R.GLB_BOOT_DONE = false ∧
      (straps.val ≠ 1 → t.rd R.GLB_PWR_STATE = 0) ∧ SameBytes s t ∧
      ∀ f : Fld, f.dom = .img → f.lo < 32 → f.addr < 0x300000 → t.rd f = f.rst := by
  have hkept {f : Fld} (hlo : f.lo < 32) (hlt : f.addr < 0x4000000) (hd : f.dom ≠ .img) (hp : f.key ≠ R.GLB_PWR_STATE.key)
      (hf : ∀ g ∈ wakeFlds, f.key ≠ g.key) : (woken s).rd f = s.rd f := (woken_rd_kept s hlo hlt hd hp).trans (wakeRegs_rd s hf)
  have hoffw : ∀ d ∈ maintOff, (woken s).pg d = false := fun d hd =>
    (pg_of_rd (hkept (by decide) (by decide) (by decide) (by decide) (by decide)) d).trans (hoff d hd)
  refine ⟨_, exec_wake s straps hh he hw, ?_, ?_, ?_, fun h1 => ?_, ?_, fun f hd hlo ha => ?_⟩
  · exact startBoot_boots straps (hkept (by decide) (by decide) (by decide) (by decide) (by decide))
      (hkept (by decide) (by decide) (by decide) (by decide) (by decide))
  · rw [startBoot_rd_off hoffw _ (by decide) (by decide) (by decide), woken_rd_kept s (by decide) (by decide) (by decide) (by decide),
      wakeRegs_cause]
  · rw [on_of_rd (startBoot_rd_off hoffw _ (by decide) (by decide) (by decide)),
      on_of_rd (woken_rd_kept s (by decide) (by decide) (by decide) (by decide)), wakeRegs_done]
  · rw [startBoot_eq, if_neg h1, strapped_rd _ _ (by decide), woken_pwr]
  · exact sameBytes_of_mem (by rw [startBoot_mem_off hoffw, woken_mem])
  · have hne {g : Fld} (hg : g.dom ≠ .img) (hglo : g.lo < 32) (hglt : g.addr < 0x4000000) : f.key ≠ g.key := fun hk =>
      hg (dom_num_inj (key_inj hlo hglo (by omega) hglt hk).1 ▸ hd)
    rw [startBoot_rd_off hoffw _ (hne (by decide) (by decide) (by decide)) (hne (by decide) (by decide) (by decide))
      (hne (by decide) (by decide) (by decide)), woken_rd_img s hlo ha hd (hne (by decide) (by decide) (by decide))]

/-! ### Power-good -/

/-- Where the blocks' steps at power-good write: SVI, Thornline and SEC. -/
def pgRegs : List (Nat × Nat) := [(0x18, 0x1C), (0x500000, 0x600000), (0xA00000, 0xB00000), (0xD00000, 0xE00000)]

theorem seeSensor_kept (s : State) (k : Nat) : RegsKept s (seeSensor s k) [(0xD00000, 0xE00000)] := by
  have hin (f : Fld) (hlo : f.lo < 32) (ha : 0xD00000 ≤ f.addr ∧ f.addr < 0xE00000) : Within f [(0xD00000, 0xE00000)] :=
    ⟨hlo, by omega, _, List.mem_singleton.mpr rfl, ha⟩
  exact regsKept_of_regs (regsKept_wr (hin _ (by decide) (by decide)) (regsKept_wr (hin _ (by decide) (by decide))
    (regsKept_wr (hin _ (by decide) (by decide)) (regsKept_refl s _) _) _) _) (itemOn_regs ..)

theorem regsKept_mono {s t : State} {l l' : List (Nat × Nat)} (h : RegsKept s t l) (hl : ∀ r ∈ l, r ∈ l') : RegsKept s t l' :=
  fun f hlo hlt hf => h f hlo hlt fun r hr => hf r (hl r hr)

theorem dirRestore_kept (s : State) : RegsKept s (dirRestore s) [(0x500000, 0x600000)] := by
  have hin (f : Fld) (hlo : f.lo < 32) (ha : 0x500000 ≤ f.addr ∧ f.addr < 0x600000) : Within f [(0x500000, 0x600000)] :=
    ⟨hlo, by omega, _, List.mem_singleton.mpr rfl, ha⟩
  unfold dirRestore
  extract_lets v u
  have hu : RegsKept s u [(0x500000, 0x600000)] := regsKept_of_regs (regsKept_refl s _) rfl
  split
  · exact hu
  next c _ _ =>
    have hdir (l : List (Nat × DirEnt)) : RegsKept s (setDir u l) [(0x500000, 0x600000)] :=
      regsKept_wr (hin R.SVI_DIR_STAT_USED (by decide) (by decide)) (regsKept_of_regs hu (setSvi_regs ..)) _
    exact regsKept_wr (hin R.SVI_STAT_LASTCOPY (by decide) (by decide))
      (regsKept_wr (hin R.SVI_STAT_RESTORED (by decide) (by decide)) (hdir _) _) _

/-- What power-good starts leaves power-good itself alone. -/
theorem pdStarts_kept (s : State) (d : Nat) : RegsKept s (pdStarts s d) [(0x500000, 0x600000), (0xD00000, 0xE00000)] := by
  unfold pdStarts
  split
  · refine regsKept_foldl (fun t k => regsKept_mono (l := [(0xD00000, 0xE00000)]) ?_ (by simp)) _ (regsKept_refl s _)
    split
    · refine regsKept_of_regs (regsKept_wr ?_ (regsKept_refl t _) _) (itemOnQuiet_regs ..)
      exact ⟨by decide, by decide, _, List.mem_singleton.mpr rfl, by decide⟩
    · exact seeSensor_kept t k
  · exact regsKept_mono (regsKept_trans (regsKept_of_regs (regsKept_refl s _) (loadBases_regs s)) (dirRestore_kept _)) (by simp)
  · exact regsKept_foldl (fun t p => regsKept_of_regs (regsKept_refl t _) (linkItem_regs t p)) _ (regsKept_refl s _)
  · exact regsKept_of_regs (regsKept_refl s _) rfl
  · exact regsKept_refl s _

/-- The state that a power-good of domain `d` leaves. -/
def poweredUp (s : State) (d : Nat) : State := gateUpdate (pdStarts (s.setBit R.GLB_PWRSTAT_PG d) d)

theorem poweredUp_pg (s : State) {d e : Nat} (he : e < 12) : (poweredUp s d).pg e = (decide (e = d) || s.pg e) := by
  have hk : (pdStarts (s.setBit R.GLB_PWRSTAT_PG d) d).rd R.GLB_PWRSTAT_PG = (s.setBit R.GLB_PWRSTAT_PG d).rd R.GLB_PWRSTAT_PG :=
    pdStarts_kept _ d _ (by decide) (by decide) (by decide)
  rw [poweredUp, pg_gateUpdate, pg_of_rd hk, State.setBit, pg_wr _ _ he, Nat.testBit_or, Nat.testBit_two_pow, State.pg, Bool.or_comm]
  simp only [eq_comm]

theorem poweredUp_kept (s : State) (d : Nat) : RegsKept s (poweredUp s d) pgRegs := by
  have hpg : Within R.GLB_PWRSTAT_PG pgRegs := ⟨by decide, by decide, (0x18, 0x1C), by decide, by decide⟩
  have h1 : RegsKept s (s.setBit R.GLB_PWRSTAT_PG d) pgRegs := regsKept_wr hpg (regsKept_refl s _) _
  exact regsKept_trans (regsKept_trans h1 (regsKept_mono (pdStarts_kept _ d) (by decide))) (regsKept_mono (gateUpdate_kept _) (by decide))

theorem poweredUp_mem (s : State) (d : Nat) : (poweredUp s d).mem = s.mem := by
  rw [poweredUp, gateUpdate_mem, pdStarts_mem, State.setBit, wr_mem]

section PowerGood
variable {s : State} {d : Fin 12} (h0 : s.glb.hold = 0) (hd : s.pg d = false) (hp : powering s d = true)
include h0 hd hp

/-- A power-good that is due: refused without its dependency, put off out of turn. -/
theorem exec_powerGood : exec (.domainPowerGood d) s =
    .next (if !pdDepends s d then glbEvent s 2 (leBytes 4 d) else if !inTurn s d then s else poweredUp s d) := by
  rw [exec, execDomainPowerGood, if_neg (by simp [h0, hd, hp])]
  rfl

theorem powerGood_refused (hdep : pdDepends s d = false) : Runs (.domainPowerGood d) s fun t => t.regs = s.regs ∧ t.glb = s.glb ∧
    (∃ e, t.yew.cross = s.yew.cross ++ [e] ∧ e.src = 0 ∧ e.code = 2) ∧ SameBytes s t := by
  refine ⟨glbEvent s 2 (leBytes 4 d), by rw [exec_powerGood h0 hd hp, hdep]; rfl, logAon_regs .., logAon_glb .., ⟨_, rfl, rfl, rfl⟩,
    sameBytes_of_mem (logAon_mem ..)⟩

theorem powerGood_waits (hdep : pdDepends s d = true) (ht : inTurn s d = false) : exec (.domainPowerGood d) s = .next s := by
  rw [exec_powerGood h0 hd hp, hdep, ht]
  rfl

theorem powerGood_shows (hdep : pdDepends s d = true) (ht : inTurn s d = true) : Runs (.domainPowerGood d) s fun t =>
    (∀ e < 12, t.pg e = (decide (e = d.val) || s.pg e)) ∧ SameBytes s t ∧ RegsKept s t pgRegs :=
  ⟨poweredUp s d, by rw [exec_powerGood h0 hd hp, hdep, ht]; rfl, fun _ he => poweredUp_pg s he, sameBytes_of_mem (poweredUp_mem s d),
    poweredUp_kept s d⟩

end PowerGood

theorem inTurn_iff (s : State) (d : Nat) :
    inTurn s d = true ↔ s.glb.step ≠ 6 ∨ ∀ e ∈ (neededPds s false).takeWhile (· != d), s.pg e = true := by
  rw [inTurn, Bool.or_eq_true, bne_iff_ne, List.all_eq_true]

/-! ### Verification -/

theorem exec_verify_other {s : State} {sigOk : Bool} (h : sigOk ≠ imageSig s s.glb.trying) :
    exec (.imageVerifyDone sigOk) s = .next s := by rw [exec, execImageVerifyDone, if_pos (.inr (.inr (.inr (.inr h))))]

theorem setFail_rd_ne (s : State) (slot r : Nat) {f : Fld} (ha : f.key ≠ R.GLB_BOOT_FAILA.key) (hb : f.key ≠ R.GLB_BOOT_FAILB.key) :
    (setFail s slot r).rd f = s.rd f := by
  unfold setFail
  split
  · exact rd_wr_ne s _ ha
  · exact rd_wr_ne s _ hb

theorem setFail_rd_self (s : State) (slot : Nat) {r : Nat} (h : r < 8) :
    (setFail s slot r).rd (if slot = 0 then R.GLB_BOOT_FAILA else R.GLB_BOOT_FAILB) = r := by
  have hw : (if slot = 0 then R.GLB_BOOT_FAILA else R.GLB_BOOT_FAILB).w = 3 := by split <;> rfl
  rw [setFail, rd_wr_self, hw]
  exact Nat.mod_eq_of_lt h

/-- The other slot is tried after a failure. -/
def retried (s : State) (r : Nat) : State :=
  setGlb (setFail s s.glb.trying r) { s.glb with step := 3, trying := 1 - s.glb.trying, second := true }

theorem retried_regs (s : State) (r : Nat) : (retried s r).regs = (setFail s s.glb.trying r).regs := by rw [retried, setGlb_regs]
theorem retried_mem (s : State) (r : Nat) : (retried s r).mem = s.mem := by rw [retried, setGlb_mem, setFail, wr_mem]

theorem imageVerdict_lt (s : State) (slot : Nat) (sigOk : Bool) : imageVerdict s slot sigOk < 8 := by
  unfold imageVerdict
  (repeat' split) <;> decide

section Verify
variable {s : State} {sigOk : Bool} (h0 : s.glb.hold = 0) (h3 : s.glb.step = 3) (h7 : s.pg 7 = true) (h11 : s.pg 11 = true)
  (hsig : sigOk = imageSig s s.glb.trying)

/-- The domains of cores that the slot does not use. -/
def idlePds (s : State) : List Nat := [2, 3, 4, 5].filter fun d => s.pg d && !usesPd s d

/-- Boot goes on to step 5 with the slot: cores that it does not use go off (R40). -/
def verified (s : State) : State :=
  let s1 := setGlb s { s.glb with step := 6 }
  if idlePds s1 = [] then s1 else powerOff s1 (idlePds s1)

theorem idlePds_cores {d : Nat} (h : d ∈ idlePds s) : d ∈ [2, 3, 4, 5] := List.mem_of_mem_filter h

theorem idlePds_noFab : (idlePds s).contains 1 = false := by
  rw [Bool.eq_false_iff]
  intro h
  exact absurd (idlePds_cores (List.contains_iff_mem.mp h)) (by decide)

theorem verified_glb : (verified s).glb = { s.glb with step := 6 } := by
  unfold verified
  extract_lets g s1
  split
  · rfl
  · exact powerOff_glb s1 idlePds_noFab

theorem verified_memRd {a : Nat} (ha : a < 0x200000000) : memRd (verified s).mem a = memRd s.mem a := by
  unfold verified
  extract_lets g s1
  split
  · rfl
  · exact powerOff_cores_memRd s1 (fun d => idlePds_cores) ha

theorem verified_pg {d : Nat} (hd : d < 12) : (verified s).pg d =
    (s.pg d && !(decide (2 ≤ d ∧ d ≤ 5) && !(hdr s s.glb.trying 0x40 1).testBit (2 * (d - 2)) &&
      !(hdr s s.glb.trying 0x40 1).testBit (2 * (d - 2) + 1))) := by
  unfold verified
  extract_lets g s1
  have hpg : ∀ e, s1.pg e = s.pg e := fun e => rfl
  have huse : usesPd s1 d = ((hdr s s.glb.trying 0x40 1).testBit (2 * (d - 2)) || (hdr s s.glb.trying 0x40 1).testBit (2 * (d - 2) + 1)) := rfl
  have hidle : (idlePds s1).contains d = (decide (2 ≤ d ∧ d ≤ 5) && (s.pg d && !usesPd s1 d)) := by
    have hm : d ∈ [2, 3, 4, 5] ↔ 2 ≤ d ∧ d ≤ 5 := by
      simp only [List.mem_cons, List.not_mem_nil, or_false]
      omega
    rw [Bool.eq_iff_iff, List.contains_iff_mem, idlePds, List.mem_filter, hm]
    simp only [hpg, Bool.and_eq_true, decide_eq_true_eq]
  have hoff : (if idlePds s1 = [] then s1 else powerOff s1 (idlePds s1)).pg d = (s.pg d && !(idlePds s1).contains d) := by
    split
    next he => rw [he, hpg]; simp
    next => rw [powerOff_pg _ _ hd, hpg]
  rw [hoff, hidle, huse]
  cases s.pg d <;> simp [Bool.or_assoc]

include h0 h3 h7 h11 hsig

theorem exec_verify_good (hr : imageVerdict s s.glb.trying sigOk = 0) : exec (.imageVerifyDone sigOk) s = .next (verified s) := by
  rw [exec, execImageVerifyDone, if_neg (by simp [h0, h3, h7, h11, hsig]), hr]
  rfl

theorem exec_verify_bad (hr : imageVerdict s s.glb.trying sigOk ≠ 0) :
    exec (.imageVerifyDone sigOk) s = .next (bootFails s (imageVerdict s s.glb.trying sigOk)) := by
  rw [exec, execImageVerifyDone, if_neg (by simp [h0, h3, h7, h11, hsig])]
  split
  next h => exact absurd h hr
  next => rfl

theorem verify_retries (hr : imageVerdict s s.glb.trying sigOk ≠ 0) (h2 : s.glb.second = false) :
    Runs (.imageVerifyDone sigOk) s fun t =>
      t.rd (if s.glb.trying = 0 then R.GLB_BOOT_FAILA else R.GLB_BOOT_FAILB) = imageVerdict s s.glb.trying sigOk ∧
      t.glb.step = 3 ∧ t.glb.trying = 1 - s.glb.trying ∧ t.glb.second = true ∧ SameBytes s t ∧ RegsKept s t [(0x10, 0x14)] := by
  set r := imageVerdict s s.glb.trying sigOk with hrdef
  have hb : bootFails s r = retried s r := by
    simp only [bootFails, h2, Bool.false_eq_true, if_false]
    rfl
  refine ⟨retried s r, (exec_verify_bad h0 h3 h7 h11 hsig hr).trans (by rw [← hrdef, hb]), ?_, rfl, rfl, rfl,
    sameBytes_of_mem (retried_mem s r), ?_⟩
  · rw [rd_of_regs (retried_regs s r), setFail_rd_self s _ (imageVerdict_lt ..)]
  · have hfail : Within (if s.glb.trying = 0 then R.GLB_BOOT_FAILA else R.GLB_BOOT_FAILB) [(0x10, 0x14)] := by
      split <;> exact ⟨by decide, by decide, _, List.mem_singleton.mpr rfl, by decide⟩
    exact regsKept_of_regs (regsKept_wr hfail (regsKept_refl s _) r) (retried_regs s r)

theorem verify_gives_up (hr : imageVerdict s s.glb.trying sigOk ≠ 0) (h2 : s.glb.second = true) :
    Runs (.imageVerifyDone sigOk) s fun t =>
      t.rd (if s.glb.trying = 0 then R.GLB_BOOT_FAILA else R.GLB_BOOT_FAILB) = imageVerdict s s.glb.trying sigOk ∧
      t.glb.step = 0 ∧ t.on R.GLB_BOOT_MAINT = true ∧ t.rd R.GLB_PWR_STATE = 5 ∧
      (∀ d ∈ [1, 2, 3, 4, 5, 6, 8, 9, 10], t.pg d = false) ∧ (s.pg 1 = true → padsNow t = 0) := by
  set r := imageVerdict s s.glb.trying sigOk with hrdef
  have hb : bootFails s r = enterMaint (setFail s s.glb.trying r) := by simp only [bootFails, h2, if_true]
  have hfail : (setFail s s.glb.trying r).rd (if s.glb.trying = 0 then R.GLB_BOOT_FAILA else R.GLB_BOOT_FAILB) = r :=
    setFail_rd_self s _ (imageVerdict_lt ..)
  refine ⟨_, (exec_verify_bad h0 h3 h7 h11 hsig hr).trans (by rw [hb]), ?_, rfl, enterMaint_maint _, enterMaint_pwr _,
    fun d hd => enterMaint_pg _ hd, fun h1 => enterMaint_pads _ ?_⟩
  · refine Eq.trans ?_ hfail
    split <;> exact enterMaint_rd _ (by decide) (by decide) (by decide) (by decide) (by decide)
  · rw [pg_of_rd (setFail_rd_ne s _ r (by decide) (by decide)), h1]

end Verify

/-- Settles O46: the two starts of boot, power-good, and the verdicts on a slot. -/
theorem startUp : Obligations.StartUp := by
  refine ⟨fun s straps hh ht => resetRelease_boots straps hh ht, fun s straps h => ?_, fun s straps => ⟨fun hh he hw hoff => ?_, ?_⟩,
    fun s d h0 hd hp => ⟨fun hdep ht => ?_, fun hdep ht => ?_, ?_⟩, fun s sigOk h => exec_verify_other h,
    fun s sigOk h0 h3 h7 h11 _ hsig => ⟨fun hr => ?_, verify_retries h0 h3 h7 h11 hsig, verify_gives_up h0 h3 h7 h11 hsig⟩⟩
  · rw [exec, execResetRelease, if_pos h]
  · refine wake_boots straps hh he hw fun d hd => ?_
    simpa using List.all_eq_true.mp hoff d hd
  · exact exec_wake_idle s straps
  · exact powerGood_waits h0 hd hp hdep (Bool.eq_false_iff.mpr fun h => ht ((inTurn_iff s d).mp h))
  · exact powerGood_shows h0 hd hp hdep ((inTurn_iff s d).mpr ht)
  · exact powerGood_refused h0 hd hp
  · exact ⟨_, exec_verify_good h0 h3 h7 h11 hsig hr, by rw [verified_glb], by rw [verified_glb], fun d hd => verified_pg hd,
      fun a ha => verified_memRd ha⟩

end Sys2Proof.Machine
end

section
/-! PROOFS. Layer of the analogue front end: the fields a step may write, folds, bits of bitmap fields. -/
namespace Sys2Proof.Machine

/-! ### Fields that a step may write -/

/-- Fields at different places in their words, or of different registers, lie under different keys. -/
theorem key_ne {d d' : Dom} {a a' l l' w w' r r' : Nat} {c c' : Acc}
    (h : l < 32 ∧ l' < 32 ∧ (l ≠ l' ∨ a ≠ a' ∧ a < 0x4000000 ∧ a' < 0x4000000)) :
    Fld.key ⟨d, a, l, w, c, r⟩ ≠ Fld.key ⟨d', a', l', w', c', r'⟩ := by
  intro he
  simp only [Fld.key] at he
  omega

/-- Every field keeps its value but those of a list. -/
def KeptBut (s t : State) (l : List Fld) : Prop := ∀ f : Fld, l.Forall (fun g => f.key ≠ g.key) → t.rd f = s.rd f

theorem keptBut_of_regs {s t : State} (h : t.regs = s.regs) (l : List Fld) : KeptBut s t l := fun f _ => rd_of_regs h f

theorem keptBut_refl (s : State) (l : List Fld) : KeptBut s s l := keptBut_of_regs rfl l

theorem KeptBut.trans {s t u : State} {l : List Fld} (h : KeptBut s t l) (hu : KeptBut t u l) : KeptBut s u l :=
  fun f hf => (hu f hf).trans (h f hf)

theorem KeptBut.mono {s t : State} {l l' : List Fld} (h : KeptBut s t l) (hl : l ⊆ l') : KeptBut s t l' := fun f hf =>
  h f (List.forall_iff_forall_mem.mpr fun g hg => List.forall_iff_forall_mem.mp hf g (hl hg))

theorem KeptBut.wr {s t : State} {l : List Fld} {g : Fld} (h : KeptBut s t l) (hg : g ∈ l) (v : Nat) : KeptBut s (t.wr g v) l :=
  fun f hf => (rd_wr_ne t v (List.forall_iff_forall_mem.mp hf g hg)).trans (h f hf)

theorem KeptBut.wrb {s t : State} {l : List Fld} {g : Fld} (h : KeptBut s t l) (hg : g ∈ l) (b : Bool) : KeptBut s (t.wrb g b) l :=
  h.wr hg _

theorem KeptBut.putBit {s t : State} {l : List Fld} {g : Fld} (h : KeptBut s t l) (hg : g ∈ l) (k : Nat) (b : Bool) :
    KeptBut s (t.putBit g k b) l := by
  cases b
  · exact h.wr hg _
  · exact h.wr hg _

theorem KeptBut.of_regs {s t u : State} {l : List Fld} (h : KeptBut s t l) (hu : u.regs = t.regs) : KeptBut s u l :=
  h.trans (keptBut_of_regs hu l)

/-- A field in the first of the ranges, in a later one. -/
theorem within_head {d : Dom} {a lo w r x y : Nat} {c : Acc} {l : List (Nat × Nat)} (h : lo < 32 ∧ a < 0x4000000 ∧ x ≤ a ∧ a < y) :
    Within ⟨d, a, lo, w, c, r⟩ ((x, y) :: l) :=
  ⟨h.1, h.2.1, _, List.mem_cons_self, h.2.2⟩

theorem within_tail {f : Fld} {r : Nat × Nat} {l : List (Nat × Nat)} (h : Within f l) : Within f (r :: l) := by
  obtain ⟨hlo, hlt, x, hx, hin⟩ := h
  exact ⟨hlo, hlt, x, List.mem_cons_of_mem _ hx, hin⟩

/-- Registers outside the ranges that hold the written fields are kept. -/
theorem KeptBut.regsKept {s t : State} {l : List Fld} {r : List (Nat × Nat)} (h : KeptBut s t l) (hl : l.Forall fun g => Within g r) :
    RegsKept s t r := fun f hlo hlt hf => h f (List.forall_iff_forall_mem.mpr fun g hg => by
  obtain ⟨hglo, hglt, x, hx, hin⟩ := List.forall_iff_forall_mem.mp hl g hg
  exact key_ne_of_addr hlo hglo hlt hglt fun he => hf x hx (he ▸ hin))

/-! ### Folds -/

/-- What one element of a list establishes and the others keep holds after the fold; `I` is what every step keeps. -/
theorem foldl_establishes {σ β : Type} {g : σ → β → σ} {I P : σ → Prop} {x : β} (hI : ∀ u b, I u → I (g u b))
    (hset : ∀ u, I u → P (g u x)) (hkeep : ∀ u b, I u → P u → P (g u b)) {l : List β} (hx : x ∈ l) {s : σ} (hs : I s) :
    P (l.foldl g s) := by
  induction l generalizing s with
  | nil => exact absurd hx List.not_mem_nil
  | cons b t ih =>
    rcases List.mem_cons.mp hx with rfl | hx
    · exact (List.foldlRecOn (motive := fun u => I u ∧ P u) t g ⟨hI s x hs, hset s hs⟩
        fun u hu b _ => ⟨hI u b hu.1, hkeep u b hu.1 hu.2⟩).2
    · exact ih hx (hI s b hs)

/-! ### Bits of bitmap fields -/

theorem testBit_setBit (s : State) {f : Fld} (g : Nat) {j : Nat} (hj : j < f.w) :
    ((s.setBit f g).rd f).testBit j = ((s.rd f).testBit j || decide (g = j)) := by
  rw [State.setBit, rd_wr_self, Nat.testBit_mod_two_pow, decide_eq_true hj, Bool.true_and, Nat.testBit_or, Nat.testBit_two_pow]

theorem clrBit_eq (s : State) (f : Fld) (g : Nat) : s.clrBit f g = s.wr f (s.rd f - (s.rd f &&& 2 ^ g)) := by
  rw [State.clrBit, Nat.and_two_pow]
  cases (s.rd f).testBit g <;> simp

theorem testBit_clrBit (s : State) {f : Fld} (g : Nat) {j : Nat} (hj : j < f.w) :
    ((s.clrBit f g).rd f).testBit j = ((s.rd f).testBit j && decide (j ≠ g)) := by
  rw [clrBit_eq, rd_wr_self, Nat.testBit_mod_two_pow, decide_eq_true hj, Bool.true_and, testBit_sub_and, Nat.testBit_two_pow,
    ← decide_not]
  simp only [ne_comm, ne_eq]

theorem testBit_putBit_self (s : State) {f : Fld} {k : Nat} (b : Bool) (hk : k < f.w) :
    ((s.putBit f k b).rd f).testBit k = b := by
  cases b
  · exact (testBit_clrBit s k hk).trans (by simp)
  · exact (testBit_setBit s k hk).trans (by simp)

theorem putBit_rd_ne (s : State) {f g : Fld} (k : Nat) (b : Bool) (h : g.key ≠ f.key) : (s.putBit f k b).rd g = s.rd g := by
  cases b
  · exact rd_wr_ne s _ h
  · exact rd_wr_ne s _ h

theorem rd_sat1 (s : State) (f : Fld) : (s.sat1 f).rd f = min (s.rd f + 1) (2 ^ f.w - 1) := by
  rw [State.sat1, State.satAdd, rd_wr_self]
  have hw := Nat.one_le_two_pow (n := f.w)
  exact Nat.mod_eq_of_lt (by omega)

end Sys2Proof.Machine
end

section
/-! PROOFS. Tagged bits (R58), overload shown (R60, R61), and the steps of the checkers (R71 to R78). -/
namespace Sys2Proof.Machine

/-! ### Tagged bits -/

/-- A step that tags bits: nothing but the list of tagged runs changes, and no run of the latest 40 ms is lost from it. -/
structure TagSteps (s t : State) : Prop where
  rest : t = setAfe s { s.afe with runs := t.afe.runs }
  young : ∀ m letter a b, tb2U s < b + 40000000 * nsU → Spec.Bears s m letter a b → Spec.Bears t m letter a b

namespace TagSteps
variable {s t u : State}

theorem refl (s : State) : TagSteps s s := ⟨rfl, fun _ _ _ _ _ h => h⟩

theorem regs (h : TagSteps s t) : t.regs = s.regs := by rw [h.rest, setAfe_regs]
theorem mem (h : TagSteps s t) : t.mem = s.mem := by rw [h.rest, setAfe_mem]
theorem prv (h : TagSteps s t) : t.prv = s.prv := by rw [h.rest, setAfe_prv]
theorem tb2U_eq (h : TagSteps s t) : tb2U t = tb2U s := by rw [h.rest]; rfl
theorem afe (h : TagSteps s t) : t.afe = { s.afe with runs := t.afe.runs } := congrArg State.afe h.rest
theorem lpmAct_eq (h : TagSteps s t) : lpmAct t = lpmAct s := on_of_rd (rd_of_regs h.regs _)

theorem trans (h : TagSteps s t) (hu : TagSteps t u) : TagSteps s u where
  rest := by
    have hr := hu.rest
    rw [h.rest] at hr
    exact hr
  young m letter a b hb hs := hu.young m letter a b (h.tb2U_eq ▸ hb) (h.young m letter a b hb hs)

theorem foldl {β : Type} {g : State → β → State} (hg : ∀ v b, TagSteps v (g v b)) (l : List β) (s : State) : TagSteps s (l.foldl g s) :=
  List.foldlRecOn (motive := TagSteps s) l g (refl s) fun v hv b _ => hv.trans (hg v b)

end TagSteps

theorem bearsU32_of {s t : State} {m : Nat} {lpm : Bool} (hl : t.on R.AFE_STAT_LPM_ACT = lpm)
    (h : Spec.Bears t m 0 (tb2U s) (tb2U s + 32 * tmNs lpm * 2 ^ 32)) : Spec.BearsU32 s t m := by
  rwa [Spec.BearsU32, hl]

theorem markTag_self (s : State) (m letter a b : Nat) : Spec.Bears (markTag s m letter a b) m letter a b := by
  simp only [Spec.Bears, markTag, setAfe, mmod, mget_mput_self]
  exact List.mem_cons_self

theorem markTag_steps (s : State) (m letter a b : Nat) : TagSteps s (markTag s m letter a b) where
  rest := rfl
  young m' letter' a' b' hb h := by
    simp only [Spec.Bears, markTag, setAfe, mmod] at h ⊢
    by_cases hk : 4 * m' + letter' = 4 * m + letter
    · rw [hk, mget_mput_self]
      exact List.mem_cons_of_mem _ (List.mem_filter.mpr ⟨hk ▸ h, decide_eq_true hb⟩)
    · rwa [mget_mput_ne _ _ _ hk]

theorem markU32_steps (s : State) (m : Nat) : TagSteps s (markU32 s m) := markTag_steps ..

theorem markU32_self (s : State) (m : Nat) : Spec.Bears (markU32 s m) m 0 (tb2U s) (tb2U s + 32 * tmNs (lpmAct s) * 2 ^ 32) :=
  markTag_self ..

theorem markNbrEnd_steps (s : State) (m t : Nat) : TagSteps s (markNbrEnd s m t) := by
  unfold markNbrEnd
  split
  · exact .refl s
  · exact .foldl (fun v x => markTag_steps v x 2 t (tb2U s)) _ s

/-- What one element's tag gives stays after a fold of tags. -/
theorem foldl_bears {β : Type} {g : State → β → State} (hg : ∀ v b, TagSteps v (g v b)) {l : List β} {x : β} (hx : x ∈ l) {s : State}
    {m letter a b : Nat} (hb : tb2U s < b + 40000000 * nsU) (hset : ∀ v, TagSteps s v → Spec.Bears (g v x) m letter a b) :
    Spec.Bears (l.foldl g s) m letter a b :=
  foldl_establishes (I := TagSteps s) (P := fun v => Spec.Bears v m letter a b) (fun v y hv => hv.trans (hg v y)) hset
    (fun v y hv h => (hg v y).young m letter a b (hv.tb2U_eq ▸ hb) h) hx (.refl s)

theorem foldl_markU32_bears (s : State) {m : Nat} (hm : m < 52) :
    Spec.Bears ((List.range 52).foldl markU32 s) m 0 (tb2U s) (tb2U s + 32 * tmNs (lpmAct s) * 2 ^ 32) :=
  foldl_bears markU32_steps (List.mem_range.mpr hm) (by simp only [nsU]; omega) fun v hv => by
    have h := markU32_self v m
    rwa [hv.tb2U_eq, hv.lpmAct_eq] at h

theorem markNbrEnd_bears (s : State) {m x : Nat} (t : Nat) (hm : m < 48) (hx : x ∈ groupMods (refGroup m)) (hne : x ≠ m) :
    Spec.Bears (markNbrEnd s m t) x 2 t (tb2U s) := by
  rw [markNbrEnd, if_neg (by omega)]
  exact foldl_bears (fun v y => markTag_steps v y 2 t (tb2U s)) (List.mem_filter.mpr ⟨hx, decide_eq_true hne⟩)
    (by simp only [nsU]; omega) fun v _ => markTag_self v x 2 t (tb2U s)

/-! ### Overload intervals shown -/

/-- The neighbours of a primary are the inputs of its own group, all of them primaries. -/
theorem groupMods_primary {m x : Nat} (hm : m < 48) : x ∈ groupMods (refGroup m) ↔ x / 4 = m / 4 := by
  rw [refGroup, if_pos hm, groupMods, if_pos (by omega)]
  simp only [List.mem_cons, List.not_mem_nil, or_false]
  omega

/-- One input's OVL and NBR shown. -/
def showInput (a : State) (x : Nat) : State :=
  (a.wrb (R.AFE_CHn_STAT_OVL x) (inOvl a x)).wrb (R.AFE_CHn_STAT_NBR x) (nbrTagged a x (tb2U a))

theorem showOverload_checker (s : State) {m : Nat} (hm : 48 ≤ m) : showOverload s m = s := if_pos hm

theorem showOverload_primary (s : State) {m : Nat} (hm : m < 48) : showOverload s m =
    ((groupMods (refGroup m)).foldl showInput s).putBit R.AFE_GRP_LIVE_OVL (refGroup m)
      ((groupMods (refGroup m)).any (inOvl ((groupMods (refGroup m)).foldl showInput s))) :=
  if_neg (by omega)

/-- Showing the overloads writes registers only. -/
theorem showOverload_afe (s : State) (m : Nat) : (showOverload s m).afe = s.afe := by
  unfold showOverload
  split
  · rfl
  · exact (putBit_afe ..).trans (List.foldlRecOn (motive := fun u : State => u.afe = s.afe) _ _ rfl fun u hu x _ => hu)

/-- The fields in which the overloads of a group show. -/
def overloadFlds (m : Nat) : List Fld :=
  R.AFE_GRP_LIVE_OVL :: (groupMods (refGroup m)).flatMap fun x => [R.AFE_CHn_STAT_OVL x, R.AFE_CHn_STAT_NBR x]

theorem showOverload_kept (s : State) (m : Nat) : KeptBut s (showOverload s m) (overloadFlds m) := by
  unfold showOverload
  split
  · exact keptBut_refl s _
  · refine KeptBut.putBit (List.foldlRecOn (motive := fun u => KeptBut s u (overloadFlds m)) _ _ (keptBut_refl s _)
      fun u hu x hx => (hu.wrb ?_ _).wrb ?_ _) List.mem_cons_self _ _
    · exact List.mem_cons_of_mem _ (List.mem_flatMap.mpr ⟨x, hx, by simp⟩)
    · exact List.mem_cons_of_mem _ (List.mem_flatMap.mpr ⟨x, hx, by simp⟩)

/-- A field outside the registers' bits 16, 29 and 31 is none of the fields in which overloads show. -/
theorem showOverload_rd (s : State) (m : Nat) {d : Dom} {a lo w r : Nat} {c : Acc} (h : lo < 32 ∧ lo ≠ 16 ∧ lo ≠ 29 ∧ lo ≠ 31) :
    (showOverload s m).rd ⟨d, a, lo, w, c, r⟩ = s.rd ⟨d, a, lo, w, c, r⟩ := by
  refine showOverload_kept s m _ (List.forall_iff_forall_mem.mpr fun g hg => ?_)
  simp only [overloadFlds, List.mem_cons, List.mem_flatMap, List.not_mem_nil, or_false] at hg
  rcases hg with rfl | ⟨x, -, rfl | rfl⟩
  · exact key_ne (by omega)
  · exact key_ne (by omega)
  · exact key_ne (by omega)

/-- OVL and NBR of input `x` as the overloads of `s` have them. -/
def ShowsInput (s u : State) (x : Nat) : Prop :=
  u.on (R.AFE_CHn_STAT_OVL x) = inOvl s x ∧ u.on (R.AFE_CHn_STAT_NBR x) = nbrTagged s x (tb2U s)

theorem showInput_shows {s u : State} (hafe : u.afe = s.afe) (htim : u.tim = s.tim) (x : Nat) : ShowsInput s (showInput u x) x := by
  have hovl : inOvl u x = inOvl s x := by rw [inOvl, inOvl, hafe]
  have htb : tb2U u = tb2U s := by rw [tb2U, tb2U, State.tbOf, State.tbOf, htim]
  have hnbr : nbrTagged u x (tb2U u) = nbrTagged s x (tb2U s) := by rw [htb, nbrTagged, nbrTagged, hafe]
  rw [ShowsInput, ← hovl, ← hnbr]
  exact ⟨(on_of_rd (rd_wrb_ne _ _ (key_ne (by omega)))).trans (on_wrb_self _ _ _ rfl), on_wrb_self _ _ _ rfl⟩

theorem ShowsInput.of_flds {s u v : State} {x : Nat} (h : ShowsInput s u x)
    (hovl : v.rd (R.AFE_CHn_STAT_OVL x) = u.rd (R.AFE_CHn_STAT_OVL x))
    (hnbr : v.rd (R.AFE_CHn_STAT_NBR x) = u.rd (R.AFE_CHn_STAT_NBR x)) : ShowsInput s v x :=
  ⟨(on_of_rd hovl).trans h.1, (on_of_rd hnbr).trans h.2⟩

theorem stat_key_ne {x y : Nat} (h : y ≠ x) {lo w w' r r' : Nat} {c c' : Acc} :
    Fld.key ⟨.sys, 0x601004 + 0x20 * x, lo, w, c, r⟩ ≠ Fld.key ⟨.sys, 0x601004 + 0x20 * y, lo, w', c', r'⟩ := by
  intro he
  simp only [Fld.key] at he
  omega

theorem ShowsInput.showInput_ne {s u : State} {x y : Nat} (h : ShowsInput s u x) (hy : y ≠ x) : ShowsInput s (showInput u y) x :=
  h.of_flds ((rd_wrb_ne _ _ (key_ne (by omega))).trans (rd_wrb_ne _ _ (stat_key_ne hy)))
    ((rd_wrb_ne _ _ (stat_key_ne hy)).trans (rd_wrb_ne _ _ (key_ne (by omega))))

/-- What OVL and NBR of an input of the group show. -/
theorem showOverload_shows (s : State) {m x : Nat} (hm : m < 48) (hx : x ∈ groupMods (refGroup m)) :
    ShowsInput s (showOverload s m) x := by
  rw [showOverload_primary s hm]
  refine ShowsInput.of_flds ?_ (putBit_rd_ne _ _ _ (key_ne (by omega))) (putBit_rd_ne _ _ _ (key_ne (by omega)))
  refine foldl_establishes (g := showInput) (I := fun u => u.afe = s.afe ∧ u.tim = s.tim) (P := fun u => ShowsInput s u x)
    (fun _ _ hu => hu) (fun _ hu => showInput_shows hu.1 hu.2 x) (fun _ y hu h => ?_) hx ⟨rfl, rfl⟩
  by_cases hy : y = x
  · exact hy ▸ showInput_shows hu.1 hu.2 y
  · exact h.showInput_ne hy

end Sys2Proof.Machine
end

section
/-! PROOFS. The checkers' moves and verdicts (R71 to R78), and the references (R51 to R53). -/
namespace Sys2Proof.Machine

/-! ### Steps of the checkers -/

/-- A step of the checkers: of registers the fields of a list change, of the front end's state the checkers, and of the live items
at most those of whole checkers. -/
structure CheckerStep (s t : State) (l : List Fld) : Prop where
  flds : KeptBut s t l
  afe : t.afe = { s.afe with ck := t.afe.ck }
  items : ∀ src x, src ≠ 18 ∨ x < 48 → t.itemLive src x = s.itemLive src x

namespace CheckerStep
variable {s t u : State} {l l' : List Fld}

theorem refl (s : State) (l : List Fld) : CheckerStep s s l := ⟨keptBut_refl s l, rfl, fun _ _ _ => rfl⟩

theorem trans (h : CheckerStep s t l) (hu : CheckerStep t u l) : CheckerStep s u l where
  flds := h.flds.trans hu.flds
  afe := by
    have ha := hu.afe
    rw [h.afe] at ha
    exact ha
  items src x hx := (hu.items src x hx).trans (h.items src x hx)

theorem mono (h : CheckerStep s t l) (hl : l ⊆ l') : CheckerStep s t l' := ⟨h.flds.mono hl, h.afe, h.items⟩

theorem wr (h : CheckerStep s t l) {g : Fld} (hg : g ∈ l) (v : Nat) : CheckerStep s (t.wr g v) l := ⟨h.flds.wr hg v, h.afe, h.items⟩

/-- Only the checkers' own state differs. -/
theorem of_ck (h : CheckerStep s t l) (hr : u.regs = t.regs) (ha : u.afe = { t.afe with ck := u.afe.ck }) (hp : u.prv = t.prv) :
    CheckerStep s u l :=
  h.trans ⟨keptBut_of_regs hr l, ha, fun src x _ => itemLive_of_items (by rw [hp]) src x⟩

theorem bears (h : CheckerStep s t l) {m letter a b : Nat} (hb : Spec.Bears s m letter a b) : Spec.Bears t m letter a b := by
  rw [Spec.Bears, h.afe]
  exact hb

end CheckerStep

theorem setCk_step (s : State) (k : Nat) (c : Ck) (l : List Fld) : CheckerStep s (setCk s k c) l :=
  (CheckerStep.refl s l).of_ck rfl rfl rfl

theorem voidDwell_step (s : State) (k : Nat) (l : List Fld) : CheckerStep s (voidDwell s k) l :=
  (CheckerStep.refl s l).of_ck rfl rfl rfl

theorem voidAll_step (s : State) (l : List Fld) : CheckerStep s (voidAll s) l :=
  (((voidDwell_step s 0 l).trans (voidDwell_step _ 1 l)).trans (voidDwell_step _ 2 l)).trans (voidDwell_step _ 3 l)

theorem voidDwell_regs (s : State) (k : Nat) : (voidDwell s k).regs = s.regs := setAfe_regs ..

theorem voidAll_regs (s : State) : (voidAll s).regs = s.regs := by
  rw [voidAll, voidDwell_regs, voidDwell_regs, voidDwell_regs, voidDwell_regs]

theorem voidDwell_void (s : State) (k : Nat) : (mget (voidDwell s k).afe.ck k {}).void = true := by
  rw [voidDwell, setAfe, mmod, mget_mput_self]

theorem voidDwell_keeps {s : State} {j : Nat} (h : (mget s.afe.ck j {}).void = true) (k : Nat) :
    (mget (voidDwell s k).afe.ck j {}).void = true := by
  by_cases hj : j = k
  · exact hj ▸ voidDwell_void s j
  · rwa [voidDwell, setAfe, mmod, mget_mput_ne _ _ _ hj]

theorem voidAll_void (s : State) {k : Nat} (hk : k < 4) : (mget (voidAll s).afe.ck k {}).void = true := by
  interval_cases k
  · exact voidDwell_keeps (voidDwell_keeps (voidDwell_keeps (voidDwell_void s 0) 1) 2) 3
  · exact voidDwell_keeps (voidDwell_keeps (voidDwell_void _ 1) 2) 3
  · exact voidDwell_keeps (voidDwell_void _ 2) 3
  · exact voidDwell_void _ 3

/-- The checker after a move to input offset `j`: settling, its sums empty. -/
def movedCk (s : State) (c : Ck) (j : Nat) : Ck := { c with phase := 1, pos := j, since := tb2U s, void := false, sd := 0, sr := 0, m := 0 }

/-- A move: the checker's chain takes the primary's counters, the checker settles, POS shows the input. -/
theorem ckMove_eq (s : State) (k j : Nat) :
    ∃ d, ckMove s k j = (setCk { s with dch := d } k (movedCk s (ckOf s k) j)).wr (R.AFE_CKk_STAT_POS k) j := ⟨_, rfl⟩

theorem ckMove_ck (s : State) (k j : Nat) : mget (ckMove s k j).afe.ck k {} = movedCk s (ckOf s k) j := mget_mput_self ..

theorem ckMove_pos (s : State) (k : Nat) {j : Nat} (hj : j < 12) : (ckMove s k j).rd (R.AFE_CKk_STAT_POS k) = j :=
  (rd_wr_self ..).trans (Nat.mod_eq_of_lt (show j < 16 by omega))

theorem ckMove_step (s : State) (k j : Nat) {l : List Fld} (hl : R.AFE_CKk_STAT_POS k ∈ l) : CheckerStep s (ckMove s k j) l := by
  obtain ⟨d, he⟩ := ckMove_eq s k j
  have hd : CheckerStep s { s with dch := d } l := (CheckerStep.refl s l).of_ck rfl rfl rfl
  rw [he]
  exact (hd.trans (setCk_step _ k _ l)).wr hl _

theorem ckSweep_some {s : State} {k j : Nat} (h : ((List.range 12).find? fun x => eligible s k x) = some j) :
    ckSweep s k = ckMove (setCk s k { ckOf s k with failed := [] }) k j := by rw [ckSweep, h]

theorem ckSweep_step (s : State) (k : Nat) {l : List Fld} (hl : R.AFE_CKk_STAT_POS k ∈ l) : CheckerStep s (ckSweep s k) l := by
  unfold ckSweep
  split
  · exact (setCk_step s k _ l).trans (ckMove_step _ k _ hl)
  · exact setCk_step s k _ l

theorem ckWake_step (s : State) (k : Nat) {l : List Fld} (hl : R.AFE_CKk_STAT_POS k ∈ l) : CheckerStep s (ckWake s k) l := by
  unfold ckWake
  split
  · exact ckSweep_step s k hl
  · exact .refl s l

theorem ckNext_step (s : State) (k : Nat) {l : List Fld} (hp : R.AFE_CKk_STAT_POS k ∈ l) (hs : R.AFE_CKk_CNT_SWEEPS k ∈ l) :
    CheckerStep s (ckNext s k) l := by
  unfold ckNext
  split
  · exact .refl s l
  · split
    · exact setCk_step s k _ l
    next j w _ =>
      refine CheckerStep.trans ?_ (ckMove_step _ k j hp)
      split
      · exact (setCk_step s k _ l).wr hs _
      · exact .refl s l

theorem ckFail_failed (s : State) (k : Nat) : (ckFail s k).on (R.AFE_CKk_STAT_FAILED k) = true :=
  (on_of_rd ((rd_of_regs (itemOn_regs ..) _).trans (rd_wrb_ne _ _ (key_ne (by omega))))).trans (on_wrb_self _ _ _ rfl)

theorem ckFail_step (s : State) (k : Nat) {l : List Fld} (hf : R.AFE_CKk_STAT_FAILED k ∈ l) (hs : R.AFE_CKk_STAT_FAILED_STK k ∈ l) :
    CheckerStep s (ckFail s k) l where
  flds := (((setCk_step s k _ l).flds.wrb hf _).wrb hs _).of_regs (itemOn_regs ..)
  afe := by
    rw [ckFail, itemOn_afe]
    rfl
  items src x h := (itemLive_itemOn_ne _ _ fun he => by
    obtain ⟨rfl, rfl⟩ := Prod.mk.inj he
    omega).trans rfl

theorem ckGroups_step (s : State) (k j : Nat) {l : List Fld} (hf : R.AFE_CKk_STAT_FAILED k ∈ l) (hs : R.AFE_CKk_STAT_FAILED_STK k ∈ l) :
    CheckerStep s (ckGroups s k j) l := by
  unfold ckGroups
  extract_lets c g s1
  have h1 : CheckerStep s s1 l := setCk_step s k _ l
  split
  · exact .refl s l
  · split
    · exact h1.trans (ckFail_step s1 k hf hs)
    · exact h1

/-- The fields in which the failure of checkers shows. -/
def failFlds : List Fld := [R.AFE_CKk_STAT_FAILED 0, R.AFE_CKk_STAT_FAILED 1, R.AFE_CKk_STAT_FAILED 2, R.AFE_CKk_STAT_FAILED 3,
  R.AFE_CKk_STAT_FAILED_STK 0, R.AFE_CKk_STAT_FAILED_STK 1, R.AFE_CKk_STAT_FAILED_STK 2, R.AFE_CKk_STAT_FAILED_STK 3]

/-- All four checkers declared failed. -/
def failAll (s : State) : State := ckFail (ckFail (ckFail (ckFail s 0) 1) 2) 3

theorem failAll_step (s : State) : CheckerStep s (failAll s) failFlds :=
  (((ckFail_step s 0 (by decide) (by decide)).trans (ckFail_step _ 1 (by decide) (by decide))).trans
    (ckFail_step _ 2 (by decide) (by decide))).trans (ckFail_step _ 3 (by decide) (by decide))

theorem ckFail_keeps {s : State} {j : Nat} (h : s.on (R.AFE_CKk_STAT_FAILED j) = true) (k : Nat) (hjk : j < 4 ∧ k < 4) :
    (ckFail s k).on (R.AFE_CKk_STAT_FAILED j) = true := by
  by_cases he : j = k
  · exact he ▸ ckFail_failed s j
  · rw [on_of_rd ((ckFail_step s k (l := [R.AFE_CKk_STAT_FAILED k, R.AFE_CKk_STAT_FAILED_STK k]) (by simp) (by simp)).flds
      (R.AFE_CKk_STAT_FAILED j) ⟨key_ne (by omega), key_ne (by omega)⟩), h]

theorem failAll_failed (s : State) {k : Nat} (hk : k < 4) : (failAll s).on (R.AFE_CKk_STAT_FAILED k) = true := by
  interval_cases k
  · exact ckFail_keeps (ckFail_keeps (ckFail_keeps (ckFail_failed s 0) 1 (by decide)) 2 (by decide)) 3 (by decide)
  · exact ckFail_keeps (ckFail_keeps (ckFail_failed _ 1) 2 (by decide)) 3 (by decide)
  · exact ckFail_keeps (ckFail_failed _ 2) 3 (by decide)
  · exact ckFail_failed _ 3

/-! ### References handled as failed -/

/-- A group's failure noted: the instant, where it is new. -/
def refNoted (s : State) (g : Nat) : State :=
  if (s.rd R.AFE_GRP_LIVE_REF_FAIL).testBit g then s else setAfe s { s.afe with refAt := mput s.afe.refAt g (tb2U s) }

/-- A group's failure shown and told, before it reaches the checkers. -/
def refShown (s : State) (g : Nat) : State :=
  (((refNoted s g).setBit R.AFE_GRP_LIVE_REF_FAIL g).setBit R.AFE_GRP_STAT_REF_FAIL_STK g).itemOn 14 g g

theorem refFail_eq (s : State) (g : Nat) : refFail s g = if g = 12 then failAll (refShown s g) else refShown s g := rfl

theorem refFail_step (s : State) (g : Nat) : CheckerStep (refShown s g) (refFail s g) failFlds := by
  rw [refFail_eq]
  split
  · exact failAll_step _
  · exact .refl _ _

/-- The fields in which a failed reference shows, by itself and with the checkers. -/
def refFlds : List Fld := R.AFE_GRP_LIVE_REF_FAIL :: R.AFE_GRP_STAT_REF_FAIL_STK :: failFlds

section Ref
variable (s : State) (g : Nat)

theorem refNoted_regs : (refNoted s g).regs = s.regs := by
  unfold refNoted
  split <;> rfl

theorem refShown_kept : KeptBut s (refShown s g) [R.AFE_GRP_LIVE_REF_FAIL, R.AFE_GRP_STAT_REF_FAIL_STK] :=
  (((keptBut_of_regs (refNoted_regs s g) _).wr (by decide) _).wr (by decide) _).of_regs (itemOn_regs ..)

theorem refFail_kept : KeptBut s (refFail s g) refFlds :=
  ((refShown_kept s g).mono (by decide)).trans ((refFail_step s g).flds.mono (by decide))

theorem refFail_live {j : Nat} (hj : j < 13) :
    ((refFail s g).rd R.AFE_GRP_LIVE_REF_FAIL).testBit j = ((s.rd R.AFE_GRP_LIVE_REF_FAIL).testBit j || decide (g = j)) := by
  rw [(refFail_step s g).flds R.AFE_GRP_LIVE_REF_FAIL (by decide), refShown, rd_of_regs (itemOn_regs ..), State.setBit,
    rd_wr_ne _ _ (by decide), testBit_setBit _ _ hj, rd_of_regs (refNoted_regs s g)]

theorem refFail_stk (hg : g < 13) : ((refFail s g).rd R.AFE_GRP_STAT_REF_FAIL_STK).testBit g = true := by
  rw [(refFail_step s g).flds R.AFE_GRP_STAT_REF_FAIL_STK (by decide), refShown, rd_of_regs (itemOn_regs ..), testBit_setBit _ _ hg,
    decide_eq_true rfl, Bool.or_true]

theorem refFail_item : (refFail s g).itemLive 14 g = true := by
  rw [(refFail_step s g).items 14 g (.inl (by decide)), refShown, itemLive_itemOn_self]

theorem refFail_refBad : (refFail s g).afe.refBad = s.afe.refBad := by
  rw [(refFail_step s g).afe, refShown, itemOn_afe, setBit_afe, setBit_afe, refNoted]
  split <;> rfl

theorem refFail_refAt (h : (s.rd R.AFE_GRP_LIVE_REF_FAIL).testBit g = false) : mget (refFail s g).afe.refAt g 0 = tb2U s := by
  rw [(refFail_step s g).afe, refShown, itemOn_afe, setBit_afe, setBit_afe, refNoted, h]
  exact mget_mput_self ..

end Ref

end Sys2Proof.Machine
end

section
/-! PROOFS. References, AFE mode and reference source: the commands (R51 to R56, R64). -/
namespace Sys2Proof.Machine

/-! ### A reference leaves its window and comes back (R51, R52) -/

/-- Group `g` has left its window now. -/
def leftWindow (s : State) (g : Nat) : State :=
  setAfe s { s.afe with refBad := (g, tb2U s) :: s.afe.refBad.filter fun e => e.1 != g }

theorem exec_refWindowExit (g : Fin 13) {s : State} (hp : s.pg 10 = true) : exec (.refWindowExit g) s =
    .next (if s.on R.AFE_STAT_REF_RDY then refFail (leftWindow s g) g else leftWindow s g) := by
  simp only [exec, execRefWindowExit, hp, Bool.not_true, Bool.false_eq_true, if_false, leftWindow]

/-- The registers in which a failed reference shows, for a primary group. -/
def refRegs : List (Nat × Nat) := [(0x600008, 0x600010)]

/-- The same with the checkers' STAT registers, for group 12. -/
def refCkRegs : List (Nat × Nat) :=
  [(0x600008, 0x600010), (0x600104, 0x600108), (0x600114, 0x600118), (0x600124, 0x600128), (0x600134, 0x600138)]

theorem refFlds_within : refFlds.Forall fun g => Within g refCkRegs :=
  List.forall_iff_forall_mem.mpr (by unfold Within; decide)

theorem refFail_regsKept (s : State) (g : Nat) : RegsKept s (refFail s g) (if g = 12 then refCkRegs else refRegs) := by
  split
  next => exact (refFail_kept s g).regsKept refFlds_within
  next h =>
    rw [refFail_eq, if_neg h]
    exact (refShown_kept s g).regsKept ⟨within_head (by decide), within_head (by decide)⟩

theorem refWindowExit_ready (g : Fin 13) {s : State} (hp : s.pg 10 = true) (hr : s.on R.AFE_STAT_REF_RDY = true) :
    Runs (.refWindowExit g) s fun t => (t.rd R.AFE_GRP_LIVE_REF_FAIL).testBit g = true ∧
      (t.rd R.AFE_GRP_STAT_REF_FAIL_STK).testBit g = true ∧ t.itemLive 14 g = true ∧ SameBytes s t ∧
      ((s.rd R.AFE_GRP_LIVE_REF_FAIL).testBit g = false → mget t.afe.refAt g 0 = tb2U s) ∧
      (g.val = 12 → ∀ k < 4, t.on (R.AFE_CKk_STAT_FAILED k) = true) ∧
      RegsKept s t (if g.val = 12 then refCkRegs else refRegs) := by
  have hmem : (leftWindow s g).mem = s.mem := setAfe_mem ..
  have hregs : RegsKept s (leftWindow s g) (if g.val = 12 then refCkRegs else refRegs) :=
    regsKept_of_regs (regsKept_refl s _) (setAfe_regs ..)
  refine ⟨refFail (leftWindow s g) g, by rw [exec_refWindowExit g hp, if_pos hr], ?_, refFail_stk _ _ g.isLt, refFail_item _ _,
    sameBytes_of_mem ((refFail_mem ..).trans hmem), fun h => refFail_refAt (leftWindow s g) g h, fun h k hk => ?_,
    regsKept_trans hregs (refFail_regsKept _ _)⟩
  · rw [refFail_live _ _ g.isLt, decide_eq_true rfl, Bool.or_true]
  · rw [refFail_eq, if_pos h]
    exact failAll_failed _ hk

theorem refWindowExit_settling (g : Fin 13) {s : State} (hp : s.pg 10 = true) (hr : s.on R.AFE_STAT_REF_RDY = false) :
    Runs (.refWindowExit g) s fun t => t.regs = s.regs ∧ (g.val, tb2U s) ∈ t.afe.refBad ∧ SameBytes s t :=
  ⟨leftWindow s g, by rw [exec_refWindowExit g hp, hr]; rfl, rfl, List.mem_cons_self, fun _ => rfl⟩

/-- The group's reference left its window less than 2 ms ago. -/
def ExitedSoon (s : State) (g : Nat) : Prop := ∃ e ∈ s.afe.refBad, e.1 = g ∧ tb2U s < e.2 + 2000000 * 2 ^ 32

theorem any_exitedSoon (s : State) (g : Nat) :
    (s.afe.refBad.any fun e => e.1 == g && decide (tb2U s < e.2 + 2000000 * nsU)) = true ↔ ExitedSoon s g := by
  simp only [List.any_eq_true, Bool.and_eq_true, beq_iff_eq, decide_eq_true_eq]
  exact Iff.rfl

/-- Group `g` is inside its window. -/
def backInside (s : State) (g : Nat) : State := setAfe s { s.afe with refBad := s.afe.refBad.filter fun e => e.1 != g }

/-- Modulator `m` has borne U and I from TB2 instant `a` to `b`. -/
def markUI (a b : Nat) (s : State) (m : Nat) : State := markTag (markTag s m 0 a b) m 3 a b

theorem markUI_steps (a b : Nat) (s : State) (m : Nat) : TagSteps s (markUI a b s m) := (markTag_steps ..).trans (markTag_steps ..)

theorem markUI_self {a b : Nat} {s : State} (m : Nat) (hb : tb2U s < b + 40000000 * nsU) :
    Spec.Bears (markUI a b s m) m 0 a b ∧ Spec.Bears (markUI a b s m) m 3 a b :=
  ⟨(markTag_steps ..).young m 0 a b hb (markTag_self s m 0 a b), markTag_self _ m 3 a b⟩

/-- The tags of group `g`'s modulators at the end of its failure. -/
def recoveryTags (s : State) (g : Nat) : State := (groupMods g).foldl (markUI (mget s.afe.refAt g 0) (tb2U s)) (backInside s g)

theorem recoveryTags_steps (s : State) (g : Nat) : TagSteps (backInside s g) (recoveryTags s g) := .foldl (markUI_steps _ _) _ _

theorem recoveryTags_bears (s : State) {g m : Nat} (hm : m ∈ groupMods g) :
    Spec.Bears (recoveryTags s g) m 0 (mget s.afe.refAt g 0) (tb2U s) ∧
    Spec.Bears (recoveryTags s g) m 3 (mget s.afe.refAt g 0) (tb2U s) := by
  have hnow : tb2U (backInside s g) < tb2U s + 40000000 * nsU := Nat.lt_add_of_pos_right (by decide)
  exact ⟨foldl_bears (markUI_steps _ _) hm hnow fun v hv => (markUI_self m (hv.tb2U_eq ▸ hnow)).1,
    foldl_bears (markUI_steps _ _) hm hnow fun v hv => (markUI_self m (hv.tb2U_eq ▸ hnow)).2⟩

theorem exec_refRecoveryEnd {g : Fin 13} {s : State} (hp : s.pg 10 = true) (hl : (s.rd R.AFE_GRP_LIVE_REF_FAIL).testBit g = true)
    (hs : ¬ ExitedSoon s g) :
    exec (.refRecoveryEnd g) s = .next (((recoveryTags s g).clrBit R.AFE_GRP_LIVE_REF_FAIL g).itemOff 14 g) := by
  have hany := Bool.eq_false_iff.mpr fun h => hs ((any_exitedSoon s g).mp h)
  simp only [exec, execRefRecoveryEnd, hp, hany, hl, Bool.not_true, Bool.or_false, Bool.false_eq_true, if_false]
  rfl

theorem refRecoveryEnd_soon {g : Fin 13} {s : State} (hs : ExitedSoon s g) : exec (.refRecoveryEnd g) s = .next s := by
  simp only [exec, execRefRecoveryEnd, (any_exitedSoon s g).mpr hs, Bool.or_true, if_true]

theorem refRecoveryEnd_over {g : Fin 13} {s : State} (hp : s.pg 10 = true) (hl : (s.rd R.AFE_GRP_LIVE_REF_FAIL).testBit g = true)
    (hs : ¬ ExitedSoon s g) : Runs (.refRecoveryEnd g) s fun t => (∀ e ∈ t.afe.refBad, e.1 ≠ g.val) ∧
      t.itemLive 14 g = false ∧ (∀ j < 13, (t.rd R.AFE_GRP_LIVE_REF_FAIL).testBit j =
        ((s.rd R.AFE_GRP_LIVE_REF_FAIL).testBit j && decide (j ≠ g.val))) ∧
      (∀ m ∈ groupMods g, Spec.Bears t m 0 (mget s.afe.refAt g 0) (tb2U s) ∧ Spec.Bears t m 3 (mget s.afe.refAt g 0) (tb2U s)) ∧
      SameBytes s t ∧ RegsKept s t [(0x60000C, 0x600010)] := by
  have htags := recoveryTags_steps s g
  have hkept : KeptBut s (recoveryTags s g) [R.AFE_GRP_LIVE_REF_FAIL] := keptBut_of_regs htags.regs _
  refine ⟨_, exec_refRecoveryEnd hp hl hs, fun e he => ?_, itemLive_itemOff_self .., fun j hj => ?_,
    fun m hm => recoveryTags_bears s hm, sameBytes_of_mem htags.mem, ?_⟩
  · rw [itemOff_afe, clrBit_afe, htags.afe] at he
    simpa using (List.mem_filter.mp he).2
  · rw [rd_of_regs (itemOff_regs ..), testBit_clrBit _ _ hj, rd_of_regs htags.regs]
    rfl
  · exact KeptBut.regsKept (l := [R.AFE_GRP_LIVE_REF_FAIL]) (hkept.wr (by decide) _) (within_head (by decide))

/-! ### The end of the settling time (R53) -/

/-- What settling a group may do: show it failed, or take it from the groups outside their windows. -/
structure Settles (s t : State) : Prop where
  flds : KeptBut s t refFlds
  bad : ∀ e ∈ t.afe.refBad, e ∈ s.afe.refBad
  live : ∀ j < 13, (s.rd R.AFE_GRP_LIVE_REF_FAIL).testBit j = true → (t.rd R.AFE_GRP_LIVE_REF_FAIL).testBit j = true

/-- Group `g` is shown failed, or is none of those outside their windows. -/
def Settled (g : Nat) (t : State) : Prop :=
  (t.rd R.AFE_GRP_LIVE_REF_FAIL).testBit g = true ∨ ∀ x ∈ t.afe.refBad, x.1 ≠ g

theorem Settles.trans {s t u : State} (h : Settles s t) (hu : Settles t u) : Settles s u :=
  ⟨h.flds.trans hu.flds, fun e he => h.bad e (hu.bad e he), fun j hj hb => hu.live j hj (h.live j hj hb)⟩

theorem Settles.keeps {s t : State} {g : Nat} (h : Settles s t) (hg : g < 13) (hs : Settled g s) : Settled g t :=
  hs.imp (h.live g hg) fun hb x hx => hb x (h.bad x hx)

/-- The free value decides whether the group is handled as failed or proceeds as one inside its window. -/
theorem settleGroup_cases (s : State) (g : Nat) :
    settleGroup s g = refFail (s.fresh 1).2 g ∨ settleGroup s g = backInside (s.fresh 1).2 g := by
  unfold settleGroup
  extract_lets p
  split
  · exact .inl rfl
  · exact .inr rfl

theorem settleGroup_settles (s : State) (g : Nat) : Settles s (settleGroup s g) := by
  rcases settleGroup_cases s g with he | he <;> rw [he]
  · refine ⟨(keptBut_of_regs (fresh_regs s 1) _).trans (refFail_kept _ g), fun e h => ?_, fun j hj h => ?_⟩
    · rwa [refFail_refBad, fresh_afe] at h
    · rw [refFail_live _ _ hj, rd_of_regs (fresh_regs s 1), h, Bool.true_or]
  · exact ⟨keptBut_of_regs rfl _, fun e h => (List.mem_filter.mp h).1, fun j _ h => h⟩

theorem settleGroup_settled (s : State) {g : Nat} (hg : g < 13) : Settled g (settleGroup s g) := by
  rcases settleGroup_cases s g with he | he <;> rw [he]
  · exact .inl (by rw [refFail_live _ _ hg, decide_eq_true rfl, Bool.or_true])
  · exact .inr fun x hx => by simpa using (List.mem_filter.mp hx).2

theorem settleGroup_live (s : State) {g j : Nat} (hj : j < 13) (hne : g ≠ j) :
    ((settleGroup s g).rd R.AFE_GRP_LIVE_REF_FAIL).testBit j = (s.rd R.AFE_GRP_LIVE_REF_FAIL).testBit j := by
  rcases settleGroup_cases s g with he | he <;> rw [he]
  · rw [refFail_live _ _ hj, rd_of_regs (fresh_regs s 1), decide_eq_false hne, Bool.or_false]
  · rfl

section Fold
variable (s : State) (l : List Nat)

theorem foldl_settles : Settles s (l.foldl settleGroup s) :=
  List.foldlRecOn (motive := Settles s) l settleGroup ⟨keptBut_refl s _, fun _ h => h, fun _ _ h => h⟩
    fun u hu g _ => hu.trans (settleGroup_settles u g)

theorem foldl_settled {g : Nat} (hg : g < 13) (hl : g ∈ l) : Settled g (l.foldl settleGroup s) :=
  foldl_establishes (g := settleGroup) (I := fun _ => True) (P := Settled g) (fun _ _ h => h)
    (fun u _ => settleGroup_settled u hg) (fun u x _ h => (settleGroup_settles u x).keeps hg h) hl trivial

theorem foldl_settle_live {j : Nat} (hj : j < 13) (hl : j ∉ l) :
    ((l.foldl settleGroup s).rd R.AFE_GRP_LIVE_REF_FAIL).testBit j = (s.rd R.AFE_GRP_LIVE_REF_FAIL).testBit j :=
  List.foldlRecOn (motive := fun u => (u.rd R.AFE_GRP_LIVE_REF_FAIL).testBit j = (s.rd R.AFE_GRP_LIVE_REF_FAIL).testBit j)
    l settleGroup rfl fun u hu _ hg => (settleGroup_live u hj fun he => hl (he ▸ hg)).trans hu

end Fold

/-- The tags of all modulators at the end of the settling time. -/
def settleTags (s : State) : State := (List.range 52).foldl (markUI s.afe.pgAt (tb2U s)) s

theorem settleTags_steps (s : State) : TagSteps s (settleTags s) := .foldl (markUI_steps _ _) _ _

theorem exec_refSettleEnd {s : State} (hp : s.pg 10 = true) (hr : s.on R.AFE_STAT_REF_RDY = false)
    (hdue : s.afe.pgAt + 2000000 * 2 ^ 32 ≤ tb2U s) :
    exec .refSettleEnd s = .next ((s.afe.refBad.map (·.1)).foldl settleGroup ((settleTags s).wrb R.AFE_STAT_REF_RDY true)) := by
  have hlt : decide (tb2U s < s.afe.pgAt + 2000000 * nsU) = false := decide_eq_false (by simp only [nsU]; omega)
  have hbad : (settleTags s).afe.refBad = s.afe.refBad := by rw [(settleTags_steps s).afe]
  rw [← hbad]
  simp only [exec, execRefSettleEnd, hp, hr, hlt, Bool.not_true, Bool.or_self, Bool.false_eq_true, if_false]
  rfl

theorem refSettleEnd_early {s : State} (h : s.on R.AFE_STAT_REF_RDY = true ∨ ¬ s.afe.pgAt + 2000000 * 2 ^ 32 ≤ tb2U s) :
    exec .refSettleEnd s = .next s := by
  rw [exec, execRefSettleEnd, if_pos]
  rcases h with h | h
  · rw [h, Bool.true_or, Bool.true_or]
  · rw [decide_eq_true (by simp only [nsU]; omega), Bool.or_true]

theorem refSettleEnd_due {s : State} (hp : s.pg 10 = true) (hr : s.on R.AFE_STAT_REF_RDY = false)
    (hdue : s.afe.pgAt + 2000000 * 2 ^ 32 ≤ tb2U s) : Runs .refSettleEnd s fun t => t.on R.AFE_STAT_REF_RDY = true ∧
      (∀ e ∈ s.afe.refBad, e.1 < 13 → (t.rd R.AFE_GRP_LIVE_REF_FAIL).testBit e.1 = true ∨ ∀ x ∈ t.afe.refBad, x.1 ≠ e.1) ∧
      (∀ j < 13, (∀ e ∈ s.afe.refBad, e.1 ≠ j) →
        (t.rd R.AFE_GRP_LIVE_REF_FAIL).testBit j = (s.rd R.AFE_GRP_LIVE_REF_FAIL).testBit j) ∧ SameBytes s t ∧
      RegsKept s t [(0x600004, 0x600010), (0x600104, 0x600108), (0x600114, 0x600118), (0x600124, 0x600128), (0x600134, 0x600138)] := by
  have htags := settleTags_steps s
  have hfold := foldl_settles ((settleTags s).wrb R.AFE_STAT_REF_RDY true) (s.afe.refBad.map (·.1))
  refine ⟨_, exec_refSettleEnd hp hr hdue, ?_, fun e he hlt => foldl_settled _ _ hlt (List.mem_map_of_mem he), fun j hj hno => ?_, ?_, ?_⟩
  · rw [on_of_rd (hfold.flds R.AFE_STAT_REF_RDY (by decide)), on_wrb_self _ _ _ rfl]
  · rw [foldl_settle_live _ _ hj, rd_wrb_ne _ _ (by decide), rd_of_regs htags.regs]
    rintro hmem
    obtain ⟨e, he, hej⟩ := List.mem_map.mp hmem
    exact hno e he hej
  · exact sameBytes_of_mem ((foldl_mem settleGroup_mem _ _).trans ((wrb_mem ..).trans htags.mem))
  · have hready : KeptBut s ((settleTags s).wrb R.AFE_STAT_REF_RDY true) (R.AFE_STAT_REF_RDY :: refFlds) :=
      (keptBut_of_regs htags.regs _).wrb List.mem_cons_self _
    exact (hready.trans (hfold.flds.mono (List.subset_cons_self _ _))).regsKept
      (List.forall_iff_forall_mem.mpr (by unfold Within; decide))

/-! ### AFE mode and reference source (R55, R56, R64) -/

theorem lpmFail_lt {s : State} {v : Bool} {n : Nat} (h : lpmFail s v = some n) : n < 48 :=
  List.mem_range.mp (List.mem_of_find?_eq_some h)

theorem lpmRequest_taken {v : Bool} {s : State} (hp : s.pg 10 = true) (h : lpmFail (s.wrb R.AFE_CTL_LPM v) v = none) :
    Runs (.lpmRequest v) s fun t => t.on R.AFE_CTL_LPM = v ∧
      t.afe.lpmReq = (if v = s.on R.AFE_STAT_LPM_ACT then none else some (v, tb2U s)) ∧ SameBytes s t ∧
      RegsKept s t [(0x600000, 0x600004)] := by
  have hact : lpmAct (s.wrb R.AFE_CTL_LPM v) = s.on R.AFE_STAT_LPM_ACT := on_of_rd (rd_wrb_ne _ _ (by decide))
  have hx : exec (.lpmRequest v) s = .next (setAfe (s.wrb R.AFE_CTL_LPM v) { s.afe with
      lpmReq := if v = s.on R.AFE_STAT_LPM_ACT then none else some (v, tb2U s) }) := by
    simp only [exec, execLpmRequest, hp, h, hact, Bool.not_true, Bool.false_eq_true, if_false]
    rfl
  refine ⟨_, hx, on_wrb_self _ _ _ rfl, rfl, fun _ => rfl, ?_⟩
  exact KeptBut.regsKept (l := [R.AFE_CTL_LPM]) ((keptBut_refl s _).wrb (by decide) _) (within_head (by decide))

theorem lpmRequest_refused {v : Bool} {s : State} (hp : s.pg 10 = true) {n : Nat} (h : lpmFail (s.wrb R.AFE_CTL_LPM v) v = some n) :
    Runs (.lpmRequest v) s fun t => t.on R.AFE_STAT_LPM_REFUSED = true ∧
      t.rd R.AFE_STAT_LPM_CH = n ∧ t.afe = s.afe ∧ t.on R.AFE_STAT_LPM_ACT = s.on R.AFE_STAT_LPM_ACT ∧
      (∃ e, t.yew.cross = s.yew.cross ++ [e] ∧ e.src = 6 ∧ e.code = 1) ∧ SameBytes s t ∧ RegsKept s t [(0x600000, 0x600008)] := by
  have hx : exec (.lpmRequest v) s =
      .next ((((s.wrb R.AFE_CTL_LPM v).wrb R.AFE_STAT_LPM_REFUSED true).wr R.AFE_STAT_LPM_CH n).logIx 6 1 n) := by
    simp only [exec, execLpmRequest, hp, h, Bool.not_true, Bool.false_eq_true, if_false]
  have hkept : KeptBut s (((s.wrb R.AFE_CTL_LPM v).wrb R.AFE_STAT_LPM_REFUSED true).wr R.AFE_STAT_LPM_CH n)
      [R.AFE_CTL_LPM, R.AFE_STAT_LPM_REFUSED, R.AFE_STAT_LPM_CH] :=
    (((keptBut_refl s _).wrb (by decide) _).wrb (by decide) _).wr (by decide) _
  refine ⟨_, hx, ?_, ?_, rfl, ?_, ⟨_, rfl, rfl, rfl⟩, fun _ => rfl, ?_⟩
  · rw [on_of_rd (rd_of_regs (logIx_regs ..) _), on_of_rd (rd_wr_ne _ _ (by decide)), on_wrb_self _ _ _ rfl]
  · rw [rd_of_regs (logIx_regs ..), rd_wr_self]
    exact Nat.mod_eq_of_lt (show n < 64 from (lpmFail_lt h).trans (by decide))
  · exact on_of_rd (hkept _ (by decide))
  · exact hkept.regsKept ⟨within_head (by decide), within_head (by decide), within_head (by decide)⟩

/-- All modulators tagged U for 32 bits. -/
def tagAll (s : State) : State := (List.range 52).foldl markU32 s

theorem tagAll_steps (s : State) : TagSteps s (tagAll s) := .foldl markU32_steps _ s

/-- What a change of mode or reference source does after its registers: every dwell void, 32 bits of every modulator tagged U. -/
theorem voidAll_tagAll {s u : State} (h : TagSteps s u) (hU : ∀ m < 52, Spec.Bears u m 0 (tb2U s) (tb2U s + 32 * tmNs (lpmAct s) * 2 ^ 32)) :
    (∀ k < 4, (mget (voidAll u).afe.ck k {}).void = true) ∧ (∀ m < 52, Spec.BearsU32 s (voidAll u) m) ∧ (voidAll u).mem = s.mem ∧
      (voidAll u).regs = s.regs ∧ (voidAll u).afe.lpmReq = s.afe.lpmReq := by
  have hregs : (voidAll u).regs = s.regs := (voidAll_regs u).trans h.regs
  refine ⟨fun k hk => voidAll_void u hk, fun m hm => ?_, (voidAll_mem u).trans h.mem, hregs, ?_⟩
  · exact bearsU32_of (on_of_rd (rd_of_regs hregs _)) ((voidAll_step u []).bears (hU m hm))
  · rw [(voidAll_step u []).afe, h.afe]

theorem lpmChangeEffect_due {v : Bool} {s : State} {a : Nat} (hp : s.pg 10 = true) (hreq : s.afe.lpmReq = some (v, a))
    (ha : a + 1000 * 2 ^ 32 ≤ tb2U s) : Runs .lpmChangeEffect s fun t => t.on R.AFE_STAT_LPM_ACT = v ∧ t.afe.lpmReq = none ∧
      (∀ k < 4, (mget t.afe.ck k {}).void = true) ∧ (∀ m < 52, Spec.BearsU32 s t m) ∧ SameBytes s t ∧
      RegsKept s t [(0x600004, 0x600008)] := by
  set s1 := (setAfe s { s.afe with lpmReq := none }).wrb R.AFE_STAT_LPM_ACT v with hs1
  have hx : exec .lpmChangeEffect s = .next (voidAll (tagAll s1)) := by
    rw [exec, execLpmChangeEffect, hp, if_pos rfl, hreq]
    exact congrArg _ (if_neg (Nat.not_lt.mpr ha))
  obtain ⟨hvoid, hU, hmem, hregs, hlpm⟩ := voidAll_tagAll (tagAll_steps s1) fun m hm => foldl_markU32_bears s1 hm
  have hkept : KeptBut s s1 [R.AFE_STAT_LPM_ACT] := (keptBut_of_regs (setAfe_regs ..) _).wrb (by decide) _
  exact ⟨_, hx, (on_of_rd (rd_of_regs hregs _)).trans (on_wrb_self _ _ _ rfl), hlpm, hvoid, hU, sameBytes_of_mem hmem,
    (hkept.of_regs hregs).regsKept (within_head (by decide))⟩

theorem lpmChangeEffect_early {v : Bool} {s : State} {a : Nat} (hp : s.pg 10 = true) (hreq : s.afe.lpmReq = some (v, a))
    (ha : tb2U s < a + 1000 * 2 ^ 32) : exec .lpmChangeEffect s = .next s := by
  rw [exec, execLpmChangeEffect, hp, if_pos rfl, hreq]
  exact congrArg _ (if_pos ha)

theorem refselChange_taken {v : Bool} {s : State} (hp : s.pg 10 = true) (hl : s.on R.AFE_CTL_LOCK = false)
    (hv : v ≠ s.on R.AFE_CTL_REFSEL) : Runs (.refselChange v) s fun t => t.on R.AFE_CTL_REFSEL = v ∧
      t.on R.AFE_STAT_REFSEL_ACT = v ∧ (∀ k < 4, (mget t.afe.ck k {}).void = true) ∧ (∀ m < 52, Spec.BearsU32 s t m) ∧
      SameBytes s t ∧ RegsKept s t [(0x600000, 0x600008)] := by
  set s1 := (s.wrb R.AFE_CTL_REFSEL v).wrb R.AFE_STAT_REFSEL_ACT v with hs1
  have hx : exec (.refselChange v) s = .next (voidAll (tagAll s1)) := by
    simp only [exec, execRefselChange, hp, hl, beq_eq_false_iff_ne.mpr hv, Bool.not_true, Bool.or_self, Bool.false_eq_true, if_false, hs1,
      tagAll]
  obtain ⟨hvoid, hU, hmem, hregs, -⟩ := voidAll_tagAll (tagAll_steps s1) fun m hm => foldl_markU32_bears s1 hm
  have hkept : KeptBut s s1 [R.AFE_CTL_REFSEL, R.AFE_STAT_REFSEL_ACT] := ((keptBut_refl s _).wrb (by decide) _).wrb (by decide) _
  refine ⟨_, hx, ?_, (on_of_rd (rd_of_regs hregs _)).trans (on_wrb_self _ _ _ rfl), hvoid, hU, sameBytes_of_mem hmem,
    (hkept.of_regs hregs).regsKept ⟨within_head (by decide), within_head (by decide)⟩⟩
  rw [on_of_rd (rd_of_regs hregs _), on_of_rd (rd_wrb_ne _ _ (by decide)), on_wrb_self _ _ _ rfl]

theorem refselChange_ignored {v : Bool} {s : State} (h : s.on R.AFE_CTL_LOCK = true ∨ v = s.on R.AFE_CTL_REFSEL) :
    exec (.refselChange v) s = .next s := by
  rw [exec, execRefselChange, if_pos]
  rcases h with h | h
  · rw [h, Bool.or_true, Bool.true_or]
  · rw [h, beq_self_eq_true, Bool.or_true]

end Sys2Proof.Machine
end

section
/-! PROOFS. Overloads (R59 to R62), gain and enable of an input (R63, R65): the commands. -/
namespace Sys2Proof.Machine

/-! ### What an overload changes of registers -/

/-- The registers in which an overload of primary `m` shows: GRP_LIVE and the STAT registers of its group. -/
def overloadRegs (m : Nat) : List (Nat × Nat) :=
  (0x60000C, 0x600010) :: (groupMods (refGroup m)).map fun x => (0x601004 + 0x20 * x, 0x601008 + 0x20 * x)

/-- An overload command of modulator `m` leaves memory alone; a primary's changes its group's registers, a checker's none. -/
def OverloadKept (m : Nat) (s t : State) : Prop :=
  SameBytes s t ∧ (m < 48 → RegsKept s t (overloadRegs m)) ∧ (48 ≤ m → t.regs = s.regs)

theorem self_mem_group {m : Nat} (hm : m < 48) : m ∈ groupMods (refGroup m) := (groupMods_primary hm).mpr rfl

theorem within_overloadRegs {m x : Nat} (hm : m < 48) (hx : x ∈ groupMods (refGroup m)) {lo : Nat} (hlo : lo < 32) {w r : Nat} {c : Acc} :
    Within ⟨.sys, 0x601004 + 0x20 * x, lo, w, c, r⟩ (overloadRegs m) := by
  have hlt : x < 48 := by
    have := (groupMods_primary hm).mp hx
    omega
  exact ⟨hlo, show 0x601004 + 0x20 * x < 0x4000000 by omega, _, List.mem_cons_of_mem _ (List.mem_map_of_mem hx), le_rfl,
    show 0x601004 + 0x20 * x < 0x601008 + 0x20 * x by omega⟩

theorem overloadFlds_within {m : Nat} (hm : m < 48) : (overloadFlds m).Forall fun g => Within g (overloadRegs m) := by
  refine List.forall_iff_forall_mem.mpr fun g hg => ?_
  simp only [overloadFlds, List.mem_cons, List.mem_flatMap, List.not_mem_nil, or_false] at hg
  rcases hg with rfl | ⟨x, hx, rfl | rfl⟩
  · exact within_head (by decide)
  · exact within_overloadRegs hm hx (by decide)
  · exact within_overloadRegs hm hx (by decide)

theorem overloadKept_shown {s u : State} (m : Nat) (hr : u.regs = s.regs) (hm : u.mem = s.mem) :
    OverloadKept m s (showOverload u m) :=
  ⟨sameBytes_of_mem ((showOverload_mem ..).trans hm),
    fun h => ((keptBut_of_regs hr _).trans (showOverload_kept u m)).regsKept (overloadFlds_within h),
    fun h => by rw [showOverload_checker u h, hr]⟩

theorem bears_of_afe {s t : State} (h : t.afe = s.afe) {m letter a b : Nat} (hb : Spec.Bears s m letter a b) : Spec.Bears t m letter a b := by
  rwa [Spec.Bears, h]

/-! ### A run of 48 bits (R59, R60, R62) -/

theorem inLoopReset_iff (s : State) (m : Nat) : inLoopReset s m = true ↔ ∃ e ∈ mget s.afe.rst m [], tb2U s < e.1 := by
  simp only [inLoopReset, List.any_eq_true, decide_eq_true_eq]

theorem inOvl_iff (s : State) (m : Nat) : inOvl s m = true ↔ ∃ a, (m, a) ∈ s.afe.ovl := by
  simp only [inOvl, List.any_eq_true, beq_iff_eq]
  exact ⟨fun ⟨e, he, hm⟩ => ⟨e.2, hm ▸ he⟩, fun ⟨a, ha⟩ => ⟨_, ha, rfl⟩⟩

theorem startLoopReset_head (s : State) (m : Nat) (pos : Bool) : (mget (startLoopReset s m pos).afe.rst m []).head? =
    some (tb2U s + 16 * tmNs (s.on R.AFE_STAT_LPM_ACT) * 2 ^ 32, pos) := by
  rw [startLoopReset, setAfe, mmod, mget_mput_self]
  rfl

/-- A loop reset that begins an overload interval. -/
def overloadBegun (s : State) (m : Nat) (pos : Bool) : State :=
  setAfe (startLoopReset s m pos) { (startLoopReset s m pos).afe with ovl := (m, tb2U s) :: s.afe.ovl }

/-- An interval of a primary begun: counted, and remembered. -/
def overloadCounted (s : State) (m : Nat) (pos : Bool) : State :=
  ((overloadBegun s m pos).wrb (R.AFE_CHn_STAT_OVL_STK m) true).sat1 (R.AFE_CHn_STAT_OVL_CNT m)

section Detect
variable {m : Fin 52} {s : State} (pos : Bool)

theorem overloadDetect_ignored (h : modEnabled s m = false ∨ inLoopReset s m = true) : exec (.overloadDetect (m, pos)) s = .next s := by
  rw [exec, execOverloadDetect]
  refine congrArg _ (if_pos ?_)
  rcases h with h | h
  · simp only [h, Bool.not_false, Bool.or_true, Bool.true_or]
  · simp only [h, Bool.or_true]

variable (hp : s.pg 10 = true) (he : modEnabled s m = true) (hr : inLoopReset s m = false)
include hp he hr

theorem exec_overloadDetect_inside (ho : inOvl s m = true) : exec (.overloadDetect (m, pos)) s = .next (startLoopReset s m pos) := by
  simp only [exec, execOverloadDetect, hp, he, hr, ho, Bool.not_true, Bool.or_self, Bool.false_eq_true, if_false, if_true]

theorem exec_overloadDetect_outside (ho : inOvl s m = false) : exec (.overloadDetect (m, pos)) s =
    .next (if m.val < 48 then showOverload (overloadCounted s m pos) m else voidDwell (overloadBegun s m pos) (m.val - 48)) := by
  simp only [exec, execOverloadDetect, hp, he, hr, ho, Bool.not_true, Bool.or_self, Bool.false_eq_true, if_false]
  rfl

end Detect

theorem overloadCounted_kept (s : State) (m : Nat) (pos : Bool) :
    KeptBut s (overloadCounted s m pos) [R.AFE_CHn_STAT_OVL_STK m, R.AFE_CHn_STAT_OVL_CNT m] :=
  ((keptBut_of_regs (t := overloadBegun s m pos) rfl _).wrb (by simp) _).wr (by simp) _

/-- A primary's overload begun: what its registers show. -/
theorem overloadCounted_shows (s : State) {m : Nat} (hm : m < 48) (pos : Bool) : let t := showOverload (overloadCounted s m pos) m
    t.on (R.AFE_CHn_STAT_OVL m) = true ∧ t.on (R.AFE_CHn_STAT_OVL_STK m) = true ∧
    t.rd (R.AFE_CHn_STAT_OVL_CNT m) = min (s.rd (R.AFE_CHn_STAT_OVL_CNT m) + 1) 65535 ∧
    ∀ x ∈ groupMods (refGroup m), x ≠ m → t.on (R.AFE_CHn_STAT_NBR x) = true := by
  intro t
  have hbegun : (m, tb2U s) ∈ (overloadCounted s m pos).afe.ovl := List.mem_cons_self
  refine ⟨?_, ?_, ?_, fun x hx hne => ?_⟩
  · rw [(showOverload_shows _ hm (self_mem_group hm)).1]
    exact (inOvl_iff _ m).mpr ⟨_, hbegun⟩
  · exact (on_of_rd ((showOverload_rd _ m (by omega)).trans (rd_sat1_ne _ (key_ne (by omega))))).trans (on_wrb_self _ _ _ rfl)
  · have hcnt := rd_sat1 ((overloadBegun s m pos).wrb (R.AFE_CHn_STAT_OVL_STK m) true) (R.AFE_CHn_STAT_OVL_CNT m)
    rw [rd_wrb_ne _ _ (show (R.AFE_CHn_STAT_OVL_CNT m).key ≠ (R.AFE_CHn_STAT_OVL_STK m).key from key_ne (by omega))] at hcnt
    exact (showOverload_rd _ m (by omega)).trans hcnt
  · rw [(showOverload_shows _ hm hx).2]
    have hg := (groupMods_primary hm).mp hx
    have hmx : m ∈ groupMods (refGroup x) := (groupMods_primary (by omega)).mpr hg.symm
    have hle : tb2U s ≤ tb2U (overloadCounted s m pos) := le_rfl
    rw [nbrTagged, decide_eq_true (show x < 48 by omega), Bool.true_and, List.any_eq_true]
    refine ⟨m, hmx, ?_⟩
    rw [bne_iff_ne.mpr hne.symm, Bool.true_and, Bool.or_eq_true]
    exact .inl (List.any_eq_true.mpr ⟨_, hbegun, by rw [beq_self_eq_true, decide_eq_true hle]; rfl⟩)

theorem overloadDetect_begins {m : Fin 52} {s : State} (pos : Bool) (hp : s.pg 10 = true) (he : modEnabled s m = true)
    (hr : inLoopReset s m = false) (ho : inOvl s m = false) : Runs (.overloadDetect (m, pos)) s fun t =>
      t.afe.ovl = (m.val, tb2U s) :: s.afe.ovl ∧
      (mget t.afe.rst m.val []).head? = some (tb2U s + 16 * tmNs (s.on R.AFE_STAT_LPM_ACT) * 2 ^ 32, pos) ∧ OverloadKept m s t ∧
      (m.val < 48 → t.on (R.AFE_CHn_STAT_OVL m.val) = true ∧ t.on (R.AFE_CHn_STAT_OVL_STK m.val) = true ∧
        t.rd (R.AFE_CHn_STAT_OVL_CNT m.val) = min (s.rd (R.AFE_CHn_STAT_OVL_CNT m.val) + 1) 65535 ∧
        ∀ x ∈ groupMods (refGroup m), x ≠ m.val → t.on (R.AFE_CHn_STAT_NBR x) = true) ∧
      (48 ≤ m.val → (mget t.afe.ck (m.val - 48) {}).void = true) := by
  refine ⟨_, exec_overloadDetect_outside pos hp he hr ho, ?_⟩
  by_cases hm : m.val < 48
  · rw [if_pos hm]
    have hkept : RegsKept s (overloadCounted s m pos) (overloadRegs m) := (overloadCounted_kept s m pos).regsKept
      ⟨within_overloadRegs hm (self_mem_group hm) (by decide), within_overloadRegs hm (self_mem_group hm) (by decide)⟩
    have hafe := showOverload_afe (overloadCounted s m pos) m
    refine ⟨congrArg Afe.ovl hafe, ?_, ⟨sameBytes_of_mem (showOverload_mem ..), fun _ => ?_, fun h => absurd h (by omega)⟩,
      fun _ => overloadCounted_shows s hm pos, fun h => absurd h (by omega)⟩
    · rw [hafe]
      exact startLoopReset_head s m pos
    · exact regsKept_trans hkept ((showOverload_kept _ _).regsKept (overloadFlds_within hm))
  · rw [if_neg hm]
    exact ⟨rfl, startLoopReset_head s m pos, ⟨fun _ => rfl, fun h => absurd h hm, fun _ => rfl⟩, fun h => absurd h hm,
      fun _ => voidDwell_void _ _⟩

theorem overloadDetect_extends {m : Fin 52} {s : State} (pos : Bool) (hp : s.pg 10 = true) (he : modEnabled s m = true)
    (hr : inLoopReset s m = false) (ho : inOvl s m = true) : Runs (.overloadDetect (m, pos)) s fun t => t.afe.ovl = s.afe.ovl ∧
      (mget t.afe.rst m.val []).head? = some (tb2U s + 16 * tmNs (s.on R.AFE_STAT_LPM_ACT) * 2 ^ 32, pos) ∧ SameBytes s t ∧
      t.regs = s.regs :=
  ⟨_, exec_overloadDetect_inside pos hp he hr ho, rfl, startLoopReset_head s m pos, fun _ => rfl, rfl⟩

/-! ### The end of an interval, and of its tail (R60, R61) -/

/-- The interval of `m` that began at `a` taken from those in progress, its tail begun. -/
def overloadEnded (s : State) (m a : Nat) : State :=
  setAfe s { s.afe with ovl := s.afe.ovl.filter (fun x => x.1 != m), ntail := (m, (a, tb2U s)) :: s.afe.ntail }

/-- The tags of `m` at the end of its interval. -/
def endTags (s : State) (m a : Nat) : State :=
  markU32 (markTag (markTag (overloadEnded s m a) m 1 a (tb2U s)) m 0 a (tb2U s)) m

theorem endOverload_none {s : State} {m : Nat} (h : (s.afe.ovl.find? fun e => e.1 == m) = none) : endOverload s m = s := by
  rw [endOverload, h]

theorem endOverload_some {s : State} {m : Nat} {e : Nat × Nat} (h : (s.afe.ovl.find? fun e => e.1 == m) = some e) :
    endOverload s m = showOverload (endTags s m e.2) m := by
  rw [endOverload, h]
  rfl

theorem endTags_steps (s : State) (m a : Nat) : TagSteps (overloadEnded s m a) (endTags s m a) :=
  ((markTag_steps ..).trans (markTag_steps ..)).trans (markU32_steps ..)

theorem endTags_bears (s : State) (m a : Nat) : let t := endTags s m a
    Spec.Bears t m 1 a (tb2U s) ∧ Spec.Bears t m 0 a (tb2U s) ∧
    Spec.Bears t m 0 (tb2U s) (tb2U s + 32 * tmNs (lpmAct s) * 2 ^ 32) := by
  have hnow : tb2U s < tb2U s + 40000000 * nsU := Nat.lt_add_of_pos_right (by decide)
  exact ⟨((markTag_steps _ m 0 a (tb2U s)).trans (markU32_steps _ m)).young m 1 a (tb2U s) hnow (markTag_self ..),
    (markU32_steps _ m).young m 0 a (tb2U s) hnow (markTag_self ..), markU32_self _ m⟩

theorem endTags_ovl (s : State) (m a : Nat) : ∀ e ∈ (endTags s m a).afe.ovl, e.1 ≠ m := by
  intro e he
  rw [(endTags_steps s m a).afe] at he
  simpa using (List.mem_filter.mp he).2

theorem overloadIntervalEnd_ignored {m : Fin 52} {s : State} (h : inLoopReset s m = true ∨ inOvl s m = false) :
    exec (.overloadIntervalEnd m) s = .next s := by
  rw [exec, execOverloadIntervalEnd]
  split
  next => rfl
  next hn =>
    rcases h with h | h
    · exact absurd (by rw [h, Bool.or_true]) hn
    · rw [endOverload_none]
      exact List.find?_eq_none.mpr fun e he hm => Bool.eq_false_iff.mp h (List.any_eq_true.mpr ⟨e, he, hm⟩)

theorem overloadIntervalEnd_ends {m : Fin 52} {s : State} {a : Nat} (hp : s.pg 10 = true) (hr : inLoopReset s m = false)
    (hf : (s.afe.ovl.find? fun e => e.1 == m.val) = some (m.val, a)) : Runs (.overloadIntervalEnd m) s fun t =>
      (∀ e ∈ t.afe.ovl, e.1 ≠ m.val) ∧ (m.val, a, tb2U s) ∈ t.afe.ntail ∧ OverloadKept m s t ∧
      (m.val < 48 → t.on (R.AFE_CHn_STAT_OVL m.val) = false) ∧
      Spec.Bears t m 1 a (tb2U s) ∧ Spec.Bears t m 0 a (tb2U s) ∧ Spec.BearsU32 s t m := by
  have hx : exec (.overloadIntervalEnd m) s = .next (showOverload (endTags s m a) m) := by
    rw [exec, execOverloadIntervalEnd, hp, hr, endOverload_some hf]
    rfl
  have htags := endTags_steps s m a
  have hafe := showOverload_afe (endTags s m a) m
  obtain ⟨hO, hU, hU32⟩ := endTags_bears s m a
  refine ⟨_, hx, ?_, ?_, overloadKept_shown m htags.regs htags.mem, fun hm => ?_, bears_of_afe hafe hO, bears_of_afe hafe hU, ?_⟩
  · rw [hafe]
    exact endTags_ovl s m a
  · rw [hafe, htags.afe]
    exact List.mem_cons_self
  · rw [(showOverload_shows _ hm (self_mem_group hm)).1]
    exact Bool.eq_false_iff.mpr fun h => by
      obtain ⟨b, hb⟩ := (inOvl_iff _ _).mp h
      exact endTags_ovl s m a _ hb rfl
  · have hlpm : (showOverload (endTags s m a) m).on R.AFE_STAT_LPM_ACT = lpmAct s :=
      on_of_rd ((showOverload_rd _ m (by omega)).trans (rd_of_regs htags.regs _))
    exact bearsU32_of hlpm (bears_of_afe hafe hU32)

/-- The tail of `m`'s overload has lasted 20 µs (R61). -/
def tailPast (s : State) (m : Nat) (e : Nat × (Nat × Nat)) : Bool := decide (e.1 = m ∧ e.2.2 + 20000 * 2 ^ 32 ≤ tb2U s)

theorem tailPast_eq (s : State) (m : Nat) :
    tailPast s m = fun e => e.1 == m && decide (e.2.2 + 20000 * nsU ≤ tb2U s) := by
  funext e
  rw [Bool.eq_iff_iff, tailPast, decide_eq_true_eq, Bool.and_eq_true, beq_iff_eq, decide_eq_true_eq]
  rfl

theorem neighbourTagEnd_early {m : Fin 52} {s : State} (h : s.afe.ntail.find? (tailPast s m) = none) :
    exec (.neighbourTagEnd m) s = .next s := by
  rw [tailPast_eq] at h
  simp only [exec, execNeighbourTagEnd, h, ite_self]

theorem neighbourTagEnd_past {m : Fin 52} {s : State} {a b : Nat} (hp : s.pg 10 = true)
    (h : s.afe.ntail.find? (tailPast s m) = some (m.val, a, b)) : Runs (.neighbourTagEnd m) s fun t =>
      t.afe.ntail = s.afe.ntail.erase (m.val, a, b) ∧ t.afe.ovl = s.afe.ovl ∧ OverloadKept m s t ∧
      (m.val < 48 → ∀ x ∈ groupMods (refGroup m), x ≠ m.val → Spec.Bears t x 2 a (tb2U s)) := by
  set u := setAfe s { s.afe with ntail := s.afe.ntail.erase (m.val, a, b) } with hu
  have hx : exec (.neighbourTagEnd m) s = .next (showOverload (markNbrEnd u m a) m) := by
    rw [tailPast_eq] at h
    simp only [exec, execNeighbourTagEnd, hp, if_true, h, hu]
  have htags : TagSteps u (markNbrEnd u m a) := markNbrEnd_steps u m a
  have hafe := (showOverload_afe (markNbrEnd u m a) m).trans htags.afe
  exact ⟨_, hx, congrArg Afe.ntail hafe, (congrArg Afe.ovl hafe).trans rfl, overloadKept_shown m htags.regs htags.mem,
    fun hm x hxm hne => bears_of_afe (showOverload_afe _ _) (markNbrEnd_bears u a hm hxm hne)⟩

/-! ### Gain and enable (R63, R65) -/

theorem gainWrite_ignored {n : Fin 48} {g : Fin 4} {s : State} (h : g.val = 3 ∨ s.rd (R.AFE_CHn_CFG_GAIN n) = g.val) :
    exec (.gainWrite n g) s = .next s := by
  rw [exec, execGainWrite, if_pos (.inr h)]

section Gain
variable {n : Fin 48} {g : Fin 4} {s : State} (hp : s.pg 10 = true) (hg : g.val ≠ 3) (hne : s.rd (R.AFE_CHn_CFG_GAIN n) ≠ g.val)
include hp hg hne

theorem exec_gainWrite : exec (.gainWrite n g) s = .next (
    let s1 := s.wr (R.AFE_CHn_CFG_GAIN n) g
    if s.on (R.AFE_CHn_CFG_EN n) = false then s1
    else if (ckOf s (n.val / 12)).pos = n.val % 12 then voidDwell (markU32 s1 n) (n.val / 12) else markU32 s1 n) := by
  have hc : ¬ (s.pg 10 = false ∨ g.val = 3 ∨ s.rd (R.AFE_CHn_CFG_GAIN n) = g.val) := by simp [hp, hg, hne]
  rw [exec, execGainWrite, if_neg hc]
  cases s.on (R.AFE_CHn_CFG_EN n) <;> rfl

theorem gainWrite_taken : Runs (.gainWrite n g) s fun t => t.rd (R.AFE_CHn_CFG_GAIN n) = g.val ∧
      (s.on (R.AFE_CHn_CFG_EN n) = false → t.afe = s.afe) ∧
      (s.on (R.AFE_CHn_CFG_EN n) = true → Spec.BearsU32 s t n ∧
        ((mget s.afe.ck (n.val / 12) {}).pos = n.val % 12 → (mget t.afe.ck (n.val / 12) {}).void = true)) ∧
      SameBytes s t ∧ RegsKept s t [(0x601000 + 0x20 * n.val, 0x601004 + 0x20 * n.val)] := by
  set s1 := s.wr (R.AFE_CHn_CFG_GAIN n) g with hs1
  have hgain : s1.rd (R.AFE_CHn_CFG_GAIN n) = g.val := (rd_wr_self ..).trans (Nat.mod_eq_of_lt g.isLt)
  have hkept : KeptBut s s1 [R.AFE_CHn_CFG_GAIN n] := (keptBut_refl s _).wr (by simp) _
  have hregs {t : State} (h : t.regs = s1.regs) : RegsKept s t [(0x601000 + 0x20 * n.val, 0x601004 + 0x20 * n.val)] :=
    (hkept.of_regs h).regsKept (within_head (by omega))
  have hlpm {t : State} (h : t.regs = s1.regs) : t.on R.AFE_STAT_LPM_ACT = lpmAct s1 := on_of_rd (rd_of_regs h _)
  refine ⟨_, exec_gainWrite hp hg hne, ?_⟩
  dsimp only
  split
  next hen => exact ⟨hgain, fun _ => rfl, fun h => absurd h (by rw [hen]; decide), fun _ => rfl, hregs rfl⟩
  next hen =>
    have hU : Spec.Bears (markU32 s1 n) n 0 (tb2U s) (tb2U s + 32 * tmNs (lpmAct s1) * 2 ^ 32) := markU32_self s1 n
    split
    next hpos =>
      have hU' := (voidDwell_step (markU32 s1 n) (n.val / 12) []).bears hU
      exact ⟨hgain, fun h => absurd h hen, fun _ => ⟨bearsU32_of (hlpm rfl) hU', fun _ => voidDwell_void _ _⟩, fun _ => rfl, hregs rfl⟩
    next hpos =>
      exact ⟨hgain, fun h => absurd h hen, fun _ => ⟨bearsU32_of (hlpm rfl) hU, fun h => absurd h hpos⟩, fun _ => rfl, hregs rfl⟩

end Gain

theorem endOverload_kept (s : State) (m : Nat) : KeptBut s (endOverload s m) (overloadFlds m) := by
  cases hf : s.afe.ovl.find? fun e => e.1 == m with
  | none => rw [endOverload_none hf]; exact keptBut_refl s _
  | some e =>
    rw [endOverload_some hf]
    exact (keptBut_of_regs (endTags_steps s m e.2).regs _).trans (showOverload_kept _ m)

theorem endOverload_ovl (s : State) (m : Nat) : ∀ e ∈ (endOverload s m).afe.ovl, e.1 ≠ m := by
  cases hf : s.afe.ovl.find? fun e => e.1 == m with
  | none =>
    rw [endOverload_none hf]
    exact fun e he hm => List.find?_eq_none.mp hf e he (beq_iff_eq.mpr hm)
  | some e =>
    rw [endOverload_some hf, showOverload_afe]
    exact endTags_ovl s m e.2

theorem en_apart_overloadFlds (n : Fin 48) : (overloadFlds n).Forall fun g => (R.AFE_CHn_CFG_EN n).key ≠ g.key := by
  refine List.forall_iff_forall_mem.mpr fun g hg => ?_
  simp only [overloadFlds, List.mem_cons, List.mem_flatMap, List.not_mem_nil, or_false] at hg
  rcases hg with rfl | ⟨x, hx, rfl | rfl⟩
  · exact key_ne (by omega)
  · have hgrp := (groupMods_primary n.isLt).mp hx
    exact key_ne (by omega)
  · exact key_ne (by omega)

/-- The modulator of input `n` stopped: an overload interval in progress ends, its loop reset with it. -/
def inputStopped (s : State) (n : Nat) : State :=
  setAfe (endOverload s n) { (endOverload s n).afe with
    enAt := mput (endOverload s n).afe.enAt n (tb2U s)
    rst := mmod (endOverload s n).afe.rst n [] fun l => l.map fun e => (min e.1 (tb2U s), e.2) }

section Enable
variable {n : Fin 48} {s : State}

theorem afeInputEnable_ignored (h : s.on R.AFE_CTL_LOCK = true ∨ s.on (R.AFE_CHn_CFG_EN n) = true) :
    exec (.afeInputEnable n) s = .next s := by
  rw [exec, execAfeInputEnable, if_pos]
  rcases h with h | h
  · rw [h, Bool.or_true, Bool.true_or]
  · rw [h, Bool.or_true]

theorem afeInputDisable_ignored (h : s.on R.AFE_CTL_LOCK = true ∨ s.on (R.AFE_CHn_CFG_EN n) = false) :
    exec (.afeInputDisable n) s = .next s := by
  rw [exec, execAfeInputDisable, if_pos]
  rcases h with h | h
  · rw [h, Bool.or_true, Bool.true_or]
  · rw [h, Bool.not_false, Bool.or_true]

/-- An input's start and stop noted. -/
def enNoted (s : State) (n : Nat) : State := setAfe s { s.afe with enAt := mput s.afe.enAt n (tb2U s) }

theorem startInput_steps (s : State) (n : Nat) : TagSteps (enNoted s n) (startInput s n) :=
  (markTag_steps ..).trans (markU32_steps ..)

theorem startInput_bears (s : State) (n : Nat) : Spec.Bears (startInput s n) n 3 (mget s.afe.enAt n 0) (tb2U s) ∧
    Spec.Bears (startInput s n) n 0 (tb2U s) (tb2U s + 32 * tmNs (lpmAct s) * 2 ^ 32) := by
  have hnow : tb2U s < tb2U s + 40000000 * nsU := Nat.lt_add_of_pos_right (by decide)
  exact ⟨(markU32_steps _ n).young n 3 _ (tb2U s) hnow (markTag_self ..), markU32_self _ n⟩

variable (hp : s.pg 10 = true) (hl : s.on R.AFE_CTL_LOCK = false)
include hp hl

theorem afeInputEnable_starts (hen : s.on (R.AFE_CHn_CFG_EN n) = false) : Runs (.afeInputEnable n) s fun t =>
      t.on (R.AFE_CHn_CFG_EN n) = true ∧ mget t.afe.enAt n 0 = tb2U s ∧ Spec.Bears t n 3 (mget s.afe.enAt n 0) (tb2U s) ∧
      Spec.BearsU32 s t n ∧ SameBytes s t ∧ RegsKept s t [(0x601000 + 0x20 * n.val, 0x601004 + 0x20 * n.val),
        (0x600104 + 0x10 * (n.val / 12), 0x600108 + 0x10 * (n.val / 12))] := by
  set s1 := s.wrb (R.AFE_CHn_CFG_EN n) true with hs1
  have hx : exec (.afeInputEnable n) s = .next (ckWake (startInput s1 n) (n / 12)) := by
    simp only [exec, execAfeInputEnable, hp, hl, hen, Bool.not_true, Bool.or_self, Bool.false_eq_true, if_false, hs1]
  have htags : TagSteps (enNoted s1 n) (startInput s1 n) := startInput_steps s1 n
  have hwake : CheckerStep (startInput s1 n) (ckWake (startInput s1 n) (n / 12)) [R.AFE_CKk_STAT_POS (n / 12)] :=
    ckWake_step _ _ (by simp)
  obtain ⟨hI, hU⟩ := startInput_bears s1 n
  have hregs : (startInput s1 n).regs = s1.regs := htags.regs
  refine ⟨_, hx, ?_, ?_, hwake.bears hI, ?_, ?_, ?_⟩
  · refine (on_of_rd ((hwake.flds (R.AFE_CHn_CFG_EN n) (key_ne (by omega))).trans (rd_of_regs hregs _))).trans (on_wrb_self _ _ _ rfl)
  · rw [hwake.afe, htags.afe]
    exact mget_mput_self ..
  · have hlpm : (ckWake (startInput s1 n) (n / 12)).on R.AFE_STAT_LPM_ACT = lpmAct s1 :=
      on_of_rd ((hwake.flds R.AFE_STAT_LPM_ACT (key_ne (by omega))).trans (rd_of_regs hregs _))
    exact bearsU32_of hlpm (hwake.bears hU)
  · exact sameBytes_of_mem ((ckWake_mem ..).trans (startInput_mem ..))
  · have h1 : KeptBut s s1 [R.AFE_CHn_CFG_EN n, R.AFE_CKk_STAT_POS (n / 12)] := (keptBut_refl s _).wrb (by simp) _
    exact ((h1.of_regs hregs).trans (hwake.flds.mono (by simp))).regsKept
      ⟨within_head (by omega), within_tail (within_head (by omega))⟩

theorem afeInputDisable_stops (hen : s.on (R.AFE_CHn_CFG_EN n) = true) : Runs (.afeInputDisable n) s fun t =>
      t.on (R.AFE_CHn_CFG_EN n) = false ∧ (∀ e ∈ t.afe.ovl, e.1 ≠ n.val) ∧ mget t.afe.enAt n 0 = tb2U s ∧ SameBytes s t ∧
      ((∀ e ∈ s.afe.ovl, e.1 ≠ n.val) → RegsKept s t [(0x601000 + 0x20 * n.val, 0x601004 + 0x20 * n.val)]) := by
  set s1 := s.wrb (R.AFE_CHn_CFG_EN n) false with hs1
  have hx : exec (.afeInputDisable n) s = .next (inputStopped s1 n) := by
    simp only [exec, execAfeInputDisable, hp, hl, hen, Bool.not_true, Bool.or_self, Bool.false_eq_true, if_false]
    rfl
  refine ⟨_, hx, ?_, endOverload_ovl s1 n, mget_mput_self .., sameBytes_of_mem (endOverload_mem ..), fun hno => ?_⟩
  · exact (on_of_rd (endOverload_kept s1 n _ (en_apart_overloadFlds n))).trans (on_wrb_self _ _ _ rfl)
  · have hnone : endOverload s1 n = s1 :=
      endOverload_none (List.find?_eq_none.mpr fun e he hm => hno e he (beq_iff_eq.mp hm))
    have hkept : KeptBut s s1 [R.AFE_CHn_CFG_EN n] := (keptBut_refl s _).wrb (by simp) _
    rw [inputStopped, hnone]
    exact (hkept.of_regs (setAfe_regs ..)).regsKept (within_head (by omega))

end Enable

end Sys2Proof.Machine
end

section
/-! PROOFS. The accumulators' windows (R67 to R69). -/
namespace Sys2Proof.Machine

/-- The window of input `n` in progress ends: it holds a value, and is full or has a cycle boundary behind it (R68, R69). -/
def WindowEnds (s : State) (n : Nat) : Prop :=
  (mget s.afe.acc n {}).cnt ≠ 0 ∧
    match windowAt s n with
    | some l => l ≤ (mget s.afe.acc n {}).cnt
    | none => cycleOver s n (mget s.afe.acc n {}).t0 = true

/-- The working set of input `n` taken out and empty. -/
def setTaken (s : State) (n : Nat) : State := setAfe s { s.afe with acc := mput s.afe.acc n {} }

theorem exec_accumulatorSwap_ends {n : Fin 48} {s : State} (hp : s.pg 10 = true) (h : WindowEnds s n) :
    exec (.accumulatorSwap n) s = .next (closeSet (setTaken s n) n (mget s.afe.acc n {})) := by
  obtain ⟨hc, hw⟩ := h
  rw [exec, execAccumulatorSwap]
  refine congrArg _ (if_pos ?_)
  rw [hp, bne_iff_ne.mpr hc, Bool.true_and, Bool.true_and]
  cases hat : windowAt s n with
  | none => simpa only [hat] using hw
  | some l => simpa only [hat, decide_eq_true_eq] using hw

theorem accumulatorSwap_open {n : Fin 48} {s : State} (hp : s.pg 10 = true) (h : ¬ WindowEnds s n) :
    exec (.accumulatorSwap n) s = .next s := by
  rw [exec, execAccumulatorSwap]
  refine congrArg _ (if_neg fun hx => h ?_)
  rw [hp, Bool.true_and, Bool.and_eq_true, bne_iff_ne] at hx
  obtain ⟨hc, hw⟩ := hx
  refine ⟨hc, ?_⟩
  cases hat : windowAt s n with
  | none => simpa only [hat] using hw
  | some l => simpa only [hat, decide_eq_true_eq] using hw

/-! ### Fields written one after another -/

/-- The state with values written to fields, in order. -/
def wrAll (s : State) (l : List (Fld × Nat)) : State := l.foldl (fun a e => a.wr e.1 e.2) s

theorem wrAll_kept (s : State) (l : List (Fld × Nat)) : KeptBut s (wrAll s l) (l.map Prod.fst) :=
  List.foldlRecOn (motive := fun u => KeptBut s u (l.map Prod.fst)) l _ (keptBut_refl s _) fun _ hu _ he => hu.wr (List.mem_map_of_mem he) _

/-- Where no two of the fields share a key, each reads what was written to it. -/
theorem rd_wrAll {l : List (Fld × Nat)} (hl : l.Pairwise fun x y => x.1.key ≠ y.1.key) {f : Fld} {v : Nat} (h : (f, v) ∈ l) (s : State) :
    (wrAll s l).rd f = v % 2 ^ f.w := by
  induction l generalizing s with
  | nil => exact absurd h List.not_mem_nil
  | cons e t ih =>
    obtain ⟨he, ht⟩ := List.pairwise_cons.mp hl
    rcases List.mem_cons.mp h with rfl | hmem
    · have hkeep := wrAll_kept (s.wr f v) t f (List.forall_iff_forall_mem.mpr fun g hg => by
        obtain ⟨x, hx, rfl⟩ := List.mem_map.mp hg
        exact he x hx)
      exact hkeep.trans (rd_wr_self ..)
    · exact ih ht hmem _

/-! ### The closed set -/

/-- What is written of a closed set of input `n`, beside SEQ and WFB. -/
def closedVals (n : Nat) (a : Accum) : List (Fld × Nat) := [(R.AFE_CHn_CNT_UFLG n, if a.u then 1 else 0),
  (R.AFE_CHn_CNT_OFLG n, if a.o then 1 else 0), (R.AFE_CHn_CNT_NFLG n, if a.n then 1 else 0), (R.AFE_CHn_CNT_COUNT n, min a.cnt 1048576),
  (R.AFE_CHn_SUM_LO_SUM n, usg 64 a.sum % 2 ^ 32), (R.AFE_CHn_SUM_HI_SUM n, usg 64 a.sum / 2 ^ 32),
  (R.AFE_CHn_SQ_LO_SQ n, a.sq / 8 % 2 ^ 32), (R.AFE_CHn_SQ_HI_SQ n, a.sq / 8 / 2 ^ 32),
  (R.AFE_CHn_MIN_MIN n, usg 32 a.mn), (R.AFE_CHn_MAX_MAX n, usg 32 a.mx)]

theorem closeSet_eq (s : State) (n : Nat) (a : Accum) : closeSet s n a =
    ((wrAll s (closedVals n a)).inc (R.AFE_CHn_SEQ_SEQ n)).wrb (R.AFE_CHn_STAT_WFB n) (windowFallback s n) := rfl

/-- The fields of a closed set lie in CNT, the sums, MIN and MAX. -/
theorem closedVals_place (n : Fin 48) (a : Accum) : ∀ e ∈ closedVals n a,
    e.1.lo < 32 ∧ e.1.addr < 0x4000000 ∧ (0x60100C + 0x20 * n.val ≤ e.1.addr ∧ e.1.addr < 0x601020 + 0x20 * n.val ∨
      0x602000 + 8 * n.val ≤ e.1.addr ∧ e.1.addr < 0x602008 + 8 * n.val) := by
  simp only [closedVals, List.forall_mem_cons, List.not_mem_nil, false_imp_iff, implies_true, and_true, R.AFE_CHn_CNT_UFLG,
    R.AFE_CHn_CNT_OFLG, R.AFE_CHn_CNT_NFLG, R.AFE_CHn_CNT_COUNT, R.AFE_CHn_SUM_LO_SUM, R.AFE_CHn_SUM_HI_SUM, R.AFE_CHn_SQ_LO_SQ,
    R.AFE_CHn_SQ_HI_SQ, R.AFE_CHn_MIN_MIN, R.AFE_CHn_MAX_MAX]
  omega

/-- Neither STAT nor SEQ is among them. -/
theorem closedVals_key_ne (n : Fin 48) (a : Accum) {e : Fld × Nat} (he : e ∈ closedVals n a) {d : Dom} {x lo w r : Nat} {c : Acc}
    (hx : lo < 32 ∧ 0x601004 + 0x20 * n.val ≤ x ∧ x < 0x60100C + 0x20 * n.val) : e.1.key ≠ Fld.key ⟨d, x, lo, w, c, r⟩ := by
  obtain ⟨hlo, hlt, hin⟩ := closedVals_place n a e he
  exact key_ne_of_addr hlo hx.1 hlt (show x < _ by omega) (show e.1.addr ≠ x by omega)

theorem closedVals_pairwise (n : Fin 48) (a : Accum) : (closedVals n a).Pairwise fun x y => x.1.key ≠ y.1.key := by
  simp only [closedVals, List.pairwise_cons, List.forall_mem_cons, List.not_mem_nil, false_imp_iff, implies_true, and_true, Fld.key,
    R.AFE_CHn_CNT_UFLG, R.AFE_CHn_CNT_OFLG, R.AFE_CHn_CNT_NFLG, R.AFE_CHn_CNT_COUNT, R.AFE_CHn_SUM_LO_SUM, R.AFE_CHn_SUM_HI_SUM,
    R.AFE_CHn_SQ_LO_SQ, R.AFE_CHn_SQ_HI_SQ, R.AFE_CHn_MIN_MIN, R.AFE_CHn_MAX_MAX, List.Pairwise.nil]
  omega

section Close
variable (s : State) (n : Fin 48) (a : Accum)

theorem closeSet_val {f : Fld} {v : Nat} (h : (f, v) ∈ closedVals n a) : (closeSet s n a).rd f = v % 2 ^ f.w := by
  have hseq : f.key ≠ (R.AFE_CHn_SEQ_SEQ n).key := closedVals_key_ne n a h (by omega)
  have hwfb : f.key ≠ (R.AFE_CHn_STAT_WFB n).key := closedVals_key_ne n a h (by omega)
  rw [closeSet_eq, rd_wrb_ne _ _ hwfb, State.inc, rd_wr_ne _ _ hseq, rd_wrAll (closedVals_pairwise n a) h]

theorem closeSet_seq : (closeSet s n a).rd (R.AFE_CHn_SEQ_SEQ n) = (s.rd (R.AFE_CHn_SEQ_SEQ n) + 1) % 2 ^ 32 := by
  have hseq : (wrAll s (closedVals n a)).rd (R.AFE_CHn_SEQ_SEQ n) = s.rd (R.AFE_CHn_SEQ_SEQ n) := by
    refine wrAll_kept s _ _ (List.forall_iff_forall_mem.mpr fun g hg => ?_)
    obtain ⟨e, he, rfl⟩ := List.mem_map.mp hg
    exact (closedVals_key_ne n a he (by omega)).symm
  rw [closeSet_eq, ← hseq]
  exact (rd_wrb_ne _ _ (key_ne (by omega))).trans (rd_wr_self ..)

theorem closeSet_regsKept : RegsKept s (closeSet s n a) [(0x601004 + 0x20 * n.val, 0x601020 + 0x20 * n.val),
    (0x602000 + 8 * n.val, 0x602008 + 8 * n.val)] := by
  rw [closeSet_eq]
  refine regsKept_wr (within_head (by omega)) (regsKept_wr (within_head (by omega)) ((wrAll_kept s _).regsKept ?_) _) _
  refine List.forall_iff_forall_mem.mpr fun g hg => ?_
  obtain ⟨e, he, rfl⟩ := List.mem_map.mp hg
  obtain ⟨hlo, hlt, hin⟩ := closedVals_place n a e he
  rcases hin with h | h
  · exact ⟨hlo, hlt, _, List.mem_cons_self, by dsimp only; omega⟩
  · exact ⟨hlo, hlt, _, List.mem_cons_of_mem _ List.mem_cons_self, h⟩

/-- A flag of the closed set. -/
theorem closeSet_flag {f : Fld} {b : Bool} (h : (f, if b then 1 else 0) ∈ closedVals n a) (hw : f.w = 1) : (closeSet s n a).on f = b := by
  rw [State.on, closeSet_val s n a h, hw]
  cases b <;> rfl

theorem closeSet_sum : (closeSet s n a).rd64 (R.AFE_CHn_SUM_LO_SUM n) (R.AFE_CHn_SUM_HI_SUM n) = (a.sum % 2 ^ 64).toNat := by
  have hlo := closeSet_val s n a (f := R.AFE_CHn_SUM_LO_SUM n) (v := usg 64 a.sum % 2 ^ 32) (by simp [closedVals])
  have hhi := closeSet_val s n a (f := R.AFE_CHn_SUM_HI_SUM n) (v := usg 64 a.sum / 2 ^ 32) (by simp [closedVals])
  have hw : (R.AFE_CHn_SUM_LO_SUM n).w = 32 ∧ (R.AFE_CHn_SUM_HI_SUM n).w = 32 := ⟨rfl, rfl⟩
  rw [State.rd64, hlo, hhi, hw.1, hw.2, usg]
  omega

theorem closeSet_sq : (closeSet s n a).rd64 (R.AFE_CHn_SQ_LO_SQ n) (R.AFE_CHn_SQ_HI_SQ n) = a.sq / 8 % 2 ^ 64 := by
  have hlo := closeSet_val s n a (f := R.AFE_CHn_SQ_LO_SQ n) (v := a.sq / 8 % 2 ^ 32) (by simp [closedVals])
  have hhi := closeSet_val s n a (f := R.AFE_CHn_SQ_HI_SQ n) (v := a.sq / 8 / 2 ^ 32) (by simp [closedVals])
  have hw : (R.AFE_CHn_SQ_LO_SQ n).w = 32 ∧ (R.AFE_CHn_SQ_HI_SQ n).w = 32 := ⟨rfl, rfl⟩
  rw [State.rd64, hlo, hhi, hw.1, hw.2]
  omega

theorem closeSet_flags : (closeSet s n a).on (R.AFE_CHn_CNT_UFLG n) = a.u ∧ (closeSet s n a).on (R.AFE_CHn_CNT_OFLG n) = a.o ∧
    (closeSet s n a).on (R.AFE_CHn_CNT_NFLG n) = a.n :=
  ⟨closeSet_flag s n a (by simp [closedVals]) rfl, closeSet_flag s n a (by simp [closedVals]) rfl,
    closeSet_flag s n a (by simp [closedVals]) rfl⟩

theorem closeSet_count : (closeSet s n a).rd (R.AFE_CHn_CNT_COUNT n) = min a.cnt 1048576 :=
  (closeSet_val s n a (v := min a.cnt 1048576) (by simp [closedVals])).trans
    (Nat.mod_eq_of_lt (show min a.cnt 1048576 < 2 ^ 21 by omega))

theorem closeSet_minMax : (closeSet s n a).rd (R.AFE_CHn_MIN_MIN n) = (a.mn % 2 ^ 32).toNat ∧
    (closeSet s n a).rd (R.AFE_CHn_MAX_MAX n) = (a.mx % 2 ^ 32).toNat := by
  have hmod (i : Int) : usg 32 i % 2 ^ 32 = (i % 2 ^ 32).toNat := by
    rw [usg]
    omega
  exact ⟨(closeSet_val s n a (v := usg 32 a.mn) (by simp [closedVals])).trans (hmod a.mn),
    (closeSet_val s n a (v := usg 32 a.mx) (by simp [closedVals])).trans (hmod a.mx)⟩

end Close

theorem accumulatorSwap_closes {n : Fin 48} {s : State} (hp : s.pg 10 = true) (h : WindowEnds s n) :
    let a := mget s.afe.acc n {}
    Runs (.accumulatorSwap n) s fun t => mget t.afe.acc n {} = {} ∧
      t.rd (R.AFE_CHn_SEQ_SEQ n) = (s.rd (R.AFE_CHn_SEQ_SEQ n) + 1) % 2 ^ 32 ∧ t.rd (R.AFE_CHn_CNT_COUNT n) = min a.cnt 1048576 ∧
      t.rd64 (R.AFE_CHn_SUM_LO_SUM n) (R.AFE_CHn_SUM_HI_SUM n) = (a.sum % 2 ^ 64).toNat ∧
      t.rd64 (R.AFE_CHn_SQ_LO_SQ n) (R.AFE_CHn_SQ_HI_SQ n) = a.sq / 8 % 2 ^ 64 ∧
      t.rd (R.AFE_CHn_MIN_MIN n) = (a.mn % 2 ^ 32).toNat ∧ t.rd (R.AFE_CHn_MAX_MAX n) = (a.mx % 2 ^ 32).toNat ∧
      t.on (R.AFE_CHn_CNT_UFLG n) = a.u ∧ t.on (R.AFE_CHn_CNT_OFLG n) = a.o ∧ t.on (R.AFE_CHn_CNT_NFLG n) = a.n ∧ SameBytes s t ∧
      RegsKept s t [(0x601004 + 0x20 * n.val, 0x601020 + 0x20 * n.val), (0x602000 + 8 * n.val, 0x602008 + 8 * n.val)] := by
  intro a
  obtain ⟨hmin, hmax⟩ := closeSet_minMax (setTaken s n) n a
  obtain ⟨hu, ho, hn⟩ := closeSet_flags (setTaken s n) n a
  exact ⟨_, exec_accumulatorSwap_ends hp h, mget_mput_self .., closeSet_seq _ n _, closeSet_count _ n _, closeSet_sum _ n _,
    closeSet_sq _ n _, hmin, hmax, hu, ho, hn, sameBytes_of_mem ((closeSet_mem ..).trans (setAfe_mem ..)), closeSet_regsKept _ n _⟩

end Sys2Proof.Machine
end

section
/-! PROOFS. The checkers' commands (R71 to R78), and the analogue front end put together. -/
namespace Sys2Proof.Machine

/-! ### Settling (R71, R72) -/

theorem ckRuns_iff (s : State) (k : Nat) :
    ckRuns s k = true ↔ s.on (R.AFE_CKk_CTL_EN k) = true ∧ s.on (R.AFE_CKk_STAT_FAILED k) = false := by
  rw [ckRuns, Bool.and_eq_true, Bool.not_eq_true']

theorem eligible_iff (s : State) (k j : Nat) : eligible s k j = true ↔
    s.on (R.AFE_CHn_CFG_EN (12 * k + j)) = true ∧ s.on (R.AFE_CHn_CFG_CKEXCL (12 * k + j)) = false := by
  rw [eligible, Bool.and_eq_true, Bool.not_eq_true']

theorem find_lowestEligible {s : State} {k j : Nat} (hj : j < 12) (he : eligible s k j = true) (hlow : ∀ i < j, ¬ eligible s k i = true) :
    ((List.range 12).find? fun x => eligible s k x) = some j :=
  List.find?_range_eq_some.mpr ⟨he, List.mem_range.mpr hj, fun i hi => by rw [Bool.eq_false_iff.mpr (hlow i hi)]; rfl⟩

section Settle
variable {k : Fin 4} {s : State}

theorem checkerSettleEnd_sweeps (hp : s.pg 10 = true) (hr : ckRuns s k = true) (h0 : (ckOf s k).phase = 0) {j : Nat} (hj : j < 12)
    (he : eligible s k j = true) (hlow : ∀ i < j, ¬ eligible s k i = true) : Runs (.checkerSettleEnd k) s fun t =>
      (mget t.afe.ck k {}).phase = 1 ∧ (mget t.afe.ck k {}).pos = j ∧ (mget t.afe.ck k {}).since = tb2U s ∧
      t.rd (R.AFE_CKk_STAT_POS k) = j ∧ SameBytes s t ∧ RegsKept s t [(0x600104 + 0x10 * k.val, 0x600108 + 0x10 * k.val)] := by
  have hx : exec (.checkerSettleEnd k) s = .next (ckSweep s k) := by
    simp only [exec, execCheckerSettleEnd, hp, hr, h0, ckWake, Bool.not_true, Bool.or_self, Bool.false_eq_true, if_false, if_true,
      Bool.true_and, beq_self_eq_true]
  have hsweep := ckSweep_some (find_lowestEligible hj he hlow)
  refine ⟨_, hx, ?_, ?_, ?_, ?_, sameBytes_of_mem (ckSweep_mem ..), ?_⟩
  · rw [hsweep, ckMove_ck]
    rfl
  · rw [hsweep, ckMove_ck]
    rfl
  · rw [hsweep, ckMove_ck]
    rfl
  · rw [hsweep, ckMove_pos _ _ hj]
  · exact (ckSweep_step s k (l := [R.AFE_CKk_STAT_POS k]) (by simp)).flds.regsKept (within_head (by omega))

theorem checkerSettleEnd_over (hp : s.pg 10 = true) (hr : ckRuns s k = true) (h1 : (ckOf s k).phase = 1)
    (ht : (ckOf s k).since + ckSettleNs s k * 2 ^ 32 ≤ tb2U s) : exec (.checkerSettleEnd k) s =
      .next (setCk s k { ckOf s k with phase := 2, since := tb2U s, void := false, sd := 0, sr := 0, m := 0 }) := by
  have hc : (!s.pg 10 || !ckRuns s k) = false := by rw [hp, hr]; rfl
  rw [exec, execCheckerSettleEnd]
  refine congrArg _ ?_
  rw [if_neg (by rw [hc]; decide), if_neg (by omega), if_pos ⟨h1, ht⟩]

theorem checkerSettleEnd_waits (h : ckRuns s k = false ∨ (ckOf s k).phase = 2 ∨
    (ckOf s k).phase = 1 ∧ tb2U s < (ckOf s k).since + ckSettleNs s k * 2 ^ 32) : exec (.checkerSettleEnd k) s = .next s := by
  rw [exec, execCheckerSettleEnd]
  refine congrArg _ ?_
  split
  next => rfl
  next hn =>
    rcases h with h | h2 | ⟨h1, ht⟩
    · exact absurd (by rw [h, Bool.not_false, Bool.or_true]) hn
    · rw [if_neg (by omega), if_neg (by omega)]
    · rw [if_neg (by omega), if_neg fun hover => Nat.not_lt.mpr hover.2 ht]

end Settle

/-! ### A dwell's verdict (R73 to R75) -/

/-- The dwell has its `M` pairs, or its time is over. -/
def Ripe (s : State) (k : Nat) : Prop :=
  dwellPairs s k ≤ (ckOf s k).m ∨ (ckOf s k).since + dwellMs s k * 1000000 * 2 ^ 32 ≤ tb2U s

/-- The dwell is void, or was over before its `M` pairs. -/
def DwellVoid (s : State) (k : Nat) : Prop := (ckOf s k).void = true ∨ (ckOf s k).m < dwellPairs s k

/-- The dwell's sums lie beyond the tolerance (R73). -/
def Beyond (s : State) (k : Nat) : Prop :=
  max 1 (s.rd (R.AFE_CKk_CTL_TOL_ABS k)) * 8388607 * (ckOf s k).m + s.rd (R.AFE_CKk_CTL_TOL_REL k) * (ckOf s k).sr < (ckOf s k).sd * 10000

theorem dwellOver_iff (s : State) (k : Nat) : dwellOver s k (ckOf s k) = true ↔ Ripe s k := by
  rw [dwellOver, Bool.or_eq_true, decide_eq_true_eq, decide_eq_true_eq]
  rfl

/-- A dwell has pairs to compare: 5 ms at 64 times T_m and more. -/
theorem dwellPairs_pos (s : State) (k : Nat) : 0 < dwellPairs s k := by
  have hms : 5 ≤ dwellMs s k := Nat.le_max_left ..
  have htm : tmNs (lpmAct s) ≤ 400 := by
    rw [tmNs]
    split <;> decide
  have htm0 : 0 < tmNs (lpmAct s) := by
    rw [tmNs]
    split <;> decide
  exact Nat.div_pos (by omega) (by omega)

theorem judge_void {s : State} {k : Nat} (h : DwellVoid s k) : judge s k (ckOf s k) = 2 := if_pos (h.imp_right .inl)

section Judge
variable {s : State} {k : Nat} (h : ¬ DwellVoid s k)
include h

theorem not_void_cond : ¬ ((ckOf s k).void = true ∨ (ckOf s k).m < dwellPairs s k ∨ (ckOf s k).m = 0) := by
  rw [DwellVoid, not_or] at h
  have := dwellPairs_pos s k
  rintro (hv | hm | hm)
  · exact h.1 hv
  · exact h.2 hm
  · omega

theorem judge_fail (hb : Beyond s k) : judge s k (ckOf s k) = 1 := (if_neg (not_void_cond h)).trans (if_pos hb)
theorem judge_pass (hb : ¬ Beyond s k) : judge s k (ckOf s k) = 0 := (if_neg (not_void_cond h)).trans (if_neg hb)

end Judge

/-! ### The verdict shown -/

/-- LASTD after a dwell of checker `k` judged `v`. -/
def dwellShown (s : State) (k v : Nat) : State :=
  ((s.wr (R.AFE_CKk_LASTD_RESULT k) v).wr (R.AFE_CKk_LASTD_POS k) (ckOf s k).pos).wr (R.AFE_CKk_LASTD_DIFF k)
    (if v = 2 then 0 else (ckOf s k).sd / (ckOf s k).m)

/-- The fields that the end of a dwell of checker `k` on input `n` may write after LASTD. -/
def afterFlds (k n : Nat) : List Fld := [R.AFE_CKk_CNT_VOIDS k, R.AFE_CKk_CNT_FAILS k, R.AFE_CKk_STAT_SUSPECT k, R.AFE_CKk_STAT_INVAL k,
  R.AFE_CHn_STAT_CK_INVAL n, R.AFE_CKk_STAT_POS k, R.AFE_CKk_CNT_SWEEPS k, R.AFE_CKk_STAT_FAILED k, R.AFE_CKk_STAT_FAILED_STK k]

theorem afterFlds_within {k : Fin 4} {n : Nat} (hn : n < 48) : (afterFlds k n).Forall fun g =>
    Within g [(0x600104 + 0x10 * k.val, 0x600110 + 0x10 * k.val), (0x601004 + 0x20 * n, 0x601008 + 0x20 * n)] :=
  ⟨within_head (by omega), within_head (by omega), within_head (by omega), within_head (by omega), within_tail (within_head (by omega)),
    within_head (by omega), within_head (by omega), within_head (by omega), within_head (by omega)⟩

theorem dwellShown_kept (s : State) (k v : Nat) :
    KeptBut s (dwellShown s k v) [R.AFE_CKk_LASTD_RESULT k, R.AFE_CKk_LASTD_POS k, R.AFE_CKk_LASTD_DIFF k] :=
  (((keptBut_refl s _).wr (by simp) _).wr (by simp) _).wr (by simp) _

theorem dwellShown_regsKept (s : State) (k : Fin 4) (v : Nat) (l : List (Nat × Nat)) :
    RegsKept s (dwellShown s k v) ((0x600104 + 0x10 * k.val, 0x600110 + 0x10 * k.val) :: l) :=
  (dwellShown_kept s k v).regsKept ⟨within_head (by omega), within_head (by omega), within_head (by omega)⟩

section Lastd
variable {s t : State} {k : Fin 4} {v n : Nat} (h : KeptBut (dwellShown s k v) t (afterFlds k n))
include h

theorem lastd_result (hv : v < 4) : t.rd (R.AFE_CKk_LASTD_RESULT k) = v := by
  have ht : t.rd (R.AFE_CKk_LASTD_RESULT k) = (dwellShown s k v).rd (R.AFE_CKk_LASTD_RESULT k) := by
    refine h _ ⟨?_, ?_, ?_, ?_, ?_, ?_, ?_, ?_, ?_⟩ <;> exact key_ne (by omega)
  exact ht.trans (((rd_wr_ne _ _ (key_ne (by omega))).trans ((rd_wr_ne _ _ (key_ne (by omega))).trans (rd_wr_self ..))).trans
    (Nat.mod_eq_of_lt hv))

theorem lastd_pos (hpos : (ckOf s k).pos < 12) : t.rd (R.AFE_CKk_LASTD_POS k) = (ckOf s k).pos := by
  have ht : t.rd (R.AFE_CKk_LASTD_POS k) = (dwellShown s k v).rd (R.AFE_CKk_LASTD_POS k) := by
    refine h _ ⟨?_, ?_, ?_, ?_, ?_, ?_, ?_, ?_, ?_⟩ <;> exact key_ne (by omega)
  exact ht.trans (((rd_wr_ne _ _ (key_ne (by omega))).trans (rd_wr_self ..)).trans
    (Nat.mod_eq_of_lt (show (ckOf s k).pos < 16 by omega)))

theorem lastd_diff (hv : v ≠ 2) : t.rd (R.AFE_CKk_LASTD_DIFF k) = (ckOf s k).sd / (ckOf s k).m % 2 ^ 24 := by
  have ht : t.rd (R.AFE_CKk_LASTD_DIFF k) = (dwellShown s k v).rd (R.AFE_CKk_LASTD_DIFF k) := by
    refine h _ ⟨?_, ?_, ?_, ?_, ?_, ?_, ?_, ?_, ?_⟩ <;> exact key_ne (by omega)
  rw [ht, dwellShown, rd_wr_self, if_neg hv]
  rfl

end Lastd

/-- The fields of an input's verdict. -/
def verdictFlds (n : Nat) : List Fld := [R.AFE_CKk_STAT_INVAL (n / 12), R.AFE_CHn_STAT_CK_INVAL n, R.AFE_CKk_STAT_SUSPECT (n / 12)]

theorem showInval_kept (s : State) (n : Nat) (b : Bool) : KeptBut s (showInval s n b) (verdictFlds n) :=
  ((keptBut_refl s _).putBit (by simp [verdictFlds]) _ _).wrb (by simp [verdictFlds]) _

theorem showInval_shows (s : State) (n : Nat) (b : Bool) :
    ((showInval s n b).rd (R.AFE_CKk_STAT_INVAL (n / 12))).testBit (n % 12) = b ∧ (showInval s n b).on (R.AFE_CHn_STAT_CK_INVAL n) = b := by
  have hinval : (showInval s n b).rd (R.AFE_CKk_STAT_INVAL (n / 12)) =
      (s.putBit (R.AFE_CKk_STAT_INVAL (n / 12)) (n % 12) b).rd (R.AFE_CKk_STAT_INVAL (n / 12)) := rd_wrb_ne _ _ (key_ne (by omega))
  exact ⟨by rw [hinval, testBit_putBit_self _ b (show n % 12 < 12 by omega)], on_wrb_self _ _ _ rfl⟩

/-- An input's registers after a pass, before its item and its count. -/
def passShown (s : State) (n : Nat) : State := (showInval s n false).clrBit (R.AFE_CKk_STAT_SUSPECT (n / 12)) (n % 12)

theorem ckPass_regs (s : State) (n : Nat) : (ckPass s n).regs = (passShown s n).regs := rfl

theorem ckPass_kept (s : State) (n : Nat) : KeptBut s (ckPass s n) (verdictFlds n) :=
  ((showInval_kept s n false).wr (by simp [verdictFlds]) _).of_regs (ckPass_regs s n)

theorem ckPass_shows (s : State) (n : Nat) : let t := ckPass s n
    (t.rd (R.AFE_CKk_STAT_SUSPECT (n / 12))).testBit (n % 12) = false ∧ (t.rd (R.AFE_CKk_STAT_INVAL (n / 12))).testBit (n % 12) = false ∧
    t.on (R.AFE_CHn_STAT_CK_INVAL n) = false ∧ t.itemLive 18 n = false := by
  intro t
  have hr (f : Fld) : t.rd f = (passShown s n).rd f := rd_of_regs (ckPass_regs s n) f
  have hinval : (passShown s n).rd (R.AFE_CKk_STAT_INVAL (n / 12)) = (showInval s n false).rd (R.AFE_CKk_STAT_INVAL (n / 12)) :=
    rd_wr_ne _ _ (key_ne (by omega))
  refine ⟨?_, ?_, ?_, itemLive_itemOff_self ..⟩
  · rw [hr, passShown, testBit_clrBit _ _ (show n % 12 < 12 by omega), decide_eq_false (by simp), Bool.and_false]
  · rw [hr, hinval, (showInval_shows s n false).1]
  · exact (on_of_rd ((hr _).trans (rd_wr_ne _ _ (key_ne (by omega))))).trans (showInval_shows s n false).2

/-- A failure counted, logged, and SUSPECT set. -/
def failCounted (s : State) (n : Nat) : State :=
  ((setAfe s { s.afe with fails := mput s.afe.fails n (mget s.afe.fails n 0 + 1) }).logIx 0x06 2 n).setBit
    (R.AFE_CKk_STAT_SUSPECT (n / 12)) (n % 12)

theorem ckFailInput_eq (s : State) (n : Nat) : ckFailInput s n =
    if mget s.afe.fails n 0 + 1 = 2 then (showInval (failCounted s n) n true).itemOn 18 n n else failCounted s n := rfl

theorem failCounted_kept (s : State) (n : Nat) : KeptBut s (failCounted s n) (verdictFlds n) :=
  (keptBut_of_regs (t := (setAfe s { s.afe with fails := mput s.afe.fails n (mget s.afe.fails n 0 + 1) }).logIx 0x06 2 n) rfl _).wr
    (by simp [verdictFlds]) _

theorem failCounted_suspect (s : State) (n : Nat) :
    ((failCounted s n).rd (R.AFE_CKk_STAT_SUSPECT (n / 12))).testBit (n % 12) = true := by
  rw [failCounted, testBit_setBit _ _ (show n % 12 < 12 by omega), decide_eq_true rfl, Bool.or_true]

theorem ckFailInput_kept (s : State) (n : Nat) : KeptBut s (ckFailInput s n) (verdictFlds n) := by
  rw [ckFailInput_eq]
  split
  · exact ((failCounted_kept s n).trans (showInval_kept _ n true)).of_regs (itemOn_regs ..)
  · exact failCounted_kept s n

theorem ckFailInput_suspect (s : State) (n : Nat) :
    ((ckFailInput s n).rd (R.AFE_CKk_STAT_SUSPECT (n / 12))).testBit (n % 12) = true := by
  rw [ckFailInput_eq]
  split
  · have hs : (showInval (failCounted s n) n true).rd (R.AFE_CKk_STAT_SUSPECT (n / 12)) =
        (failCounted s n).rd (R.AFE_CKk_STAT_SUSPECT (n / 12)) :=
      (rd_wrb_ne _ _ (key_ne (by omega))).trans (putBit_rd_ne _ _ _ (key_ne (by omega)))
    rw [rd_of_regs (itemOn_regs ..), hs, failCounted_suspect]
  · exact failCounted_suspect s n

theorem ckFailInput_fails (s : State) (n : Nat) : mget (ckFailInput s n).afe.fails n 0 = mget s.afe.fails n 0 + 1 := by
  rw [ckFailInput_eq]
  split
  · rw [itemOn_afe, showInval, wrb_afe, putBit_afe]
    exact mget_mput_self ..
  · exact mget_mput_self ..

theorem ckFailInput_second {s : State} {n : Nat} (h : mget s.afe.fails n 0 = 1) : let t := ckFailInput s n
    (t.rd (R.AFE_CKk_STAT_INVAL (n / 12))).testBit (n % 12) = true ∧ t.on (R.AFE_CHn_STAT_CK_INVAL n) = true ∧ t.itemLive 18 n = true := by
  intro t
  have ht : t = (showInval (failCounted s n) n true).itemOn 18 n n := (ckFailInput_eq s n).trans (if_pos (by rw [h]))
  obtain ⟨hbit, hon⟩ := showInval_shows (failCounted s n) n true
  rw [ht]
  exact ⟨by rw [rd_of_regs (itemOn_regs ..), hbit], by rw [on_of_rd (rd_of_regs (itemOn_regs ..) _), hon], itemLive_itemOn_self ..⟩

/-! ### The end of a dwell (R71, R73 to R77) -/

/-- The state after a dwell of checker `k` judged `v`, before the checker moves on. -/
def dwellJudged (s : State) (k v : Nat) : State :=
  match v with
  | 0 => ckPass (dwellShown s k v) (12 * k + (ckOf s k).pos)
  | 1 => ckGroups (ckFailInput ((dwellShown s k v).sat1 (R.AFE_CKk_CNT_FAILS k)) (12 * k + (ckOf s k).pos)) k (ckOf s k).pos
  | _ => (dwellShown s k v).sat1 (R.AFE_CKk_CNT_VOIDS k)

/-- What a dwell leaves as it was, whatever its verdict. -/
theorem dwell_kept {s t : State} {k : Fin 4} {v n : Nat} (hn : n < 48) (h : KeptBut (dwellShown s k v) t (afterFlds k n)) :
    RegsKept s t [(0x600104 + 0x10 * k.val, 0x600110 + 0x10 * k.val), (0x601004 + 0x20 * n, 0x601008 + 0x20 * n)] :=
  regsKept_trans (dwellShown_regsKept s k v _) (h.regsKept (afterFlds_within hn))

theorem ckNext_after {u : State} (k n : Nat) : KeptBut u (ckNext u k) (afterFlds k n) :=
  (ckNext_step u k (by simp [afterFlds]) (by simp [afterFlds])).flds

theorem verdictFlds_subset {k n : Nat} (h : n / 12 = k) : verdictFlds n ⊆ afterFlds k n := by
  simp [verdictFlds, afterFlds, h]

section Dwell
variable {k : Fin 4} {s : State}

theorem checkerDwellEnd_waits (h : ¬ (ckRuns s k = true ∧ (ckOf s k).phase = 2 ∧ Ripe s k)) :
    exec (.checkerDwellEnd k) s = .next s := by
  rw [exec, execCheckerDwellEnd]
  refine congrArg _ (if_pos ?_)
  by_contra hn
  simp only [Bool.or_eq_true, Bool.not_eq_true', bne_iff_ne, not_or, not_not, Bool.not_eq_false, dwellOver_iff] at hn
  exact h ⟨hn.1.1.2, hn.1.2, hn.2⟩

variable (hp : s.pg 10 = true) (hr : ckRuns s k = true) (h2 : (ckOf s k).phase = 2) (hripe : Ripe s k)
include hp hr h2 hripe

theorem exec_checkerDwellEnd : exec (.checkerDwellEnd k) s = .next (ckNext (dwellJudged s k (judge s k (ckOf s k))) k) := by
  have hc : (!s.pg 10 || !ckRuns s k || (ckOf s k).phase != 2 || !dwellOver s k (ckOf s k)) = false := by
    rw [hp, hr, h2, (dwellOver_iff s k).mpr hripe]
    rfl
  rw [exec, execCheckerDwellEnd]
  exact congrArg _ (if_neg (Bool.eq_false_iff.mp hc))

variable (hpos : (ckOf s k).pos < 12)
include hpos

theorem checkerDwellEnd_void (hv : DwellVoid s k) : let n := 12 * k.val + (ckOf s k).pos
    Runs (.checkerDwellEnd k) s fun t => t.rd (R.AFE_CKk_LASTD_RESULT k) = 2 ∧ t.rd (R.AFE_CKk_LASTD_POS k) = (ckOf s k).pos ∧
      t.rd (R.AFE_CKk_CNT_VOIDS k) = min (s.rd (R.AFE_CKk_CNT_VOIDS k) + 1) 4095 ∧ t.afe.fails = s.afe.fails ∧
      SameBytes s t ∧ RegsKept s t [(0x600104 + 0x10 * k.val, 0x600110 + 0x10 * k.val), (0x601004 + 0x20 * n, 0x601008 + 0x20 * n)] := by
  intro n
  set u := (dwellShown s k 2).sat1 (R.AFE_CKk_CNT_VOIDS k)
  have hx : exec (.checkerDwellEnd k) s = .next (ckNext u k) := by
    rw [exec_checkerDwellEnd hp hr h2 hripe, judge_void hv]
    rfl
  have hnext : CheckerStep u (ckNext u k) [R.AFE_CKk_STAT_POS k, R.AFE_CKk_CNT_SWEEPS k] := ckNext_step u k (by simp) (by simp)
  have hafter : KeptBut (dwellShown s k 2) (ckNext u k) (afterFlds k n) :=
    ((keptBut_refl _ _).wr (by simp [afterFlds]) _).trans (ckNext_after k n)
  have hvoids : u.rd (R.AFE_CKk_CNT_VOIDS k) = min (s.rd (R.AFE_CKk_CNT_VOIDS k) + 1) 4095 := by
    rw [rd_sat1, dwellShown_kept s k 2 (R.AFE_CKk_CNT_VOIDS k) ⟨key_ne (by omega), key_ne (by omega), key_ne (by omega)⟩]
    rfl
  refine ⟨_, hx, lastd_result hafter (by decide), lastd_pos hafter hpos, ?_, ?_, sameBytes_of_mem ((ckNext_mem ..).trans rfl),
    dwell_kept (by omega) hafter⟩
  · rw [hnext.flds (R.AFE_CKk_CNT_VOIDS k) ⟨key_ne (by omega), key_ne (by omega)⟩, hvoids]
  · rw [hnext.afe]
    rfl

theorem checkerDwellEnd_pass (hv : ¬ DwellVoid s k) (hb : ¬ Beyond s k) : let n := 12 * k.val + (ckOf s k).pos
    Runs (.checkerDwellEnd k) s fun t => t.rd (R.AFE_CKk_LASTD_RESULT k) = 0 ∧ t.rd (R.AFE_CKk_LASTD_POS k) = (ckOf s k).pos ∧
      (t.rd (R.AFE_CKk_STAT_SUSPECT k)).testBit (ckOf s k).pos = false ∧ (t.rd (R.AFE_CKk_STAT_INVAL k)).testBit (ckOf s k).pos = false ∧
      t.on (R.AFE_CHn_STAT_CK_INVAL n) = false ∧ t.itemLive 18 n = false ∧
      SameBytes s t ∧ RegsKept s t [(0x600104 + 0x10 * k.val, 0x600110 + 0x10 * k.val), (0x601004 + 0x20 * n, 0x601008 + 0x20 * n)] := by
  intro n
  have hn : n < 48 := by omega
  have hdiv : n / 12 = k.val := by omega
  have hmod : n % 12 = (ckOf s k).pos := by omega
  set u := ckPass (dwellShown s k 0) n
  have hx : exec (.checkerDwellEnd k) s = .next (ckNext u k) := by
    rw [exec_checkerDwellEnd hp hr h2 hripe, judge_pass hv hb]
    rfl
  have hnext : CheckerStep u (ckNext u k) [R.AFE_CKk_STAT_POS k, R.AFE_CKk_CNT_SWEEPS k] := ckNext_step u k (by simp) (by simp)
  have hafter : KeptBut (dwellShown s k 0) (ckNext u k) (afterFlds k n) :=
    ((ckPass_kept _ n).mono (verdictFlds_subset hdiv)).trans (ckNext_after k n)
  obtain ⟨hsus, hinv, hck, hitem⟩ := ckPass_shows (dwellShown s k 0) n
  rw [hdiv, hmod] at hsus hinv
  refine ⟨_, hx, lastd_result hafter (by decide), lastd_pos hafter hpos, ?_, ?_, ?_, (hnext.items 18 n (.inr hn)).trans hitem,
    sameBytes_of_mem ((ckNext_mem ..).trans (ckPass_mem ..)), dwell_kept hn hafter⟩
  · rw [hnext.flds (R.AFE_CKk_STAT_SUSPECT k) ⟨key_ne (by omega), key_ne (by omega)⟩, hsus]
  · rw [hnext.flds (R.AFE_CKk_STAT_INVAL k) ⟨key_ne (by omega), key_ne (by omega)⟩, hinv]
  · rw [on_of_rd (hnext.flds (R.AFE_CHn_STAT_CK_INVAL n) ⟨key_ne (by omega), key_ne (by omega)⟩), hck]

theorem checkerDwellEnd_fail (hv : ¬ DwellVoid s k) (hb : Beyond s k) : let n := 12 * k.val + (ckOf s k).pos
    Runs (.checkerDwellEnd k) s fun t => t.rd (R.AFE_CKk_LASTD_RESULT k) = 1 ∧ t.rd (R.AFE_CKk_LASTD_POS k) = (ckOf s k).pos ∧
      t.rd (R.AFE_CKk_LASTD_DIFF k) = (ckOf s k).sd / (ckOf s k).m % 2 ^ 24 ∧
      (t.rd (R.AFE_CKk_STAT_SUSPECT k)).testBit (ckOf s k).pos = true ∧
      t.rd (R.AFE_CKk_CNT_FAILS k) = min (s.rd (R.AFE_CKk_CNT_FAILS k) + 1) 4095 ∧
      mget t.afe.fails n 0 = mget s.afe.fails n 0 + 1 ∧
      (mget s.afe.fails n 0 = 1 → (t.rd (R.AFE_CKk_STAT_INVAL k)).testBit (ckOf s k).pos = true ∧
        t.on (R.AFE_CHn_STAT_CK_INVAL n) = true ∧ t.itemLive 18 n = true) ∧
      SameBytes s t ∧ RegsKept s t [(0x600104 + 0x10 * k.val, 0x600110 + 0x10 * k.val), (0x601004 + 0x20 * n, 0x601008 + 0x20 * n)] := by
  intro n
  have hn : n < 48 := by omega
  have hdiv : n / 12 = k.val := by omega
  have hmod : n % 12 = (ckOf s k).pos := by omega
  set w := (dwellShown s k 1).sat1 (R.AFE_CKk_CNT_FAILS k)
  set v := ckFailInput w n
  set t := ckNext (ckGroups v k (ckOf s k).pos) k
  have hx : exec (.checkerDwellEnd k) s = .next t := by
    rw [exec_checkerDwellEnd hp hr h2 hripe, judge_fail hv hb]
    rfl
  -- what grouping the failure and the move write, apart from the fields read below
  have hmove : CheckerStep v t [R.AFE_CKk_STAT_POS k, R.AFE_CKk_CNT_SWEEPS k, R.AFE_CKk_STAT_FAILED k, R.AFE_CKk_STAT_FAILED_STK k] :=
    (ckGroups_step v k _ (by simp) (by simp)).trans (ckNext_step _ k (by simp) (by simp))
  have hread {d : Dom} {a lo b r : Nat} {c : Acc} (h : lo ≠ 24 ∧ lo ≠ 31 ∧ lo ≠ 30 ∧ lo < 32) :
      t.rd ⟨d, a, lo, b, c, r⟩ = v.rd ⟨d, a, lo, b, c, r⟩ :=
    hmove.flds _ ⟨key_ne (by omega), key_ne (by omega), key_ne (by omega), key_ne (by omega)⟩
  have hafter : KeptBut (dwellShown s k 1) t (afterFlds k n) :=
    (((keptBut_refl _ _).wr (by simp [afterFlds]) _).trans ((ckFailInput_kept w n).mono (verdictFlds_subset hdiv))).trans
      (hmove.flds.mono (by simp [afterFlds]))
  have hsus : (v.rd (R.AFE_CKk_STAT_SUSPECT (n / 12))).testBit (n % 12) = true := ckFailInput_suspect w n
  rw [hdiv, hmod] at hsus
  have hcnt : v.rd (R.AFE_CKk_CNT_FAILS k) = min (s.rd (R.AFE_CKk_CNT_FAILS k) + 1) 4095 := by
    rw [ckFailInput_kept w n (R.AFE_CKk_CNT_FAILS k) ⟨key_ne (by omega), key_ne (by omega), key_ne (by omega)⟩, rd_sat1,
      dwellShown_kept s k 1 (R.AFE_CKk_CNT_FAILS k) ⟨key_ne (by omega), key_ne (by omega), key_ne (by omega)⟩]
    rfl
  refine ⟨_, hx, lastd_result hafter (by decide), lastd_pos hafter hpos, lastd_diff hafter (by decide),
    (congrArg (Nat.testBit · _) (hread (by omega))).trans hsus, (hread (by omega)).trans hcnt, ?_, fun h1 => ?_,
    sameBytes_of_mem ((ckNext_mem ..).trans ((ckGroups_mem ..).trans (ckFailInput_mem ..))), dwell_kept hn hafter⟩
  · rw [hmove.afe]
    exact ckFailInput_fails w n
  · obtain ⟨hinv, hck, hitem⟩ := ckFailInput_second (s := w) (n := n) h1
    rw [hdiv, hmod] at hinv
    exact ⟨(congrArg (Nat.testBit · _) (hread (by omega))).trans hinv, (on_of_rd (hread (by omega))).trans hck,
      (hmove.items 18 n (.inr hn)).trans hitem⟩

end Dwell

/-! ### The restart of a failed checker (R78) -/

/-- Checker `k`'s failure, suspicions and counts cleared. -/
def ckCleared (s : State) (k : Nat) : State :=
  setAfe ((((s.wrb (R.AFE_CKk_STAT_FAILED k) false).wr (R.AFE_CKk_STAT_SUSPECT k) 0).itemOff 18 (128 + k)))
    { s.afe with fails := s.afe.fails.filter fun e => e.1 / 12 != k }

/-- The fields that a restart of checker `k` writes. -/
def restartFlds (k : Nat) : List Fld :=
  [R.AFE_CKk_STAT_FAILED k, R.AFE_CKk_STAT_FAILED_STK k, R.AFE_CKk_STAT_SUSPECT k, R.AFE_CKk_STAT_POS k]

theorem restartFlds_within (k : Fin 4) :
    (restartFlds k).Forall fun g => Within g [(0x600104 + 0x10 * k.val, 0x600108 + 0x10 * k.val)] :=
  ⟨within_head (by omega), within_head (by omega), within_head (by omega), within_head (by omega)⟩

section Restart
variable (s : State) (k : Nat)

theorem ckCleared_regs : (ckCleared s k).regs = ((s.wrb (R.AFE_CKk_STAT_FAILED k) false).wr (R.AFE_CKk_STAT_SUSPECT k) 0).regs := rfl

theorem ckCleared_kept : KeptBut s (ckCleared s k) (restartFlds k) :=
  (((keptBut_refl s _).wrb (by simp [restartFlds]) _).wr (by simp [restartFlds]) _).of_regs (ckCleared_regs s k)

/-- The checker cleared, and its sweep begun anew. -/
def resumed : State := ckSweep (ckCleared s k) k

theorem resumed_step : CheckerStep (ckCleared s k) (resumed s k) [R.AFE_CKk_STAT_POS k] := ckSweep_step _ k (by simp)

theorem resumed_kept : KeptBut s (resumed s k) (restartFlds k) :=
  (ckCleared_kept s k).trans ((resumed_step s k).flds.mono (by simp [restartFlds]))

theorem resumed_suspect : (resumed s k).rd (R.AFE_CKk_STAT_SUSPECT k) = 0 := by
  rw [(resumed_step s k).flds (R.AFE_CKk_STAT_SUSPECT k) (key_ne (by omega)), rd_of_regs (ckCleared_regs s k), rd_wr_self, Nat.zero_mod]

theorem resumed_failed : (resumed s k).on (R.AFE_CKk_STAT_FAILED k) = false := by
  rw [on_of_rd ((resumed_step s k).flds (R.AFE_CKk_STAT_FAILED k) (key_ne (by omega))), on_of_rd (rd_of_regs (ckCleared_regs s k) _)]
  exact (on_of_rd (rd_wr_ne _ _ (key_ne (by omega)))).trans (on_wrb_self s _ false rfl)

theorem resumed_fails {j : Nat} (hj : j < 12) : mget (resumed s k).afe.fails (12 * k + j) 0 = 0 := by
  rw [(resumed_step s k).afe]
  refine (mget_filter s.afe.fails (fun x => x / 12 != k) _ 0).trans (if_neg ?_)
  rw [show (12 * k + j) / 12 = k by omega, bne_self_eq_false]
  decide

theorem resumed_mem : (resumed s k).mem = s.mem := ckSweep_mem ..

end Restart

theorem exec_checkerRestart {k : Fin 4} {s : State} (hp : s.pg 10 = true) : exec (.checkerRestart k) s =
    .next (if (s.rd R.AFE_GRP_LIVE_REF_FAIL).testBit 12 then ckFail (resumed s k) k else resumed s k) := by
  have hlive : (resumed s k).rd R.AFE_GRP_LIVE_REF_FAIL = s.rd R.AFE_GRP_LIVE_REF_FAIL :=
    resumed_kept s k _ ⟨key_ne (by omega), key_ne (by omega), key_ne (by omega), key_ne (by omega)⟩
  rw [← hlive]
  simp only [exec, execCheckerRestart, hp, Bool.not_true, Bool.false_eq_true, if_false]
  rfl

theorem checkerRestart_clears {k : Fin 4} {s : State} (hp : s.pg 10 = true) : Runs (.checkerRestart k) s fun t =>
      t.on (R.AFE_CKk_STAT_FAILED k) = (s.rd R.AFE_GRP_LIVE_REF_FAIL).testBit 12 ∧ t.rd (R.AFE_CKk_STAT_SUSPECT k) = 0 ∧
      (∀ j < 12, mget t.afe.fails (12 * k.val + j) 0 = 0) ∧ SameBytes s t ∧
      RegsKept s t [(0x600104 + 0x10 * k.val, 0x600108 + 0x10 * k.val)] := by
  refine ⟨_, exec_checkerRestart hp, ?_⟩
  split
  next h12 =>
    have hfail : CheckerStep (resumed s k) (ckFail (resumed s k) k) [R.AFE_CKk_STAT_FAILED k, R.AFE_CKk_STAT_FAILED_STK k] :=
      ckFail_step _ k (by simp) (by simp)
    refine ⟨(ckFail_failed _ _).trans h12.symm, ?_, fun j hj => ?_, sameBytes_of_mem ((ckFail_mem ..).trans (resumed_mem s k)),
      ((resumed_kept s k).trans (hfail.flds.mono (by simp [restartFlds]))).regsKept (restartFlds_within k)⟩
    · rw [hfail.flds (R.AFE_CKk_STAT_SUSPECT k) ⟨key_ne (by omega), key_ne (by omega)⟩, resumed_suspect]
    · rw [hfail.afe]
      exact resumed_fails s k hj
  next h12 => exact ⟨(resumed_failed s k).trans (Bool.eq_false_iff.mpr h12).symm, resumed_suspect s k, fun j hj => resumed_fails s k hj,
      sameBytes_of_mem (resumed_mem s k), (resumed_kept s k).regsKept (restartFlds_within k)⟩

/-! ### The front end without power -/

/-- Every command of the front end looks at PD10 first. -/
theorem afe_unpowered {c : Instr} {s : State} (h : s.pg 10 = false)
    (hc : (∃ g, c = .refWindowExit g ∨ c = .refRecoveryEnd g) ∨ c = .refSettleEnd ∨ c = .lpmChangeEffect ∨
      (∃ v, c = .lpmRequest v ∨ c = .refselChange v) ∨ (∃ x, c = .overloadDetect x) ∨
      (∃ m, c = .overloadIntervalEnd m ∨ c = .neighbourTagEnd m) ∨ (∃ n g, c = .gainWrite n g) ∨
      (∃ n, c = .afeInputEnable n ∨ c = .afeInputDisable n ∨ c = .accumulatorSwap n) ∨
      (∃ k, c = .checkerSettleEnd k ∨ c = .checkerDwellEnd k ∨ c = .checkerRestart k)) : exec c s = .next s := by
  rcases hc with ⟨g, rfl | rfl⟩ | rfl | rfl | ⟨v, rfl | rfl⟩ | ⟨x, rfl⟩ | ⟨m, rfl | rfl⟩ | ⟨n, g, rfl⟩ | ⟨n, rfl | rfl | rfl⟩ |
    ⟨k, rfl | rfl | rfl⟩
  · simp [exec, execRefWindowExit, h]
  · simp [exec, execRefRecoveryEnd, h]
  · simp [exec, execRefSettleEnd, h]
  · simp [exec, execLpmChangeEffect, h]
  · simp [exec, execLpmRequest, h]
  · simp [exec, execRefselChange, h]
  · simp [exec, execOverloadDetect, h]
  · simp [exec, execOverloadIntervalEnd, h]
  · simp [exec, execNeighbourTagEnd, h]
  · simp [exec, execGainWrite, h]
  · simp [exec, execAfeInputEnable, h]
  · simp [exec, execAfeInputDisable, h]
  · simp [exec, execAccumulatorSwap, h]
  · simp [exec, execCheckerSettleEnd, h]
  · simp [exec, execCheckerDwellEnd, h]
  · simp [exec, execCheckerRestart, h]

/-- Settles O49, command by command. -/
theorem analogueFrontEnd : Obligations.AnalogueFrontEnd := by
  refine ⟨fun c s h hc => afe_unpowered h hc, fun g s hp => ⟨refWindowExit_ready g hp, refWindowExit_settling g hp,
      refRecoveryEnd_over hp, refRecoveryEnd_soon⟩,
    fun s hp => ⟨refSettleEnd_due hp, refSettleEnd_early⟩,
    fun v s hp => ⟨lpmRequest_taken hp, fun n => lpmRequest_refused hp,
      fun a hreq => ⟨lpmChangeEffect_due hp hreq, lpmChangeEffect_early hp hreq⟩, refselChange_taken hp, refselChange_ignored⟩,
    fun m s hp => ?overload,
    fun n g s hp => ⟨gainWrite_ignored, gainWrite_taken hp, afeInputEnable_starts hp, afeInputDisable_stops hp,
      afeInputEnable_ignored, afeInputDisable_ignored⟩,
    fun n s hp => ⟨accumulatorSwap_closes hp, accumulatorSwap_open hp⟩,
    fun k s hp => ?checker⟩
  case overload =>
    intro near kept inReset inside past
    have hreset : inLoopReset s m = true ↔ inReset := inLoopReset_iff s m
    have hin : inOvl s m = true ↔ inside := inOvl_iff s m
    have hreset' (h : ¬ inReset) : inLoopReset s m = false := Bool.eq_false_iff.mpr (hreset.not.mpr h)
    have hin' (h : ¬ inside) : inOvl s m = false := Bool.eq_false_iff.mpr (hin.not.mpr h)
    exact ⟨fun pos he hr ho => overloadDetect_begins pos hp he (hreset' hr) (hin' ho),
      fun pos he hr ho => overloadDetect_extends pos hp he (hreset' hr) (hin.mpr ho),
      fun pos h => overloadDetect_ignored pos (h.imp_right hreset.mpr),
      fun a hr hf => overloadIntervalEnd_ends hp (hreset' hr) hf,
      fun h => overloadIntervalEnd_ignored (h.imp hreset.mpr hin'),
      fun a b hf => neighbourTagEnd_past hp hf, neighbourTagEnd_early⟩
  case checker =>
    intro c n runs ripe void beyond kept free
    have hruns : ckRuns s k = true ↔ runs := ckRuns_iff s k
    have hfree (j : Nat) : eligible s k j = true ↔ free j := eligible_iff s k j
    refine ⟨fun j hj hr h0 he hlow => checkerSettleEnd_sweeps hp (hruns.mpr hr) h0 hj ((hfree j).mpr he)
        fun i hi => (hfree i).not.mpr (hlow i hi),
      fun hr h1 ht => checkerSettleEnd_over hp (hruns.mpr hr) h1 ht,
      fun h => checkerSettleEnd_waits (h.imp_left fun hr => Bool.eq_false_iff.mpr (hruns.not.mpr hr)),
      fun hr h2 hripe hpos hv => checkerDwellEnd_void hp (hruns.mpr hr) h2 hripe hpos hv,
      fun hr h2 hripe hpos hv hb => checkerDwellEnd_pass hp (hruns.mpr hr) h2 hripe hpos hv hb,
      fun hr h2 hripe hpos hv hb => checkerDwellEnd_fail hp (hruns.mpr hr) h2 hripe hpos hv hb,
      fun h => checkerDwellEnd_waits fun hx => h ⟨hruns.mp hx.1, hx.2⟩, checkerRestart_clears hp⟩

end Sys2Proof.Machine
end

section
/-! PROOFS. Layer of the chains and resamplers: the fields of a half-band stage, chains and resamplers after an update. -/
namespace Sys2Proof.Machine

/-! ### The fields of a stage (DCH_CHn_BSTAT) -/

/-- The place of a stage's four fields in BSTAT, in steps of four bits; a number that is no stage has those of stage 5. -/
def stagePos (st : Nat) : Nat := match st with | 1 => 0 | 2 => 1 | 3 => 2 | 4 => 3 | _ => 4

theorem stagePos_le (st : Nat) : stagePos st ≤ 4 := by
  unfold stagePos
  split <;> decide

theorem stagePos_succ {st : Nat} (h1 : 1 ≤ st) (h5 : st ≤ 5) : stagePos st + 1 = st := by
  interval_cases st <;> rfl

theorem hbAct_eq (n st : Nat) : hbAct n st = ⟨.img, 0x70100C + 0x40 * n, 4 * stagePos st, 1, .ro, 0⟩ :=
  match st with | 0 | 1 | 2 | 3 | 4 | _ + 5 => rfl
theorem hbBusy_eq (n st : Nat) : hbBusy n st = ⟨.sys, 0x70100C + 0x40 * n, 4 * stagePos st + 1, 1, .ro, 0⟩ :=
  match st with | 0 | 1 | 2 | 3 | 4 | _ + 5 => rfl
theorem hbPend_eq (n st : Nat) : hbPend n st = ⟨.sys, 0x70100C + 0x40 * n, 4 * stagePos st + 2, 1, .ro, 0⟩ :=
  match st with | 0 | 1 | 2 | 3 | 4 | _ + 5 => rfl
theorem hbPendBank_eq (n st : Nat) : hbPendBank n st = ⟨.sys, 0x70100C + 0x40 * n, 4 * stagePos st + 3, 1, .ro, 0⟩ :=
  match st with | 0 | 1 | 2 | 3 | 4 | _ + 5 => rfl

/-- The fields that a stage's fades and bank requests write. -/
def stageFlds (n st : Nat) : List Fld := [hbAct n st, hbBusy n st, hbPend n st, hbPendBank n st]

/-- A field lies in BSTAT of chain `n`, below its LOADED bits. -/
def InBstat (n : Nat) (f : Fld) : Prop := f.addr = 0x70100C + 0x40 * n ∧ f.lo < 20

theorem stageFlds_place {n st : Nat} {f : Fld} (h : f ∈ stageFlds n st) : InBstat n f := by
  have hpos := stagePos_le st
  simp only [stageFlds, hbAct_eq, hbBusy_eq, hbPend_eq, hbPendBank_eq, List.mem_cons, List.not_mem_nil, or_false] at h
  rcases h with rfl | rfl | rfl | rfl
  all_goals exact ⟨rfl, by dsimp only; omega⟩

/-- The range that BSTAT of chain `n` is. -/
theorem InBstat.within {n : Nat} {f : Fld} (h : InBstat n f) (hn : n < 48) {l : List (Nat × Nat)}
    (hl : (0x70100C + 0x40 * n, 0x701010 + 0x40 * n) ∈ l) : Within f l := by
  obtain ⟨ha, hlo⟩ := h
  exact ⟨by omega, by omega, _, hl, by dsimp only; omega⟩

/-- A field elsewhere in its word, or of another register, is none of BSTAT's. -/
theorem InBstat.key_ne {n : Nat} {f : Fld} (h : InBstat n f) {d : Dom} {a lo w r : Nat} {c : Acc}
    (hg : lo < 32 ∧ (20 ≤ lo ∨ a < 0x4000000 ∧ n < 48 ∧ a ≠ 0x70100C + 0x40 * n)) : Fld.key ⟨d, a, lo, w, c, r⟩ ≠ f.key := by
  obtain ⟨ha, hlo⟩ := h
  intro he
  simp only [Fld.key] at he
  omega

/-- ACT, BUSY, PEND and PENDBANK of one stage are four fields. -/
theorem stageFlds_key_ne (n st : Nat) : (hbAct n st).key ≠ (hbBusy n st).key ∧ (hbAct n st).key ≠ (hbPend n st).key ∧
    (hbAct n st).key ≠ (hbPendBank n st).key ∧ (hbBusy n st).key ≠ (hbPend n st).key ∧
    (hbBusy n st).key ≠ (hbPendBank n st).key ∧ (hbPend n st).key ≠ (hbPendBank n st).key := by
  have hpos := stagePos_le st
  rw [hbAct_eq, hbBusy_eq, hbPend_eq, hbPendBank_eq]
  exact ⟨key_ne (by omega), key_ne (by omega), key_ne (by omega), key_ne (by omega), key_ne (by omega), key_ne (by omega)⟩

/-- Two stages share no field. -/
theorem stageFlds_disjoint {n i j : Nat} (h : stagePos i ≠ stagePos j) {f g : Fld} (hf : f ∈ stageFlds n i) (hg : g ∈ stageFlds n j) :
    f.key ≠ g.key := by
  have hi := stagePos_le i
  have hj := stagePos_le j
  simp only [stageFlds, hbAct_eq, hbBusy_eq, hbPend_eq, hbPendBank_eq, List.mem_cons, List.not_mem_nil, or_false] at hf hg
  rcases hf with rfl | rfl | rfl | rfl <;> rcases hg with rfl | rfl | rfl | rfl <;> exact key_ne (by omega)

theorem hbFlds_w (n st : Nat) : (hbAct n st).w = 1 ∧ (hbBusy n st).w = 1 ∧ (hbPend n st).w = 1 ∧ (hbPendBank n st).w = 1 := by
  rw [hbAct_eq, hbBusy_eq, hbPend_eq, hbPendBank_eq]
  exact ⟨rfl, rfl, rfl, rfl⟩

/-- A one-bit field reads a bank number that was written to it. -/
theorem rd_wr_bit (s : State) {f : Fld} {v : Nat} (hw : f.w = 1) (hv : v < 2) : (s.wr f v).rd f = v := by
  rw [rd_wr_self, hw]
  exact Nat.mod_eq_of_lt hv

/-! ### Chains and resamplers after an update -/

@[simp] theorem chainOf_setChain (s : State) (n : Nat) (c : Chain) : chainOf (setChain s n c) n = c := mget_mput_self ..
@[simp] theorem rsOf_setRs (s : State) (m : Nat) (r : Rs) : rsOf (setRs s m r) m = r := mget_mput_self ..
@[simp] theorem rsOf_modRs (s : State) (m : Nat) (f : Rs → Rs) : rsOf (modRs s m f) m = f (rsOf s m) := mget_mput_self ..
@[simp] theorem hbOf_setHb (c : Chain) (st : Nat) (h : Hb) : hbOf (setHb c st h) st = h := mget_mput_self ..
theorem hbOf_setHb_ne (c : Chain) {st j : Nat} (h : Hb) (hj : j ≠ st) : hbOf (setHb c st h) j = hbOf c j := mget_mput_ne _ _ _ hj

@[simp] theorem setChain_regs (s : State) (n : Nat) (c : Chain) : (setChain s n c).regs = s.regs := rfl
@[simp] theorem setChain_img (s : State) (n : Nat) (c : Chain) : (setChain s n c).img = s.img := rfl
@[simp] theorem markTag_regs (s : State) (m letter a b : Nat) : (markTag s m letter a b).regs = s.regs := rfl
@[simp] theorem chainOf_wr (s : State) (f : Fld) (v n : Nat) : chainOf (s.wr f v) n = chainOf s n := rfl
@[simp] theorem chainOf_wrb (s : State) (f : Fld) (b : Bool) (n : Nat) : chainOf (s.wrb f b) n = chainOf s n := rfl
@[simp] theorem chainOf_markTag (s : State) (m letter a b n : Nat) : chainOf (markTag s m letter a b) n = chainOf s n := rfl
@[simp] theorem on_modRs (s : State) (m : Nat) (f : Rs → Rs) (g : Fld) : (modRs s m f).on g = s.on g := rfl
@[simp] theorem rsOf_wr (s : State) (f : Fld) (v m : Nat) : rsOf (s.wr f v) m = rsOf s m := rfl
@[simp] theorem rsOf_wrb (s : State) (f : Fld) (b : Bool) (m : Nat) : rsOf (s.wrb f b) m = rsOf s m := rfl
@[simp] theorem rsOf_markTag (s : State) (m' letter a b m : Nat) : rsOf (markTag s m' letter a b) m = rsOf s m := rfl

/-- What a step of chain `n` or of a resampler leaves: nothing changes but the fields of `l`, the lists of chains and resamplers, and the
tagged runs; the chain's CIC stays, and its stages of which `P` holds. -/
structure DchStep (n : Nat) (l : List Fld) (P : Nat → Prop) (s t : State) : Prop where
  rest : t = { s with regs := t.regs, dch := { s.dch with chain := t.dch.chain, rs := t.dch.rs }, afe := { s.afe with runs := t.afe.runs } }
  flds : KeptBut s t l
  cic : (chainOf t n).cic = (chainOf s n).cic
  stages : ∀ j, P j → hbOf (chainOf t n) j = hbOf (chainOf s n) j

namespace DchStep
variable {n : Nat} {l : List Fld} {P : Nat → Prop} {s t u : State}

theorem refl (s : State) : DchStep n l P s s := ⟨rfl, keptBut_refl s l, rfl, fun _ _ => rfl⟩

theorem mem (h : DchStep n l P s t) : t.mem = s.mem := by rw [h.rest]
theorem tap (h : DchStep n l P s t) : t.dch.tap = s.dch.tap := by rw [h.rest]
theorem acc (h : DchStep n l P s t) : t.afe.acc = s.afe.acc := by rw [h.rest]
theorem img (h : DchStep n l P s t) : t.img = s.img := by rw [h.rest]

theorem trans (h : DchStep n l P s t) (hu : DchStep n l P t u) : DchStep n l P s u where
  rest := by
    have hr := hu.rest
    rw [h.rest] at hr
    exact hr
  flds := h.flds.trans hu.flds
  cic := hu.cic.trans h.cic
  stages j hj := (hu.stages j hj).trans (h.stages j hj)

theorem mono {l' : List Fld} {P' : Nat → Prop} (h : DchStep n l P s t) (hl : l ⊆ l') (hP : ∀ j, P' j → P j) : DchStep n l' P' s t :=
  ⟨h.rest, h.flds.mono hl, h.cic, fun j hj => h.stages j (hP j hj)⟩

/-- A field of the list takes a value. -/
theorem wr {f : Fld} (h : DchStep n l P s t) (hf : f ∈ l) (v : Nat) : DchStep n l P s (t.wr f v) where
  rest := by
    have hr := h.rest
    rw [hr]
    rfl
  flds := h.flds.wr hf v
  cic := h.cic
  stages := h.stages

theorem wrb {f : Fld} (h : DchStep n l P s t) (hf : f ∈ l) (b : Bool) : DchStep n l P s (t.wrb f b) := h.wr hf _

/-- A restart or a fade of a chain or resampler is tagged as one of its U events. -/
theorem markTag (h : DchStep n l P s t) (m letter a b : Nat) : DchStep n l P s (markTag t m letter a b) where
  rest := by
    have hr := h.rest
    rw [hr]
    rfl
  flds := h.flds
  cic := h.cic
  stages := h.stages

/-- A resampler takes a new state. -/
theorem setRs (h : DchStep n l P s t) (m : Nat) (r : Rs) : DchStep n l P s (setRs t m r) where
  rest := by
    have hr := h.rest
    rw [hr]
    rfl
  flds := h.flds
  cic := h.cic
  stages := h.stages

theorem modRs (h : DchStep n l P s t) (m : Nat) (f : Rs → Rs) : DchStep n l P s (modRs t m f) := h.setRs m _

/-- A stage of which `P` does not hold takes a new state. -/
theorem setStage {st : Nat} (h : DchStep n l P s t) (hst : ¬ P st) (x : Hb) : DchStep n l P s (setChain t n (setHb (chainOf t n) st x)) where
  rest := by
    have hr := h.rest
    rw [hr]
    rfl
  flds := h.flds
  cic := by rw [chainOf_setChain]; exact h.cic
  stages j hj := by
    have hne : j ≠ st := fun he => hst (he ▸ hj)
    rw [chainOf_setChain, hbOf_setHb_ne _ _ hne]
    exact h.stages j hj

theorem foldl {β : Type} {g : State → β → State} (hg : ∀ v b, DchStep n l P v (g v b)) (x : List β) (s : State) :
    DchStep n l P s (x.foldl g s) :=
  List.foldlRecOn (motive := DchStep n l P s) x g (refl s) fun v hv b _ => hv.trans (hg v b)

end DchStep

end Sys2Proof.Machine
end

section
/-! PROOFS. Coefficient loads (R92, R94, R106, R115, R546). -/
namespace Sys2Proof.Machine

/-! ### The window -/

theorem dchLoadOpen_opens (s : State) : Runs .dchLoadOpen s fun t => t.on R.DCH_LD_STAT_OPENED = true ∧ t.rd R.DCH_LD_STAT_COUNT = 0 ∧
    t.dch.stage = [] ∧
    t.dch.sel = s.rd R.DCH_LD_SEL_KIND * 2 ^ 31 + s.rd R.DCH_LD_SEL_STAGE * 2 ^ 28 + s.rd R.DCH_LD_SEL_IDX * 2 ^ 20 +
      s.rd R.DCH_LD_SEL_K * 2 ^ 16 + s.rd R.DCH_LD_SEL_BANK * 2 ^ 8 + s.rd R.DCH_LD_SEL_PROF ∧
    SameBytes s t ∧ RegsKept s t [(0x700010, 0x700014)] := by
  refine ⟨_, rfl, ?_, rd_wr_self .., rfl, rfl, fun _ => rfl, ?_⟩
  · rw [on_of_rd (rd_wr_ne _ _ (by decide)), on_wrb_self _ _ _ rfl]
  · exact regsKept_wr (within_head (by decide)) (regsKept_wr (within_head (by decide)) (regsKept_of_regs (regsKept_refl s _) rfl) _) _

theorem dchLoadData_stages (v : BitVec 32) {s : State} (h : s.on R.DCH_LD_STAT_OPENED = true) : Runs (.dchLoadData v) s fun t =>
    t.dch.stage = s.dch.stage ++ [v] ∧ t.rd R.DCH_LD_STAT_COUNT = min (s.rd R.DCH_LD_STAT_COUNT + 1) 8191 ∧ SameBytes s t ∧
      RegsKept s t [(0x700010, 0x700014)] := by
  refine ⟨(setDch s { s.dch with stage := s.dch.stage ++ [v] }).sat1 R.DCH_LD_STAT_COUNT, ?_, rfl, rd_sat1 .., fun _ => rfl, ?_⟩
  · rw [exec, execDchLoadData, h]
    rfl
  · exact regsKept_wr (within_head (by decide)) (regsKept_of_regs (regsKept_refl s _) (setDch_regs ..)) _

theorem dchLoadData_ignored (v : BitVec 32) {s : State} (h : s.on R.DCH_LD_STAT_OPENED = false) : exec (.dchLoadData v) s = .next s := by
  rw [exec, execDchLoadData, h]
  rfl

/-! ### The checks of a commit -/

theorem loadResult_locked {s : State} (h : s.on R.DCH_CTL_LOCK = true) : loadResult s = 5 := if_pos h

section HalfBand
variable {s : State} (hl : s.on R.DCH_CTL_LOCK = false) (hk : s.dch.sel / 2 ^ 31 = 0)
include hl hk

theorem loadResult_select (h : s.dch.sel / 2 ^ 28 % 8 = 0 ∨ 5 < s.dch.sel / 2 ^ 28 % 8 ∨ s.dch.sel / 2 ^ 16 % 16 = 0 ∨
    11 < s.dch.sel / 2 ^ 16 % 16 ∨ 47 < s.dch.sel / 2 ^ 20 % 256) : loadResult s = 6 := by
  have hkind : (selKind s.dch.sel == 0) = true := beq_iff_eq.mpr hk
  simp only [loadResult, hl, hkind, Bool.false_eq_true, if_false, if_true]
  exact if_pos h

theorem loadResult_hb (h : ¬ (s.dch.sel / 2 ^ 28 % 8 = 0 ∨ 5 < s.dch.sel / 2 ^ 28 % 8 ∨ s.dch.sel / 2 ^ 16 % 16 = 0 ∨
    11 < s.dch.sel / 2 ^ 16 % 16 ∨ 47 < s.dch.sel / 2 ^ 20 % 256)) : loadResult s =
    if s.dch.stage.length ≠ s.dch.sel / 2 ^ 16 % 16 + 1 then 4
    else if s.on (R.DCH_CHn_CTL_RUN (s.dch.sel / 2 ^ 20 % 256)) then 2
    else if 131072 + 2 * ((s.dch.stage.map fun x => (sgn 20 x.toNat).natAbs).sum) ≤ 524288 then 1 else 3 := by
  have hkind : (selKind s.dch.sel == 0) = true := beq_iff_eq.mpr hk
  have hsum : (hbCoefs s.dch.stage).map Int.natAbs = s.dch.stage.map fun x => (sgn 20 x.toNat).natAbs := List.map_map
  simp only [loadResult, hl, hkind, hsum, Bool.false_eq_true, if_false, if_true, decide_eq_true_eq]
  exact if_neg h

end HalfBand

/-! ### The end of a commit -/

/-- BUSY cleared and RESULT shown. -/
def resultShown (s : State) : State := (s.wrb R.DCH_LD_STAT_BUSY false).wr R.DCH_LD_STAT_RESULT s.dch.res

theorem commitEnds_idle {s : State} (h : s.on R.DCH_LD_STAT_BUSY = false) : commitEnds s = s := by
  rw [commitEnds, h]
  rfl

theorem commitEnds_refused {s : State} (h : s.on R.DCH_LD_STAT_BUSY = true) (hr : s.dch.res ≠ 1) : commitEnds s = resultShown s := by
  rw [commitEnds, h]
  exact if_neg hr

theorem commitEnds_accepted {s : State} (h : s.on R.DCH_LD_STAT_BUSY = true) (hr : s.dch.res = 1) :
    commitEnds s = storeBank s.dch.com.1 s.dch.com.2 (resultShown s) := by
  rw [commitEnds, h]
  exact if_pos hr

/-- The fields of a bank that show it loaded. -/
def bankFlds (w : Nat) : List Fld :=
  if selKind w = 0 then [R.DCH_CHn_BSTAT_LOADED (selIdx w)]
  else [R.DCH_RSm_STAT_LOADED_A (selIdx w), R.DCH_RSm_STAT_PROF_A (selIdx w), R.DCH_RSm_STAT_LOADED_B (selIdx w), R.DCH_RSm_STAT_PROF_B (selIdx w)]

theorem selIdx_lt (w : Nat) : selIdx w < 256 := Nat.mod_lt _ (by decide)

/-- They lie in BSTAT of a chain, in STAT of a resampler. -/
theorem bankFlds_within (w : Nat) : (bankFlds w).Forall fun f =>
    Within f [if selKind w = 0 then (0x70100C + 0x40 * selIdx w, 0x701010 + 0x40 * selIdx w)
      else (0x704010 + 0x40 * selIdx w, 0x704014 + 0x40 * selIdx w)] := by
  have hlt := selIdx_lt w
  unfold bankFlds
  split
  · exact within_head (by omega)
  · exact ⟨within_head (by omega), within_head (by omega), within_head (by omega), within_head (by omega)⟩

theorem storeBank_kept (w : Nat) (l : List Word) (s : State) : KeptBut s (storeBank w l s) (bankFlds w) := by
  unfold storeBank bankFlds
  extract_lets b
  split
  · exact (keptBut_of_regs (setDch_regs ..) _).wr List.mem_cons_self _
  · split
    · exact ((keptBut_of_regs (setDch_regs ..) _).wrb (by simp) _).wrb (by simp) _
    · exact ((keptBut_of_regs (setDch_regs ..) _).wrb (by simp) _).wrb (by simp) _

/-- None of them is a field of DCH_LD_STAT. -/
theorem storeBank_ldStat (w : Nat) (l : List Word) (s : State) {f : Fld} (hf : f.lo < 32 ∧ f.addr = 0x700010) :
    (storeBank w l s).rd f = s.rd f :=
  (storeBank_kept w l s).regsKept (bankFlds_within w) f hf.1 (by omega) fun x hx => by
    rw [List.mem_singleton.mp hx]
    split <;> dsimp only <;> omega

theorem storeBank_hb {w : Nat} (l : List Word) (s : State) (hk : selKind w = 0) : storeBank w l s =
    (setDch s { s.dch with hbBank := mput s.dch.hbBank (10 * selIdx w + 2 * (selStage w - 1) + selBank w) (selK w, hbCoefs l) }).setBit
      (R.DCH_CHn_BSTAT_LOADED (selIdx w)) (2 * (selStage w - 1) + selBank w) := if_pos hk

theorem hbBankOf_storeBank {w : Nat} (l : List Word) (s : State) (hk : selKind w = 0) :
    hbBankOf (storeBank w l s) (selIdx w) (selStage w) (selBank w) = (selK w, hbCoefs l) := by
  rw [storeBank_hb l s hk]
  exact mget_mput_self ..

theorem hbLoaded_storeBank {w : Nat} (l : List Word) (s : State) (hk : selKind w = 0) (hst : selStage w ≤ 5) :
    hbLoaded (storeBank w l s) (selIdx w) (selStage w) (selBank w) = true := by
  have hb : selBank w < 2 := Nat.mod_lt _ (by decide)
  rw [storeBank_hb l s hk, hbLoaded, testBit_setBit _ _ (show 2 * (selStage w - 1) + selBank w < 10 by omega), decide_eq_true rfl,
    Bool.or_true]

/-- The bank of a resampler taken, before it shows. -/
def rsBankTaken (w : Nat) (l : List Word) (s : State) : State :=
  setDch s { s.dch with rsBank := mput s.dch.rsBank (2 * selIdx w + selBank w) (selLow w, l) }

theorem storeBank_rs {w : Nat} (l : List Word) (s : State) (hk : selKind w = 1) : storeBank w l s =
    if selBank w = 0 then
      ((rsBankTaken w l s).wrb (R.DCH_RSm_STAT_LOADED_A (selIdx w)) true).wrb (R.DCH_RSm_STAT_PROF_A (selIdx w)) (selLow w)
    else ((rsBankTaken w l s).wrb (R.DCH_RSm_STAT_LOADED_B (selIdx w)) true).wrb (R.DCH_RSm_STAT_PROF_B (selIdx w)) (selLow w) :=
  if_neg (by omega)

theorem rsBankOf_storeBank {w : Nat} (l : List Word) (s : State) (hk : selKind w = 1) :
    rsBankOf (storeBank w l s) (selIdx w) (selBank w) = (selLow w, l) := by
  rw [storeBank_rs l s hk]
  split <;> exact mget_mput_self ..

theorem rsLoaded_storeBank {w : Nat} (l : List Word) (s : State) (hk : selKind w = 1) :
    rsLoaded (storeBank w l s) (selIdx w) (selBank w) = true := by
  rw [storeBank_rs l s hk, rsLoaded]
  split
  · exact (on_of_rd (rd_wrb_ne _ _ (key_ne (by omega)))).trans (on_wrb_self _ _ _ rfl)
  · exact (on_of_rd (rd_wrb_ne _ _ (key_ne (by omega)))).trans (on_wrb_self _ _ _ rfl)

theorem resultShown_kept (s : State) : RegsKept s (resultShown s) [(0x700010, 0x700014)] :=
  regsKept_wr (within_head (by decide)) (regsKept_wr (within_head (by decide)) (regsKept_refl s _) _) _

theorem resultShown_busy (s : State) : (resultShown s).on R.DCH_LD_STAT_BUSY = false :=
  (on_of_rd (rd_wr_ne _ _ (by decide))).trans (on_wrb_self _ _ _ rfl)

theorem commitEnds_busy (s : State) : (commitEnds s).on R.DCH_LD_STAT_BUSY = false := by
  cases hb : s.on R.DCH_LD_STAT_BUSY with
  | false => rw [commitEnds_idle hb, hb]
  | true =>
    by_cases hr : s.dch.res = 1
    · rw [commitEnds_accepted hb hr, on_of_rd (storeBank_ldStat _ _ _ ⟨by decide, rfl⟩), resultShown_busy]
    · rw [commitEnds_refused hb hr, resultShown_busy]

theorem commitEnds_opened (s : State) : (commitEnds s).on R.DCH_LD_STAT_OPENED = s.on R.DCH_LD_STAT_OPENED := by
  have hshown : (resultShown s).on R.DCH_LD_STAT_OPENED = s.on R.DCH_LD_STAT_OPENED :=
    on_of_rd ((rd_wr_ne _ _ (by decide)).trans (rd_wr_ne _ _ (by decide)))
  cases hb : s.on R.DCH_LD_STAT_BUSY with
  | false => rw [commitEnds_idle hb]
  | true =>
    by_cases hr : s.dch.res = 1
    · rw [commitEnds_accepted hb hr, on_of_rd (storeBank_ldStat _ _ _ ⟨by decide, rfl⟩), hshown]
    · rw [commitEnds_refused hb hr, hshown]

/-! ### The commands -/

/-- The commit of the open window under way. -/
def commitBegun (s : State) : State :=
  ((setDch s { s.dch with res := loadResult s, com := (s.dch.sel, s.dch.stage) }).wrb R.DCH_LD_STAT_OPENED false).wrb R.DCH_LD_STAT_BUSY true

theorem exec_dchLoadCommit {s : State} (h : s.on R.DCH_LD_STAT_OPENED = true) :
    exec .dchLoadCommit s = .next (commitBegun (commitEnds s)) := by
  rw [exec, execDchLoadCommit, h]
  rfl

theorem dchLoadCommit_closed {s : State} (h : s.on R.DCH_LD_STAT_OPENED = false) : exec .dchLoadCommit s = .next s := by
  rw [exec, execDchLoadCommit, h]
  rfl

/-- A commit still under way ends before a further one begins. -/
theorem dchLoadCommit_second {s : State} (h : s.on R.DCH_LD_STAT_OPENED = true) : Runs .dchLoadCommitDone s fun t =>
    exec .dchLoadCommit s = exec .dchLoadCommit t ∧ t.on R.DCH_LD_STAT_BUSY = false := by
  refine ⟨commitEnds s, rfl, ?_, commitEnds_busy s⟩
  rw [exec_dchLoadCommit h, exec_dchLoadCommit ((commitEnds_opened s).trans h), commitEnds_idle (commitEnds_busy s)]

theorem dchLoadCommit_begins {s : State} (h : s.on R.DCH_LD_STAT_OPENED = true) (hb : s.on R.DCH_LD_STAT_BUSY = false) :
    Runs .dchLoadCommit s fun t => t.on R.DCH_LD_STAT_OPENED = false ∧ t.on R.DCH_LD_STAT_BUSY = true ∧
      t.dch.com = (s.dch.sel, s.dch.stage) ∧ t.dch.res = loadResult s ∧ SameBytes s t ∧ RegsKept s t [(0x700010, 0x700014)] := by
  refine ⟨commitBegun s, by rw [exec_dchLoadCommit h, commitEnds_idle hb], ?_, on_wrb_self _ _ _ rfl, rfl, rfl, fun _ => rfl, ?_⟩
  · rw [commitBegun, on_of_rd (rd_wrb_ne _ _ (by decide)), on_wrb_self _ _ _ rfl]
  · exact regsKept_wr (within_head (by decide)) (regsKept_wr (within_head (by decide))
      (regsKept_of_regs (regsKept_refl s _) (setDch_regs ..)) _) _

theorem dchLoadCommitDone_idle {s : State} (h : s.on R.DCH_LD_STAT_BUSY = false) : exec .dchLoadCommitDone s = .next s := by
  rw [exec, execDchLoadCommitDone, commitEnds_idle h]

theorem commitEnds_result {s : State} (h : s.on R.DCH_LD_STAT_BUSY = true) (hr : s.dch.res < 8) :
    (commitEnds s).rd R.DCH_LD_STAT_RESULT = s.dch.res := by
  have hshown : (resultShown s).rd R.DCH_LD_STAT_RESULT = s.dch.res := (rd_wr_self ..).trans (Nat.mod_eq_of_lt hr)
  by_cases h1 : s.dch.res = 1
  · rw [commitEnds_accepted h h1, ← hshown]
    exact storeBank_ldStat _ _ _ ⟨by decide, rfl⟩
  · rw [commitEnds_refused h h1, hshown]

/-- What a commit that is accepted writes: DCH_LD_STAT, and the register that shows the bank loaded. -/
theorem commitEnds_kept {s : State} (h : s.on R.DCH_LD_STAT_BUSY = true) (h1 : s.dch.res = 1) {r : Nat × Nat}
    (hw : (bankFlds s.dch.com.1).Forall fun f => Within f [r]) : RegsKept s (commitEnds s) [(0x700010, 0x700014), r] := by
  rw [commitEnds_accepted h h1]
  have hshown : RegsKept s (resultShown s) [(0x700010, 0x700014), r] := fun f hlo hlt hf =>
    resultShown_kept s f hlo hlt fun x hx => hf x (List.mem_cons.mpr (.inl (List.mem_singleton.mp hx)))
  exact regsKept_trans hshown ((storeBank_kept _ _ _).regsKept
    (List.forall_iff_forall_mem.mpr fun f hf => within_tail (List.forall_iff_forall_mem.mp hw f hf)))

end Sys2Proof.Machine
end

section
/-! PROOFS. Bank requests and fades of half-band stages and resamplers (R106 to R110). -/
namespace Sys2Proof.Machine

/-! ### What fades do to a chain -/

/-- A fade to bank `b` over `len` outputs whose first output is at hand. -/
def fadeFrom (s : State) (b len : Nat) : Fade := { bank := b, j := 0, len := len, busy := true, at1 := tb2U s }

/-- The stages other than `st`. -/
def OtherThan (st : Nat) : Nat → Prop := fun j => j ≠ st

theorem not_otherThan (st : Nat) : ¬ OtherThan st st := fun h => h rfl

section Stage
variable (n st : Nat)

theorem hbAct_mem : hbAct n st ∈ stageFlds n st := List.mem_cons_self
theorem hbBusy_mem : hbBusy n st ∈ stageFlds n st := List.mem_cons_of_mem _ List.mem_cons_self
theorem hbPend_mem : hbPend n st ∈ stageFlds n st := by simp [stageFlds]
theorem hbPendBank_mem : hbPendBank n st ∈ stageFlds n st := by simp [stageFlds]

variable (s : State)

theorem startHb_step : DchStep n (stageFlds n st) (OtherThan st) s (startHb s n st) := by
  unfold startHb
  extract_lets h len
  split
  next f hf =>
    split
    · exact .refl s
    · exact (DchStep.setStage (.refl s) (not_otherThan st) _).wrb (hbBusy_mem n st) _
  next hf =>
    split
    · exact .refl s
    · have hs1 : DchStep n (stageFlds n st) (OtherThan st) s ((s.wrb (hbPend n st) false).wr (hbPendBank n st) 0) :=
        ((DchStep.refl s).wrb (hbPend_mem n st) _).wr (hbPendBank_mem n st) _
      split
      · exact hs1
      · exact (hs1.setStage (not_otherThan st) _).wrb (hbBusy_mem n st) _

/-- The fade of stage `st` has ended and bank `b` is active. -/
def fadeCut (b : Nat) : State :=
  ((setChain s n (setHb (chainOf s n) st { hbOf (chainOf s n) st with fade := none })).wr (hbAct n st) b).wrb (hbBusy n st) false

/-- With it ends a pending request for that bank. -/
def fadeOver (b : Nat) : State :=
  if (fadeCut n st s b).on (hbPend n st) && (fadeCut n st s b).rd (hbPendBank n st) == b then
    ((fadeCut n st s b).wrb (hbPend n st) false).wr (hbPendBank n st) 0
  else fadeCut n st s b

theorem fadeOver_step (b : Nat) : DchStep n (stageFlds n st) (OtherThan st) s (fadeOver n st s b) := by
  have hcut : DchStep n (stageFlds n st) (OtherThan st) s (fadeCut n st s b) :=
    ((DchStep.setStage (.refl s) (not_otherThan st) _).wr (hbAct_mem n st) _).wrb (hbBusy_mem n st) _
  unfold fadeOver
  split
  · exact (hcut.wrb (hbPend_mem n st) _).wr (hbPendBank_mem n st) _
  · exact hcut

/-- After the last output the target bank is active, the stage is no longer busy, and it has no fade. -/
theorem fadeOver_shows {b : Nat} (hb : b < 2) : (fadeOver n st s b).rd (hbAct n st) = b ∧ (fadeOver n st s b).on (hbBusy n st) = false ∧
    (hbOf (chainOf (fadeOver n st s b) n) st).fade = none := by
  obtain ⟨hab, hap, haq, hbp, hbq, -⟩ := stageFlds_key_ne n st
  obtain ⟨hwa, hwb, -⟩ := hbFlds_w n st
  have hact : (fadeCut n st s b).rd (hbAct n st) = b := (rd_wrb_ne _ _ hab).trans (rd_wr_bit _ hwa hb)
  have hbusy : (fadeCut n st s b).on (hbBusy n st) = false := on_wrb_self _ _ _ hwb
  have hfade : (hbOf (chainOf (fadeCut n st s b) n) st).fade = none := by
    rw [fadeCut, chainOf_wrb, chainOf_wr, chainOf_setChain, hbOf_setHb]
  unfold fadeOver
  split
  · exact ⟨((rd_wr_ne _ _ haq).trans (rd_wrb_ne _ _ hap)).trans hact,
      (on_of_rd ((rd_wr_ne _ _ hbq).trans (rd_wrb_ne _ _ hbp))).trans hbusy, hfade⟩
  · exact ⟨hact, hbusy, hfade⟩

theorem finishHb_over {f : Fade} (hf : (hbOf (chainOf s n) st).fade = some f) (hb : f.busy = true) (hl : f.len ≤ f.j) :
    finishHb s n st = chainFade (fadeOver n st s f.bank) n f.at1 := by
  unfold finishHb
  extract_lets h
  split
  next g hg =>
    obtain rfl : f = g := Option.some.inj (hf.symm.trans hg)
    rw [if_pos (by rw [hb, decide_eq_true hl]; rfl)]
    rfl
  next hg => exact absurd (hf.symm.trans hg) (Option.some_ne_none f)

theorem finishHb_step : DchStep n (stageFlds n st) (OtherThan st) s (finishHb s n st) := by
  cases hf : (hbOf (chainOf s n) st).fade with
  | none =>
    rw [finishHb, hf]
    exact .refl s
  | some f =>
    by_cases h : f.busy = true ∧ f.len ≤ f.j
    · rw [finishHb_over n st s hf h.1 h.2]
      exact (fadeOver_step n st s f.bank).markTag ..
    · rw [finishHb, hf]
      dsimp only
      rw [if_neg (by simpa using h)]
      exact .refl s

end Stage

/-! ### Requests for a stage -/

section RequestHb
variable {n st k : Nat} {s : State}

/-- R107: a request is refused for a stage beyond the chain's last one, and for a bank that is not loaded. -/
def BadRequest (s : State) (n st k : Nat) : Prop := st = 0 ∨ nhbOf s n + 1 < st ∨ hbLoaded s n st k = false

theorem requestHb_refused (h : BadRequest s n st k) : requestHb s n st k = s.wrb (R.DCH_CHn_STAT_BREQ_REFUSED n) true := if_pos h

variable (h : ¬ BadRequest s n st k)
include h

theorem requestHb_now (hr : s.on (R.DCH_CHn_CTL_RUN n) = false ∨ (chainOf s n).srstAt = some (tb2U s)) :
    requestHb s n st k = s.wr (hbAct n st) k := by
  refine (if_neg h).trans (if_pos ?_)
  rcases hr with hr | hr <;> simp [hr]

variable (hr : s.on (R.DCH_CHn_CTL_RUN n) = true) (hnow : ¬ (chainOf s n).srstAt = some (tb2U s))
include hr hnow

theorem requestHb_running : requestHb s n st k =
    if (hbOf (chainOf s n) st).fade.isSome || s.on (hbPend n st) then (s.wrb (hbPend n st) true).wr (hbPendBank n st) k
    else if s.rd (hbAct n st) = k then s
    else setChain s n (setHb (chainOf s n) st { hbOf (chainOf s n) st with fade := some { bank := k } }) := by
  refine (if_neg h).trans (if_neg ?_)
  simp [hr, hnow]

theorem requestHb_pends (hf : (hbOf (chainOf s n) st).fade ≠ none ∨ s.on (hbPend n st) = true) :
    requestHb s n st k = (s.wrb (hbPend n st) true).wr (hbPendBank n st) k := by
  rw [requestHb_running h hr hnow, if_pos]
  rcases hf with hf | hf
  · rw [Option.isSome_iff_ne_none.mpr hf, Bool.true_or]
  · rw [hf, Bool.or_true]

theorem requestHb_starts (hf : (hbOf (chainOf s n) st).fade = none) (hp : s.on (hbPend n st) = false) : requestHb s n st k =
    if s.rd (hbAct n st) = k then s
    else setChain s n (setHb (chainOf s n) st { hbOf (chainOf s n) st with fade := some { bank := k } }) := by
  rw [requestHb_running h hr hnow, if_neg (by simp [hf, hp])]

end RequestHb

/-! ### The fields of a resampler -/

/-- The fields that a resampler's fades and bank requests write. -/
def rsFlds (m : Nat) : List Fld := [R.DCH_RSm_STAT_ACT m, R.DCH_RSm_STAT_FADE_BUSY m, R.DCH_RSm_STAT_PEND m, R.DCH_RSm_STAT_PENDBANK m]

theorem rsFlds_within {m : Nat} (hm : m < 192) {l : List (Nat × Nat)} (hl : (0x704010 + 0x40 * m, 0x704014 + 0x40 * m) ∈ l) :
    (rsFlds m).Forall fun f => Within f l :=
  have hw (lo w r : Nat) (d : Dom) (c : Acc) (hlo : lo < 32) : Within ⟨d, 0x704010 + 0x40 * m, lo, w, c, r⟩ l :=
    ⟨hlo, by dsimp only; omega, _, hl, by dsimp only; omega⟩
  ⟨hw _ _ _ _ _ (by decide), hw _ _ _ _ _ (by decide), hw _ _ _ _ _ (by decide), hw _ _ _ _ _ (by decide)⟩

theorem bankNo_lt (b : Bool) : bankNo b < 2 := by cases b <;> decide

/-! ### Requests for a resampler -/

section RequestRs
variable {m k : Nat} {s : State}

theorem requestRs_refused (h : rsLoaded s m k = false) : requestRs s m k = s.wrb (R.DCH_RSm_STAT_BREQ_REFUSED m) true :=
  if_pos (by rw [h]; rfl)

variable (h : rsLoaded s m k = true)
include h

theorem requestRs_now (hr : rsRun s m = false ∨ (rsOf s m).srstAt = some (tb2U s)) :
    requestRs s m k = s.wr (R.DCH_RSm_STAT_ACT m) k := by
  refine (if_neg (by simp [h])).trans (if_pos ?_)
  rcases hr with hr | hr <;> simp [hr]

variable (hr : rsRun s m = true) (hnow : ¬ (rsOf s m).srstAt = some (tb2U s))
include hr hnow

theorem requestRs_running : requestRs s m k =
    if (rsOf s m).fade.isSome || s.on (R.DCH_RSm_STAT_PEND m) then
      (s.wrb (R.DCH_RSm_STAT_PEND m) true).wr (R.DCH_RSm_STAT_PENDBANK m) k
    else if s.rd (R.DCH_RSm_STAT_ACT m) = k then s
    else modRs s m fun r => { r with fade := some { bank := k } } := by
  refine (if_neg (by simp [h])).trans (if_neg ?_)
  simp [hr, hnow]

theorem requestRs_pends (hf : (rsOf s m).fade ≠ none ∨ s.on (R.DCH_RSm_STAT_PEND m) = true) :
    requestRs s m k = (s.wrb (R.DCH_RSm_STAT_PEND m) true).wr (R.DCH_RSm_STAT_PENDBANK m) k := by
  rw [requestRs_running h hr hnow, if_pos]
  rcases hf with hf | hf
  · rw [Option.isSome_iff_ne_none.mpr hf, Bool.true_or]
  · rw [hf, Bool.or_true]

theorem requestRs_starts (hf : (rsOf s m).fade = none) (hp : s.on (R.DCH_RSm_STAT_PEND m) = false) : requestRs s m k =
    if s.rd (R.DCH_RSm_STAT_ACT m) = k then s else modRs s m fun r => { r with fade := some { bank := k } } := by
  rw [requestRs_running h hr hnow, if_neg (by simp [hf, hp])]

end RequestRs

section RunsHb
variable {n : Fin 48} {st : Fin 8} {b : Bool} {s : State} (h : ¬ BadRequest s n st (bankNo b)) (hr : s.on (R.DCH_CHn_CTL_RUN n) = true)
  (hnow : ¬ (chainOf s n).srstAt = some (tb2U s))
include h hr hnow

theorem bankRequest_hb_pends (hf : (hbOf (chainOf s n) st).fade ≠ none ∨ s.on (hbPend n st) = true) :
    Runs (.bankRequest (.hb n st) b) s fun t => t.on (hbPend n st) = true ∧ t.rd (hbPendBank n st) = bankNo b ∧ t.dch = s.dch ∧
      SameBytes s t ∧ RegsKept s t [(0x70100C + 0x40 * n.val, 0x701010 + 0x40 * n.val)] := by
  obtain ⟨-, -, hwp, hwq⟩ := hbFlds_w n st
  obtain ⟨-, -, -, -, -, hpq⟩ := stageFlds_key_ne n st
  refine ⟨_, congrArg Host.Outcome.next (requestHb_pends h hr hnow hf), ?_, rd_wr_bit _ hwq (bankNo_lt b), rfl, fun _ => rfl, ?_⟩
  · rw [on_of_rd (rd_wr_ne _ _ hpq), on_wrb_self _ _ _ hwp]
  · exact regsKept_wr ((stageFlds_place (hbPendBank_mem n st)).within n.isLt List.mem_cons_self)
      (regsKept_wr ((stageFlds_place (hbPend_mem n st)).within n.isLt List.mem_cons_self) (regsKept_refl s _) _) _

theorem bankRequest_hb_fades (hf : (hbOf (chainOf s n) st).fade = none) (hp : s.on (hbPend n st) = false)
    (ha : s.rd (hbAct n st) ≠ bankNo b) : Runs (.bankRequest (.hb n st) b) s fun t =>
      (hbOf (chainOf t n) st).fade = some { bank := bankNo b } ∧ t.regs = s.regs ∧ SameBytes s t := by
  refine ⟨_, congrArg Host.Outcome.next ((requestHb_starts h hr hnow hf hp).trans (if_neg ha)), ?_, rfl, fun _ => rfl⟩
  rw [chainOf_setChain, hbOf_setHb]

theorem bankRequest_hb_active (hf : (hbOf (chainOf s n) st).fade = none) (hp : s.on (hbPend n st) = false)
    (ha : s.rd (hbAct n st) = bankNo b) : exec (.bankRequest (.hb n st) b) s = .next s :=
  congrArg Host.Outcome.next ((requestHb_starts h hr hnow hf hp).trans (if_pos ha))

end RunsHb

section RunsRs
variable {m : Fin 192} {b : Bool} {s : State} (h : rsLoaded s m (bankNo b) = true) (hr : rsRun s m = true)
  (hnow : ¬ (rsOf s m).srstAt = some (tb2U s))
include h hr hnow

theorem bankRequest_rs_pends (hf : (rsOf s m).fade ≠ none ∨ s.on (R.DCH_RSm_STAT_PEND m) = true) :
    Runs (.bankRequest (.rs m) b) s fun t => t.on (R.DCH_RSm_STAT_PEND m) = true ∧ t.rd (R.DCH_RSm_STAT_PENDBANK m) = bankNo b ∧
      t.dch = s.dch ∧ SameBytes s t ∧ RegsKept s t [(0x704010 + 0x40 * m.val, 0x704014 + 0x40 * m.val)] := by
  refine ⟨_, congrArg Host.Outcome.next (requestRs_pends h hr hnow hf), ?_, rd_wr_bit _ rfl (bankNo_lt b), rfl, fun _ => rfl, ?_⟩
  · exact (on_of_rd (rd_wr_ne _ _ (key_ne (by omega)))).trans (on_wrb_self _ _ _ rfl)
  · exact regsKept_wr (within_head (by omega)) (regsKept_wr (within_head (by omega)) (regsKept_refl s _) _) _

theorem bankRequest_rs_fades (hf : (rsOf s m).fade = none) (hp : s.on (R.DCH_RSm_STAT_PEND m) = false)
    (ha : s.rd (R.DCH_RSm_STAT_ACT m) ≠ bankNo b) : Runs (.bankRequest (.rs m) b) s fun t =>
      (rsOf t m).fade = some { bank := bankNo b } ∧ t.regs = s.regs ∧ SameBytes s t := by
  refine ⟨_, congrArg Host.Outcome.next ((requestRs_starts h hr hnow hf hp).trans (if_neg ha)), ?_, rfl, fun _ => rfl⟩
  rw [rsOf_modRs]

theorem bankRequest_rs_active (hf : (rsOf s m).fade = none) (hp : s.on (R.DCH_RSm_STAT_PEND m) = false)
    (ha : s.rd (R.DCH_RSm_STAT_ACT m) = bankNo b) : exec (.bankRequest (.rs m) b) s = .next s :=
  congrArg Host.Outcome.next ((requestRs_starts h hr hnow hf hp).trans (if_pos ha))

end RunsRs

/-! ### Fades of a stage: the first output and the last -/

section FadeHb
variable {n : Fin 48} {st : Fin 8} {s : State} {f : Fade} (hf : (hbOf (chainOf s n) st).fade = some f)
include hf

theorem fadeStart_hb (hb : f.busy = false) : Runs (.fadeStart (.hb n st)) s fun t => t.on (hbBusy n st) = true ∧
    (hbOf (chainOf t n) st).fade = some { bank := f.bank, j := 0, len := s.rd (R.DCH_CHn_CFG_FADE n) + 1, busy := true, at1 := tb2U s } ∧
    SameBytes s t ∧ RegsKept s t [(0x70100C + 0x40 * n.val, 0x701010 + 0x40 * n.val)] := by
  have hx : startHb s n st = (setChain s n (setHb (chainOf s n) st { hbOf (chainOf s n) st with
      fade := some (fadeFrom s f.bank (s.rd (R.DCH_CHn_CFG_FADE n) + 1)) })).wrb (hbBusy n st) true := by
    rw [startHb, hf]
    dsimp only
    rw [hb]
    rfl
  refine ⟨_, congrArg Host.Outcome.next hx, on_wrb_self _ _ _ (hbFlds_w n st).2.1, ?_, fun _ => rfl, ?_⟩
  · rw [chainOf_wrb, chainOf_setChain, hbOf_setHb]
    rfl
  · exact regsKept_wr ((stageFlds_place (hbBusy_mem n st)).within n.isLt List.mem_cons_self) (regsKept_of_regs (regsKept_refl s _) rfl) _

theorem fadeEnd_hb (hb : f.busy = true) (hl : f.len ≤ f.j) (hbank : f.bank < 2) : Runs (.fadeEnd (.hb n st)) s fun t =>
    t.rd (hbAct n st) = f.bank ∧ t.on (hbBusy n st) = false ∧ (hbOf (chainOf t n) st).fade = none ∧
    SameBytes s t ∧ RegsKept s t [(0x70100C + 0x40 * n.val, 0x701010 + 0x40 * n.val)] := by
  have hstep := finishHb_step n st s
  obtain ⟨hact, hbusy, hfade⟩ := fadeOver_shows n st s hbank
  refine ⟨finishHb s n st, rfl, ?_, ?_, ?_, sameBytes_of_mem hstep.mem, hstep.flds.regsKept (List.forall_iff_forall_mem.mpr
    fun g hg => (stageFlds_place hg).within n.isLt List.mem_cons_self)⟩
  all_goals rw [finishHb_over n st s hf hb hl]
  · exact hact
  · exact hbusy
  · exact hfade

end FadeHb

/-! ### Fades of a resampler -/

section FadeRs
variable (m : Nat) (s : State)

/-- The fade of resampler `m` has ended and bank `b` is active. -/
def rsFadeCut (b : Nat) : State :=
  ((modRs s m fun r => { r with fade := none }).wr (R.DCH_RSm_STAT_ACT m) b).wrb (R.DCH_RSm_STAT_FADE_BUSY m) false

/-- With it ends a pending request for that bank. -/
def rsFadeOver (b : Nat) : State :=
  if (rsFadeCut m s b).on (R.DCH_RSm_STAT_PEND m) && (rsFadeCut m s b).rd (R.DCH_RSm_STAT_PENDBANK m) == b then
    ((rsFadeCut m s b).wrb (R.DCH_RSm_STAT_PEND m) false).wr (R.DCH_RSm_STAT_PENDBANK m) 0
  else rsFadeCut m s b

theorem finishRs_over {f : Fade} (hf : (rsOf s m).fade = some f) (hb : f.busy = true) (hl : f.len ≤ f.j) :
    finishRs s m = if isLocal s m then rsFade (rsFadeOver m s f.bank) m f.at1 else rsFadeOver m s f.bank := by
  rw [finishRs, hf]
  dsimp only
  rw [if_pos (by rw [hb, decide_eq_true hl]; rfl)]
  rfl

variable (n : Nat) (P : Nat → Prop)

theorem rsFadeOver_step (b : Nat) : DchStep n (rsFlds m) P s (rsFadeOver m s b) := by
  have hcut : DchStep n (rsFlds m) P s (rsFadeCut m s b) := (((DchStep.refl s).modRs m _).wr (by simp [rsFlds]) _).wrb (by simp [rsFlds]) _
  unfold rsFadeOver
  split
  · exact (hcut.wrb (by simp [rsFlds]) _).wr (by simp [rsFlds]) _
  · exact hcut

theorem finishRs_step : DchStep n (rsFlds m) P s (finishRs s m) := by
  cases hf : (rsOf s m).fade with
  | none =>
    rw [finishRs, hf]
    exact .refl s
  | some f =>
    by_cases h : f.busy = true ∧ f.len ≤ f.j
    · rw [finishRs_over m s hf h.1 h.2]
      split
      · exact (rsFadeOver_step m s n P f.bank).markTag ..
      · exact rsFadeOver_step m s n P f.bank
    · rw [finishRs, hf]
      dsimp only
      rw [if_neg (by simpa using h)]
      exact .refl s

theorem startRs_step : DchStep n (rsFlds m) P s (startRs s m) := by
  unfold startRs
  extract_lets len
  split
  · split
    · exact .refl s
    · exact ((DchStep.refl s).modRs m _).wrb (by simp [rsFlds]) _
  · split
    · exact .refl s
    · have hs1 : DchStep n (rsFlds m) P s ((s.wrb (R.DCH_RSm_STAT_PEND m) false).wr (R.DCH_RSm_STAT_PENDBANK m) 0) :=
        ((DchStep.refl s).wrb (by simp [rsFlds]) _).wr (by simp [rsFlds]) _
      split
      · exact hs1
      · exact (hs1.modRs m _).wrb (by simp [rsFlds]) _

/-- After the last output the target bank is active, the resampler is no longer busy, and it has no fade. -/
theorem rsFadeOver_shows {b : Nat} (hb : b < 2) : (rsFadeOver m s b).rd (R.DCH_RSm_STAT_ACT m) = b ∧
    (rsFadeOver m s b).on (R.DCH_RSm_STAT_FADE_BUSY m) = false ∧ (rsOf (rsFadeOver m s b) m).fade = none := by
  have hact : (rsFadeCut m s b).rd (R.DCH_RSm_STAT_ACT m) = b := (rd_wrb_ne _ _ (key_ne (by omega))).trans (rd_wr_bit _ rfl hb)
  have hbusy : (rsFadeCut m s b).on (R.DCH_RSm_STAT_FADE_BUSY m) = false := on_wrb_self _ _ _ rfl
  have hfade : (rsOf (rsFadeCut m s b) m).fade = none := by
    rw [rsFadeCut, rsOf_wrb, rsOf_wr, rsOf_modRs]
  unfold rsFadeOver
  split
  · exact ⟨((rd_wr_ne _ _ (key_ne (by omega))).trans (rd_wrb_ne _ _ (key_ne (by omega)))).trans hact,
      (on_of_rd ((rd_wr_ne _ _ (key_ne (by omega))).trans (rd_wrb_ne _ _ (key_ne (by omega))))).trans hbusy, hfade⟩
  · exact ⟨hact, hbusy, hfade⟩

end FadeRs

section FadeRsRuns
variable {m : Fin 192} {s : State} {f : Fade} (hf : (rsOf s m).fade = some f)
include hf

theorem fadeStart_rs (hb : f.busy = false) : Runs (.fadeStart (.rs m)) s fun t => t.on (R.DCH_RSm_STAT_FADE_BUSY m) = true ∧
    (rsOf t m).fade = some { bank := f.bank, j := 0, len := s.rd (R.DCH_RSm_CFG_FADE m) + 1, busy := true, at1 := tb2U s } ∧
    SameBytes s t ∧ RegsKept s t [(0x704010 + 0x40 * m.val, 0x704014 + 0x40 * m.val)] := by
  have hx : startRs s m = (modRs s m fun r => { r with
      fade := some (fadeFrom s f.bank (s.rd (R.DCH_RSm_CFG_FADE m) + 1)) }).wrb (R.DCH_RSm_STAT_FADE_BUSY m) true := by
    rw [startRs, hf]
    dsimp only
    rw [hb]
    rfl
  refine ⟨_, congrArg Host.Outcome.next hx, on_wrb_self _ _ _ rfl, ?_, fun _ => rfl, ?_⟩
  · rw [rsOf_wrb, rsOf_modRs]
    rfl
  · exact regsKept_wr (within_head (by omega)) (regsKept_of_regs (regsKept_refl s _) rfl) _

theorem fadeEnd_rs (hb : f.busy = true) (hl : f.len ≤ f.j) (hbank : f.bank < 2) : Runs (.fadeEnd (.rs m)) s fun t =>
    t.rd (R.DCH_RSm_STAT_ACT m) = f.bank ∧ t.on (R.DCH_RSm_STAT_FADE_BUSY m) = false ∧ (rsOf t m).fade = none ∧
    SameBytes s t ∧ RegsKept s t [(0x704010 + 0x40 * m.val, 0x704014 + 0x40 * m.val)] := by
  have hstep := finishRs_step m s 0 fun _ => True
  have hshows := rsFadeOver_shows m s hbank
  have hfin : (finishRs s m).rd (R.DCH_RSm_STAT_ACT m) = f.bank ∧
      (finishRs s m).on (R.DCH_RSm_STAT_FADE_BUSY m) = false ∧ (rsOf (finishRs s m) m).fade = none := by
    rw [finishRs_over m s hf hb hl]
    split
    · exact hshows
    · exact hshows
  obtain ⟨hact, hbusy, hfade⟩ := hfin
  exact ⟨finishRs s m, rfl, hact, hbusy, hfade, sameBytes_of_mem hstep.mem, hstep.flds.regsKept (rsFlds_within m.isLt List.mem_cons_self)⟩

end FadeRsRuns

end Sys2Proof.Machine
end

section
/-! PROOFS. Settled fades and restarted chains (R110, R111). -/
namespace Sys2Proof.Machine

/-! ### A stage that stops fading -/

/-- Stage `st` of chain `n` has no fade, none under way and none pending. -/
def StageIdle (n st : Nat) (s : State) : Prop :=
  (hbOf (chainOf s n) st).fade = none ∧ s.on (hbBusy n st) = false ∧ s.on (hbPend n st) = false

/-- The fade of stage `st` dropped, BUSY and PEND cleared. -/
def dropFade (n st : Nat) (s : State) : State :=
  setChain (((s.wrb (hbBusy n st) false).wrb (hbPend n st) false).wr (hbPendBank n st) 0) n
    (setHb (chainOf s n) st { hbOf (chainOf s n) st with fade := none })

section Stage
variable (n st : Nat) (s : State)

theorem dropFade_idle : StageIdle n st (dropFade n st s) := by
  obtain ⟨-, -, -, hbp, hbq, hpq⟩ := stageFlds_key_ne n st
  obtain ⟨-, hwb, hwp, -⟩ := hbFlds_w n st
  refine ⟨?_, ?_, ?_⟩
  · rw [dropFade, chainOf_setChain, hbOf_setHb]
  · exact (on_of_rd ((rd_wr_ne _ _ hbq).trans (rd_wrb_ne _ _ hbp))).trans (on_wrb_self _ _ _ hwb)
  · exact (on_of_rd (rd_wr_ne _ _ hpq)).trans (on_wrb_self _ _ _ hwp)

theorem dropFade_step : DchStep n (stageFlds n st) (OtherThan st) s (dropFade n st s) :=
  ((((DchStep.refl s).wrb (hbBusy_mem n st) _).wrb (hbPend_mem n st) _).wr (hbPendBank_mem n st) _).setStage (not_otherThan st) _

/-- The bank of a request that is pending becomes active, where it is kept (R110). -/
def pendTaken (keepPend : Bool) : State :=
  if keepPend && s.on (hbPend n st) then s.wr (hbAct n st) (s.rd (hbPendBank n st)) else s

@[simp] theorem chainOf_pendTaken (keepPend : Bool) (j : Nat) : chainOf (pendTaken n st s keepPend) j = chainOf s j := by
  unfold pendTaken
  split <;> rfl

theorem pendTaken_step (keepPend : Bool) : DchStep n (stageFlds n st) (OtherThan st) s (pendTaken n st s keepPend) := by
  unfold pendTaken
  split
  · exact (DchStep.refl s).wr (hbAct_mem n st) _
  · exact .refl s

theorem settleStage_still (keepPend : Bool) (hf : (hbOf (chainOf s n) st).fade = none) :
    settleStage s n keepPend st = dropFade n st (pendTaken n st s keepPend) := by
  rw [dropFade, chainOf_pendTaken, settleStage, hf]
  rfl

theorem settleStage_fading (keepPend : Bool) {f : Fade} (hf : (hbOf (chainOf s n) st).fade = some f) :
    settleStage s n keepPend st = if f.busy then chainFade (dropFade n st (pendTaken n st (s.wr (hbAct n st) f.bank) keepPend)) n f.at1
      else dropFade n st (pendTaken n st (s.wr (hbAct n st) f.bank) keepPend) := by
  rw [dropFade, chainOf_pendTaken, settleStage, hf]
  rfl

/-- A stage is settled by the choice of its active bank, the drop of its fade, and U for what has run of it (R103, R110). -/
theorem settleStage_cases (keepPend : Bool) : ∃ u, DchStep n (stageFlds n st) (OtherThan st) s u ∧
    (settleStage s n keepPend st = dropFade n st u ∨ ∃ a, settleStage s n keepPend st = chainFade (dropFade n st u) n a) := by
  cases hf : (hbOf (chainOf s n) st).fade with
  | none => exact ⟨_, pendTaken_step n st s keepPend, .inl (settleStage_still n st s keepPend hf)⟩
  | some f =>
    refine ⟨_, ((DchStep.refl s).wr (hbAct_mem n st) f.bank).trans (pendTaken_step n st _ keepPend), ?_⟩
    rw [settleStage_fading n st s keepPend hf]
    split
    · exact .inr ⟨f.at1, rfl⟩
    · exact .inl rfl

theorem settleStage_step (keepPend : Bool) : DchStep n (stageFlds n st) (OtherThan st) s (settleStage s n keepPend st) := by
  obtain ⟨u, hu, he | ⟨a, he⟩⟩ := settleStage_cases n st s keepPend
  · rw [he]
    exact hu.trans (dropFade_step n st u)
  · rw [he]
    exact (hu.trans (dropFade_step n st u)).markTag ..

theorem settleStage_idle (keepPend : Bool) : StageIdle n st (settleStage s n keepPend st) := by
  obtain ⟨u, -, he | ⟨a, he⟩⟩ := settleStage_cases n st s keepPend
  · rw [he]
    exact dropFade_idle n st u
  · rw [he]
    exact dropFade_idle n st u

end Stage

/-- Settling any stage leaves an idle one idle. -/
theorem StageIdle.settleStage {n i : Nat} {s : State} (h : StageIdle n i s) (keepPend : Bool) (j : Nat) :
    StageIdle n i (settleStage s n keepPend j) := by
  have hstep := settleStage_step n j s keepPend
  have hj := settleStage_idle n j s keepPend
  obtain ⟨hfade, hbusy, hpend⟩ := h
  by_cases hij : i = j
  · exact hij ▸ hj
  refine ⟨(congrArg Hb.fade (hstep.stages i hij)).trans hfade, ?_⟩
  by_cases hpos : stagePos i = stagePos j
  · rw [hbBusy_eq, hbPend_eq, hpos, ← hbBusy_eq, ← hbPend_eq]
    exact hj.2
  · have hkeep {f : Fld} (hf : f ∈ stageFlds n i) : (Machine.settleStage s n keepPend j).rd f = s.rd f :=
      hstep.flds f (List.forall_iff_forall_mem.mpr fun g hg => stageFlds_disjoint hpos hf hg)
    exact ⟨(on_of_rd (hkeep (hbBusy_mem n i))).trans hbusy, (on_of_rd (hkeep (hbPend_mem n i))).trans hpend⟩

/-! ### All stages -/

/-- The fields that the fades and bank requests of a chain write. -/
def bstatFlds (n : Nat) : List Fld := [1, 2, 3, 4, 5].flatMap (stageFlds n)

/-- Of whatever number, a stage has the fields of one of the five. -/
theorem stageFlds_subset (n st : Nat) : stageFlds n st ⊆ bstatFlds n := by
  have hpos := stagePos_le st
  have hself : stagePos (stagePos st + 1) = stagePos st := by
    have hnext := stagePos_succ (st := stagePos st + 1) (by omega) (by omega)
    omega
  have heq : stageFlds n st = stageFlds n (stagePos st + 1) := by
    simp only [stageFlds, hbAct_eq, hbBusy_eq, hbPend_eq, hbPendBank_eq, hself]
  have hmem : stagePos st + 1 ∈ [1, 2, 3, 4, 5] := by
    simp only [List.mem_cons, List.not_mem_nil, or_false]
    omega
  exact fun f hf => List.mem_flatMap.mpr ⟨_, hmem, heq ▸ hf⟩

theorem bstatFlds_place {n : Nat} {f : Fld} (h : f ∈ bstatFlds n) : InBstat n f := by
  obtain ⟨st, -, hf⟩ := List.mem_flatMap.mp h
  exact stageFlds_place hf

theorem bstatFlds_within {n : Nat} (hn : n < 48) {l : List (Nat × Nat)} (hl : (0x70100C + 0x40 * n, 0x701010 + 0x40 * n) ∈ l) :
    (bstatFlds n).Forall fun f => Within f l :=
  List.forall_iff_forall_mem.mpr fun _ hf => (bstatFlds_place hf).within hn hl

/-- A chain's step over its stages leaves a field elsewhere as it was. -/
theorem rd_of_bstat {n : Nat} {s t : State} (h : KeptBut s t (bstatFlds n)) {d : Dom} {a lo w r : Nat} {c : Acc}
    (hg : lo < 32 ∧ (20 ≤ lo ∨ a < 0x4000000 ∧ n < 48 ∧ a ≠ 0x70100C + 0x40 * n)) : t.rd ⟨d, a, lo, w, c, r⟩ = s.rd ⟨d, a, lo, w, c, r⟩ :=
  h _ (List.forall_iff_forall_mem.mpr fun _ hf => (bstatFlds_place hf).key_ne hg)

/-- No stage is said to be kept. -/
def NoStage : Nat → Prop := fun _ => False

section Chain
variable (n : Nat) (s : State)

theorem settleChain_step : DchStep n (bstatFlds n) NoStage s (settleChain s n) :=
  List.foldlRecOn (motive := DchStep n (bstatFlds n) NoStage s) _ _ (.refl s) fun v hv st _ =>
    hv.trans ((settleStage_step n st v true).mono (stageFlds_subset n st) fun _ h => h.elim)

theorem settleChain_idle {st : Nat} (h : st ∈ [1, 2, 3, 4, 5]) : StageIdle n st (settleChain s n) :=
  foldl_establishes (I := fun _ => True) (P := StageIdle n st) (fun _ _ h => h) (fun v _ => settleStage_idle n st v true)
    (fun _ j _ hv => hv.settleStage true j) h trivial

end Chain

/-! ### The zeros of a restart -/

@[simp] theorem zeroChain_all_cic (c : Chain) : (zeroChain c false).cic = { cnt := c.cic.cnt } := rfl
@[simp] theorem zeroChain_from2_cic (c : Chain) : (zeroChain c true).cic = c.cic := rfl

theorem hbOf_zeroChain (c : Chain) (from2 : Bool) (st : Nat) :
    hbOf (zeroChain c from2) st = if from2 && st == 1 then hbOf c st else { hbOf c st with line := [] } := by
  simp only [hbOf, zeroChain]
  induction c.hb with
  | nil => simp [mget]
  | cons e t ih =>
    obtain ⟨a, x⟩ := e
    rw [List.map_cons, ← apply_ite (Prod.mk a)]
    by_cases ha : a = st
    · subst ha
      simp only [mget, if_true]
    · simp only [mget, if_neg ha, ih]

end Sys2Proof.Machine
end

section
/-! PROOFS. Resamplers that settle, restart, stop and start (R104, R105, R110 to R112). -/
namespace Sys2Proof.Machine

/-! ### A resampler that stops fading -/

/-- Resampler `m` has no fade, none under way and none pending. -/
def RsIdle (m : Nat) (s : State) : Prop :=
  (rsOf s m).fade = none ∧ s.on (R.DCH_RSm_STAT_FADE_BUSY m) = false ∧ s.on (R.DCH_RSm_STAT_PEND m) = false

section Settle
variable (m : Nat) (s : State)

/-- The fade of resampler `m` dropped, FADE_BUSY and PEND cleared. -/
def rsDropFade : State :=
  modRs (((s.wrb (R.DCH_RSm_STAT_FADE_BUSY m) false).wrb (R.DCH_RSm_STAT_PEND m) false).wr (R.DCH_RSm_STAT_PENDBANK m) 0) m fun r => { r with fade := none }

/-- The bank of a request that is pending becomes active (R110). -/
def rsPendTaken : State := if s.on (R.DCH_RSm_STAT_PEND m) then s.wr (R.DCH_RSm_STAT_ACT m) (s.rd (R.DCH_RSm_STAT_PENDBANK m)) else s

theorem rsDropFade_idle : RsIdle m (rsDropFade m s) := by
  refine ⟨?_, ?_, ?_⟩
  · rw [rsDropFade, rsOf_modRs]
  · rw [rsDropFade, on_modRs]
    exact (on_of_rd ((rd_wr_ne _ _ (key_ne (by omega))).trans (rd_wrb_ne _ _ (key_ne (by omega))))).trans (on_wrb_self _ _ _ rfl)
  · rw [rsDropFade, on_modRs]
    exact (on_of_rd (rd_wr_ne _ _ (key_ne (by omega)))).trans (on_wrb_self _ _ _ rfl)

theorem settleRs_still (hf : (rsOf s m).fade = none) : settleRs s m = rsDropFade m (rsPendTaken m s) := by
  rw [settleRs, hf]
  rfl

theorem settleRs_fading {f : Fade} (hf : (rsOf s m).fade = some f) : settleRs s m =
    if f.busy && isLocal s m then rsFade (rsDropFade m (rsPendTaken m (s.wr (R.DCH_RSm_STAT_ACT m) f.bank))) m f.at1
    else rsDropFade m (rsPendTaken m (s.wr (R.DCH_RSm_STAT_ACT m) f.bank)) := by
  rw [settleRs, hf]
  rfl

theorem settleRs_idle : RsIdle m (settleRs s m) := by
  cases hf : (rsOf s m).fade with
  | none =>
    rw [settleRs_still m s hf]
    exact rsDropFade_idle m _
  | some f =>
    rw [settleRs_fading m s hf]
    split
    · exact rsDropFade_idle m _
    · exact rsDropFade_idle m _

variable (n : Nat) (P : Nat → Prop)

theorem settleRs_step : DchStep n (rsFlds m) P s (settleRs s m) := by
  have hdrop {u : State} (hu : DchStep n (rsFlds m) P s u) : DchStep n (rsFlds m) P s (rsDropFade m (rsPendTaken m u)) := by
    have htaken : DchStep n (rsFlds m) P s (rsPendTaken m u) := by
      unfold rsPendTaken
      split
      · exact hu.wr (by simp [rsFlds]) _
      · exact hu
    exact (((htaken.wrb (by simp [rsFlds]) _).wrb (by simp [rsFlds]) _).wr (by simp [rsFlds]) _).modRs m _
  cases hf : (rsOf s m).fade with
  | none =>
    rw [settleRs_still m s hf]
    exact hdrop (.refl s)
  | some f =>
    rw [settleRs_fading m s hf]
    split
    · exact (hdrop ((DchStep.refl s).wr (by simp [rsFlds]) _)).markTag ..
    · exact hdrop ((DchStep.refl s).wr (by simp [rsFlds]) _)

end Settle

/-! ### A resampler that restarts -/

/-- No earlier input counts: those of a local source are zero, those of an SV source are gone (R105, R111). -/
def Fresh (m : Nat) (loc : Bool) (t : State) : Prop :=
  (loc = true → ∀ e ∈ (rsOf t m).hist, e.v = 0#32) ∧ (loc = false → (rsOf t m).hist = [])

section Restart
variable (s : State) (m : Nat)

theorem restartRs_fresh : Fresh m (isLocal s m) (restartRs s m) := by
  unfold restartRs
  split
  next h =>
    refine ⟨fun _ e he => ?_, fun h' => absurd (h'.symm.trans h) (by decide)⟩
    rw [restartLocal, rsEvent, rsOf_markTag, rsOf_modRs] at he
    obtain ⟨x, -, rfl⟩ := List.mem_map.mp he
    rfl
  next h =>
    refine ⟨fun h' => absurd h' h, fun _ => ?_⟩
    rw [restartSv, rsOf_modRs]

theorem restartRs_fade : (rsOf (restartRs s m) m).fade = (rsOf s m).fade := by
  unfold restartRs
  split
  · rw [restartLocal, rsEvent, rsOf_markTag, rsOf_modRs]
  · rw [restartSv, rsOf_modRs]

@[simp] theorem restartRs_regs : (restartRs s m).regs = s.regs := by
  unfold restartRs
  split <;> rfl

@[simp] theorem restartRs_esp : (restartRs s m).esp = s.esp := by
  unfold restartRs
  split <;> rfl

@[simp] theorem startRsRun_regs : (startRsRun s m).regs = (s.wrb (R.DCH_RSm_CTL_RUN m) true).regs := restartRs_regs ..

theorem startRsRun_runs : rsRun (startRsRun s m) m = true :=
  (on_of_rd (rd_of_regs (startRsRun_regs s m) _)).trans (on_wrb_self _ _ _ rfl)

/-- What a resampler that stops may write. -/
theorem stopRs_step (n : Nat) (P : Nat → Prop) : DchStep n (R.DCH_RSm_CTL_RUN m :: rsFlds m) P s (stopRs s m) :=
  ((DchStep.refl s).wrb List.mem_cons_self false).trans ((settleRs_step m _ n P).mono (List.subset_cons_self ..) fun _ h => h)

theorem stopRs_stops : rsRun (stopRs s m) m = false := by
  have hkeep : (stopRs s m).rd (R.DCH_RSm_CTL_RUN m) = (s.wrb (R.DCH_RSm_CTL_RUN m) false).rd (R.DCH_RSm_CTL_RUN m) :=
    (settleRs_step m _ 0 NoStage).flds _ ⟨key_ne (by omega), key_ne (by omega), key_ne (by omega), key_ne (by omega)⟩
  exact (on_of_rd hkeep).trans (on_wrb_self _ _ _ rfl)

theorem stopRs_idle : RsIdle m (stopRs s m) := settleRs_idle m _

end Restart

/-! ### The resampler that names an input -/

theorem rsOfInput_lt {s : State} {n m : Nat} (h : rsOfInput s n = some m) : m < 192 := by
  unfold rsOfInput at h
  have hr {p : Nat → Bool} {x : Nat} (hx : (List.range 192).find? p = some x) : x < 192 := List.mem_range.mp (List.mem_of_find?_eq_some hx)
  split at h
  next x hx => exact Option.some.inj h ▸ hr hx
  next =>
    split at h
    next x hx => exact Option.some.inj h ▸ hr hx
    next => exact hr h

/-- The choice rests on the resamplers' sources and RUN, and on the groups that the image uses. -/
theorem rsOfInput_congr {s t : State} (himg : t.img = s.img) (h : ∀ m < 192, t.rd (R.DCH_RSm_CFG_SRCSEL m) = s.rd (R.DCH_RSm_CFG_SRCSEL m) ∧
    t.rd (R.DCH_RSm_CFG_SRC m) = s.rd (R.DCH_RSm_CFG_SRC m) ∧ t.rd (R.DCH_RSm_CTL_RUN m) = s.rd (R.DCH_RSm_CTL_RUN m)) (n : Nat) :
    rsOfInput t n = rsOfInput s n := by
  have hname : ∀ m ∈ List.range 192, namesInput t n m = namesInput s n m := fun m hm => by
    obtain ⟨hsel, hsrc, -⟩ := h m (List.mem_range.mp hm)
    rw [namesInput, namesInput, on_of_rd hsel, hsrc]
  have hrun : ∀ m ∈ List.range 192, t.on (R.DCH_RSm_CTL_RUN m) = s.on (R.DCH_RSm_CTL_RUN m) := fun m hm =>
    on_of_rd (h m (List.mem_range.mp hm)).2.2
  have h1 : ((List.range 192).find? fun m => namesInput t n m && t.on (R.DCH_RSm_CTL_RUN m)) =
      (List.range 192).find? fun m => namesInput s n m && s.on (R.DCH_RSm_CTL_RUN m) :=
    List.find?_congr fun m hm => by rw [hname m hm, hrun m hm]
  have h2 : ((List.range 192).find? fun m => namesInput t n m && t.img.used.testBit (m / 24)) =
      (List.range 192).find? fun m => namesInput s n m && s.img.used.testBit (m / 24) :=
    List.find?_congr fun m hm => by rw [hname m hm, himg]
  rw [rsOfInput, rsOfInput, h1, h2, List.find?_congr hname]

end Sys2Proof.Machine
end

section
/-! PROOFS. Restarts, stops, starts and stage changes of the chains (R87, R104, R111 to R113). -/
namespace Sys2Proof.Machine

/-! ### The restart of a chain -/

section Restart
variable (s : State) (n : Nat)

@[simp] theorem zeroRsOf_regs : (zeroRsOf s n).regs = s.regs := by
  unfold zeroRsOf
  split <;> rfl

@[simp] theorem chainOf_zeroRsOf (j : Nat) : chainOf (zeroRsOf s n) j = chainOf s j := by
  unfold zeroRsOf
  split <;> rfl

/-- What chain `n` holds of its inputs becomes zero at TB2 instant `w`, and U follows (R104, R111). -/
def emptied (w : Nat) : State := chainEvent (zeroRsOf (setChain s n { zeroChain (chainOf s n) false with srstAt := some w }) n) n

theorem emptied_chain (w : Nat) : chainOf (emptied s n w) n = { zeroChain (chainOf s n) false with srstAt := some w } := by
  rw [emptied, chainEvent, chainOf_markTag, chainOf_zeroRsOf, chainOf_setChain]

theorem emptied_cic (w : Nat) : (chainOf (emptied s n w) n).cic = { cnt := (chainOf s n).cic.cnt } := by
  rw [emptied_chain]
  rfl

theorem emptied_hb (w st : Nat) : hbOf (chainOf (emptied s n w) n) st = { hbOf (chainOf s n) st with line := [] } := by
  rw [emptied_chain]
  exact hbOf_zeroChain _ false st

theorem emptied_regs (w : Nat) : (emptied s n w).regs = s.regs := by
  rw [emptied, chainEvent, markTag_regs, zeroRsOf_regs, setChain_regs]

theorem restartChain_eq : restartChain s n = emptied (settleChain s n) n (tb2U s) := rfl

theorem restartChain_kept : KeptBut s (restartChain s n) (bstatFlds n) := (settleChain_step n s).flds.of_regs (emptied_regs ..)

/-- A restart leaves nothing of the chain's inputs, and settles its fades; the count of the CIC's bits runs on (R87, R111). -/
def Zeroed (s t : State) (n : Nat) : Prop :=
  (chainOf t n).cic = { cnt := (chainOf s n).cic.cnt } ∧ (∀ st, (hbOf (chainOf t n) st).line = []) ∧
    ∀ st, 1 ≤ st → st ≤ 5 → (hbOf (chainOf t n) st).fade = none ∧ t.on (hbBusy n st) = false ∧ t.on (hbPend n st) = false

theorem restartChain_zeroed : Zeroed s (restartChain s n) n := by
  have hcic := (settleChain_step n s).cic
  have hidle {st : Nat} (h1 : 1 ≤ st) (h5 : st ≤ 5) : StageIdle n st (settleChain s n) := settleChain_idle n s (by
    simp only [List.mem_cons, List.not_mem_nil, or_false]
    omega)
  rw [restartChain_eq]
  generalize settleChain s n = u at hcic hidle
  refine ⟨by rw [emptied_cic, hcic], fun st => by rw [emptied_hb], fun st h1 h5 => ?_⟩
  obtain ⟨hfade, hbusy, hpend⟩ := hidle h1 h5
  have hregs := emptied_regs u n (tb2U s)
  exact ⟨by rw [emptied_hb, hfade], (on_of_rd (rd_of_regs hregs _)).trans hbusy, (on_of_rd (rd_of_regs hregs _)).trans hpend⟩

theorem restartChain_srstAt : (chainOf (restartChain s n) n).srstAt = some (tb2U s) := by rw [restartChain_eq, emptied_chain]

end Restart

section Srst
variable {n : Fin 48} {s : State}

theorem chainSrst_restarts (h : s.on (R.DCH_CHn_CTL_RUN n) = true) : Runs (.chainSrst n) s fun t => Zeroed s t n ∧
    (chainOf t n).srstAt = some (tb2U s) ∧ SameBytes s t ∧ RegsKept s t [(0x70100C + 0x40 * n.val, 0x701010 + 0x40 * n.val)] := by
  refine ⟨restartChain s n, ?_, restartChain_zeroed s n, restartChain_srstAt s n, sameBytes_of_mem (restartChain_mem s n),
    (restartChain_kept s n).regsKept (bstatFlds_within n.isLt List.mem_cons_self)⟩
  rw [exec, execChainSrst, h]
  rfl

theorem chainSrst_ignored (h : s.on (R.DCH_CHn_CTL_RUN n) = false) : exec (.chainSrst n) s = .next s := by
  rw [exec, execChainSrst, h]
  rfl

/-! ### RUN of a chain -/

/-- A change of NHB that waits is dropped. -/
def nhbDropped (s : State) (n : Nat) : State := setChain s n { chainOf s n with nhb := none }

/-- The chain stopped, its fades settled, before its resampler stops (R112). -/
def chainStopped (s : State) (n : Nat) : State := nhbDropped (settleChain (s.wrb (R.DCH_CHn_CTL_RUN n) false) n) n

theorem chainStopped_settles : KeptBut (s.wrb (R.DCH_CHn_CTL_RUN n) false) (chainStopped s n) (bstatFlds n) :=
  (settleChain_step n.val _).flds.of_regs (setChain_regs ..)

theorem chainStopped_run : (chainStopped s n).on (R.DCH_CHn_CTL_RUN n) = false :=
  (on_of_rd (rd_of_bstat chainStopped_settles (by omega))).trans (on_wrb_self _ _ _ rfl)

theorem chainStopped_mem : (chainStopped s n).mem = s.mem := by rw [chainStopped, nhbDropped, setChain_mem, settleChain_mem, wrb_mem]

theorem chainStopped_img : (chainStopped s n).img = s.img := by
  rw [chainStopped, nhbDropped, setChain_img, (settleChain_step n.val _).img, wrb_img]

theorem rsOfInput_chainStopped : rsOfInput (chainStopped s n) n = rsOfInput s n := by
  have hkeep {d : Dom} {a lo w r : Nat} {c : Acc} (h : lo < 32 ∧ 0x704000 ≤ a ∧ a < 0x4000000) :
      (chainStopped s n).rd ⟨d, a, lo, w, c, r⟩ = s.rd ⟨d, a, lo, w, c, r⟩ :=
    (rd_of_bstat chainStopped_settles (by omega)).trans (rd_wrb_ne _ _ (key_ne (by omega)))
  exact rsOfInput_congr chainStopped_img (fun m hm => ⟨hkeep (by omega), hkeep (by omega), hkeep (by omega)⟩) n

theorem exec_chainRunClear_feeding {m : Nat} (h : s.on (R.DCH_CHn_CTL_RUN n) = true) (hm : rsOfInput s n = some m) :
    exec (.chainRunClear n) s =
      .next (if rsRun (chainStopped s n) m then stopRs (chainStopped s n) m else chainStopped s n) := by
  have hm' := rsOfInput_chainStopped.trans hm
  rw [exec, execChainRunClear, if_neg (by simp [h])]
  rw [chainStopped] at hm' ⊢
  generalize settleChain (s.wrb (R.DCH_CHn_CTL_RUN n) false) n = u at hm' ⊢
  rw [nhbDropped] at hm'
  simp only [hm']
  rfl

theorem exec_chainRunClear_alone (h : s.on (R.DCH_CHn_CTL_RUN n) = true) (hm : rsOfInput s n = none) :
    exec (.chainRunClear n) s = .next (chainStopped s n) := by
  have hm' := rsOfInput_chainStopped.trans hm
  rw [exec, execChainRunClear, if_neg (by simp [h])]
  rw [chainStopped] at hm' ⊢
  generalize settleChain (s.wrb (R.DCH_CHn_CTL_RUN n) false) n = u at hm' ⊢
  rw [nhbDropped] at hm'
  simp only [hm']
  rfl

theorem chainRunClear_stops (h : s.on (R.DCH_CHn_CTL_RUN n) = true) : Runs (.chainRunClear n) s fun t =>
    t.on (R.DCH_CHn_CTL_RUN n) = false ∧ (∀ m, rsOfInput s n = some m → rsRun t m = false) ∧ SameBytes s t := by
  cases hm : rsOfInput s n with
  | none =>
    exact ⟨_, exec_chainRunClear_alone h hm, chainStopped_run, fun _ he => absurd he (Option.some_ne_none _).symm,
      sameBytes_of_mem chainStopped_mem⟩
  | some m =>
    have hlt := rsOfInput_lt hm
    refine ⟨_, exec_chainRunClear_feeding h hm, ?_⟩
    split
    next hr =>
      have hkeep : (stopRs (chainStopped s n) m).rd (R.DCH_CHn_CTL_RUN n) = (chainStopped s n).rd (R.DCH_CHn_CTL_RUN n) :=
        (stopRs_step _ m 0 NoStage).flds _
          ⟨key_ne (by omega), key_ne (by omega), key_ne (by omega), key_ne (by omega), key_ne (by omega)⟩
      exact ⟨(on_of_rd hkeep).trans chainStopped_run, fun _ he => Option.some.inj he ▸ stopRs_stops _ m,
        sameBytes_of_mem ((stopRs_mem ..).trans chainStopped_mem)⟩
    next hr =>
      exact ⟨chainStopped_run, fun _ he => Option.some.inj he ▸ Bool.eq_false_iff.mpr hr, sameBytes_of_mem chainStopped_mem⟩

/-- R113: chain `n` may run with `h` stages as its resampler, where one names it, and its banks are. -/
def Fits (s : State) (n h : Nat) : Prop :=
  (∀ m, rsOfInput s n = some m → feedOk s n h m = true) ∧ (rsOfInput s n = none → stagesLoaded s n h = true)

theorem fits_some {s : State} {n h m : Nat} (hm : rsOfInput s n = some m) : Fits s n h ↔ feedOk s n h m = true := by
  simp [Fits, hm]

theorem fits_none {s : State} {n h : Nat} (hm : rsOfInput s n = none) : Fits s n h ↔ stagesLoaded s n h = true := by
  simp [Fits, hm]

section RunSet
variable (h : s.on (R.DCH_CHn_CTL_RUN n) = false)
include h

theorem exec_chainRunSet_alone (hm : rsOfInput s n = none) : exec (.chainRunSet n) s = .next
    (if stagesLoaded s n (nhbOf s n) then restartChain (s.wrb (R.DCH_CHn_CTL_RUN n) true) n
    else (s.wrb (R.DCH_CHn_STAT_RUN_REFUSED n) true).logIx 0x07 2 n) := by
  rw [exec, execChainRunSet, if_neg (by simp [h])]
  simp only [hm]
  cases stagesLoaded s n (nhbOf s n) <;> rfl

theorem exec_chainRunSet_feeding {m : Nat} (hm : rsOfInput s n = some m) : exec (.chainRunSet n) s = .next
    (if feedOk s n (nhbOf s n) m && rsActLoaded s m then startRsRun (restartChain (s.wrb (R.DCH_CHn_CTL_RUN n) true) n) m
    else (s.wrb (R.DCH_CHn_STAT_RUN_REFUSED n) true).logIx 0x07 2 n) := by
  rw [exec, execChainRunSet, if_neg (by simp [h])]
  simp only [hm]
  cases feedOk s n (nhbOf s n) m && rsActLoaded s m <;> rfl

end RunSet

theorem restartChain_running : (restartChain (s.wrb (R.DCH_CHn_CTL_RUN n) true) n).on (R.DCH_CHn_CTL_RUN n) = true :=
  (on_of_rd (rd_of_bstat (restartChain_kept _ n) (by omega))).trans (on_wrb_self _ _ _ rfl)

theorem chainRunSet_alone (h : s.on (R.DCH_CHn_CTL_RUN n) = false) (hm : rsOfInput s n = none)
    (hl : stagesLoaded s n (nhbOf s n) = true) : Runs (.chainRunSet n) s fun t => t.on (R.DCH_CHn_CTL_RUN n) = true ∧ Zeroed s t n ∧
      SameBytes s t ∧
      RegsKept s t [(0x701000 + 0x40 * n.val, 0x701004 + 0x40 * n.val), (0x70100C + 0x40 * n.val, 0x701010 + 0x40 * n.val)] := by
  refine ⟨_, (exec_chainRunSet_alone h hm).trans (by rw [if_pos hl]), restartChain_running,
    restartChain_zeroed (s.wrb (R.DCH_CHn_CTL_RUN n) true) n, sameBytes_of_mem ((restartChain_mem ..).trans (wrb_mem ..)), ?_⟩
  exact regsKept_trans (regsKept_wr (within_head (by omega)) (regsKept_refl s _) _)
    ((restartChain_kept _ n).regsKept (bstatFlds_within n.isLt (List.mem_cons_of_mem _ List.mem_cons_self)))

theorem chainRunSet_feeding {m : Nat} (h : s.on (R.DCH_CHn_CTL_RUN n) = false) (hm : rsOfInput s n = some m)
    (hf : feedOk s n (nhbOf s n) m = true) (ha : rsActLoaded s m = true) : Runs (.chainRunSet n) s fun t =>
      t.on (R.DCH_CHn_CTL_RUN n) = true ∧ rsRun t m = true ∧ SameBytes s t := by
  have hlt := rsOfInput_lt hm
  refine ⟨_, (exec_chainRunSet_feeding h hm).trans (by rw [if_pos (by rw [hf, ha]; rfl)]), ?_, startRsRun_runs _ m,
    sameBytes_of_mem ((startRsRun_mem ..).trans ((restartChain_mem ..).trans (wrb_mem ..)))⟩
  exact (on_of_rd ((rd_of_regs (startRsRun_regs _ m) _).trans (rd_wrb_ne _ _ (key_ne (by omega))))).trans restartChain_running

theorem chainRunSet_running (h : s.on (R.DCH_CHn_CTL_RUN n) = true) : exec (.chainRunSet n) s = .next s := by
  rw [exec, execChainRunSet, if_pos h]

theorem chainRunSet_refused (h : s.on (R.DCH_CHn_CTL_RUN n) = false)
    (hbad : ¬ (Fits s n (nhbOf s n) ∧ ∀ m, rsOfInput s n = some m → rsActLoaded s m = true)) : Runs (.chainRunSet n) s fun t =>
      t.on (R.DCH_CHn_CTL_RUN n) = false ∧ t.on (R.DCH_CHn_STAT_RUN_REFUSED n) = true ∧ t.dch = s.dch ∧ SameBytes s t ∧
      RegsKept s t [(0x701010 + 0x40 * n.val, 0x701014 + 0x40 * n.val)] := by
  refine ⟨(s.wrb (R.DCH_CHn_STAT_RUN_REFUSED n) true).logIx 0x07 2 n, ?_, ?_, ?_, rfl, fun _ => rfl, ?_⟩
  · cases hm : rsOfInput s n with
    | none =>
      rw [exec_chainRunSet_alone h hm, if_neg fun hl => hbad ⟨(fits_none hm).mpr hl, by simp [hm]⟩]
    | some m =>
      rw [exec_chainRunSet_feeding h hm, if_neg fun hl => ?_]
      rw [Bool.and_eq_true] at hl
      exact hbad ⟨(fits_some hm).mpr hl.1, fun _ he => Option.some.inj (hm.symm.trans he) ▸ hl.2⟩
  · exact (on_of_rd ((rd_of_regs (logIx_regs ..) _).trans (rd_wrb_ne _ _ (key_ne (by omega))))).trans h
  · exact (on_of_rd (rd_of_regs (logIx_regs ..) _)).trans (on_wrb_self _ _ _ rfl)
  · exact regsKept_of_regs (regsKept_wr (within_head (by omega)) (regsKept_refl s _) _) (logIx_regs ..)

/-! ### A change of NHB (R113) -/

/-- The stages that a chain of `v` stages beyond HB1 does not have stop fading. -/
def stagesDropped (s : State) (n v : Nat) : State := [2, 3, 4, 5].foldl (fun a st => if v + 1 < st then settleStage a n false st else a) s

theorem stagesDropped_step (v : Nat) : DchStep n (bstatFlds n) NoStage s (stagesDropped s n v) :=
  List.foldlRecOn (motive := DchStep n.val (bstatFlds n) NoStage s) _ _ (.refl s) fun a ha st _ => by
    split
    · exact ha.trans ((settleStage_step n.val st a false).mono (stageFlds_subset n.val st) fun _ h => h.elim)
    · exact ha

/-- NHB takes a value while `old` stays in effect. -/
def nhbWaits (s : State) (n v old : Nat) : State := setChain (s.wr (R.DCH_CHn_CFG_NHB n) v) n { chainOf s n with nhb := some old }

theorem chainOf_nhbWaits (v old : Nat) : chainOf (nhbWaits s n v old) n = { chainOf s n with nhb := some old } := by
  rw [nhbWaits, chainOf_setChain]

theorem nhbWaits_regs (v old : Nat) : (nhbWaits s n v old).regs = (s.wr (R.DCH_CHn_CFG_NHB n) v).regs := setChain_regs ..

theorem nhbWrite_ignored {v : Fin 8} (hv : 4 < v.val) : exec (.nhbWrite n v) s = .next s := by
  rw [exec, execNhbWrite, if_pos hv]

section NhbWrite
variable {v : Fin 8} (hv : v.val ≤ 4)
include hv

theorem nhbWrite_stopped (h : s.on (R.DCH_CHn_CTL_RUN n) = false) : exec (.nhbWrite n v) s = .next (s.wr (R.DCH_CHn_CFG_NHB n) v.val) := by
  rw [exec, execNhbWrite, if_neg (by omega), if_pos (by rw [h]; rfl)]

variable (h : s.on (R.DCH_CHn_CTL_RUN n) = true)
include h

theorem exec_nhbWrite_refused (hf : ¬ Fits s n v) :
    exec (.nhbWrite n v) s = .next ((s.wrb (R.DCH_CHn_STAT_NHB_REFUSED n) true).logIx 0x07 1 n) := by
  rw [exec, execNhbWrite, if_neg (by omega), if_neg (by simp [h])]
  cases hm : rsOfInput s n with
  | none => exact congrArg _ (if_pos (by simpa using (fits_none hm).not.mp hf))
  | some m => exact congrArg _ (if_pos (by simpa using (fits_some hm).not.mp hf))

theorem exec_nhbWrite_fits (hf : Fits s n v) : exec (.nhbWrite n v) s =
    .next (if s.rd (R.DCH_CHn_CFG_NHB n) = v.val then s else nhbWaits (stagesDropped s n v) n v (nhbOf s n)) := by
  rw [exec, execNhbWrite, if_neg (by omega), if_neg (by simp [h])]
  cases hm : rsOfInput s n with
  | none => exact congrArg _ (if_neg (by simpa using (fits_none hm).mp hf))
  | some m => exact congrArg _ (if_neg (by simpa using (fits_some hm).mp hf))

theorem nhbWrite_refused (hf : ¬ Fits s n v) : Runs (.nhbWrite n v) s fun t => t.on (R.DCH_CHn_STAT_NHB_REFUSED n) = true ∧ t.dch = s.dch ∧
    SameBytes s t ∧ RegsKept s t [(0x701010 + 0x40 * n.val, 0x701014 + 0x40 * n.val)] :=
  ⟨_, exec_nhbWrite_refused hv h hf, (on_of_rd (rd_of_regs (logIx_regs ..) _)).trans (on_wrb_self _ _ _ rfl), rfl, fun _ => rfl,
    regsKept_of_regs (regsKept_wr (within_head (by omega)) (regsKept_refl s _) _) (logIx_regs ..)⟩

theorem nhbWrite_same (hf : Fits s n v) (he : s.rd (R.DCH_CHn_CFG_NHB n) = v.val) : exec (.nhbWrite n v) s = .next s := by
  rw [exec_nhbWrite_fits hv h hf, if_pos he]

theorem nhbWrite_taken (hf : Fits s n v) (he : s.rd (R.DCH_CHn_CFG_NHB n) ≠ v.val) : Runs (.nhbWrite n v) s fun t =>
    t.rd (R.DCH_CHn_CFG_NHB n) = v.val ∧ nhbOf t n = nhbOf s n ∧ (chainOf t n).cic = (chainOf s n).cic ∧ SameBytes s t ∧
      RegsKept s t [(0x701004 + 0x40 * n.val, 0x701008 + 0x40 * n.val), (0x70100C + 0x40 * n.val, 0x701010 + 0x40 * n.val)] := by
  have hstep := stagesDropped_step (n := n) (s := s) v
  refine ⟨_, (exec_nhbWrite_fits hv h hf).trans (by rw [if_neg he]), ?_⟩
  generalize stagesDropped s n v = u at hstep
  refine ⟨?_, ?_, ?_, sameBytes_of_mem ((setChain_mem ..).trans ((wr_mem ..).trans hstep.mem)), ?_⟩
  · rw [rd_of_regs (nhbWaits_regs ..), rd_wr_self]
    exact Nat.mod_eq_of_lt v.isLt
  · rw [nhbOf, chainOf_nhbWaits]
    rfl
  · rw [chainOf_nhbWaits, ← hstep.cic]
  · refine regsKept_of_regs (regsKept_wr (within_head (by omega)) ?_ _) (nhbWaits_regs ..)
    exact hstep.flds.regsKept (bstatFlds_within n.isLt (List.mem_cons_of_mem _ List.mem_cons_self))

end NhbWrite

theorem nhbChangeEffect_none (h : (chainOf s n).nhb = none) : exec (.nhbChangeEffect n) s = .next s := by
  rw [exec, execNhbChangeEffect, h]

/-- The accepted value in effect: HB2 to HB5 and the history of the resampler are zero. -/
def nhbInEffect (s : State) (n : Nat) : State := chainEvent (zeroRsOf (setChain s n { zeroChain (chainOf s n) true with nhb := none }) n) n

theorem nhbChangeEffect_some {h : Nat} (hh : (chainOf s n).nhb = some h) : Runs (.nhbChangeEffect n) s fun t =>
    nhbOf t n = s.rd (R.DCH_CHn_CFG_NHB n) ∧ (∀ st, st ≠ 1 → (hbOf (chainOf t n) st).line = []) ∧
      (chainOf t n).cic = (chainOf s n).cic ∧ t.regs = s.regs ∧ SameBytes s t := by
  have hchain : chainOf (nhbInEffect s n) n = { zeroChain (chainOf s n) true with nhb := none } := by
    rw [nhbInEffect, chainEvent, chainOf_markTag, chainOf_zeroRsOf, chainOf_setChain]
  have hregs : (nhbInEffect s n).regs = s.regs := by rw [nhbInEffect, chainEvent, markTag_regs, zeroRsOf_regs, setChain_regs]
  refine ⟨nhbInEffect s n, by rw [exec, execNhbChangeEffect, hh]; rfl, ?_, fun st hst => ?_, by rw [hchain]; rfl, hregs,
    sameBytes_of_mem ?_⟩
  · rw [nhbOf, hchain, rd_of_regs hregs]
    rfl
  · have hhb : hbOf (chainOf (nhbInEffect s n) n) st = hbOf (zeroChain (chainOf s n) true) st := by rw [hchain]; rfl
    rw [hhb, hbOf_zeroChain, if_neg (by simpa using hst)]
  · rw [nhbInEffect, chainEvent_mem, zeroRsOf_mem, setChain_mem]

end Srst

end Sys2Proof.Machine
end

section
/-! PROOFS. Bits in a decimation chain (R59, R65, R86 to R91): the counters, the CIC and HB1. -/
namespace Sys2Proof.Machine

/-! ### Counters that run on without input (R87) -/

theorem runCounters_cic (fuel st : Nat) (c : Chain) : (runCounters fuel st c).cic = c.cic := by
  induction fuel generalizing st c with
  | zero => rfl
  | succ fuel ih =>
    rw [runCounters]
    split
    · exact ih _ _
    · rfl

theorem runCounters_srstAt (fuel st : Nat) (c : Chain) : (runCounters fuel st c).srstAt = c.srstAt := by
  induction fuel generalizing st c with
  | zero => rfl
  | succ fuel ih =>
    rw [runCounters]
    split
    · exact ih _ _
    · rfl

/-- The counters of earlier stages stay. -/
theorem runCounters_hb (fuel : Nat) {st j : Nat} (c : Chain) (hj : j < st) : hbOf (runCounters fuel st c) j = hbOf c j := by
  induction fuel generalizing st c with
  | zero => rfl
  | succ fuel ih =>
    rw [runCounters]
    have hset := hbOf_setHb_ne c { hbOf c st with odd := !(hbOf c st).odd } (show j ≠ st by omega)
    split
    · exact (ih _ (by omega)).trans hset
    · exact hset

theorem runCounters_odd (fuel st : Nat) (c : Chain) :
    hbOf (runCounters (fuel + 1) st c) st = { hbOf c st with odd := !(hbOf c st).odd } := by
  rw [runCounters]
  split
  · rw [runCounters_hb _ _ (Nat.lt_succ_self st), hbOf_setHb]
  · rw [hbOf_setHb]

/-- `c` with its CIC's count of bits at `k`. -/
def withCnt (c : Chain) (k : Nat) : Chain := { c with cic := { c.cic with cnt := k } }

theorem countBit_counts {c : Chain} (h : c.cic.cnt + 1 < 32) : countBit c = withCnt c (c.cic.cnt + 1) := if_pos h

theorem countBit_wraps {c : Chain} (h : ¬ c.cic.cnt + 1 < 32) : countBit c = runCounters 5 1 (withCnt c 0) := if_neg h

theorem countBit_srstAt (c : Chain) : (countBit c).srstAt = c.srstAt := by
  unfold countBit
  split
  · rfl
  · exact runCounters_srstAt ..

theorem countBits_counts (c : Chain) {k : Nat} (h : c.cic.cnt + k < 32) : countBit^[k] c = withCnt c (c.cic.cnt + k) := by
  induction k with
  | zero => rfl
  | succ k ih =>
    rw [Function.iterate_succ_apply', ih (by omega)]
    exact countBit_counts (show c.cic.cnt + k + 1 < 32 by omega)

/-- The bits up to the next output of the CIC turn HB1's counter by one. -/
theorem countBits_word {c : Chain} (h : c.cic.cnt < 32) : (countBit^[32 - c.cic.cnt] c).cic = { c.cic with cnt := 0 } ∧
    hbOf (countBit^[32 - c.cic.cnt] c) 1 = { hbOf c 1 with odd := !(hbOf c 1).odd } := by
  have hlen : 32 - c.cic.cnt = (31 - c.cic.cnt) + 1 := by omega
  have hlast : countBit^[32 - c.cic.cnt] c = runCounters 5 1 (withCnt c 0) := by
    rw [hlen, Function.iterate_succ_apply', countBits_counts c (by omega),
      countBit_wraps (show ¬ c.cic.cnt + (31 - c.cic.cnt) + 1 < 32 by omega)]
    rfl
  rw [hlast, runCounters_cic, runCounters_odd]
  exact ⟨rfl, rfl⟩

/-- The bits that complete a value leave HB1 without an odd input. -/
theorem countBits_value {c : Chain} (h : c.cic.cnt < 32) : (countBit^[tapBits c] c).cic = { c.cic with cnt := 0 } ∧
    hbOf (countBit^[tapBits c] c) 1 = { hbOf c 1 with odd := false } := by
  obtain ⟨hcic, hhb⟩ := countBits_word h
  cases hodd : (hbOf c 1).odd with
  | true =>
    have hlen : tapBits c = 32 - c.cic.cnt := by rw [tapBits, hodd]; rfl
    rw [hlen, hcic, hhb, hodd]
    exact ⟨rfl, rfl⟩
  | false =>
    have hcnt : (countBit^[32 - c.cic.cnt] c).cic.cnt = 0 := by rw [hcic]
    have hlen : tapBits c = (32 - (countBit^[32 - c.cic.cnt] c).cic.cnt) + (32 - c.cic.cnt) := by
      rw [tapBits, hodd, hcnt]
      simp only [Bool.false_eq_true, if_false]
      omega
    obtain ⟨hcic2, hhb2⟩ := countBits_word (c := countBit^[32 - c.cic.cnt] c) (by omega)
    rw [hlen, Function.iterate_add_apply, hcic2, hhb2, hcic, hhb, hodd]
    exact ⟨rfl, rfl⟩

/-! ### Bits that a running chain takes -/

/-- The latest restart of chain `n` lies 64 fm edges back, or more. -/
def LongRunning (s : State) (n : Nat) : Prop :=
  ∀ w, (chainOf s n).srstAt = some w → w + 64 * tmNs (lpmAct s) * 2 ^ 32 ≤ tb2U s

/-- The instant of an fm edge `k` periods on, against bounds in whole periods. -/
theorem edges_le {w k p q a : Nat} (h : w + q * p * 2 ^ 32 ≤ a) (hk : k ≤ q) : w + k * p * nsU ≤ a :=
  (Nat.add_le_add_left (Nat.mul_le_mul_right nsU (Nat.mul_le_mul_right p hk)) w).trans h

theorem lt_edges {w k p a : Nat} (h : a < w + p * 2 ^ 32) : a < w + (k + 1) * p * nsU :=
  h.trans_le (Nat.add_le_add_left (Nat.mul_le_mul_right nsU (Nat.le_mul_of_pos_left p k.succ_pos)) w)

theorem beforeRestart_of_longRunning {s : State} {n k : Nat} (h : LongRunning s n) (hk : k < 64) : beforeRestart s n k = false := by
  unfold beforeRestart
  cases hw : (chainOf s n).srstAt with
  | none => rfl
  | some w =>
    rw [Option.any_some, decide_eq_false_iff_not, Nat.not_lt]
    exact edges_le (h w hw) hk

/-- The restart lies ahead of the next fm edge. -/
theorem beforeRestart_of_pending {s : State} {n k w : Nat} (hw : (chainOf s n).srstAt = some w)
    (h : tb2U s < w + tmNs (lpmAct s) * 2 ^ 32) : beforeRestart s n k = true := by
  rw [beforeRestart, hw, Option.any_some, decide_eq_true_eq]
  exact lt_edges h

theorem modBits_length (s : State) (m : Nat) (l : List Bool) : (modBits s m l).length = l.length := by
  induction l with
  | nil => rfl
  | cons b t ih => exact congrArg Nat.succ ih

/-- A modulator that has run for 64 edges without a loop reset gives what its loop puts out. -/
theorem modBits_undisturbed {s : State} {n : Nat} (hen : s.on (R.AFE_CHn_CFG_EN n) = true)
    (hat : mget s.afe.enAt n 0 + 64 * tmNs (lpmAct s) * 2 ^ 32 < tb2U s) (hrst : mget s.afe.rst n [] = []) {l : List Bool}
    (hl : l.length ≤ 64) : modBits s n l = l := by
  induction l with
  | nil => rfl
  | cons b t ih =>
    rw [List.length_cons] at hl
    have hle : mget s.afe.enAt n 0 + 1 + t.length * tmNs (lpmAct s) * nsU ≤ tb2U s :=
      edges_le (q := 64) (by rw [Nat.add_right_comm]; exact hat) (by omega)
    have hstarted : decide (mget s.afe.enAt n 0 < tb2U s - t.length * tmNs (lpmAct s) * nsU) = true :=
      decide_eq_true (Nat.lt_of_add_one_le (Nat.le_sub_of_add_le hle))
    rw [modBits, ih (by omega), hen, hstarted, forcedBit, hrst, beq_self_eq_true, Bool.or_true]
    rfl

/-- The bits of a chain that is to restart at a later edge move its counters alone. -/
theorem feedBits_counts {s : State} {n w : Nat} (h : tb2U s < w + tmNs (lpmAct s) * 2 ^ 32) (v : Int) (l : List Bool) {c : Chain}
    (hc : c.srstAt = some w) : feedBits n v l (setChain s n c) = setChain s n (countBit^[l.length] c) := by
  induction l generalizing c with
  | nil => rfl
  | cons b t ih =>
    have hb : beforeRestart (setChain s n c) n t.length = true :=
      beforeRestart_of_pending (w := w) (by rw [chainOf_setChain, hc]) h
    have hset (c' : Chain) : setChain (setChain s n c) n c' = setChain s n c' := by simp only [setChain, mput_mput_self]
    rw [feedBits, hb, if_pos rfl, chainOf_setChain, hset, ih ((countBit_srstAt c).trans hc), List.length_cons,
      Function.iterate_succ_apply]

theorem feedBits_waiting {s : State} {n w : Nat} (hw : (chainOf s n).srstAt = some w) (h : tb2U s < w + tmNs (lpmAct s) * 2 ^ 32)
    (v : Int) {l : List Bool} (hl : l ≠ []) : feedBits n v l s = setChain s n (countBit^[l.length] (chainOf s n)) := by
  obtain ⟨b, t, rfl⟩ := List.exists_cons_of_ne_nil hl
  rw [feedBits, beforeRestart_of_pending hw h, if_pos rfl, feedBits_counts h v t ((countBit_srstAt _).trans hw), List.length_cons,
    Function.iterate_succ_apply]

end Sys2Proof.Machine
end

section
/-! PROOFS. A fast-tap value (R67, R86, R89 to R91): a running chain takes bits, HB1's second input gives the value. -/
namespace Sys2Proof.Machine

/-! ### The CIC (R89) -/

theorem cicBit_quiet {c : Cic} (b : Bool) (h : c.cnt + 1 < 32) :
    cicBit c b = ((Spec.cicBit c b).1, none) ∧ (Spec.cicBit c b).2 = [] ∧ (Spec.cicBit c b).1.cnt = c.cnt + 1 := by
  unfold cicBit Spec.cicBit
  extract_lets
  rw [if_pos h, if_pos h]
  exact ⟨rfl, rfl, rfl⟩

theorem cicBit_output {c : Cic} (b : Bool) (h : ¬ c.cnt + 1 < 32) : ∃ y,
    cicBit c b = ((Spec.cicBit c b).1, some y) ∧ (Spec.cicBit c b).2 = [y] ∧ (Spec.cicBit c b).1.cnt = 0 := by
  unfold cicBit Spec.cicBit
  extract_lets
  rw [if_neg h, if_neg h]
  exact ⟨_, rfl, rfl, rfl⟩

theorem cicBits_append (c : Cic) (l r : List Bool) : Spec.cicBits c (l ++ r) =
    ((Spec.cicBits (Spec.cicBits c l).1 r).1, (Spec.cicBits c l).2 ++ (Spec.cicBits (Spec.cicBits c l).1 r).2) := by
  induction l generalizing c with
  | nil => rfl
  | cons b t ih => simp only [List.cons_append, Spec.cicBits, ih, List.append_assoc]

/-- Bits short of the next output give none. -/
theorem cicBits_quiet {c : Cic} {l : List Bool} (h : c.cnt + l.length < 32) :
    (Spec.cicBits c l).2 = [] ∧ (Spec.cicBits c l).1.cnt = c.cnt + l.length := by
  induction l generalizing c with
  | nil => exact ⟨rfl, rfl⟩
  | cons b t ih =>
    rw [List.length_cons] at h
    obtain ⟨-, hout, hcnt⟩ := cicBit_quiet (c := c) b (by omega)
    obtain ⟨hout', hcnt'⟩ := ih (c := (Spec.cicBit c b).1) (by omega)
    rw [Spec.cicBits, hout, hout', hcnt', hcnt, List.length_cons]
    exact ⟨rfl, by omega⟩

/-! ### One input of a stage (R90, R91) -/

theorem finishHb_still {s : State} {n st : Nat} (h : (hbOf (chainOf s n) st).fade = none) : finishHb s n st = s := by
  rw [finishHb, h]

theorem startHb_still {s : State} {n st : Nat} (h : (hbOf (chainOf s n) st).fade = none) (hp : s.on (hbPend n st) = false) :
    startHb s n st = s := by
  rw [startHb, h]
  dsimp only
  rw [hp]
  rfl

/-- The delay line of a stage after one more input. -/
def lineIn (h : Hb) (x : Int) : List Int := (x :: h.line).take 47

theorem stageIn_first {s : State} {n st : Nat} (x : Int) (h : (hbOf (chainOf s n) st).odd = false) : stageIn s n st x =
    (setChain s n (setHb (chainOf s n) st { hbOf (chainOf s n) st with line := lineIn (hbOf (chainOf s n) st) x, odd := true }), none) := by
  simp only [stageIn, hbStep, h, Bool.false_eq_true, if_false, Bool.not_false, if_true]
  rfl

theorem stageIn_second {s : State} {n st : Nat} (x : Int) (h : (hbOf (chainOf s n) st).odd = true)
    (hf : (hbOf (chainOf s n) st).fade = none) (hp : s.on (hbPend n st) = false) : stageIn s n st x =
    (setChain s n (setHb (chainOf s n) st { hbOf (chainOf s n) st with line := lineIn (hbOf (chainOf s n) st) x, odd := false }),
      some (sat24 (hbOut (lineIn (hbOf (chainOf s n) st) x) (hbBankOf s n st (s.rd (hbAct n st)))))) := by
  simp only [stageIn, h, if_true, finishHb_still hf, startHb_still hf hp]
  simp only [hbStep, h, hf, Bool.not_true, Bool.false_eq_true, if_false]
  rfl

/-! ### A chain that has taken bits -/

/-- The fields in which a chain's saturations show. -/
def satFlds (n : Nat) : List Fld := [R.DCH_CHn_STAT_SATCNT n, R.DCH_CHn_STAT_SAT_STK n]

/-- Chain `n` has come to `x` since `s`: nothing else has changed but its count of saturations, and it has not restarted. -/
structure Fed (s : State) (n : Nat) (x : Chain) (u : State) : Prop where
  chain : chainOf u n = x
  rest : u = { s with regs := u.regs, dch := { s.dch with chain := u.dch.chain } }
  flds : KeptBut s u (satFlds n)
  srst : x.srstAt = (chainOf s n).srstAt

namespace Fed
variable {s u : State} {n : Nat} {x : Chain}

theorem refl (s : State) (n : Nat) : Fed s n (chainOf s n) s := ⟨rfl, rfl, keptBut_refl s _, rfl⟩

theorem setChain (h : Fed s n x u) {y : Chain} (hy : y.srstAt = x.srstAt) : Fed s n y (setChain u n y) where
  chain := chainOf_setChain ..
  rest := by
    have hr := h.rest
    rw [hr]
    rfl
  flds := h.flds
  srst := hy.trans h.srst

theorem wr (h : Fed s n x u) {f : Fld} (hf : f ∈ satFlds n) (v : Nat) : Fed s n x (u.wr f v) where
  chain := h.chain
  rest := by
    have hr := h.rest
    rw [hr]
    rfl
  flds := h.flds.wr hf v
  srst := h.srst

theorem countSat (h : Fed s n x u) (b : Bool) : Fed s n x (countSat u n b) := by
  unfold Machine.countSat
  split
  · exact (h.wr (by simp [satFlds]) _).wr (by simp [satFlds]) _
  · exact h

/-- A field of another register than STAT, or at another place in its word, reads as before. -/
theorem rd (h : Fed s n x u) {d : Dom} {a lo w r : Nat} {c : Acc}
    (hf : lo < 32 ∧ (lo ≠ 0 ∧ lo ≠ 28 ∨ a < 0x4000000 ∧ n < 48 ∧ a ≠ 0x701010 + 0x40 * n)) : u.rd ⟨d, a, lo, w, c, r⟩ = s.rd ⟨d, a, lo, w, c, r⟩ :=
  h.flds _ ⟨key_ne (by omega), key_ne (by omega)⟩

theorem longRunning (h : Fed s n x u) (hl : LongRunning s n) : LongRunning u n := by
  have htim : u.tim = s.tim := by rw [h.rest]
  have htb : tb2U u = tb2U s := by rw [tb2U, tb2U, State.tbOf, State.tbOf, htim]
  have hlpm : lpmAct u = lpmAct s := on_of_rd (h.rd (by omega))
  intro w hw
  rw [htb, hlpm]
  exact hl w (h.srst ▸ h.chain ▸ hw)

/-- The next of at most 64 bits enters the CIC. -/
theorem feedBits (h : Fed s n x u) (hl : LongRunning s n) (c : Int) (b : Bool) {t : List Bool} (ht : t.length < 64) :
    feedBits n c (b :: t) u = feedBits n c t (tapBit n c u b) := by
  rw [Machine.feedBits, beforeRestart_of_longRunning (h.longRunning hl) ht]
  rfl

end Fed

/-- `x` after a run of bits has passed its CIC into HB1. -/
def fedBits (x : Chain) (l : List Bool) (odd : Bool) : Chain :=
  setHb { x with cic := (Spec.cicBits x.cic l).1 } 1 { hbOf x 1 with
    line := (((Spec.cicBits x.cic l).2.map (clampI (-8388607) 8388607)).reverse ++ (hbOf x 1).line).take 47, odd := odd }

theorem fedBits_cic (x : Chain) (l : List Bool) (odd : Bool) : (fedBits x l odd).cic = (Spec.cicBits x.cic l).1 := rfl

theorem fedBits_hb (x : Chain) (l : List Bool) (odd : Bool) : hbOf (fedBits x l odd) 1 = { hbOf x 1 with
    line := (((Spec.cicBits x.cic l).2.map (clampI (-8388607) 8388607)).reverse ++ (hbOf x 1).line).take 47, odd := odd } :=
  hbOf_setHb ..

theorem fedBits_append (x : Chain) (l r : List Bool) (o o' : Bool) : fedBits (fedBits x l o) r o' = fedBits x (l ++ r) o' := by
  have hset (y : Chain) (g g' : Hb) (k : Cic) : setHb { setHb y 1 g with cic := k } 1 g' = setHb { y with cic := k } 1 g' := by
    simp only [setHb, mput_mput_self]
  have htake (p q m : List Int) : (p ++ (q ++ m).take 47).take 47 = ((p ++ q) ++ m).take 47 := by
    rw [List.append_assoc, List.take_append, List.take_take, Nat.min_eq_left (Nat.sub_le _ _), ← List.take_append]
  rw [fedBits, fedBits_hb, fedBits_cic, htake, fedBits, hset, fedBits, cicBits_append, List.map_append, List.reverse_append]

/-- The value that HB1's delay line gives for input `n`, trimmed. -/
def tapCode (s : State) (n : Nat) (line : List Int) : Int :=
  (sat24 (trimmed n (s.rd (R.AFE_CHn_CFG_GAIN n)) (sat24 (hbOut line (hbBankOf s n 1 (s.rd (R.DCH_CHn_BSTAT_ACT1 n))))).1)).1

section Bits
variable {s u : State} {n : Nat} {x : Chain} (h : Fed s n x u) (c : Int) (b : Bool)
include h

theorem tapBit_quiet (hc : x.cic.cnt + 1 < 32) : Fed s n { x with cic := (Spec.cicBit x.cic b).1 } (tapBit n c u b) := by
  have ht : tapBit n c u b = setChain u n { x with cic := (Spec.cicBit x.cic b).1 } := by
    simp only [tapBit, h.chain, (cicBit_quiet b hc).1]
  rw [ht]
  exact h.setChain rfl

/-- A bit that completes an output of the CIC passes it to HB1, which waits for a second one. -/
theorem tapBit_input (hc : ¬ x.cic.cnt + 1 < 32) (hodd : (hbOf x 1).odd = false) : Fed s n (fedBits x [b] true) (tapBit n c u b) := by
  obtain ⟨y, hbit, hout, -⟩ := cicBit_output (c := x.cic) b hc
  have hv := (h.setChain (y := { x with cic := (Spec.cicBit x.cic b).1 }) rfl).countSat (sat24 y).2
  have hline : fedBits x [b] true = setHb { x with cic := (Spec.cicBit x.cic b).1 } 1
      { hbOf x 1 with line := lineIn (hbOf x 1) (sat24 y).1, odd := true } := by
    simp only [fedBits, Spec.cicBits, hout]
    rfl
  simp only [tapBit, h.chain, hbit]
  rw [stageIn_first _ (by rw [hv.chain]; exact hodd), hv.chain, hline]
  exact hv.setChain rfl

/-- HB1's second input gives the value. -/
theorem tapBit_value (hn : n < 48) (hc : ¬ x.cic.cnt + 1 < 32) (hodd : (hbOf x 1).odd = true) (hf : (hbOf x 1).fade = none)
    (hp : s.on (hbPend n 1) = false) : ∃ v, Fed s n (fedBits x [b] false) v ∧
      tapBit n c u b = fastTap v n (tapCode s n (hbOf (fedBits x [b] false) 1).line) c := by
  obtain ⟨y, hbit, hout, -⟩ := cicBit_output (c := x.cic) b hc
  have hv := (h.setChain (y := { x with cic := (Spec.cicBit x.cic b).1 }) rfl).countSat (sat24 y).2
  have hline : fedBits x [b] false = setHb { x with cic := (Spec.cicBit x.cic b).1 } 1
      { hbOf x 1 with line := lineIn (hbOf x 1) (sat24 y).1, odd := false } := by
    simp only [fedBits, Spec.cicBits, hout]
    rfl
  generalize hw : countSat (setChain u n { x with cic := (Spec.cicBit x.cic b).1 }) n (sat24 y).2 = w at hv
  have hbank (k : Nat) : hbBankOf w n 1 k = hbBankOf s n 1 k := by
    have hr := hv.rest
    rw [hr]
    rfl
  have hact : w.rd (R.DCH_CHn_BSTAT_ACT1 n) = s.rd (R.DCH_CHn_BSTAT_ACT1 n) := hv.rd (by omega)
  have hpend : w.on (hbPend n 1) = false := (on_of_rd (hv.rd (by omega))).trans hp
  have hst := stageIn_second (n := n) (st := 1) (sat24 y).1 (by rw [hv.chain]; exact hodd) (by rw [hv.chain]; exact hf) hpend
  have hgain (z : Chain) : (setChain w n z).rd (R.AFE_CHn_CFG_GAIN n) = s.rd (R.AFE_CHn_CFG_GAIN n) := hv.rd (by omega)
  simp only [tapBit, h.chain, hbit, hw, hst, hgain]
  rw [hv.chain, hbank, show hbAct n 1 = R.DCH_CHn_BSTAT_ACT1 n from rfl, hact]
  rw [hline, hbOf_setHb]
  refine ⟨_, ((hv.setChain ?_).countSat _).countSat _, rfl⟩
  rfl

/-- Bits short of the CIC's next output. -/
theorem feedBits_quiet (hl : LongRunning s n) (l r : List Bool) (hc : x.cic.cnt + l.length < 32) (hlen : (l ++ r).length ≤ 64) :
    ∃ v, feedBits n c (l ++ r) u = feedBits n c r v ∧ Fed s n { x with cic := (Spec.cicBits x.cic l).1 } v := by
  induction l generalizing u x with
  | nil => exact ⟨u, rfl, h⟩
  | cons b t ih =>
    rw [List.length_cons] at hc
    rw [List.cons_append, List.length_cons] at hlen
    obtain ⟨-, -, hcnt⟩ := cicBit_quiet (c := x.cic) b (by omega)
    obtain ⟨v, hv, hfed⟩ := ih (tapBit_quiet h c b (by omega)) (by dsimp only; omega) (by omega)
    exact ⟨v, by rw [List.cons_append, h.feedBits hl c b (by omega), hv], hfed⟩

end Bits

/-- A run of bits up to and with the CIC's next output, cut before its last one. -/
theorem exists_word {l : List Bool} {k : Nat} (h : k + l.length = 32) (hk : k < 32) : ∃ t b, l = t ++ [b] ∧ k + t.length < 32 ∧
    k + t.length + 1 = 32 := by
  have hne : l ≠ [] := fun he => by
    rw [he, List.length_nil] at h
    omega
  refine ⟨l.dropLast, l.getLast hne, (List.dropLast_append_getLast hne).symm, ?_⟩
  rw [List.length_dropLast]
  omega

/-- A word's quiet bits and its last one are taken as one run. -/
theorem fedBits_quiet (x : Chain) {t : List Bool} (b : Bool) (odd : Bool) (h : x.cic.cnt + t.length < 32) :
    fedBits { x with cic := (Spec.cicBits x.cic t).1 } [b] odd = fedBits x (t ++ [b]) odd := by
  rw [fedBits, fedBits, cicBits_append, (cicBits_quiet h).1]
  rfl

section Words
variable {s u : State} {n : Nat} {x : Chain} (h : Fed s n x u) (hl : LongRunning s n) (c : Int) {l : List Bool}
  (hc : x.cic.cnt < 32) (hw : x.cic.cnt + l.length = 32)
include h hl hc hw

theorem feedBits_first (r : List Bool) (hlen : (l ++ r).length ≤ 64) (hodd : (hbOf x 1).odd = false) :
    ∃ v, feedBits n c (l ++ r) u = feedBits n c r v ∧ Fed s n (fedBits x l true) v := by
  obtain ⟨t, b, rfl, ht, hlast⟩ := exists_word hw hc
  rw [List.append_assoc] at hlen ⊢
  obtain ⟨v, hv, hfed⟩ := feedBits_quiet h c hl t ([b] ++ r) ht hlen
  have hcnt := (cicBits_quiet ht).2
  refine ⟨tapBit n c v b, ?_, ?_⟩
  · rw [hv]
    refine hfed.feedBits hl c b (show r.length < 64 from ?_)
    simp only [List.length_append, List.length_singleton] at hlen
    omega
  · rw [← fedBits_quiet x b true ht]
    exact tapBit_input hfed c b (by dsimp only; omega) hodd

theorem feedBits_second (hn : n < 48) (hodd : (hbOf x 1).odd = true) (hf : (hbOf x 1).fade = none) (hp : s.on (hbPend n 1) = false) :
    ∃ v, Fed s n (fedBits x l false) v ∧ feedBits n c l u = fastTap v n (tapCode s n (hbOf (fedBits x l false) 1).line) c := by
  obtain ⟨t, b, rfl, ht, hlast⟩ := exists_word hw hc
  rw [List.length_append, List.length_singleton] at hw
  obtain ⟨v, hv, hfed⟩ := feedBits_quiet h c hl t [b] ht (by rw [List.length_append, List.length_singleton]; omega)
  have hcnt := (cicBits_quiet ht).2
  obtain ⟨w, hfed', hval⟩ := tapBit_value hfed c b hn (by dsimp only; omega) hodd hf hp
  rw [fedBits_quiet x b false ht] at hfed' hval
  exact ⟨w, hfed', by rw [hv, hfed.feedBits hl c b (by decide), hval]; rfl⟩

end Words

theorem fedBits_odd (x : Chain) (l : List Bool) (odd : Bool) : (hbOf (fedBits x l odd) 1).odd = odd := by rw [fedBits_hb]
theorem fedBits_fade (x : Chain) (l : List Bool) (odd : Bool) : (hbOf (fedBits x l odd) 1).fade = (hbOf x 1).fade := by rw [fedBits_hb]

/-- After the last bit of a word the CIC's count is 0. -/
theorem cicBits_word {c : Cic} {l : List Bool} (hc : c.cnt < 32) (hw : c.cnt + l.length = 32) : (Spec.cicBits c l).1.cnt = 0 := by
  obtain ⟨t, b, rfl, ht, hlast⟩ := exists_word hw hc
  obtain ⟨hout, hcnt⟩ := cicBits_quiet ht
  obtain ⟨y, -, -, h0⟩ := cicBit_output (c := (Spec.cicBits c t).1) b (by omega)
  rw [cicBits_append]
  exact h0

/-- The bits that complete a value bring the chain to one. -/
theorem feedBits_value {s : State} {n : Nat} (hn : n < 48) (hl : LongRunning s n) (c : Int) {l : List Bool}
    (hlen : l.length = tapBits (chainOf s n)) (hc : (chainOf s n).cic.cnt < 32) (hf : (hbOf (chainOf s n) 1).fade = none)
    (hp : s.on (hbPend n 1) = false) : ∃ v, Fed s n (fedBits (chainOf s n) l false) v ∧
      feedBits n c l s = fastTap v n (tapCode s n (hbOf (fedBits (chainOf s n) l false) 1).line) c := by
  cases hodd : (hbOf (chainOf s n) 1).odd with
  | true =>
    rw [tapBits, hodd, if_pos rfl] at hlen
    exact feedBits_second (.refl s n) hl c hc (by omega) hn hodd hf hp
  | false =>
    rw [tapBits, hodd, if_neg Bool.false_ne_true] at hlen
    have hcut := List.take_append_drop (32 - (chainOf s n).cic.cnt) l
    have hlen1 : (l.take (32 - (chainOf s n).cic.cnt)).length = 32 - (chainOf s n).cic.cnt := by
      rw [List.length_take]
      omega
    have hlen2 : (l.drop (32 - (chainOf s n).cic.cnt)).length = 32 := by
      rw [List.length_drop]
      omega
    generalize l.take (32 - (chainOf s n).cic.cnt) = p at hcut hlen1
    generalize l.drop (32 - (chainOf s n).cic.cnt) = q at hcut hlen2
    subst hcut
    obtain ⟨v, hv, hfed⟩ := feedBits_first (l := p) (.refl s n) hl c hc (by omega) q (by rw [List.length_append]; omega) hodd
    have h0 := cicBits_word hc (show _ + p.length = 32 by omega)
    rw [hv, ← fedBits_append (chainOf s n) p q true false]
    exact feedBits_second hfed hl c (by rw [fedBits_cic]; omega) (by rw [fedBits_cic]; omega) hn (fedBits_odd ..)
      ((fedBits_fade ..).trans hf) hp

end Sys2Proof.Machine
end

section
/-! PROOFS. A fast-tap value beyond HB1 (R67, R86, R91), and the command FAST_TAP_VALUE. -/
namespace Sys2Proof.Machine

/-! ### HB2 to HB5 -/

/-- The fields that a value may write on its way through the stages. -/
def tapFlds (n : Nat) : List Fld := bstatFlds n ++ satFlds n

/-- They lie in BSTAT and STAT of the chain; WFB lies in STAT of the input. -/
theorem valueFlds_within {n : Nat} (hn : n < 48) : (R.AFE_CHn_STAT_WFB n :: tapFlds n).Forall fun g =>
    Within g [(0x70100C + 0x40 * n, 0x701014 + 0x40 * n), (0x601004 + 0x20 * n, 0x601008 + 0x20 * n)] := by
  rw [List.forall_iff_forall_mem, List.forall_mem_cons]
  refine ⟨within_tail (within_head (by omega)), fun f hf => ?_⟩
  rcases List.mem_append.mp hf with hf | hf
  · obtain ⟨ha, hlo⟩ := bstatFlds_place hf
    exact ⟨by omega, by omega, _, List.mem_cons_self, by dsimp only; omega⟩
  · simp only [satFlds, List.mem_cons, List.not_mem_nil, or_false] at hf
    rcases hf with rfl | rfl
    · exact within_head (by omega)
    · exact within_head (by omega)

/-- The stages before `st`. -/
def Before (st : Nat) : Nat → Prop := fun j => j < st

section Stages
variable (n : Nat) (s : State)

theorem countSat_step (P : Nat → Prop) (b : Bool) : DchStep n (tapFlds n) P s (countSat s n b) := by
  unfold countSat
  split
  · exact ((DchStep.refl s).wr (by simp [tapFlds, satFlds]) _).wrb (by simp [tapFlds, satFlds]) _
  · exact .refl s

theorem stageIn_step (st : Nat) (x : Int) : DchStep n (tapFlds n) (OtherThan st) s (stageIn s n st x).1 := by
  have hsub : stageFlds n st ⊆ tapFlds n := fun f hf => List.mem_append_left _ (stageFlds_subset n st hf)
  have hturn : DchStep n (tapFlds n) (OtherThan st) s
      (if (hbOf (chainOf s n) st).odd then startHb (finishHb s n st) n st else s) := by
    split
    · exact ((finishHb_step n st s).trans (startHb_step n st _)).mono hsub fun _ h => h
    · exact .refl s
  exact hturn.setStage (not_otherThan st) _

theorem runCounters_step (fuel st : Nat) : DchStep n (tapFlds n) (Before st) s (setChain s n (runCounters fuel st (chainOf s n))) where
  rest := rfl
  flds := keptBut_of_regs (setChain_regs ..) _
  cic := by rw [chainOf_setChain, runCounters_cic]
  stages j hj := by rw [chainOf_setChain, runCounters_hb _ _ hj]

theorem pushLocal_step (P : Nat → Prop) (m : Nat) (x : Int) : DchStep n (tapFlds n) P s (pushLocal s n m x) := (DchStep.refl s).modRs m _

/-- A value that goes on through the stages from `st` leaves the CIC and the stages before as they are. -/
theorem restOfChain_step (fuel st : Nat) (x : Int) : DchStep n (tapFlds n) (Before st) s (restOfChain fuel s n st x) := by
  induction fuel generalizing s st x with
  | zero => exact .refl s
  | succ fuel ih =>
    rw [restOfChain]
    split
    · extract_lets s1
      have hs1 : DchStep n (tapFlds n) (Before st) s s1 := runCounters_step n s _ st
      split
      · split
        · exact hs1.trans (pushLocal_step n s1 _ _ x)
        · exact hs1
      · exact hs1
    · extract_lets r
      have hr : DchStep n (tapFlds n) (Before st) s r.1 :=
        (stageIn_step n s st x).mono (List.Subset.refl _) fun j hj => Nat.ne_of_lt hj
      split
      · exact (hr.trans (countSat_step n _ _ _)).trans ((ih _ _ _).mono (List.Subset.refl _) fun j hj => Nat.lt_succ_of_lt hj)
      · exact hr

end Stages

/-! ### The value enters -/

section Value
variable (s : State) (n : Nat)

theorem openWindow_acc : (mget (openWindow s n).afe.acc n {}).cnt = (mget s.afe.acc n {}).cnt ∧
    (mget (openWindow s n).afe.acc n {}).sum = (mget s.afe.acc n {}).sum := by
  unfold openWindow
  split
  · simp only [wrb_afe, setAfe, mmod, mget_mput_self, and_self]
  · exact ⟨rfl, rfl⟩

theorem openWindow_ck : (openWindow s n).afe.ck = s.afe.ck := by
  unfold openWindow
  split <;> rfl

theorem openWindow_dch : (openWindow s n).dch = s.dch := by
  unfold openWindow
  split <;> rfl

theorem openWindow_kept : KeptBut s (openWindow s n) [R.AFE_CHn_STAT_WFB n] := by
  unfold openWindow
  split
  · exact (keptBut_of_regs (setAfe_regs ..) _).wrb List.mem_cons_self _
  · exact keptBut_refl s _

/-- The value `x` with flags `fl` has entered the accumulator of input `n` and is kept as its latest one. -/
def valueKept (x : Int) (fl : Nat) : State :=
  let s1 := setAfe (openWindow s n) { (openWindow s n).afe with
    acc := mmod (openWindow s n).afe.acc n {} fun a => accumulate a x (fl.testBit 7) (fl.testBit 6) (fl.testBit 5) }
  setDch s1 { s1.dch with tap := mput s1.dch.tap n (x, fl) }

variable (x : Int) (fl : Nat)

theorem valueKept_acc : (mget (valueKept s n x fl).afe.acc n {}).cnt = (mget s.afe.acc n {}).cnt + 1 ∧
    (mget (valueKept s n x fl).afe.acc n {}).sum = (mget s.afe.acc n {}).sum + x := by
  obtain ⟨hcnt, hsum⟩ := openWindow_acc s n
  simp only [valueKept, setDch, setAfe, mmod, mget_mput_self, accumulate, hcnt, hsum, and_self]

theorem valueKept_tap : (mget (valueKept s n x fl).dch.tap n (0, 0)).1 = x := by
  rw [valueKept, setDch, mget_mput_self]

theorem valueKept_chain : chainOf (valueKept s n x fl) n = chainOf s n := by
  show mget (openWindow s n).dch.chain n _ = _
  rw [openWindow_dch]
  rfl

theorem valueKept_mem : (valueKept s n x fl).mem = s.mem := by simp [valueKept]

theorem valueKept_kept : KeptBut s (valueKept s n x fl) [R.AFE_CHn_STAT_WFB n] := (openWindow_kept s n).of_regs rfl

theorem fastTap_eq (c : Int) (hck : (mget s.afe.ck (n / 12) {}).phase = 0) :
    fastTap s n x c = restOfChain 6 (valueKept s n x (tapFlags s n)) n 2 x := by
  have hphase : (ckOf (valueKept s n x (tapFlags s n)) (n / 12)).phase ≠ 2 := by
    show (mget (openWindow s n).afe.ck (n / 12) {}).phase ≠ 2
    rw [openWindow_ck, hck]
    decide
  have hpair : dwellPair (valueKept s n x (tapFlags s n)) n x c = valueKept s n x (tapFlags s n) := if_pos (.inl hphase)
  rw [fastTap]
  exact congrArg (fun a => restOfChain 6 a n 2 x) hpair

end Value

/-! ### The command (R86, R87) -/

section Command
variable {n : Fin 48} {bits : List Bool} (cbits : List Bool) {s : State}

theorem fastTapValue_ignored (h : s.pg 1 = false ∨ bits.length ≠ tapBits (chainOf s n)) : exec (.fastTapValue n bits cbits) s = .next s := by
  rw [exec, execFastTapValue]
  refine congrArg _ (if_pos ?_)
  rcases h with h | h
  · rw [h]
    rfl
  · rw [bne_iff_ne.mpr h, Bool.or_true]

variable (hp : s.pg 1 = true) (hlen : bits.length = tapBits (chainOf s n))
include hp hlen

theorem exec_fastTapValue_stopped (h : s.on (R.DCH_CHn_CTL_RUN n) = false) :
    exec (.fastTapValue n bits cbits) s = .next (setChain s n (countBit^[tapBits (chainOf s n)] (chainOf s n))) := by
  have hpass : (!s.pg 1 || bits.length != tapBits (chainOf s n)) = false := by simp [hp, hlen]
  rw [exec, execFastTapValue]
  simp only [hpass, h, Bool.false_eq_true, if_false, Bool.not_false, if_true, List.foldl_const]
  rw [hlen]

theorem exec_fastTapValue_running (h : s.on (R.DCH_CHn_CTL_RUN n) = true) (hck : (mget s.afe.ck (n.val / 12) {}).phase = 0) :
    ∃ c, exec (.fastTapValue n bits cbits) s = .next (feedBits n c (modBits s n bits) s) := by
  have hpass : (!s.pg 1 || bits.length != tapBits (chainOf s n)) = false := by simp [hp, hlen]
  have hon : ((ckOf s (n.val / 12)).phase != 0 && (ckOf s (n.val / 12)).pos == n.val % 12) = false := by simp [ckOf, hck]
  rw [exec, execFastTapValue]
  simp only [hpass, h, hon, Bool.false_eq_true, if_false, Bool.not_true]
  exact ⟨_, rfl⟩

theorem exec_fastTapValue_waiting {w : Nat} (hc : (chainOf s n).cic.cnt < 32) (h : s.on (R.DCH_CHn_CTL_RUN n) = true)
    (hw : (chainOf s n).srstAt = some w) (hlt : tb2U s < w + tmNs (s.on R.AFE_STAT_LPM_ACT) * 2 ^ 32)
    (hck : (mget s.afe.ck (n.val / 12) {}).phase = 0) :
    exec (.fastTapValue n bits cbits) s = .next (setChain s n (countBit^[tapBits (chainOf s n)] (chainOf s n))) := by
  obtain ⟨c, hx⟩ := exec_fastTapValue_running cbits hp hlen h hck
  have hl := (modBits_length s n bits).trans hlen
  have hne : modBits s n bits ≠ [] := fun he => by
    rw [he, List.length_nil, tapBits] at hl
    split at hl <;> omega
  rw [hx, feedBits_waiting hw hlt c hne, hl]

/-- The bits of a stopped chain, and those up to the edge at which it restarts, move its counters alone. -/
theorem fastTapValue_counts (hc : (chainOf s n).cic.cnt < 32) (h : s.on (R.DCH_CHn_CTL_RUN n) = false ∨
      ((∃ w, (chainOf s n).srstAt = some w ∧ tb2U s < w + tmNs (s.on R.AFE_STAT_LPM_ACT) * 2 ^ 32) ∧
        (mget s.afe.ck (n.val / 12) {}).phase = 0)) : Runs (.fastTapValue n bits cbits) s fun t =>
      (chainOf t n).cic = { (chainOf s n).cic with cnt := 0 } ∧ hbOf (chainOf t n) 1 = { hbOf (chainOf s n) 1 with odd := false } ∧
      t.dch.tap = s.dch.tap ∧ t.afe = s.afe ∧ t.regs = s.regs ∧ SameBytes s t := by
  have hx : exec (.fastTapValue n bits cbits) s = .next (setChain s n (countBit^[tapBits (chainOf s n)] (chainOf s n))) := by
    cases hr : s.on (R.DCH_CHn_CTL_RUN n) with
    | false => exact exec_fastTapValue_stopped cbits hp hlen hr
    | true =>
      obtain ⟨⟨w, hw, hlt⟩, hck⟩ := h.resolve_left (by simp [hr])
      exact exec_fastTapValue_waiting cbits hp hlen hc hr hw hlt hck
  obtain ⟨hcic, hhb⟩ := countBits_value hc
  refine ⟨_, hx, ?_, ?_, rfl, rfl, rfl, fun _ => rfl⟩
  · rw [chainOf_setChain, hcic]
  · rw [chainOf_setChain, hhb]

/-- The bits of a chain that has run undisturbed give its next value. -/
theorem fastTapValue_value (hc : (chainOf s n).cic.cnt < 32) (h : s.on (R.DCH_CHn_CTL_RUN n) = true)
    (hen : s.on (R.AFE_CHn_CFG_EN n) = true) (hat : mget s.afe.enAt n.val 0 + 64 * tmNs (s.on R.AFE_STAT_LPM_ACT) * 2 ^ 32 < tb2U s)
    (hrst : mget s.afe.rst n.val [] = []) (hl : LongRunning s n) (hck : (mget s.afe.ck (n.val / 12) {}).phase = 0)
    (hf : (hbOf (chainOf s n) 1).fade = none) (hpend : s.on (hbPend n 1) = false) : Runs (.fastTapValue n bits cbits) s fun t =>
      (chainOf t n).cic = (fedBits (chainOf s n) bits false).cic ∧
      hbOf (chainOf t n) 1 = hbOf (fedBits (chainOf s n) bits false) 1 ∧
      (mget t.dch.tap n (0, 0)).1 = tapCode s n (hbOf (fedBits (chainOf s n) bits false) 1).line ∧
      (mget t.afe.acc n {}).cnt = (mget s.afe.acc n {}).cnt + 1 ∧
      (mget t.afe.acc n {}).sum = (mget s.afe.acc n {}).sum + (mget t.dch.tap n (0, 0)).1 ∧ SameBytes s t ∧
      RegsKept s t [(0x70100C + 0x40 * n.val, 0x701014 + 0x40 * n.val), (0x601004 + 0x20 * n.val, 0x601008 + 0x20 * n.val)] := by
  have hle : tapBits (chainOf s n) ≤ 64 := by
    rw [tapBits]
    split <;> omega
  obtain ⟨c, hx⟩ := exec_fastTapValue_running cbits hp hlen h hck
  rw [modBits_undisturbed hen hat hrst (hlen.trans_le hle)] at hx
  obtain ⟨v, hfed, hval⟩ := feedBits_value n.isLt hl c hlen hc hf hpend
  generalize tapCode s n (hbOf (fedBits (chainOf s n) bits false) 1).line = x at hval
  have hafe : v.afe = s.afe := by rw [hfed.rest]
  have hmem : v.mem = s.mem := by rw [hfed.rest]
  rw [hval, fastTap_eq v n x c (by rw [hafe, hck])] at hx
  have hrest := restOfChain_step n (valueKept v n x (tapFlags v n)) 6 2 x
  obtain ⟨hcnt, hsum⟩ := valueKept_acc v n x (tapFlags v n)
  rw [hafe] at hcnt hsum
  have htap := (congrArg (fun l => (mget l n.val (0, 0)).1) hrest.tap).trans (valueKept_tap v n x (tapFlags v n))
  have hchain := (valueKept_chain v n x (tapFlags v n)).trans hfed.chain
  refine ⟨_, hx, ?_, ?_, htap, ?_, ?_, sameBytes_of_mem (hrest.mem.trans ((valueKept_mem ..).trans hmem)), ?_⟩
  · rw [hrest.cic, hchain]
  · rw [hrest.stages 1 (show 1 < 2 by decide), hchain]
  · rw [hrest.acc, hcnt]
  · rw [htap, hrest.acc, hsum]
  · refine KeptBut.regsKept ?_ (valueFlds_within n.isLt)
    have hbits : KeptBut s v (R.AFE_CHn_STAT_WFB n :: tapFlds n) :=
      hfed.flds.mono fun f hf => List.mem_cons_of_mem _ (List.mem_append_right _ hf)
    exact (hbits.trans ((valueKept_kept v n _ _).mono fun f hf => List.mem_cons.mpr (.inl (List.mem_singleton.mp hf)))).trans
      (hrest.flds.mono (List.subset_cons_self _ _))

end Command

end Sys2Proof.Machine
end

section
/-! PROOFS. Chains and banks put together (R86 to R113, R546). -/
namespace Sys2Proof.Machine

/-- Settles O50, command by command. -/
theorem chainsAndBanks : Obligations.ChainsAndBanks := by
  refine ⟨fun n bits cbits s => ⟨fastTapValue_ignored cbits, fun hp hlen hc h => fastTapValue_counts cbits hp hlen hc h,
      fun hp hlen hc hr hen hat hrst hl hck hf hpend => ?value⟩,
    dchLoadOpen_opens, fun v s => ⟨dchLoadData_stages v, dchLoadData_ignored v⟩,
    fun s => ⟨dchLoadCommit_closed, fun h _ => dchLoadCommit_second h, fun h hb => ?commit, dchLoadCommitDone_idle, fun h hr => ?done⟩,
    fun n st b s => ?hb, fun m b s => ⟨fun h => congrArg _ (requestRs_refused h), fun h hr => congrArg _ (requestRs_now h hr),
      fun h hr hnow => bankRequest_rs_pends h hr hnow,
      fun h hr hnow hf hp => ⟨bankRequest_rs_fades h hr hnow hf hp, bankRequest_rs_active h hr hnow hf hp⟩,
      fun f hf => fadeStart_rs hf, fun f hf => fadeEnd_rs hf⟩,
    fun n s => ⟨chainSrst_restarts, chainSrst_ignored, chainRunClear_stops, chainRunSet_alone, fun m => chainRunSet_feeding,
      chainRunSet_running, chainRunSet_refused, fun v => ⟨nhbWrite_ignored, nhbWrite_stopped, nhbWrite_same, nhbWrite_taken, nhbWrite_refused⟩,
      nhbChangeEffect_none, fun h => nhbChangeEffect_some⟩⟩
  case value =>
    obtain ⟨t, hx, hcic, hhb, htap, hcnt, hsum, hmem, hregs⟩ := fastTapValue_value cbits hp hlen hc hr hen hat hrst hl hck hf hpend
    rw [fedBits_hb] at hhb htap
    exact ⟨t, hx, hcic, by rw [hhb], by rw [hhb], htap, hcnt, hsum, hmem, hregs⟩
  case commit =>
    obtain ⟨t, hx, hop, hbusy, hcom, hres, hmem, hregs⟩ := dchLoadCommit_begins h hb
    exact ⟨t, hx, hop, hbusy, hcom, fun hl => hres.trans (loadResult_locked hl), fun hl hk hsel => hres.trans (loadResult_select hl hk hsel),
      fun hl hk h1 h2 h3 h4 h5 => hres.trans (loadResult_hb hl hk (by omega)), hmem, hregs⟩
  case done =>
    refine ⟨commitEnds s, rfl, commitEnds_busy s, commitEnds_result h hr, sameBytes_of_mem (commitEnds_mem s), fun hne => ?_,
      fun h1 hk hst1 hst5 => ?_, fun h1 hk => ?_⟩
    · rw [commitEnds_refused h hne]
      exact ⟨rfl, resultShown_kept s⟩
    · have hw := bankFlds_within s.dch.com.1
      rw [if_pos (show selKind s.dch.com.1 = 0 from hk)] at hw
      refine ⟨?_, ?_, commitEnds_kept h h1 hw⟩ <;> rw [commitEnds_accepted h h1]
      · exact hbBankOf_storeBank _ _ hk
      · exact hbLoaded_storeBank _ _ hk hst5
    · have hw := bankFlds_within s.dch.com.1
      rw [if_neg (show selKind s.dch.com.1 ≠ 0 from fun h0 => by
        rw [show selKind s.dch.com.1 = 1 from hk] at h0; exact absurd h0 (by decide))] at hw
      refine ⟨?_, ?_, commitEnds_kept h h1 hw⟩ <;> rw [commitEnds_accepted h h1]
      · exact rsBankOf_storeBank _ _ hk
      · exact rsLoaded_storeBank _ _ hk
  case hb =>
    exact ⟨fun h => congrArg _ (requestHb_refused h), fun h hr => congrArg _ (requestHb_now h hr),
      fun h hr hnow => bankRequest_hb_pends h hr hnow, fun h hr hnow hf hp => bankRequest_hb_fades h hr hnow hf hp,
      fun h hr hnow hf hp => bankRequest_hb_active h hr hnow hf hp, fun f hf => fadeStart_hb hf, fun f hf => fadeEnd_hb hf⟩

end Sys2Proof.Machine
end

section
/-! PROOFS. Layer of Espalier's planes and instants: a sample in its slot, and an instant that a channel has written (R158, R161, R165). -/
namespace Sys2Proof.Machine

/-! ### A word and a byte in their places -/

theorem leNat_leBytes (n v : Nat) : leNat (leBytes n v) = v % 256 ^ n := by
  induction n generalizing v with
  | zero => exact (Nat.mod_one v).symm
  | succ n ih => 
    rw [leBytes, leNat, ih, BitVec.toNat_ofNat]
    exact Nat.mod_mul.symm.trans (congrArg (v % ·) Nat.pow_succ'.symm)

theorem rdW_of_memRds {s : State} {a : Nat} {v : Word} (h : memRds s.mem a 4 = leBytes 4 v.toNat) : s.rdW a = v := by
  rw [State.rdW, State.rdMem, h, leNat_leBytes, show 256 ^ 4 = 2 ^ 32 from rfl, Nat.mod_eq_of_lt v.isLt, BitVec.ofNat_toNat, BitVec.setWidth_eq]

section Planes
variable (s : State) (a : Nat) (l : List Byte)

theorem espPut_whole {x : Nat} (h : a ≤ x ∧ x < a + l.length) : (espPut s a l).parBad.contains x = false := by
  rw [espPut, List.contains_eq_mem, decide_eq_false_iff_not]
  intro hx
  have hout := (List.mem_filter.mp hx).2
  rw [decide_eq_true h.1, decide_eq_true h.2] at hout
  exact absurd hout (by decide)

theorem espPut_keeps_whole {x : Nat} (h : s.parBad.contains x = false) : (espPut s a l).parBad.contains x = false := by
  rw [List.contains_eq_mem, decide_eq_false_iff_not] at h ⊢
  exact fun hx => h (List.mem_filter.mp hx).1

end Planes

/-- The value planes of 192 channels end below the flag planes. -/
theorem valAddr_lt_flagAddr {m slot m' slot' : Nat} (hm : m < 192) (hs : slot < 512) : valAddr m slot + 4 ≤ flagAddr m' slot' := by
  unfold valAddr flagAddr espValBase espFlagBase
  omega

section Store
variable (s : State) {m slot : Nat} (v : Word) (fl : Nat)

theorem espStore_whole : (espStore s m slot v fl).parBad.contains (valAddr m slot) = false ∧
    (espStore s m slot v fl).parBad.contains (flagAddr m slot) = false :=
  ⟨espPut_keeps_whole _ _ _ (espPut_whole _ _ _ (by rw [leBytes_length]; omega)), espPut_whole _ _ _ (by rw [List.length_singleton]; omega)⟩

theorem espStore_outside {a : Nat} (h : ¬ (valAddr m slot ≤ a ∧ a < valAddr m slot + 4)) (hf : a ≠ flagAddr m slot) :
    memRd (espStore s m slot v fl).mem a = memRd s.mem a :=
  (memRd_memWrs_out _ _ _ _ (by rw [List.length_singleton]; omega)).trans
    (memRd_memWrs_out _ _ _ _ (by rw [leBytes_length]; omega))

theorem espStore_flag : memRd (espStore s m slot v fl).mem (flagAddr m slot) = BitVec.ofNat 8 fl :=
  memRd_memWrs_in [BitVec.ofNat 8 fl] _ _ 0 Nat.one_pos

theorem espStore_value (hm : m < 192) (hs : slot < 512) : (espStore s m slot v fl).rdW (valAddr m slot) = v := by
  have hbelow := valAddr_lt_flagAddr (m' := m) (slot' := slot) hm hs
  refine rdW_of_memRds ((memRds_congr fun k hk => memRd_memWrs_out _ _ _ _ (Or.inl (by omega))).trans ?_)
  exact leBytes_length 4 v.toNat ▸ memRds_memWrs s.mem (valAddr m slot) (leBytes 4 v.toNat)

/-- A slot that has just been written is read without a parity error. -/
theorem espRead_espStore : (espRead (espStore s m slot v fl) m slot).2 = espStore s m slot v fl := by
  obtain ⟨hv, hf⟩ := espStore_whole s (m := m) (slot := slot) v fl
  simp only [espRead, hv, hf, Bool.false_eq_true, if_false]

end Store

/-! ### Instants -/

@[simp] theorem espFtg_modFtg (s : State) (g : Nat) (k : Ftg → Ftg) : espFtg (modFtg s g k) g = k (espFtg s g) := mget_mput_self ..

theorem setInst_mem {f : Ftg} {i j : Inst} (hi : i ∈ f.insts) (h : i.tick = j.tick ∧ i.t = j.t) : j ∈ (setInst f j).insts :=
  List.mem_map.mpr ⟨i, hi, if_pos h⟩

theorem instFor_some {f : Ftg} {m tick : Nat} {i : Inst} (h : instFor f m tick = some i) :
    i ∈ f.insts ∧ i.tick = tick ∧ i.written.contains m = false := by
  have hp := List.find?_some h
  rw [Bool.and_eq_true, beq_iff_eq, Bool.not_eq_true'] at hp
  exact ⟨List.mem_reverse.mp (List.mem_of_find?_eq_some h), hp⟩

section Write
variable (s : State) (g m : Nat) (i : Inst)

/-- Channel `m` counts as having written the instant. -/
def instWritten : State := modFtg s g fun f => setInst f { i with written := m :: i.written }

theorem instWritten_shows (hi : i ∈ (espFtg s g).insts) :
    ∃ x ∈ (espFtg (instWritten s g m i) g).insts, x.tick = i.tick ∧ x.t = i.t ∧ m ∈ x.written := by
  rw [instWritten, espFtg_modFtg]
  exact ⟨_, setInst_mem hi ⟨rfl, rfl⟩, rfl, rfl, List.mem_cons_self⟩

variable {m i} (hw : i.written.contains m = false) (v : Word) (fl : Nat)
include hw

/-- While the tick is open the sample is stored and the phasor unit takes it. -/
theorem espWrite_eq_store (hd : i.done = false) :
    ∃ p, espWrite s g m i v fl = { espStore (instWritten s g m i) m (i.tick % 512) v (fl ||| limitQ i) with ph := p } := by
  refine ⟨(phStored (espStore (instWritten s g m i) m (i.tick % 512) v (fl ||| limitQ i)) m i).ph, ?_⟩
  have hst : espWrite s g m i v fl = phStored (espStore (instWritten s g m i) m (i.tick % 512) v (fl ||| limitQ i)) m i :=
    (if_neg (ne_true_of_eq_false hw)).trans (if_neg (ne_true_of_eq_false hd))
  rw [hst, phStored, espRead_espStore]

theorem espWrite_open (hd : i.done = false) (hm : m < 192) (hi : i ∈ (espFtg s g).insts) :
    let slot := i.tick % 512
    (∀ a, memRd (espWrite s g m i v fl).mem a ≠ memRd s.mem a → (valAddr m slot ≤ a ∧ a < valAddr m slot + 4) ∨ a = flagAddr m slot) ∧
    (espWrite s g m i v fl).rdW (valAddr m slot) = v ∧ memRd (espWrite s g m i v fl).mem (flagAddr m slot) = BitVec.ofNat 8 (fl ||| limitQ i) ∧
    (espWrite s g m i v fl).regs = s.regs ∧
    ∃ x ∈ (espFtg (espWrite s g m i v fl) g).insts, x.tick = i.tick ∧ x.t = i.t ∧ m ∈ x.written := by
  intro slot
  obtain ⟨p, hst⟩ := espWrite_eq_store s g hw v fl hd
  have hval := espStore_value (instWritten s g m i) v (fl ||| limitQ i) hm (Nat.mod_lt i.tick (y := 512) (by decide))
  have hflag := espStore_flag (instWritten s g m i) (m := m) (slot := slot) v (fl ||| limitQ i)
  have hkept {a : Nat} := espStore_outside (instWritten s g m i) (m := m) (slot := slot) v (fl ||| limitQ i) (a := a)
  have hesp : (espStore (instWritten s g m i) m slot v (fl ||| limitQ i)).esp = (instWritten s g m i).esp := rfl
  have hregs : (espStore (instWritten s g m i) m slot v (fl ||| limitQ i)).regs = s.regs := rfl
  have hinst := instWritten_shows s g m i hi
  rw [espFtg, ← hesp] at hinst
  rw [hst]
  generalize espStore (instWritten s g m i) m slot v (fl ||| limitQ i) = u at *
  refine ⟨fun a hne => ?_, hval, hflag, hregs, hinst⟩
  by_contra hout
  rw [not_or] at hout
  exact hne (hkept hout.1 hout.2)

theorem espWrite_late (hd : i.done = true) : espWrite s g m i v fl = (instWritten s g m i).sat1 (R.ESP_FTGg_CNT_LATEWR g) :=
  (if_neg (ne_true_of_eq_false hw)).trans (if_pos hd)

end Write

/-- LIMIT sets Q alone. -/
theorem testBit_seven_limitQ (fl : Nat) (i : Inst) : (fl ||| limitQ i).testBit 7 = fl.testBit 7 := by
  rw [Nat.testBit_or, limitQ]
  split <;> simp [show Nat.testBit 16 7 = false by decide]

end Sys2Proof.Machine
end

section
/-! PROOFS. RESAMPLER_RELEASE: a local grid sample is made and written once (R95, R97, R165). -/
namespace Sys2Proof.Machine

/-- A field reads a truth value that it holds and that is then written to it or to another field. -/
theorem on_wrb_agree {s : State} {f g : Fld} {b : Bool} (hw : f.w = 1) (hr : g.rst = f.rst) (h : s.on g = b) : (s.wrb f b).on g = b := by
  by_cases hk : g.key = f.key
  · have hself := on_wrb_self s f b hw
    rwa [State.on, State.rd, ← hk, ← hr] at hself
  · exact (on_of_rd (rd_wrb_ne s b hk)).trans h

section Release
variable (s : State) (g m : Nat) (i : Inst)

theorem readyRs_step (n : Nat) (P : Nat → Prop) : DchStep n (rsFlds m) P s (readyRs s m) :=
  (finishRs_step m s n P).trans (startRs_step m _ n P)

/-- What the making of a sample writes before the sample itself: fade and UNSET of the resampler. -/
def sampleMade (fd : Option Fade) (fl : Nat) : State :=
  (modRs (readyRs s m) m fun r => { r with fade := fd }).wrb (R.DCH_RSm_STAT_UNSET m) (fl.testBit 7)

theorem sampleMade_step (n : Nat) (P : Nat → Prop) (fd : Option Fade) (fl : Nat) :
    DchStep n (R.DCH_RSm_STAT_UNSET m :: rsFlds m) P s (sampleMade s m fd fl) :=
  (((readyRs_step s m n P).mono (List.subset_cons_self ..) fun _ h => h).modRs m _).wrb List.mem_cons_self _

theorem sampleMade_unset (fd : Option Fade) (fl : Nat) : (sampleMade s m fd fl).on (R.DCH_RSm_STAT_UNSET m) = fl.testBit 7 :=
  on_wrb_self _ _ _ rfl

/-- A release writes one value, scaled, with its flags; UNSET of the source's input follows U. -/
theorem releaseLocal_eq : ∃ y fd fl, releaseLocal s g m i = (espWrite (sampleMade s m fd fl) g m i (scaled (readyRs s m) m y) fl).wrb
    (R.DCH_CHn_STAT_UNSET (srcOf (readyRs s m) m)) (fl.testBit 7) := ⟨_, _, _, rfl⟩

variable {s g m i}

theorem scaled_readyRs (hm : m < 192) (y : Word) :
    scaled (readyRs s m) m y = F32.mul y (BitVec.ofNat 32 (s.rd (R.DCH_RSm_SCALE_SCALE m))) := by
  have hkeep : (readyRs s m).rd (R.DCH_RSm_SCALE_SCALE m) = s.rd (R.DCH_RSm_SCALE_SCALE m) := (readyRs_step s m 0 NoStage).flds _ ?_
  · rw [scaled, hkeep]
  · exact ⟨key_ne (by omega), key_ne (by omega), key_ne (by omega), key_ne (by omega)⟩

variable (hm : m < 192) (hw : i.written.contains m = false)
include hm hw

/-- A sample of an open instant is stored, and the instant counts it as written. -/
theorem releaseLocal_open (hi : i ∈ (espFtg s g).insts) (hd : i.done = false) :
    let slot := i.tick % 512
    (∀ a, memRd (releaseLocal s g m i).mem a ≠ memRd s.mem a → (valAddr m slot ≤ a ∧ a < valAddr m slot + 4) ∨ a = flagAddr m slot) ∧
    (∃ y fl, (releaseLocal s g m i).rdW (valAddr m slot) = F32.mul y (BitVec.ofNat 32 (s.rd (R.DCH_RSm_SCALE_SCALE m))) ∧
      memRd (releaseLocal s g m i).mem (flagAddr m slot) = BitVec.ofNat 8 fl ∧
      (releaseLocal s g m i).on (R.DCH_RSm_STAT_UNSET m) = fl.testBit 7) ∧
    ∃ x ∈ (espFtg (releaseLocal s g m i) g).insts, x.tick = i.tick ∧ x.t = i.t ∧ m ∈ x.written := by
  intro slot
  obtain ⟨y, fd, fl, hrel⟩ := releaseLocal_eq s g m i
  have hmade := sampleMade_step s m 0 NoStage fd fl
  have hftg : espFtg (sampleMade s m fd fl) g = espFtg s g := by rw [hmade.rest]; rfl
  have hunset := sampleMade_unset s m fd fl
  have hsame := hmade.mem
  rw [hrel, scaled_readyRs hm]
  generalize sampleMade s m fd fl = u at hftg hunset hsame
  generalize hv : F32.mul y (BitVec.ofNat 32 (s.rd (R.DCH_RSm_SCALE_SCALE m))) = v
  obtain ⟨hout, hval, hflag, hregs, hinst⟩ := espWrite_open u g hw v fl hd hm (hftg ▸ hi)
  refine ⟨fun a hne => hout a (hsame ▸ hne), ⟨y, fl ||| limitQ i, ?_, hflag, ?_⟩, hinst⟩
  · exact hval.trans hv.symm
  · rw [testBit_seven_limitQ]
    exact on_wrb_agree rfl rfl ((on_of_rd (rd_of_regs hregs _)).trans hunset)

/-- After its instant has closed a sample is counted and nothing is stored. -/
theorem releaseLocal_late (hg : g < 4) (hd : i.done = true) : (releaseLocal s g m i).rd (R.ESP_FTGg_CNT_LATEWR g) =
    min (s.rd (R.ESP_FTGg_CNT_LATEWR g) + 1) (2 ^ (R.ESP_FTGg_CNT_LATEWR g).w - 1) ∧ SameBytes s (releaseLocal s g m i) := by
  obtain ⟨y, fd, fl, hrel⟩ := releaseLocal_eq s g m i
  have hmade := sampleMade_step s m 0 NoStage fd fl
  have hkeep : (sampleMade s m fd fl).rd (R.ESP_FTGg_CNT_LATEWR g) = s.rd (R.ESP_FTGg_CNT_LATEWR g) :=
    hmade.flds _ ⟨key_ne (by omega), key_ne (by omega), key_ne (by omega), key_ne (by omega), key_ne (by omega)⟩
  have hsame := hmade.mem
  rw [hrel, espWrite_late _ g hw _ fl hd]
  generalize sampleMade s m fd fl = u at hkeep hsame
  refine ⟨?_, sameBytes_of_mem hsame⟩
  exact (rd_wrb_ne _ _ (key_ne (by omega))).trans ((rd_sat1 _ _).trans (by rw [← hkeep]; rfl))

end Release

/-! ### The command -/

section Command
variable {s : State} {m : Fin 192} {tick : Nat} {i : Inst} (hr : rsRun s m = true) (hl : isLocal s m = true)
  (hu : usedGroup s (m.val / 24) = true) (hi : instFor (espFtg s (ftgOfCh s m)) m tick = some i)
include hr hl hu hi

theorem exec_resamplerRelease : exec (.resamplerRelease m tick) s = .next
    (if actU s < i.t + relDelay (readyRs s m) (srcOf s m) m * nsU ∨ i.absent.contains m.val = true then s
      else releaseLocal s (ftgOfCh s m) m i) := by
  change execResamplerRelease m tick s = _
  have hu' : usedGroup s (groupOfCh m) = true := hu
  simp only [execResamplerRelease, hr, hl, hu', hi, Bool.not_true, Bool.or_false, Bool.false_eq_true, if_false]

theorem exec_resamplerRelease_due (hd : i.t + relDelay (readyRs s m) (srcOf s m) m * nsU ≤ actU s) (ha : m.val ∉ i.absent) :
    exec (.resamplerRelease m tick) s = .next (releaseLocal s (ftgOfCh s m) m i) := by
  rw [exec_resamplerRelease hr hl hu hi, if_neg]
  rw [List.contains_eq_mem, decide_eq_true_eq, not_or]
  exact ⟨Nat.not_lt.mpr hd, ha⟩

theorem exec_resamplerRelease_not (h : actU s < i.t + relDelay (readyRs s m) (srcOf s m) m * nsU ∨ m.val ∈ i.absent) :
    exec (.resamplerRelease m tick) s = .next s := by
  rw [exec_resamplerRelease hr hl hu hi, if_pos]
  rwa [List.contains_eq_mem, decide_eq_true_eq]

end Command

end Sys2Proof.Machine
end

section
/-! PROOFS. SV_SAMPLE_ENTER: a sampled value enters the resamplers that it feeds (R98, R100, R105, R127). -/
namespace Sys2Proof.Machine

/-! ### A substitute in a history -/

/-- Resampler `m` holds the history `h`. -/
def withHist (s : State) (m : Nat) (h : List RsIn) : State := modRs s m fun r => { r with hist := h }

@[simp] theorem withHist_hist (s : State) (m : Nat) (h : List RsIn) : (rsOf (withHist s m h) m).hist = h := by
  rw [withHist, rsOf_modRs]

theorem withHist_withHist (s : State) (m : Nat) (h h' : List RsIn) : withHist (withHist s m h) m h' = withHist s m h' := by
  simp only [withHist, modRs, rsOf_setRs]
  rw [setRs, setRs, setRs, mput_mput_self]

section Bridge
variable {s : State} {m j : Nat}

theorem bridgeAt_ahead (h : ∀ y ∈ (rsOf s m).hist, y.idx ≠ j + 1) : bridgeAt m j s = s := by
  rw [bridgeAt]
  split
  next a b _ _ hb =>
    have hidx : (b.idx == j + 1) = true := List.find?_some (p := fun e : RsIn => e.idx == j + 1) hb
    exact absurd (beq_iff_eq.mp hidx) (h b (List.mem_of_find?_eq_some hb))
  next => rfl

theorem bridgeAt_held {y : RsIn} (hy : y ∈ (rsOf s m).hist) (h : y.idx = j) : bridgeAt m j s = s := by
  rw [bridgeAt]
  split
  next a b _ hnone _ => exact absurd (beq_iff_eq.mpr h) (List.find?_eq_none.mp hnone y hy)
  next => rfl

/-- The newest input and the one before it leave one place between them, and all others are older. -/
theorem bridgeAt_gap {x a : RsIn} {l : List RsIn} (hh : (rsOf s m).hist = x :: a :: l) (hx : x.idx = a.idx + 2)
    (hl : ∀ y ∈ l, y.idx < a.idx) : bridgeAt m (a.idx + 1) s =
      (withHist s m ((x :: bridge a x :: a :: l).take 40)).sat1 (R.DCH_RSm_CNT_BRIDGED m) := by
  have hold : (x :: a :: l).find? (fun e => e.idx + 1 == a.idx + 1) = some a := by
    rw [List.find?_cons_of_neg (by simp; omega), List.find?_cons_of_pos (by simp)]
  have hmid : (x :: a :: l).find? (fun e => e.idx == a.idx + 1) = none := by
    rw [List.find?_eq_none]
    intro y hy
    rw [beq_iff_eq]
    rcases List.mem_cons.mp hy with rfl | hy
    · omega
    · rcases List.mem_cons.mp hy with rfl | hy
      · omega
      · have := hl y hy
        omega
  have hnew : (x :: a :: l).find? (fun e => e.idx == a.idx + 1 + 1) = some x := List.find?_cons_of_pos (by simp [hx])
  have hb : (bridge a x).idx = a.idx + 1 := rfl
  have hins : insertIn (bridge a x) (x :: a :: l) = x :: bridge a x :: a :: l := by
    rw [insertIn, if_neg (by omega), if_neg (by omega), insertIn, if_pos (by omega)]
  rw [bridgeAt, hh, hold, hmid, hnew, ← hins, ← hh]
  rfl

end Bridge

/-! ### An input enters -/

/-- The input that a sample gives resampler `m`. -/
def svInput (e : SvIn) (s : State) (m : Nat) : RsIn :=
  let q := e.vals.getD (s.rd (R.SVI_MAPm_QTY m)) (0, 0)
  { idx := e.idx, t := e.t * nsU, v := F32.ofInt q.1, i := q.1, fl := q.2 }

/-- The history of resampler `m` has taken an input. -/
def inputTaken (x : RsIn) (m : Nat) (s : State) : State :=
  match (rsOf s m).hist.head? with
  | none => modRs s m fun r => { r with hist := [x], cut := x.idx }
  | some _ =>
    if x.idx < (rsOf s m).cut then s
    else bridgeAt m (x.idx + 1) (bridgeAt m (x.idx - 1) (modRs s m fun r => { r with hist := (insertIn x r.hist).take 40 }))

theorem inputTaken_first {s : State} {m : Nat} (x : RsIn) (h : (rsOf s m).hist = []) :
    inputTaken x m s = modRs s m fun r => { r with hist := [x], cut := x.idx } := by
  rw [inputTaken, h]
  rfl

section Later
variable {s : State} {m : Nat} {x a : RsIn} {l : List RsIn} (hh : (rsOf s m).hist = a :: l) (hl : ∀ y ∈ l, y.idx < a.idx)
  (hc : (rsOf s m).cut ≤ x.idx)
include hh hc

/-- An input newer than all others comes to the head. -/
theorem inputTaken_newest (hx : a.idx < x.idx) :
    inputTaken x m s = bridgeAt m (x.idx + 1) (bridgeAt m (x.idx - 1) (withHist s m ((x :: a :: l).take 40))) := by
  have hins : insertIn x (a :: l) = x :: a :: l := by rw [insertIn, if_pos hx]
  rw [inputTaken, hh]
  dsimp only [List.head?_cons]
  rw [if_neg (Nat.not_lt.mpr hc), modRs, hh, hins]
  rfl

include hl

theorem inputTaken_next (hx : x.idx = a.idx + 1) : inputTaken x m s = withHist s m ((x :: a :: l).take 40) := by
  have hheld : bridgeAt m (x.idx - 1) (withHist s m ((x :: a :: l).take 40)) = withHist s m ((x :: a :: l).take 40) :=
    bridgeAt_held (y := a) (by rw [withHist_hist]; simp) (by omega)
  rw [inputTaken_newest hh hc (by omega), hheld]
  refine bridgeAt_ahead fun y hy => ?_
  rw [withHist_hist] at hy
  rcases List.mem_cons.mp (List.mem_of_mem_take hy) with rfl | hy
  · omega
  · rcases List.mem_cons.mp hy with rfl | hy
    · omega
    · have := hl y hy
      omega

theorem inputTaken_gap (hx : x.idx = a.idx + 2) :
    inputTaken x m s = (withHist s m ((x :: bridge a x :: a :: l).take 40)).sat1 (R.DCH_RSm_CNT_BRIDGED m) := by
  have hgap : bridgeAt m (x.idx - 1) (withHist s m ((x :: a :: l).take 40)) =
      (withHist s m ((x :: bridge a x :: a :: l).take 40)).sat1 (R.DCH_RSm_CNT_BRIDGED m) := by
    rw [show x.idx - 1 = a.idx + 1 by omega, bridgeAt_gap (l := l.take 38) (by rw [withHist_hist]; rfl) hx
      fun y hy => hl y (List.mem_of_mem_take hy), withHist_withHist]
    simp [List.take_take]
  rw [inputTaken_newest hh hc (by omega), hgap]
  refine bridgeAt_ahead fun y hy => ?_
  have hb : (bridge a x).idx = a.idx + 1 := rfl
  rw [State.sat1, State.satAdd, rsOf_wr, withHist_hist] at hy
  rcases List.mem_cons.mp (List.mem_of_mem_take hy) with rfl | hy
  · omega
  · rcases List.mem_cons.mp hy with rfl | hy
    · omega
    · rcases List.mem_cons.mp hy with rfl | hy
      · omega
      · have := hl y hy
        omega

end Later

/-! ### The ticks after it -/

section Entered
variable (e : SvIn) (s : State) (m : Nat)

/-- Resampler `m`, restarted where the sample says so, has taken it. -/
def svEntered : State := inputTaken (svInput e s m) m (if e.restart then restartSv s m else s)

theorem svEnterRs_eq : svEnterRs e s m = svTicks (svEntered e s m) m := rfl

theorem bridgeAt_step (j n : Nat) (P : Nat → Prop) : DchStep n [R.DCH_RSm_CNT_BRIDGED m] P s (bridgeAt m j s) := by
  rw [bridgeAt]
  split
  · exact ((DchStep.refl s).modRs m _).wr List.mem_cons_self _
  · exact .refl s

theorem inputTaken_step (x : RsIn) (n : Nat) (P : Nat → Prop) : DchStep n [R.DCH_RSm_CNT_BRIDGED m] P s (inputTaken x m s) := by
  rw [inputTaken]
  split
  · exact (DchStep.refl s).modRs m _
  · split
    · exact .refl s
    · exact (((DchStep.refl s).modRs m _).trans (bridgeAt_step _ m _ n P)).trans (bridgeAt_step _ m _ n P)

theorem svEntered_step (n : Nat) (P : Nat → Prop) : DchStep n [R.DCH_RSm_CNT_BRIDGED m] P s (svEntered e s m) := by
  rw [svEntered]
  refine DchStep.trans ?_ (inputTaken_step _ m _ n P)
  split
  · exact (DchStep.refl s).modRs m _
  · exact .refl s

theorem svTicks_none {s : State} {m : Nat} (h : (espFtg s (ftgOfCh s m)).insts = []) : svTicks s m = s := by
  rw [svTicks, h]
  exact ite_self s

/-- A resampler whose FTG has placed no instant takes the sample and no more. -/
theorem svEnterRs_none (hi : (espFtg s (ftgOfCh s m)).insts = []) : svEnterRs e s m = svEntered e s m := by
  have hstep := svEntered_step e s m 0 NoStage
  have hesp : (svEntered e s m).esp = s.esp := by rw [hstep.rest]
  have hftg : (svEntered e s m).rd R.ESP_GRP_FTG_FTG = s.rd R.ESP_GRP_FTG_FTG := hstep.flds _ (key_ne (by omega))
  rw [svEnterRs_eq]
  refine svTicks_none (s := svEntered e s m) ?_
  rwa [espFtg, hesp, ftgOfCh, ftgOf, hftg]

variable {e s m}

theorem svEntered_first (h : e.restart = true ∨ (rsOf s m).hist = []) : (rsOf (svEntered e s m) m).hist = [svInput e s m] ∧
    (rsOf (svEntered e s m) m).cut = e.idx ∧ (svEntered e s m).regs = s.regs := by
  have hs : ∃ u, (if e.restart then restartSv s m else s) = u ∧ (rsOf u m).hist = [] ∧ u.regs = s.regs := by
    refine ⟨_, rfl, ?_⟩
    split
    · exact ⟨by rw [restartSv, rsOf_modRs], rfl⟩
    next hr => exact ⟨h.resolve_left hr, rfl⟩
  obtain ⟨u, hu, hh, hregs⟩ := hs
  rw [svEntered, hu, inputTaken_first _ hh, rsOf_modRs]
  exact ⟨rfl, rfl, hregs⟩

theorem svEntered_going (hr : e.restart = false) : svEntered e s m = inputTaken (svInput e s m) m s := by
  rw [svEntered, hr]
  rfl

end Entered

/-! ### The command -/

/-- The oldest sample has left the FIFO. -/
def samplePopped (s : State) (r : List SvIn) : State := { s with svi := { s.svi with fifo := r } }

/-- Resampler `m` has seen the sample that left the FIFO. -/
def sampleSeen (e : SvIn) (r : List SvIn) (s : State) (m : Nat) : State := seeInput e (samplePopped s r) m

theorem svFed_lt {s : State} {sub m : Nat} (h : m ∈ svFed s sub) : m < 192 := List.mem_range.mp (List.mem_filter.mp h).1

section Command
variable {e : SvIn} {r : List SvIn} {s : State} (hq : s.svi.fifo = e :: r)
include hq

theorem exec_svSampleEnter : exec .svSampleEnter s =
    .next ((svChans s e.sub).foldl (svEnterRs e) ((svFed s e.sub).foldl (seeInput e) (samplePopped s r))) := by
  change execSvSampleEnter s = _
  rw [execSvSampleEnter, hq]
  rfl

theorem svSampleEnter_unfed (h : svFed s e.sub = []) : exec .svSampleEnter s = .next (samplePopped s r) := by
  rw [exec_svSampleEnter hq, svChans, h]
  rfl

theorem svSampleEnter_stopped (h : svChans s e.sub = []) :
    Runs .svSampleEnter s fun t => t.svi.fifo = r ∧ t.regs = s.regs ∧ SameBytes s t := by
  refine ⟨(svFed s e.sub).foldl (seeInput e) (samplePopped s r), (exec_svSampleEnter hq).trans (by rw [h]; rfl), ?_, ?_, sameBytes_of_mem ?_⟩
  · exact foldl_keeps (g := seeInput e) (p := fun t => t.svi.fifo) (fun _ _ => rfl) _ _
  · exact foldl_keeps (g := seeInput e) (p := State.regs) (fun _ _ => rfl) _ _
  · exact foldl_keeps (g := seeInput e) (p := State.mem) (fun _ _ => rfl) _ _

/-- One resampler takes the sample. -/
theorem svSampleEnter_one {m : Nat} (hf : svFed s e.sub = [m]) (hr : rsRun s m = true) (hi : (espFtg s (ftgOfCh s m)).insts = []) :
    exec .svSampleEnter s = .next (svEntered e (sampleSeen e r s m) m) := by
  have hrun : svChans s e.sub = [m] := by rw [svChans, hf, List.filter_cons_of_pos hr, List.filter_nil]
  rw [exec_svSampleEnter hq, hrun, hf]
  exact congrArg _ (svEnterRs_none e (sampleSeen e r s m) m hi)

end Command

section Seen
variable (e : SvIn) (r : List SvIn) (s : State) (m : Nat)

theorem sampleSeen_hist : (rsOf (sampleSeen e r s m) m).hist = (rsOf s m).hist := by
  rw [sampleSeen, seeInput, rsOf_modRs]
  rfl

theorem sampleSeen_cut : (rsOf (sampleSeen e r s m) m).cut = (rsOf s m).cut := by
  rw [sampleSeen, seeInput, rsOf_modRs]
  rfl

theorem sampleSeen_regs : (sampleSeen e r s m).regs = s.regs := rfl

theorem sampleSeen_input : svInput e (sampleSeen e r s m) m = svInput e s m := rfl

theorem sampleSeen_fifo : (svEntered e (sampleSeen e r s m) m).svi.fifo = r := by
  rw [(svEntered_step e (sampleSeen e r s m) m 0 NoStage).rest]
  rfl

theorem sampleSeen_sameBytes : SameBytes s (svEntered e (sampleSeen e r s m) m) :=
  sameBytes_of_mem (svEntered_step e (sampleSeen e r s m) m 0 NoStage).mem

variable {e r s m}

theorem sampleSeen_first (h : e.restart = true ∨ (rsOf s m).hist = []) :
    (rsOf (svEntered e (sampleSeen e r s m) m) m).hist = [svInput e s m] ∧ (rsOf (svEntered e (sampleSeen e r s m) m) m).cut = e.idx ∧
    (svEntered e (sampleSeen e r s m) m).regs = s.regs :=
  svEntered_first (h.imp_right (sampleSeen_hist e r s m).trans)

section Later
variable {a : RsIn} {l : List RsIn} (hr : e.restart = false) (hh : (rsOf s m).hist = a :: l) (hl : ∀ y ∈ l, y.idx < a.idx)
  (hc : (rsOf s m).cut ≤ e.idx)
include hr hh hl hc

theorem sampleSeen_next (hx : e.idx = a.idx + 1) :
    (rsOf (svEntered e (sampleSeen e r s m) m) m).hist = (svInput e s m :: a :: l).take 40 ∧
    (svEntered e (sampleSeen e r s m) m).regs = s.regs := by
  have ht := inputTaken_next (x := svInput e s m) ((sampleSeen_hist e r s m).trans hh) hl ((sampleSeen_cut e r s m).trans_le hc) hx
  rw [svEntered_going hr, sampleSeen_input, ht]
  exact ⟨withHist_hist .., sampleSeen_regs e r s m⟩

theorem sampleSeen_gap (hm : m < 192) (hx : e.idx = a.idx + 2) :
    (rsOf (svEntered e (sampleSeen e r s m) m) m).hist = (svInput e s m :: bridge a (svInput e s m) :: a :: l).take 40 ∧
    (svEntered e (sampleSeen e r s m) m).rd (R.DCH_RSm_CNT_BRIDGED m) = min (s.rd (R.DCH_RSm_CNT_BRIDGED m) + 1) 65535 ∧
    RegsKept s (svEntered e (sampleSeen e r s m) m) [(0x70401C + 0x40 * m, 0x704020 + 0x40 * m)] := by
  have ht := inputTaken_gap (x := svInput e s m) ((sampleSeen_hist e r s m).trans hh) hl ((sampleSeen_cut e r s m).trans_le hc) hx
  rw [svEntered_going hr, sampleSeen_input, ht]
  refine ⟨withHist_hist .., rd_sat1 _ _, ?_⟩
  exact regsKept_wr (within_head (by omega)) (regsKept_of_regs (regsKept_refl s _) (sampleSeen_regs e r s m)) _

end Later
end Seen

end Sys2Proof.Machine
end

section
/-! PROOFS. The commands of a resampler: restart, run, stop, source (R93, R105, R110 to R113). -/
namespace Sys2Proof.Machine

/-! ### RUN takes no part in the delays -/

section Running
variable (s : State) (m : Nat) (b : Bool)

theorem tapsWide_wrb_run (n st : Nat) : tapsWide (s.wrb (R.DCH_RSm_CTL_RUN m) b) n st = tapsWide s n st := by
  have hpos := stagePos_le st
  have hact : (s.wrb (R.DCH_RSm_CTL_RUN m) b).rd (hbAct n st) = s.rd (hbAct n st) := by
    rw [hbAct_eq]
    exact rd_wrb_ne _ _ (key_ne (by omega))
  rw [tapsWide, tapsWide, hact]
  rfl

theorem rsTapsWide_wrb_run (j : Nat) : rsTapsWide (s.wrb (R.DCH_RSm_CTL_RUN m) b) j = rsTapsWide s j := by
  have hact : (s.wrb (R.DCH_RSm_CTL_RUN m) b).rd (R.DCH_RSm_STAT_ACT j) = s.rd (R.DCH_RSm_STAT_ACT j) :=
    rd_wrb_ne _ _ (key_ne (by omega))
  rw [rsTapsWide, rsTapsWide, rsTapsAct, rsTapsAct, hact]
  rfl

theorem relDelay_wrb_run (n j : Nat) : relDelay (s.wrb (R.DCH_RSm_CTL_RUN m) b) n j = relDelay s n j := by
  have hnhb : (s.wrb (R.DCH_RSm_CTL_RUN m) b).rd (R.DCH_CHn_CFG_NHB n) = s.rd (R.DCH_CHn_CFG_NHB n) :=
    rd_wrb_ne _ _ (key_ne (by omega))
  have hlpm : (s.wrb (R.DCH_RSm_CTL_RUN m) b).on R.AFE_STAT_LPM_ACT = s.on R.AFE_STAT_LPM_ACT :=
    on_of_rd (rd_wrb_ne _ _ (key_ne (by omega)))
  simp only [relDelay, nhbOf, hnhb, lpmAct, hlpm, tapsWide_wrb_run, rsTapsWide_wrb_run, chainOf_wrb]

theorem svTin_wrb_run (j : Nat) : svTin (s.wrb (R.DCH_RSm_CTL_RUN m) b) j = svTin s j := by
  have hsub : (s.wrb (R.DCH_RSm_CTL_RUN m) b).rd (R.SVI_MAPm_SUB j) = s.rd (R.SVI_MAPm_SUB j) := rd_wrb_ne _ _ (key_ne (by omega))
  have hrate (k : Nat) : (s.wrb (R.DCH_RSm_CTL_RUN m) b).rd (R.SVI_SUBs_CFG_RATE k) = s.rd (R.SVI_SUBs_CFG_RATE k) :=
    rd_wrb_ne _ _ (key_ne (by omega))
  simp only [svTin, svSub, svSubRate, hsub, hrate]

theorem ftgOfCh_wrb_run (j : Nat) : ftgOfCh (s.wrb (R.DCH_RSm_CTL_RUN m) b) j = ftgOfCh s j := by
  have hgrp : (s.wrb (R.DCH_RSm_CTL_RUN m) b).rd R.ESP_GRP_FTG_FTG = s.rd R.ESP_GRP_FTG_FTG := rd_wrb_ne _ _ (key_ne (by omega))
  rw [ftgOfCh, ftgOfCh, ftgOf, ftgOf, hgrp]

variable {m} (hm : m < 192)
include hm

theorem isLocal_wrb_run : isLocal (s.wrb (R.DCH_RSm_CTL_RUN m) b) m = isLocal s m :=
  congrArg Bool.not (on_of_rd (rd_wrb_ne _ _ (key_ne (by omega))))

theorem tooLate_wrb_run (i : Inst) : tooLate (s.wrb (R.DCH_RSm_CTL_RUN m) b) m i = tooLate s m i := by
  have hsrc : srcOf (s.wrb (R.DCH_RSm_CTL_RUN m) b) m = srcOf s m := rd_wrb_ne _ _ (key_ne (by omega))
  have hfollow : (s.wrb (R.DCH_RSm_CTL_RUN m) b).followed = s.followed := rd_wrb_ne _ _ (key_ne (by omega))
  have hact : actU (s.wrb (R.DCH_RSm_CTL_RUN m) b) = actU s := by
    rw [actU, hfollow]
    rfl
  rw [tooLate, tooLate, isLocal_wrb_run s b hm, hsrc, hact, relDelay_wrb_run, svTin_wrb_run, rsTapsWide_wrb_run, rsOf_wrb]

end Running

/-! ### The ticks that a resampler comes too late for (R112) -/

/-- What becomes of an instant of channel `m`'s FTG when its resampler starts. -/
def absentMark (s : State) (m : Nat) (i : Inst) : Inst :=
  if !i.done && !i.written.contains m && !i.absent.contains m && tooLate s m i then { i with absent := m :: i.absent } else i

theorem markAbsent_insts (s : State) (m : Nat) :
    (espFtg (markAbsent s m) (ftgOfCh s m)).insts = (espFtg s (ftgOfCh s m)).insts.map (absentMark s m) := by
  rw [markAbsent, espFtg_modFtg]
  rfl

theorem absentMark_marks {s : State} {m : Nat} {i : Inst} (hd : i.done = false) (hw : m ∉ i.written) (hl : tooLate s m i = true) :
    (absentMark s m i).tick = i.tick ∧ (absentMark s m i).t = i.t ∧ m ∈ (absentMark s m i).absent := by
  by_cases ha : m ∈ i.absent
  · rw [absentMark, if_neg (by simp [ha])]
    exact ⟨rfl, rfl, ha⟩
  · rw [absentMark, if_pos (by simp [hd, hw, ha, hl])]
    exact ⟨rfl, rfl, List.mem_cons_self⟩

section Started
variable (s : State) {m : Nat} (hm : m < 192)
include hm

theorem startRsRun_marks {i : Inst} (hi : i ∈ (espFtg s (ftgOfCh s m)).insts) (hd : i.done = false) (hw : m ∉ i.written)
    (hl : tooLate s m i = true) :
    ∃ x ∈ (espFtg (startRsRun s m) (ftgOfCh s m)).insts, x.tick = i.tick ∧ x.t = i.t ∧ m ∈ x.absent := by
  have hinsts : (espFtg (startRsRun s m) (ftgOfCh s m)).insts =
      (espFtg s (ftgOfCh s m)).insts.map (absentMark (s.wrb (R.DCH_RSm_CTL_RUN m) true) m) := by
    have hmark := markAbsent_insts (s.wrb (R.DCH_RSm_CTL_RUN m) true) m
    rw [ftgOfCh_wrb_run s m true] at hmark
    rw [espFtg, startRsRun, restartRs_esp]
    exact hmark
  rw [hinsts]
  exact ⟨_, List.mem_map_of_mem hi, absentMark_marks hd hw ((tooLate_wrb_run s true hm i).trans hl)⟩

theorem startRsRun_fresh : Fresh m (isLocal s m) (startRsRun s m) := by
  have hloc : isLocal (markAbsent (s.wrb (R.DCH_RSm_CTL_RUN m) true) m) m = isLocal s m := isLocal_wrb_run s true hm
  exact hloc ▸ restartRs_fresh _ m

end Started

/-! ### Restart and RUN -/

/-- A resampler restarted by SRST (R111). -/
def rsRestarted (s : State) (m : Nat) : State := modRs (restartRs (settleRs s m) m) m fun r => { r with srstAt := some (tb2U s) }

section Restarted
variable (s : State) (m : Nat)

theorem rsRestarted_regs : (rsRestarted s m).regs = (settleRs s m).regs := restartRs_regs ..

theorem rsRestarted_idle : RsIdle m (rsRestarted s m) := by
  obtain ⟨hfade, hbusy, hpend⟩ := settleRs_idle m s
  have hregs := rsRestarted_regs s m
  refine ⟨?_, (on_of_rd (rd_of_regs hregs _)).trans hbusy, (on_of_rd (rd_of_regs hregs _)).trans hpend⟩
  rw [rsRestarted, rsOf_modRs]
  exact (restartRs_fade _ m).trans hfade

theorem rsRestarted_srstAt : (rsOf (rsRestarted s m) m).srstAt = some (tb2U s) := by rw [rsRestarted, rsOf_modRs]

theorem rsRestarted_fresh : Fresh m (isLocal s m) (rsRestarted s m) := by
  have hsel : (settleRs s m).rd (R.DCH_RSm_CFG_SRCSEL m) = s.rd (R.DCH_RSm_CFG_SRCSEL m) :=
    (settleRs_step m s 0 NoStage).flds _ ⟨key_ne (by omega), key_ne (by omega), key_ne (by omega), key_ne (by omega)⟩
  have hloc : isLocal (settleRs s m) m = isLocal s m := congrArg Bool.not (on_of_rd hsel)
  have hhist : (rsOf (rsRestarted s m) m).hist = (rsOf (restartRs (settleRs s m) m) m).hist := by rw [rsRestarted, rsOf_modRs]
  rw [Fresh, hhist, ← hloc]
  exact restartRs_fresh _ m

theorem rsRestarted_mem : (rsRestarted s m).mem = s.mem := (restartRs_mem ..).trans (settleRs_step m s 0 NoStage).mem

theorem rsRestarted_kept : KeptBut s (rsRestarted s m) (rsFlds m) :=
  KeptBut.of_regs (settleRs_step m s 0 NoStage).flds (rsRestarted_regs s m)

end Restarted

section Commands
variable {s : State} {m : Fin 192}

theorem resamplerSrst_restarts (h : rsRun s m = true) : Runs (.resamplerSrst m) s fun t => Fresh m (isLocal s m) t ∧ RsIdle m t ∧
    (rsOf t m).srstAt = some (tb2U s) ∧ SameBytes s t ∧ RegsKept s t [(0x704010 + 0x40 * m.val, 0x704014 + 0x40 * m.val)] :=
  ⟨rsRestarted s m, congrArg Host.Outcome.next (if_neg (by rw [h]; decide)), rsRestarted_fresh s m, rsRestarted_idle s m,
    rsRestarted_srstAt s m, sameBytes_of_mem (rsRestarted_mem s m),
    (rsRestarted_kept s m).regsKept (rsFlds_within m.isLt List.mem_cons_self)⟩

theorem resamplerSrst_ignored (h : rsRun s m = false) : exec (.resamplerSrst m) s = .next s :=
  congrArg Host.Outcome.next (if_pos (by rw [h]; decide))

theorem resamplerRunClear_stops (h : rsRun s m = true) : Runs (.resamplerRunClear m) s fun t => rsRun t m = false ∧ RsIdle m t ∧
    SameBytes s t ∧ RegsKept s t [(0x704000 + 0x40 * m.val, 0x704004 + 0x40 * m.val), (0x704010 + 0x40 * m.val, 0x704014 + 0x40 * m.val)] :=
  have hstep := stopRs_step s m 0 NoStage
  ⟨stopRs s m, congrArg Host.Outcome.next (if_pos h), stopRs_stops s m, stopRs_idle s m, sameBytes_of_mem hstep.mem,
    hstep.flds.regsKept (List.forall_cons _ _ _ |>.mpr ⟨within_head (by omega), rsFlds_within m.isLt (by simp)⟩)⟩

theorem resamplerRunClear_ignored (h : rsRun s m = false) : exec (.resamplerRunClear m) s = .next s :=
  congrArg Host.Outcome.next (if_neg (by rw [h]; decide))

/-- May resampler `m` start (R113)? -/
def MayRun (s : State) (m : Nat) : Prop :=
  rsActLoaded s m = true ∧ (isLocal s m = false ∨ feedOk s (srcOf s m) (nhbOf s (srcOf s m)) m = true)

theorem exec_resamplerRunSet (h : rsRun s m = false) : exec (.resamplerRunSet m) s = .next
    (if rsActLoaded s m && (!isLocal s m || feedOk s (srcOf s m) (nhbOf s (srcOf s m)) m) then startRsRun s m
      else (s.wrb (R.DCH_RSm_STAT_CFG_REFUSED m) true).logIx 0x07 2 m) :=
  congrArg Host.Outcome.next (if_neg (by rw [h]; decide))

theorem mayRun_iff (s : State) (m : Nat) :
    (rsActLoaded s m && (!isLocal s m || feedOk s (srcOf s m) (nhbOf s (srcOf s m)) m)) = true ↔ MayRun s m := by
  rw [Bool.and_eq_true, Bool.or_eq_true, Bool.not_eq_true']
  rfl

theorem resamplerRunSet_starts (h : rsRun s m = false) (hok : MayRun s m) : Runs (.resamplerRunSet m) s fun t =>
    rsRun t m = true ∧ Fresh m (isLocal s m) t ∧ SameBytes s t ∧
      (∀ i ∈ (espFtg s (ftgOfCh s m)).insts, i.done = false → m.val ∉ i.written → tooLate s m i = true →
        ∃ x ∈ (espFtg t (ftgOfCh s m)).insts, x.tick = i.tick ∧ x.t = i.t ∧ m.val ∈ x.absent) ∧
      RegsKept s t [(0x704000 + 0x40 * m.val, 0x704004 + 0x40 * m.val)] := by
  refine ⟨startRsRun s m, (exec_resamplerRunSet h).trans (by rw [if_pos ((mayRun_iff s m).mpr hok)]), startRsRun_runs s m,
    startRsRun_fresh s m.isLt, sameBytes_of_mem (startRsRun_mem ..), fun i hi hd hw hl => startRsRun_marks s m.isLt hi hd hw hl, ?_⟩
  exact regsKept_of_regs (regsKept_wr (within_head (by omega)) (regsKept_refl s _) _) (startRsRun_regs s m)

theorem resamplerRunSet_running (h : rsRun s m = true) : exec (.resamplerRunSet m) s = .next s :=
  congrArg Host.Outcome.next (if_pos h)

theorem resamplerRunSet_refused (h : rsRun s m = false) (hno : ¬ MayRun s m) : Runs (.resamplerRunSet m) s fun t => rsRun t m = false ∧
    t.on (R.DCH_RSm_STAT_CFG_REFUSED m) = true ∧ SameBytes s t ∧ RegsKept s t [(0x704010 + 0x40 * m.val, 0x704014 + 0x40 * m.val)] := by
  refine ⟨(s.wrb (R.DCH_RSm_STAT_CFG_REFUSED m) true).logIx 0x07 2 m,
    (exec_resamplerRunSet h).trans (by rw [if_neg (mt (mayRun_iff s m).mp hno)]), ?_, ?_, fun _ => rfl, ?_⟩
  · exact (on_of_rd ((logIx_rd ..).trans (rd_wrb_ne _ _ (key_ne (by omega))))).trans h
  · exact (on_of_rd (logIx_rd ..)).trans (on_wrb_self s _ true rfl)
  · exact regsKept_of_regs (regsKept_wr (within_head (by omega)) (regsKept_refl s _) _) (logIx_regs ..)

end Commands

/-! ### The source of a resampler (R93, R113) -/

section Source
variable (s : State) (m : Nat) (sv : Bool) (src : Nat)

/-- SRCSEL and SRC as written. -/
def sourceSet : State := (s.wrb (R.DCH_RSm_CFG_SRCSEL m) sv).wr (R.DCH_RSm_CFG_SRC m) src

/-- A running resampler restarts with its new source, without an input of the old one. -/
def sourceTaken : State :=
  if rsRun (sourceSet s m sv src) m then restartRs (withHist (sourceSet s m sv src) m []) m else sourceSet s m sv src

theorem sourceTaken_regs : (sourceTaken s m sv src).regs = (sourceSet s m sv src).regs := by
  unfold sourceTaken
  split
  · exact restartRs_regs ..
  · rfl

theorem sourceTaken_mem : (sourceTaken s m sv src).mem = s.mem := by
  unfold sourceTaken
  split
  · exact restartRs_mem ..
  · rfl

theorem sourceSet_selects : (sourceSet s m sv src).on (R.DCH_RSm_CFG_SRCSEL m) = sv :=
  (on_of_rd (rd_wr_ne _ _ (key_ne (by omega)))).trans (on_wrb_self s _ sv rfl)

theorem sourceSet_src (h : src < 64) : (sourceSet s m sv src).rd (R.DCH_RSm_CFG_SRC m) = src :=
  (rd_wr_self _ _ _).trans (Nat.mod_eq_of_lt h)

variable {m} in
theorem rsRun_sourceSet (hm : m < 192) : rsRun (sourceSet s m sv src) m = rsRun s m :=
  on_of_rd ((rd_wr_ne _ _ (key_ne (by omega))).trans (rd_wrb_ne s _ (key_ne (by omega))))

variable {m} in
theorem sourceSet_kept (hm : m < 192) : RegsKept s (sourceSet s m sv src) [(0x704004 + 0x40 * m, 0x704008 + 0x40 * m)] :=
  regsKept_wr (within_head (by omega)) (regsKept_wr (within_head (by omega)) (regsKept_refl s _) _) _

theorem restartRs_hist_nil {u : State} {m : Nat} (h : (rsOf u m).hist = []) : (rsOf (restartRs u m) m).hist = [] := by
  unfold restartRs
  split
  · rw [restartLocal, rsEvent, rsOf_markTag, rsOf_modRs, h]
    rfl
  · rw [restartSv, rsOf_modRs]

variable {m} in
theorem sourceTaken_hist (hm : m < 192) (h : rsRun s m = true) : (rsOf (sourceTaken s m sv src) m).hist = [] := by
  rw [sourceTaken, rsRun_sourceSet s sv src hm, if_pos h]
  exact restartRs_hist_nil (withHist_hist ..)

end Source

section SourceWrite
variable {s : State} {m : Fin 192} {sv : Bool} {src : Fin 64}

theorem resamplerSourceWrite_ignored (h : s.on R.DCH_CTL_LOCK = true ∨
    ¬ (s.on (R.DCH_RSm_CFG_SRCSEL m) ≠ sv ∨ s.rd (R.DCH_RSm_CFG_SRC m) ≠ src.val)) :
    exec (.resamplerSourceWrite m sv src) s = .next s := by
  refine congrArg Host.Outcome.next (if_pos ?_)
  rw [Bool.or_eq_true, Bool.and_eq_true, beq_iff_eq, beq_iff_eq]
  exact h.imp_right fun hn => by rwa [not_or, not_not, not_not] at hn

/-- Another resampler names the input. -/
def SourceClash (s : State) (m : Nat) (sv : Bool) (src : Nat) : Prop :=
  sv = false ∧ ∃ x < 192, x ≠ m ∧ s.on (R.DCH_RSm_CFG_SRCSEL x) = false ∧ s.rd (R.DCH_RSm_CFG_SRC x) = src

theorem sourceClash_iff (s : State) (m : Nat) (sv : Bool) (src : Nat) :
    (!sv && (List.range 192).any fun x => x != m && namesInput s src x) = true ↔ SourceClash s m sv src := by
  rw [Bool.and_eq_true, Bool.not_eq_true', List.any_eq_true]
  refine and_congr_right fun _ => exists_congr fun x => ?_
  rw [List.mem_range, namesInput, Bool.and_eq_true, Bool.and_eq_true, bne_iff_ne, Bool.not_eq_true', beq_iff_eq]

variable (hlock : s.on R.DCH_CTL_LOCK = false)
  (hd : s.on (R.DCH_RSm_CFG_SRCSEL m) ≠ sv ∨ s.rd (R.DCH_RSm_CFG_SRC m) ≠ src.val)
include hlock hd

theorem exec_resamplerSourceWrite : exec (.resamplerSourceWrite m sv src) s = .next
    (if (!sv && (List.range 192).any fun x => x != m.val && namesInput s src x) then s.wrb (R.DCH_RSm_STAT_CFG_REFUSED m) true
      else sourceTaken s m sv src) := by
  refine congrArg Host.Outcome.next (if_neg ?_)
  rw [hlock, Bool.false_or, Bool.and_eq_true, beq_iff_eq, beq_iff_eq, not_and_or]
  exact hd

theorem resamplerSourceWrite_clash (h : SourceClash s m sv src) :
    exec (.resamplerSourceWrite m sv src) s = .next (s.wrb (R.DCH_RSm_STAT_CFG_REFUSED m) true) :=
  (exec_resamplerSourceWrite hlock hd).trans (by rw [if_pos ((sourceClash_iff s m sv src).mpr h)])

theorem resamplerSourceWrite_taken (h : ¬ SourceClash s m sv src) : Runs (.resamplerSourceWrite m sv src) s fun t =>
    t.on (R.DCH_RSm_CFG_SRCSEL m) = sv ∧ t.rd (R.DCH_RSm_CFG_SRC m) = src.val ∧ (rsRun s m = true → (rsOf t m).hist = []) ∧
      SameBytes s t ∧ RegsKept s t [(0x704004 + 0x40 * m.val, 0x704008 + 0x40 * m.val)] := by
  have hregs := sourceTaken_regs s m sv src
  refine ⟨sourceTaken s m sv src, (exec_resamplerSourceWrite hlock hd).trans (by rw [if_neg (mt (sourceClash_iff s m sv src).mp h)]),
    (on_of_rd (rd_of_regs hregs _)).trans (sourceSet_selects s m sv src), (rd_of_regs hregs _).trans (sourceSet_src s m sv src src.isLt),
    sourceTaken_hist s sv src m.isLt, sameBytes_of_mem (sourceTaken_mem s m sv src), ?_⟩
  exact regsKept_of_regs (sourceSet_kept s sv src m.isLt) hregs

end SourceWrite
end Sys2Proof.Machine
end

section
/-! PROOFS. Resamplers at work put together (R95 to R113, R127, R158). -/
namespace Sys2Proof.Machine

/-- The FTG of a channel is one of four. -/
theorem ftgOfCh_lt (s : State) (m : Nat) : ftgOfCh s m < 4 := Nat.mod_lt _ (by decide)

/-- Settles O51, command by command. -/
theorem resamplersAtWork : Obligations.ResamplersAtWork := by
  refine ⟨fun m tick i s hr hl hu hi => ?release, fun e r s hq => ⟨svSampleEnter_unfed hq, svSampleEnter_stopped hq, fun m hf hr hi => ?enter⟩,
    fun m s => ⟨resamplerSrst_restarts, resamplerSrst_ignored, resamplerRunClear_stops, fun h ha hf => resamplerRunSet_starts h ⟨ha, hf⟩,
      resamplerRunSet_running, resamplerRunClear_ignored, resamplerRunSet_refused, fun sv src => ⟨resamplerSourceWrite_ignored, resamplerSourceWrite_clash,
        resamplerSourceWrite_taken⟩⟩⟩
  case release =>
    obtain ⟨hmem, htick, hw⟩ := instFor_some hi
    refine ⟨fun hd ha hdone => ⟨_, exec_resamplerRelease_due hr hl hu hi hd ha, ?_⟩,
      fun hd ha hdone => ⟨_, exec_resamplerRelease_due hr hl hu hi hd ha, releaseLocal_late m.isLt hw (ftgOfCh_lt s m) hdone⟩,
      exec_resamplerRelease_not hr hl hu hi⟩
    have hopen := releaseLocal_open m.isLt hw hmem hdone
    rwa [htick] at hopen
  case enter =>
    have hm : m < 192 := svFed_lt (by rw [hf]; exact List.mem_singleton_self m)
    refine ⟨_, svSampleEnter_one hq hf hr hi, sampleSeen_fifo e r s m, sampleSeen_sameBytes e r s m, sampleSeen_first,
      fun a l hre hh hl hc hx => sampleSeen_next hre hh hl hc hx, fun a l hre hh hl hc hx => ?_⟩
    obtain ⟨hhist, hcnt, hkept⟩ := sampleSeen_gap (r := r) hre hh hl hc hm hx
    exact ⟨⟨_, hhist, rfl, rfl, rfl⟩, hcnt, hkept⟩

end Sys2Proof.Machine
end

section
/-! PROOFS. Layer of sampled-value ingest: subscriptions and their states, what a step of SVI leaves (R118 to R145). -/
namespace Sys2Proof.Machine

/-! ### Subscriptions and their states -/

@[simp] theorem subOf_setSub (s : State) (n : Nat) (x : SvSub) : subOf (setSub s n x) n = x := mget_mput_self ..

theorem subOf_congr {s t : State} (h : t.svi.sub = s.svi.sub) (n : Nat) : subOf t n = subOf s n := by rw [subOf, subOf, h]

section SubState
variable (s : State) (n st : Nat)

@[simp] theorem setSubState_svi : (setSubState s n st).svi = s.svi := by
  unfold setSubState
  split <;> rfl

@[simp] theorem setSubState_tim : (setSubState s n st).tim = s.tim := by
  unfold setSubState
  split <;> rfl

theorem setSubState_kept : KeptBut s (setSubState s n st) [R.SVI_SUBs_STAT_STATE n] := by
  unfold setSubState
  split
  · exact keptBut_refl s _
  · exact ((keptBut_refl s _).wr (List.mem_singleton_self _) st).of_regs rfl

theorem subState_setSubState (h : st < 8) : subState (setSubState s n st) n = st := by
  unfold setSubState
  split
  next he => exact he
  next => exact (rd_wr_self s _ st).trans (Nat.mod_eq_of_lt h)

end SubState

/-- The confRev that a subscription accepts rests on its state, its register and the subscription. -/
theorem svRev_congr {s t : State} {n : Nat} (hc : t.rd (R.SVI_SUBs_CONFREV_CONFREV n) = s.rd (R.SVI_SUBs_CONFREV_CONFREV n))
    (hst : subState t n = subState s n) (hx : subOf t n = subOf s n) : svRev t n = svRev s n := by
  simp only [svRev, hc, hst, hx]

/-! ### What a step of SVI leaves -/

/-- A step of SVI: every field but those of `l`, memory, the clocks and the FIFO stay. -/
structure SviStep (l : List Fld) (s t : State) : Prop where
  flds : KeptBut s t l
  mem : t.mem = s.mem
  tim : t.tim = s.tim
  fifo : t.svi.fifo = s.svi.fifo

namespace SviStep
variable {l : List Fld} {s t u : State}

theorem refl (s : State) : SviStep l s s := ⟨keptBut_refl s l, rfl, rfl, rfl⟩

theorem trans (h : SviStep l s t) (hu : SviStep l t u) : SviStep l s u :=
  ⟨h.flds.trans hu.flds, hu.mem.trans h.mem, hu.tim.trans h.tim, hu.fifo.trans h.fifo⟩

theorem mono {l' : List Fld} (h : SviStep l s t) (hl : l ⊆ l') : SviStep l' s t := ⟨h.flds.mono hl, h.mem, h.tim, h.fifo⟩

theorem wr {f : Fld} (h : SviStep l s t) (hf : f ∈ l) (v : Nat) : SviStep l s (t.wr f v) := ⟨h.flds.wr hf v, h.mem, h.tim, h.fifo⟩

theorem wrb {f : Fld} (h : SviStep l s t) (hf : f ∈ l) (b : Bool) : SviStep l s (t.wrb f b) := h.wr hf _

theorem sat1 {f : Fld} (h : SviStep l s t) (hf : f ∈ l) : SviStep l s (t.sat1 f) := h.wr hf _

theorem logEv (h : SviStep l s t) (src code : Nat) (p : List Byte) : SviStep l s (t.logEv src code p) := ⟨h.flds, h.mem, h.tim, h.fifo⟩

theorem setSub (h : SviStep l s t) (n : Nat) (x : SvSub) : SviStep l s (setSub t n x) := ⟨h.flds, h.mem, h.tim, h.fifo⟩

theorem setDir (h : SviStep l s t) (hf : R.SVI_DIR_STAT_USED ∈ l) (d : List (Nat × DirEnt)) : SviStep l s (setDir t d) :=
  ⟨h.flds.wr hf _, h.mem, h.tim, h.fifo⟩

theorem setSubState {n : Nat} (h : SviStep l s t) (hf : R.SVI_SUBs_STAT_STATE n ∈ l) (st : Nat) : SviStep l s (setSubState t n st) :=
  h.trans ⟨(setSubState_kept t n st).mono fun _ hg => List.mem_singleton.mp hg ▸ hf, setSubState_mem t n st, setSubState_tim t n st,
    congrArg Svi.fifo (setSubState_svi t n st)⟩

theorem sameBytes (h : SviStep l s t) : SameBytes s t := sameBytes_of_mem h.mem

end SviStep

/-- Active time stays where the clocks do and only registers of SVI are written. -/
theorem activeNs_of_svi {s t : State} (ht : t.tim = s.tim) (hr : RegsKept s t [(0x500000, 0x600000)]) : t.activeNs = s.activeNs := by
  have hf : t.followed = s.followed := hr R.TIM_ACT_STAT_FOLLOW (by decide) (by decide) (by decide)
  rw [State.activeNs, State.activeNs, hf, State.tbOf, State.tbOf, ht]

end Sys2Proof.Machine
end

section
/-! PROOFS. The publisher directory (R138 to R142): ageing, snapshots, flush, fetch. -/
namespace Sys2Proof.Machine

/-! ### Ageing and flush (R139, R144) -/

theorem dirUsed_within : Within R.SVI_DIR_STAT_USED [(0x50000C, 0x500010)] := within_head (by decide)

theorem setDir_step (s : State) (d : List (Nat × DirEnt)) : SviStep [R.SVI_DIR_STAT_USED] s (setDir s d) :=
  (SviStep.refl s).setDir (List.mem_singleton_self _) d

theorem setDir_kept (s : State) (d : List (Nat × DirEnt)) : RegsKept s (setDir s d) [(0x50000C, 0x500010)] :=
  (setDir_step s d).flds.regsKept dirUsed_within

section AgeOut
variable {x : Fin 4096} {e : DirEnt} {s : State}

theorem directoryAgeOut_empty (h : s.svi.dir.find? (fun p => p.1 == x.val) = none) : exec (.directoryAgeOut x) s = .next s := by
  change execDirectoryAgeOut x s = _
  rw [execDirectoryAgeOut, h]

variable (h : s.svi.dir.find? (fun p => p.1 == x.val) = some (x.val, e))
include h

theorem exec_directoryAgeOut : exec (.directoryAgeOut x) s = .next (if s.tb2Ns ≤ e.heard + ageNs s then s
    else if e.linked then setDir s (mput s.svi.dir x.val { e with silent := true }) else setDir s (mdel s.svi.dir x.val)) := by
  change execDirectoryAgeOut x s = _
  rw [execDirectoryAgeOut, h]

theorem directoryAgeOut_heard (ha : s.tb2Ns ≤ e.heard + ageNs s) : exec (.directoryAgeOut x) s = .next s := by
  rw [exec_directoryAgeOut h, if_pos ha]

theorem directoryAgeOut_silent (ha : e.heard + ageNs s < s.tb2Ns) : Runs (.directoryAgeOut x) s fun t =>
    SameBytes s t ∧ RegsKept s t [(0x50000C, 0x500010)] ∧
      (e.linked = true → t.svi.dir = mput s.svi.dir x.val { e with silent := true }) ∧
      (e.linked = false → t.svi.dir = mdel s.svi.dir x.val) := by
  refine ⟨_, (exec_directoryAgeOut h).trans (by rw [if_neg (Nat.not_le.mpr ha)]), ?_⟩
  cases hl : e.linked
  · exact ⟨(setDir_step s _).sameBytes, setDir_kept s _, fun hn => Bool.noConfusion hn, fun _ => rfl⟩
  · exact ⟨(setDir_step s _).sameBytes, setDir_kept s _, fun _ => rfl, fun hn => Bool.noConfusion hn⟩

end AgeOut

theorem directoryFlush_keeps_linked {s : State} (h : s.svi.dir.length ≤ 4096) : Runs .directoryFlush s fun t =>
    t.svi.dir = s.svi.dir.filter (fun e => e.2.linked) ∧
    t.rd R.SVI_DIR_STAT_USED = (s.svi.dir.filter fun e => e.2.linked).length ∧ SameBytes s t ∧ RegsKept s t [(0x50000C, 0x500010)] := by
  have hlen : (s.svi.dir.filter fun e => e.2.linked).length < 2 ^ 13 :=
    (List.length_filter_le _ _).trans_lt (Nat.lt_of_le_of_lt h (by decide))
  exact ⟨setDir s _, rfl, rfl, (rd_wr_self ..).trans (Nat.mod_eq_of_lt hlen), (setDir_step s _).sameBytes, setDir_kept s _⟩

/-! ### Fetch (R142) -/

/-- The words of an entry and the fields that take them. -/
def bufWrites (l : List Byte) : List (Fld × Nat) :=
  (List.range 128).map fun w => (R.SVI_DIR_BUFw_WORD w, leNat ((l.drop (4 * w)).take 4))

theorem fillBuf_eq_wrAll (l : List Byte) (s : State) : fillBuf l s = wrAll s (bufWrites l) := by
  rw [fillBuf, wrAll, bufWrites, List.foldl_map]

theorem bufWord_key_ne {v w : Nat} (h : v ≠ w) : (R.SVI_DIR_BUFw_WORD v).key ≠ (R.SVI_DIR_BUFw_WORD w).key := by
  simp only [Fld.key, R.SVI_DIR_BUFw_WORD]
  omega

theorem bufWrites_pairwise (l : List Byte) : (bufWrites l).Pairwise fun x y => x.1.key ≠ y.1.key :=
  List.pairwise_map.mpr (List.nodup_range.imp bufWord_key_ne)

theorem leNat_lt (l : List Byte) : leNat l < 256 ^ l.length := by
  induction l with
  | nil => exact Nat.one_pos
  | cons b t ih =>
    have hb := b.isLt
    rw [leNat, List.length_cons, Nat.pow_succ]
    omega

theorem fillBuf_word (l : List Byte) (s : State) {w : Nat} (hw : w < 128) :
    (fillBuf l s).rd (R.SVI_DIR_BUFw_WORD w) = leNat ((l.drop (4 * w)).take 4) := by
  have hlt : leNat ((l.drop (4 * w)).take 4) < 2 ^ 32 :=
    (leNat_lt _).trans_le (Nat.pow_le_pow_right (n := 256) (by decide) (List.length_take_le 4 _))
  rw [fillBuf_eq_wrAll, rd_wrAll (bufWrites_pairwise l) (List.mem_map.mpr ⟨w, List.mem_range.mpr hw, rfl⟩)]
  exact Nat.mod_eq_of_lt hlt

theorem fillBuf_kept (l : List Byte) (s : State) : KeptBut s (fillBuf l s) ((List.range 128).map R.SVI_DIR_BUFw_WORD) := by
  have hk := wrAll_kept s (bufWrites l)
  rwa [← fillBuf_eq_wrAll, bufWrites, List.map_map] at hk

theorem fillBuf_rd (l : List Byte) (s : State) {d : Dom} {a lo w r : Nat} {c : Acc} (h : lo < 32 ∧ a < 0x500200) :
    (fillBuf l s).rd ⟨d, a, lo, w, c, r⟩ = s.rd ⟨d, a, lo, w, c, r⟩ :=
  fillBuf_kept l s _ (List.forall_iff_forall_mem.mpr fun g hg => by
    obtain ⟨w, hw, rfl⟩ := List.mem_map.mp hg
    have hw := List.mem_range.mp hw
    exact key_ne (by omega))

/-- What a fetch of index `x` leaves, whose buffer takes `l`. -/
def fetched (s : State) (x : Nat) (empty : Bool) (l : List Byte) : State :=
  fillBuf l (((s.wr R.SVI_DIR_SEL_IDX x).wrb R.SVI_DIR_SEL_READY true).wrb R.SVI_DIR_SEL_EMPTY empty)

section Fetch
variable (s : State) (x : Fin 4096) (empty : Bool) (l : List Byte)

theorem fetched_shows : (fetched s x empty l).on R.SVI_DIR_SEL_READY = true ∧ (fetched s x empty l).on R.SVI_DIR_SEL_EMPTY = empty ∧
    (fetched s x empty l).rd R.SVI_DIR_SEL_IDX = x.val := by
  refine ⟨?_, ?_, ?_⟩
  · exact (on_of_rd (fillBuf_rd l _ (by decide))).trans ((on_of_rd (rd_wrb_ne _ _ (by decide))).trans (on_wrb_self _ _ _ rfl))
  · exact (on_of_rd (fillBuf_rd l _ (by decide))).trans (on_wrb_self _ _ _ rfl)
  · refine (fillBuf_rd l _ (by decide)).trans ((rd_wrb_ne _ _ (by decide)).trans ((rd_wrb_ne _ _ (by decide)).trans ?_))
    exact (rd_wr_self ..).trans (Nat.mod_eq_of_lt x.isLt)

theorem fetched_keeps : SameBytes s (fetched s x empty l) ∧ RegsKept s (fetched s x empty l) [(0x500010, 0x500014), (0x500200, 0x500400)] := by
  refine ⟨sameBytes_of_mem (fillBuf_mem ..), regsKept_trans (regsKept_wr (within_head (by omega)) (regsKept_wr (within_head (by omega))
    (regsKept_wr (within_head (by omega)) (regsKept_refl s _) _) _) _) ((fillBuf_kept l _).regsKept ?_)⟩
  refine List.forall_iff_forall_mem.mpr fun g hg => within_tail ?_
  obtain ⟨w, hw, rfl⟩ := List.mem_map.mp hg
  have hw := List.mem_range.mp hw
  exact within_head (by omega)

end Fetch

section Fetches
variable {x : Fin 4096} {s : State}

theorem directoryFetch_entry {e : DirEnt} (h : s.svi.dir.find? (fun p => p.1 == x.val) = some (x.val, e)) :
    Runs (.directoryFetch x) s fun t => t.on R.SVI_DIR_SEL_READY = true ∧ t.on R.SVI_DIR_SEL_EMPTY = false ∧
      t.rd R.SVI_DIR_SEL_IDX = x.val ∧ (∀ w < 128, t.rd (R.SVI_DIR_BUFw_WORD w) = leNat (((dirBytes e).drop (4 * w)).take 4)) ∧
      SameBytes s t ∧ RegsKept s t [(0x500010, 0x500014), (0x500200, 0x500400)] := by
  have he : exec (.directoryFetch x) s = .next (fetched s x false (dirBytes e)) := by
    change execDirectoryFetch x s = _
    rw [execDirectoryFetch, h]
    rfl
  obtain ⟨hready, hempty, hidx⟩ := fetched_shows s x false (dirBytes e)
  exact ⟨_, he, hready, hempty, hidx, fun w hw => fillBuf_word _ _ hw, fetched_keeps s x false (dirBytes e)⟩

theorem leNat_zeros (n : Nat) : leNat (List.replicate n 0) = 0 := by
  induction n with
  | zero => rfl
  | succ n ih => rw [List.replicate_succ, leNat, ih]; rfl

theorem directoryFetch_empty (h : s.svi.dir.find? (fun p => p.1 == x.val) = none) : Runs (.directoryFetch x) s fun t =>
    t.on R.SVI_DIR_SEL_EMPTY = true ∧ (∀ w < 128, t.rd (R.SVI_DIR_BUFw_WORD w) = 0) ∧ SameBytes s t ∧
      RegsKept s t [(0x500010, 0x500014), (0x500200, 0x500400)] := by
  have he : exec (.directoryFetch x) s = .next (fetched s x true (padTo 512 [])) := by
    change execDirectoryFetch x s = _
    rw [execDirectoryFetch, h]
    rfl
  obtain ⟨-, hempty, -⟩ := fetched_shows s x true (padTo 512 [])
  refine ⟨_, he, hempty, fun w hw => (fillBuf_word _ _ hw).trans ?_, fetched_keeps s x true (padTo 512 [])⟩
  rw [padTo_nil, List.drop_replicate, List.take_replicate, leNat_zeros]

end Fetches

/-! ### Snapshots (R141) -/

theorem snapNs_eq {s : State} (h : s.rd R.SVI_DIR_CFG_SNAP ≠ 0) : snapNs s = max 10 (s.rd R.SVI_DIR_CFG_SNAP) * 1000000000 := if_neg h

theorem directorySnapshot_early {s : State} (h : s.rd R.SVI_DIR_CFG_SNAP = 0 ∨
    s.tb2Ns < s.svi.snapAt + max 10 (s.rd R.SVI_DIR_CFG_SNAP) * 1000000000) : exec .directorySnapshot s = .next s := by
  refine congrArg Host.Outcome.next (if_pos ?_)
  by_cases h0 : s.rd R.SVI_DIR_CFG_SNAP = 0
  · exact .inl (if_pos h0)
  · exact .inr (.inl (snapNs_eq h0 ▸ h.resolve_left h0))

theorem directorySnapshot_busy {s : State} (hb : s.on R.SVI_STAT_SNAP_BUSY = true) : exec .directorySnapshot s = .next s :=
  congrArg Host.Outcome.next (if_pos (.inr (.inr hb)))

theorem directorySnapshot_due {s : State} (h0 : s.rd R.SVI_DIR_CFG_SNAP ≠ 0)
    (hd : s.svi.snapAt + max 10 (s.rd R.SVI_DIR_CFG_SNAP) * 1000000000 ≤ s.tb2Ns) (hb : s.on R.SVI_STAT_SNAP_BUSY = false) :
    exec .directorySnapshot s = .next (snapStart (setSvi s { s.svi with snapAt := s.tb2Ns })) := by
  refine congrArg Host.Outcome.next (if_neg ?_)
  rw [snapNs_eq h0, hb]
  rintro (h | h | h)
  · omega
  · omega
  · exact Bool.noConfusion h

theorem snapStart_busy {s : State} (hb : s.on R.SVI_STAT_SNAP_BUSY = true) : snapStart s = s := if_pos hb

/-- The copy that was not written last, the newest standing first. -/
def copyAfter (l : List Nat) : Nat := match l with | [] => 0 | y :: _ => 1 - y

/-- A snapshot that starts holds the directory, and the copy not written last. -/
theorem snapStart_starts {s : State} (hb : s.on R.SVI_STAT_SNAP_BUSY = false) : (snapStart s).on R.SVI_STAT_SNAP_BUSY = true ∧
    SameBytes s (snapStart s) ∧ (snapStart s).svi.snap = some (copyAfter s.svi.copies, s.svi.dir) ∧
    (snapStart s).svi.dir = s.svi.dir ∧ (snapStart s).svi.snapAt = s.svi.snapAt ∧ RegsKept s (snapStart s) [(0x500004, 0x500008)] := by
  rw [snapStart, if_neg (ne_true_of_eq_false hb)]
  exact ⟨on_wrb_self _ _ _ rfl, fun _ => rfl, rfl, rfl, rfl, regsKept_wr (t := setSvi s _) (within_head (by decide)) (fun _ _ _ _ => rfl) _⟩

/-- A snapshot starts on request, and where its period ends. -/
theorem snapshot_starts {c : Instr} {s : State} (hc : c = .snapshotRequest ∨ (c = .directorySnapshot ∧ s.rd R.SVI_DIR_CFG_SNAP ≠ 0 ∧
      s.svi.snapAt + max 10 (s.rd R.SVI_DIR_CFG_SNAP) * 1000000000 ≤ s.tb2Ns)) (hb : s.on R.SVI_STAT_SNAP_BUSY = false) :
    Runs c s fun t => t.on R.SVI_STAT_SNAP_BUSY = true ∧ SameBytes s t ∧
      t.svi.snap = some (copyAfter s.svi.copies, s.svi.dir) ∧ t.svi.dir = s.svi.dir ∧
      t.svi.snapAt = (if c = .directorySnapshot then s.tb2Ns else s.svi.snapAt) ∧ RegsKept s t [(0x500004, 0x500008)] := by
  rcases hc with rfl | ⟨rfl, h0, hd⟩
  · exact ⟨_, rfl, snapStart_starts hb⟩
  · exact ⟨_, directorySnapshot_due h0 hd hb, snapStart_starts (s := setSvi s { s.svi with snapAt := s.tb2Ns }) hb⟩

theorem snapshot_busy {c : Instr} {s : State} (hc : c = .snapshotRequest ∨ c = .directorySnapshot) (hb : s.on R.SVI_STAT_SNAP_BUSY = true) :
    exec c s = .next s := by
  rcases hc with rfl | rfl
  · exact congrArg Host.Outcome.next (snapStart_busy hb)
  · exact directorySnapshot_busy hb

/-! ### The copy (R141) -/

theorem dirBytes_length (e : DirEnt) : (dirBytes e).length = 512 := by
  simp [dirBytes, dirText, beBytes, leBytes_length, padTo_length]

/-- One entry's bytes in a copy that begins at `a`. -/
def putEntry (a : Nat) (m : List Host.Cell) (e : Nat × DirEnt) : List Host.Cell := memWrs m (a + 512 * e.1) (dirBytes e.2)

theorem putEntry_outside (a : Nat) (m : List Host.Cell) (e : Nat × DirEnt) {b : Nat} (h : b < a + 512 * e.1 ∨ a + 512 * e.1 + 512 ≤ b) :
    memRd (putEntry a m e) b = memRd m b :=
  memRd_memWrs_out _ _ _ _ (by rwa [dirBytes_length])

theorem putEntry_read (a : Nat) (m : List Host.Cell) (x : Nat × DirEnt) : memRds (putEntry a m x) (a + 512 * x.1) 512 = dirBytes x.2 := by
  have hread := memRds_memWrs m (a + 512 * x.1) (dirBytes x.2)
  rwa [dirBytes_length] at hread

theorem putEntry_other (a : Nat) (m : List Host.Cell) {e x : Nat × DirEnt} (h : e.1 ≠ x.1) :
    memRds (putEntry a m e) (a + 512 * x.1) 512 = memRds m (a + 512 * x.1) 512 :=
  memRds_congr fun k hk => putEntry_outside a m e (by omega)

theorem putEntries_outside {a b : Nat} {d : List (Nat × DirEnt)} (m : List Host.Cell) (hd : ∀ e ∈ d, e.1 < 4096) (h : b < a ∨ a + 0x200000 ≤ b) :
    memRd (d.foldl (putEntry a) m) b = memRd m b :=
  List.foldlRecOn (motive := fun u => memRd u b = memRd m b) d _ rfl fun u hu e he => by
    have hlt := hd e he
    exact (putEntry_outside a u e (by omega)).trans hu

theorem putEntries_kept {a : Nat} {x : Nat × DirEnt} {d : List (Nat × DirEnt)} (m : List Host.Cell) (hd : ∀ e ∈ d, e.1 ≠ x.1) :
    memRds (d.foldl (putEntry a) m) (a + 512 * x.1) 512 = memRds m (a + 512 * x.1) 512 :=
  List.foldlRecOn (motive := fun u => memRds u (a + 512 * x.1) 512 = memRds m (a + 512 * x.1) 512) d _ rfl fun u hu e he =>
    (putEntry_other a u (hd e he)).trans hu

/-- Every entry of a directory reads back from its copy. -/
theorem putEntries_read {a : Nat} {x : Nat × DirEnt} {d : List (Nat × DirEnt)} (m : List Host.Cell)
    (hd : d.Pairwise fun e y => e.1 ≠ y.1) (hx : x ∈ d) : memRds (d.foldl (putEntry a) m) (a + 512 * x.1) 512 = dirBytes x.2 := by
  induction d generalizing m with
  | nil => exact absurd hx List.not_mem_nil
  | cons e t ih =>
    obtain ⟨he, ht⟩ := List.pairwise_cons.mp hd
    rw [List.foldl_cons]
    rcases List.mem_cons.mp hx with rfl | hx
    · exact (putEntries_kept _ fun y hy => (he y hy).symm).trans (putEntry_read a m x)
    · exact ih _ ht hx

/-- The directory stands in copy `k`, and the copy's completion word is in place. -/
def copyWritten (s : State) (k : Nat) (d : List (Nat × DirEnt)) : State :=
  setSvi { s with mem := d.foldl (putEntry (copyBase k)) (memClear s.mem (copyBase k) (copyBase k + 0x200000)) }
    { s.svi with snap := none, copies := k :: s.svi.copies.filter (· ≠ k) }

theorem exec_snapshotComplete {k : Nat} {d : List (Nat × DirEnt)} {s : State} (hs : s.svi.snap = some (k, d)) :
    exec .snapshotComplete s = .next (((copyWritten s k d).wrb R.SVI_STAT_SNAP_BUSY false).wr R.SVI_STAT_LASTCOPY k) := by
  change execSnapshotComplete s = _
  rw [execSnapshotComplete, hs]
  rfl

theorem copyWritten_shows (s : State) (k : Nat) {d : List (Nat × DirEnt)} (hlt : ∀ e ∈ d, e.1 < 4096) (hd : d.Pairwise fun a b => a.1 ≠ b.1) :
    (∀ e ∈ d, (copyWritten s k d).rdMem (copyBase k + 512 * e.1) 512 = dirBytes e.2) ∧
    SameBytesBut s (copyWritten s k d) (copyBase k) (copyBase k + 0x200000) :=
  ⟨fun _ he => putEntries_read _ hd he, fun _ hb => (putEntries_outside _ hlt hb).trans (memRd_memClear _ hb)⟩

theorem snapshotComplete_writes {k : Nat} {d : List (Nat × DirEnt)} {s : State} (hs : s.svi.snap = some (k, d)) (hk : k < 2)
    (hlt : ∀ e ∈ d, e.1 < 4096) (hd : d.Pairwise fun a b => a.1 ≠ b.1) : Runs .snapshotComplete s fun t =>
      t.svi.snap = none ∧ t.on R.SVI_STAT_SNAP_BUSY = false ∧ t.rd R.SVI_STAT_LASTCOPY = k ∧ t.svi.copies.head? = some k ∧
      (∀ e ∈ d, t.rdMem (0xC00000 + k * 0x200000 + 512 * e.1) 512 = dirBytes e.2) ∧
      SameBytesBut s t (0xC00000 + k * 0x200000) (0xC00000 + k * 0x200000 + 0x200000) ∧ RegsKept s t [(0x500004, 0x500008)] := by
  have hbase : 0xC00000 + k * 0x200000 = copyBase k := by rw [copyBase, mramBase, Nat.zero_add]
  obtain ⟨hread, hout⟩ := copyWritten_shows s k hlt hd
  have hsnap : (copyWritten s k d).svi.snap = none := rfl
  have hcopy : (copyWritten s k d).svi.copies.head? = some k := rfl
  have hregs : (copyWritten s k d).regs = s.regs := rfl
  refine ⟨_, exec_snapshotComplete hs, ?_⟩
  rw [hbase]
  generalize copyWritten s k d = u at *
  refine ⟨hsnap, ?_, (rd_wr_self ..).trans (Nat.mod_eq_of_lt hk), hcopy, hread, hout, ?_⟩
  · exact (on_of_rd (rd_wr_ne _ _ (by decide))).trans (on_wrb_self _ _ _ rfl)
  · exact regsKept_wr (within_head (by omega)) (regsKept_wr (within_head (by omega)) (regsKept_of_regs (regsKept_refl s _) hregs) _) _

end Sys2Proof.Machine
end

section
/-! PROOFS. SV_FRAME_RECEIVE: frames that are malformed or of another confRev (R118, R124, R125, R136, R138). -/
namespace Sys2Proof.Machine

theorem svCands_lt {s : State} {f : SvFrame} {n : Nat} (h : n ∈ svCands s f) : n < 64 := by
  unfold svCands at h
  split at h
  · exact absurd h List.not_mem_nil
  · exact List.mem_range.mp (List.mem_filter.mp h).1

/-- A frame that SVI takes leaves NET, and nothing else changes by that. -/
theorem takeFrame_eq (s : State) (d : Dest) : ∃ v, s.takeFrame d = { s with net := v } := by
  unfold State.takeFrame
  split
  · exact ⟨s.net, rfl⟩
  · exact ⟨_, rfl⟩

theorem svFrameReceive_off {s : State} (f : SvFrame) (h : s.pg 8 = false) : exec (.svFrameReceive f) s = .next s :=
  congrArg Host.Outcome.next (if_neg (ne_true_of_eq_false h))

/-- With PD8 on, a frame is checked after it has left NET. -/
theorem exec_svFrameReceive {s : State} (f : SvFrame) (h : s.pg 8 = true) :
    ∃ v, exec (.svFrameReceive f) s = .next (svFrame { s with net := v } f) := by
  obtain ⟨v, hv⟩ := takeFrame_eq s .svi
  exact ⟨v, hv ▸ congrArg Host.Outcome.next (if_pos h)⟩

/-! ### A FORMAT drop (R124, R125) -/

section Format
variable (s : State) (n : Nat)

theorem formatDrop_regs : (formatDrop s n).regs = (s.sat1 (R.SVI_SUBs_ERR_FORMAT n)).regs := by
  unfold formatDrop
  extract_lets x u due
  split <;> rfl

theorem formatDrop_fifo : (formatDrop s n).svi.fifo = s.svi.fifo := by
  unfold formatDrop
  extract_lets x u due
  split <;> rfl

theorem formatDrop_dir : (formatDrop s n).svi.dir = s.svi.dir := by
  unfold formatDrop
  extract_lets x u due
  split <;> rfl

theorem formatDrop_counts : (formatDrop s n).rd (R.SVI_SUBs_ERR_FORMAT n) = min (s.rd (R.SVI_SUBs_ERR_FORMAT n) + 1) 65535 :=
  (rd_of_regs (formatDrop_regs s n) _).trans (rd_sat1_self s rfl)

variable {n} in
theorem formatDrop_kept (hn : n < 64) : RegsKept s (formatDrop s n) [(0x501038 + 0x40 * n, 0x50103C + 0x40 * n)] :=
  regsKept_of_regs (regsKept_wr (within_head (by omega)) (regsKept_refl s _) _) (formatDrop_regs s n)

end Format

section Frame
variable {s : State} {f : SvFrame} {n : Nat} (hc : svCands s f = [n])
include hc

theorem svFrame_malformed (hw : f.wellFormed = false) : svFrame s f = formatDrop s n := by
  unfold svFrame
  rw [hc, hw]
  cases h : svNameOk s n f <;> simp [h]

theorem svFrameReceive_malformed (hpg : s.pg 8 = true) (hw : f.wellFormed = false) : Runs (.svFrameReceive f) s fun t =>
    t.rd (R.SVI_SUBs_ERR_FORMAT n) = min (s.rd (R.SVI_SUBs_ERR_FORMAT n) + 1) 65535 ∧
      t.svi.fifo = s.svi.fifo ∧ t.svi.dir = s.svi.dir ∧ SameBytes s t ∧ RegsKept s t [(0x501038 + 0x40 * n, 0x50103C + 0x40 * n)] := by
  have hn : n < 64 := svCands_lt (hc ▸ List.mem_singleton_self n)
  obtain ⟨v, hv⟩ := exec_svFrameReceive f hpg
  exact ⟨_, hv.trans (congrArg _ (svFrame_malformed (s := { s with net := v }) hc hw)), formatDrop_counts _ n, formatDrop_fifo _ n,
    formatDrop_dir _ n, sameBytes_of_mem (formatDrop_mem ..), formatDrop_kept _ hn⟩

/-- A well-formed frame of the subscription's strings that needs no authentication is learned, then checked. -/
theorem svFrame_named (hw : f.wellFormed = true) (hname : svNameOk s n f = true)
    (ha : (svLearn s f (some n)).on (R.SVI_SUBs_CFG_AUTH n) = false) :
    svFrame s f = svSteps (svLearn s f (some n)) n f (arrivalNs s f.port f.pos) := by
  unfold svFrame
  rw [hc, hw]
  simp [hname, ha]

end Frame

/-! ### What the directory learns (R138, R139) -/

theorem dirLearn_step (s : State) (port : Nat) (e : DirEnt) :
    SviStep [R.SVI_DIR_STAT_USED, R.SVI_DIR_STAT_EVICT] s (dirLearn s port e).1 := by
  have hdir (d : List (Nat × DirEnt)) : SviStep [R.SVI_DIR_STAT_USED, R.SVI_DIR_STAT_EVICT] s (setDir s d) :=
    (SviStep.refl s).setDir List.mem_cons_self d
  unfold dirLearn
  extract_lets now tb2
  split
  · extract_lets ch y
    dsimp only
    split
    · exact (hdir _).logEv _ _ _
    · exact hdir _
  · split
    · exact SviStep.refl s
    · extract_lets y
      dsimp only
      split
      · exact (hdir _).sat1 (by simp)
      · exact hdir _

theorem dirLearn_sub (s : State) (port : Nat) (e : DirEnt) : (dirLearn s port e).1.svi.sub = s.svi.sub := by
  unfold dirLearn
  extract_lets now tb2
  split
  · extract_lets ch y
    dsimp only
    split <;> rfl
  · split
    · rfl
    · extract_lets y
      dsimp only
      split <;> rfl

/-- The fields that learning from a frame of subscription `n` may write. -/
def learnFlds (n : Nat) : List Fld := [R.SVI_DIR_STAT_USED, R.SVI_DIR_STAT_EVICT, R.SVI_SUBs_STAT_DIRV n, R.SVI_SUBs_STAT_DIRIDX n]

theorem svLearn_step (s : State) (f : SvFrame) (n : Nat) : SviStep (learnFlds n) s (svLearn s f (some n)) := by
  unfold svLearn
  split
  · exact SviStep.refl s
  · exact (((dirLearn_step ..).mono (by simp [learnFlds])).wrb (by simp [learnFlds]) true).wr (by simp [learnFlds]) _

theorem svLearn_sub (s : State) (f : SvFrame) (n : Nat) : (svLearn s f (some n)).svi.sub = s.svi.sub := by
  unfold svLearn
  split
  · rfl
  · exact dirLearn_sub ..

/-- Fields of other registers, and those beside DIRV and DIRIDX, stay. -/
theorem svLearn_rd (s : State) (f : SvFrame) {n : Nat} (hn : n < 64) {d : Dom} {a lo w r : Nat} {c : Acc}
    (h : lo < 32 ∧ a < 0x4000000 ∧ a ≠ 0x50000C ∧ (a = 0x501024 + 0x40 * n → lo ≠ 23 ∧ lo ≠ 0)) :
    (svLearn s f (some n)).rd ⟨d, a, lo, w, c, r⟩ = s.rd ⟨d, a, lo, w, c, r⟩ :=
  (svLearn_step s f n).flds _ ⟨key_ne (by omega), key_ne (by omega), key_ne (by omega), key_ne (by omega)⟩

end Sys2Proof.Machine
end

section
/-! PROOFS. SV_FRAME_RECEIVE: a differing confRev, and the next sample in count (R124, R126, R131, R134 to R137). -/
namespace Sys2Proof.Machine

/-! ### A differing confRev (R136) -/

section Rev
variable (s : State) (n got : Nat)

theorem confrevBad_step : SviStep [R.SVI_SUBs_STAT_CONFREV_STK n, R.SVI_SUBs_STAT_STATE n] s (confrevBad s n got) := by
  have hstk : SviStep [R.SVI_SUBs_STAT_CONFREV_STK n, R.SVI_SUBs_STAT_STATE n] s (s.wrb (R.SVI_SUBs_STAT_CONFREV_STK n) true) :=
    (SviStep.refl s).wrb List.mem_cons_self true
  unfold confrevBad
  extract_lets u
  split
  · exact hstk
  · exact ((hstk.setSub n _).setSubState (by simp) 5).logEv _ _ _

theorem subState_stk : subState (s.wrb (R.SVI_SUBs_STAT_CONFREV_STK n) true) n = subState s n := rd_wrb_ne s true (key_ne (by omega))

theorem confrevBad_invalid : subState (confrevBad s n got) n = 5 := by
  unfold confrevBad
  extract_lets u
  split
  next h => exact h
  next => exact (rd_of_regs (logEv_regs ..) _).trans (subState_setSubState _ n 5 (by decide))

theorem confrevBad_stuck : (confrevBad s n got).on (R.SVI_SUBs_STAT_CONFREV_STK n) = true := by
  have hstk : (s.wrb (R.SVI_SUBs_STAT_CONFREV_STK n) true).on (R.SVI_SUBs_STAT_CONFREV_STK n) = true := on_wrb_self s _ true rfl
  unfold confrevBad
  extract_lets u
  split
  · exact hstk
  · refine (on_of_rd ((rd_of_regs (logEv_regs ..) _).trans (setSubState_kept _ n 5 _ (key_ne (by omega))))).trans ?_
    exact hstk

/-- A subscription that becomes INVALID remembers the confRev configured then. -/
theorem confrevBad_rev (h : subState s n ≠ 5) : svRev (confrevBad s n got) n = s.rd (R.SVI_SUBs_CONFREV_CONFREV n) := by
  have hkeep : (s.wrb (R.SVI_SUBs_STAT_CONFREV_STK n) true).rd (R.SVI_SUBs_CONFREV_CONFREV n) = s.rd (R.SVI_SUBs_CONFREV_CONFREV n) :=
    rd_wrb_ne s true (key_ne (by omega))
  have hrev : (subOf (confrevBad s n got) n).rev = some (s.rd (R.SVI_SUBs_CONFREV_CONFREV n)) := by
    unfold confrevBad
    extract_lets u
    rw [if_neg (subState_stk s n ▸ h), subOf_congr (t := State.logEv ..) (congrArg Svi.sub (setSubState_svi ..)), subOf_setSub, hkeep]
  rw [svRev, if_pos (confrevBad_invalid s n got), hrev, Option.getD_some]

end Rev

section Learned
variable {s : State} {f : SvFrame} {n : Nat} {a : SvAsdu} (hc : svCands s f = [n]) (hw : f.wellFormed = true)
  (hname : svNameOk s n f = true) (hauth : s.on (R.SVI_SUBs_CFG_AUTH n) = false) (ha : f.asdus = [a])

theorem svRev_svLearn (s : State) (f : SvFrame) {n : Nat} (hn : n < 64) : svRev (svLearn s f (some n)) n = svRev s n :=
  svRev_congr (svLearn_rd s f hn (by omega)) (svLearn_rd s f hn (by omega)) (subOf_congr (svLearn_sub s f n) n)

include ha in
theorem svBadRev_one : svBadRev s n f = if a.confrev ≠ svRev s n then some a.confrev else none := by
  unfold svBadRev
  rw [ha]
  by_cases h : a.confrev = svRev s n <;> simp [h]

include hc hw hname hauth

theorem svFrame_learned : svFrame s f = svSteps (svLearn s f (some n)) n f (arrivalNs s f.port f.pos) :=
  have hn : n < 64 := svCands_lt (hc ▸ List.mem_singleton_self n)
  svFrame_named hc hw hname ((on_of_rd (svLearn_rd s f hn (by omega))).trans hauth)

include ha

theorem svFrame_badRev (hrev : a.confrev ≠ svRev s n) : svFrame s f = confrevBad (svLearn s f (some n)) n a.confrev := by
  have hn : n < 64 := svCands_lt (hc ▸ List.mem_singleton_self n)
  rw [svFrame_learned hc hw hname hauth, svSteps, svBadRev_one ha, svRev_svLearn s f hn, if_pos hrev]

/-- Such a frame leaves the subscription INVALID, with its confRev remembered, and no sample in the FIFO. -/
theorem svFrame_badRev_shows (hrev : a.confrev ≠ svRev s n) : subState (svFrame s f) n = 5 ∧
    (svFrame s f).on (R.SVI_SUBs_STAT_CONFREV_STK n) = true ∧
    (subState s n ≠ 5 → svRev (svFrame s f) n = s.rd (R.SVI_SUBs_CONFREV_CONFREV n)) ∧ (svFrame s f).svi.fifo = s.svi.fifo ∧
    SameBytes s (svFrame s f) ∧ RegsKept s (svFrame s f) [(0x50000C, 0x500010), (0x501024 + 0x40 * n, 0x501028 + 0x40 * n)] := by
  have hn : n < 64 := svCands_lt (hc ▸ List.mem_singleton_self n)
  have hlearn := svLearn_step s f n
  have hst : subState (svLearn s f (some n)) n = subState s n := svLearn_rd s f hn (by omega)
  have hbad := confrevBad_step (svLearn s f (some n)) n a.confrev
  rw [svFrame_badRev hc hw hname hauth ha hrev]
  refine ⟨confrevBad_invalid .., confrevBad_stuck .., fun h5 => (confrevBad_rev _ _ _ (hst ▸ h5)).trans (svLearn_rd s f hn (by omega)),
    hbad.fifo.trans hlearn.fifo, sameBytes_of_mem (hbad.mem.trans hlearn.mem),
    regsKept_trans (hlearn.flds.regsKept ?_) (hbad.flds.regsKept ?_)⟩
  · exact ⟨within_head (by omega), within_head (by omega), within_tail (within_head (by omega)), within_tail (within_head (by omega))⟩
  · exact ⟨within_tail (within_head (by omega)), within_tail (within_head (by omega))⟩

end Learned

/-! ### The next sample in count (R131, R134, R137) -/

/-- t_nom of a timed ASDU that arrived at `ta` (R131). -/
def asduNom (s : State) (n ta : Nat) (a : SvAsdu) : Nat := wholeSec ta a.cnt (svSubRate s n) * 1000000000 + cntNs a.cnt (svSubRate s n)

/-- Sample `a` is the next in count of the VALID, timed subscription `n`, after number `li` with smpCnt `lc`, and inside its deadline. -/
structure NextSample (s : State) (n ta : Nat) (a : SvAsdu) (li lc lt lb : Nat) : Prop where
  sync : a.sync = 2
  valid : subState s n = 2
  timed : (subOf s n).timed = some true
  calm : (subOf s n).restart = false
  last : (subOf s n).last = some (li, lc, lt, lb)
  next : cntAhead lc a.cnt (svSubRate s n) = 1
  due : (subOf s n).due ≤ li + 1
  unseen : (subOf s n).seen.contains (li + 1) = false
  fab : s.pg 1 = true
  inTime : s.activeNs ≤ asduNom s n ta a + maxdly s n

/-- Sample number `idx` is the last accepted one. -/
def sampleTaken (s : State) (n ta idx : Nat) (a : SvAsdu) : State :=
  setSub s n { svTake (subOf s n) 2 idx with
    last := some (idx, a.cnt, asduNom s n ta a - mudly s n, wholeSec ta a.cnt (svSubRate s n)) }

/-- It enters the FIFO with the time of R131 and the flags of its qualities. -/
def sampleQueued (s : State) (n ta idx : Nat) (a : SvAsdu) : State :=
  setSvi (sampleTaken s n ta idx a) { (sampleTaken s n ta idx a).svi with
    fifo := s.svi.fifo ++ [⟨n, idx, asduNom s n ta a - mudly s n, false, a.vals.map fun e => (e.1.toInt, qualFlags e.2)⟩] }

section Queued
variable (s : State) (n ta idx : Nat) (a : SvAsdu)

theorem sampleQueued_regs : (sampleQueued s n ta idx a).regs = s.regs := rfl

theorem sampleQueued_mem : (sampleQueued s n ta idx a).mem = s.mem := rfl

theorem sampleQueued_fifo : (sampleQueued s n ta idx a).svi.fifo = s.svi.fifo ++
    [⟨n, idx, asduNom s n ta a - mudly s n, false, a.vals.map fun e => (e.1.toInt, qualFlags e.2)⟩] := rfl

theorem sampleQueued_last : (subOf (sampleQueued s n ta idx a) n).last =
    some (idx, a.cnt, asduNom s n ta a - mudly s n, wholeSec ta a.cnt (svSubRate s n)) := by
  have hsub : subOf (sampleQueued s n ta idx a) n = subOf (sampleTaken s n ta idx a) n := rfl
  rw [hsub, sampleTaken, subOf_setSub]

end Queued

theorem acceptState_valid {s : State} {n : Nat} (h : subState s n = 2) : acceptState s n = s := by
  simp [acceptState, h]

theorem svNumber_valid {x : SvSub} {li lc lt lb r c b : Nat} {exact : Bool} (hl : x.last = some (li, lc, lt, lb)) (hn : cntAhead lc c r = 1) :
    svNumber x 2 r c b exact = li + 1 := by
  simp only [svNumber, hl, hn]
  rfl

theorem svTaken_next {x : SvSub} {i : Nat} (hd : x.due ≤ i) (hs : x.seen.contains i = false) : svTaken x i = false := by
  rw [svTaken, hs, decide_eq_false (Nat.not_lt.mpr hd), Bool.and_false, Bool.false_and, Bool.or_false]

theorem svAsdu_next {s : State} {n ta li lc lt lb : Nat} {a : SvAsdu} {f : SvFrame} (h : NextSample s n ta a li lc lt lb) (hsim : f.sim = false) :
    (svAsdu n f ta 1 true (s, 0) a).1 = sampleQueued s n ta (li + 1) a := by
  obtain ⟨hsync, hvalid, -, hcalm, hlast, hnext, hdue, hseen, hfab, htime⟩ := h
  have htake : svTaken (subOf s n) (li + 1) = false := svTaken_next hdue hseen
  have hnum (b : Nat) (e : Bool) := svNumber_valid (b := b) (exact := e) hlast hnext
  have hlate : ¬ (wholeSec ta a.cnt (svSubRate s n) * 1000000000 + cntNs a.cnt (svSubRate s n) + maxdly s n < s.activeNs) := Nat.not_lt.mpr htime
  have hacc := acceptState_valid (s := sampleQueued s n ta (li + 1) a) hvalid
  rw [← hacc]
  have hpg : ∀ x, (setSub s n x).pg 1 = true := fun _ => hfab
  simp only [svAsdu, hsync, hvalid, hnum, htake, hlast, hcalm, hsim, hpg, syncTimed]
  simp [Nat.not_lt.mpr hdue, hlate]
  rfl

/-! ### The frame that bears it (R124, R131) -/

/-- A frame is counted, its smpSynch shown and its delivery delay recorded. -/
def frameCounted (s : State) (n ta : Nat) (a : SvAsdu) : State :=
  let u := ((setSub s n (subOf s n)).inc (R.SVI_SUBs_RX_RX n)).wr (R.SVI_SUBs_STAT_SYNC n) (syncShown a.sync)
  let d := clampI (-2147483648) 2147483647 ((ta : Int) - asduNom s n ta a)
  (u.wr (R.SVI_SUBs_DLY_DLY n) (usg 32 d)).wr (R.SVI_SUBs_DLYMAX_DLYMAX n) (usg 32 (max (sgn 32 (u.rd (R.SVI_SUBs_DLYMAX_DLYMAX n))) d))

/-- The fields that a counted frame writes. -/
def countFlds (n : Nat) : List Fld := [R.SVI_SUBs_RX_RX n, R.SVI_SUBs_STAT_SYNC n, R.SVI_SUBs_DLY_DLY n, R.SVI_SUBs_DLYMAX_DLYMAX n]

section Counted
variable (s : State) (n ta : Nat) (a : SvAsdu)

theorem frameCounted_step : SviStep (countFlds n) s (frameCounted s n ta a) :=
  (((((SviStep.refl s).setSub n _).wr (by simp [countFlds]) _).wr (by simp [countFlds]) _).wr (by simp [countFlds]) _).wr (by simp [countFlds]) _

theorem frameCounted_sub : subOf (frameCounted s n ta a) n = subOf s n := by
  have hsvi : (frameCounted s n ta a).svi = (setSub s n (subOf s n)).svi := by simp only [frameCounted, wr_svi, State.inc]
  rw [subOf_congr (congrArg Svi.sub hsvi), subOf_setSub]

theorem frameCounted_sync : (frameCounted s n ta a).rd (R.SVI_SUBs_STAT_SYNC n) = syncShown a.sync % 2 ^ 2 :=
  (rd_wr_ne _ _ (key_ne (by omega))).trans ((rd_wr_ne _ _ (key_ne (by omega))).trans (rd_wr_self ..))

variable {n} (hn : n < 64)
include hn

theorem frameCounted_rx : (frameCounted s n ta a).rd (R.SVI_SUBs_RX_RX n) = (s.rd (R.SVI_SUBs_RX_RX n) + 1) % 2 ^ 32 :=
  (rd_wr_ne _ _ (key_ne (by omega))).trans ((rd_wr_ne _ _ (key_ne (by omega))).trans ((rd_wr_ne _ _ (key_ne (by omega))).trans (rd_wr_self ..)))

end Counted

theorem svAccept_next {s : State} {n ta : Nat} {a : SvAsdu} {f : SvFrame} (ha : f.asdus = [a]) (hsim : f.sim = false) (hsync : a.sync = 2)
    (htimed : (subOf s n).timed = some true) (hcalm : (subOf s n).restart = false) :
    svAccept s n f ta = (svAsdu n f ta 1 true (frameCounted s n ta a, 0) a).1 := by
  have hsame : { subOf s n with timed := some true, restart := false } = subOf s n := by rw [← htimed, ← hcalm]
  simp only [svAccept, ha, hsim, hsync, htimed, hcalm, List.getLast?_singleton, syncTimed]
  simp [hsame, frameCounted, asduNom, hsync]

/-- Steps 5 to 8 of R124 pass. -/
theorem svSteps_passed {s : State} {n ta : Nat} {a : SvAsdu} {f : SvFrame} (ha : f.asdus = [a]) (hrev : a.confrev = svRev s n)
    (hsim : f.sim = false) (hnum : s.rd (R.SVI_SUBs_CFG_NASDU n) = 1) (hq : a.vals.length = s.rd (R.SVI_SUBs_CFG_NQTY n))
    (hcnt : a.cnt < svSubRate s n) : svSteps s n f ta = svAccept s n f ta := by
  rw [svSteps, svBadRev_one ha, if_neg (not_not.mpr hrev)]
  simp [hsim, svShapeOk, ha, hnum, hq, hcnt]

end Sys2Proof.Machine
end

section
/-! PROOFS. SAMPLE_DEADLINE: missing samples and losses (R132 to R134). -/
namespace Sys2Proof.Machine

/-! ### The deadline -/

section Deadline
variable {s : State} {n : Fin 64} {d : Nat}

theorem sampleDeadline_idle (h2 : subState s n ≠ 2) (h3 : subState s n ≠ 3) (h4 : subState s n ≠ 4) : exec (.sampleDeadline n) s = .next s :=
  congrArg Host.Outcome.next (if_pos ⟨h2, h3, h4⟩)

variable (hd : sampleDeadline s n (subOf s n).due = some d)
include hd

theorem sampleDeadline_early (h : s.activeNs < d) : exec (.sampleDeadline n) s = .next s := by
  change execSampleDeadline n s = _
  rw [execSampleDeadline, hd]
  extract_lets st
  by_cases hst : st ≠ 2 ∧ st ≠ 3 ∧ st ≠ 4
  · rw [if_pos hst]
  · rw [if_neg hst]
    exact congrArg _ (if_pos h)

theorem sampleDeadline_passed (hst : subState s n = 2 ∨ subState s n = 3 ∨ subState s n = 4) (h : d ≤ s.activeNs) :
    exec (.sampleDeadline n) s = .next (sampleMissing s n) := by
  change execSampleDeadline n s = _
  rw [execSampleDeadline, hd]
  extract_lets st
  rw [if_neg (by omega)]
  exact congrArg _ (if_neg (Nat.not_lt.mpr h))

end Deadline

/-! ### The sample is missing -/

theorem svAdvance_none {x : SvSub} (h : x.seen = []) : svAdvance x = x := by
  simp [svAdvance, h, nextDue]

/-- Sample `due` is missing, with `miss` of them in a row. -/
def missingSub (x : SvSub) (miss run : Nat) : SvSub :=
  svAdvance { x with due := x.due + 1, gone := markGone x.gone x.due, miss := miss, run := run }

theorem missingSub_shows {x : SvSub} (h : x.seen = []) (miss run : Nat) :
    (missingSub x miss run).due = x.due + 1 ∧ (missingSub x miss run).miss = miss := by
  rw [missingSub, svAdvance_none (x := { x with due := x.due + 1, gone := _, miss := miss, run := run }) h]
  exact ⟨rfl, rfl⟩

/-- The missing sample is counted. -/
def missCounted (s : State) (n : Nat) (x : SvSub) : State := (setSub s n x).sat1 (R.SVI_SUBs_MISS_MISSING n)

theorem missCounted_kept (s : State) (n : Nat) (x : SvSub) : KeptBut s (missCounted s n x) [R.SVI_SUBs_MISS_MISSING n] :=
  ((SviStep.refl s).setSub n x).flds.wr (List.mem_singleton_self _) _

theorem missCounted_rd (s : State) (n : Nat) (x : SvSub) :
    (missCounted s n x).rd (R.SVI_SUBs_MISS_MISSING n) = min (s.rd (R.SVI_SUBs_MISS_MISSING n) + 1) 65535 := rd_sat1_self (setSub s n x) rfl

section Missing
variable {s : State} {n : Nat} (hn : n < 64)
include hn

/-- Configuration, which an image loads, stays. -/
theorem missCounted_img (x : SvSub) {f : Fld} (hf : f.dom = .img) : (missCounted s n x).rd f = s.rd f := by
  refine missCounted_kept s n x f (ne_of_gt ?_ : _ ≠ _)
  simp only [Fld.key, hf, Dom.num, R.SVI_SUBs_MISS_MISSING]
  omega

theorem svChans_missCounted (x : SvSub) (sub : Nat) : svChans (missCounted s n x) sub = svChans s sub := by
  have himg {f : Fld} (hf : f.dom = .img) : (missCounted s n x).rd f = s.rd f := missCounted_img hn x hf
  have hon {f : Fld} (hf : f.dom = .img) : (missCounted s n x).on f = s.on f := on_of_rd (himg hf)
  have hsub (m : Nat) : svSub (missCounted s n x) m = svSub s m := himg rfl
  have hmap (m : Nat) : svMapped (missCounted s n x) m = svMapped s m := by
    rw [svMapped, svMapped, hsub, hon rfl, hon rfl, himg rfl, himg rfl]
  have hfed : svFed (missCounted s n x) sub = svFed s sub := List.filter_congr fun m _ => by
    rw [isLocal, isLocal, hmap, hsub, hon rfl]
  rw [svChans, svChans, hfed]
  exact List.filter_congr fun m _ => hon rfl

end Missing

/-! ### In LOST (R133) -/

section Lost
variable {s : State} {n : Nat} (h3 : subState s n = 3)
include h3

theorem sampleMissing_lost : sampleMissing s n = missCounted s n (missingSub (subOf s n) (subOf s n).miss (subOf s n).run) := by
  simp [sampleMissing, h3, missCounted, missingSub]

theorem sampleMissing_lost_counts (hn : n < 64) : (sampleMissing s n).rd (R.SVI_SUBs_MISS_MISSING n) = min (s.rd (R.SVI_SUBs_MISS_MISSING n) + 1) 65535 ∧
    (sampleMissing s n).rd (R.SVI_SUBs_STAT_STATE n) = 3 ∧ SameBytes s (sampleMissing s n) ∧
    ((subOf s n).seen = [] → (subOf (sampleMissing s n) n).due = (subOf s n).due + 1) ∧
    RegsKept s (sampleMissing s n) [(0x501034 + 0x40 * n, 0x501038 + 0x40 * n)] := by
  rw [sampleMissing_lost h3]
  refine ⟨missCounted_rd s n _, (missCounted_kept s n _ _ (key_ne (by omega))).trans h3, fun _ => rfl, fun hs => ?_,
    (missCounted_kept s n _).regsKept (within_head (by omega))⟩
  exact (congrArg SvSub.due (subOf_setSub s n _)).trans (missingSub_shows hs _ _).1

end Lost

/-! ### In VALID and RECOVERING (R133, R134) -/

/-- The third missing sample in a row: the subscription is LOST. -/
def lossShown (s : State) (n : Nat) : State :=
  (((setSubState s n 3).sat1 (R.SVI_SUBs_MISS_LOSSES n)).wrb (R.SVI_SUBs_STAT_LOST_STK n) true).logIx 5 3 n

/-- The fields that a loss writes. -/
def lossFlds (n : Nat) : List Fld := [R.SVI_SUBs_STAT_STATE n, R.SVI_SUBs_MISS_LOSSES n, R.SVI_SUBs_STAT_LOST_STK n]

section Loss
variable (s : State) (n : Nat)

theorem lossShown_step : SviStep (lossFlds n) s (lossShown s n) :=
  ((((SviStep.refl s).setSubState (by simp [lossFlds]) 3).sat1 (by simp [lossFlds])).wrb (by simp [lossFlds]) true).logEv _ _ _

theorem lossShown_sub : subOf (lossShown s n) n = subOf s n := subOf_congr (congrArg Svi.sub (setSubState_svi s n 3)) n

theorem lossShown_lost : subState (lossShown s n) n = 3 :=
  (rd_of_regs (logIx_regs ..) _).trans ((rd_wrb_ne _ _ (key_ne (by omega))).trans ((rd_sat1_ne _ (key_ne (by omega))).trans
    (subState_setSubState s n 3 (by decide))))

theorem lossShown_stuck : (lossShown s n).on (R.SVI_SUBs_STAT_LOST_STK n) = true :=
  (on_of_rd (rd_of_regs (logIx_regs ..) _)).trans (on_wrb_self _ _ _ rfl)

theorem lossShown_losses : (lossShown s n).rd (R.SVI_SUBs_MISS_LOSSES n) = min (s.rd (R.SVI_SUBs_MISS_LOSSES n) + 1) 65535 := by
  have hkeep : (setSubState s n 3).rd (R.SVI_SUBs_MISS_LOSSES n) = s.rd (R.SVI_SUBs_MISS_LOSSES n) := setSubState_kept s n 3 _ (key_ne (by omega))
  refine (rd_of_regs (logIx_regs ..) _).trans ((rd_wrb_ne _ _ (key_ne (by omega))).trans ((rd_sat1_self _ rfl).trans ?_))
  rw [hkeep]

end Loss

section Live
variable {s : State} {n : Nat} (hst : subState s n = 2 ∨ subState s n = 4) (hback : (subOf s n).back ≤ (subOf s n).due)
  (hch : svChans s n = [])
include hst hback hch

/-- Without a resampler to feed, a missing sample is counted, and the third in a row is a loss. -/
theorem sampleMissing_live (hn : n < 64) : ∃ run, sampleMissing s n =
    if (subOf s n).miss = 2 then lossShown (missCounted s n (missingSub (subOf s n) ((subOf s n).miss + 1) run)) n
    else missCounted s n (missingSub (subOf s n) ((subOf s n).miss + 1) run) := by
  have hlive : (subState s n != 3 && decide ((subOf s n).back ≤ (subOf s n).due)) = true := by
    rw [decide_eq_true hback, Bool.and_true, bne_iff_ne]
    omega
  refine ⟨if subState s n == 4 then 0 else (subOf s n).run, ?_⟩
  have hnone (x : SvSub) : svChans ((setSub s n x).sat1 (R.SVI_SUBs_MISS_MISSING n)) n = [] := (svChans_missCounted hn x n).trans hch
  simp only [sampleMissing, hlive, hnone, Bool.true_and, List.foldl_nil, ite_self, missCounted, missingSub, lossShown]
  simp

theorem sampleMissing_live_counts (hn : n < 64) (hseen : (subOf s n).seen = []) :
    (sampleMissing s n).rd (R.SVI_SUBs_MISS_MISSING n) = min (s.rd (R.SVI_SUBs_MISS_MISSING n) + 1) 65535 ∧
    (subOf (sampleMissing s n) n).due = (subOf s n).due + 1 ∧ (subOf (sampleMissing s n) n).miss = (subOf s n).miss + 1 ∧
    SameBytes s (sampleMissing s n) ∧
    ((subOf s n).miss = 2 → (sampleMissing s n).rd (R.SVI_SUBs_STAT_STATE n) = 3 ∧ (sampleMissing s n).on (R.SVI_SUBs_STAT_LOST_STK n) = true ∧
      (sampleMissing s n).rd (R.SVI_SUBs_MISS_LOSSES n) = min (s.rd (R.SVI_SUBs_MISS_LOSSES n) + 1) 65535) ∧
    ((subOf s n).miss ≠ 2 → (sampleMissing s n).rd (R.SVI_SUBs_STAT_STATE n) = s.rd (R.SVI_SUBs_STAT_STATE n)) ∧
    RegsKept s (sampleMissing s n) [(0x501024 + 0x40 * n, 0x501028 + 0x40 * n), (0x501034 + 0x40 * n, 0x501038 + 0x40 * n)] := by
  obtain ⟨run, heq⟩ := sampleMissing_live hst hback hch hn
  generalize hx : missingSub (subOf s n) ((subOf s n).miss + 1) run = x at heq
  obtain ⟨hdue, hmiss⟩ := hx ▸ missingSub_shows hseen ((subOf s n).miss + 1) run
  have hsub : subOf (missCounted s n x) n = x := subOf_setSub s n x
  have hcount := missCounted_rd s n x
  have hkept := missCounted_kept s n x
  have hregs : RegsKept s (missCounted s n x) [(0x501024 + 0x40 * n, 0x501028 + 0x40 * n), (0x501034 + 0x40 * n, 0x501038 + 0x40 * n)] :=
    hkept.regsKept (within_tail (within_head (by omega)))
  have hmem : (missCounted s n x).mem = s.mem := rfl
  have hlosses : (missCounted s n x).rd (R.SVI_SUBs_MISS_LOSSES n) = s.rd (R.SVI_SUBs_MISS_LOSSES n) := hkept _ (key_ne (by omega))
  generalize missCounted s n x = u at *
  rw [heq]
  split
  next h2 =>
    have hloss := lossShown_step u n
    refine ⟨(hloss.flds _ ⟨key_ne (by omega), key_ne (by omega), key_ne (by omega)⟩).trans hcount, ?_, ?_,
      sameBytes_of_mem (hloss.mem.trans hmem), fun _ => ⟨lossShown_lost u n, lossShown_stuck u n, ?_⟩, fun hne => absurd h2 hne,
      regsKept_trans hregs (hloss.flds.regsKept ⟨within_head (by omega), within_tail (within_head (by omega)), within_head (by omega)⟩)⟩
    · rw [lossShown_sub, hsub, hdue]
    · rw [lossShown_sub, hsub, hmiss]
    · rw [lossShown_losses, hlosses]
  next h2 =>
    exact ⟨hcount, by rw [hsub, hdue], by rw [hsub, hmiss], sameBytes_of_mem hmem, fun he => absurd he h2,
      fun _ => hkept _ (key_ne (by omega)), hregs⟩

end Live

end Sys2Proof.Machine
end

section
/-! PROOFS. Configuration of subscriptions and mappings (R122, R123, R136, R145). -/
namespace Sys2Proof.Machine

/-! ### SVI_SUBs_CFG -/

/-- The fields of SVI_SUBs_CFG and what a word holds for them. -/
def svCfgFields (n v : Nat) : List (Fld × Nat) :=
  [(R.SVI_SUBs_CFG_EN n, v / 2 ^ 31), (R.SVI_SUBs_CFG_AUTH n, v / 2 ^ 30 % 2), (R.SVI_SUBs_CFG_SIMOK n, v / 2 ^ 29 % 2),
    (R.SVI_SUBs_CFG_LOCALQ n, v / 2 ^ 28 % 2), (R.SVI_SUBs_CFG_RATE n, v / 2 ^ 25 % 8), (R.SVI_SUBs_CFG_NASDU n, v / 2 ^ 21 % 16),
    (R.SVI_SUBs_CFG_NQTY n, v / 2 ^ 16 % 32), (R.SVI_SUBs_CFG_RECOV n, v / 256 % 256), (R.SVI_SUBs_CFG_KSLOT n, v % 256)]

/-- Those that a write of the word stores: values that the field tables call ignored are left out. -/
def svCfgWrites (n v : Nat) : List (Fld × Nat) :=
  (svCfgFields n v).take 4 ++ (if v / 2 ^ 25 % 8 < 5 then [(R.SVI_SUBs_CFG_RATE n, v / 2 ^ 25 % 8)] else []) ++
  (if 1 ≤ v / 2 ^ 21 % 16 ∧ v / 2 ^ 21 % 16 ≤ 8 then [(R.SVI_SUBs_CFG_NASDU n, v / 2 ^ 21 % 16)] else []) ++
  (if 1 ≤ v / 2 ^ 16 % 32 ∧ v / 2 ^ 16 % 32 ≤ 24 then [(R.SVI_SUBs_CFG_NQTY n, v / 2 ^ 16 % 32)] else []) ++
  (svCfgFields n v).drop 7

theorem wrAll_append (s : State) (l l' : List (Fld × Nat)) : wrAll s (l ++ l') = wrAll (wrAll s l) l' := List.foldl_append

theorem wrAll_ite_singleton (s : State) (c : Prop) [Decidable c] (f : Fld) (v : Nat) :
    wrAll s (if c then [(f, v)] else []) = if c then s.wr f v else s := by
  split <;> rfl

theorem ite_singleton_sublist {α : Type} (c : Prop) [Decidable c] (x : α) : (if c then [x] else []).Sublist [x] := by
  split
  · exact List.Sublist.refl _
  · exact List.nil_sublist _

theorem svCfgWrites_sublist (n v : Nat) : (svCfgWrites n v).Sublist (svCfgFields n v) :=
  (((((List.Sublist.refl _).append (ite_singleton_sublist ..)).append (ite_singleton_sublist ..)).append (ite_singleton_sublist ..)).append
    (List.Sublist.refl _))

theorem svCfgWrites_pairwise (n v : Nat) : (svCfgWrites n v).Pairwise fun x y => x.1.key ≠ y.1.key := by
  have hlo : ((svCfgFields n v).map fun e => e.1.lo).Pairwise fun a b => a < 32 ∧ b < 32 ∧ a ≠ b := by
    change [31, 30, 29, 28, 25, 21, 16, 8, 0].Pairwise _
    decide
  refine ((List.pairwise_map.mp hlo).imp fun {x y} h he => ?_).sublist (svCfgWrites_sublist n v)
  simp only [Fld.key] at he
  omega

theorem svCfgWrites_within {n v : Nat} (hn : n < 64) {l : List (Nat × Nat)} :
    ((svCfgWrites n v).map Prod.fst).Forall fun f => Within f ((0x501000 + 0x40 * n, 0x501004 + 0x40 * n) :: l) := by
  have hall : ((svCfgFields n v).map Prod.fst).Forall fun f => Within f ((0x501000 + 0x40 * n, 0x501004 + 0x40 * n) :: l) :=
    ⟨within_head (by omega), within_head (by omega), within_head (by omega), within_head (by omega), within_head (by omega),
      within_head (by omega), within_head (by omega), within_head (by omega), within_head (by omega)⟩
  rw [List.forall_iff_forall_mem] at hall ⊢
  exact fun f hf => hall f (((svCfgWrites_sublist n v).map _).subset hf)

/-- A field beside the one range of registers that may change. -/
theorem RegsKept.rd_outside {s t : State} {x y : Nat} (h : RegsKept s t [(x, y)]) {d : Dom} {a lo w r : Nat} {c : Acc}
    (hf : lo < 32 ∧ a < 0x4000000 ∧ (a < x ∨ y ≤ a)) : t.rd ⟨d, a, lo, w, c, r⟩ = s.rd ⟨d, a, lo, w, c, r⟩ :=
  h _ hf.1 hf.2.1 fun z hz hin => by
    rw [List.mem_singleton.mp hz] at hin
    dsimp only at hin
    omega

section Store
variable (s : State) (n v : Nat)

theorem storeSvCfg_eq_wrAll : storeSvCfg s n v = wrAll s (svCfgWrites n v) := by
  simp only [svCfgWrites, wrAll_append, wrAll_ite_singleton]
  rfl

variable {n v} in
theorem storeSvCfg_rd {f : Fld} {x : Nat} (h : (f, x) ∈ svCfgWrites n v) : (storeSvCfg s n v).rd f = x % 2 ^ f.w :=
  storeSvCfg_eq_wrAll s n v ▸ rd_wrAll (svCfgWrites_pairwise n v) h s

variable {n} in
theorem storeSvCfg_kept (hn : n < 64) (l : List (Nat × Nat)) :
    RegsKept s (storeSvCfg s n v) ((0x501000 + 0x40 * n, 0x501004 + 0x40 * n) :: l) :=
  storeSvCfg_eq_wrAll s n v ▸ (wrAll_kept s (svCfgWrites n v)).regsKept (svCfgWrites_within hn)

end Store

/-- A bit of a written word, as a flag reads it. -/
theorem on_of_rd_bit {s : State} {f : Fld} {x k : Nat} (h : s.rd f = x / 2 ^ k % 2) : s.on f = x.testBit k := by
  rw [State.on, h, Nat.testBit_eq_decide_div_mod_eq]
  rcases Nat.mod_two_eq_zero_or_one (x / 2 ^ k) with h0 | h0 <;> rw [h0] <;> rfl

theorem storeSvCfg_shows (s : State) (n : Nat) (v : BitVec 32) :
    (storeSvCfg s n v.toNat).on (R.SVI_SUBs_CFG_EN n) = v.getLsbD 31 ∧ (storeSvCfg s n v.toNat).on (R.SVI_SUBs_CFG_AUTH n) = v.getLsbD 30 ∧
    (storeSvCfg s n v.toNat).on (R.SVI_SUBs_CFG_SIMOK n) = v.getLsbD 29 ∧
    (v.toNat / 2 ^ 25 % 8 < 5 → (storeSvCfg s n v.toNat).rd (R.SVI_SUBs_CFG_RATE n) = v.toNat / 2 ^ 25 % 8) ∧
    (storeSvCfg s n v.toNat).rd (R.SVI_SUBs_CFG_KSLOT n) = v.toNat % 256 := by
  refine ⟨on_of_rd_bit ?_, on_of_rd_bit ?_, on_of_rd_bit ?_, fun hr => ?_, ?_⟩
  · exact storeSvCfg_rd s (by simp [svCfgWrites, svCfgFields])
  · exact (storeSvCfg_rd s (x := v.toNat / 2 ^ 30 % 2) (by simp [svCfgWrites, svCfgFields])).trans (Nat.mod_mod ..)
  · exact (storeSvCfg_rd s (x := v.toNat / 2 ^ 29 % 2) (by simp [svCfgWrites, svCfgFields])).trans (Nat.mod_mod ..)
  · exact (storeSvCfg_rd s (x := v.toNat / 2 ^ 25 % 8) (by simp only [svCfgWrites, if_pos hr]; simp)).trans (Nat.mod_mod ..)
  · exact (storeSvCfg_rd s (x := v.toNat % 256) (by simp [svCfgWrites, svCfgFields])).trans (Nat.mod_mod ..)

/-! ### WAIT and OFF (R123, R134) -/

section Restart
variable (s : State) (n : Nat)

theorem svRestart_kept : KeptBut s (svRestart s n) [R.SVI_SUBs_STAT_DIRV n, R.SVI_SUBs_STAT_STATE n] := by
  unfold svRestart
  extract_lets x u
  have hdirv : KeptBut s ((unlinkSub u false n).wrb (R.SVI_SUBs_STAT_DIRV n) false) [R.SVI_SUBs_STAT_DIRV n, R.SVI_SUBs_STAT_STATE n] :=
    (keptBut_of_regs (t := unlinkSub u false n) rfl _).wrb List.mem_cons_self false
  exact hdirv.trans ((setSubState_kept _ n _).mono (by simp))

theorem svRestart_state : subState (svRestart s n) n = if subOn s n then 1 else 0 := by
  unfold svRestart
  extract_lets x u
  exact subState_setSubState _ n _ (by split <;> decide)

theorem svRestart_restart : (subOf (svRestart s n) n).restart = true := by
  unfold svRestart
  extract_lets x u
  rw [subOf_congr (congrArg Svi.sub (setSubState_svi ..)) n]
  exact congrArg SvSub.restart (subOf_setSub s n _)

variable {n} in
theorem svRestart_regsKept (hn : n < 64) {l : List (Nat × Nat)} (hl : (0x501024 + 0x40 * n, 0x501028 + 0x40 * n) ∈ l) :
    RegsKept s (svRestart s n) l :=
  regsKept_mono ((svRestart_kept s n).regsKept (r := [(0x501024 + 0x40 * n, 0x501028 + 0x40 * n)])
    ⟨within_head (by omega), within_head (by omega)⟩) (by simpa using hl)

end Restart

/-! ### Writes to a subscription (R123, R136) -/

section Write
variable {s : State} {n : Fin 64} {r : SvReg} {v : BitVec 32}

theorem svSubConfigWrite_locked (h : s.on R.SVI_CTL_LOCK = true) : exec (.svSubConfigWrite n r v) s = .next s :=
  congrArg Host.Outcome.next (if_pos h)

/-- What a stored register leads to: an enabled INVALID subscription stays, another that was or is enabled starts anew. -/
def svStored (s t : State) (n : Nat) : State :=
  if subState s n = 5 ∧ subOn t n = true then t else if (subOn s n || subOn t n) = true then svRestart t n else t

variable (h : s.on R.SVI_CTL_LOCK = false)
include h

theorem exec_svSubConfigWrite : exec (.svSubConfigWrite n r v) s = .next (svStored s (storeSvReg s n r v.toNat) n) :=
  congrArg Host.Outcome.next (if_neg (ne_true_of_eq_false h))

end Write

section Stored
variable {s t : State} {n : Nat}

/-- A subscription that is enabled after the write is in WAIT, or stays INVALID. -/
theorem svStored_on (ht : subState t n = subState s n) (hon : subOn t n = true) :
    subState (svStored s t n) n = (if subState s n = 5 then 5 else 1) ∧ (subState s n ≠ 5 → (subOf (svStored s t n) n).restart = true) := by
  unfold svStored
  by_cases h5 : subState s n = 5
  · rw [if_pos ⟨h5, hon⟩, if_pos h5]
    exact ⟨ht.trans h5, fun hne => absurd h5 hne⟩
  · rw [if_neg fun h => h5 h.1, if_pos (by rw [hon, Bool.or_true]), if_neg h5]
    exact ⟨(svRestart_state t n).trans (if_pos hon), fun _ => svRestart_restart t n⟩

theorem svStored_off (hwas : subOn s n = true) (hoff : subOn t n = false) : subState (svStored s t n) n = 0 := by
  rw [svStored, if_neg fun h => by rw [hoff] at h; exact Bool.noConfusion h.2, if_pos (by rw [hwas, Bool.true_or]), svRestart_state, hoff]
  rfl

theorem svStored_disabled (hwas : subOn s n = false) (hoff : subOn t n = false) : svStored s t n = t := by
  simp [svStored, hwas, hoff]

theorem svStored_kept : KeptBut t (svStored s t n) [R.SVI_SUBs_STAT_DIRV n, R.SVI_SUBs_STAT_STATE n] := by
  unfold svStored
  split
  · exact keptBut_refl t _
  · split
    · exact svRestart_kept t n
    · exact keptBut_refl t _

theorem svStored_mem : (svStored s t n).mem = t.mem := by
  unfold svStored
  split
  · rfl
  · split
    · exact svRestart_mem t n
    · rfl

end Stored

section Commands
variable {s : State} {n : Fin 64} {r : SvReg} {v : BitVec 32} (h : s.on R.SVI_CTL_LOCK = false)
include h

theorem svSubConfigWrite_cfg : Runs (.svSubConfigWrite n .cfg v) s fun t => t.on (R.SVI_SUBs_CFG_EN n) = v.getLsbD 31 ∧
      t.on (R.SVI_SUBs_CFG_AUTH n) = v.getLsbD 30 ∧ t.on (R.SVI_SUBs_CFG_SIMOK n) = v.getLsbD 29 ∧
      (v.toNat / 2 ^ 25 % 8 < 5 → t.rd (R.SVI_SUBs_CFG_RATE n) = v.toNat / 2 ^ 25 % 8) ∧ t.rd (R.SVI_SUBs_CFG_KSLOT n) = v.toNat % 256 ∧
      (v.getLsbD 31 = true → t.rd (R.SVI_SUBs_STAT_STATE n) = if s.rd (R.SVI_SUBs_STAT_STATE n) = 5 then 5 else 1) ∧
      (v.getLsbD 31 = false → s.on (R.SVI_SUBs_CFG_EN n) = true → t.rd (R.SVI_SUBs_STAT_STATE n) = 0) ∧ SameBytes s t ∧
      RegsKept s t [(0x501000 + 0x40 * n.val, 0x501004 + 0x40 * n.val), (0x501024 + 0x40 * n.val, 0x501028 + 0x40 * n.val)] := by
  have hn := n.isLt
  obtain ⟨hen, hauth, hsim, hrate, hslot⟩ := storeSvCfg_shows s n v
  have hcfg := storeSvCfg_kept s (n := n) v.toNat hn [(0x501024 + 0x40 * n.val, 0x501028 + 0x40 * n.val)]
  have hstate : subState (storeSvCfg s n v.toNat) n = subState s n := (storeSvCfg_kept s v.toNat hn []).rd_outside (by omega)
  have hmem : (storeSvCfg s n v.toNat).mem = s.mem := storeSvCfg_mem ..
  refine ⟨_, exec_svSubConfigWrite h, ?_⟩
  rw [storeSvReg]
  generalize storeSvCfg s n v.toNat = u at *
  have hkept := svStored_kept (s := s) (t := u) (n := n)
  have hfree {d : Dom} {lo w r : Nat} {c : Acc} (hlo : lo < 32) : (svStored s u n).rd ⟨d, 0x501000 + 0x40 * n, lo, w, c, r⟩ =
      u.rd ⟨d, 0x501000 + 0x40 * n, lo, w, c, r⟩ := hkept _ ⟨key_ne (by omega), key_ne (by omega)⟩
  refine ⟨(on_of_rd (hfree (by decide))).trans hen, (on_of_rd (hfree (by decide))).trans hauth, (on_of_rd (hfree (by decide))).trans hsim,
    fun hr => (hfree (by decide)).trans (hrate hr), (hfree (by decide)).trans hslot, fun hon => (svStored_on hstate (hen.trans hon)).1,
    fun hoff hwas => svStored_off hwas (hen.trans hoff), sameBytes_of_mem (svStored_mem.trans hmem), ?_⟩
  exact regsKept_trans hcfg (hkept.regsKept ⟨within_tail (within_head (by omega)), within_tail (within_head (by omega))⟩)

end Commands

/-- Each register of a subscription but SVI_SUBs_CFG is one field, which takes the word. -/
theorem storeSvReg_field (s : State) (n v : Nat) {r : SvReg} (hr : r ≠ .cfg) : ∃ a w x, storeSvReg s n r v = s.wr ⟨.img, a, 0, w, .rwl, x⟩ v ∧
    0x501004 + 0x40 * n ≤ a ∧ a < 0x501024 + 0x40 * n := by
  cases r with
  | cfg => exact absurd rfl hr
  | id => exact ⟨_, _, _, rfl, by omega⟩
  | macLo => exact ⟨_, _, _, rfl, by omega⟩
  | macHi => exact ⟨_, _, _, rfl, by omega⟩
  | confrev => exact ⟨_, _, _, rfl, by omega⟩
  | mudly => exact ⟨_, _, _, rfl, by omega⟩
  | nomdly => exact ⟨_, _, _, rfl, by omega⟩
  | maxdly => exact ⟨_, _, _, rfl, by omega⟩

section Others
variable {s : State} {n : Fin 64} {r : SvReg} {v : BitVec 32} (h : s.on R.SVI_CTL_LOCK = false) (hr : r ≠ .cfg)
include h hr

theorem svSubConfigWrite_enabled (hon : s.on (R.SVI_SUBs_CFG_EN n) = true) : Runs (.svSubConfigWrite n r v) s fun t =>
      t.rd (R.SVI_SUBs_STAT_STATE n) = (if s.rd (R.SVI_SUBs_STAT_STATE n) = 5 then 5 else 1) ∧
      (s.rd (R.SVI_SUBs_STAT_STATE n) ≠ 5 → (subOf t n).restart = true) ∧ SameBytes s t ∧
      RegsKept s t [(0x501004 + 0x40 * n.val, 0x501028 + 0x40 * n.val)] := by
  have hn := n.isLt
  obtain ⟨a, w, x, hst, hlo, hhi⟩ := storeSvReg_field s n v.toNat hr
  have hstate : subState (storeSvReg s n r v.toNat) n = subState s n := by
    rw [hst]
    exact rd_wr_ne s _ (key_ne (by omega))
  have hen : subOn (storeSvReg s n r v.toNat) n = true := by
    rw [hst]
    exact (on_of_rd (rd_wr_ne s _ (key_ne (by omega)))).trans hon
  obtain ⟨hwait, hagain⟩ := svStored_on hstate hen
  refine ⟨_, exec_svSubConfigWrite h, hwait, hagain, sameBytes_of_mem (svStored_mem.trans (storeSvReg_mem ..)), ?_⟩
  refine regsKept_trans ?_ (svStored_kept.regsKept ⟨within_head (by omega), within_head (by omega)⟩)
  rw [hst]
  exact regsKept_wr (within_head (by omega)) (regsKept_refl s _) _

theorem svSubConfigWrite_disabled (hoff : s.on (R.SVI_SUBs_CFG_EN n) = false) :
    exec (.svSubConfigWrite n r v) s = .next (storeSvReg s n r v.toNat) := by
  have hn := n.isLt
  obtain ⟨a, w, x, hst, hlo, hhi⟩ := storeSvReg_field s n v.toNat hr
  have hen : subOn (storeSvReg s n r v.toNat) n = false := by
    rw [hst]
    exact (on_of_rd (rd_wr_ne s _ (key_ne (by omega)))).trans hoff
  rw [exec_svSubConfigWrite h, svStored_disabled hoff hen]

end Others

/-! ### SVI_MAPm (R122, R145) -/

section Map
variable (s : State) (m : Nat) (en : Bool) (sub q : Nat)

/-- The mapping as written; a quantity of 24 or more is ignored. -/
def mapStored : State :=
  if q < 24 then ((s.wrb (R.SVI_MAPm_EN m) en).wr (R.SVI_MAPm_SUB m) sub).wr (R.SVI_MAPm_QTY m) q
  else (s.wrb (R.SVI_MAPm_EN m) en).wr (R.SVI_MAPm_SUB m) sub

/-- Is a mapping the same as before? -/
def mapSame (s t : State) (m : Nat) : Bool :=
  s.on (R.SVI_MAPm_EN m) == t.on (R.SVI_MAPm_EN m) && s.rd (R.SVI_MAPm_SUB m) == t.rd (R.SVI_MAPm_SUB m) &&
    s.rd (R.SVI_MAPm_QTY m) == t.rd (R.SVI_MAPm_QTY m)

theorem mapStored_kept : KeptBut s (mapStored s m en sub q) [R.SVI_MAPm_EN m, R.SVI_MAPm_SUB m, R.SVI_MAPm_QTY m] := by
  have hkept : KeptBut s ((s.wrb (R.SVI_MAPm_EN m) en).wr (R.SVI_MAPm_SUB m) sub) [R.SVI_MAPm_EN m, R.SVI_MAPm_SUB m, R.SVI_MAPm_QTY m] :=
    ((keptBut_refl s _).wrb (by simp) en).wr (by simp) sub
  unfold mapStored
  split
  · exact hkept.wr (by simp) q
  · exact hkept

theorem mapStored_on : (mapStored s m en sub q).on (R.SVI_MAPm_EN m) = en := by
  have hen : ((s.wrb (R.SVI_MAPm_EN m) en).wr (R.SVI_MAPm_SUB m) sub).on (R.SVI_MAPm_EN m) = en :=
    (on_of_rd (rd_wr_ne _ _ (key_ne (by omega)))).trans (on_wrb_self s _ en rfl)
  unfold mapStored
  split
  · exact (on_of_rd (rd_wr_ne _ _ (key_ne (by omega)))).trans hen
  · exact hen

variable {sub} in
theorem mapStored_sub (h : sub < 64) : (mapStored s m en sub q).rd (R.SVI_MAPm_SUB m) = sub := by
  have hsub : ((s.wrb (R.SVI_MAPm_EN m) en).wr (R.SVI_MAPm_SUB m) sub).rd (R.SVI_MAPm_SUB m) = sub :=
    (rd_wr_self ..).trans (Nat.mod_eq_of_lt h)
  unfold mapStored
  split
  · exact (rd_wr_ne _ _ (key_ne (by omega))).trans hsub
  · exact hsub

variable {q} in
theorem mapStored_qty (h : q < 24) : (mapStored s m en sub q).rd (R.SVI_MAPm_QTY m) = q := by
  rw [mapStored, if_pos h]
  exact (rd_wr_self ..).trans (Nat.mod_eq_of_lt (Nat.lt_trans h (show 24 < 2 ^ 5 by decide)))

variable {q} in
theorem mapStored_qty_ignored (h : 24 ≤ q) : (mapStored s m en sub q).rd (R.SVI_MAPm_QTY m) = s.rd (R.SVI_MAPm_QTY m) := by
  rw [mapStored, if_neg (Nat.not_lt.mpr h)]
  exact (rd_wr_ne _ _ (key_ne (by omega))).trans (rd_wrb_ne _ _ (key_ne (by omega)))

theorem mapStored_mem : (mapStored s m en sub q).mem = s.mem := by
  unfold mapStored
  split <;> rfl

/-- A change of the mapping restarts a running resampler of an SV source. -/
def mapTaken (s t : State) (m : Nat) : State := if (!mapSame s t m && t.on (R.DCH_RSm_CFG_SRCSEL m) && rsRun t m) = true then restartSv t m else t

theorem mapTaken_regs (s t : State) (m : Nat) : (mapTaken s t m).regs = t.regs := by
  unfold mapTaken
  split <;> rfl

theorem mapTaken_mem (s t : State) (m : Nat) : (mapTaken s t m).mem = t.mem := by
  unfold mapTaken
  split
  · exact restartSv_mem t m
  · rfl

theorem mapTaken_restarts {s t : State} {m : Nat} (hdiff : s.rd (R.SVI_MAPm_SUB m) ≠ t.rd (R.SVI_MAPm_SUB m))
    (hsv : t.on (R.DCH_RSm_CFG_SRCSEL m) = true) (hrun : rsRun t m = true) : (rsOf (mapTaken s t m) m).hist = [] := by
  have hne : mapSame s t m = false := by simp [mapSame, hdiff]
  rw [mapTaken, if_pos (by rw [hne, hsv, hrun]; rfl), restartSv, rsOf_modRs]

end Map

section MapWrite
variable {m : Fin 192} {en : Bool} {sub : Fin 64} {q : Fin 32} {s : State}

theorem svMapWrite_locked (h : s.on R.SVI_CTL_LOCK = true) : exec (.svMapWrite m en sub q) s = .next s :=
  congrArg Host.Outcome.next (if_pos h)

theorem exec_svMapWrite (h : s.on R.SVI_CTL_LOCK = false) :
    exec (.svMapWrite m en sub q) s = .next (mapTaken s (mapStored s m en sub q) m) :=
  congrArg Host.Outcome.next (if_neg (ne_true_of_eq_false h))

theorem svMapWrite_stores (h : s.on R.SVI_CTL_LOCK = false) : Runs (.svMapWrite m en sub q) s fun t =>
      t.on (R.SVI_MAPm_EN m) = en ∧ t.rd (R.SVI_MAPm_SUB m) = sub.val ∧
      (q.val < 24 → t.rd (R.SVI_MAPm_QTY m) = q.val) ∧ (24 ≤ q.val → t.rd (R.SVI_MAPm_QTY m) = s.rd (R.SVI_MAPm_QTY m)) ∧ SameBytes s t ∧
      (s.rd (R.SVI_MAPm_SUB m) ≠ sub.val → s.on (R.DCH_RSm_CFG_SRCSEL m) = true → rsRun s m = true → (rsOf t m).hist = []) ∧
      RegsKept s t [(0x504000 + 4 * m.val, 0x504004 + 4 * m.val)] := by
  have hm := m.isLt
  have hrd (f : Fld) := rd_of_regs (mapTaken_regs s (mapStored s m en sub q) m) f
  have hkept := mapStored_kept s m en sub q
  have hsub := mapStored_sub s m en q sub.isLt
  refine ⟨_, exec_svMapWrite h, (on_of_rd (hrd _)).trans (mapStored_on ..), (hrd _).trans hsub, fun hq => (hrd _).trans (mapStored_qty _ _ _ _ hq),
    fun hq => (hrd _).trans (mapStored_qty_ignored _ _ _ _ hq), sameBytes_of_mem ((mapTaken_mem ..).trans (mapStored_mem ..)),
    fun hdiff hsv hrun => mapTaken_restarts (hsub.symm ▸ hdiff) ((on_of_rd (hkept _ ?_)).trans hsv) ((on_of_rd (hkept _ ?_)).trans hrun),
    regsKept_of_regs (hkept.regsKept ⟨within_head (by omega), within_head (by omega), within_head (by omega)⟩) (mapTaken_regs ..)⟩
  all_goals exact ⟨key_ne (by omega), key_ne (by omega), key_ne (by omega)⟩

end MapWrite

end Sys2Proof.Machine
end

section
/-! PROOFS. SV_FRAME_RECEIVE: a frame with the next sample in count, from its receipt to the FIFO (R118, R124, R131). -/
namespace Sys2Proof.Machine

/-- The fields that an accepted frame may write. -/
def frameFlds (n : Nat) : List Fld := learnFlds n ++ countFlds n

section Kept
variable {s t : State} {n : Nat} (h : SviStep (frameFlds n) s t) (hn : n < 64)
include h hn

/-- Of the subscription's status STATE stays, and so does all that lies elsewhere. -/
theorem frameFlds_rd {d : Dom} {a lo w r : Nat} {c : Acc} (hf : lo < 32 ∧ a < 0x4000000 ∧ a ≠ 0x50000C ∧
    (a < 0x501024 + 0x40 * n ∨ 0x501034 + 0x40 * n ≤ a ∨ a = 0x501024 + 0x40 * n ∧ lo = 29)) :
    t.rd ⟨d, a, lo, w, c, r⟩ = s.rd ⟨d, a, lo, w, c, r⟩ :=
  h.flds _ ⟨key_ne (by omega), key_ne (by omega), key_ne (by omega), key_ne (by omega), key_ne (by omega), key_ne (by omega),
    key_ne (by omega), key_ne (by omega)⟩

theorem frameFlds_regsKept : RegsKept s t [(0x50000C, 0x500010), (0x501024 + 0x40 * n, 0x501034 + 0x40 * n)] :=
  h.flds.regsKept ⟨within_head (by omega), within_head (by omega), within_tail (within_head (by omega)), within_tail (within_head (by omega)),
    within_tail (within_head (by omega)), within_tail (within_head (by omega)), within_tail (within_head (by omega)), within_tail (within_head (by omega))⟩

theorem svSubRate_kept : svSubRate t n = svSubRate s n := congrArg svRate (frameFlds_rd h hn (by omega))

theorem mudly_kept : mudly t n = mudly s n := congrArg (min 10000000) (frameFlds_rd h hn (by omega))

theorem asduNom_kept (ta : Nat) (a : SvAsdu) : asduNom t n ta a = asduNom s n ta a := by rw [asduNom, asduNom, svSubRate_kept h hn]

theorem activeNs_kept : t.activeNs = s.activeNs :=
  activeNs_of_svi h.tim (h.flds.regsKept ⟨within_head (by omega), within_head (by omega), within_head (by omega), within_head (by omega),
    within_head (by omega), within_head (by omega), within_head (by omega), within_head (by omega)⟩)

/-- A sample that is the next in count stays so while its frame is learned and counted. -/
theorem NextSample.kept {ta li lc lt lb : Nat} {a : SvAsdu} (hx : NextSample s n ta a li lc lt lb) (hsub : subOf t n = subOf s n) :
    NextSample t n ta a li lc lt lb where
  sync := hx.sync
  valid := (frameFlds_rd h hn (by omega)).trans hx.valid
  timed := hsub ▸ hx.timed
  calm := hsub ▸ hx.calm
  last := hsub ▸ hx.last
  next := svSubRate_kept h hn ▸ hx.next
  due := hsub ▸ hx.due
  unseen := hsub ▸ hx.unseen
  fab := (pg_of_rd (frameFlds_rd h hn (by omega)) 1).trans hx.fab
  inTime := by
    have hmax : maxdly t n = maxdly s n := congrArg (clamp 100000 100000000) (frameFlds_rd h hn (by omega))
    rw [activeNs_kept h hn, asduNom_kept h hn, hmax]
    exact hx.inTime

end Kept

section Next
variable {s : State} {f : SvFrame} {n li lc lt lb : Nat} {a : SvAsdu} (hc : svCands s f = [n]) (hw : f.wellFormed = true)
  (hname : svNameOk s n f = true) (hauth : s.on (R.SVI_SUBs_CFG_AUTH n) = false) (ha : f.asdus = [a])
  (hrev : a.confrev = s.rd (R.SVI_SUBs_CONFREV_CONFREV n)) (hsim : f.sim = false) (hnum : s.rd (R.SVI_SUBs_CFG_NASDU n) = 1)
  (hq : a.vals.length = s.rd (R.SVI_SUBs_CFG_NQTY n)) (hcnt : a.cnt < svSubRate s n)
  (hx : NextSample s n (arrivalNs s f.port f.pos) a li lc lt lb)

/-- The frame as it is learned and counted. -/
def frameTaken (s : State) (f : SvFrame) (n : Nat) (a : SvAsdu) : State := frameCounted (svLearn s f (some n)) n (arrivalNs s f.port f.pos) a

theorem frameTaken_step (s : State) (f : SvFrame) (n : Nat) (a : SvAsdu) : SviStep (frameFlds n) s (frameTaken s f n a) :=
  ((svLearn_step s f n).mono (List.subset_append_left ..)).trans ((frameCounted_step ..).mono (List.subset_append_right ..))

theorem frameTaken_sub (s : State) (f : SvFrame) (n : Nat) (a : SvAsdu) : subOf (frameTaken s f n a) n = subOf s n :=
  (frameCounted_sub ..).trans (subOf_congr (svLearn_sub s f n) n)

include hc hw hname hauth ha hrev hsim hnum hq hcnt hx

theorem svFrame_next : svFrame s f = sampleQueued (frameTaken s f n a) n (arrivalNs s f.port f.pos) (li + 1) a := by
  have hn : n < 64 := svCands_lt (hc ▸ List.mem_singleton_self n)
  have hlearn := (svLearn_step s f n).mono (List.subset_append_left (learnFlds n) (countFlds n))
  have hsub : subOf (svLearn s f (some n)) n = subOf s n := subOf_congr (svLearn_sub s f n) n
  have hrev' : a.confrev = svRev (svLearn s f (some n)) n := by
    rw [svRev_svLearn s f hn, hrev, svRev, hx.valid]
    rfl
  rw [svFrame_learned hc hw hname hauth, svSteps_passed ha hrev' hsim, svAccept_next ha hsim hx.sync (hsub ▸ hx.timed) (hsub ▸ hx.calm)]
  · exact svAsdu_next (hx.kept (frameTaken_step s f n a) hn (frameTaken_sub s f n a)) hsim
  · exact (frameFlds_rd hlearn hn (by omega)).trans hnum
  · exact hq.trans (frameFlds_rd hlearn hn (by omega)).symm
  · exact svSubRate_kept hlearn hn ▸ hcnt

theorem svFrame_next_shows : let nom := asduNom s n (arrivalNs s f.port f.pos) a
    (svFrame s f).svi.fifo = s.svi.fifo ++ [⟨n, li + 1, nom - mudly s n, false, a.vals.map fun e => (e.1.toInt, qualFlags e.2)⟩] ∧
    (svFrame s f).rd (R.SVI_SUBs_RX_RX n) = (s.rd (R.SVI_SUBs_RX_RX n) + 1) % 2 ^ 32 ∧ (svFrame s f).rd (R.SVI_SUBs_STAT_SYNC n) = 2 ∧
    (svFrame s f).rd (R.SVI_SUBs_STAT_STATE n) = 2 ∧
    (subOf (svFrame s f) n).last = some (li + 1, a.cnt, nom - mudly s n, wholeSec (arrivalNs s f.port f.pos) a.cnt (svSubRate s n)) ∧
    SameBytes s (svFrame s f) ∧ RegsKept s (svFrame s f) [(0x50000C, 0x500010), (0x501024 + 0x40 * n, 0x501034 + 0x40 * n)] := by
  intro nom
  have hn : n < 64 := svCands_lt (hc ▸ List.mem_singleton_self n)
  have hstep := frameTaken_step s f n a
  have hlearn : (svLearn s f (some n)).rd (R.SVI_SUBs_RX_RX n) = s.rd (R.SVI_SUBs_RX_RX n) := svLearn_rd s f hn (by omega)
  have hrx : (frameTaken s f n a).rd (R.SVI_SUBs_RX_RX n) = (s.rd (R.SVI_SUBs_RX_RX n) + 1) % 2 ^ 32 := by
    rw [frameTaken, frameCounted_rx _ _ _ hn, hlearn]
  have hsync : (frameTaken s f n a).rd (R.SVI_SUBs_STAT_SYNC n) = 2 := by
    rw [frameTaken, frameCounted_sync, hx.sync]
    rfl
  have hregs := sampleQueued_regs (frameTaken s f n a) n (arrivalNs s f.port f.pos) (li + 1) a
  have hmem := sampleQueued_mem (frameTaken s f n a) n (arrivalNs s f.port f.pos) (li + 1) a
  have hfifo := sampleQueued_fifo (frameTaken s f n a) n (arrivalNs s f.port f.pos) (li + 1) a
  have hlast := sampleQueued_last (frameTaken s f n a) n (arrivalNs s f.port f.pos) (li + 1) a
  rw [svFrame_next hc hw hname hauth ha hrev hsim hnum hq hcnt hx]
  generalize sampleQueued (frameTaken s f n a) n (arrivalNs s f.port f.pos) (li + 1) a = t at *
  rw [asduNom_kept hstep hn, mudly_kept hstep hn] at hfifo hlast
  rw [svSubRate_kept hstep hn] at hlast
  rw [hstep.fifo] at hfifo
  exact ⟨hfifo, (rd_of_regs hregs _).trans hrx, (rd_of_regs hregs _).trans hsync,
    (rd_of_regs hregs _).trans ((frameFlds_rd hstep hn (by omega)).trans hx.valid), hlast, sameBytes_of_mem (hmem.trans hstep.mem),
    regsKept_of_regs (frameFlds_regsKept hstep hn) hregs⟩

end Next

end Sys2Proof.Machine
end

section
/-! PROOFS. Sampled-value ingest put together (R118 to R142). -/
namespace Sys2Proof.Machine

/-- Settles O52, command by command. That missing samples only count while LOST (assumption 101), that an INVALID subscription stays so
(assumption 100) and that an empty fetch leaves zeros (assumption 175) are the model's choices. -/
theorem sampledValueIngest : Obligations.SampledValueIngest := by
  refine ⟨fun f s h => svFrameReceive_off f h, fun f n s hpg hc hw => svFrameReceive_malformed hc hpg hw,
    fun f n a s hpg hc hw hname hauth ha => ⟨fun hrev => ?badRev, fun li lc lt lb hrev hsim hnum hq hcnt hsync hst htimed hcalm hlast hnext hdue
      hseen hfab htime => ?next⟩, fun n d s => ?deadline,
    fun n r v s => ⟨svSubConfigWrite_locked, svSubConfigWrite_cfg, fun h hon hr => svSubConfigWrite_enabled h hr hon, fun h hoff => ?disabled⟩,
    fun m en sub q s => ⟨svMapWrite_locked, svMapWrite_stores⟩,
    fun x e s h => ⟨directoryAgeOut_heard h, directoryAgeOut_silent h, directoryFetch_entry h⟩,
    fun x s h => ⟨directoryAgeOut_empty h, directoryFetch_empty h⟩, fun s h => directorySnapshot_early h,
    fun c s hc => ⟨snapshot_busy (hc.imp_right And.left), snapshot_starts hc⟩,
    fun k d s hs hk hlt hd => snapshotComplete_writes hs hk hlt hd, fun s h => directoryFlush_keeps_linked h⟩
  case badRev =>
    obtain ⟨v, hv⟩ := exec_svFrameReceive f hpg
    exact ⟨_, hv, svFrame_badRev_shows (s := { s with net := v }) hc hw hname hauth ha hrev⟩
  case next =>
    obtain ⟨v, hv⟩ := exec_svFrameReceive f hpg
    exact ⟨_, hv, svFrame_next_shows (s := { s with net := v }) hc hw hname hauth ha hrev hsim hnum hq hcnt
      ⟨hsync, hst, htimed, hcalm, hlast, hnext, hdue, hseen, hfab, htime⟩⟩
  case deadline =>
    refine ⟨sampleDeadline_idle, fun h3 hd h => ⟨_, sampleDeadline_passed hd (.inr (.inl h3)) h, sampleMissing_lost_counts h3 n.isLt⟩,
      fun hst hseen hback hd h hch => ⟨_, sampleDeadline_passed hd (hst.imp_right .inr) h, sampleMissing_live_counts hst hback hch n.isLt hseen⟩,
      sampleDeadline_early⟩
  case disabled =>
    have hstored {q : SvReg} (hq : q ≠ .cfg) := svSubConfigWrite_disabled (n := n) (v := v) h hq hoff
    exact ⟨hstored (by decide), hstored (by decide), hstored (by decide), hstored (by decide), hstored (by decide), hstored (by decide),
      hstored (by decide)⟩

end Sys2Proof.Machine
end

section
/-! PROOFS. Configuration of an FTG: the write, and its effect at a cycle boundary (R147, R148). -/
namespace Sys2Proof.Machine

/-- Fields at different places in their words lie under different keys; with literal places the hypothesis is `rfl`. -/
theorem key_ne_of_lo {f f' : Fld} (h : (decide (f.lo < 32) && decide (f'.lo < 32) && f.lo != f'.lo) = true) : f.key ≠ f'.key := by
  simp only [Bool.and_eq_true, decide_eq_true_eq, bne_iff_ne] at h
  intro he
  simp only [Fld.key] at he
  omega

/-! ### FTG_CONFIG_WRITE -/

section Write
variable (s : State) (g : Fin 4) (fixed : Bool) (fnom : Fin 2) (n : Fin 16)

/-- N as a write of code `n` leaves it. -/
def codeKept : Nat := if n.val < 9 then n.val else s.rd (R.ESP_FTGg_CFG_N g)

/-- Is a configuration the one in effect? -/
def cfgInEffect : Bool := ftgFixed s g == fixed && fnomOf s g == fnom.val && s.rd (R.ESP_FTGg_STAT_NACT g) == codeKept s g n

variable {s g fixed fnom n}

theorem ftgConfigWrite_locked (h : s.on R.ESP_CTL_LOCK = true) : exec (.ftgConfigWrite g fixed fnom n) s = .next s := by
  simp only [exec, execFtgConfigWrite, h, if_true]

theorem ftgConfigWrite_idle (h : s.on R.ESP_CTL_LOCK = false) (hi : ftgOn s g = false ∨ (espFtg s g).started = false) :
    exec (.ftgConfigWrite g fixed fnom n) s = .next (storeCfg s g fixed fnom (codeKept s g n)) := by
  have hoff : (!ftgOn s g || !(espFtg s g).started) = true := by
    rcases hi with hi | hi <;> simp [hi]
  simp only [exec, execFtgConfigWrite, h, hoff, Bool.false_eq_true, if_false, if_true, codeKept]

theorem ftgConfigWrite_breaks (h : s.on R.ESP_CTL_LOCK = false) (hon : ftgOn s g = true) (hst : (espFtg s g).started = true)
    (hb : cfgBreaks s g fixed fnom (codeKept s g n) = true) :
    exec (.ftgConfigWrite g fixed fnom n) s = .next ((s.wrb (R.ESP_FTGg_STAT_CFG_REFUSED g) true).logIx 0x08 1 g) := by
  rw [codeKept] at hb
  simp only [exec, execFtgConfigWrite, h, hon, hst, hb, Bool.not_true, Bool.or_self, Bool.false_eq_true, if_false, if_true]

theorem ftgConfigWrite_accepts (h : s.on R.ESP_CTL_LOCK = false) (hon : ftgOn s g = true) (hst : (espFtg s g).started = true)
    (hb : cfgBreaks s g fixed fnom (codeKept s g n) = false) :
    exec (.ftgConfigWrite g fixed fnom n) s = .next (modFtg (storeCfg s g fixed fnom (codeKept s g n)) g fun f =>
      { f with cfg := if cfgInEffect s g fixed fnom n then none else some (fixed, fnom.val, codeKept s g n) }) := by
  rw [codeKept] at hb
  simp only [exec, execFtgConfigWrite, h, hon, hst, hb, Bool.not_true, Bool.or_self, Bool.false_eq_true, if_false]
  rfl

end Write

/-- What a stored configuration reads, and what it leaves. -/
theorem storeCfg_stored (s : State) (g : Fin 4) (fixed : Bool) (fnom : Fin 2) (code : Nat) :
    let t := storeCfg s g fixed fnom code
    t.on (R.ESP_FTGg_CFG_MODE g) = fixed ∧ t.rd (R.ESP_FTGg_CFG_FNOM g) = fnom.val ∧ t.rd (R.ESP_FTGg_CFG_N g) = code % 16 ∧
      RegsKept s t [((R.ESP_FTGg_CFG_N g).addr, (R.ESP_FTGg_CFG_N g).addr + 4)] := by
  refine ⟨?mode, ?fnom, rd_wr_self .., ?kept⟩
  case mode =>
    rw [storeCfg, State.on, rd_wr_ne _ _ (key_ne_of_lo rfl), rd_wr_ne _ _ (key_ne_of_lo rfl), ← State.on]
    exact on_wrb_self _ _ _ rfl
  case fnom =>
    rw [storeCfg, rd_wr_ne _ _ (key_ne_of_lo rfl), rd_wr_self]
    exact Nat.mod_eq_of_lt fnom.isLt
  case kept =>
    have hin {l w r : Nat} (h : l < 32) :
        Within ⟨.img, 0x800100 + 0x40 * g, l, w, .rwl, r⟩ [((R.ESP_FTGg_CFG_N g).addr, (R.ESP_FTGg_CFG_N g).addr + 4)] :=
      within_head ⟨h, by omega, le_rfl, by simp only [R.ESP_FTGg_CFG_N]; omega⟩
    exact regsKept_wr (hin (by decide)) (regsKept_wr (hin (by decide)) (regsKept_wr (hin (by decide)) (regsKept_refl s _) _) _) _

/-! ### Placing an instant (R154 to R158) -/

section Place
variable (s : State) (g : Fin 4)

/-- The instant that is placed next. -/
def instantNext : Inst :=
  let f := espFtg s g
  { tick := f.next, t := f.nextT, fw := freqWord s g f.cycNo f.step, n := ftgN s g, cyc := f.cycNo }

/-- The FTG once its next instant has been placed. -/
def ftgPlaced : Ftg :=
  let f := espFtg s g
  { f with insts := (instantNext s g :: f.insts).take 512, prev := some f.nextT, next := (f.next + 1) % tickMod,
           nextT := nextInstant s g f.nextT (if (f.next + 1) % ftgN s g == 0 then f.cycNo + 1 else f.cycNo),
           cycNo := if (f.next + 1) % ftgN s g == 0 then f.cycNo + 1 else f.cycNo, step := false }

theorem espFtg_placeInstant : espFtg (placeInstant s g) g = ftgPlaced s g := by
  have hesp : (placeInstant s g).esp = (setFtg s g (ftgPlaced s g)).esp := by
    unfold placeInstant
    extract_lets f n i last k s1 s2 lim s3
    have h3 : s3.esp = s1.esp := by
      simp only [s3]
      split <;> rfl
    split
    · exact h3
    · exact h3
  rw [espFtg, hesp]
  exact mget_mput_self ..

/-- LIMIT and the sticky bits aside no register changes. -/
theorem placeInstant_kept : KeptBut s (placeInstant s g) [R.ESP_FTGg_STAT_LIMIT g, R.ESP_FTGg_STAT_LIMIT_STK g, R.ESP_FTGg_STAT_STEP_STK g] := by
  unfold placeInstant
  extract_lets f n i last k s1 s2 lim s3
  have h1 : KeptBut s s1 [R.ESP_FTGg_STAT_LIMIT g, R.ESP_FTGg_STAT_LIMIT_STK g, R.ESP_FTGg_STAT_STEP_STK g] := keptBut_of_regs rfl _
  have h3 : KeptBut s s3 [R.ESP_FTGg_STAT_LIMIT g, R.ESP_FTGg_STAT_LIMIT_STK g, R.ESP_FTGg_STAT_STEP_STK g] := by
    simp only [s3]
    split
    · exact (h1.wrb (by simp) _).wrb (by simp) _
    · exact h1.wrb (by simp) _
  split
  · exact h3.wrb (by simp) _
  · exact h3

theorem placeInstant_step (h : (espFtg s g).step = true) : (placeInstant s g).on (R.ESP_FTGg_STAT_STEP_STK g) = true := by
  unfold placeInstant
  extract_lets f n i last k s1 s2 lim s3
  rw [if_pos h]
  exact on_wrb_self _ _ _ rfl

end Place

/-- The frequency word of an instant that carries STEP has bit 27 set (R158). -/
theorem freqWord_step (s : State) (g k : Nat) : (freqWord s g k true).testBit 27 = true := by
  have hbit (hi lo : Nat) (hlo : lo < 2 ^ 27) : (2 ^ 28 * hi + 2 ^ 27 + lo).testBit 27 = true := by
    rw [Nat.testBit_eq_decide_div_mod_eq]
    simp only [decide_eq_true_eq]
    omega
  unfold freqWord
  extract_lets c b
  split
  · simpa [b] using hbit 1 _ (Nat.mod_lt _ (by decide))
  · have h : b c.limit 31 + b c.hold 30 + b c.fall 29 = 2 ^ 28 * (b c.limit 3 + b c.hold 2 + b c.fall 1) := by
      simp only [b]
      split <;> split <;> split <;> rfl
    rw [h]
    exact hbit _ _ (Nat.mod_lt _ (by decide))

/-! ### FTG_CONFIG_EFFECT -/

section Effect
variable (s : State) (g : Fin 4)

@[simp] theorem restartGrid_regs : (restartGrid s g).regs = s.regs :=
  foldl_keeps (p := State.regs) (fun u m => restartRs_regs u m) ..

@[simp] theorem restartGrid_esp : (restartGrid s g).esp = s.esp :=
  foldl_keeps (p := State.esp) (fun u m => restartRs_esp u m) ..

/-- STATE as a change of mode leaves it: FIXED, or HOLD on the way to tracking. -/
def modeShown (u : State) (g : Nat) (fixed wasFixed : Bool) : State :=
  if fixed then u.wr (R.ESP_FTGg_STAT_STATE g) 5 else if wasFixed then u.wr (R.ESP_FTGg_STAT_STATE g) 3 else u

/-- The state in which the first instant under a new configuration is placed, at `t`. -/
def configEffect (fixed : Bool) (fnom n t : Nat) : State :=
  let u := modeShown (modFtg (Spec.underConfig s g fixed fnom n) g fun x => { x with nextT := t }) g fixed (ftgFixed s g)
  if n != s.rd (R.ESP_FTGg_STAT_NACT g) then restartGrid u g else u

variable {s g}

theorem ftgConfigEffect_reached {fixed : Bool} {fnom n p : Nat} (hc : (espFtg s g).cfg = some (fixed, fnom, n))
    (hst : (espFtg s g).started = true) (hb : (espFtg s g).next % ftgN s g = 0) (hp : (espFtg s g).prev = some p)
    (ht : nextInstant (Spec.underConfig s g fixed fnom n) g p (espFtg s g).cycNo ≤ actU s) :
    exec (.ftgConfigEffect g) s = .next (placeInstant (configEffect s g fixed fnom n
      (nextInstant (Spec.underConfig s g fixed fnom n) g p (espFtg s g).cycNo)) g) := by
  change execFtgConfigEffect g s = _
  unfold execFtgConfigEffect
  extract_lets f wasFixed
  split
  next hn => exact absurd (hn.symm.trans hc) (by simp)
  next fixed' fnom' n' hs =>
    obtain ⟨rfl, rfl, rfl⟩ : fixed' = fixed ∧ fnom' = fnom ∧ n' = n := by simpa using hs.symm.trans hc
    rw [if_neg (by simp [f, hb, hst])]
    extract_lets newN s1 s2 t s3 s4
    have htp : t = nextInstant (Spec.underConfig s g fixed' fnom' n') g p (espFtg s g).cycNo := by
      simp only [t]
      rw [hp]
      rfl
    rw [if_neg (by rw [htp]; exact Nat.not_lt.mpr ht), ← htp]
    rfl

/-- What the new configuration puts in effect stands when the instant is placed. -/
theorem configEffect_shows (fixed : Bool) (fnom t : Nat) {n : Nat} (hn : n < 9) :
    let u := configEffect s g fixed fnom n t
    u.rd (R.ESP_FTGg_STAT_NACT g) = n ∧ ftgFixed u g = fixed ∧
      espFtg u g = { espFtg (Spec.underConfig s g fixed fnom n) g with nextT := t } := by
  have hshown (v : State) (w : Bool) : KeptBut v (modeShown v g fixed w) [R.ESP_FTGg_STAT_STATE g] ∧ (modeShown v g fixed w).esp = v.esp := by
    unfold modeShown
    split
    · exact ⟨(keptBut_refl v _).wr (by simp) _, rfl⟩
    · split
      · exact ⟨(keptBut_refl v _).wr (by simp) _, rfl⟩
      · exact ⟨keptBut_refl v _, rfl⟩
  intro u
  let v := modFtg (Spec.underConfig s g fixed fnom n) g fun x => { x with nextT := t }
  have hu : u.regs = (modeShown v g fixed (ftgFixed s g)).regs ∧ u.esp = (modeShown v g fixed (ftgFixed s g)).esp := by
    simp only [u, configEffect]
    split
    · exact ⟨restartGrid_regs .., restartGrid_esp ..⟩
    · exact ⟨rfl, rfl⟩
  obtain ⟨hk, he⟩ := hshown v (ftgFixed s g)
  have hrd {f : Fld} (hf : f.key ≠ (R.ESP_FTGg_STAT_STATE g).key) : u.rd f = v.rd f :=
    (rd_of_regs hu.1 f).trans (hk f (List.forall_iff_forall_mem.mpr (by simpa using hf)))
  refine ⟨?nact, ?fixed, ?ftg⟩
  case nact =>
    rw [hrd (key_ne_of_lo rfl)]
    exact (rd_wr_ne _ _ (key_ne_of_lo rfl)).trans ((rd_wr_self ..).trans (Nat.mod_eq_of_lt (hn.trans (by decide : 9 < 16))))
  case fixed => 
    rw [ftgFixed, State.on, hrd (key_ne_of_lo rfl)]
    exact on_wrb_self _ _ _ rfl
  case ftg =>
    rw [espFtg, hu.2, he]
    exact espFtg_modFtg ..

theorem underConfig_ftg (fixed : Bool) (fnom n : Nat) :
    espFtg (Spec.underConfig s g fixed fnom n) g =
      { espFtg s g with
        cfg := none, fnom := fnom, step := true,
        next := if n != s.rd (R.ESP_FTGg_STAT_NACT g) then 0 else (espFtg s g).next,
        closedN := if n != s.rd (R.ESP_FTGg_STAT_NACT g) then 0 else (espFtg s g).closedN,
        miss := if fixed == ftgFixed s g then (espFtg s g).miss else 0,
        cyc := if fixed == ftgFixed s g then (espFtg s g).cyc else [] } := mget_mput_self ..

end Effect

/-- Settles O34, command by command. That a write equal to the configuration in effect cancels a change that waits (assumption 180) and where the
first instant under a new configuration lies (assumption 30) are the model's choices. -/
theorem gridConfiguration : Obligations.GridConfiguration := by
  refine ⟨fun g fixed fnom n s => ⟨ftgConfigWrite_locked, fun h hi => ?idle, fun h hon hst hb => ?breaks, fun h hon hst hb => ?accepts⟩,
    fun g s p fixed fnom n hc hn hst hb hp ht => ?effect⟩
  case idle =>
    obtain ⟨hmode, hfnom, hcode, hkept⟩ := storeCfg_stored s g fixed fnom (codeKept s g n)
    exact ⟨_, ftgConfigWrite_idle h hi, ⟨hmode, hfnom, hcode, sameBytes_of_mem (storeCfg_mem ..), hkept⟩, rfl⟩
  case breaks =>
    have hin : Within (R.ESP_FTGg_STAT_CFG_REFUSED g) [((R.ESP_FTGg_STAT_CFG_REFUSED g).addr, (R.ESP_FTGg_STAT_CFG_REFUSED g).addr + 4)] :=
      within_head ⟨by decide, by omega, le_rfl, Nat.lt_add_of_pos_right (by decide)⟩
    exact ⟨_, ftgConfigWrite_breaks h hon hst hb, on_wrb_self s (R.ESP_FTGg_STAT_CFG_REFUSED g) true rfl, rfl, ⟨_, rfl, rfl, rfl⟩,
      regsKept_of_regs (regsKept_wr hin (regsKept_refl s _) 1) rfl, sameBytes_of_mem rfl⟩
  case accepts =>
    obtain ⟨hmode, hfnom, hcode, hkept⟩ := storeCfg_stored s g fixed fnom (codeKept s g n)
    refine ⟨_, ftgConfigWrite_accepts h hon hst hb, ⟨hmode, hfnom, hcode, sameBytes_of_mem ?_, hkept⟩, ?_⟩
    · exact storeCfg_mem s g fixed fnom (codeKept s g n)
    rw [espFtg_modFtg]
    simp [cfgInEffect, codeKept, and_assoc]
  case effect =>
    obtain ⟨hnact, hfix, hftg⟩ := configEffect_shows (s := s) (g := g) fixed fnom
      (nextInstant (Spec.underConfig s g fixed fnom n) g p (espFtg s g).cycNo) hn
    refine ⟨_, ftgConfigEffect_reached hc hst hb hp ht, ?_⟩
    rw [underConfig_ftg] at hftg
    generalize configEffect s g fixed fnom n (nextInstant (Spec.underConfig s g fixed fnom n) g p (espFtg s g).cycNo) = u at hnact hfix hftg ⊢
    have hkept {f : Fld} (h1 : f.key ≠ (R.ESP_FTGg_STAT_LIMIT g).key) (h2 : f.key ≠ (R.ESP_FTGg_STAT_LIMIT_STK g).key)
        (h3 : f.key ≠ (R.ESP_FTGg_STAT_STEP_STK g).key) : (placeInstant u g).rd f = u.rd f := placeInstant_kept u g f ⟨h1, h2, h3⟩
    have hstep : (espFtg u g).step = true := by rw [hftg]
    refine ⟨(hkept (key_ne_of_lo rfl) (key_ne_of_lo rfl) (key_ne_of_lo rfl)).trans hnact,
      (on_of_rd (hkept (key_ne_of_lo rfl) (key_ne_of_lo rfl) (key_ne_of_lo rfl))).trans hfix, ?_, ?_,
      placeInstant_step u g hstep, instantNext u g, ?_, ?_, ?_, ?_⟩
    · rw [espFtg_placeInstant, ftgPlaced, hftg]
    · rw [espFtg_placeInstant, ftgPlaced, hftg]
    · rw [espFtg_placeInstant, ftgPlaced]
      rfl
    · simp only [instantNext, hstep]
      exact freqWord_step ..
    · simp only [instantNext, ftgN, hnact]
    · simp only [instantNext, hftg, bne_iff_ne, ne_eq, ite_not]

end Sys2Proof.Machine
end

section
/-! PROOFS. Layer of frames: the fields outside given ranges and lists, and what else a step leaves as it was. -/
namespace Sys2Proof.Machine

/-- A step may write the field: it lies in one of the ranges, or is one of the list. -/
def Writable (rs : List (Nat × Nat)) (l : List Fld) (f : Fld) : Prop := Within f rs ∨ f ∈ l

/-- A step writes fields of `rs` and `l` alone, and leaves what `p` shows of the state. -/
structure Frame {α : Type} (p : State → α) (rs : List (Nat × Nat)) (l : List Fld) (s t : State) : Prop where
  rd : ∀ f : Fld, f.lo < 32 → f.addr < 0x4000000 → (∀ r ∈ rs, ¬ (r.1 ≤ f.addr ∧ f.addr < r.2)) → (∀ g ∈ l, f.key ≠ g.key) → t.rd f = s.rd f
  shows : p t = p s

namespace Frame

variable {α : Type} {p : State → α} {rs : List (Nat × Nat)} {l : List Fld} {s t u : State}

theorem of_eq (hr : t.regs = s.regs) (hp : p t = p s) : Frame p rs l s t := ⟨fun f _ _ _ _ => rd_of_regs hr f, hp⟩

theorem refl (s : State) : Frame p rs l s s := of_eq rfl rfl

theorem trans (h : Frame p rs l s t) (hu : Frame p rs l t u) : Frame p rs l s u :=
  ⟨fun f hlo hlt hr hl => (hu.rd f hlo hlt hr hl).trans (h.rd f hlo hlt hr hl), hu.shows.trans h.shows⟩

/-- Nothing more changes of registers and of what `p` shows. -/
theorem eq (h : Frame p rs l s t) (hr : u.regs = t.regs) (hp : p u = p t) : Frame p rs l s u := h.trans (of_eq hr hp)

theorem wr {f : Fld} (h : Frame p rs l s t) (hf : Writable rs l f) (v : Nat) (hp : p (t.wr f v) = p t) : Frame p rs l s (t.wr f v) := by
  refine h.trans ⟨fun k hklo hklt hr hl => rd_wr_ne t v ?_, hp⟩
  rcases hf with ⟨hlo, hlt, r, hmem, hin⟩ | hf
  · exact key_ne_of_addr hklo hlo hklt hlt fun he => hr r hmem (he ▸ hin)
  · exact hl f hf

theorem mono {rs' : List (Nat × Nat)} {l' : List Fld} (h : Frame p rs l s t) (hr : rs ⊆ rs') (hl : l ⊆ l') : Frame p rs' l' s t :=
  ⟨fun f hlo hlt hr' hl' => h.rd f hlo hlt (fun r hm => hr' r (hr hm)) fun g hg => hl' g (hl hg), h.shows⟩

/-- What a coarser view shows is left too. -/
theorem view {β : Type} {q : State → β} (h : Frame p rs l s t) (hq : p t = p s → q t = q s) : Frame q rs l s t := ⟨h.rd, hq h.shows⟩

theorem ite {c : Prop} [Decidable c] (h : c → Frame p rs l s t) (hu : ¬ c → Frame p rs l s u) : Frame p rs l s (if c then t else u) := by
  split
  next hc => exact h hc
  next hc => exact hu hc

theorem foldl {β : Type} {g : State → β → State} {bs : List β} (hg : ∀ t, ∀ b ∈ bs, Frame p rs l t (g t b)) (h : Frame p rs l s t) :
    Frame p rs l s (bs.foldl g t) := by
  induction bs generalizing t with
  | nil => exact h
  | cons b bs ih => exact ih (fun t b hb => hg t b (List.mem_cons_of_mem _ hb)) (h.trans (hg t b List.mem_cons_self))

/-- A field that the step may not write keeps its value. -/
theorem rd_eq (h : Frame p rs l s t) {f : Fld} (hlo : f.lo < 32) (hlt : f.addr < 0x4000000)
    (hr : rs.Forall fun r => f.addr < r.1 ∨ r.2 ≤ f.addr) (hl : l.Forall fun g => f.key ≠ g.key) : t.rd f = s.rd f :=
  h.rd f hlo hlt (fun r hm hin => by
    have := List.forall_iff_forall_mem.mp hr r hm
    omega) (List.forall_iff_forall_mem.mp hl)

end Frame

/-! ### What gates, parity errors and the rings leave -/

/-- The cores, Espalier, the image, the clocks and the sequencer. -/
def besides (s : State) : List (Nat × Core) × Esp × Image × Tim × Glb := (s.ec, s.esp, s.img, s.tim, s.glb)

/-- The registers of Thorn. -/
def thnRange : List (Nat × Nat) := [(0xA00000, 0xB00000)]

/-- The registers of the recorder, and those of the host interface and of DRAM. -/
def recRanges : List (Nat × Nat) := [(0xC00000, 0xD00000), (0xF00000, 0x1000000)]

/-- The fields that a parity error writes (R161). -/
def parityFlds : List Fld := [R.ESP_STAT_PERR_STK, R.ESP_PERR_CNT, R.ESP_PERR_ADDR]

section Leaves
variable (s : State)

@[simp] theorem tripEvent_besides (rose now : Nat) : besides (tripEvent s rose now) = besides s := by
  unfold tripEvent
  extract_lets
  split <;> rfl

theorem gateUpdate_frame (l : List Fld) : Frame besides thnRange l s (gateUpdate s) := by
  refine ⟨fun f hlo hlt hr _ => gateUpdate_kept s f hlo hlt hr, ?_⟩
  unfold gateUpdate
  extract_lets d st old new rose th s1 s2 s3
  split
  · rfl
  · exact tripEvent_besides s3 rose new

theorem parityErr_frame (rs : List (Nat × Nat)) (o : Nat) : Frame besides rs parityFlds s (parityErr s o) := by
  have h1 : Frame besides rs parityFlds s (s.wrb R.ESP_STAT_PERR_STK true) := (Frame.refl s).wr (.inr (by simp [parityFlds])) _ rfl
  have h2 : Frame besides rs parityFlds s ((s.wrb R.ESP_STAT_PERR_STK true).sat1 R.ESP_PERR_CNT) :=
    h1.wr (.inr (by simp [parityFlds])) _ rfl
  exact (h2.wr (f := R.ESP_PERR_ADDR) (.inr (by simp [parityFlds])) o rfl).eq rfl rfl

theorem espRead_frame (rs : List (Nat × Nat)) (m slot : Nat) : Frame besides rs parityFlds s (espRead s m slot).2 := by
  unfold espRead
  extract_lets va fa pv pf s1 s2
  have h1 : Frame besides rs parityFlds s s1 := Frame.ite (fun _ => parityErr_frame s rs _) fun _ => Frame.refl s
  exact h1.trans (Frame.ite (fun _ => parityErr_frame s1 rs _) fun _ => Frame.refl s1)

end Leaves

/-! ### The recorder -/

/-- What a step of the recorder leaves at a grid close. -/
abbrev RecFrame (s t : State) : Prop := Frame besides recRanges parityFlds s t

/-- The fields of AU `u` that its rows write. -/
def auFlds (u : Nat) : List Fld :=
  [R.REC_AUu_STAT_STATE u, R.REC_AUu_STAT_OVF_STK u, R.REC_AUu_STAT_TRUNC_STK u, R.REC_AUu_STAT_STALL_STK u, R.REC_AUu_STAT_NEWEST u,
   R.REC_AUu_CNT_RECORDS u, R.REC_AUu_CNT_HOLDTRIG u, R.REC_AUu_CNT_LOST u, R.REC_AUu_VALID_COMPLETE u, R.REC_AUu_VALID_VALID u]

theorem auFlds_within (u : Fin 4) : ∀ f ∈ auFlds u, Within f recRanges := by
  unfold Within
  revert u
  decide

theorem memFlds_within : ∀ f ∈ [R.MEM_STAT_UNCORR_STK, R.MEM_STAT_CORR_STK, R.MEM_ECC_CORR, R.MEM_ECC_UNCORR, R.MEM_EADDR_LO_EADDR,
    R.MEM_EADDR_HI_EADDR, R.HST_Rr_STAT_LOST 3, R.HST_Rr_PROD_PROD 3], Within f recRanges := by
  unfold Within
  decide

namespace RecFrame
variable {s t u : State}

theorem au {k : Nat} (hk : k < 4) (h : RecFrame s t) {f : Fld} (hf : f ∈ auFlds k) (v : Nat) : RecFrame s (t.wr f v) :=
  h.wr (.inl (auFlds_within ⟨k, hk⟩ f hf)) v rfl

theorem memFld (h : RecFrame s t) {f : Fld} (hf : f ∈ [R.MEM_STAT_UNCORR_STK, R.MEM_STAT_CORR_STK, R.MEM_ECC_CORR, R.MEM_ECC_UNCORR,
    R.MEM_EADDR_LO_EADDR, R.MEM_EADDR_HI_EADDR, R.HST_Rr_STAT_LOST 3, R.HST_Rr_PROD_PROD 3]) (v : Nat) : RecFrame s (t.wr f v) :=
  h.wr (.inl (memFlds_within f hf)) v rfl

theorem setAu (h : RecFrame s t) (k : Nat) (x : Au) : RecFrame s (setAu t k x) := h.eq rfl rfl

theorem ofEq (h : RecFrame s t) (hr : u.regs = t.regs := by rfl) (hb : besides u = besides t := by rfl) : RecFrame s u := h.eq hr hb

/-! DRAM with its ECC, and the RECN ring. -/

theorem eccUncorr (h : RecFrame s t) (w : Nat) : RecFrame s (eccUncorr t w) :=
  ((((h.memFld (f := R.MEM_STAT_UNCORR_STK) (by simp) _).memFld (f := R.MEM_ECC_UNCORR) (by simp) _).memFld (f := R.MEM_EADDR_LO_EADDR)
    (by simp) _).memFld (f := R.MEM_EADDR_HI_EADDR) (by simp) _).ofEq

theorem eccCorr (h : RecFrame s t) (w : Nat) : RecFrame s (eccCorr t w) :=
  ((h.memFld (f := R.MEM_STAT_CORR_STK) (by simp) _).memFld (f := R.MEM_ECC_CORR) (by simp) _).ofEq

theorem readWord (h : RecFrame s t) (w : Nat) : RecFrame s (readWord t w).2.2 := by
  unfold Machine.readWord
  split
  · exact eccUncorr (t := (t.fresh 64).2) h.ofEq w
  · exact Frame.ite (fun _ => h.eccCorr w) fun _ => h

theorem readWords (l : List Nat) (h : RecFrame s t) : RecFrame s (readWords t l).2.2 := by
  induction l generalizing t with
  | nil => exact h
  | cons w l ih => exact ih (h.readWord w)

theorem dramGet (h : RecFrame s t) (x n : Nat) : RecFrame s (dramGet t x n).2 := by
  unfold Machine.dramGet
  split
  · exact h
  · exact h.readWords _

theorem dramPutWords (h : RecFrame s t) (x : Nat) (l : List Byte) : RecFrame s (dramPutWords t x l) := h.ofEq

theorem fireVec (h : RecFrame s t) (v : Nat) : RecFrame s (t.fireVec v) := by
  unfold State.fireVec State.sendVec
  split
  · exact h
  · exact Frame.ite (fun _ => h.ofEq) fun _ => h.ofEq

theorem ringPush (h : RecFrame s t) (desc : List Byte) : RecFrame s (ringPush t 3 desc []) := by
  unfold Machine.ringPush
  split
  · exact h
  · split
    · exact h.memFld (f := R.HST_Rr_STAT_LOST 3) (by simp) _
    · extract_lets k s1 s2
      have h2 : RecFrame s (s2.inc (R.HST_Rr_PROD_PROD 3)) := (h.dramPutWords _ _).memFld (f := R.HST_Rr_PROD_PROD 3) (by simp) _
      unfold ringVec
      exact Frame.ite (fun _ => h2.ofEq) fun _ => h2.fireVec _

/-! Records: their ends, their starts, what triggers do. -/

variable {k : Nat} (hk : k < 4)
include hk

theorem finishRecord (h : RecFrame s t) : RecFrame s (finishRecord t k) := by
  unfold Machine.finishRecord
  extract_lets x
  split
  · exact h
  next c _ =>
    extract_lets ext s1 s2 s3
    have h1 : RecFrame s s1 := Frame.ite (fun _ => h.dramPutWords _ _) fun _ => h
    have h2 : RecFrame s s2 := h1.ofEq
    have h3 : RecFrame s s3 := Frame.ite (fun _ => h2.au hk (f := R.REC_AUu_STAT_TRUNC_STK k) (by simp [auFlds]) _) fun _ => h2
    exact (h3.au hk (f := R.REC_AUu_VALID_COMPLETE k) (by simp [auFlds]) _).ringPush _

theorem cutRecord (h : RecFrame s t) : RecFrame s (cutRecord t k) := by
  unfold Machine.cutRecord
  extract_lets x
  split
  · exact finishRecord hk h.ofEq
  · exact h

theorem stallTrigger (h : RecFrame s t) : RecFrame s (stallTrigger t k) :=
  ((h.au hk (f := R.REC_AUu_CNT_LOST k) (by simp [auFlds]) _).au hk (f := R.REC_AUu_STAT_STALL_STK k) (by simp [auFlds]) 1).ofEq

omit hk in
theorem numberRow (h : RecFrame s t) (a i : Nat) : RecFrame s (numberRow t a i) := by
  unfold Machine.numberRow
  exact Frame.ite (fun _ => h.eccUncorr _) fun _ => (h.dramGet a 8).dramPutWords _ _

omit hk in
theorem numberRows (first rb cap n i : Nat) (h : RecFrame s t) : RecFrame s (numberRows k first rb cap t n i) := by
  induction n generalizing t i with
  | zero => exact h
  | succ n ih => exact ih _ (h.numberRow _ _)

theorem startRecord (h : RecFrame s t) (r : SrcRow) (units masks : Nat) : RecFrame s (startRecord t k r units masks) := by
  unfold Machine.startRecord
  extract_lets x rb cap fit pre last first
  split
  · exact h.stallTrigger hk
  next slot _ =>
    extract_lets c c1 c3 c2 s0 dr s1 s2 s3 s4 twn s5
    have h0 : RecFrame s s0 := Frame.ite (fun _ => h.numberRows ..) fun _ => h
    have h2 : RecFrame s s2 := h0.ofEq
    have h3 : RecFrame s s3 := ((h2.au hk (f := R.REC_AUu_VALID_COMPLETE k) (by simp [auFlds]) _).au hk (f := R.REC_AUu_VALID_VALID k)
      (by simp [auFlds]) _).au hk (f := R.REC_AUu_STAT_NEWEST k) (by simp [auFlds]) _
    have h4 : RecFrame s s4 := (h3.au hk (f := R.REC_AUu_STAT_STATE k) (by simp [auFlds]) _).au hk (f := R.REC_AUu_CNT_RECORDS k)
      (by simp [auFlds]) _
    have h5 : RecFrame s s5 := Frame.ite (fun _ => h4.ofEq) fun _ => h4
    exact ofEq (Frame.ite (fun _ => h5.dramPutWords _ _) fun _ => h5 : RecFrame s (writeHead s5 k c2 false))

theorem holdTrigger (h : RecFrame s t) : RecFrame s (holdTrigger t k) := by
  unfold Machine.holdTrigger
  extract_lets x s1
  have h1 : RecFrame s s1 := h.au hk (f := R.REC_AUu_CNT_HOLDTRIG k) (by simp [auFlds]) _
  exact Frame.ite (fun _ => h1.ofEq) fun _ => h1.ofEq

theorem retrigger (h : RecFrame s t) (c : CurRec) (kept : Bool) : RecFrame s (retrigger t k c kept) := by
  unfold Machine.retrigger
  refine Frame.ite (fun _ => h.au hk (f := R.REC_AUu_CNT_LOST k) (by simp [auFlds]) _) fun _ => ?_
  extract_lets want fit
  exact Frame.ite (fun _ => h.ofEq) fun _ => h.ofEq

theorem applyTrigger (h : RecFrame s t) (r : SrcRow) (kept : Bool) (units masks : Nat) : RecFrame s (applyTrigger t k r kept units masks) := by
  unfold Machine.applyTrigger
  split
  · exact h.startRecord hk r units masks
  · exact h.startRecord hk r units masks
  · exact Frame.ite (fun _ => h.retrigger hk _ kept) fun _ => h.holdTrigger hk
  · exact h.holdTrigger hk
  · exact h.stallTrigger hk
  · exact h

theorem applyStop (h : RecFrame s t) (r : SrcRow) (units masks : Nat) : RecFrame s (applyStop t k r units masks) := by
  unfold Machine.applyStop
  extract_lets s1
  have h1 : RecFrame s s1 := Frame.ite (fun _ => h.startRecord hk r units masks) fun _ => h
  split
  · exact Frame.ite (fun _ => h1.ofEq) fun _ => h1
  · exact h1.holdTrigger hk
  · exact h1

/-! Rows. -/

theorem loseRow (h : RecFrame s t) : RecFrame s (loseRow t k) := by
  unfold Machine.loseRow
  extract_lets x gap s1
  have h1 : RecFrame s s1 := (h.setAu k _).au hk (f := R.REC_AUu_STAT_OVF_STK k) (by simp [auFlds]) _
  exact Frame.ite (fun _ => h1.ofEq) fun _ => h1

omit hk in
theorem drainStage (h : RecFrame s t) : RecFrame s (drainStage t k) := by
  unfold Machine.drainStage
  refine Frame.ite (fun _ => ?_) fun _ => h
  extract_lets s1
  have h1 : RecFrame s s1 := Frame.foldl (fun u (e : Nat × List Byte) _ => dramPutWords (t := u) (Frame.refl u) e.1 e.2) h
  exact h1.ofEq

theorem storeRow (h : RecFrame s t) (r : SrcRow) : RecFrame s (storeRow t k r) := by
  unfold Machine.storeRow
  extract_lets x rb trig step w1 b cur within ends s2 dr s3
  have h3 : RecFrame s s3 := drainStage (t := { s2 with dr := { s2.dr with step := s2.dr.step.filter (· ≠ k) } }) h.ofEq
  exact Frame.ite (fun _ => h3.au hk (f := R.REC_AUu_STAT_STATE k) (by simp [auFlds]) _) fun _ => h3

theorem writeRow (h : RecFrame s t) (r : SrcRow) : RecFrame s (writeRow t k r) := by
  unfold Machine.writeRow
  refine Frame.ite (fun _ => h) fun _ => ?_
  extract_lets hits pinned s1
  refine Frame.ite (fun _ => ?_) fun _ => ?_
  · exact (((h.cutRecord hk).au hk (f := R.REC_AUu_STAT_STATE k) (by simp [auFlds]) 5).au hk (f := R.REC_AUu_STAT_STALL_STK k)
      (by simp [auFlds]) 1).ofEq
  · have h1 : RecFrame s s1 := Frame.foldl (fun u e _ => au hk (t := u) (Frame.refl u) (f := R.REC_AUu_VALID_VALID k) (by simp [auFlds]) _) h
    exact Frame.ite (fun _ => h1.loseRow hk) fun _ => h1.storeRow hk r

omit hk in
theorem maskStep (r : SrcRow) (a : State × List Nat) (m : Nat) (h : RecFrame s a.1) : RecFrame s (maskStep k r a m).1 := by
  unfold Machine.maskStep
  extract_lets v
  split
  · exact h
  · split
    · exact h
    · split
      · exact h
      · exact h.ofEq

theorem sourceRow (h : RecFrame s t) (r : SrcRow) : RecFrame s (sourceRow t k r) := by
  unfold Machine.sourceRow
  refine Frame.ite (fun _ => h) fun _ => ?_
  extract_lets ev dr s0 kept mk s1 tr hit masks au s2 s3 s4
  have h0 : RecFrame s s0 := h.ofEq
  have h1 : RecFrame s s1 := List.foldlRecOn (motive := fun a => RecFrame s a.1) _ _ h0 fun a ha m _ => maskStep r a m ha
  have h2 : RecFrame s s2 := h1.setAu k _
  have h3 : RecFrame s s3 := Frame.ite (fun _ => h2.applyTrigger hk ..) fun _ => h2
  have h4 : RecFrame s s4 := Frame.ite (fun _ => h3.applyStop hk ..) fun _ => h3
  exact Frame.ite (fun _ => h4.writeRow hk r) fun _ => h4

end RecFrame

theorem gridVals_frame (rs : List (Nat × Nat)) (slot : Nat) (l : List Nat) (s : State) :
    Frame besides rs parityFlds s (gridVals slot l s).2 := by
  induction l generalizing s with
  | nil => exact Frame.refl s
  | cons m l ih => exact (espRead_frame s rs m slot).trans (ih _)

/-- Grid-mode rows leave the cores, Espalier and every register outside the recorder, DRAM and the rings, parity errors apart. -/
theorem recClose_frame (s : State) (g : Nat) (i : Inst) : RecFrame s (recClose s g i) := by
  refine Frame.foldl (fun t u hu => ?_) (Frame.refl s)
  exact Frame.ite (fun _ => RecFrame.sourceRow (List.mem_range.mp hu) (gridVals_frame recRanges _ _ t) _) fun _ => Frame.refl t

end Sys2Proof.Machine
end

section
/-! PROOFS. A grid close before its notifications: fills, the instant record, starters, the measurement (R149 to R152, R158, R161 to R166, R254). -/
namespace Sys2Proof.Machine

theorem parityErrIf_parBad (c : Prop) [Decidable c] (s : State) (o : Nat) : (if c then parityErr s o else s).parBad = s.parBad := by
  split
  · rfl
  · rfl

/-! ### What a grid close shows -/

section Head
variable (g : Fin 4)

/-- The fields of an FTG that show a close. -/
def headFlds : List Fld :=
  [R.ESP_FTGg_HEAD_VALID g, R.ESP_FTGg_HEAD_SLOT g, R.ESP_FTGg_FREQ_FREQ g, R.ESP_FTGg_FILL_FILL g, R.ESP_FTGg_CNT_DLCLOSE g]

/-- The fields of an FTG that the frequency measurement writes. -/
def measureFlds : List Fld :=
  [R.ESP_FTGg_FMEAS_VALID g, R.ESP_FTGg_FMEAS_FMEAS g, R.ESP_FTGg_STAT_STATE g, R.ESP_FTGg_STAT_HOLD_STK g]

/-- What the rest of a close may write beside its head: Thorn, the cores, the recorder, DRAM and the rings. -/
def closeRanges : List (Nat × Nat) := thnRange ++ [(0x900000, 0xA00000)] ++ recRanges
def closeFlds : List Fld := parityFlds ++ measureFlds g

variable {g} {α : Type} {p : State → α} {s t : State}

theorem headFlds_apart : ∀ f ∈ headFlds g, f.lo < 32 ∧ f.addr < 0x4000000 ∧ (∀ r ∈ closeRanges, ¬ (r.1 ≤ f.addr ∧ f.addr < r.2)) ∧
    ∀ k ∈ closeFlds g, f.key ≠ k.key := by
  revert g
  decide

theorem Frame.head (h : Frame p closeRanges (closeFlds g) s t) {f : Fld} (hf : f ∈ headFlds g) : t.rd f = s.rd f := by
  obtain ⟨hlo, hlt, hr, hl⟩ := headFlds_apart f hf
  exact h.rd f hlo hlt hr hl

end Head

/-! ### Fills (R164) -/

/-- No byte of a channel's sample in one slot is one of another channel's or slot's. -/
theorem valAddr_apart {m m' slot slot' : Nat} (hs : slot < 512) (hs' : slot' < 512) (h : m ≠ m' ∨ slot ≠ slot') :
    valAddr m slot + 4 ≤ valAddr m' slot' ∨ valAddr m' slot' + 4 ≤ valAddr m slot := by
  unfold valAddr
  omega

theorem flagAddr_ne {m m' slot slot' : Nat} (hs : slot < 512) (hs' : slot' < 512) (h : m ≠ m') : flagAddr m slot ≠ flagAddr m' slot' := by
  unfold flagAddr
  omega

theorem rdW_congr {s t : State} {a : Nat} (h : ∀ k < 4, memRd t.mem (a + k) = memRd s.mem (a + k)) : t.rdW a = s.rdW a := by
  rw [State.rdW, State.rdMem, memRds_congr h]
  rfl

theorem espPut_parBad (s : State) (a : Nat) (l : List Byte) {x : Nat} (h : x < a ∨ a + l.length ≤ x) :
    (espPut s a l).parBad.contains x = s.parBad.contains x := by
  rw [Bool.eq_iff_iff, List.contains_iff_mem, List.contains_iff_mem, espPut, List.mem_filter]
  refine and_iff_left ?_
  rw [Bool.not_eq_true', Bool.and_eq_false_iff, decide_eq_false_iff_not, decide_eq_false_iff_not]
  omega

theorem espStore_parBad (s : State) {m slot : Nat} (v : Word) (fl : Nat) {x : Nat} (hv : x < valAddr m slot ∨ valAddr m slot + 4 ≤ x)
    (hf : x ≠ flagAddr m slot) : (espStore s m slot v fl).parBad.contains x = s.parBad.contains x :=
  (espPut_parBad _ _ _ (by rw [List.length_singleton]; omega)).trans (espPut_parBad _ _ _ (by rw [leBytes_length]; exact hv))

section Fill
variable (g : Fin 4) (i : Inst) (s : State) (m : Nat)

/-- The slot of an instant, and the one before it. -/
def gridSlot : Nat := i.tick % 512
def gridSlotBefore : Nat := (gridSlot i + 511) % 512

theorem gridSlot_lt : gridSlot i < 512 := Nat.mod_lt _ (by decide)
theorem gridSlotBefore_lt : gridSlotBefore i < 512 := Nat.mod_lt _ (by decide)
theorem gridSlot_ne_before : gridSlot i ≠ gridSlotBefore i := by
  have := gridSlot_lt i
  unfold gridSlotBefore
  omega

/-- The value that a missing sample takes. -/
def fillValue : Word := if s.parBad.contains (valAddr m (gridSlotBefore i)) then 0 else s.rdW (valAddr m (gridSlotBefore i))

/-- The state in which the channel's previous value has been read. -/
def fillRead : State :=
  if s.parBad.contains (valAddr m (gridSlotBefore i)) then parityErr s (valAddr m (gridSlotBefore i) - espValBase + 0x40000) else s

theorem fillChannel_eq : fillChannel g i s m =
    (phStored (espStore (fillRead i s m) m (gridSlot i) (fillValue i s m) (8 + limitQ i)) m i).inc (R.ESP_FTGg_FILL_FILL g) := rfl

theorem phStored_frame (rs : List (Nat × Nat)) : Frame besides rs parityFlds s (phStored s m i) :=
  (espRead_frame s rs m (i.tick % 512)).eq rfl rfl

theorem fillStored_frame (rs : List (Nat × Nat)) :
    Frame besides rs parityFlds s (phStored (espStore (fillRead i s m) m (gridSlot i) (fillValue i s m) (8 + limitQ i)) m i) := by
  have h1 : Frame besides rs parityFlds s (fillRead i s m) := Frame.ite (fun _ => parityErr_frame s rs _) fun _ => Frame.refl s
  have h2 : Frame besides rs parityFlds s (espStore (fillRead i s m) m (gridSlot i) (fillValue i s m) (8 + limitQ i)) := h1.eq rfl rfl
  exact h2.trans (phStored_frame ..)

theorem fillChannel_frame (rs : List (Nat × Nat)) : Frame besides rs (R.ESP_FTGg_FILL_FILL g :: parityFlds) s (fillChannel g i s m) :=
  ((fillStored_frame i s m rs).mono (List.Subset.refl rs) (List.subset_cons_self ..)).wr (.inr List.mem_cons_self) _ rfl

theorem espRead_parBad (m slot : Nat) : (espRead s m slot).2.parBad = s.parBad := by
  rw [espRead, parityErrIf_parBad, parityErrIf_parBad]

/-- The planes after a fill are those after its store. -/
theorem fillChannel_planes : (fillChannel g i s m).mem = (espStore s m (gridSlot i) (fillValue i s m) (8 + limitQ i)).mem ∧
    (fillChannel g i s m).parBad = (espStore s m (gridSlot i) (fillValue i s m) (8 + limitQ i)).parBad := by
  have hread : (fillRead i s m).mem = s.mem ∧ (fillRead i s m).parBad = s.parBad :=
    ⟨parityErrIf_mem .., parityErrIf_parBad ..⟩
  have hstore {u : State} (h : u.mem = s.mem ∧ u.parBad = s.parBad) (v : Word) (fl : Nat) :
      (espStore u m (gridSlot i) v fl).mem = (espStore s m (gridSlot i) v fl).mem ∧
      (espStore u m (gridSlot i) v fl).parBad = (espStore s m (gridSlot i) v fl).parBad := by
    simp only [espStore, espPut, State.wrMem, h.1, h.2, and_self]
  rw [fillChannel_eq]
  exact ⟨(phStored_mem ..).trans (hstore hread _ _).1, (espRead_parBad ..).trans (hstore hread _ _).2⟩

/-- The planes once the samples of some channels have been filled. -/
theorem fills_planes (l : List Nat) (hl : l.Nodup) (hm : ∀ m ∈ l, m < 192) :
    let t := l.foldl (fillChannel g i) s
    (∀ a, (∀ m ∈ l, ¬ (valAddr m (gridSlot i) ≤ a ∧ a < valAddr m (gridSlot i) + 4) ∧ a ≠ flagAddr m (gridSlot i)) → memRd t.mem a = memRd s.mem a) ∧
    ∀ m ∈ l, t.rdW (valAddr m (gridSlot i)) = fillValue i s m ∧ memRd t.mem (flagAddr m (gridSlot i)) = BitVec.ofNat 8 (8 + limitQ i) := by
  induction l generalizing s with
  | nil => exact ⟨fun a _ => rfl, fun m hm => absurd hm List.not_mem_nil⟩
  | cons x l ih =>
    have hx := hm x List.mem_cons_self
    obtain ⟨hxl, hl⟩ := List.nodup_cons.mp hl
    obtain ⟨hmem, hpar⟩ := fillChannel_planes g i s x
    have hout {a : Nat} (h : ¬ (valAddr x (gridSlot i) ≤ a ∧ a < valAddr x (gridSlot i) + 4)) (hf : a ≠ flagAddr x (gridSlot i)) :
        memRd (fillChannel g i s x).mem a = memRd s.mem a := by
      rw [hmem]
      exact espStore_outside s _ _ h hf
    have hs := gridSlot_lt i
    have hb := gridSlotBefore_lt i
    obtain ⟨hkept, hset⟩ := ih (fillChannel g i s x) hl fun m h => hm m (List.mem_cons_of_mem _ h)
    refine ⟨fun a ha => ?_, fun m hml => ?_⟩
    · exact (hkept a fun m h => ha m (List.mem_cons_of_mem _ h)).trans
        (hout (ha x List.mem_cons_self).1 (ha x List.mem_cons_self).2)
    · rcases List.mem_cons.mp hml with rfl | hml
      · have hfirst (k : Nat) (hk : k < 4) : memRd (List.foldl (fillChannel g i) (fillChannel g i s m) l).mem (valAddr m (gridSlot i) + k) =
            memRd (fillChannel g i s m).mem (valAddr m (gridSlot i) + k) := by
          refine hkept _ fun y hy => ?_
          have hne : m ≠ y := fun h => hxl (h ▸ hy)
          have hy192 := hm y (List.mem_cons_of_mem _ hy)
          have hap := valAddr_apart hs hs (.inl hne)
          have hbelow := valAddr_lt_flagAddr (m' := y) (slot' := gridSlot i) hx hs
          omega
        have hflag : memRd (List.foldl (fillChannel g i) (fillChannel g i s m) l).mem (flagAddr m (gridSlot i)) =
            memRd (fillChannel g i s m).mem (flagAddr m (gridSlot i)) := by
          refine hkept _ fun y hy => ?_
          have hne : m ≠ y := fun h => hxl (h ▸ hy)
          have hbelow := valAddr_lt_flagAddr (m' := m) (slot' := gridSlot i) (hm y (List.mem_cons_of_mem _ hy)) hs
          exact ⟨by omega, flagAddr_ne hs hs hne⟩
        refine ⟨?_, ?_⟩
        · rw [List.foldl_cons, rdW_congr hfirst, State.rdW, State.rdMem, hmem]
          exact espStore_value s _ _ hx hs
        · rw [List.foldl_cons, hflag, hmem]
          exact espStore_flag ..
      · have hm192 := hm m (List.mem_cons_of_mem _ hml)
        have hap := valAddr_apart (m := m) (m' := x) hb hs (.inr (gridSlot_ne_before i).symm)
        have hbelow := valAddr_lt_flagAddr (m' := x) (slot' := gridSlot i) hm192 hb
        have hval : fillValue i (fillChannel g i s x) m = fillValue i s m := by
          have hrd : (fillChannel g i s x).rdW (valAddr m (gridSlotBefore i)) = s.rdW (valAddr m (gridSlotBefore i)) :=
            rdW_congr fun k hk => hout (by omega) (by omega)
          have hbad : (fillChannel g i s x).parBad.contains (valAddr m (gridSlotBefore i)) = s.parBad.contains (valAddr m (gridSlotBefore i)) := by
            rw [hpar]
            exact espStore_parBad s _ _ (by omega) (by omega)
          rw [fillValue, fillValue, hrd, hbad]
        obtain ⟨hv, hf⟩ := hset m hml
        exact ⟨hv.trans hval, hf⟩

/-- FILL counts the samples that are filled. -/
theorem fills_count (l : List Nat) :
    (l.foldl (fillChannel g i) s).rd (R.ESP_FTGg_FILL_FILL g) % 2 ^ 32 = (s.rd (R.ESP_FTGg_FILL_FILL g) + l.length) % 2 ^ 32 := by
  induction l generalizing s with
  | nil => rfl
  | cons x l ih =>
    have hone : (fillChannel g i s x).rd (R.ESP_FTGg_FILL_FILL g) = (s.rd (R.ESP_FTGg_FILL_FILL g) + 1) % 2 ^ 32 := by
      rw [fillChannel_eq, State.inc, rd_wr_self]
      rw [((fillStored_frame i s x closeRanges).mono (List.Subset.refl _) (List.subset_append_left ..)).head (g := g) (by simp [headFlds])]
      rfl
    rw [List.foldl_cons, ih, hone, List.length_cons]
    omega

end Fill

/-! ### The instant record (R158, R166) -/

section Record
variable (s : State) (g : Fin 4) (i : Inst)

/-- The fields that the instant record shows in the FTG's registers. -/
def recordFlds : List Fld := [R.ESP_FTGg_HEAD_VALID g, R.ESP_FTGg_HEAD_SLOT g, R.ESP_FTGg_LAG_LAG g, R.ESP_FTGg_LAGMAX_LAGMAX g,
  R.ESP_FTGg_FREQ_FREQ g]

theorem writeRecord_frame : Frame besides [] (recordFlds g) s (writeRecord s g i) := by
  unfold writeRecord
  extract_lets slot s1 lag s2
  have h1 : Frame besides [] (recordFlds g) s s1 := Frame.of_eq rfl rfl
  have h2 : Frame besides [] (recordFlds g) s s2 :=
    ((h1.wr (.inr (by simp [recordFlds])) _ rfl).wr (.inr (by simp [recordFlds])) _ rfl).wr (.inr (by simp [recordFlds])) _ rfl
  exact (h2.wr (.inr (by simp [recordFlds])) _ rfl).wr (.inr (by simp [recordFlds])) _ rfl

theorem head_key_ne : ∀ f ∈ [R.ESP_FTGg_HEAD_VALID g, R.ESP_FTGg_HEAD_SLOT g], f.key ≠ (R.ESP_FTGg_FREQ_FREQ g).key ∧
    f.key ≠ (R.ESP_FTGg_LAGMAX_LAGMAX g).key ∧ f.key ≠ (R.ESP_FTGg_LAG_LAG g).key := by
  revert g
  decide

theorem writeRecord_shows : (writeRecord s g i).on (R.ESP_FTGg_HEAD_VALID g) = true ∧
    (writeRecord s g i).rd (R.ESP_FTGg_HEAD_SLOT g) = i.tick % 512 ∧ (writeRecord s g i).rd (R.ESP_FTGg_FREQ_FREQ g) = i.fw % 2 ^ 32 := by
  unfold writeRecord
  extract_lets slot s1 lag s2
  have hlast {f : Fld} (hf : f ∈ [R.ESP_FTGg_HEAD_VALID g, R.ESP_FTGg_HEAD_SLOT g]) (v w : Nat) :
      ((s2.wr (R.ESP_FTGg_LAGMAX_LAGMAX g) v).wr (R.ESP_FTGg_FREQ_FREQ g) w).rd f =
      ((s1.wrb (R.ESP_FTGg_HEAD_VALID g) true).wr (R.ESP_FTGg_HEAD_SLOT g) slot).rd f := by
    obtain ⟨hfreq, hmax, hlag⟩ := head_key_ne g f hf
    exact (rd_wr_ne _ _ hfreq).trans ((rd_wr_ne _ _ hmax).trans (rd_wr_ne _ _ hlag))
  refine ⟨?_, ?_, rd_wr_self ..⟩
  · exact (on_of_rd ((hlast (by simp) ..).trans (rd_wr_ne _ _ (key_ne_of_lo rfl)))).trans
      (on_wrb_self s1 (R.ESP_FTGg_HEAD_VALID g) true rfl)
  · rw [hlast (by simp), rd_wr_self]
    exact Nat.mod_mod ..

end Record

/-! ### Starters (R254 to R256) -/

section Starter
variable (s : State) (t nn closed : Nat)

theorem strChannel_frame (b m : Nat) : Frame besides thnRange parityFlds s (strChannel s b m t nn closed).2 := by
  unfold strChannel
  extract_lets fm thr x y
  have hx : Frame besides thnRange parityFlds s x.2 := espRead_frame ..
  split
  · exact hx
  · split
    · exact hx
    · exact hx.trans (espRead_frame ..)

theorem strScan_frame (b : Nat) (chs : List Nat) : Frame besides thnRange parityFlds s (strScan b t nn closed chs s).2 :=
  List.foldlRecOn (motive := fun (a : (Bool × Bool) × State) => Frame besides thnRange parityFlds s a.2) chs _ (Frame.refl s)
    fun a ha m _ => ha.trans (strChannel_frame a.2 t nn closed b m)

/-- The fields of bay `b` and of Thorn that its starter writes. -/
def starterFlds (b : Nat) : List Fld :=
  [R.THN_BAYb_STAT_STRFAIL b, R.THN_BAYb_STAT_STRFAIL_STK b, R.THN_STAT_STRFAIL_STK, R.THN_BAYb_STAT_PERMIT b, R.THN_BAYb_STAT_PERMIT_STK b,
   R.THN_BAYb_STAT_PICKUPS b]

theorem starterFlds_within (b : Fin 24) : ∀ f ∈ starterFlds b, Within f thnRange := by
  unfold Within
  revert b
  decide

theorem starter_frame {b : Nat} (hb : b < 24) : Frame besides thnRange parityFlds s (starter t nn closed s b) := by
  have hin {f : Fld} (hf : f ∈ starterFlds b) : Writable thnRange parityFlds f := .inl (starterFlds_within ⟨b, hb⟩ f hf)
  unfold starter
  extract_lets mask chs r fail exc s1 a s2 was thn s3
  have h1 : Frame besides thnRange parityFlds s s1 := strScan_frame ..
  have ha : Frame besides thnRange parityFlds s a := Frame.ite (fun _ => h1) fun _ => h1.eq rfl rfl
  have h2 : Frame besides thnRange parityFlds s s2 :=
    Frame.ite (fun _ => ((ha.wr (hin (by simp [starterFlds])) _ rfl).wr (hin (by simp [starterFlds])) _ rfl).wr (hin (by simp [starterFlds])) _ rfl)
      fun _ => h1.wr (hin (by simp [starterFlds])) _ rfl
  have h3 : Frame besides thnRange parityFlds s s3 := h2.eq rfl rfl
  refine Frame.ite (fun _ => Frame.ite (fun _ => h3) fun _ => ?_) fun _ => Frame.ite (fun _ => ?_) fun _ => h2
  · exact ((h3.wr (hin (f := R.THN_BAYb_STAT_PERMIT b) (by simp [starterFlds])) 1 rfl).wr
      (hin (f := R.THN_BAYb_STAT_PERMIT_STK b) (by simp [starterFlds])) 1 rfl).wr (hin (f := R.THN_BAYb_STAT_PICKUPS b) (by simp [starterFlds])) _ rfl
  · exact h2.wr (hin (f := R.THN_BAYb_STAT_PERMIT b) (by simp [starterFlds])) 0 rfl

end Starter

/-! ### The frequency measurement (R149 to R152) -/

/-- The cores, the image, the clocks, the sequencer, and the instants and closes of FTG `g`. -/
def closeView (g : Nat) (s : State) : List (Nat × Core) × Image × Tim × Glb × List Inst × Nat × Option Nat :=
  (s.ec, s.img, s.tim, s.glb, (espFtg s g).insts, (espFtg s g).closedN, (espFtg s g).closedAt)

theorem closeView_of_besides {s t : State} (g : Nat) (h : besides t = besides s) : closeView g t = closeView g s := by
  simp only [besides, Prod.mk.injEq] at h
  obtain ⟨hec, hesp, himg, htim, hglb⟩ := h
  simp only [closeView, espFtg, hec, hesp, himg, htim, hglb]

section Measure
variable {s t : State} {g : Fin 4}

/-- What a step of the measurement leaves. -/
abbrev MeasureFrame (g : Fin 4) (s t : State) : Prop := Frame (closeView g) [] (closeFlds g) s t

theorem MeasureFrame.modFtg (h : MeasureFrame g s t) (k : Ftg → Ftg)
    (hk : ∀ f, (k f).insts = f.insts ∧ (k f).closedN = f.closedN ∧ (k f).closedAt = f.closedAt := by exact fun _ => ⟨rfl, rfl, rfl⟩) :
    MeasureFrame g s (modFtg t g k) := by
  refine h.eq rfl ?_
  obtain ⟨hinsts, hn, hat⟩ := hk (espFtg t g)
  simp only [closeView, espFtg_modFtg, hinsts, hn, hat]
  rfl

theorem MeasureFrame.fld (h : MeasureFrame g s t) {f : Fld} (hf : f ∈ measureFlds g) (v : Nat) : MeasureFrame g s (t.wr f v) :=
  h.wr (.inr (List.mem_append_right _ hf)) v rfl

theorem MeasureFrame.parity (h : MeasureFrame g s t) {u : State} (hu : Frame besides [] parityFlds t u) : MeasureFrame g s u :=
  h.trans ((hu.mono (List.Subset.refl _) (List.subset_append_left ..)).view (closeView_of_besides g))

theorem srcSample_frame (s : State) (one : Bool) (c0 c1 c2 slot : Nat) : Frame besides [] parityFlds s (srcSample s one c0 c1 c2 slot).2 := by
  unfold srcSample
  extract_lets ok a b c y
  have ha : Frame besides [] parityFlds s a.2 := espRead_frame ..
  have hc : Frame besides [] parityFlds s c.2 := (ha.trans (espRead_frame ..)).trans (espRead_frame ..)
  split
  · exact ha
  · split
    · exact hc
    · exact hc

theorem cycPhasor_frame (one : Bool) (c0 c1 c2 nn j : Nat) (l : List Nat) (p : Option F32.Cx) (s : State) :
    Frame besides [] parityFlds s (cycPhasor one c0 c1 c2 nn j l p s).2 := by
  induction l generalizing s j p with
  | nil => exact Frame.refl s
  | cons x l ih => exact (srcSample_frame ..).trans (ih ..)

theorem srcPhase_frame (s : State) (one : Bool) (c0 c1 c2 nn : Nat) (slots : List Nat) (mn : Word) :
    Frame besides [] parityFlds s (srcPhase s one c0 c1 c2 nn slots mn).2 := by
  have hr := cycPhasor_frame one c0 c1 c2 nn 0 slots (some (0, 0)) s
  unfold srcPhase
  extract_lets r
  split
  · exact hr
  · split
    · exact hr
    · exact hr

theorem trackTo_frame (h : MeasureFrame g s t) (k fm : Nat) (cur : Bool) : MeasureFrame g s (trackTo t g k fm cur) := by
  unfold trackTo
  extract_lets f1 st pre s1
  have h1 : MeasureFrame g s s1 := h.modFtg _
  exact (h1.modFtg fun f => { f with miss := 0 }).fld (f := R.ESP_FTGg_STAT_STATE g) (by simp [measureFlds]) _

theorem holdTo_frame (h : MeasureFrame g s t) (k : Nat) : MeasureFrame g s (holdTo t g k) := by
  unfold holdTo
  extract_lets f1 miss drift nom st f2 was s1 s2
  have hp : MeasureFrame g s (putCyc t g (k + 2) { f := f2, hold := true }) := h.modFtg _
  have h1 : MeasureFrame g s s1 := hp.modFtg fun f => { f with miss := miss }
  have h2 : MeasureFrame g s s2 := Frame.ite (fun _ => h1.fld (f := R.ESP_FTGg_STAT_HOLD_STK g) (by simp [measureFlds]) _) fun _ => h1
  exact h2.fld (f := R.ESP_FTGg_STAT_STATE g) (by simp [measureFlds]) _

theorem measure_frame (s : State) (i : Inst) : MeasureFrame g s (measure s g i) := by
  unfold measure
  extract_lets cyc slots stepped v c f clean pick s1 sNone
  have hc : MeasureFrame g s c.2 := MeasureFrame.parity (MeasureFrame.parity (Frame.refl s) (srcPhase_frame ..)) (srcPhase_frame ..)
  have h1 : MeasureFrame g s s1 := hc.modFtg fun f => { f with thV := v.1, thI := c.1, lastStep := stepped }
  clear_value pick
  cases pick with
  | some p =>
    have h2 : MeasureFrame g s ((s1.wrb (R.ESP_FTGg_FMEAS_VALID g) clean).wr (R.ESP_FTGg_FMEAS_FMEAS g) p.1) := (h1.fld (f := R.ESP_FTGg_FMEAS_VALID g) (by simp [measureFlds]) _).fld (f := R.ESP_FTGg_FMEAS_FMEAS g)
      (by simp [measureFlds]) _
    refine Frame.ite (fun _ => Frame.ite (fun _ => h2) fun _ => holdTo_frame h2 _) fun _ => Frame.ite (fun _ => ?_) fun _ => trackTo_frame h2 ..
    exact MeasureFrame.modFtg h2 fun f => { f with miss := 0 }
  | none =>
    have h2 : MeasureFrame g s sNone := h1.fld (f := R.ESP_FTGg_FMEAS_VALID g) (by simp [measureFlds]) _
    exact Frame.ite (fun _ => h2) fun _ => holdTo_frame h2 _

end Measure

end Sys2Proof.Machine
end

section
/-! PROOFS. A tick notification in its core: what it leaves, and what it opens (R176 to R182, R187 to R191). -/
namespace Sys2Proof.Machine

/-! ### What a step of a core leaves -/

/-- Everything but core `n` and what follows from it: Espalier, the image, the clocks, the sequencer and the other cores. -/
def others (n : Nat) (s : State) : Esp × Image × Tim × Glb × (Nat → Core) :=
  (s.esp, s.img, s.tim, s.glb, fun m => if m = n then {} else s.core m)

/-- A core but for its verdict records. -/
def unverdicted (c : Core) : Core := { c with ver := [] }

/-- Those, and core `n` but for its verdict records. -/
def seqView (n : Nat) (s : State) : (Esp × Image × Tim × Glb × (Nat → Core)) × Core := (others n s, unverdicted (s.core n))

theorem others_of_besides {s t : State} (n : Nat) (h : besides t = besides s) : others n t = others n s := by
  simp only [besides, Prod.mk.injEq] at h
  obtain ⟨hec, hesp, himg, htim, hglb⟩ := h
  simp only [others, State.core, hec, hesp, himg, htim, hglb]

theorem core_of_besides {s t : State} (n : Nat) (h : besides t = besides s) : t.core n = s.core n := by
  rw [State.core, State.core, show t.ec = s.ec from congrArg Prod.fst h]

theorem seqView_of_besides {s t : State} (n : Nat) (h : besides t = besides s) : seqView n t = seqView n s := by
  rw [seqView, seqView, others_of_besides n h, core_of_besides n h]

theorem others_setCore (s : State) (n : Nat) (c : Core) : others n (s.setCore n c) = others n s := by
  have hcores (m : Nat) : (if m = n then {} else (s.setCore n c).core m) = if m = n then {} else s.core m := by
    split
    · rfl
    next h => exact mget_mput_ne _ _ _ h
  exact congrArg (fun k => (s.esp, s.img, s.tim, s.glb, k)) (funext hcores)

theorem core_of_others {s t : State} {n m : Nat} (h : others n t = others n s) (hm : m ≠ n) : t.core m = s.core m := by
  have hcore := congrFun (congrArg (fun o => o.2.2.2.2) h) m
  simpa only [others, if_neg hm] using hcore

/-- The fields of local bay `j`'s status word. -/
def vstFlds (n j : Nat) : List Fld :=
  [R.ELCn_BAYj_VST_QTIMED n j, R.ELCn_BAYj_VST_TEST n j, R.ELCn_BAYj_VST_OUTBLK n j, R.ELCn_BAYj_VST_INVALID n j,
   R.ELCn_BAYj_VST_TRIPOUT n j, R.ELCn_BAYj_VST_SNAPTK n j]

/-- The fields of a core that its steps write: the status words of its bays, the open contexts, the dropped sections, the budget counter. -/
def stepFlds (n : Nat) : List Fld :=
  [R.ELCn_TICK_OPEN n, R.ELCn_DROP_C3 n, R.ELCn_C0LAST_LAST n, R.ELCn_C0MAX_MAX n] ++ [0, 1, 2].flatMap (vstFlds n)

/-- A step that leaves every core. -/
abbrev StatusFrame (n : Nat) (s t : State) : Prop := Frame besides thnRange (stepFlds n) s t

/-- A step of core `n`. -/
abbrev StepFrame (n : Nat) (s t : State) : Prop := Frame (others n) thnRange (stepFlds n) s t

theorem StatusFrame.step {n : Nat} {s t : State} (h : StatusFrame n s t) : StepFrame n s t := h.view (others_of_besides n)

section Core
variable {n : Nat} {s t : State}

theorem StepFrame.setCore (h : StepFrame n s t) (c : Core) : StepFrame n s (t.setCore n c) := h.eq rfl (others_setCore t n c)

theorem StepFrame.modCore (h : StepFrame n s t) (k : Core → Core) : StepFrame n s (t.modCore n k) := h.setCore _

theorem StepFrame.fld (h : StepFrame n s t) {f : Fld} (hf : f ∈ stepFlds n) (v : Nat) : StepFrame n s (t.wr f v) :=
  h.wr (.inr hf) v rfl

theorem StatusFrame.vst (h : StatusFrame n s t) {j : Nat} (hj : j ∈ [0, 1, 2]) {f : Fld} (hf : f ∈ vstFlds n j) (v : Nat) :
    StatusFrame n s (t.wr f v) :=
  h.wr (.inr (List.mem_append_right _ (List.mem_flatMap.mpr ⟨j, hj, hf⟩))) v rfl

/-! ### Status words, verdict snapshots (R174, R176, R187) -/

theorem noteGcbs_frame (h : StatusFrame n s t) (hit : GType × GSrc → Bool) : StatusFrame n s (noteGcbs t hit) := h.eq rfl rfl

theorem setLive_frame (h : StatusFrame n s t) (p : Nat) (v : Word) (q : Nat) : StatusFrame n s (setLive t p v q) := h.eq rfl rfl

theorem vstUpdate_frame (h : StatusFrame n s t) {j : Nat} (hj : j ∈ [0, 1, 2]) : StatusFrame n s (vstUpdate t n j) := by
  unfold vstUpdate
  extract_lets a c s1 s2 s3 s4
  have h1 : StatusFrame n s s1 := h.vst hj (f := R.ELCn_BAYj_VST_TEST n j) (by simp [vstFlds]) _
  have h2 : StatusFrame n s s2 := h1.vst hj (f := R.ELCn_BAYj_VST_OUTBLK n j) (by simp [vstFlds]) _
  have h3 : StatusFrame n s s3 := h2.vst hj (f := R.ELCn_BAYj_VST_INVALID n j) (by simp [vstFlds]) _
  exact noteGcbs_frame (h3.vst hj (f := R.ELCn_BAYj_VST_TRIPOUT n j) (by simp [vstFlds]) _) _

theorem vstAll_frame (h : StatusFrame n s t) : StatusFrame n s (vstAll t n) :=
  vstUpdate_frame (vstUpdate_frame (vstUpdate_frame h (by simp)) (by simp)) (by simp)

theorem trigVerdictBits_frame (h : StatusFrame n s t) (b k : Nat) (old new : Word) : StatusFrame n s (trigVerdictBits t b k old new) :=
  Frame.foldl (fun u _ _ => Frame.ite (fun _ => Frame.of_eq rfl rfl) fun _ => Frame.refl u) h

theorem snapM_frame (h : StatusFrame n s t) (j k : Nat) : StatusFrame n s (snapM t n j k) := by
  induction k with
  | zero => exact h
  | succ k ih => exact setLive_frame ih ..

theorem snapBay_frame (h : StatusFrame n s t) (tick : Nat) {j : Nat} (hj : j ∈ [0, 1, 2]) : StatusFrame n s (snapBay t n tick j) := by
  unfold snapBay
  extract_lets b s0 oldS oldT s1 s2 s3 s4 s5 s6 s7
  have h0 : StatusFrame n s s0 := h.vst hj (f := R.ELCn_BAYj_VST_SNAPTK n j) (by simp [vstFlds]) _
  have h4 : StatusFrame n s s4 := setLive_frame (setLive_frame (setLive_frame (setLive_frame h0 ..) ..) ..) ..
  have h5 : StatusFrame n s s5 := setLive_frame (snapM_frame h4 j 32) ..
  have h7 : StatusFrame n s s7 := trigVerdictBits_frame (trigVerdictBits_frame h5 ..) ..
  exact noteGcbs_frame h7 _

theorem twinSnap_frame (h : StatusFrame n s t) (stamp : Nat) : StatusFrame n s (twinSnap t n stamp) := by
  unfold twinSnap
  exact Frame.ite (fun _ => h) fun _ => h.eq rfl rfl

theorem verdictSnapshot_frame (h : StatusFrame n s t) (tick stamp : Nat) : StatusFrame n s (verdictSnapshot t n tick stamp) := by
  unfold verdictSnapshot
  extract_lets s1
  have h1 : StatusFrame n s s1 := snapBay_frame (snapBay_frame (snapBay_frame h tick (by simp)) tick (by simp)) tick (by simp)
  exact twinSnap_frame (t := { s1 with snapTick := mput s1.snapTick n tick }) (h1.eq rfl rfl) stamp

/-! ### Contexts and sections (R177 to R179) -/

theorem takeSnaps_frame (l : List Ctx) (h : StepFrame n s t) : StepFrame n s (takeSnaps t n l) := by
  induction l generalizing t with
  | nil => exact h
  | cons x l ih =>
    rw [takeSnaps]
    split
    · exact ih (StepFrame.modCore (h.trans (StatusFrame.step (verdictSnapshot_frame (Frame.refl t) ..))) _)
    · exact ih h

theorem closeCtxs_frame (h : StepFrame n s t) : StepFrame n s (closeCtxs t n) :=
  ((takeSnaps_frame _ h).modCore _).fld (f := R.ELCn_TICK_OPEN n) (by simp [stepFlds]) _

theorem startSection_frame (h : StepFrame n s t) (x : Ctx) (e : Nat × Nat) : StepFrame n s (startSection t n x e) := by
  unfold startSection
  exact h.modCore _

theorem dispatchNext_frame (h : StepFrame n s t) : StepFrame n s (dispatchNext t n) := by
  unfold dispatchNext
  extract_lets c
  refine Frame.ite (fun _ => h) fun _ => ?_
  split
  · exact h
  · split
    · exact startSection_frame h ..
    · split
      · exact h.setCore _
      · split
        · exact startSection_frame h ..
        · split
          · exact startSection_frame h ..
          · exact h

theorem suspendOlder_frame (h : StepFrame n s t) : StepFrame n s (suspendOlder t n) := by
  unfold suspendOlder
  extract_lets c isC3 dropped live shadow c1 s1
  exact (h.setCore c1).fld (f := R.ELCn_DROP_C3 n) (by simp [stepFlds]) _

theorem recordC0_frame (h : StepFrame n s t) (v : Nat) : StepFrame n s (recordC0 t n v) := by
  unfold recordC0
  extract_lets s1
  exact ((h.fld (f := R.ELCn_C0LAST_LAST n) (by simp [stepFlds]) _).fld (f := R.ELCn_C0MAX_MAX n) (by simp [stepFlds]) _).modCore _

/-- A context that opens joins the others, its class 0 over where it has no such section. -/
def joined (s : State) (n : Nat) (x : Ctx) : State :=
  let s1 := suspendOlder s n
  let y := trimCtx s1 n x
  let s2 := s1.modCore n fun c => { c with ctxs := c.ctxs ++ [y], breach := false, c0Cnt := 0, c0Bay := 0, c0From := s.tb2Ns }
  if y.rest.any fun e => e.1 == 0 then s2 else recordC0 s2 n 3

theorem openContext_eq (s : State) (n : Nat) (x : Ctx) : openContext s n x = closeCtxs (gateUpdate (vstAll (joined s n x) n)) n := rfl

theorem joined_frame (h : StepFrame n s t) (x : Ctx) : StepFrame n s (joined t n x) := by
  unfold joined
  extract_lets s1 y s2
  have h2 : StepFrame n s s2 := (suspendOlder_frame h).modCore _
  exact Frame.ite (fun _ => h2) fun _ => recordC0_frame h2 3

theorem gated_frame (t : State) : StatusFrame n t (gateUpdate (vstAll t n)) :=
  (vstAll_frame (Frame.refl t)).trans (gateUpdate_frame _ _)

theorem openContext_frame (h : StepFrame n s t) (x : Ctx) : StepFrame n s (openContext t n x) :=
  closeCtxs_frame ((joined_frame h x).trans (StatusFrame.step (gated_frame _)))

theorem openHeld_frame (l : List Ctx) (h : StepFrame n s t) : StepFrame n s (openHeld t n l) := by
  induction l generalizing t with
  | nil => exact h
  | cons x l ih =>
    rw [openHeld]
    split
    · exact h
    · exact ih (openContext_frame (h.modCore _) x)

theorem goOn_frame (h : StepFrame n s t) : StepFrame n s (goOn t n) :=
  closeCtxs_frame (dispatchNext_frame (openHeld_frame _ (closeCtxs_frame h)))

end Core

/-! ### Bay modes, setting groups, boundaries (R187 to R194) -/

/-- The registers that core `n` writes, and those of Thorn. -/
def coreRanges (n : Nat) : List (Nat × Nat) := Spec.elcRegs n :: thnRange

/-- What a step of core `n` leaves, whatever of the core it writes. -/
abbrev CoreFrame (n : Nat) (s t : State) : Prop := Frame (others n) (coreRanges n) [] s t

/-- A mode of local bay `j` of core `n` taken: its register, and what each step of the core writes. -/
def actFlds (n j : Nat) : List Fld := R.ELCn_BAYj_MODE_ACT n j :: stepFlds n

/-- The fields that a notification writes beside those. -/
def notifyFlds (n : Nat) : List Fld :=
  [R.ELCn_TICKIX_TICK n, R.ELCn_STAT_QTIMED n, R.ELCn_STAT_LAG_STK n, R.ELCn_CNT_LAGF n, R.ELCn_STAT_STATE n, R.ELCn_STAT_CAUSE n] ++
  [0, 1, 2].flatMap fun j => [R.ELCn_BAYj_MODE_ACT n j, R.ELCn_BAYj_SG_ACT n j, R.ELCn_BAYj_SG_PEND n j]

theorem coreFlds_within (n : Fin 8) : ∀ f ∈ stepFlds n ++ notifyFlds n, Within f (coreRanges n) := by
  unfold Within
  revert n
  decide

section Bays
variable {n : Nat} {s t : State}

theorem Frame.toCore {α : Type} {p : State → α} {l : List Fld} (hn : n < 8) (hp : ∀ {t}, p t = p s → others n t = others n s)
    (hl : ∀ f ∈ l, f ∈ stepFlds n ++ notifyFlds n) (h : Frame p thnRange l s t) : CoreFrame n s t := by
  refine ⟨fun f hlo hlt hr _ => h.rd f hlo hlt (fun r hm => hr r (List.mem_cons_of_mem _ hm)) fun k hk => ?_, hp h.shows⟩
  obtain ⟨hklo, hklt, r, hmem, hin⟩ := coreFlds_within ⟨n, hn⟩ k (hl k hk)
  exact key_ne_of_addr hlo hklo hlt hklt fun he => hr r hmem (he ▸ hin)

theorem StepFrame.toCore (hn : n < 8) (h : StepFrame n s t) : CoreFrame n s t :=
  Frame.toCore hn id (fun _ hf => List.mem_append_left _ hf) h

theorem StatusFrame.toCore (hn : n < 8) (h : StatusFrame n s t) : CoreFrame n s t := StepFrame.toCore hn h.step

theorem CoreFrame.fld (hn : n < 8) (h : CoreFrame n s t) {f : Fld} (hf : f ∈ notifyFlds n) (v : Nat) : CoreFrame n s (t.wr f v) :=
  h.wr (.inl (coreFlds_within ⟨n, hn⟩ f (List.mem_append_right _ hf))) v rfl

theorem CoreFrame.setCore (h : CoreFrame n s t) (c : Core) : CoreFrame n s (t.setCore n c) := h.eq rfl (others_setCore t n c)

theorem seqView_setVer (s : State) (j off : Nat) (v : Word) : seqView n (setVer s n j off v) = seqView n s := by
  rw [setVer, State.modCore, seqView, others_setCore, core_setCore]
  rfl

theorem setAct_frame {j : Nat} (hj : j ∈ [0, 1, 2]) (s : State) (m : Nat) : Frame (seqView n) thnRange (actFlds n j) s (setAct s n j m) := by
  unfold setAct
  extract_lets s1
  have h1 : Frame (seqView n) thnRange (actFlds n j) s s1 := (Frame.refl s).wr (.inr List.mem_cons_self) _ rfl
  have h2 : Frame (seqView n) thnRange (actFlds n j) s (if m == 5 || m == 6 then clearVerdicts s1 n j else s1) := by
    refine Frame.ite (fun _ => h1.eq rfl ?_) fun _ => h1
    rw [clearVerdicts, seqView_setVer, seqView_setVer, seqView_setVer]
  refine h2.trans (Frame.view (Frame.mono ?_ (List.Subset.refl _) (List.subset_cons_self ..)) (seqView_of_besides n))
  exact vstUpdate_frame (Frame.refl _) hj

theorem modeAct_mem {j : Nat} (hj : j ∈ [0, 1, 2]) : R.ELCn_BAYj_MODE_ACT n j ∈ notifyFlds n :=
  List.mem_append_right _ (List.mem_flatMap.mpr ⟨j, hj, by simp⟩)

theorem sgFlds_mem {j : Nat} (hj : j ∈ [0, 1, 2]) : R.ELCn_BAYj_SG_ACT n j ∈ notifyFlds n ∧ R.ELCn_BAYj_SG_PEND n j ∈ notifyFlds n :=
  ⟨List.mem_append_right _ (List.mem_flatMap.mpr ⟨j, hj, by simp⟩), List.mem_append_right _ (List.mem_flatMap.mpr ⟨j, hj, by simp⟩)⟩

theorem CoreFrame.setAct (hn : n < 8) (h : CoreFrame n s t) {j : Nat} (hj : j ∈ [0, 1, 2]) (m : Nat) : CoreFrame n s (setAct t n j m) :=
  h.trans (Frame.toCore hn (fun h => congrArg Prod.fst h) (fun f hf => by
    rcases List.mem_cons.mp hf with rfl | hf
    · exact List.mem_append_right _ (modeAct_mem hj)
    · exact List.mem_append_left _ hf) (setAct_frame hj t m))

theorem CoreFrame.setActs (hn : n < 8) (h : CoreFrame n s t) (a b c : Nat) :
    CoreFrame n s (Machine.setAct (Machine.setAct (Machine.setAct t n 0 a) n 1 b) n 2 c) :=
  ((h.setAct hn (by simp) _).setAct hn (by simp) _).setAct hn (by simp) _

theorem CoreFrame.gateUpdate (h : CoreFrame n s t) : CoreFrame n s (gateUpdate t) :=
  h.trans (((gateUpdate_frame t []).mono (List.subset_cons_self ..) (List.Subset.refl _)).view (others_of_besides n))

theorem CoreFrame.vstAll (hn : n < 8) (h : CoreFrame n s t) : CoreFrame n s (vstAll t n) :=
  h.trans (StatusFrame.toCore hn (vstAll_frame (Frame.refl t)))

theorem coreFail_frame (hn : n < 8) (cause : Nat) (h : CoreFrame n s t) : CoreFrame n s (coreFail t n cause) := by
  unfold coreFail
  extract_lets s1 s2
  have h1 : CoreFrame n s s1 := h.setCore _
  have h2 : CoreFrame n s s2 := ((h1.fld hn (f := R.ELCn_STAT_STATE n) (by simp [notifyFlds]) _).fld hn (f := R.ELCn_STAT_CAUSE n)
    (by simp [notifyFlds]) _).wr (.inl (coreFlds_within ⟨n, hn⟩ _ (List.mem_append_left _ (by simp [stepFlds])))) _ rfl
  exact (h2.setActs hn ..).gateUpdate

theorem applyBoundary_frame (hn : n < 8) (h : CoreFrame n s t) (tick nn : Nat) : CoreFrame n s (applyBoundary t n tick nn) := by
  unfold applyBoundary
  refine Frame.ite (fun _ => h) fun _ => ?_
  extract_lets c s1
  have h1 : CoreFrame n s s1 := h.setCore _
  exact Frame.ite (fun _ => h1.setActs hn ..) fun _ => h1

theorem applyMode_frame (hn : n < 8) (h : CoreFrame n s t) {j : Nat} (hj : j ∈ [0, 1, 2]) : CoreFrame n s (applyMode t n j) := by
  unfold applyMode
  extract_lets c m was s1
  have h1 : CoreFrame n s s1 := h.setCore _
  exact Frame.ite (fun _ => h) fun _ => h1.setAct hn hj m

/-- A setting group changes registers of its bay alone. -/
theorem applyGroup_frame (s : State) (j tick nn : Nat) :
    Frame besides [] [R.ELCn_BAYj_SG_ACT n j, R.ELCn_BAYj_SG_PEND n j] s (applyGroup s n j tick nn) := by
  unfold applyGroup
  refine Frame.ite (fun _ => ?_) fun _ => Frame.refl s
  extract_lets g
  exact ((Frame.refl s).wr (f := R.ELCn_BAYj_SG_ACT n j) (.inr (by simp)) _ rfl).wr (f := R.ELCn_BAYj_SG_PEND n j) (.inr (by simp)) _ rfl

theorem CoreFrame.applyGroup (hn : n < 8) (h : CoreFrame n s t) {j : Nat} (hj : j ∈ [0, 1, 2]) (tick nn : Nat) :
    CoreFrame n s (applyGroup t n j tick nn) := by
  refine h.trans (Frame.toCore hn (others_of_besides n) (fun f hf => List.mem_append_right _ ?_)
    ((applyGroup_frame t j tick nn).mono (List.nil_subset _) (List.Subset.refl _)))
  obtain ⟨hact, hpend⟩ := sgFlds_mem (n := n) hj
  simp only [List.mem_cons, List.not_mem_nil, or_false] at hf
  rcases hf with rfl | rfl
  · exact hact
  · exact hpend

/-- The fields that an overrun of class 1 writes (R180), and those of each step. -/
def overrunFlds (n : Nat) : List Fld := [R.ELCn_STAT_QTIMED n, R.ELCn_STAT_LAG_STK n, R.ELCn_CNT_LAGF n] ++ stepFlds n

/-- What an overrun leaves. -/
abbrev OverrunFrame (n : Nat) (s t : State) : Prop := Frame besides thnRange (overrunFlds n) s t

theorem OverrunFrame.fld (h : OverrunFrame n s t) {f : Fld} (hf : f ∈ overrunFlds n) (v : Nat) : OverrunFrame n s (t.wr f v) :=
  h.wr (.inr hf) v rfl

theorem setQtimed_frame (h : OverrunFrame n s t) (b : Bool) : OverrunFrame n s (setQtimed t n b) := by
  unfold setQtimed
  extract_lets s1
  have h0 : StatusFrame n (t.wrb (R.ELCn_STAT_QTIMED n) b) (t.wrb (R.ELCn_STAT_QTIMED n) b) := Frame.refl _
  have h1 : StatusFrame n (t.wrb (R.ELCn_STAT_QTIMED n) b) s1 :=
    ((h0.vst (j := 0) (by simp) (f := R.ELCn_BAYj_VST_QTIMED n 0) (by simp [vstFlds]) _).vst (j := 1) (by simp)
      (f := R.ELCn_BAYj_VST_QTIMED n 1) (by simp [vstFlds]) _).vst (j := 2) (by simp) (f := R.ELCn_BAYj_VST_QTIMED n 2) (by simp [vstFlds]) _
  exact (h.fld (f := R.ELCn_STAT_QTIMED n) (by simp [overrunFlds]) _).trans
    ((noteGcbs_frame h1 _).mono (List.Subset.refl _) (List.subset_append_right ..))

end Bays

end Sys2Proof.Machine
end

section
/-! PROOFS. What a notification opens in its core (R177 to R182). -/
namespace Sys2Proof.Machine

/-! ### Sections of a context stay until they run -/

/-- A context of instant `i` is open in core `n`, and section `e` of it has not ended. -/
def Sequenced (n : Nat) (i : Inst) (e : Nat × Nat) (s : State) : Prop := ∃ x ∈ (s.core n).ctxs, Spec.contextOf i x ∧ e ∈ x.rest

section Sections
variable {n : Nat} {i : Inst} {e : Nat × Nat} {s t : State}

theorem Sequenced.of_ctxs (h : Sequenced n i e s) (ht : (t.core n).ctxs = (s.core n).ctxs) : Sequenced n i e t := by
  rw [Sequenced, ht]
  exact h

theorem takeSnaps_sequenced (l : List Ctx) (h : Sequenced n i e s) : Sequenced n i e (takeSnaps s n l) := by
  induction l generalizing s with
  | nil => exact h
  | cons x l ih =>
    rw [takeSnaps]
    split
    · refine ih ?_
      obtain ⟨y, hy, hi, he⟩ := h
      have hcore : (verdictSnapshot s n x.tick x.stamp).core n = s.core n :=
        core_of_besides n (verdictSnapshot_frame (Frame.refl s) ..).shows
      rw [Sequenced, core_modCore, hcore]
      refine ⟨_, List.mem_map_of_mem hy, ?_⟩
      split
      · exact ⟨hi, he⟩
      · exact ⟨hi, he⟩
    · exact ih h

theorem takeSnaps_held (l : List Ctx) (s : State) : ((takeSnaps s n l).core n).held = (s.core n).held := by
  induction l generalizing s with
  | nil => rfl
  | cons x l ih =>
    rw [takeSnaps]
    split
    · rw [ih, core_modCore]
      show ((verdictSnapshot s n x.tick x.stamp).core n).held = (s.core n).held
      rw [core_of_besides n (verdictSnapshot_frame (Frame.refl s) ..).shows]
    · exact ih s

theorem closeCtxs_sequenced (h : Sequenced n i e s) : Sequenced n i e (closeCtxs s n) := by
  obtain ⟨y, hy, hi, he⟩ := takeSnaps_sequenced (s.core n).ctxs h
  unfold closeCtxs
  extract_lets s1 s2
  have hctxs : (s2.core n).ctxs = (s1.core n).ctxs.filter fun x => !x.rest.isEmpty := by rw [core_modCore]
  refine Sequenced.of_ctxs (s := s2) ⟨y, ?_, hi, he⟩ rfl
  rw [hctxs]
  exact List.mem_filter.mpr ⟨hy, by simp [List.ne_nil_of_mem he]⟩

theorem closeCtxs_held (s : State) : ((closeCtxs s n).core n).held = (s.core n).held := by
  unfold closeCtxs
  extract_lets s1 s2
  have h2 : (s2.core n).held = (s1.core n).held := by rw [core_modCore]
  exact h2.trans (takeSnaps_held ..)

theorem startSection_ctxs (s : State) (x : Ctx) (e : Nat × Nat) : ((startSection s n x e).core n).ctxs = (s.core n).ctxs := by
  rw [startSection, core_modCore]
  split
  · rfl
  · rfl

theorem dispatchNext_ctxs (s : State) : ((dispatchNext s n).core n).ctxs = (s.core n).ctxs := by
  unfold dispatchNext
  extract_lets c
  split
  · rfl
  · split
    · rfl
    · split
      · exact startSection_ctxs ..
      · split
        · rw [core_setCore]
        · split
          · exact startSection_ctxs ..
          · split
            · exact startSection_ctxs ..
            · rfl

theorem goOn_sequenced (hheld : (s.core n).held = []) (h : Sequenced n i e s) : Sequenced n i e (goOn s n) := by
  unfold goOn
  extract_lets s1
  have h1 : (s1.core n).held = [] := (closeCtxs_held s).trans hheld
  rw [h1]
  exact closeCtxs_sequenced ((closeCtxs_sequenced h).of_ctxs (dispatchNext_ctxs _))

/-! ### A context opens -/

/-- What the trimming of a context reads of its core. -/
theorem runnable_congr (himg : t.img = s.img) (ha : (t.core n).await = (s.core n).await) (hr : (t.core n).reinit = (s.core n).reinit)
    (x : Ctx) (e : Nat × Nat) : runnable t n x e = runnable s n x e := by
  simp only [runnable, entryOf, himg, ha, hr]

theorem suspendOlder_core (s : State) : ((suspendOlder s n).core n).await = (s.core n).await ∧
    ((suspendOlder s n).core n).reinit = (s.core n).reinit ∧ ((suspendOlder s n).core n).held = (s.core n).held := by
  unfold suspendOlder
  extract_lets c isC3 dropped live shadow c1 s1
  have hcore : s1.core n = c1 := core_setCore ..
  show (s1.core n).await = _ ∧ (s1.core n).reinit = _ ∧ (s1.core n).held = _
  rw [hcore]
  exact ⟨rfl, rfl, rfl⟩

theorem recordC0_core (s : State) (v : Nat) : ((recordC0 s n v).core n).ctxs = (s.core n).ctxs ∧
    ((recordC0 s n v).core n).held = (s.core n).held := by
  unfold recordC0
  rw [core_modCore]
  exact ⟨rfl, rfl⟩

/-- The context stands among the open ones with the sections that run; those held back stay so. -/
theorem joined_core (s : State) (x : Ctx) : trimCtx s n x ∈ ((joined s n x).core n).ctxs ∧ ((joined s n x).core n).held = (s.core n).held := by
  obtain ⟨hawait, hreinit, hheld⟩ := suspendOlder_core (n := n) s
  unfold joined
  extract_lets s1 y s2
  have himg : s1.img = s.img := rfl
  have hy : y = trimCtx s n x := by
    have hrun : runnable s1 n x = runnable s n x := funext (runnable_congr himg hawait hreinit x)
    rw [trimCtx, ← hrun]
    rfl
  have hctxs : y ∈ (s2.core n).ctxs := by
    rw [core_modCore]
    exact List.mem_append_right _ (List.mem_singleton_self y)
  have h2 : (s2.core n).held = (s.core n).held := by
    rw [core_modCore]
    exact hheld
  rw [← hy]
  split
  · exact ⟨hctxs, h2⟩
  · obtain ⟨hc, hh⟩ := recordC0_core (n := n) s2 3
    exact ⟨hc ▸ hctxs, hh.trans h2⟩

theorem gated_core (s : State) : (gateUpdate (vstAll s n)).core n = s.core n := core_of_besides n (gated_frame s).shows

theorem openContext_held (s : State) (x : Ctx) : ((openContext s n x).core n).held = (s.core n).held := by
  rw [openContext_eq, closeCtxs_held, gated_core]
  exact (joined_core s x).2

theorem openContext_sequenced {x : Ctx} (hi : Spec.contextOf i x) (he : e ∈ x.rest) (hr : runnable s n x e = true) :
    Sequenced n i e (openContext s n x) := by
  rw [openContext_eq]
  refine closeCtxs_sequenced (Sequenced.of_ctxs (s := joined s n x) ⟨_, (joined_core s x).1, hi, ?_⟩ (congrArg Core.ctxs (gated_core _)))
  exact List.mem_filter.mpr ⟨he, hr⟩

theorem beginContext_sequenced {x : Ctx} (hheld : (s.core n).held = []) (hi : Spec.contextOf i x) (he : e ∈ x.rest)
    (hr : runnable s n x e = true) : Sequenced n i e (beginContext s n x) :=
  goOn_sequenced ((openContext_held s x).trans hheld) (openContext_sequenced hi he hr)

end Sections

/-! ### What a notification finds: modes and groups taken (R187 to R191) -/

/-- The open and held contexts of a core, and the section that runs. -/
def agendaOf (c : Core) : List Ctx × List Ctx × Option Section := (c.ctxs, c.held, c.run)

/-- No request, reload or reinitialisation of local bay `j` waits. -/
def Quiet (n j : Nat) (s : State) : Prop :=
  (s.core n).reloaded = false ∧ ∀ l ∈ [(s.core n).modeReq, (s.core n).await, (s.core n).reinit], j ∉ l

theorem class0Busy_congr {c d : Core} (h : agendaOf c = agendaOf d) : class0Busy c = class0Busy d := by
  simp only [agendaOf, Prod.mk.injEq] at h
  obtain ⟨hc, -, hr⟩ := h
  simp only [class0Busy, class0Running, hc, hr]

section Taking
variable {n j : Nat} {s t : State}

theorem core_of_seqView (h : seqView n t = seqView n s) : unverdicted (t.core n) = unverdicted (s.core n) := congrArg Prod.snd h

theorem agendaOf_of_seqView (h : seqView n t = seqView n s) : agendaOf (t.core n) = agendaOf (s.core n) :=
  (congrArg agendaOf (core_of_seqView h) :)

theorem quiet_of_core (h : unverdicted (t.core n) = unverdicted (s.core n)) (hq : Quiet n j s) : Quiet n j t := by
  have hr : (t.core n).reloaded = (s.core n).reloaded := (congrArg Core.reloaded h :)
  have hm : (t.core n).modeReq = (s.core n).modeReq := (congrArg Core.modeReq h :)
  have ha : (t.core n).await = (s.core n).await := (congrArg Core.await h :)
  have hi : (t.core n).reinit = (s.core n).reinit := (congrArg Core.reinit h :)
  rw [Quiet, hr, hm, ha, hi]
  exact hq

theorem setAct_queue (s : State) {k : Nat} (hk : k ∈ [0, 1, 2]) (m : Nat) : agendaOf ((setAct s n k m).core n) = agendaOf (s.core n) :=
  agendaOf_of_seqView (setAct_frame hk s m).shows

theorem setActs_queue (s : State) (a b c : Nat) :
    agendaOf ((setAct (setAct (setAct s n 0 a) n 1 b) n 2 c).core n) = agendaOf (s.core n) :=
  (setAct_queue _ (by simp) c).trans ((setAct_queue _ (by simp) b).trans (setAct_queue _ (by simp) a))

theorem applyBoundary_queue (s : State) (tick nn : Nat) : agendaOf ((applyBoundary s n tick nn).core n) = agendaOf (s.core n) := by
  unfold applyBoundary
  split
  · rfl
  · extract_lets c s1
    have h1 : agendaOf (s1.core n) = agendaOf (s.core n) := by
      rw [core_setCore]
      rfl
    split
    · exact (setActs_queue ..).trans h1
    · exact h1

theorem applyMode_queue (s : State) {k : Nat} (hk : k ∈ [0, 1, 2]) : agendaOf ((applyMode s n k).core n) = agendaOf (s.core n) := by
  unfold applyMode
  extract_lets c m was s1
  split
  · rfl
  · refine (setAct_queue _ hk m).trans ?_
    rw [core_modCore]
    rfl

/-! A bay for which nothing waits keeps its mode. -/

/-- The bay's mode is still the one that `s` shows, and nothing waits for it. -/
def Steady (n j : Nat) (s t : State) : Prop := Quiet n j t ∧ t.rd (R.ELCn_BAYj_MODE_ACT n j) = s.rd (R.ELCn_BAYj_MODE_ACT n j)

theorem applyBoundary_steady (h : Steady n j s t) (tick nn : Nat) : Steady n j s (applyBoundary t n tick nn) := by
  obtain ⟨⟨hrel, hl⟩, hact⟩ := h
  unfold applyBoundary
  split
  · exact ⟨⟨hrel, hl⟩, hact⟩
  · extract_lets c s1
    have hc : c.reloaded = false := hrel
    rw [if_neg (by simp [hc])]
    refine ⟨?_, hact⟩
    simp only [List.forall_mem_cons, List.not_mem_nil, false_imp_iff, implies_true, and_true] at hl
    obtain ⟨hreq, -, hinit⟩ := hl
    simp only [Quiet, s1, core_setCore, List.forall_mem_cons, List.not_mem_nil, false_imp_iff, implies_true, and_true, hc]
    exact ⟨trivial, hreq, not_false, hinit⟩

/-- A mode of one bay is no field of another. -/
theorem modeAct_apart (n : Fin 8) (j k : Fin 3) (h : j ≠ k) : ∀ f ∈ actFlds n k, (R.ELCn_BAYj_MODE_ACT n j).key ≠ f.key := by
  revert n j k
  decide

theorem modeAct_addr (n : Fin 8) (j : Fin 3) : (R.ELCn_BAYj_MODE_ACT n j).lo < 32 ∧ (R.ELCn_BAYj_MODE_ACT n j).addr < 0x4000000 ∧
    ∀ r ∈ thnRange, ¬ (r.1 ≤ (R.ELCn_BAYj_MODE_ACT n j).addr ∧ (R.ELCn_BAYj_MODE_ACT n j).addr < r.2) := by
  revert n j
  decide

theorem applyMode_steady (hn : n < 8) (hj : j < 3) {k : Nat} (hk : k < 3) (h : Steady n j s t) : Steady n j s (applyMode t n k) := by
  obtain ⟨⟨hrel, hl⟩, hact⟩ := h
  simp only [List.forall_mem_cons, List.not_mem_nil, false_imp_iff, implies_true, and_true] at hl
  obtain ⟨hreq, hawait, hinit⟩ := hl
  unfold applyMode
  extract_lets c m was s1
  split
  · exact ⟨⟨hrel, by simp [hreq, hawait, hinit]⟩, hact⟩
  next hwait =>
    have hkj : j ≠ k := fun he => hwait (.inl (by simp [c, ← he, hreq]))
    have h1 : Quiet n j s1 := by
      simp only [Quiet, s1, core_modCore, List.forall_mem_cons, List.not_mem_nil, false_imp_iff, implies_true, and_true]
      refine ⟨hrel, fun hm => hreq (List.mem_of_mem_filter hm), hawait, ?_⟩
      split
      · split
        · exact hinit
        · exact fun hm => (List.mem_cons.mp hm).elim hkj hinit
      · exact hinit
    have hf : Frame (seqView n) thnRange (actFlds n k) s1 (setAct s1 n k m) := setAct_frame (by simp; omega) s1 m
    obtain ⟨hlo, hlt, hr⟩ := modeAct_addr ⟨n, hn⟩ ⟨j, hj⟩
    exact ⟨quiet_of_core (core_of_seqView hf.shows) h1,
      (hf.rd _ hlo hlt hr (modeAct_apart ⟨n, hn⟩ ⟨j, hj⟩ ⟨k, hk⟩ (by simpa using hkj))).trans hact⟩

/-- Steps that leave the cores and the bay's mode. -/
theorem Steady.besides {u : State} (h : Steady n j s t) (hu : besides u = besides t)
    (hr : u.rd (R.ELCn_BAYj_MODE_ACT n j) = t.rd (R.ELCn_BAYj_MODE_ACT n j)) : Steady n j s u :=
  ⟨quiet_of_core (by rw [core_of_besides n hu]) h.1, hr.trans h.2⟩

theorem modeAct_group (n : Fin 8) (j k : Fin 3) :
    ∀ f ∈ [R.ELCn_BAYj_SG_ACT n k, R.ELCn_BAYj_SG_PEND n k] ++ stepFlds n, (R.ELCn_BAYj_MODE_ACT n j).key ≠ f.key := by
  revert n j k
  decide

theorem applyGroup_steady (hn : n < 8) (hj : j < 3) {k : Nat} (hk : k < 3) (h : Steady n j s t) (tick nn : Nat) :
    Steady n j s (applyGroup t n k tick nn) := by
  obtain ⟨hlo, hlt, -⟩ := modeAct_addr ⟨n, hn⟩ ⟨j, hj⟩
  have hf := applyGroup_frame (n := n) t k tick nn
  exact h.besides hf.shows (hf.rd _ hlo hlt (fun r hm => absurd hm List.not_mem_nil)
    fun f hf => modeAct_group ⟨n, hn⟩ ⟨j, hj⟩ ⟨k, hk⟩ f (List.mem_append_left _ hf))

theorem gated_steady (hn : n < 8) (hj : j < 3) (h : Steady n j s t) : Steady n j s (gateUpdate (vstAll t n)) := by
  obtain ⟨hlo, hlt, hr⟩ := modeAct_addr ⟨n, hn⟩ ⟨j, hj⟩
  have hf := gated_frame (n := n) t
  exact h.besides hf.shows (hf.rd _ hlo hlt hr fun f hf => modeAct_group ⟨n, hn⟩ ⟨j, hj⟩ ⟨0, by decide⟩ f (List.mem_append_right _ hf))

end Taking

/-- A core once a notification has set its bays' modes and groups (R187 to R191, R194, R300). -/
def settled (s : State) (n tick nn : Nat) : State :=
  let s0 := s.modCore n fun c => { c with reinit := c.relayout ++ c.reinit.filter (!c.relayout.contains ·), relayout := [] }
  let s1 := applyBoundary s0 n tick nn
  let s2 := applyMode (applyMode (applyMode s1 n 0) n 1) n 2
  let s3 := applyGroup (applyGroup (applyGroup s2 n 0 tick nn) n 1 tick nn) n 2 tick nn
  gateUpdate (vstAll s3 n)

section Settled
variable (s : State) {n : Nat} (tick nn : Nat)

theorem settled_frame (hn : n < 8) : CoreFrame n s (settled s n tick nn) := by
  unfold settled
  extract_lets s0 s1 s2 s3
  have h0 : CoreFrame n s s0 := CoreFrame.setCore (Frame.refl s) _
  have h1 : CoreFrame n s s1 := applyBoundary_frame hn h0 ..
  have h2 : CoreFrame n s s2 := applyMode_frame hn (applyMode_frame hn (applyMode_frame hn h1 (by simp)) (by simp)) (by simp)
  have h3 : CoreFrame n s s3 := ((h2.applyGroup hn (by simp) ..).applyGroup hn (by simp) ..).applyGroup hn (by simp) ..
  exact (h3.vstAll hn).gateUpdate

theorem settled_queue : agendaOf ((settled s n tick nn).core n) = agendaOf (s.core n) := by
  unfold settled
  extract_lets s0 s1 s2 s3
  have h0 : agendaOf (s0.core n) = agendaOf (s.core n) := by
    rw [core_modCore]
    rfl
  have h2 : agendaOf (s2.core n) = agendaOf (s1.core n) :=
    (applyMode_queue _ (by simp)).trans ((applyMode_queue _ (by simp)).trans (applyMode_queue _ (by simp)))
  have h3 : s3.core n = s2.core n :=
    (core_of_besides n (applyGroup_frame (n := n) ..).shows).trans
      ((core_of_besides n (applyGroup_frame (n := n) ..).shows).trans (core_of_besides n (applyGroup_frame (n := n) ..).shows))
  rw [gated_core, h3, h2]
  exact (applyBoundary_queue ..).trans h0

theorem settled_steady (hn : n < 8) {j : Nat} (hj : j < 3) (hrel : (s.core n).reloaded = false)
    (hl : ∀ l ∈ [(s.core n).modeReq, (s.core n).await, (s.core n).reinit, (s.core n).relayout], j ∉ l) :
    Steady n j s (settled s n tick nn) := by
  simp only [List.forall_mem_cons, List.not_mem_nil, false_imp_iff, implies_true, and_true] at hl
  obtain ⟨hreq, hawait, hinit, hlay⟩ := hl
  unfold settled
  extract_lets s0 s1 s2 s3
  have h0 : Steady n j s s0 := by
    refine ⟨?_, rfl⟩
    simp only [Quiet, s0, core_modCore, List.forall_mem_cons, List.not_mem_nil, false_imp_iff, implies_true, and_true]
    refine ⟨hrel, hreq, hawait, fun hm => ?_⟩
    rcases List.mem_append.mp hm with hm | hm
    · exact hlay hm
    · exact hinit (List.mem_of_mem_filter hm)
  have h1 : Steady n j s s1 := applyBoundary_steady h0 ..
  have h2 : Steady n j s s2 := applyMode_steady hn hj (by decide) (applyMode_steady hn hj (by decide) (applyMode_steady hn hj (by decide) h1))
  have h3 : Steady n j s s3 :=
    applyGroup_steady hn hj (by decide) (applyGroup_steady hn hj (by decide) (applyGroup_steady hn hj (by decide) h2 ..) ..) ..
  exact gated_steady hn hj h3

end Settled

/-! ### The notification (R177, R180 to R182) -/

/-- A core's contexts with one more notification received. -/
def lagged (c : Core) : Core :=
  { c with ctxs := c.ctxs.map fun y => { y with lag := y.lag + 1 }, held := c.held.map fun y => { y with lag := y.lag + 1 } }

/-- TICKIX has taken the tick, and the contexts count the notification. -/
def ticked (s : State) (n tick : Nat) : State := (s.wr (R.ELCn_TICKIX_TICK n) tick).modCore n lagged

/-- The overrun of class 1 has been looked at. -/
def noted (s : State) (n tick : Nat) : State :=
  let s1 := ticked s n tick
  if lagging (s1.core n) then
      ((setQtimed s1 n true).wrb (R.ELCn_STAT_LAG_STK n) true).sat1 (R.ELCn_CNT_LAGF n) |>.raiseLine 6 n
    else if s1.on (R.ELCn_STAT_QTIMED n) then setQtimed s1 n false else s1

/-- The context waits behind the others. -/
def heldBack (s : State) (n : Nat) (x : Ctx) : State :=
  let s3 := s.modCore n fun c => { c with held := c.held ++ [x] }
  s3.wr (R.ELCn_TICK_OPEN n) (s3.core n).openCtxs

theorem notifyCore_eq (s : State) (n : Nat) (x : Ctx) : notifyCore s n x =
    if class0Busy ((noted s n x.tick).core n) || !((noted s n x.tick).core n).held.isEmpty then heldBack (noted s n x.tick) n x
    else beginContext (noted s n x.tick) n x := rfl

theorem tickNotify_eq (s : State) (n tick stamp fword nn : Nat) : tickNotify s n tick stamp fword nn =
    if s.rd (R.ELCn_STAT_STATE n) ≠ 1 then s else if 8 ≤ (s.core n).openCtxs then coreFail s n 4
    else notifyCore (settled s n tick nn) n (ctxOf (settled s n tick nn) n tick stamp fword nn) := rfl

theorem class0Busy_lagged (c : Core) : class0Busy (lagged c) = class0Busy c := by
  rw [class0Busy, class0Busy, lagged, List.getLast?_map]
  cases c.ctxs.getLast? with
  | none => rfl
  | some x => rfl

section Notified
variable (s : State) {n : Nat} (tick : Nat) (x : Ctx)

theorem noted_frame : OverrunFrame n (ticked s n tick) (noted s n tick) := by
  unfold noted
  extract_lets s1
  have h1 : OverrunFrame n s1 s1 := Frame.refl s1
  refine Frame.ite (fun _ => ?_) fun _ => Frame.ite (fun _ => setQtimed_frame h1 _) fun _ => h1
  exact (((setQtimed_frame h1 true).fld (f := R.ELCn_STAT_LAG_STK n) (by simp [overrunFlds]) _).fld (f := R.ELCn_CNT_LAGF n)
    (by simp [overrunFlds]) _).eq rfl rfl

theorem noted_core : (noted s n tick).core n = lagged (s.core n) := by
  rw [core_of_besides n (noted_frame s tick).shows, ticked, core_modCore]
  rfl

theorem noted_img : (noted s n tick).img = s.img := congrArg (fun v => v.2.2.1) (noted_frame (n := n) s tick).shows

theorem overrunFlds_notified (n : Nat) : ∀ f ∈ overrunFlds n, f ∈ stepFlds n ++ notifyFlds n := by
  intro f hf
  rcases List.mem_append.mp hf with hf | hf
  · refine List.mem_append_right _ (List.mem_append_left _ ?_)
    simp only [List.mem_cons, List.not_mem_nil, or_false] at hf ⊢
    rcases hf with rfl | rfl | rfl
    · exact .inr (.inl rfl)
    · exact .inr (.inr (.inl rfl))
    · exact .inr (.inr (.inr (.inl rfl)))
  · exact List.mem_append_left _ hf

variable {s}

theorem noted_core_frame {t : State} (hn : n < 8) (h : CoreFrame n s t) : CoreFrame n s (noted t n tick) := by
  have h1 : CoreFrame n s (ticked t n tick) := (h.fld hn (f := R.ELCn_TICKIX_TICK n) (by simp [notifyFlds]) _).setCore _
  exact h1.trans (Frame.toCore hn (others_of_besides n) (overrunFlds_notified n) (noted_frame t tick))

theorem heldBack_frame (t : State) : StepFrame n t (heldBack t n x) :=
  (StepFrame.modCore (Frame.refl t) _).fld (f := R.ELCn_TICK_OPEN n) (by simp [stepFlds]) _

theorem beginContext_frame (t : State) : StepFrame n t (beginContext t n x) := goOn_frame (openContext_frame (Frame.refl t) x)

theorem notifyCore_step (t : State) : StepFrame n (noted t n x.tick) (notifyCore t n x) := by
  rw [notifyCore_eq]
  exact Frame.ite (fun _ => heldBack_frame x _) fun _ => beginContext_frame x _

theorem tickNotify_frame (hn : n < 8) (s : State) (stamp fword nn : Nat) : CoreFrame n s (tickNotify s n tick stamp fword nn) := by
  rw [tickNotify_eq]
  refine Frame.ite (fun _ => Frame.refl s) fun _ => Frame.ite (fun _ => coreFail_frame hn 4 (Frame.refl s)) fun _ => ?_
  exact (noted_core_frame _ hn (settled_frame s tick nn hn)).trans (StepFrame.toCore hn (notifyCore_step _ _))

theorem notifyFlds_apart (n : Fin 8) : ∀ f ∈ R.ELCn_TICKIX_TICK n :: R.ELCn_STAT_STATE n :: R.ELCn_STAT_CAUSE n ::
    [0, 1, 2].map fun j => R.ELCn_BAYj_MODE_ACT n j, f.lo < 32 ∧ f.addr < 0x4000000 ∧ (∀ r ∈ thnRange, ¬ (r.1 ≤ f.addr ∧ f.addr < r.2)) ∧
    ∀ k ∈ overrunFlds n, f.key ≠ k.key := by
  revert n
  decide

theorem notifyCore_tickix (hn : n < 8) (t : State) : (notifyCore t n x).rd (R.ELCn_TICKIX_TICK n) = x.tick % 2 ^ 32 := by
  obtain ⟨hlo, hlt, hr, hl⟩ := notifyFlds_apart ⟨n, hn⟩ _ List.mem_cons_self
  calc (notifyCore t n x).rd (R.ELCn_TICKIX_TICK n) = (noted t n x.tick).rd (R.ELCn_TICKIX_TICK n) :=
        (notifyCore_step x t).rd _ hlo hlt hr fun k hk => hl k (List.mem_append_right _ hk)
    _ = (ticked t n x.tick).rd (R.ELCn_TICKIX_TICK n) := (noted_frame t x.tick).rd _ hlo hlt hr hl
    _ = x.tick % 2 ^ 32 := rd_wr_self ..

theorem notifyCore_held (t : State) (hb : class0Busy (t.core n) = true) : x ∈ ((notifyCore t n x).core n).held := by
  rw [notifyCore_eq, noted_core, class0Busy_lagged, hb, if_pos (by simp)]
  have hheld : ((heldBack (noted t n x.tick) n x).core n).held = ((noted t n x.tick).core n).held ++ [x] :=
    (congrArg Core.held (core_modCore (noted t n x.tick) n fun c => { c with held := c.held ++ [x] }) :)
  rw [hheld]
  exact List.mem_append_right _ (List.mem_singleton_self x)

theorem notifyCore_sequenced {i : Inst} {e : Nat × Nat} (t : State) (hb : class0Busy (t.core n) = false) (hheld : (t.core n).held = [])
    (hi : Spec.contextOf i x) (he : e ∈ x.rest) (hr : runnable t n x e = true) : Sequenced n i e (notifyCore t n x) := by
  have hempty : ((noted t n x.tick).core n).held = [] := by
    rw [noted_core, lagged, hheld, List.map_nil]
  have hrun : runnable (noted t n x.tick) n x e = true := by
    rw [runnable_congr (noted_img ..) (congrArg Core.await (noted_core ..) :) (congrArg Core.reinit (noted_core ..) :)]
    exact hr
  rw [notifyCore_eq, hempty, noted_core, class0Busy_lagged, hb, if_neg (by simp)]
  exact beginContext_sequenced hempty hi he hrun

theorem statFlds_apart (n : Fin 8) (j : Fin 3) : ∀ f ∈ [R.ELCn_STAT_STATE n, R.ELCn_STAT_CAUSE n], ∀ k ∈ actFlds n j, f.key ≠ k.key := by
  revert n j
  decide

/-- Core `n` fails with its cause (R181, R193). -/
theorem coreFail_shows (hn : n < 8) (t : State) (cause : Nat) (hc : cause < 16) :
    (coreFail t n cause).rd (R.ELCn_STAT_STATE n) = 3 ∧ (coreFail t n cause).rd (R.ELCn_STAT_CAUSE n) = cause := by
  unfold coreFail
  extract_lets s1 s2
  have hkept {f : Fld} (hf : f ∈ [R.ELCn_STAT_STATE n, R.ELCn_STAT_CAUSE n]) :
      (gateUpdate (setAct (setAct (setAct s2 n 0 6) n 1 6) n 2 6)).rd f = s2.rd f := by
    obtain ⟨hlo, hlt, hr, -⟩ := notifyFlds_apart ⟨n, hn⟩ f
      (List.mem_cons_of_mem _ (List.mem_append_left (bs := [0, 1, 2].map fun j => R.ELCn_BAYj_MODE_ACT n j) hf))
    have hact {j : Nat} (hj : j < 3) (u : State) : (setAct u n j 6).rd f = u.rd f :=
      (setAct_frame (by simp; omega) u 6).rd f hlo hlt hr (statFlds_apart ⟨n, hn⟩ ⟨j, hj⟩ f hf)
    rw [gateUpdate_kept _ f hlo hlt hr, hact (by decide), hact (by decide), hact (by decide)]
  have hopen (f : Fld) (hf : f ∈ [R.ELCn_STAT_STATE n, R.ELCn_STAT_CAUSE n]) : s2.rd f = ((s1.wr (R.ELCn_STAT_STATE n) 3).wr (R.ELCn_STAT_CAUSE n) cause).rd f :=
    rd_wr_ne _ _ (statFlds_apart ⟨n, hn⟩ ⟨0, by decide⟩ f hf _ (by simp [actFlds, stepFlds]))
  refine ⟨?_, ?_⟩
  · rw [hkept (by simp), hopen _ (by simp), rd_wr_ne _ _ (key_ne_of_lo rfl), rd_wr_self]
    rfl
  · rw [hkept (by simp), hopen _ (by simp), rd_wr_self]
    exact Nat.mod_eq_of_lt hc

end Notified

/-! ### A core of the FTG is notified -/

section CoreNotified
variable {n : Nat} {i : Inst} {s t : State}

/-- What an image's entry, a live mode and a bay for which nothing waits give: the section runs in the context that opens. -/
theorem runnable_ctxOf {u : State} {cls j : Nat} (hj : j < 3) (himg : u.img = s.img) (hst : Steady n j s u)
    (hp : ∃ p, (12 * n + 3 * cls + j, p) ∈ s.img.entry) (hpos : 0 < s.rd (R.ELCn_BAYj_MODE_ACT n j))
    (hlt : s.rd (R.ELCn_BAYj_MODE_ACT n j) < 5) (tick stamp fword nn : Nat) : runnable u n (ctxOf u n tick stamp fword nn) (cls, j) = true := by
  obtain ⟨⟨-, hl⟩, hact⟩ := hst
  simp only [List.forall_mem_cons, List.not_mem_nil, false_imp_iff, implies_true, and_true] at hl
  obtain ⟨-, hawait, hinit⟩ := hl
  obtain ⟨p, hp⟩ := hp
  have hentry : (entryOf u n (ctxOf u n tick stamp fword nn) (cls, j)).isSome = true := by
    have hany : s.img.entry.any (·.1 == 12 * n + 3 * cls + j) = true := List.any_eq_true.mpr ⟨_, hp, beq_self_eq_true _⟩
    simp only [entryOf, ctxOf, Option.getD_none, himg, hany, if_true, Option.isSome_some]
  have hmode : mget (ctxOf u n tick stamp fword nn).mode j 5 = s.rd (R.ELCn_BAYj_MODE_ACT n j) := by
    rw [← hact]
    interval_cases j
    · rfl
    · rfl
    · rfl
  simp [runnable, hentry, hmode, hpos, hlt, hawait, hinit]

theorem mem_allSections {cls j : Nat} (hc : cls < 4) (hj : j < 3) : (cls, j) ∈ allSections := by
  interval_cases cls <;> interval_cases j <;> decide

theorem tickNotify_notified (hn : n < 8) (s : State) (i : Inst) :
    Spec.CoreNotified s (tickNotify s n i.tick (stampOf i) i.fw i.n) n i := by
  intro hrun
  rw [tickNotify_eq, if_neg (by simp [hrun])]
  refine ⟨fun hfull => ?_, fun hfree => ?_⟩
  · rw [if_pos hfull]
    exact coreFail_shows hn s 4 (by decide)
  · rw [if_neg (by omega)]
    have hqueue : agendaOf ((settled s n i.tick i.n).core n) = agendaOf (s.core n) := settled_queue s i.tick i.n
    have hctx : Spec.contextOf i (ctxOf (settled s n i.tick i.n) n i.tick (stampOf i) i.fw i.n) := ⟨rfl, rfl, rfl, rfl⟩
    refine ⟨notifyCore_tickix _ hn _, fun hb => ⟨_, notifyCore_held _ _ ((class0Busy_congr hqueue).trans hb), hctx⟩, ?_⟩
    intro hb hheld cls hcls j hj hentry hpos hlt hrel hl
    refine notifyCore_sequenced _ _ ((class0Busy_congr hqueue).trans hb) ?_ hctx (mem_allSections hcls hj) ?_
    · exact (congrArg (fun q => q.2.1) hqueue).trans hheld
    · have himg : (settled s n i.tick i.n).img = s.img := congrArg (fun v => v.2.1) (settled_frame s i.tick i.n hn).shows
      exact runnable_ctxOf hj himg (settled_steady s i.tick i.n hn hj hrel hl) hentry hpos hlt ..

/-- A state agrees with another about core `n`, its registers and the image. -/
structure CoreKept (n : Nat) (s t : State) : Prop where
  img : t.img = s.img
  core : t.core n = s.core n
  rd : ∀ f : Fld, f.lo < 32 → (Spec.elcRegs n).1 ≤ f.addr → f.addr < (Spec.elcRegs n).2 → t.rd f = s.rd f

theorem CoreKept.refl (n : Nat) (s : State) : CoreKept n s s := ⟨rfl, rfl, fun _ _ _ _ => rfl⟩

theorem CoreKept.trans {u : State} (h : CoreKept n s t) (hu : CoreKept n t u) : CoreKept n s u :=
  ⟨hu.img.trans h.img, hu.core.trans h.core, fun f hlo hge hlt => (hu.rd f hlo hge hlt).trans (h.rd f hlo hge hlt)⟩

/-- A step keeps a core where neither its ranges nor its fields meet the core's registers. -/
theorem Frame.coreKept {α : Type} {p : State → α} {rs : List (Nat × Nat)} {l : List Fld} (hn : n < 8) (h : Frame p rs l s t)
    (hp : p t = p s → t.img = s.img ∧ t.core n = s.core n) (hrs : ∀ r ∈ rs, r.2 ≤ (Spec.elcRegs n).1 ∨ (Spec.elcRegs n).2 ≤ r.1)
    (hl : ∀ k ∈ l, k.lo < 32 ∧ k.addr < 0x900000) : CoreKept n s t := by
  obtain ⟨himg, hcore⟩ := hp h.shows
  refine ⟨himg, hcore, fun f hlo hge hlt => ?_⟩
  have htop : (Spec.elcRegs n).2 ≤ 0x4000000 := by
    unfold Spec.elcRegs
    omega
  have hbot : 0x900000 ≤ (Spec.elcRegs n).1 := Nat.le_add_right ..
  refine h.rd f hlo (by omega) (fun r hr hin => ?_) fun k hk => ?_
  · have := hrs r hr
    omega
  · obtain ⟨hklo, hkaddr⟩ := hl k hk
    exact key_ne_of_addr hlo hklo (by omega) (by omega) (by omega)

theorem elcFlds_addr (n : Fin 8) : ∀ f ∈ R.ELCn_TICKIX_TICK n :: R.ELCn_STAT_STATE n :: R.ELCn_STAT_CAUSE n ::
    [0, 1, 2].map fun j => R.ELCn_BAYj_MODE_ACT n j, f.lo < 32 ∧ (Spec.elcRegs n).1 ≤ f.addr ∧ f.addr < (Spec.elcRegs n).2 := by
  revert n
  decide

/-- The notification of core `n` is one between states that agree about the core. -/
theorem coreNotified_congr {s' t' : State} (hn : n < 8) (h : Spec.CoreNotified s t n i) (hs : CoreKept n s' s) (ht : CoreKept n t t') :
    Spec.CoreNotified s' t' n i := by
  have hrd {f : Fld} (hf : f ∈ R.ELCn_TICKIX_TICK n :: R.ELCn_STAT_STATE n :: R.ELCn_STAT_CAUSE n ::
      [0, 1, 2].map fun j => R.ELCn_BAYj_MODE_ACT n j) : s.rd f = s'.rd f ∧ t'.rd f = t.rd f := by
    obtain ⟨hlo, hge, hlt⟩ := elcFlds_addr ⟨n, hn⟩ f hf
    exact ⟨hs.rd f hlo hge hlt, ht.rd f hlo hge hlt⟩
  have hstate := hrd (f := R.ELCn_STAT_STATE n) (by simp)
  have hcause := hrd (f := R.ELCn_STAT_CAUSE n) (by simp)
  have htick := hrd (f := R.ELCn_TICKIX_TICK n) (by simp)
  intro hrun
  obtain ⟨hfull, hfree⟩ := h (hstate.1.trans hrun)
  rw [ht.core, ← hs.core, hstate.2, hcause.2, htick.2, ← hs.img]
  refine ⟨hfull, fun hlt8 => ?_⟩
  obtain ⟨hix, hheld, hopen⟩ := hfree hlt8
  refine ⟨hix, hheld, fun hb he cls hcls j hj => ?_⟩
  have hmem : R.ELCn_BAYj_MODE_ACT n j ∈ [0, 1, 2].map fun j => R.ELCn_BAYj_MODE_ACT n j := List.mem_map_of_mem (by simp; omega)
  rw [← (hrd (List.mem_cons_of_mem _ (List.mem_cons_of_mem _ (List.mem_cons_of_mem _ hmem)))).1]
  exact hopen hb he cls hcls j hj

theorem CoreFrame.kept {m : Nat} (hm : m < 8) (hne : m ≠ n) (h : CoreFrame n s t) : CoreKept m s t :=
  h.coreKept hm (fun ho => ⟨congrArg (fun v => v.2.1) ho, core_of_others ho hne⟩)
    (by
      simp only [coreRanges, thnRange, Spec.elcRegs, List.forall_mem_cons, List.not_mem_nil, false_imp_iff, implies_true, and_true]
      omega)
    fun k hk => absurd hk List.not_mem_nil

/-- The notifications of one instant in the cores of a list. -/
def notifyAll (s : State) (i : Inst) (l : List Nat) : State := l.foldl (fun a n => tickNotify a n i.tick (stampOf i) i.fw i.n) s

theorem notifyAll_kept {l : List Nat} (hl : ∀ m ∈ l, m < 8) (hn : n < 8) (hne : n ∉ l) (s : State) : CoreKept n s (notifyAll s i l) := by
  induction l generalizing s with
  | nil => exact CoreKept.refl n s
  | cons m l ih =>
    obtain ⟨hnm, hnl⟩ := not_or.mp (List.mem_cons.not.mp hne)
    have hm := hl m List.mem_cons_self
    exact ((tickNotify_frame i.tick hm s ..).kept hn hnm).trans (ih (fun k hk => hl k (List.mem_cons_of_mem _ hk)) hnl _)

theorem notifyAll_notified {l : List Nat} (hl : ∀ m ∈ l, m < 8) (hd : l.Nodup) (s : State) :
    ∀ n ∈ l, Spec.CoreNotified s (notifyAll s i l) n i := by
  induction l generalizing s with
  | nil => exact fun n hn => absurd hn List.not_mem_nil
  | cons m l ih =>
    obtain ⟨hml, hd⟩ := List.nodup_cons.mp hd
    have hm := hl m List.mem_cons_self
    have hl' : ∀ k ∈ l, k < 8 := fun k hk => hl k (List.mem_cons_of_mem _ hk)
    refine List.forall_mem_cons.mpr ⟨?_, fun n hn => ?_⟩
    · exact coreNotified_congr hm (tickNotify_notified hm s i) (CoreKept.refl m s) (notifyAll_kept hl' hm hml _)
    · have hne : n ≠ m := fun he => hml (he ▸ hn)
      exact coreNotified_congr (hl' n hn) (ih hl' hd _ n hn) ((tickNotify_frame i.tick hm s ..).kept (hl' n hn) hne) (CoreKept.refl ..)

end CoreNotified

end Sys2Proof.Machine
end

section
/-! PROOFS. Grid closes (R158, R162 to R166, R177). -/
namespace Sys2Proof.Machine

theorem Frame.widen {α : Type} {p : State → α} {rs rs' : List (Nat × Nat)} {l : List Fld} {s t : State} (h : Frame p rs l s t)
    (hr : ∀ r ∈ rs, ∃ r' ∈ rs', r'.1 ≤ r.1 ∧ r.2 ≤ r'.2) : Frame p rs' l s t := by
  refine ⟨fun f hlo hlt hout hl => h.rd f hlo hlt (fun r hm hin => ?_) hl, h.shows⟩
  obtain ⟨r', hm', hge, hle⟩ := hr r hm
  exact hout r' hm' ⟨by omega, by omega⟩

/-- The instants and closes of FTG `g`, the image and the clocks. -/
def ftgView (g : Nat) (s : State) : Image × Tim × List Inst × Nat × Option Nat :=
  (s.img, s.tim, (espFtg s g).insts, (espFtg s g).closedN, (espFtg s g).closedAt)

theorem ftgView_of_besides {s t : State} (g : Nat) (h : besides t = besides s) : ftgView g t = ftgView g s := by
  simp only [besides, Prod.mk.injEq] at h
  obtain ⟨-, hesp, himg, htim, -⟩ := h
  simp only [ftgView, espFtg, hesp, himg, htim]

theorem ftgView_of_others {s t : State} (g n : Nat) (h : others n t = others n s) : ftgView g t = ftgView g s := by
  simp only [others, Prod.mk.injEq] at h
  obtain ⟨hesp, himg, htim, -, -⟩ := h
  simp only [ftgView, espFtg, hesp, himg, htim]

/-! ### The steps of a close -/

section Steps
variable (s : State) (g : Fin 4) (i : Inst)

/-- The channels of the FTG that no resampler wrote. -/
def unwritten : List Nat := (chsOf s g).filter fun m => !i.written.contains m

/-- The instant with its samples filled, and recorded. -/
def recorded : State := writeRecord ((unwritten s g i).foldl (fillChannel g i) s) g i

/-- The instant counted as closed. -/
def counted : State :=
  modFtg (recorded s g i) g fun f =>
    { setInst f { i with done := true } with closedN := (espFtg (recorded s g i) g).closedN + 1, closedAt := some (recorded s g i).tb2Ns }

/-- The starters of the FTG's bays, the gates and the live store. -/
def started : State :=
  let s3 := counted s g i
  let s5 := ((groupsOf s3 g).flatMap fun n => [3 * n, 3 * n + 1, 3 * n + 2]).foldl
    (starter i.tick i.n ((espFtg (recorded s g i) g).closedN + 1)) s3
  setLive (gateUpdate s5) (ptFtg g) (BitVec.ofNat 32 i.fw) (limitQ i)

/-- The frequency measurement at the end of a cycle. -/
def measured : State := if (i.tick + 1) % i.n = 0 then measure (started s g i) g i else started s g i

theorem closeTick_eq : closeTick s g i = recClose (notifyAll (measured s g i) i (groupsOf (measured s g i) g)) g i := rfl

theorem groupsOf_lt {n : Nat} (h : n ∈ groupsOf s g) : n < 8 := List.mem_range.mp (List.mem_filter.mp h).1

theorem groupsOf_nodup : (groupsOf s g).Nodup := List.nodup_range.filter _

theorem chsOf_lt {m : Nat} (h : m ∈ chsOf s g) : m < 192 := List.mem_range.mp (List.mem_filter.mp h).1

theorem groupsOf_congr {t : State} (himg : t.img = s.img) (hrd : t.rd R.ESP_GRP_FTG_FTG = s.rd R.ESP_GRP_FTG_FTG) : groupsOf t g = groupsOf s g := by
  simp only [groupsOf, usedGroup, ftgOf, himg, hrd]

theorem chsOf_congr {t : State} (himg : t.img = s.img) (hrd : t.rd R.ESP_GRP_FTG_FTG = s.rd R.ESP_GRP_FTG_FTG) : chsOf t g = chsOf s g := by
  simp only [chsOf, usedGroup, ftgOfCh, ftgOf, himg, hrd]

/-! Registers and views. -/

/-- The fields that fills and the record write. -/
def recordedFlds : List Fld := R.ESP_FTGg_FILL_FILL g :: parityFlds ++ recordFlds g

theorem fills_frame : Frame besides [] (R.ESP_FTGg_FILL_FILL g :: parityFlds) s ((unwritten s g i).foldl (fillChannel g i) s) :=
  Frame.foldl (fun t m _ => fillChannel_frame g i t m []) (Frame.refl s)

theorem recorded_frame : Frame besides [] (recordedFlds g) s (recorded s g i) :=
  ((fills_frame s g i).mono (List.Subset.refl _) (List.subset_append_left ..)).trans
    ((writeRecord_frame _ g i).mono (List.Subset.refl _) (List.subset_append_right ..))

/-- A starter runs for each bay of the FTG's groups. -/
theorem started_frame : Frame besides thnRange parityFlds (counted s g i) (started s g i) := by
  unfold started
  extract_lets s3 s5
  have h5 : Frame besides thnRange parityFlds s3 s5 := Frame.foldl (fun t b hb => starter_frame t i.tick i.n _ ?_) (Frame.refl s3)
  · exact (h5.trans (gateUpdate_frame s5 _)).eq rfl rfl
  · obtain ⟨n, hn, hb⟩ := List.mem_flatMap.mp hb
    have := groupsOf_lt s3 g hn
    simp only [List.mem_cons, List.not_mem_nil, or_false] at hb
    omega

theorem measured_frame : Frame (closeView g) thnRange (closeFlds g) (counted s g i) (measured s g i) := by
  have h6 : Frame (closeView g) thnRange (closeFlds g) (counted s g i) (started s g i) :=
    ((started_frame s g i).mono (List.Subset.refl _) (List.subset_append_left ..)).view (closeView_of_besides g)
  unfold measured
  exact Frame.ite (fun _ => h6.trans ((measure_frame _ i).mono (List.nil_subset _) (List.Subset.refl _))) fun _ => h6

/-- What the notifications may write. -/
def notifyRanges : List (Nat × Nat) := thnRange ++ [(0x900000, 0xA00000)]

theorem notifyAll_frame (l : List Nat) (hl : ∀ n ∈ l, n < 8) : Frame (ftgView g) notifyRanges [] s (notifyAll s i l) := by
  refine Frame.foldl (fun t n hn => ?_) (Frame.refl s)
  have h8 := hl n hn
  refine ((tickNotify_frame i.tick h8 t ..).view (ftgView_of_others g n)).widen ?_
  simp only [coreRanges, notifyRanges, thnRange, Spec.elcRegs, List.forall_mem_cons, List.not_mem_nil, false_imp_iff, implies_true, and_true]
  exact ⟨⟨(0x900000, 0xA00000), by simp, by simp, by simp; omega⟩, ⟨(0xA00000, 0xB00000), by simp, by simp, by simp⟩⟩

/-- From the count on, a close writes Thorn, the cores, parity errors and the measurement alone, before the rows of the recorder. -/
theorem notified_frame : Frame (ftgView g) notifyRanges (closeFlds g) (counted s g i)
    (notifyAll (measured s g i) i (groupsOf (measured s g i) g)) := by
  have hm : Frame (ftgView g) notifyRanges (closeFlds g) (counted s g i) (measured s g i) :=
    ((measured_frame s g i).mono (List.subset_append_left ..) (List.Subset.refl _)).view fun h => by
      simp only [closeView, Prod.mk.injEq] at h
      obtain ⟨-, himg, htim, -, hinsts, hn, hat⟩ := h
      simp only [ftgView, himg, htim, hinsts, hn, hat]
  exact hm.trans ((notifyAll_frame _ g i _ fun n hn => groupsOf_lt _ g hn).mono (List.Subset.refl _) (List.nil_subset _))

theorem closed_frame : Frame (ftgView g) closeRanges (closeFlds g) (counted s g i) (closeTick s g i) := by
  rw [closeTick_eq]
  exact ((notified_frame s g i).mono (List.subset_append_left ..) (List.Subset.refl _)).trans
    (((recClose_frame _ g i).mono (List.subset_append_right ..) (List.subset_append_left ..)).view (ftgView_of_besides g))

/-! Cores. -/

theorem groupFld_apart : ∀ k ∈ recordedFlds g ++ closeFlds g, R.ESP_GRP_FTG_FTG.key ≠ k.key ∧ k.lo < 32 ∧ k.addr < 0x900000 := by
  revert g
  decide

theorem recorded_kept {n : Nat} (hn : n < 8) : CoreKept n s (recorded s g i) :=
  (recorded_frame s g i).coreKept hn (fun h => ⟨congrArg (fun v => v.2.2.1) h, core_of_besides n h⟩) (fun _ hr => absurd hr List.not_mem_nil)
    fun k hk => (groupFld_apart g k (List.mem_append_left _ hk)).2

theorem measured_kept {n : Nat} (hn : n < 8) : CoreKept n (counted s g i) (measured s g i) :=
  (measured_frame s g i).coreKept hn
    (fun h => ⟨congrArg (fun v => v.2.1) h, by rw [State.core, State.core, show (measured s g i).ec = (counted s g i).ec from congrArg Prod.fst h]⟩)
    (by
      simp only [thnRange, Spec.elcRegs, List.forall_mem_cons, List.not_mem_nil, false_imp_iff, implies_true, and_true]
      omega)
    fun k hk => (groupFld_apart g k (List.mem_append_right _ hk)).2

/-- The measurement leaves every core as the close found it. -/
theorem close_kept {n : Nat} (hn : n < 8) : CoreKept n s (measured s g i) :=
  have hcount : CoreKept n (recorded s g i) (counted s g i) := ⟨rfl, rfl, fun _ _ _ _ => rfl⟩
  ((recorded_kept s g i hn).trans hcount).trans (measured_kept s g i hn)

theorem groupsOf_measured : groupsOf (measured s g i) g = groupsOf s g := by
  refine groupsOf_congr s g (close_kept s g i (n := 0) (by decide)).img ?_
  have h1 : (recorded s g i).rd R.ESP_GRP_FTG_FTG = s.rd R.ESP_GRP_FTG_FTG :=
    (recorded_frame s g i).rd _ (by decide) (by decide) (fun r hr => absurd hr List.not_mem_nil)
      fun k hk => (groupFld_apart g k (List.mem_append_left _ hk)).1
  have h2 : (measured s g i).rd R.ESP_GRP_FTG_FTG = (counted s g i).rd R.ESP_GRP_FTG_FTG :=
    (measured_frame s g i).rd _ (by decide) (by decide) (by decide) fun k hk => (groupFld_apart g k (List.mem_append_right _ hk)).1
  exact h2.trans h1

theorem recClose_kept {n : Nat} (hn : n < 8) : CoreKept n s (recClose s g i) :=
  (recClose_frame s g i).coreKept hn (fun h => ⟨congrArg (fun v => v.2.2.1) h, core_of_besides n h⟩)
    (by
      simp only [recRanges, Spec.elcRegs, List.forall_mem_cons, List.not_mem_nil, false_imp_iff, implies_true, and_true]
      omega)
    fun k hk => (groupFld_apart g k (List.mem_append_right _ (List.mem_append_left _ hk))).2

theorem closeTick_notified : ∀ n ∈ groupsOf s g, Spec.CoreNotified s (closeTick s g i) n i := by
  intro n hn
  have h8 := groupsOf_lt s g hn
  rw [closeTick_eq, groupsOf_measured]
  exact coreNotified_congr h8 (notifyAll_notified (fun m => groupsOf_lt s g) (groupsOf_nodup s g) _ n hn) (close_kept s g i h8)
    (recClose_kept _ g i h8)

/-! The FTG's head, its closes, its instants. -/

theorem closeTick_head {f : Fld} (hf : f ∈ headFlds g) : (closeTick s g i).rd f = (recorded s g i).rd f := (closed_frame s g i).head hf

theorem fill_apart : ∀ k ∈ recordFlds g, (R.ESP_FTGg_FILL_FILL g).key ≠ k.key := by
  revert g
  decide

theorem closeTick_fill : (closeTick s g i).rd (R.ESP_FTGg_FILL_FILL g) % 2 ^ 32 =
    (s.rd (R.ESP_FTGg_FILL_FILL g) + (unwritten s g i).length) % 2 ^ 32 := by
  have hmem : R.ESP_FTGg_FILL_FILL g ∈ headFlds g := by simp [headFlds]
  obtain ⟨hlo, hlt, -, -⟩ := headFlds_apart _ hmem
  have hkeep := (writeRecord_frame ((unwritten s g i).foldl (fillChannel g i) s) g i).rd (R.ESP_FTGg_FILL_FILL g)
    hlo hlt (fun _ hr => absurd hr List.not_mem_nil) (fill_apart g)
  rw [closeTick_head s g i hmem, recorded, hkeep]
  exact fills_count g i s _

theorem closeTick_ftg : (espFtg (closeTick s g i) g).insts = (setInst (espFtg s g) { i with done := true }).insts ∧
    (espFtg (closeTick s g i) g).closedN = (espFtg s g).closedN + 1 ∧ (espFtg (closeTick s g i) g).closedAt = some s.tb2Ns := by
  have hr : ftgView g (recorded s g i) = ftgView g s := ftgView_of_besides g (recorded_frame s g i).shows
  have ht := (closed_frame s g i).shows
  simp only [ftgView, Prod.mk.injEq, counted, espFtg_modFtg] at hr ht
  obtain ⟨-, htim, hri, hrn, -⟩ := hr
  obtain ⟨-, -, hti, htn, hta⟩ := ht
  refine ⟨?_, htn.trans (by rw [hrn]), hta.trans ?_⟩
  · rw [hti, setInst, setInst, hri]
  · simp only [State.tb2Ns, State.tbNs, State.tbOf, htim]

theorem setInst_done (f : Ftg) : ∀ x ∈ (setInst f { i with done := true }).insts, x.tick = i.tick → x.t = i.t → x.done = true := by
  intro x hx htick ht
  obtain ⟨y, -, rfl⟩ := List.mem_map.mp hx
  by_cases hy : y.tick = i.tick ∧ y.t = i.t
  · rw [if_pos hy]
  · rw [if_neg hy] at htick ht
    exact absurd ⟨htick, ht⟩ hy

/-! The planes, where no row of the recorder is stored. -/

theorem auState_apart (u : Fin 4) : (R.REC_AUu_STAT_STATE u).lo < 32 ∧ (R.REC_AUu_STAT_STATE u).addr < 0x4000000 ∧
    (∀ r ∈ notifyRanges, ¬ (r.1 ≤ (R.REC_AUu_STAT_STATE u).addr ∧ (R.REC_AUu_STAT_STATE u).addr < r.2)) ∧
    ∀ k ∈ recordedFlds g ++ closeFlds g, (R.REC_AUu_STAT_STATE u).key ≠ k.key := by
  revert g u
  decide

theorem recClose_idle {s : State} (h : Spec.noRecorder s) : recClose s g i = s := by
  refine List.foldlRecOn (motive := fun a => a = s) _ _ rfl fun a ha u hu => ?_
  rw [ha, auState, h u (List.mem_range.mp hu)]
  rfl

theorem noRecorder_notified (h : Spec.noRecorder s) : Spec.noRecorder (notifyAll (measured s g i) i (groupsOf (measured s g i) g)) := by
  intro u hu
  obtain ⟨hlo, hlt, hr, hl⟩ := auState_apart g ⟨u, hu⟩
  calc _ = (counted s g i).rd (R.REC_AUu_STAT_STATE u) :=
        (notified_frame s g i).rd _ hlo hlt hr fun k hk => hl k (List.mem_append_right _ hk)
    _ = s.rd (R.REC_AUu_STAT_STATE u) := (recorded_frame s g i).rd _ hlo hlt (fun r hm => absurd hm List.not_mem_nil)
        fun k hk => hl k (List.mem_append_left _ hk)
    _ = 0 := h u hu

theorem closeTick_mem (h : Spec.noRecorder s) : (closeTick s g i).mem =
    memWrs ((unwritten s g i).foldl (fillChannel g i) s).mem (espInstBase + 16 * (512 * g + gridSlot i)) (Spec.instRecord i) := by
  rw [closeTick_eq, recClose_idle g i (noRecorder_notified s g i h)]
  have hm : (measured s g i).mem = (recorded s g i).mem := by simp [measured, started, counted]
  rw [notifyAll, foldl_mem (fun _ _ => tickNotify_mem ..), hm]
  rfl

theorem instRecord_length : (Spec.instRecord i).length = 16 := by
  simp only [Spec.instRecord, List.length_append, leBytes_length]

theorem mem_unwritten {m : Nat} : m ∈ unwritten s g i ↔ m ∈ chsOf s g ∧ m ∉ i.written := by
  simp [unwritten]

/-- A channel's sample lies below the instant records. -/
theorem sample_below {m slot : Nat} (hm : m < 192) (hs : slot < 512) : valAddr m slot + 4 ≤ espInstBase ∧ flagAddr m slot < espInstBase := by
  unfold valAddr flagAddr espInstBase espValBase espFlagBase
  omega

theorem closeTick_planes (h : Spec.noRecorder s) : Spec.PlanesAtClose s (closeTick s g i) g i := by
  have hmem := closeTick_mem s g i h
  have hlt : ∀ m ∈ unwritten s g i, m < 192 := fun m hm => chsOf_lt s g (List.mem_filter.mp hm).1
  obtain ⟨hout, hset⟩ := fills_planes g i s (unwritten s g i) ((List.nodup_range.filter _).filter _) hlt
  have hbelow {a : Nat} (ha : a < espInstBase ∨ ¬ (espInstBase + 16 * (512 * g + gridSlot i) ≤ a ∧ a < espInstBase + 16 * (512 * g + gridSlot i) + 16)) :
      memRd (closeTick s g i).mem a = memRd ((unwritten s g i).foldl (fillChannel g i) s).mem a := by
    rw [hmem]
    exact memRd_memWrs_out _ _ _ _ (by rw [instRecord_length]; omega)
  refine ⟨fun k hk => ?_, fun m hm => ?_, fun a ha hm => ?_⟩
  · rw [hmem]
    exact memRd_memWrs_in _ _ _ _ hk
  · have hmu := (mem_unwritten s g i).mpr hm
    obtain ⟨hv, hf⟩ := hset m hmu
    obtain ⟨hval, hflag⟩ := sample_below (hlt m hmu) (gridSlot_lt i)
    exact ⟨(rdW_congr fun k hk => hbelow (a := valAddr m (gridSlot i) + k) (.inl (by omega))).trans hv, (hbelow (.inl hflag)).trans hf⟩
  · exact (hbelow (.inr ha)).trans (hout a fun m hmu => hm m ((mem_unwritten s g i).mp hmu))

end Steps

/-! ### GRID_CLOSE and TICK_DEADLINE -/

/-- A close of instant `i` between two states, in O33's terms. -/
def ShowsClose (s t : State) (g : Fin 4) (i : Inst) : Prop :=
  t.on (R.ESP_FTGg_HEAD_VALID g) = true ∧ t.rd (R.ESP_FTGg_HEAD_SLOT g) = i.tick % 512 ∧ t.rd (R.ESP_FTGg_FREQ_FREQ g) = i.fw % 2 ^ 32 ∧
  (espFtg t g).closedN = (espFtg s g).closedN + 1 ∧ (espFtg t g).closedAt = some s.tb2Ns ∧
  (∀ x ∈ (espFtg t g).insts, x.tick = i.tick → x.t = i.t → x.done = true) ∧
  t.rd (R.ESP_FTGg_FILL_FILL g) % 2 ^ 32 =
      (s.rd (R.ESP_FTGg_FILL_FILL g) + ((chsOf s g).filter fun m => !i.written.contains m).length) % 2 ^ 32 ∧
  (∀ n ∈ groupsOf s g, Spec.CoreNotified s t n i) ∧ (Spec.noRecorder s → Spec.PlanesAtClose s t g i)

theorem closeTick_closed (s : State) (g : Fin 4) (i : Inst) : ShowsClose s (closeTick s g i) g i := by
  obtain ⟨hvalid, hslot, hfreq⟩ := writeRecord_shows ((unwritten s g i).foldl (fillChannel g i) s) g i
  obtain ⟨hinsts, hn, hat⟩ := closeTick_ftg s g i
  refine ⟨?_, ?_, ?_, hn, hat, ?_, closeTick_fill s g i, closeTick_notified s g i, closeTick_planes s g i⟩
  · exact (on_of_rd (closeTick_head s g i (by simp [headFlds]))).trans hvalid
  · exact (closeTick_head s g i (by simp [headFlds])).trans hslot
  · exact (closeTick_head s g i (by simp [headFlds])).trans hfreq
  · rw [hinsts]
    exact setInst_done i _

section Deadline
variable (s : State) (g : Fin 4) (i : Inst)

/-- The state with a deadline close counted. -/
def dlCounted : State := s.sat1 (R.ESP_FTGg_CNT_DLCLOSE g)

theorem dlClose_apart : R.ESP_GRP_FTG_FTG.key ≠ (R.ESP_FTGg_CNT_DLCLOSE g).key ∧
    (R.ESP_FTGg_FILL_FILL g).key ≠ (R.ESP_FTGg_CNT_DLCLOSE g).key ∧
    ((R.ESP_FTGg_CNT_DLCLOSE g).lo < 32 ∧ (R.ESP_FTGg_CNT_DLCLOSE g).addr < 0x900000) ∧
    (∀ u : Fin 4, (R.REC_AUu_STAT_STATE u).key ≠ (R.ESP_FTGg_CNT_DLCLOSE g).key) ∧
    ∀ k ∈ recordedFlds g, (R.ESP_FTGg_CNT_DLCLOSE g).key ≠ k.key := by
  revert g
  decide

theorem dlCounted_kept {n : Nat} (hn : n < 8) : CoreKept n s (dlCounted s g) := by
  have hf : Frame besides [] [R.ESP_FTGg_CNT_DLCLOSE g] s (dlCounted s g) := (Frame.refl s).wr (.inr (by simp)) _ rfl
  obtain ⟨-, -, haddr, -, -⟩ := dlClose_apart g
  exact hf.coreKept hn (fun _ => ⟨rfl, rfl⟩) (fun _ hr => absurd hr List.not_mem_nil) fun k hk => by
    rw [List.mem_singleton.mp hk]
    exact haddr

/-- A close at the deadline shows what it would show of the state before its count. -/
theorem dlCounted_closed : ShowsClose s (closeTick (dlCounted s g) g i) g i := by
  obtain ⟨hgrp, hfill, -, hau, -⟩ := dlClose_apart g
  have hg : groupsOf (dlCounted s g) g = groupsOf s g := groupsOf_congr s g rfl (rd_wr_ne _ _ hgrp)
  have hc : chsOf (dlCounted s g) g = chsOf s g := chsOf_congr s g rfl (rd_wr_ne _ _ hgrp)
  have hfl : (dlCounted s g).rd (R.ESP_FTGg_FILL_FILL g) = s.rd (R.ESP_FTGg_FILL_FILL g) := rd_wr_ne _ _ hfill
  obtain ⟨hvalid, hslot, hfreq, hn, hat, hdone, hcount, hcores, hplanes⟩ := closeTick_closed (dlCounted s g) g i
  rw [hc, hfl] at hcount
  rw [hg] at hcores
  refine ⟨hvalid, hslot, hfreq, hn, hat, hdone, hcount, fun n hm => ?_, fun hrec => ?_⟩
  · have h8 := groupsOf_lt s g hm
    exact coreNotified_congr h8 (hcores n hm) (dlCounted_kept s g h8) (CoreKept.refl ..)
  · have h := hplanes fun u hu => (rd_wr_ne _ _ (hau ⟨u, hu⟩)).trans (hrec u hu)
    rw [Spec.PlanesAtClose, hc] at h
    exact h

theorem dlCounted_count : (closeTick (dlCounted s g) g i).rd (R.ESP_FTGg_CNT_DLCLOSE g) =
    min (s.rd (R.ESP_FTGg_CNT_DLCLOSE g) + 1) (2 ^ (R.ESP_FTGg_CNT_DLCLOSE g).w - 1) := by
  obtain ⟨-, -, -, -, hrec⟩ := dlClose_apart g
  obtain ⟨hlo, hlt, -, -⟩ := headFlds_apart (g := g) (R.ESP_FTGg_CNT_DLCLOSE g) (by simp [headFlds])
  calc _ = (recorded (dlCounted s g) g i).rd (R.ESP_FTGg_CNT_DLCLOSE g) := closeTick_head _ g i (by simp [headFlds])
    _ = (dlCounted s g).rd (R.ESP_FTGg_CNT_DLCLOSE g) := (recorded_frame _ g i).rd _ hlo hlt (fun _ hr => absurd hr List.not_mem_nil) hrec
    _ = min (s.rd (R.ESP_FTGg_CNT_DLCLOSE g) + 1) (2 ^ (R.ESP_FTGg_CNT_DLCLOSE g).w - 1) :=
      (rd_wr_self ..).trans (Nat.mod_eq_of_lt (Nat.lt_of_le_of_lt (Nat.min_le_right ..) (Nat.sub_lt (Nat.two_pow_pos _) Nat.one_pos)))

end Deadline

section Commands
variable {s : State} {g : Fin 4}

theorem exec_gridClose_none (h : oldestOpen (espFtg s g) = none) : exec (.gridClose g) s = .next s := by
  show execGridClose g s = _
  rw [execGridClose, h]

theorem exec_tickDeadline_none (h : oldestOpen (espFtg s g) = none) : exec (.tickDeadline g) s = .next s := by
  show execTickDeadline g s = _
  rw [execTickDeadline, h]

variable {i : Inst} (h : oldestOpen (espFtg s g) = some i)
include h

theorem exec_gridClose : exec (.gridClose g) s = .next (if complete s g i then closeTick s g i else s) := by
  show execGridClose g s = _
  rw [execGridClose, h]

theorem exec_tickDeadline : exec (.tickDeadline g) s =
    .next (if complete s g i || decide (actU s < i.t + dlnNs s g * nsU) then s else closeTick (dlCounted s g) g i) := by
  show execTickDeadline g s = _
  rw [execTickDeadline, h]
  rfl

end Commands

/-- Settles O33: the frames of the fills, the instant record, the starters, the measurement, the notifications and the recorder's rows
compose to one of the close. Of the log: the slot before (assumption 28). -/
theorem gridCloses : Obligations.GridCloses := by
  unfold Obligations.GridCloses
  refine fun g s => ⟨fun i hi => ?_, fun h => ⟨exec_gridClose_none h, exec_tickDeadline_none h⟩⟩
  refine ⟨fun hc => ⟨_, ?_, closeTick_closed s g i⟩, fun hc hd => ⟨_, ?_, dlCounted_closed s g i, dlCounted_count s g i⟩,
    fun hc hd => ?_, fun hc => ?_, fun hc => ?_⟩
  · rw [exec_gridClose hi, hc]
    rfl
  · rw [exec_tickDeadline hi, hc, if_neg (by simpa using hd)]
  · rw [exec_tickDeadline hi, hc, if_pos (by simpa using hd)]
  · rw [exec_gridClose hi, hc]
    rfl
  · rw [exec_tickDeadline hi, hc]
    rfl

end Sys2Proof.Machine
end

section
/-! PROOFS. Requests of a power state (R468). -/
namespace Sys2Proof.Machine

/-- In safe, maintenance, unbooted, exchanging or changing state a request is refused. -/
theorem pwrRefused_iff (s : State) : pwrRefused s = true ↔ s.on R.PRV_STAT_SAFE = true ∨ s.on R.GLB_BOOT_MAINT = true ∨
    s.on R.GLB_BOOT_DONE = false ∨ s.rd R.SCH_EXCH_STAT_STATE ≠ 0 ∨ s.glb.trans ≠ 0 := by
  simp only [pwrRefused, exchState, Bool.or_eq_true, bne_iff_ne, Bool.not_eq_true', or_assoc]

theorem setPwr_glb (s : State) (st : Nat) : (setPwr s st).glb = s.glb := by
  unfold setPwr
  split
  · rfl
  · exact fireVec_glb ..

theorem movePwr_glb (s : State) (st : Nat) : (movePwr s st).glb = s.glb := setPwr_glb s st

theorem movePwr_rd_ne (s : State) (st : Nat) {f : Fld} (h : f.key ≠ R.GLB_PWR_STATE.key) : (movePwr s st).rd f = s.rd f :=
  setPwr_rd_ne s st h

theorem movePwr_state (s : State) {st : Nat} (h : st < 8) : (movePwr s st).rd R.GLB_PWR_STATE = st := setPwr_rd_self s h

/-- The register of the power state. -/
def pwrRegs : List (Nat × Nat) := [(0x14, 0x18)]

theorem within_pwr : ∀ f ∈ [R.GLB_PWR_STATE, R.GLB_PWR_REQ, R.GLB_PWR_REFUSED_STK], Within f pwrRegs := by
  unfold Within
  decide

theorem setPwr_kept {s t : State} (h : RegsKept s t pwrRegs) (st : Nat) : RegsKept s (setPwr t st) pwrRegs := by
  unfold setPwr
  split
  · exact h
  · exact regsKept_of_regs (regsKept_wr (within_pwr _ (by simp)) h _) (fireVec_regs ..)

theorem movePwr_kept {s t : State} (h : RegsKept s t pwrRegs) (st : Nat) : RegsKept s (movePwr t st) pwrRegs := setPwr_kept h st

theorem stopTasks_keeps {γ : Type} {p : State → γ} (hp : ∀ (a : State) (n : Nat) (f : Core → Core), p (a.modCore n f) = p a)
    (hs : ∀ (a : State) (f : Sch → Sch), p (modSch a f) = p a) (s : State) : p (stopTasks s) = p s := by
  refine (foldl_keeps (p := p) (fun t n => ?_) _ _).trans (hs s _)
  split
  · exact hp ..
  · rfl

theorem stopTasks_regs (s : State) : (stopTasks s).regs = s.regs := stopTasks_keeps (fun _ _ _ => rfl) (fun _ _ => rfl) s
theorem stopTasks_glb (s : State) : (stopTasks s).glb = s.glb := stopTasks_keeps (fun _ _ _ => rfl) (fun _ _ => rfl) s

section Request
variable {s : State} {q : Nat}

theorem powerRequest_same (h : (q = 0 ∧ s.rd R.GLB_PWR_STATE = 1) ∨ (q = 1 ∧ s.rd R.GLB_PWR_STATE = 2)) : powerRequest s q = s := by
  rw [powerRequest, if_pos (by tauto)]

variable (hq : q ≤ 2) (h : ¬ ((q = 0 ∧ s.rd R.GLB_PWR_STATE = 1) ∨ (q = 1 ∧ s.rd R.GLB_PWR_STATE = 2)))
include hq h

theorem powerRequest_refused (hr : pwrRefused s = true) : powerRequest s q = glbEvent (s.wrb R.GLB_PWR_REFUSED_STK true) 2 [] := by
  rw [powerRequest, if_neg (by omega), if_pos hr]

/-- The state in which a transition has been asked for. -/
def asked (s : State) (q : Nat) : State :=
  setGlb (s.wr R.GLB_PWR_REQ q) { s.glb with trans := if q = 0 then 3 else q, transAt := s.tb2Ns }

theorem powerRequest_granted (hr : pwrRefused s = false) : powerRequest s q =
    if q = 0 then movePwr (asked s q) 4 else movePwr (if s.rd R.GLB_PWR_STATE = 1 then stopTasks (asked s q) else asked s q) 3 := by
  rw [powerRequest, if_neg (by omega), if_neg (by rw [hr]; exact Bool.false_ne_true)]
  rfl

end Request

/-- What a granted request shows. -/
def Granted (s t : State) (q : Nat) : Prop := t.rd R.GLB_PWR_REQ = q ∧ t.glb.trans = (if q = 0 then 3 else q) ∧
  t.rd R.GLB_PWR_STATE = (if q = 0 then 4 else 3) ∧ SameBytes s t ∧ RegsKept s t [(0x14, 0x18)]

theorem granted_movePwr {s u : State} {q : Nat} (hq : q ≤ 2) (hr : u.regs = (asked s q).regs) (hg : u.glb = (asked s q).glb) (hm : u.mem = s.mem) :
    Granted s (movePwr u (if q = 0 then 4 else 3)) q := by
  have hreq : (movePwr u (if q = 0 then 4 else 3)).rd R.GLB_PWR_REQ = q :=
    (movePwr_rd_ne u _ (by decide)).trans ((rd_of_regs hr _).trans ((rd_wr_self ..).trans (Nat.mod_eq_of_lt (show q < 4 by omega))))
  have hst : (if q = 0 then 4 else 3) < 8 := by
    split
    · decide
    · decide
  have hk : RegsKept s u pwrRegs := regsKept_of_regs (regsKept_wr (within_pwr R.GLB_PWR_REQ (by simp)) (regsKept_refl s _) q) hr
  refine ⟨hreq, ?_, movePwr_state u hst, sameBytes_of_mem ?_, movePwr_kept hk _⟩
  · rw [movePwr_glb, hg]
    rfl
  · rw [movePwr_mem, hm]

/-- What a stop of the tasks keeps is kept where they stop on a condition. -/
theorem tasksStopped {γ : Type} {p : State → γ} {a : State} (h : p (stopTasks a) = p a) {c : Prop} [Decidable c] :
    p (if c then stopTasks a else a) = p a := by
  split
  · exact h
  · rfl

theorem powerRequest_grants {s : State} {q : Nat} (hq : q ≤ 2)
    (h : ¬ ((q = 0 ∧ s.rd R.GLB_PWR_STATE = 1) ∨ (q = 1 ∧ s.rd R.GLB_PWR_STATE = 2))) (hr : pwrRefused s = false) :
    Granted s (powerRequest s q) q := by
  rw [powerRequest_granted hq h hr]
  split
  next h0 =>
    have hg := granted_movePwr (s := s) (u := asked s q) hq rfl rfl rfl
    rwa [if_pos h0] at hg
  next h0 =>
    have hg := granted_movePwr (s := s) (u := if s.rd R.GLB_PWR_STATE = 1 then stopTasks (asked s q) else asked s q) hq
      (tasksStopped (stopTasks_regs _)) (tasksStopped (stopTasks_glb _)) (tasksStopped (stopTasks_mem _))
    rwa [if_neg h0] at hg

/-- What a command that asks for state `q` does, in O47's terms. -/
theorem powerRequest_asks {s : State} {c : Instr} {q : Nat} (hq : q ≤ 2) (hc : exec c s = .next (powerRequest s q)) :
    let st := s.rd R.GLB_PWR_STATE
    let refused : Prop := s.on R.PRV_STAT_SAFE = true ∨ s.on R.GLB_BOOT_MAINT = true ∨ s.on R.GLB_BOOT_DONE = false ∨
      s.rd R.SCH_EXCH_STAT_STATE ≠ 0 ∨ s.glb.trans ≠ 0
    let same : Prop := (q = 0 ∧ st = 1) ∨ (q = 1 ∧ st = 2)
    (same → exec c s = .next s) ∧
    (¬ same → refused → Runs c s fun t => t.on R.GLB_PWR_REFUSED_STK = true ∧ t.glb = s.glb ∧ SameBytes s t ∧
      (∃ e, t.yew.cross = s.yew.cross ++ [e] ∧ e.src = 0 ∧ e.code = 2) ∧ RegsKept s t [(0x14, 0x18)]) ∧
    (¬ same → ¬ refused → Runs c s fun t => t.rd R.GLB_PWR_REQ = q ∧ t.glb.trans = (if q = 0 then 3 else q) ∧
      t.rd R.GLB_PWR_STATE = (if q = 0 then 4 else 3) ∧ SameBytes s t ∧ RegsKept s t [(0x14, 0x18)]) := by
  refine ⟨fun h => by rw [hc, powerRequest_same h], fun h hr => ⟨_, hc, ?_⟩, fun h hr => ⟨_, hc, ?_⟩⟩
  · rw [powerRequest_refused hq h ((pwrRefused_iff s).mpr hr)]
    have hkept : RegsKept s (s.wrb R.GLB_PWR_REFUSED_STK true) pwrRegs :=
      regsKept_wr (within_pwr R.GLB_PWR_REFUSED_STK (by simp)) (regsKept_refl s _) _
    exact ⟨on_wrb_self s R.GLB_PWR_REFUSED_STK true rfl, rfl, fun _ => rfl, ⟨_, rfl, rfl, rfl⟩, regsKept_of_regs hkept rfl⟩
  · exact powerRequest_grants hq h (Bool.eq_false_iff.mpr fun ht => hr ((pwrRefused_iff s).mp ht))

end Sys2Proof.Machine
end

section
/-! PROOFS. The memory below the element cores', and the checkpoint copies in it (R287, R289, R463, R506). -/
namespace Sys2Proof.Machine

/-- The bytes below `hi` read as before. -/
def LowKept (hi : Nat) (s t : State) : Prop := ∀ a < hi, memRd t.mem a = memRd s.mem a

namespace LowKept
variable {hi : Nat} {s t u : State}

theorem of_mem (h : t.mem = s.mem) : LowKept hi s t := fun a _ => by rw [h]

theorem refl (s : State) : LowKept hi s s := of_mem rfl

theorem trans (h : LowKept hi s t) (hu : LowKept hi t u) : LowKept hi s u := fun a ha => (hu a ha).trans (h a ha)

theorem mono {lo : Nat} (h : LowKept hi s t) (hle : lo ≤ hi) : LowKept lo s t := fun a ha => h a (Nat.lt_of_lt_of_le ha hle)

/-- Nothing more changes of memory. -/
theorem mem (h : LowKept hi s t) (hu : u.mem = t.mem) : LowKept hi s u := h.trans (of_mem hu)

/-- Bytes written at `hi` or above it. -/
theorem wrs (h : LowKept hi s t) {a : Nat} {l : List Byte} (ha : hi ≤ a) (hu : u.mem = memWrs t.mem a l) : LowKept hi s u := by
  refine h.trans fun b hb => ?_
  rw [hu]
  exact memRd_memWrs_out _ _ _ _ (.inl (by omega))

/-- A range cleared at `hi` or above it. -/
theorem clear (h : LowKept hi s t) {a b : Nat} (ha : hi ≤ a) (hu : u.mem = memClear t.mem a b) : LowKept hi s u := by
  refine h.trans fun x hx => ?_
  rw [hu]
  exact memRd_memClear _ (.inl (by omega))

theorem ite {c : Prop} [Decidable c] (h : c → LowKept hi s t) (hu : ¬ c → LowKept hi s u) : LowKept hi s (if c then t else u) := by
  split
  next hc => exact h hc
  next hc => exact hu hc

theorem foldl {β : Type} {g : State → β → State} (bs : List β) (hg : ∀ t, ∀ b ∈ bs, LowKept hi t (g t b)) (h : LowKept hi s t) :
    LowKept hi s (bs.foldl g t) := by
  induction bs generalizing t with
  | nil => exact h
  | cons b bs ih => exact ih (fun t b hb => hg t b (List.mem_cons_of_mem _ hb)) (h.trans (hg t b List.mem_cons_self))

end LowKept

/-! ### Checkpoint copies (R287, R289) -/

theorem ckBase_le {c : Nat} (hc : c < 2) : ckBase c + 0x40000 ≤ 0x1000000 := by
  unfold ckBase retBase mramBase
  omega

theorem rdMem_low {s t : State} (h : LowKept 0x1000000 s t) {a n : Nat} (ha : a + n ≤ 0x1000000) : t.rdMem a n = s.rdMem a n := by
  rw [State.rdMem, State.rdMem]
  refine memRds_congr fun k hk => ?_
  have hlt : a + k < 0x1000000 := by omega
  exact h _ hlt

section Copies
variable {s t : State} (h : LowKept 0x1000000 s t)
include h

theorem doneWord_low {c : Nat} (hc : c < 2) : doneWord t c = doneWord s c := by
  have hle := ckBase_le hc
  rw [doneWord, doneWord, State.rdW, State.rdW, rdMem_low h (by rw [doneAddr]; omega)]

theorem ckptAt_low {c : Nat} (hc : c < 2) : ckptAt t c = ckptAt s c := by
  have hle := ckBase_le hc
  have hlen : t.rdMem (ckBase c + 40) 4 = s.rdMem (ckBase c + 40) 4 := rdMem_low h (by omega)
  simp only [ckptAt, hlen, doneWord_low h hc]
  by_cases hbad : doneWord s c = 0 ∨ 0x3FFF8 < 56 + leNat (s.rdMem (ckBase c + 40) 4)
  · rw [if_pos hbad, if_pos hbad]
  · rw [if_neg hbad, if_neg hbad, rdMem_low h (by omega), rdMem_low h (by omega)]

theorem goodCkpts_low : goodCkpts t = goodCkpts s := by
  have hn : newer1 t = newer1 s := by rw [newer1, newer1, doneWord_low h (by decide), doneWord_low h (by decide)]
  have hl : ∀ c ∈ (if newer1 s then [1, 0] else [0, 1]), c < 2 := by
    split
    · decide
    · decide
  unfold goodCkpts
  rw [hn]
  exact List.filterMap_congr fun c hc => by rw [ckptAt_low h (hl c hc)]

theorem nextCopy_low : nextCopy t = nextCopy s := by
  rw [nextCopy, nextCopy, goodCkpts_low h]

end Copies

theorem nextCopy_lt (s : State) : nextCopy s < 2 := by
  unfold nextCopy
  split
  · omega
  · decide

/-! ### The DRAM writer, and domains that go off -/

section Off
variable {s t : State}

theorem dramPutWords_low (h : LowKept dramBase s t) (x : Nat) (l : List Byte) : LowKept dramBase s (dramPutWords t x l) :=
  h.wrs (Nat.le_add_right ..) rfl

theorem ringPush_low (h : LowKept dramBase s t) (desc : List Byte) : LowKept dramBase s (ringPush t 3 desc []) := by
  unfold ringPush
  split
  · exact h
  · split
    · exact h.mem rfl
    · extract_lets k s1 s2
      have h2 : LowKept dramBase s (s2.inc (R.HST_Rr_PROD_PROD 3)) := (dramPutWords_low h _ _).mem rfl
      unfold ringVec
      exact LowKept.ite (fun _ => h2.mem rfl) fun _ => h2.mem (fireVec_mem ..)

theorem finishRecord_low (h : LowKept dramBase s t) (u : Nat) : LowKept dramBase s (finishRecord t u) := by
  unfold finishRecord
  extract_lets x
  split
  · exact h
  next c _ =>
    extract_lets ext s1 s2 s3
    have h1 : LowKept dramBase s s1 := LowKept.ite (fun _ => dramPutWords_low h _ _) fun _ => h
    have h3 : LowKept dramBase s s3 := LowKept.ite (fun _ => h1.mem rfl) fun _ => h1.mem rfl
    exact ringPush_low (t := s3.setBit (R.REC_AUu_VALID_COMPLETE u) c.slot) (h3.mem rfl) _

theorem recPowerDown_low (s : State) : LowKept dramBase s (recPowerDown s) := by
  refine LowKept.foldl _ (fun t u _ => ?_) (LowKept.refl s)
  have hcut : LowKept dramBase t (cutRecord t u) := by
    unfold cutRecord
    extract_lets x
    split
    · exact finishRecord_low (LowKept.of_mem rfl) u
    · exact LowKept.refl t
  exact hcut.mem rfl

/-- What any domain loses of memory lies at DRAM or above it. -/
theorem losePd_low (s : State) (d : Nat) : LowKept dramBase s (losePd s d) := by
  have h0 := LowKept.refl (hi := dramBase) s
  have hcore {t u : State} (h : LowKept dramBase s t) (n : Nat)
      (hu : u.mem = memClear t.mem (ecInstrBase n) (ecInstrBase n + 0x100000)) : LowKept dramBase s u :=
    h.clear (by simp only [dramBase, ecInstrBase]; omega) hu
  unfold losePd
  extract_lets core
  split
  · exact h0.clear (a := espValBase) (by decide) rfl
  · exact hcore (hcore (u := core s 0) h0 0 rfl) 1 rfl
  · exact hcore (hcore (u := core s 2) h0 2 rfl) 3 rfl
  · exact hcore (hcore (u := core s 4) h0 4 rfl) 5 rfl
  · exact hcore (hcore (u := core s 6) h0 6 rfl) 7 rfl
  · exact h0.clear (a := scBase) (by decide) rfl
  · exact h0.mem rfl
  · exact h0.clear (a := cfgBase 0) (by decide) rfl
  · exact h0.mem rfl
  · exact h0.clear (a := dramBase) (Nat.le_refl _) rfl
  · exact h0

theorem domainsLost_low (s : State) (ds : List Nat) : LowKept dramBase s (domainsLost s ds) := by
  refine LowKept.foldl _ (fun t _ _ => LowKept.of_mem rfl) (LowKept.foldl _ (fun t d _ => losePd_low t d) ?_)
  exact LowKept.ite (fun _ => recPowerDown_low s) fun _ => LowKept.refl s

theorem powerOff_mem_lost (s : State) (ds : List Nat) : (powerOff s ds).mem = (domainsLost s ds).mem := by
  rw [powerOff_eq, gateUpdate_mem, clearCrossings_mem, wr_mem]

theorem powerOff_low (s : State) (ds : List Nat) : LowKept dramBase s (powerOff s ds) := (domainsLost_low s ds).mem (powerOff_mem_lost s ds)

/-- Once PD11 has gone off as the last, DRAM reads 0. -/
theorem powerOff_dram (s : State) (ds : List Nat) {a : Nat} (hge : dramBase ≤ a) (hlt : a < dramBase + 0x100000000) :
    memRd (powerOff s (ds ++ [11])).mem a = 0 := by
  have hmem : (domainsLost s (ds ++ [11])).mem = memClear (ds.foldl losePd
      (if (ds ++ [11]).contains 1 && s.pg 1 then recPowerDown s else s)).mem dramBase (dramBase + 0x100000000) := by
    rw [domainsLost, foldl_keeps (p := State.mem) endReset_mem, List.foldl_append]
    rfl
  rw [powerOff_mem_lost, hmem, memRd, memClear, mget_filter _ fun k => !(decide (dramBase ≤ k) && decide (k < dramBase + 0x100000000)), if_neg]
  rw [decide_eq_true hge, decide_eq_true hlt]
  exact Bool.false_ne_true

/-! Registers of SCH stand while PD6 stays on. -/

/-- Where registers lie that the loss of PD1 to PD5 and PD10 touches. -/
def fabRegs : List (Nat × Nat) := [(0x600000, 0xB00000), (0xC00000, 0x1000000)]

theorem fab_covers {lo hi : Nat} (h : 0x600000 ≤ lo) (hh : hi ≤ 0xB00000) : Covers fabRegs lo hi := ⟨_, List.mem_cons_self, h, hh⟩

theorem losePd_fab (s : State) {d : Nat} (hd : d ∈ [1, 2, 3, 4, 5, 10]) : RegsKept s (losePd s d) fabRegs := by
  have drop {t : State} (h : RegsKept s t fabRegs) (lo hi : Nat) (hl : 0x600000 ≤ lo) (hh : hi ≤ 0xB00000) :
      RegsKept s (dropFlds t lo hi) fabRegs := regsKept_dropFlds (fab_covers hl hh) h
  have h0 := regsKept_refl s fabRegs
  have hcore {t u : State} (h : RegsKept s t fabRegs) (n : Nat) (hn : n < 8)
      (hu : u.regs = (dropFlds t (0x900000 + 0x10000 * n) (0x910000 + 0x10000 * n)).regs) : RegsKept s u fabRegs :=
    regsKept_of_regs (drop h (0x900000 + 0x10000 * n) (0x910000 + 0x10000 * n) (by omega) (by omega)) hu
  simp only [List.mem_cons, List.not_mem_nil, or_false] at hd
  rcases hd with rfl | rfl | rfl | rfl | rfl | rfl
  · exact regsKept_of_regs (drop (drop h0 0x700000 0x900000 (by omega) (by omega)) 0xA00000 0xB00000 (by omega) (by omega)) rfl
  · exact hcore (hcore h0 0 (by omega) rfl) 1 (by omega) rfl
  · exact hcore (hcore h0 2 (by omega) rfl) 3 (by omega) rfl
  · exact hcore (hcore h0 4 (by omega) rfl) 5 (by omega) rfl
  · exact hcore (hcore h0 6 (by omega) rfl) 7 (by omega) rfl
  · exact regsKept_of_regs (drop h0 0x600000 0x700000 (by omega) (by omega)) rfl

theorem recPowerDown_frame (s : State) : RecFrame s (recPowerDown s) := by
  refine Frame.foldl (fun t u hu => ?_) (Frame.refl s)
  have hk := List.mem_range.mp hu
  exact (RecFrame.au hk (RecFrame.cutRecord hk (Frame.refl t)) (f := R.REC_AUu_STAT_STATE u) (by simp [auFlds]) 0).eq rfl rfl

/-- The domains that go off on the way to STANDBY, in that order (R469). -/
def standbyOff : List Nat := [2, 3, 4, 5, 10, 1]

/-- STATE of the scheme pair stands while these domains go off. -/
theorem powerOff_sch (s : State) : (powerOff s standbyOff).rd R.SCH_STAT_STATE = s.rd R.SCH_STAT_STATE := by
  have hrec : (recPowerDown s).rd R.SCH_STAT_STATE = s.rd R.SCH_STAT_STATE :=
    (recPowerDown_frame s).rd_eq (by decide) (by decide) (by decide) (by decide)
  have hlose {l : List Nat} (hl : ∀ d ∈ l, d ∈ [1, 2, 3, 4, 5, 10]) (t : State) :
      (l.foldl losePd t).rd R.SCH_STAT_STATE = t.rd R.SCH_STAT_STATE := by
    induction l generalizing t with
    | nil => rfl
    | cons d l ih =>
      exact (ih (fun e he => hl e (List.mem_cons_of_mem _ he)) _).trans
        (losePd_fab t (hl d List.mem_cons_self) _ (by decide) (by decide) (by decide))
  have hlost : (domainsLost s standbyOff).rd R.SCH_STAT_STATE = s.rd R.SCH_STAT_STATE := by
    have hregs (t : State) : ((resetTargets standbyOff).foldl endReset t).regs = t.regs :=
      foldl_keeps (p := State.regs) (g := endReset) (fun _ _ => rfl) _ t
    rw [domainsLost, rd_of_regs (hregs _), hlose (by decide)]
    split
    · exact hrec
    · rfl
  rw [powerOff_eq, gateUpdate_rd _ (by decide) (by decide) (by decide), rd_of_regs (clearCrossings_regs _), rd_wr_ne _ _ (by decide), hlost]

end Off

/-! ### Tasks given up (R238, R469) -/

section Abort
variable {s t : State}

/-- Power-good reads as before. -/
def PgKept (s t : State) : Prop := t.rd R.GLB_PWRSTAT_PG = s.rd R.GLB_PWRSTAT_PG

/-- A field of the scheme lies above power-good, whatever the task. -/
theorem PgKept.wr (h : PgKept s t) {f : Fld} (hd : 1 ≤ f.dom.num) (ha : 0xB00000 ≤ f.addr) (v : Nat) : PgKept s (t.wr f v) := by
  refine (rd_wr_ne t v ?_).trans h
  have hkey : R.GLB_PWRSTAT_PG.key = 0x10000000000 + 0x300 := rfl
  rw [hkey, Fld.key]
  omega

theorem PgKept.regs {u : State} (h : PgKept s t) (hu : u.regs = t.regs) : PgKept s u := (rd_of_regs hu _).trans h

theorem taskState_pg (h : PgKept s t) (k : Nat) : PgKept s (taskState t k) :=
  h.wr (f := R.SCH_TKn_STAT_STATE k) (Nat.le_succ 1) (Nat.le_of_lt (by simp only [R.SCH_TKn_STAT_STATE]; omega)) _

theorem schedule_pg (h : PgKept s t) : PgKept s (schedule t) := by
  unfold schedule
  extract_lets best
  split
  · split
    · refine taskState_pg ?_ _
      exact h.regs rfl
    · exact h
  · split
    · exact h
    · split
      · exact h
      · refine taskState_pg ?_ _
        exact h.regs rfl

theorem slAbort_pg (h : PgKept s t) (cause : Nat) : PgKept s (slAbort t cause) := by
  unfold slAbort
  split
  · exact h
  next x _ =>
    have task {u : State} (hu : PgKept s u) {f : Fld} (hd : f.dom = .sys ∨ f.dom = .blk) (k : Nat) (ha : f.addr = 0xB01000 + 0x20 * x.task + k)
        (v : Nat) : PgKept s (u.wr f v) := by
      refine hu.wr ?_ (by omega) v
      rcases hd with hd | hd
      · rw [hd]; exact Nat.le_refl 1
      · rw [hd]; exact Nat.le_succ 1
    refine schedule_pg (taskState_pg (task (task (task ?_ (.inl rfl) 0x10 ?_ _) (.inr rfl) 4 ?_ _) (.inl rfl) 0x14 ?_ _) _)
    · exact h.regs rfl
    · simp only [R.SCH_TKn_EXLAST_EXLAST]
      omega
    · simp only [R.SCH_TKn_STAT_LASTCAUSE]
      omega
    · simp only [R.SCH_TKn_EXMAX_EXMAX]
      omega

theorem setScState_state (s : State) {k : Nat} (hk : k < 8) : (setScState s k).rd R.SCH_STAT_STATE = k := by
  have h1 : (s.wr R.SCH_STAT_STATE k).rd R.SCH_STAT_STATE = k := (rd_wr_self ..).trans (Nat.mod_eq_of_lt hk)
  unfold setScState
  extract_lets s1
  split
  · exact h1
  · exact h1

theorem setScState_regs (s : State) (k : Nat) : (setScState s k).regs = (s.wr R.SCH_STAT_STATE k).regs := by
  unfold setScState
  extract_lets s1
  split
  · rfl
  · rfl

theorem abortTasks_pg (s : State) (d : Nat) : (abortTasks s).pg d = s.pg d := by
  have hend : PgKept s ((List.range (s.sch.pre.length + 1)).foldl
      (fun a _ => slAbort (modSch a fun c => { c with rel := [], heldRel := [] }) 0) s) :=
    List.foldlRecOn (motive := PgKept s) _ _ rfl fun a ha _ _ =>
      slAbort_pg (t := modSch a fun c => { c with rel := [], heldRel := [] }) (ha.regs rfl) 0
  have htasks : PgKept s (taskStates (modSch ((List.range (s.sch.pre.length + 1)).foldl
      (fun a _ => slAbort (modSch a fun c => { c with rel := [], heldRel := [] }) 0) s) fun c => { c with rel := [], heldRel := [], trig := [] })) :=
    List.foldlRecOn (motive := PgKept s) _ _ (hend.regs rfl) fun a ha t _ => taskState_pg ha t
  exact pg_of_rd ((rd_of_regs (setScState_regs _ 5) _).trans (htasks.wr (by decide) (by decide) _)) d

theorem abortTasks_sch (s : State) : (abortTasks s).rd R.SCH_STAT_STATE = 5 := setScState_state _ (by decide)

end Abort

/-! ### STANDBY (R469) -/

section Standby
variable (s : State)

/-- The FAB domains go off, and no transition is in progress. -/
def fabOff : State := setGlb (powerOff s standbyOff) { s.glb with trans := 0, wdt := none }

theorem fabOff_pg {d : Nat} (hd : d < 12) : (fabOff s).pg d = (s.pg d && !standbyOff.contains d) := powerOff_pg _ _ hd

theorem fabOff_mem : (fabOff s).mem = (powerOff s standbyOff).mem := setGlb_mem ..

theorem fabOff_low : LowKept dramBase s (fabOff s) := (powerOff_low s standbyOff).mem (fabOff_mem s)

theorem fabOff_shows : let t := movePwr (fabOff s) 2
    t.rd R.GLB_PWR_STATE = 2 ∧ t.glb.trans = 0 ∧ (∀ d ∈ [1, 2, 3, 4, 5, 10], t.pg d = false) ∧
    (∀ d ∈ [0, 6, 7, 8, 9, 11], t.pg d = s.pg d) ∧ padsNow t = 0 ∧ gpoTerms t = 0 ∧ t.rd R.SCH_STAT_STATE = s.rd R.SCH_STAT_STATE ∧
    LowKept 0x1000000 s t := by
  have hrd {f : Fld} (hf : f.key ≠ R.GLB_PWR_STATE.key) : (movePwr (fabOff s) 2).rd f = (powerOff s standbyOff).rd f :=
    (movePwr_rd_ne _ _ hf).trans (rd_of_regs (setGlb_regs ..) f)
  have hpg {d : Nat} (hd : d < 12) : (movePwr (fabOff s) 2).pg d = (s.pg d && !standbyOff.contains d) :=
    (pg_of_rd (movePwr_rd_ne _ _ (by decide)) d).trans (fabOff_pg s hd)
  refine ⟨movePwr_state _ (by decide), congrArg Glb.trans (movePwr_glb (fabOff s) 2), fun d hd => ?_, fun d hd => ?_, ?_, ?_, ?_, ?_⟩
  · have hoff : d < 12 ∧ standbyOff.contains d = true := by
      revert d
      decide
    rw [hpg hoff.1, hoff.2, Bool.not_true, Bool.and_false]
  · have hon : d < 12 ∧ standbyOff.contains d = false := by
      revert d
      decide
    rw [hpg hon.1, hon.2, Bool.not_false, Bool.and_true]
  · rw [padsNow, hrd (by decide), hrd (by decide)]
    exact powerOff_pads _ (by decide)
  · have h1 : (movePwr (fabOff s) 2).pg 1 = false := by
      rw [hpg (by decide)]
      exact Bool.and_false _
    exact if_pos (by rw [h1]; simp)
  · rw [hrd (by decide), powerOff_sch]
  · exact ((fabOff_low s).mem (movePwr_mem ..)).mono (by decide)

theorem standbySteps_eq : standbySteps s = fabOff (abortTasks s) := rfl

theorem standbySteps_pg {d : Nat} (hd : d < 12) : (standbySteps s).pg d = (s.pg d && !standbyOff.contains d) := by
  rw [standbySteps_eq, ← abortTasks_pg s d]
  exact fabOff_pg _ hd

theorem standbySteps_low : LowKept dramBase s (standbySteps s) := by
  rw [standbySteps_eq]
  exact (LowKept.of_mem (abortTasks_mem s)).trans (fabOff_low _)

/-- The end of the way to STANDBY, in O47's terms. -/
theorem standby_reached : let t := movePwr (standbySteps s) 2
    t.rd R.GLB_PWR_STATE = 2 ∧ t.glb.trans = 0 ∧ (∀ d ∈ [1, 2, 3, 4, 5, 10], t.pg d = false) ∧
    (∀ d ∈ [0, 6, 7, 8, 9, 11], t.pg d = s.pg d) ∧ padsNow t = 0 ∧ gpoTerms t = 0 ∧ t.rd R.SCH_STAT_STATE = 5 ∧
    ∀ a < 0x1000000, memRd t.mem a = memRd s.mem a := by
  obtain ⟨hstate, htrans, hoff, hon, hpads, hgpo, hsch, hlow⟩ := fabOff_shows (abortTasks s)
  rw [standbySteps_eq]
  exact ⟨hstate, htrans, hoff, fun d hd => (hon d hd).trans (abortTasks_pg s d), hpads, hgpo, hsch.trans (abortTasks_sch s),
    (LowKept.of_mem (abortTasks_mem s)).trans hlow⟩

end Standby

end Sys2Proof.Machine
end

section
/-! PROOFS. HIBERNATE and returns that fail (R272, R287, R470, R471). -/
namespace Sys2Proof.Machine

/-! ### Reads of the retained regions (R272) -/

section Reads
variable {s : State}

theorem scReads_good {l : List Nat} (h : ∀ w ∈ l, Spec.goodWord s w) (pc : Nat) : scReads s pc l = (s, true) := by
  induction l with
  | nil => rfl
  | cons w l ih =>
    obtain ⟨hbad, hsoft⟩ := h w List.mem_cons_self
    have hread : scRead s w pc = (s, true) := by rw [scRead, hbad, hsoft]; rfl
    rw [scReads, hread]
    exact ih fun x hx => h x (List.mem_cons_of_mem _ hx)

/-- A word that reads without a mismatch leaves the ECC state. -/
theorem scRead_eccBad {a pc : Nat} (h : (scRead s a pc).2 = true) : (scRead s a pc).1.eccBad = s.eccBad := by
  unfold scRead at h ⊢
  split at h
  · exact absurd h Bool.false_ne_true
  next hb =>
    rw [if_neg hb]
    split
    · rfl
    · rfl

theorem scReads_bad {l : List Nat} (h : ∃ w ∈ l, s.eccBad.contains w = true) (pc : Nat) : (scReads s pc l).2 = false := by
  induction l generalizing s with
  | nil =>
    obtain ⟨w, hw, -⟩ := h
    exact absurd hw List.not_mem_nil
  | cons w l ih =>
    rw [scReads]
    cases hread : (scRead s w pc).2 with
    | false => simpa using hread
    | true =>
      rw [if_pos rfl]
      refine ih ?_
      rw [scRead_eccBad hread]
      obtain ⟨x, hx, hbad⟩ := h
      rcases List.mem_cons.mp hx with rfl | hx
      · rw [scRead, hbad] at hread
        exact absurd hread Bool.false_ne_true
      · exact ⟨x, hx, hbad⟩

end Reads

/-! ### What the scheme's own steps leave -/

/-- The cores, Espalier, the image and the sequencer. -/
def blocksView (s : State) : List (Nat × Core) × Esp × Image × Glb := (s.ec, s.esp, s.img, s.glb)

theorem blocksView_of_besides {s t : State} (h : besides t = besides s) : blocksView t = blocksView s := by
  simp only [besides, Prod.mk.injEq] at h
  obtain ⟨hec, hesp, himg, -, hglb⟩ := h
  simp only [blocksView, hec, hesp, himg, hglb]

/-- The registers of the scheme and those of Thorn. -/
def schRanges : List (Nat × Nat) := Spec.schRegs :: thnRange

/-- A step of the scheme pair. -/
abbrev SchFrame (s t : State) : Prop := Frame blocksView schRanges [] s t

theorem schFlds_within : ∀ f ∈ [R.SCH_STAT_STATE, R.SCH_STAT_LS_STK, R.SCH_JRN_STAT_CKPT_BUSY, R.SCH_JRN_STAT_STALL, R.SCH_JRN_STAT_FILL,
    R.SCH_STAT_RETAIN_MISMATCH_STK, R.SCH_STAT_WARM, R.SCH_STAT_LASTRST], Within f schRanges := by
  unfold Within
  decide

namespace SchFrame
variable {s t u : State}

theorem fld (h : SchFrame s t) {f : Fld} (hf : f ∈ [R.SCH_STAT_STATE, R.SCH_STAT_LS_STK, R.SCH_JRN_STAT_CKPT_BUSY, R.SCH_JRN_STAT_STALL,
    R.SCH_JRN_STAT_FILL, R.SCH_STAT_RETAIN_MISMATCH_STK, R.SCH_STAT_WARM, R.SCH_STAT_LASTRST]) (v : Nat) : SchFrame s (t.wr f v) :=
  h.wr (.inl (schFlds_within f hf)) v rfl

theorem ofEq (h : SchFrame s t) (hr : u.regs = t.regs := by rfl) (hb : blocksView u = blocksView t := by rfl) : SchFrame s u := h.eq hr hb

theorem gateUpdate (h : SchFrame s t) : SchFrame s (gateUpdate t) :=
  h.trans (((gateUpdate_frame t []).mono (List.subset_cons_self ..) (List.Subset.refl _)).view blocksView_of_besides)

theorem setScState (h : SchFrame s t) (k : Nat) : SchFrame s (setScState t k) := by
  unfold Machine.setScState
  extract_lets s1
  have h1 : SchFrame s s1 := h.fld (by simp) _
  exact Frame.ite (fun _ => h1) fun _ => h1.ofEq

theorem lockstepHalt (h : SchFrame s t) (addr : Nat) : SchFrame s (lockstepHalt t addr) := by
  unfold Machine.lockstepHalt
  refine Frame.ite (fun _ => h) fun _ => ?_
  extract_lets s1 th sc s2
  have h1 : SchFrame s s1 := (h.setScState 2).fld (f := R.SCH_STAT_LS_STK) (by simp) _
  have h2 : SchFrame s s2 := h1.ofEq
  exact (gateUpdate h2).ofEq

theorem scRead (h : SchFrame s t) (a pc : Nat) : SchFrame s (scRead t a pc).1 := by
  unfold Machine.scRead
  split
  · exact h.lockstepHalt pc
  · split
    · exact h.ofEq
    · exact h

theorem scReads (l : List Nat) (pc : Nat) (h : SchFrame s t) : SchFrame s (scReads t pc l).1 := by
  induction l generalizing t with
  | nil => exact h
  | cons a l ih =>
    rw [Machine.scReads]
    split
    · exact ih (h.scRead a pc)
    · exact h.scRead a pc

theorem scRegions (h : SchFrame s t) (l : List (Nat × Nat)) : SchFrame s (scRegions t l).1 := h.scReads _ _

/-- Fields outside the scheme and Thorn stand. -/
theorem rd_low (h : SchFrame s t) {f : Fld} (hlo : f.lo < 32) (ha : f.addr < 0xA00000) : t.rd f = s.rd f :=
  h.rd_eq hlo (by omega) (by simp only [schRanges, thnRange, Spec.schRegs, List.Forall]; omega) trivial

theorem pg (h : SchFrame s t) (d : Nat) : t.pg d = s.pg d := pg_of_rd (h.rd_low (by decide) (by decide)) d

end SchFrame

/-! ### The checkpoint of HIBERNATE (R287, R471) -/

section Ckpt
variable {s : State}

theorem scRegions_good (h : ∀ w ∈ scWords (retRegions s), Spec.goodWord s w) : scRegions s (retRegions s) = (s, true) := scReads_good h _

theorem putCkpt_regs (s : State) (c : Nat) (k : Ckpt) (pos : Nat) : (putCkpt s c k pos).regs = s.regs := rfl

theorem putCkpt_mem (s : State) (c : Nat) (k : Ckpt) (pos : Nat) : (putCkpt s c k pos).mem =
    memWrs (memWrs s.mem (ckBase c) (ckptBytes k)) (doneAddr c) (leBytes 4 (BitVec.ofNat 32 (nextNo s * 8192 + pos / 64)).toNat) := by
  simp only [putCkpt, State.wrW, State.wrMem]

theorem writeCkpt_pg (d : Nat) : (writeCkpt s).pg d = s.pg d := by
  have h := SchFrame.scRegions (Frame.refl s) (retRegions s)
  unfold writeCkpt
  extract_lets q
  split
  · exact (pg_of_rd (rd_of_regs ((modSch_regs ..).trans (putCkpt_regs ..)) _) d).trans (h.pg d)
  · exact h.pg d

theorem writeCkpt_good (h : ∀ w ∈ scWords (retRegions s), Spec.goodWord s w) :
    (writeCkpt s).mem = memWrs (memWrs s.mem (ckBase (nextCopy s)) (ckptBytes (takeCkpt s))) (doneAddr (nextCopy s))
      (leBytes 4 (BitVec.ofNat 32 (nextNo s * 8192 + s.sch.jpos / 64)).toNat) := by
  rw [writeCkpt, scRegions_good h, if_pos rfl, modSch_mem]
  exact putCkpt_mem ..

theorem writeCkpt_bad (h : ∃ w ∈ scWords (retRegions s), s.eccBad.contains w = true) : (writeCkpt s).mem = s.mem := by
  have hbad : (scRegions s (retRegions s)).2 = false := scReads_bad h _
  rw [writeCkpt, hbad, if_neg Bool.false_ne_true, scRegions_mem]

/-- The checkpoint stands whole in its copy, and other bytes are as before. -/
theorem writeCkpt_shows (h : ∀ w ∈ scWords (retRegions s), Spec.goodWord s w) (hlen : (ckptBytes (takeCkpt s)).length ≤ 0x3FFFC) :
    (writeCkpt s).rdMem (ckBase (nextCopy s)) (ckptBytes (takeCkpt s)).length = ckptBytes (takeCkpt s) ∧
    ∀ a, a < ckBase (nextCopy s) ∨ ckBase (nextCopy s) + 0x40000 ≤ a → memRd (writeCkpt s).mem a = memRd s.mem a := by
  have hmem := writeCkpt_good h
  have hl4 := leBytes_length 4 (BitVec.ofNat 32 (nextNo s * 8192 + s.sch.jpos / 64)).toNat
  refine ⟨?_, fun a ha => ?_⟩
  · refine (memRds_congr fun k hk => ?_).trans (memRds_memWrs s.mem (ckBase (nextCopy s)) (ckptBytes (takeCkpt s)))
    rw [hmem]
    exact memRd_memWrs_out _ _ _ _ (.inl (by rw [doneAddr]; omega))
  · rw [hmem, memRd_memWrs_out _ _ _ _ (by rw [hl4, doneAddr]; omega), memRd_memWrs_out _ _ _ _ (by omega)]

end Ckpt

/-! ### HIBERNATE is reached (R471, R473) -/

section Hibernate
variable (s : State)

/-- The state in which the checkpoint of HIBERNATE is taken. -/
def drained : State := if s.pg 1 then standbySteps s else s

/-- The domains that HIBERNATE switches off. -/
def hibOff : List Nat := [1, 2, 3, 4, 5, 6, 7, 8, 9, 10] ++ [11]

/-- PD0 alone stays on. -/
def aonOnly : State := setGlb (powerOff s hibOff) { (powerOff s hibOff).glb with trans := 0, wdt := none, hib := true }

theorem hibernate_eq : hibernate s = aonOnly (writeCkpt (drained s)) := rfl

theorem aonOnly_mem : (aonOnly s).mem = (powerOff s hibOff).mem := setGlb_mem ..

theorem aonOnly_low : LowKept 0x1000000 s (aonOnly s) := ((powerOff_low s hibOff).mem (aonOnly_mem s)).mono (by decide)

theorem aonOnly_pg {d : Nat} (hd : d < 12) : (aonOnly s).pg d = (s.pg d && !hibOff.contains d) :=
  (pg_of_rd (rd_of_regs (setGlb_regs ..) _) d).trans (powerOff_pg _ _ hd)

/-- The domains that HIBERNATE leaves. -/
theorem aonOnly_domains : (∀ d, 1 ≤ d → d < 12 → (aonOnly s).pg d = false) ∧ (aonOnly s).pg 0 = s.pg 0 := by
  refine ⟨fun d h1 h12 => ?_, ?_⟩
  · have hoff : hibOff.contains d = true := by
      interval_cases d <;> rfl
    rw [aonOnly_pg s h12, hoff, Bool.not_true, Bool.and_false]
  · rw [aonOnly_pg s (by decide)]
    exact Bool.and_true _

theorem aonOnly_pads : padsNow (aonOnly s) = 0 := by
  rw [padsNow, aonOnly, rd_of_regs (setGlb_regs ..), rd_of_regs (setGlb_regs ..)]
  exact powerOff_pads s (by decide)

theorem aonOnly_dram {a : Nat} (hge : dramBase ≤ a) (hlt : a < dramBase + 0x100000000) : memRd (aonOnly s).mem a = 0 := by
  rw [aonOnly_mem]
  exact powerOff_dram _ [1, 2, 3, 4, 5, 6, 7, 8, 9, 10] hge hlt

theorem drained_low : LowKept 0x1000000 s (drained s) :=
  LowKept.ite (fun _ => (standbySteps_low s).mono (by decide)) fun _ => LowKept.refl s

theorem drained_pg0 : (drained s).pg 0 = s.pg 0 := by
  unfold drained
  split
  · rw [standbySteps_pg s (by decide)]
    exact Bool.and_true _
  · rfl

/-- The end of the way to HIBERNATE, in O47's terms. -/
theorem hibernate_reached {u t : State} (hu : u = drained s) (ht : t = hibernate s) :
    let c := nextCopy s
    t.glb.hib = true ∧ t.glb.trans = 0 ∧ (∀ d, 1 ≤ d → d < 12 → t.pg d = false) ∧ t.pg 0 = s.pg 0 ∧ padsNow t = 0 ∧
    ((ckptBytes (takeCkpt u)).length ≤ 0x3FFFC → (∀ w ∈ scWords (retRegions u), Spec.goodWord u w) →
      t.rdMem (ckBase c) (ckptBytes (takeCkpt u)).length = ckptBytes (takeCkpt u) ∧
      ∀ a < 0x1000000, a < ckBase c ∨ ckBase c + 0x40000 ≤ a → memRd t.mem a = memRd s.mem a) ∧
    ((∃ w ∈ scWords (retRegions u), u.eccBad.contains w = true) → ∀ a < 0x1000000, memRd t.mem a = memRd s.mem a) ∧
    ∀ a, dramBase ≤ a → a < dramBase + 0x100000000 → memRd t.mem a = 0 := by
  have hsu : LowKept 0x1000000 s u := hu ▸ drained_low s
  have hpg0 : u.pg 0 = s.pg 0 := hu ▸ drained_pg0 s
  have hcopy : nextCopy u = nextCopy s := nextCopy_low hsu
  rw [hibernate_eq, ← hu] at ht
  have hlow : LowKept 0x1000000 (writeCkpt u) t := ht ▸ aonOnly_low _
  obtain ⟨hoff, hon⟩ := ht ▸ aonOnly_domains (writeCkpt u)
  refine ⟨ht ▸ rfl, ht ▸ rfl, hoff, hon.trans ((writeCkpt_pg 0).trans hpg0), ht ▸ aonOnly_pads _, fun hlen hgood => ?_, fun hbad a ha => ?_,
    fun a hge hlt => ht ▸ aonOnly_dram _ hge hlt⟩
  · obtain ⟨hckpt, hout⟩ := writeCkpt_shows hgood hlen
    rw [hcopy] at hckpt hout
    have hle := ckBase_le (nextCopy_lt s)
    exact ⟨(rdMem_low hlow (by omega)).trans hckpt, fun a ha hc => (hlow a ha).trans ((hout a hc).trans (hsu a ha))⟩
  · rw [hlow a ha, writeCkpt_bad hbad]
    exact hsu a ha

end Hibernate

/-! ### A return that fails (R470) -/

/-- A section that fails leaves the device in STANDBY. -/
def returnFailed (s : State) (r : Nat) : State :=
  let s1 := powerOff (setFail s (s.rd R.GLB_BOOT_SLOT) r) standbyOff
  movePwr (setGlb s1 { s1.glb with trans := 0 }) 2

theorem failFld_cases (slot : Nat) : (if slot = 0 then R.GLB_BOOT_FAILA else R.GLB_BOOT_FAILB) = R.GLB_BOOT_FAILA ∨
    (if slot = 0 then R.GLB_BOOT_FAILA else R.GLB_BOOT_FAILB) = R.GLB_BOOT_FAILB := by
  split
  · exact .inl rfl
  · exact .inr rfl

theorem returnFailed_shows (s : State) (r : Nat) : let t := returnFailed s r
    t.rd R.GLB_PWR_STATE = 2 ∧ t.glb.trans = 0 ∧ (∀ d ∈ [1, 2, 3, 4, 5, 10], t.pg d = false) ∧
    t.rd (if s.rd R.GLB_BOOT_SLOT = 0 then R.GLB_BOOT_FAILA else R.GLB_BOOT_FAILB) = r % 8 ∧ padsNow t = 0 := by
  have hrd {f : Fld} (hf : f.key ≠ R.GLB_PWR_STATE.key) :
      (returnFailed s r).rd f = (powerOff (setFail s (s.rd R.GLB_BOOT_SLOT) r) standbyOff).rd f := movePwr_rd_ne _ _ hf
  refine ⟨movePwr_state _ (by decide), congrArg Glb.trans (movePwr_glb (setGlb _ _) 2), fun d hd => ?_, ?_, ?_⟩
  · have hoff : d < 12 ∧ standbyOff.contains d = true := by
      revert d
      decide
    rw [pg_of_rd (hrd (by decide)), powerOff_pg _ _ hoff.1, hoff.2, Bool.not_true, Bool.and_false]
  · have hself : (setFail s (s.rd R.GLB_BOOT_SLOT) r).rd (if s.rd R.GLB_BOOT_SLOT = 0 then R.GLB_BOOT_FAILA else R.GLB_BOOT_FAILB) = r % 8 := by
      have hw : (if s.rd R.GLB_BOOT_SLOT = 0 then R.GLB_BOOT_FAILA else R.GLB_BOOT_FAILB).w = 3 := by
        rcases failFld_cases (s.rd R.GLB_BOOT_SLOT) with h | h
        · rw [h]; rfl
        · rw [h]; rfl
      rw [setFail, rd_wr_self, hw]
      rfl
    rw [← hself]
    rcases failFld_cases (s.rd R.GLB_BOOT_SLOT) with h | h
    · rw [h, hrd (by decide)]
      exact powerOff_rd _ _ (by decide) (by decide) (by decide)
    · rw [h, hrd (by decide)]
      exact powerOff_rd _ _ (by decide) (by decide) (by decide)
  · rw [padsNow, hrd (by decide), hrd (by decide)]
    exact powerOff_pads _ (by decide)

end Sys2Proof.Machine
end

section
/-! PROOFS. Restarts of the scheme and the start of PD8's blocks: what they leave (R289 to R292, R345, R459). -/
namespace Sys2Proof.Machine

/-! ### Restarts of the scheme (R290 to R292) -/

namespace SchFrame
variable {s t : State}

theorem modSch (h : SchFrame s t) (g : Sch → Sch) : SchFrame s (modSch t g) := h.eq rfl rfl

theorem taskState_within (k : Fin 16) : Within (R.SCH_TKn_STAT_STATE k) schRanges := by
  unfold Within
  revert k
  decide

theorem taskStates (h : SchFrame s t) : SchFrame s (taskStates t) :=
  Frame.foldl (fun u k hk => (Frame.refl u : SchFrame u u).wr (.inl (taskState_within ⟨k, List.mem_range.mp hk⟩)) _ rfl) h

theorem startCkpt (h : SchFrame s t) : SchFrame s (startCkpt t) := by
  unfold Machine.startCkpt
  extract_lets q s1
  have hq : SchFrame s q.1 := h.scRegions _
  have h1 : SchFrame s s1 := hq.ofEq
  refine Frame.ite (fun _ => h) fun _ => Frame.ite (fun _ => hq) fun _ => ?_
  exact fld (t := s1.wrW (doneAddr (nextCopy t)) 0) h1.ofEq (f := R.SCH_JRN_STAT_CKPT_BUSY) (by simp) _

theorem putAll (h : SchFrame s t) (l : List (Nat × List Byte)) : SchFrame s (l.foldl (fun a e => a.putBytes (scBase + e.1) e.2) t) :=
  Frame.foldl (fun _ _ _ => Frame.of_eq rfl rfl) h

theorem coldRestart (h : SchFrame s t) : SchFrame s (coldRestart t) := by
  unfold Machine.coldRestart
  extract_lets s1
  have h1 : SchFrame s s1 := modSch (h.putAll t.img.retInit) _
  exact h1.startCkpt

theorem jrnFill (h : SchFrame s t) : SchFrame s (jrnFill t) := h.fld (f := R.SCH_JRN_STAT_FILL) (by simp) _

theorem logEv (h : SchFrame s t) (x c : Nat) (p : List Byte) : SchFrame s (t.logEv x c p) :=
  h.eq (logEv_regs ..) (by rw [blocksView, logEv_ec, logEv_esp, logEv_img, logEv_glb]; rfl)

theorem replay (h : SchFrame s t) (r : JRec) : SchFrame s (replay t r) := by
  unfold Machine.replay
  extract_lets s1
  exact modSch (h.putAll r.lines) _

theorem warmRestart (h : SchFrame s t) (k : Nat × Ckpt) : SchFrame s (warmRestart t k) := by
  unfold Machine.warmRestart
  extract_lets s1 l n
  have h1 : SchFrame s s1 := modSch (h.putAll k.2.regions) _
  have h2 : SchFrame s (l.foldl Machine.replay s1) := Frame.foldl (fun u r _ => replay (Frame.refl u) r) h1
  exact jrnFill (modSch h2 _)

theorem scRestart (h : SchFrame s t) (k : Nat) : SchFrame s (scRestart t k) := by
  unfold Machine.scRestart
  extract_lets s0 s1 want ck s2 warm s3 s4
  have h0 : SchFrame s s0 := taskStates (modSch h _)
  have h1 : SchFrame s s1 := (h0.fld (f := R.SCH_JRN_STAT_CKPT_BUSY) (by simp) _).fld (f := R.SCH_JRN_STAT_STALL) (by simp) _
  have h2 : SchFrame s s2 := Frame.ite
    (fun _ => logEv (h1.fld (f := R.SCH_STAT_RETAIN_MISMATCH_STK) (by simp) _) _ _ _) fun _ => h1
  have h3 : SchFrame s s3 := by
    unfold s3
    clear_value warm ck
    cases warm <;> cases ck
    · exact coldRestart h2
    · exact coldRestart h2
    · exact coldRestart h2
    · exact warmRestart h2 _
  have h4 : SchFrame s s4 := by
    have hst : SchFrame s (if s3.rd R.SCH_STAT_STATE = 2 then s3 else Machine.setScState s3 1) :=
      Frame.ite (fun _ => h3) fun _ => h3.setScState 1
    exact (hst.fld (f := R.SCH_STAT_WARM) (by simp) _).fld (f := R.SCH_STAT_LASTRST) (by simp) _
  exact logEv h4 _ _ _

end SchFrame

/-! Memory below the element cores: a cold restart clears one completion word. -/

section RestartMem
variable {s t : State}

/-- Bytes below the element cores read as before, but for a word of four at `d`. -/
def WordKept (d : Nat) (s t : State) : Prop := ∀ a < 0x200000000, a < d ∨ d + 4 ≤ a → memRd t.mem a = memRd s.mem a

theorem LowKept.word (h : LowKept 0x200000000 s t) (d : Nat) : WordKept d s t := fun a ha _ => h a ha

theorem WordKept.mem {d : Nat} {u : State} (h : WordKept d s t) (hu : u.mem = t.mem) : WordKept d s u := fun a ha hd => by rw [hu, h a ha hd]

theorem putAll_low (h : LowKept 0x200000000 s t) (l : List (Nat × List Byte)) :
    LowKept 0x200000000 s (l.foldl (fun a e => a.putBytes (scBase + e.1) e.2) t) :=
  LowKept.foldl _ (fun u e _ => (LowKept.refl u).wrs (a := scBase + e.1) (Nat.le_trans (by decide) (Nat.le_add_right scBase e.1)) rfl) h

theorem startCkpt_word (h : LowKept 0x200000000 s t) : WordKept (doneAddr (nextCopy s)) s (startCkpt t) := by
  have hcopy : nextCopy t = nextCopy s := nextCopy_low (h.mono (by decide))
  have hq : ((scRegions t (retRegions t)).1).mem = t.mem := scRegions_mem ..
  unfold startCkpt
  extract_lets q s1
  split
  · exact h.word _
  · split
    · exact (h.word _).mem hq
    · intro a ha hd
      have hmem : (s1.wrW (doneAddr (nextCopy t)) 0).mem = memWrs t.mem (doneAddr (nextCopy s)) (leBytes 4 0) := by
        rw [← hcopy, ← hq]
        rfl
      rw [wrb_mem, hmem, memRd_memWrs_out _ _ _ _ (by rw [leBytes_length]; exact hd)]
      exact h a ha

theorem coldRestart_word (h : LowKept 0x200000000 s t) : WordKept (doneAddr (nextCopy s)) s (coldRestart t) := by
  unfold coldRestart
  extract_lets s1
  exact startCkpt_word ((putAll_low h t.img.retInit).mem rfl)

theorem warmRestart_low (h : LowKept 0x200000000 s t) (k : Nat × Ckpt) : LowKept 0x200000000 s (warmRestart t k) := by
  unfold warmRestart
  extract_lets s1 l n
  have h1 : LowKept 0x200000000 s s1 := (putAll_low h k.2.regions).mem rfl
  have h2 : LowKept 0x200000000 s (l.foldl replay s1) :=
    LowKept.foldl _ (fun u r _ => (putAll_low (LowKept.refl u) r.lines).mem (by rw [replay, modSch_mem])) h1
  exact h2.mem (by rw [jrnFill, wr_mem, modSch_mem])

theorem scRestart_word (h : LowKept 0x200000000 s t) (k : Nat) : WordKept (doneAddr (nextCopy s)) s (scRestart t k) := by
  unfold scRestart
  extract_lets s0 s1 want ck s2 warm s3 s4
  have h2 : LowKept 0x200000000 s s2 := h.mem (by simp [s2, s1, s0])
  have h3 : WordKept (doneAddr (nextCopy s)) s s3 := by
    unfold s3
    clear_value warm ck
    cases warm <;> cases ck
    · exact coldRestart_word h2
    · exact coldRestart_word h2
    · exact coldRestart_word h2
    · exact (warmRestart_low h2 _).word _
  refine h3.mem ?_
  rw [logEv_mem, wr_mem, wrb_mem]
  split
  · rfl
  · exact setScState_mem ..

end RestartMem

end Sys2Proof.Machine
end

section
/-! PROOFS. The start of PD8's blocks and what a complete image places: what they leave (R345, R459, R465). -/
namespace Sys2Proof.Machine

/-! ### The blocks of PD8 -/

/-- The registers of TIM, NET and SVI, and those of the twin unit. -/
def pd8Ranges : List (Nat × Nat) := [(0x300000, 0x600000), (0xE00000, 0xF00000)]

/-- A step of the blocks of PD8. -/
abbrev Pd8Frame (s t : State) : Prop := Frame State.img pd8Ranges [] s t

namespace Pd8Frame
variable {s t : State}

theorem fld (h : Pd8Frame s t) {f : Fld} (hf : f.lo < 32 ∧ 0x300000 ≤ f.addr ∧ f.addr < 0x600000) (v : Nat) : Pd8Frame s (t.wr f v) :=
  h.wr (.inl ⟨hf.1, by omega, (0x300000, 0x600000), List.mem_cons_self, hf.2⟩) v rfl

theorem timEvent (h : Pd8Frame s t) (code : Nat) (head : List Byte) (a b : Int) : Pd8Frame s (timEvent t code head a b) :=
  h.eq (logEv_regs ..) (logEv_img ..)

theorem fireVec (h : Pd8Frame s t) (v : Nat) : Pd8Frame s (t.fireVec v) := h.eq (fireVec_regs ..) (fireVec_img ..)

/-! Bases and active time (R363 to R373). -/

theorem tqUpdate (h : Pd8Frame s t) : Pd8Frame s (tqUpdate t) := h.fld (by decide) _

theorem stickAct (h : Pd8Frame s t) {f : Fld} (hf : f.lo < 32 ∧ 0x300000 ≤ f.addr ∧ f.addr < 0x600000) : Pd8Frame s (stickAct t f) :=
  Frame.ite (fun _ => h) fun _ => fireVec (h.fld hf _) 9

theorem switchStep (h : Pd8Frame s t) : Pd8Frame s (switchStep t) :=
  Frame.foldl (fun u g _ => Frame.ite (t := modFtg u g fun f => { f with step := true }) (fun _ => Frame.of_eq rfl rfl) fun _ => Frame.refl u) h

theorem rollSlot (h : Pd8Frame s t) (k : Nat) : Pd8Frame s (rollSlot t k) := by
  unfold Machine.rollSlot
  extract_lets x
  split
  next n _ => exact Frame.ite (fun _ => h.eq rfl rfl) fun _ => h
  · exact h

theorem rollAll (h : Pd8Frame s t) : Pd8Frame s (rollAll t) := Frame.foldl (fun u k _ => rollSlot (Frame.refl u) k) h

theorem shadowAll (h : Pd8Frame s t) : Pd8Frame s (shadowAll t) := h.eq rfl rfl

theorem tpoLate {k : Nat} (hk : k < 8) (h : Pd8Frame s t) : Pd8Frame s (tpoLate t k) := by
  unfold Machine.tpoLate
  extract_lets x
  have h1 : Pd8Frame s (setTpo t k { x with edge := none }) := h.eq rfl rfl
  exact timEvent (fld (fld h1 (f := R.TIM_TPOk_STAT_LATE_STK k) (by dsimp only [R.TIM_TPOk_STAT_LATE_STK]; omega) _)
    (f := R.TIM_TPOk_STAT_ARMED k) (by dsimp only [R.TIM_TPOk_STAT_ARMED]; omega) _) _ _ _ _

theorem tpoRise (h : Pd8Frame s t) (k now : Nat) : Pd8Frame s (tpoRise t k now) := by
  unfold Machine.tpoRise
  extract_lets x
  split
  next e _ => exact Frame.ite (fun _ => h) fun _ => h.eq rfl rfl
  · exact h

theorem tpoJump {k : Nat} (hk : k < 8) (h : Pd8Frame s t) : Pd8Frame s (tpoJump t k) := by
  unfold Machine.tpoJump
  split
  next now e _ _ =>
    refine Frame.ite (fun _ => h) fun _ => Frame.ite (fun _ => tpoRise h k now) fun _ => Frame.ite (fun _ => ?_) fun _ => tpoLate hk h
    extract_lets n
    exact fld (t := setTpo t k _) (h.eq rfl rfl) (by dsimp only [R.TIM_TPOk_STAT_SKIP]; omega) _
  · exact h

theorem tpoJumps (h : Pd8Frame s t) (b : Nat) : Pd8Frame s (tpoJumps t b) :=
  Frame.foldl (fun u _ hk => Frame.ite (fun _ => tpoJump (List.mem_range.mp hk) (Frame.refl u)) fun _ => Frame.refl u) h

theorem domainSwitch (h : Pd8Frame s t) (sel : Nat) : Pd8Frame s (domainSwitch t sel) := by
  unfold Machine.domainSwitch
  extract_lets s0 old r imm ns tm s1 s2 s3
  have h0 : Pd8Frame s s0 := h.fld (by decide) _
  have h1 : Pd8Frame s s1 := (h0.fld (f := R.TIM_ACT_STAT_FOLLOW) (by decide) _).eq rfl rfl
  have h2 : Pd8Frame s s2 := timEvent (h1.fld (f := R.TIM_ACT_STAT_SLEWING) (by decide) _) _ _ _ _
  have h3 : Pd8Frame s s3 := stickAct (tqUpdate h2) (by decide)
  exact Frame.ite (fun _ => h0) fun _ => Frame.ite (fun _ => shadowAll (rollAll (tpoJumps (switchStep h3) 4))) fun _ => h3

theorem setTbState {b : Nat} (hb : b < 4) (h : Pd8Frame s t) (st : Nat) : Pd8Frame s (setTbState t b st) := by
  unfold Machine.setTbState
  extract_lets old s1 s2
  have h1 : Pd8Frame s s1 := timEvent (fld h (f := R.TIM_TBb_STAT_STATE b) (by dsimp only [R.TIM_TBb_STAT_STATE]; omega) _) _ _ _ _
  have h2 : Pd8Frame s s2 := tqUpdate (Frame.ite
    (fun _ => fld h1 (f := R.TIM_TBb_STAT_LOCKLOSS_STK b) (by dsimp only [R.TIM_TBb_STAT_LOCKLOSS_STK]; omega) _) fun _ => h1)
  exact Frame.ite (fun _ => h) fun _ => Frame.ite (fun _ => domainSwitch h2 _) fun _ => h2

theorem tbModeSet {b : Nat} (hb : b < 4) (h : Pd8Frame s t) : Pd8Frame s (tbModeSet t b) := by
  unfold Machine.tbModeSet
  extract_lets s1
  have h1 : Pd8Frame s s1 := setTbState hb h _
  exact Frame.ite (fun _ => h1.eq rfl rfl) fun _ => h1

/-! Switch, subscriptions, twin unit. -/

theorem noteGcbs (h : Pd8Frame s t) (hit : GType × GSrc → Bool) : Pd8Frame s (noteGcbs t hit) := h.eq rfl rfl

theorem c0Update (h : Pd8Frame s t) : Pd8Frame s (c0Update t) := h.fld (by decide) _

theorem verifyStart {p : Nat} (hp : p < 2) (h : Pd8Frame s t) : Pd8Frame s (verifyStart t p) := by
  have h1 : Pd8Frame s (setPort t p { portOf t p with verify := 0, vAt := tb2U t }) := h.eq rfl rfl
  exact c0Update (fld h1 (f := R.NET_Pp_STAT_VSTATE p) (by dsimp only [R.NET_Pp_STAT_VSTATE]; omega) _)

theorem trigEvent (h : Pd8Frame s t) (k sel : Nat) : Pd8Frame s (trigEvent t k sel) := h.eq rfl rfl

theorem svRestart {n : Nat} (hn : n < 64) (h : Pd8Frame s t) : Pd8Frame s (svRestart t n) := by
  unfold Machine.svRestart
  extract_lets x s1
  have h1 : Pd8Frame s (unlinkSub s1 false n) := h.eq rfl rfl
  have h2 := fld h1 (f := R.SVI_SUBs_STAT_DIRV n) (by dsimp only [R.SVI_SUBs_STAT_DIRV]; omega) (if false then 1 else 0)
  unfold setSubState
  exact Frame.ite (fun _ => h2) fun _ =>
    trigEvent (fld h2 (f := R.SVI_SUBs_STAT_STATE n) (by dsimp only [R.SVI_SUBs_STAT_STATE]; omega) _) 4 n

theorem gsubRequal (h : Pd8Frame s t) (n : Nat) : Pd8Frame s (gsubRequal t n) := Frame.foldl (fun _ _ _ => Frame.of_eq rfl rfl) h

theorem gsubStart {n : Nat} (hn : n < 1024) (h : Pd8Frame s t) : Pd8Frame s (gsubStart t n) := by
  have h1 : Pd8Frame s (setGsub t n {}) := h.eq rfl rfl
  unfold Machine.gsubStart setGsubState
  exact Frame.ite (fun _ => gsubRequal h1 n) fun _ => trigEvent (gsubRequal
    (fld h1 (f := R.NET_GSUBs_STAT_STATE n) (by dsimp only [R.NET_GSUBs_STAT_STATE]; omega) _) n) 2 n

theorem twinPoints (h : Pd8Frame s t) : Pd8Frame s (twinPoints t) := by
  unfold Machine.twinPoints
  extract_lets q v
  exact Frame.foldl (fun _ _ _ => Frame.of_eq rfl rfl) h

theorem evalXmode (h : Pd8Frame s t) : Pd8Frame s (evalXmode t) := by
  unfold Machine.evalXmode
  extract_lets old new s1 mix m tw s2
  have h1 : Pd8Frame s s1 := h.wr (.inl (by unfold Within; decide)) _ rfl
  have h2 : Pd8Frame s s2 := h1.eq rfl rfl
  exact twinPoints (Frame.ite (fun _ => h2) fun _ => h2.eq (logEv_regs ..) (logEv_img ..))

theorem twinEnable (h : Pd8Frame s t) : Pd8Frame s (twinEnable t) :=
  evalXmode (t := twinPace (setTwn t { t.twn with since := t.tb2Ns, heard := none, seq := none })) (h.eq rfl rfl)

/-- The start of the blocks of PD8 keeps the image, and fields of other blocks. -/
theorem startPd8 (h : Pd8Frame s t) (hg : ∀ e ∈ t.img.gsubs, e.1 < 1024) : Pd8Frame s (startPd8 t) := by
  unfold Machine.startPd8
  extract_lets s0 s1 s2 s3 s4
  have h0 : Pd8Frame t s0 := Frame.foldl (fun u b hb => tbModeSet (by revert b; decide) (Frame.refl u)) (Frame.refl t)
  have h1 : Pd8Frame t s1 := noteGcbs (domainSwitch h0 _) _
  have h2 : Pd8Frame t s2 := c0Update (Frame.foldl (fun u p hp => verifyStart (by revert p; decide) (Frame.refl u)) h1)
  have h3 : Pd8Frame t s3 :=
    Frame.foldl (fun u _ hn => Frame.ite (fun _ => svRestart (List.mem_range.mp hn) (Frame.refl u)) fun _ => Frame.refl u) h2
  have himg : s3.img = t.img := h3.shows
  have h4 : Pd8Frame t s4 := Frame.foldl (fun u e he => gsubStart (hg e (himg ▸ he)) (Frame.refl u)) h3
  exact h.trans (Frame.ite (fun _ => twinEnable h4) fun _ => twinPoints h4)

end Pd8Frame

end Sys2Proof.Machine
end

section
/-! PROOFS. The start of the FAB blocks: grids and element cores run (R155, R177, R470). -/
namespace Sys2Proof.Machine

/-! ### Grids -/

/-- The registers that the start of a grid writes: the enabled FTGs and an FTG's status. -/
def gridRanges : List (Nat × Nat) := [(0x800008, 0x80000C), (0x800100, 0x800200)]

/-- A step that leaves cores and image. -/
abbrev GridFrame (s t : State) : Prop := Frame (fun u => (u.ec, u.img)) gridRanges [] s t

/-- A grid runs from its first instant, none open. -/
def GridStarted (t : State) (g : Nat) : Prop := ftgOn t g = true → (espFtg t g).started = true ∧ (espFtg t g).insts = []

section Grids
variable (s : State)

theorem GridFrame.fld {t : State} (h : GridFrame s t) {f : Fld} (hf : f.lo < 32 ∧ 0x800100 ≤ f.addr ∧ f.addr < 0x800200) (v : Nat) :
    GridFrame s (t.wr f v) :=
  h.wr (.inl ⟨hf.1, by omega, (0x800100, 0x800200), by simp [gridRanges], hf.2⟩) v rfl

theorem startFtg_frame {g : Nat} (hg : g < 4) : GridFrame s (startFtg s g) := by
  unfold startFtg
  extract_lets s1 s2
  have h1 : GridFrame s s1 := GridFrame.fld s (f := R.ESP_FTGg_STAT_MODEACT g)
    (GridFrame.fld s (f := R.ESP_FTGg_STAT_NACT g) (Frame.refl s) (by dsimp only [R.ESP_FTGg_STAT_NACT]; omega) _)
    (by dsimp only [R.ESP_FTGg_STAT_MODEACT]; omega) _
  have h2 : GridFrame s s2 := GridFrame.fld s h1 (f := R.ESP_FTGg_STAT_STATE g) (by dsimp only [R.ESP_FTGg_STAT_STATE]; omega) _
  have h3 : GridFrame s (showFtgs s2) := h2.wr (.inl (by unfold Within; decide)) _ rfl
  exact h3.eq rfl rfl

theorem ftgOn_congr {s t : State} (himg : t.img = s.img) (hrd : t.rd R.ESP_GRP_FTG_FTG = s.rd R.ESP_GRP_FTG_FTG) {g : Nat} (hg : g < 4) :
    ftgOn t g = ftgOn s g := by
  rw [ftgOn, ftgOn, groupsOf_congr s ⟨g, hg⟩ himg hrd]

theorem GridFrame.ftgOn {s t : State} (h : GridFrame s t) {g : Nat} (hg : g < 4) : ftgOn t g = ftgOn s g :=
  ftgOn_congr (congrArg Prod.snd h.shows) (h.rd_eq (by decide) (by decide) (by decide) trivial) hg

theorem espFtg_startFtg_ne {g k : Nat} (hk : k ≠ g) : espFtg (startFtg s g) k = espFtg s k := mget_mput_ne _ _ _ hk

theorem startFtg_started {g : Nat} (hg : g < 4) : GridStarted (startFtg s g) g := by
  intro hon
  rw [(startFtg_frame s hg).ftgOn hg] at hon
  have hself : espFtg (startFtg s g) g = _ := mget_mput_self ..
  rw [hself, if_pos hon]
  exact ⟨rfl, rfl⟩

/-- The first `k` grids have started. -/
theorem startFtgs_started {k : Nat} (hk : k ≤ 4) : GridFrame s ((List.range k).foldl startFtg s) ∧
    ∀ g < k, GridStarted ((List.range k).foldl startFtg s) g := by
  induction k with
  | zero => exact ⟨Frame.refl s, fun g hg => absurd hg (Nat.not_lt_zero g)⟩
  | succ k ih =>
    obtain ⟨hframe, hstarted⟩ := ih (by omega)
    rw [List.range_succ, List.foldl_append, List.foldl_cons, List.foldl_nil]
    refine ⟨hframe.trans (startFtg_frame _ hk), fun g hg => ?_⟩
    rcases Nat.lt_succ_iff_lt_or_eq.mp hg with hlt | rfl
    · intro hon
      rw [espFtg_startFtg_ne _ (by omega)]
      rw [(startFtg_frame _ hk).ftgOn (Nat.lt_of_lt_of_le hlt (by omega))] at hon
      exact hstarted g hlt hon
    · exact startFtg_started _ hk

theorem startGrids_frame : GridFrame s (startGrids s) := (startFtgs_started s le_rfl).1

theorem startGrids_started {g : Nat} (hg : g < 4) : GridStarted (startGrids s) g := (startFtgs_started s le_rfl).2 g hg

end Grids

/-! ### Element cores -/

/-- The fields that the start of core `n` writes. -/
def coreStartFlds (n : Nat) : List Fld := R.ELCn_STAT_STATE n :: [0, 1, 2].map (R.ELCn_BAYj_SG_PEND n) ++ stepFlds n

/-- A step of the start of core `n`. -/
abbrev CoreStartFrame (n : Nat) (s t : State) : Prop := Frame (others n) thnRange (coreStartFlds n) s t

/-- A core in RUN with no tick context and its bays' modes to be taken. -/
def CoreStarted (t : State) (n : Nat) : Prop :=
  t.rd (R.ELCn_STAT_STATE n) = 1 ∧ (t.core n).ctxs = [] ∧ (t.core n).run = none ∧ ∀ j < 3, j ∈ (t.core n).modeReq

/-- A core that starts: it is used, and its domain is up. -/
def Starts (s : State) (n : Nat) : Prop := s.img.used.testBit n = true ∧ s.pg (2 + n / 2) = true

theorem starts_congr {s t : State} (himg : t.img = s.img) (hpg : t.rd R.GLB_PWRSTAT_PG = s.rd R.GLB_PWRSTAT_PG) (n : Nat) : Starts t n ↔ Starts s n := by
  rw [Starts, Starts, himg, pg_of_rd hpg]

theorem coreStartFlds_apart (n : Fin 8) : ∀ f ∈ [R.GLB_PWRSTAT_PG, R.ESP_GRP_FTG_FTG] ++ (List.range 8).map R.ELCn_C0BOUND_BOUND,
    ∀ g ∈ coreStartFlds n, f.key ≠ g.key := by
  revert n
  decide

theorem state_apart (n k : Fin 8) (h : n ≠ k) : ∀ g ∈ coreStartFlds k, (R.ELCn_STAT_STATE n).key ≠ g.key := by
  revert n k
  decide

section Cores
variable (s : State) (n : Nat)

/-- The requests for groups that the image loads (R191). -/
def pendGroups : State := [0, 1, 2].foldl (fun a j => a.wrb (R.ELCn_BAYj_SG_PEND n j)
  ((a.rd (R.ELCn_BAYj_SG_DEF n j)).testBit (a.rd (R.ELCn_BAYj_SG_REQ n j)) && a.rd (R.ELCn_BAYj_SG_REQ n j) != a.rd (R.ELCn_BAYj_SG_ACT n j))) s

/-- The core in RUN, its state new. -/
def coreRuns : State := (s.wr (R.ELCn_STAT_STATE n) 1).setCore n { modeReq := [0, 1, 2] }

theorem startCore_eq : startCore s n = if !s.img.used.testBit n || !s.pg (2 + n / 2) then s else vstAll (pendGroups (coreRuns s n) n) n := rfl

theorem coreRuns_frame : CoreStartFrame n s (coreRuns s n) :=
  ((Frame.refl s).wr (f := R.ELCn_STAT_STATE n) (.inr (by simp [coreStartFlds])) 1 rfl).eq rfl (others_setCore ..)

/-- The groups and the status words leave the core. -/
theorem startGroups_frame : Frame besides thnRange (([0, 1, 2].map (R.ELCn_BAYj_SG_PEND n)) ++ stepFlds n) s (vstAll (pendGroups s n) n) := by
  have h1 : Frame besides thnRange (([0, 1, 2].map (R.ELCn_BAYj_SG_PEND n)) ++ stepFlds n) s (pendGroups s n) :=
    Frame.foldl (fun u j hj => (Frame.refl u).wr (.inr (List.mem_append_left _ (List.mem_map_of_mem hj))) _ rfl) (Frame.refl s)
  exact h1.trans ((vstAll_frame (Frame.refl _)).mono (List.Subset.refl _) (List.subset_append_right ..))

theorem startCore_frame : CoreStartFrame n s (startCore s n) := by
  rw [startCore_eq]
  exact Frame.ite (fun _ => Frame.refl s) fun _ => (coreRuns_frame s n).trans
    (((startGroups_frame _ n).mono (List.Subset.refl _) (List.subset_cons_self ..)).view (others_of_besides n))

variable {n}

theorem state_apart_groups (n : Fin 8) : ∀ g ∈ ([0, 1, 2].map (R.ELCn_BAYj_SG_PEND n)) ++ stepFlds n, (R.ELCn_STAT_STATE n).key ≠ g.key := by
  revert n
  decide

theorem state_outside (n : Fin 8) : (R.ELCn_STAT_STATE n).addr < 0x4000000 ∧
    ∀ r ∈ thnRange, ¬ (r.1 ≤ (R.ELCn_STAT_STATE n).addr ∧ (R.ELCn_STAT_STATE n).addr < r.2) := by
  revert n
  decide

theorem startCore_started (hn : n < 8) (h : Starts s n) : CoreStarted (startCore s n) n := by
  obtain ⟨hused, hpg⟩ := h
  have hf := startGroups_frame (coreRuns s n) n
  obtain ⟨hlt, hr⟩ := state_outside ⟨n, hn⟩
  have hcore : (startCore s n).core n = { modeReq := [0, 1, 2] } := by
    rw [startCore_eq, hused, hpg]
    exact (core_of_besides n hf.shows).trans (core_setCore ..)
  have hstate : (startCore s n).rd (R.ELCn_STAT_STATE n) = 1 := by
    rw [startCore_eq, hused, hpg]
    exact (hf.rd _ (by dsimp only [R.ELCn_STAT_STATE]; omega) hlt hr (state_apart_groups ⟨n, hn⟩)).trans (rd_wr_self s (R.ELCn_STAT_STATE n) 1)
  rw [CoreStarted, hcore]
  exact ⟨hstate, rfl, rfl, by decide⟩

/-- The start of another core leaves one that has started. -/
theorem CoreStarted.startCore {s : State} {k : Nat} (h : CoreStarted s n) (hn : n < 8) (hk : k < 8) (hne : n ≠ k) : CoreStarted (startCore s k) n := by
  have hf := startCore_frame s k
  obtain ⟨hlt, hr⟩ := state_outside ⟨n, hn⟩
  have hrd : (Machine.startCore s k).rd (R.ELCn_STAT_STATE n) = s.rd (R.ELCn_STAT_STATE n) :=
    hf.rd _ (by dsimp only [R.ELCn_STAT_STATE]; omega) hlt hr (state_apart ⟨n, hn⟩ ⟨k, hk⟩ (by simpa using hne))
  rw [CoreStarted, hrd, core_of_others hf.shows hne]
  exact h

/-- What the start of cores leaves: Espalier, the image, the domains, the groups' FTGs, the bounds shown. -/
structure CoresKeep (s t : State) : Prop where
  esp : t.esp = s.esp
  img : t.img = s.img
  pgs : t.rd R.GLB_PWRSTAT_PG = s.rd R.GLB_PWRSTAT_PG
  grp : t.rd R.ESP_GRP_FTG_FTG = s.rd R.ESP_GRP_FTG_FTG
  bound : ∀ n < 8, t.rd (R.ELCn_C0BOUND_BOUND n) = s.rd (R.ELCn_C0BOUND_BOUND n)

theorem startCore_keeps {k : Nat} (hk : k < 8) : CoresKeep s (startCore s k) := by
  have hf := startCore_frame s k
  have ha := coreStartFlds_apart ⟨k, hk⟩
  refine ⟨congrArg (fun o => o.1) hf.shows, congrArg (fun o => o.2.1) hf.shows, hf.rd _ (by decide) (by decide) (by decide) (ha _ (by simp)),
    hf.rd _ (by decide) (by decide) (by decide) (ha _ (by simp)), fun n hn => ?_⟩
  have hb : (R.ELCn_C0BOUND_BOUND n).lo < 32 ∧ (R.ELCn_C0BOUND_BOUND n).addr < 0xA00000 := by dsimp only [R.ELCn_C0BOUND_BOUND]; omega
  refine hf.rd _ hb.1 (by omega) (fun r hr => ?_) (ha _ (List.mem_append_right _ (List.mem_map_of_mem (List.mem_range.mpr hn))))
  rw [List.mem_singleton.mp hr]
  omega

/-- The first `k` cores have started. -/
theorem startCores_started {k : Nat} (hk : k ≤ 8) : CoresKeep s ((List.range k).foldl startCore s) ∧
    ∀ n < k, Starts s n → CoreStarted ((List.range k).foldl startCore s) n := by
  induction k with
  | zero => exact ⟨⟨rfl, rfl, rfl, rfl, fun _ _ => rfl⟩, fun n hn => absurd hn (Nat.not_lt_zero n)⟩
  | succ k ih =>
    obtain ⟨hkeep, hstarted⟩ := ih (by omega)
    rw [List.range_succ, List.foldl_append, List.foldl_cons, List.foldl_nil]
    have hk1 := startCore_keeps ((List.range k).foldl startCore s) hk
    refine ⟨⟨hk1.esp.trans hkeep.esp, hk1.img.trans hkeep.img, hk1.pgs.trans hkeep.pgs, hk1.grp.trans hkeep.grp,
      fun n hn => (hk1.bound n hn).trans (hkeep.bound n hn)⟩, fun n hn hs => ?_⟩
    rcases Nat.lt_succ_iff_lt_or_eq.mp hn with hlt | rfl
    · exact (hstarted n hlt hs).startCore (by omega) hk (by omega)
    · exact startCore_started _ hk ((starts_congr hkeep.img hkeep.pgs n).mpr hs)

end Cores

/-! ### Blocks that have started stay so -/

/-- What leaves the blocks as they started: also the cores and their STATE. -/
structure BlocksKeep (s t : State) : Prop extends CoresKeep s t where
  ec : t.ec = s.ec
  state : ∀ n < 8, t.rd (R.ELCn_STAT_STATE n) = s.rd (R.ELCn_STAT_STATE n)

section Blocks
variable {s t u : State}

theorem BlocksKeep.trans (h : BlocksKeep s t) (hu : BlocksKeep t u) : BlocksKeep s u :=
  ⟨⟨hu.esp.trans h.esp, hu.img.trans h.img, hu.pgs.trans h.pgs, hu.grp.trans h.grp, fun n hn => (hu.bound n hn).trans (h.bound n hn)⟩,
    hu.ec.trans h.ec, fun n hn => (hu.state n hn).trans (h.state n hn)⟩

/-- Where every such field stands, the blocks are kept. -/
theorem blocksKeep_of_fields (hec : t.ec = s.ec) (hesp : t.esp = s.esp) (himg : t.img = s.img)
    (h : ∀ f : Fld, f.lo < 32 → f.addr = 0x18 ∨ 0x800000 ≤ f.addr ∧ f.addr < 0xA00000 → t.rd f = s.rd f) : BlocksKeep s t :=
  ⟨⟨hesp, himg, h _ (by decide) (by decide), h _ (by decide) (by decide),
    fun n hn => h _ (by dsimp only [R.ELCn_C0BOUND_BOUND]; omega) (by dsimp only [R.ELCn_C0BOUND_BOUND]; omega)⟩, hec,
    fun n hn => h _ (by dsimp only [R.ELCn_STAT_STATE]; omega) (by dsimp only [R.ELCn_STAT_STATE]; omega)⟩

theorem SchFrame.blocksKeep (h : SchFrame s t) : BlocksKeep s t := by
  have hv := h.shows
  simp only [blocksView, Prod.mk.injEq] at hv
  obtain ⟨hec, hesp, himg, -⟩ := hv
  exact blocksKeep_of_fields hec hesp himg fun f hlo ha => h.rd_low hlo (by omega)

/-- Thorn alone is written. -/
theorem blocksKeep_of_frame (h : Frame besides thnRange [] s t) : BlocksKeep s t := by
  have hv := h.shows
  simp only [besides, Prod.mk.injEq] at hv
  obtain ⟨hec, hesp, himg, -⟩ := hv
  exact blocksKeep_of_fields hec hesp himg fun f hlo ha => h.rd_eq hlo (by omega) (by simp only [thnRange, List.Forall]; omega) trivial

theorem binLevels_frame (s : State) : Frame besides thnRange [] s (binLevels s) :=
  Frame.foldl (fun u i _ => Frame.ite (t := edgeTo u i (binOf u i).sync) (fun _ => Frame.of_eq rfl rfl) fun _ => Frame.refl u) (Frame.refl s)

theorem blocksStarted_keep (h : BlocksKeep s t) (hs : Spec.BlocksStarted s) : Spec.BlocksStarted t := by
  obtain ⟨hgrids, hcores⟩ := hs
  have hcore (n : Nat) : t.core n = s.core n := by rw [State.core, State.core, h.ec]
  refine ⟨fun g hg hon => ?_, fun n hused hpg => ?_⟩
  · rw [espFtg, h.esp]
    exact hgrids g hg (ftgOn_congr h.img h.grp hg ▸ hon)
  · rw [h.img] at hused
    rw [pg_of_rd h.pgs] at hpg
    rw [h.state n n.isLt, h.bound n n.isLt, hcore, h.img]
    exact hcores n hused hpg

/-- Once the cores run, the start of the FAB blocks only gates outputs. -/
theorem startFab_keeps (s : State) : BlocksKeep ((List.range 8).foldl startCore (startGrids s)) (startFab s) :=
  blocksKeep_of_frame ((binLevels_frame _).trans (gateUpdate_frame _ []))

theorem startGrids_img (s : State) : (startGrids s).img = s.img := congrArg Prod.snd (startGrids_frame s).shows

theorem startFab_img (s : State) : (startFab s).img = s.img :=
  (startFab_keeps s).img.trans ((startCores_started (startGrids s) le_rfl).1.img.trans (startGrids_img s))

/-- The start of the FAB blocks, their bounds shown already. -/
theorem startFab_blocks (s : State)
    (hb : ∀ n : Fin 8, Starts s n → s.rd (R.ELCn_C0BOUND_BOUND n) = totalBound s.img n % 2 ^ (R.ELCn_C0BOUND_BOUND n).w) :
    Spec.BlocksStarted (startFab s) := by
  have hgrids := startGrids_frame s
  obtain ⟨hkeep, hcores⟩ := startCores_started (startGrids s) (le_refl 8)
  refine blocksStarted_keep (startFab_keeps s) ⟨fun g hg hon => ?_, fun n hused hpg => ?_⟩
  · rw [espFtg, hkeep.esp]
    exact startGrids_started s hg (ftgOn_congr hkeep.img hkeep.grp hg ▸ hon)
  · have himg := startGrids_img s
    have hrd (f : Fld) (hlo : f.lo < 32) (ha : f.addr = 0x18 ∨ 0x900000 ≤ f.addr ∧ f.addr < 0xA00000) : (startGrids s).rd f = s.rd f :=
      hgrids.rd_eq hlo (by omega) (by simp only [gridRanges, List.Forall]; omega) trivial
    have hstarts : Starts (startGrids s) n := (starts_congr hkeep.img hkeep.pgs n).mp ⟨hused, hpg⟩
    obtain ⟨hstate, hctxs, hrun, hreq⟩ := hcores n n.isLt hstarts
    refine ⟨hstate, hctxs, hrun, hreq, ?_⟩
    rw [hkeep.bound n n.isLt, hkeep.img, himg,
      hrd _ (by dsimp only [R.ELCn_C0BOUND_BOUND]; omega) (by dsimp only [R.ELCn_C0BOUND_BOUND]; omega)]
    exact hb n ((starts_congr himg (hrd _ (by decide) (by decide)) n).mp hstarts)

end Blocks

end Sys2Proof.Machine
end

section
/-! PROOFS. What a complete image places (R459, R461, R465). -/
namespace Sys2Proof.Machine

/-! ### The image and the sequencer stand -/

/-- The image and the sequencer. -/
def imgGlb (s : State) : Image × Glb := (s.img, s.glb)

section Placed
variable (s : State)

theorem putFlds_imgGlb (lo hi : Nat) (l : List (Fld × Nat)) : imgGlb (putFlds lo hi l s) = imgGlb s :=
  foldl_keeps (p := imgGlb) (fun t e => by
    unfold putFld
    split
    · split <;> rfl
    · rfl) l s

theorem putBanks_imgGlb (l : List (Nat × List Word)) : imgGlb (putBanks l s) = imgGlb s :=
  foldl_keeps (p := imgGlb) (fun t e => by
    unfold loadBank storeBank
    extract_lets b
    split
    · rfl
    · split <;> rfl) l s

theorem putLocks_imgGlb (lo hi : Nat) (l : List Fld) : imgGlb (putLocks lo hi l s) = imgGlb s :=
  foldl_keeps (p := imgGlb) (fun t f => by split <;> rfl) l s

theorem ckWake_imgGlb (k : Nat) : imgGlb (ckWake s k) = imgGlb s := by
  unfold ckWake ckSweep
  split
  · split <;> rfl
  · rfl

theorem startAfe_imgGlb : imgGlb (startAfe s) = imgGlb s := by
  unfold startAfe
  extract_lets s1 s2
  have h2 : imgGlb s2 = imgGlb s1 := foldl_keeps (p := imgGlb) (g := startInput) (fun _ _ => rfl) _ s1
  exact (foldl_keeps (p := imgGlb) ckWake_imgGlb _ s2).trans h2

theorem showBounds_imgGlb (i : Image) : imgGlb (showBounds i s) = imgGlb s :=
  foldl_keeps (p := imgGlb) (g := fun a (n : Fin 8) => a.wr (R.ELCn_C0BOUND_BOUND n.val) (totalBound i n)) (fun _ _ => rfl) _ s

theorem rewrites_imgGlb (l : List (Fld × Nat)) : imgGlb (l.foldl (fun a e => prvRewrite a e.1.addr) s) = imgGlb s :=
  foldl_keeps (p := imgGlb) (g := fun a e => prvRewrite a e.1.addr) (fun _ _ => rfl) l s

theorem rewrites_regs (l : List (Fld × Nat)) : (l.foldl (fun a e => prvRewrite a e.1.addr) s).regs = s.regs :=
  foldl_keeps (p := State.regs) (g := fun a e => prvRewrite a e.1.addr) (fun _ _ => rfl) l s

theorem placeImage_imgGlb (i : Image) (l : Load) : imgGlb (placeImage i l s) = (i, s.glb) := by
  have hbanks : imgGlb (putBanks l.banks (putFlds 0 0x1000000 l.flds (putCfg i { s with img := i }))) = (i, s.glb) :=
    (putBanks_imgGlb ..).trans (putFlds_imgGlb ..)
  have hmems (t : State) : imgGlb (putSc i (putCores i t)) = imgGlb t := rfl
  have hshow (t : State) : imgGlb (showFtgs t) = imgGlb t := rfl
  rw [placeImage, showBounds_imgGlb, hshow, startAfe_imgGlb, hmems, hbanks]

/-! ### Memory below the element cores stands -/

theorem loadRange_low {d lo : Nat} (h : d ≤ lo) (bl : List (Nat × List Byte)) (hi : Nat) (m : List Host.Cell) :
    ∀ a < d, memRd (loadRange m bl lo hi) a = memRd m a := by
  intro a ha
  rw [← memRd_memClear m (lo := lo) (hi := hi) (a := a) (.inl (by omega))]
  exact List.foldlRecOn (motive := fun u => memRd u a = memRd (memClear m lo hi) a) bl _ rfl
    fun u hu b _ => (memRd_memWrs_out _ _ _ _ (.inl (by omega))).trans hu

theorem putCores_low (i : Image) : LowKept 0x200000000 s (putCores i s) := fun a ha =>
  List.foldlRecOn (motive := fun u => memRd u a = memRd s.mem a) (List.range 8)
    (fun m n => loadRange m i.blocks (ecInstrBase n) (ecInstrBase n + 0x100000)) rfl
    fun _ hu n _ => (loadRange_low (Nat.le_add_right 0x200000000 (n * 0x100000)) _ _ _ a ha).trans hu

theorem placeImage_low (i : Image) (l : Load) : LowKept 0x200000000 s (placeImage i l s) := by
  have hcfg : LowKept 0x200000000 s (putCfg i { s with img := i }) := loadRange_low (by decide) _ _ s.mem
  have hbanks : LowKept 0x200000000 s (putBanks l.banks (putFlds 0 0x1000000 l.flds (putCfg i { s with img := i }))) :=
    hcfg.mem (by rw [putBanks_mem, putFlds_mem])
  have hsc (t : State) : LowKept 0x200000000 t (putSc i t) := loadRange_low (by decide) _ _ t.mem
  unfold placeImage
  exact ((hbanks.trans (putCores_low _ i)).trans (hsc _)).mem (by rw [showBounds_mem, showFtgs_mem, startAfe_mem])

/-! ### The bounds shown (R184) -/

theorem bound_apart (n k : Fin 8) (h : n ≠ k) : (R.ELCn_C0BOUND_BOUND n).key ≠ (R.ELCn_C0BOUND_BOUND k).key := by
  revert n k
  decide

/-- One core's bound is shown. -/
def showBound (i : Image) (s : State) (n : Fin 8) : State := s.wr (R.ELCn_C0BOUND_BOUND n.val) (totalBound i n)

theorem showBounds_rd (i : Image) (n : Fin 8) :
    (showBounds i s).rd (R.ELCn_C0BOUND_BOUND n) = totalBound i n % 2 ^ (R.ELCn_C0BOUND_BOUND n).w :=
  foldl_establishes (g := showBound i) (I := fun _ => True) (x := n)
    (P := fun u : State => u.rd (R.ELCn_C0BOUND_BOUND n) = totalBound i n % 2 ^ (R.ELCn_C0BOUND_BOUND n).w)
    (fun _ _ h => h) (fun _ _ => rd_wr_self ..) (fun u k _ hu => by
      by_cases hk : n = k
      · exact hk ▸ rd_wr_self ..
      · exact (rd_wr_ne u _ (bound_apart n k hk)).trans hu) (List.mem_finRange n) trivial

end Placed

/-! ### The LOCK writes that loading holds back (R465) -/

/-- The LOCK bits held back are those of the blocks. -/
def LocksOk (l : Load) : Prop := ∀ f ∈ l.locks, f ∈ lockFlds

theorem regList_locks : ∀ (ws : List Nat) (l l' : Load), regList ws l = some l' → LocksOk l → LocksOk l'
  | [], l, l', h, hl => by
    simp only [regList, Option.some.injEq] at h
    exact h ▸ hl
  | [_], _, _, h, _ => by simp [regList] at h
  | a :: v :: t, l, l', h, hl => by
    rw [regList] at h
    split at h
    · simp at h
    · refine regList_locks t _ l' h ?_
      intro f hf
      dsimp only at hf
      split at hf
      · rcases List.mem_append.mp hf with hf | hf
        · exact hl f hf
        · exact List.mem_of_find?_eq_some (Option.mem_toList.mp hf)
      · exact hl f hf

theorem bankList_locks (tgt : Nat) : ∀ (k : Nat) (ws : List Nat) (l l' : Load), bankList tgt k ws l = some l' → l'.locks = l.locks
  | 0, [], l, l', h => by simp [bankList] at h; rw [h]
  | k + 1, [], l, l', h => by simp [bankList] at h; rw [h]
  | 0, _ :: _, _, _, h => by simp [bankList] at h
  | k + 1, w :: t, l, l', h => by
    simp only [bankList] at h
    split at h
    · simp at h
    · have hl := bankList_locks tgt k _ _ l' h
      exact hl

theorem curveList_locks (core : Nat) : ∀ (k : Nat) (ws : List Nat) (l l' : Load), curveList core k ws l = some l' → l'.locks = l.locks
  | 0, [], l, l', h => by simp [curveList] at h; rw [h]
  | k + 1, [], l, l', h => by simp [curveList] at h; rw [h]
  | 0, _ :: _, _, _, h => by simp [curveList] at h
  | k + 1, w :: t, l, l', h => by
    simp only [curveList] at h
    split at h
    · simp at h
    · have hl := curveList_locks core k _ _ l' h
      exact hl

theorem timerList_locks : ∀ (n : Nat) (d : List Byte) (l : Load) (r : Load × List Byte), timerList n d l = some r → r.1.locks = l.locks
  | 0, d, l, r, h => by simp only [timerList, Option.some.injEq] at h; rw [← h]
  | n + 1, d, l, r, h => by
    simp only [timerList] at h
    split at h
    · simp at h
    · have hl := timerList_locks n _ _ r h
      exact hl

theorem edgeList_locks : ∀ (n : Nat) (d : List Byte) (l : Load) (r : Load × List Byte), edgeList n d l = some r → r.1.locks = l.locks
  | 0, d, l, r, h => by simp only [edgeList, Option.some.injEq] at h; rw [← h]
  | n + 1, d, l, r, h => by
    simp only [edgeList] at h
    split at h
    · simp at h
    · have hl := edgeList_locks n _ _ r h
      exact hl

theorem initList_locks {d : List Byte} {l l' : Load} (h : initList d l = some l') : l'.locks = l.locks := by
  unfold initList at h
  split at h
  · simp at h
  next l1 d1 h1 =>
    split at h
    · simp at h
    next l2 d2 h2 =>
      split at h
      next r _ =>
        split at h
        · simp at h
        · simp only [Option.some.injEq] at h
          rw [← h]
          exact (edgeList_locks _ _ _ _ h2).trans (timerList_locks _ _ _ _ h1)
      · simp at h

theorem loadSection_locks {kind tgt : Nat} {d : List Byte} {l l' : Load} (h : loadSection kind tgt d l = some l') (hl : LocksOk l) :
    LocksOk l' := by
  have of_eq (he : l'.locks = l.locks) : LocksOk l' := by
    rw [LocksOk, he]
    exact hl
  have of_put (r : Option (List (Nat × List Byte)))
      (hr : (match r with | some b => some { l with blocks := l.blocks ++ b } | none => none) = some l') : LocksOk l' := by
    cases r with
    | none => simp at hr
    | some b =>
      simp only [Option.some.injEq] at hr
      exact of_eq (hr ▸ rfl)
  unfold loadSection at h
  split at h
  · simp at h
  · split at h
    · -- kind 1: the register list
      split at h
      · exact regList_locks _ l l' h hl
      · simp at h
    · -- kind 2: coefficient banks
      split at h
      · exact of_eq (bankList_locks tgt _ _ l l' h)
      · simp at h
    · -- kind 3: curve tables
      split at h
      · exact of_eq (curveList_locks tgt _ _ l l' h)
      · simp at h
    · -- kind 4: configuration memories
      split at h
      · split at h
        · simp only [Option.some.injEq] at h
          exact of_eq (h ▸ rfl)
        · simp at h
      · simp at h
    · -- kind 5: instruction memories
      split at h
      · exact of_put _ h
      · simp at h
    · -- kind 6: data memories
      split at h
      · exact of_put _ h
      · simp at h
    · -- kind 7: element-state memories
      split at h
      · simp at h
      · dsimp only at h
        split at h
        · simp only [Option.some.injEq] at h
          exact of_eq (h ▸ rfl)
        · simp at h
    · -- kind 8: SC SRAM
      split at h
      · exact of_put _ h
      · simp at h
    · -- kind 9: timers, edge detectors, retained values
      split at h
      · exact of_eq (initList_locks h)
      · simp at h
    · simp at h

theorem loadAll_locks {s : State} {slot : Nat} : ∀ (es : List SecEnt) (l l' : Load), loadAll s slot es l = .ok l' → LocksOk l → LocksOk l'
  | [], l, l', h, hl => by
    simp only [loadAll, Except.ok.injEq] at h
    exact h ▸ hl
  | e :: t, l, l', h, hl => by
    simp only [loadAll] at h
    split at h
    · simp at h
    · split at h
      · simp at h
      · split at h
        next l1 h1 => exact loadAll_locks t l1 l' h (loadSection_locks h1 hl)
        · simp at h

theorem lockFlds_apart (n : Fin 8) : ∀ f ∈ lockFlds, (R.ELCn_C0BOUND_BOUND n).key ≠ f.key := by
  revert n
  decide

theorem putLocks_bound {ls : List Fld} (h : ∀ f ∈ ls, f ∈ lockFlds) (lo hi : Nat) (s : State) (n : Fin 8) :
    (putLocks lo hi ls s).rd (R.ELCn_C0BOUND_BOUND n) = s.rd (R.ELCn_C0BOUND_BOUND n) :=
  List.foldlRecOn (motive := fun u : State => u.rd (R.ELCn_C0BOUND_BOUND n) = s.rd (R.ELCn_C0BOUND_BOUND n)) ls
    (fun a f => if lo ≤ f.addr ∧ f.addr < hi then a.wrb f true else a) rfl fun u hu f hf => by
      split
      · exact (rd_wr_ne u _ (lockFlds_apart n f (h f hf))).trans hu
      · exact hu

end Sys2Proof.Machine
end

section
/-! PROOFS. Release at the end of loading and the return to RUN (R459, R470). -/
namespace Sys2Proof.Machine

/-! ### A power state is shown, the scheme restarts -/

section Restarts
variable (s : State)

theorem setPwr_blocksView (st : Nat) : blocksView (setPwr s st) = blocksView s := by
  unfold setPwr
  split
  · rfl
  · rw [blocksView, fireVec_ec, fireVec_esp, fireVec_img, fireVec_glb]
    rfl

theorem setPwr_blocksKeep (st : Nat) : BlocksKeep s (setPwr s st) := by
  have hv := setPwr_blocksView s st
  simp only [blocksView, Prod.mk.injEq] at hv
  obtain ⟨hec, hesp, himg, -⟩ := hv
  exact blocksKeep_of_fields hec hesp himg fun f hlo ha => setPwr_rd_ne s st
    (key_ne_of_addr hlo (by decide) (by omega) (by decide) (by dsimp only [R.GLB_PWR_STATE]; omega))

theorem tamperAgain_frame : SchFrame s (tamperAgain s) := Frame.foldl (fun _ _ _ => Frame.of_eq rfl rfl) (Frame.refl s)

theorem wrb_blocksKeep {s t : State} (h : BlocksKeep s t) {f : Fld} (hf : f.lo < 32 ∧ f.addr < 0x18) (v : Nat) : BlocksKeep s (t.wr f v) :=
  h.trans (blocksKeep_of_fields rfl rfl rfl fun _ hlo ha => rd_wr_ne t v (key_ne_of_addr hlo hf.1 (by omega) (by omega) (by omega)))

end Restarts

/-! ### Release (R459) -/

section Release
variable (s : State) (locks : List Fld)

/-- The blocks have started. -/
def blocksUp : State := startFab (startPd8 (putLocks 0 0x1000000 locks s))

/-- The result of boot stands in BOOT. -/
def bootShown : State :=
  (((blocksUp s locks).wr R.GLB_BOOT_SLOT s.glb.trying).wrb R.GLB_BOOT_FALLBACK s.glb.second).wrb R.GLB_BOOT_DONE true

/-- Boot is over: RUN. -/
def inRun : State := setPwr (setGlb (bootShown s locks) { (bootShown s locks).glb with step := 0 }) 1

theorem bootRelease_eq : ∃ c1 p1 c2 p2, bootRelease s locks =
    let u := glbEvent (if s.glb.second then glbEvent (inRun s locks) c1 p1 else inRun s locks) c2 p2
    scRestart (tamperAgain u) u.glb.start := ⟨_, _, _, _, rfl⟩

theorem bootRelease_frame : SchFrame (inRun s locks) (bootRelease s locks) := by
  obtain ⟨c1, p1, c2, p2, he⟩ := bootRelease_eq s locks
  rw [he]
  extract_lets u
  have h4 : SchFrame (inRun s locks) (if s.glb.second then glbEvent (inRun s locks) c1 p1 else inRun s locks) :=
    Frame.ite (fun _ => Frame.of_eq rfl rfl) fun _ => Frame.refl _
  have hu : SchFrame (inRun s locks) u := h4.eq rfl rfl
  exact SchFrame.scRestart (hu.trans (tamperAgain_frame u)) _

theorem blocksUp_mem : (blocksUp s locks).mem = s.mem := by rw [blocksUp, startFab_mem, startPd8_mem, putLocks_mem]

theorem inRun_mem : (inRun s locks).mem = s.mem := by rw [inRun, setPwr_mem, setGlb_mem, bootShown, wrb_mem, wrb_mem, wr_mem, blocksUp_mem]

theorem bootRelease_word : WordKept (doneAddr (nextCopy s)) s (bootRelease s locks) := by
  obtain ⟨c1, p1, c2, p2, he⟩ := bootRelease_eq s locks
  rw [he]
  extract_lets u
  refine scRestart_word (LowKept.of_mem ?_) _
  rw [tamperAgain_mem, glbEvent_mem]
  split
  · rw [glbEvent_mem, inRun_mem]
  · exact inRun_mem s locks

theorem inRun_blocksKeep : BlocksKeep (blocksUp s locks) (inRun s locks) := by
  have h1 : BlocksKeep (blocksUp s locks) (bootShown s locks) :=
    wrb_blocksKeep (f := R.GLB_BOOT_DONE) (wrb_blocksKeep (f := R.GLB_BOOT_FALLBACK) (wrb_blocksKeep (f := R.GLB_BOOT_SLOT)
      (blocksKeep_of_fields rfl rfl rfl fun _ _ _ => rfl) (by decide) _) (by decide) _) (by decide) _
  have h2 : BlocksKeep (blocksUp s locks) (setGlb (bootShown s locks) { (bootShown s locks).glb with step := 0 }) :=
    h1.trans (blocksKeep_of_fields rfl rfl rfl fun _ _ _ => rfl)
  exact h2.trans (setPwr_blocksKeep _ 1)

theorem inRun_rd {f : Fld} (hf : f.key ≠ R.GLB_PWR_STATE.key) : (inRun s locks).rd f = (bootShown s locks).rd f := setPwr_rd_ne _ 1 hf

theorem bootShown_done : (bootShown s locks).on R.GLB_BOOT_DONE = true := by
  rw [State.on, bootShown, State.wrb, rd_wr_self]
  rfl

theorem bootShown_fallback : (bootShown s locks).on R.GLB_BOOT_FALLBACK = s.glb.second := by
  rw [State.on, bootShown, State.wrb, rd_wr_ne _ _ (by decide), State.wrb, rd_wr_self]
  cases s.glb.second <;> rfl

theorem bootShown_slot (h : s.glb.trying < 2) : (bootShown s locks).rd R.GLB_BOOT_SLOT = s.glb.trying := by
  rw [bootShown, State.wrb, rd_wr_ne _ _ (by decide), State.wrb, rd_wr_ne _ _ (by decide), rd_wr_self]
  exact Nat.mod_eq_of_lt h

/-- Release shows the slot, in RUN. -/
theorem bootRelease_shows (h : s.glb.trying < 2) : let t := bootRelease s locks
    t.on R.GLB_BOOT_DONE = true ∧ t.rd R.GLB_BOOT_SLOT = s.glb.trying ∧ t.on R.GLB_BOOT_FALLBACK = s.glb.second ∧
    t.rd R.GLB_PWR_STATE = 1 ∧ t.glb.step = 0 := by
  have hf := bootRelease_frame s locks
  have hrd {f : Fld} (hlo : f.lo < 32) (ha : f.addr < 0xA00000) : (bootRelease s locks).rd f = (inRun s locks).rd f := hf.rd_low hlo ha
  have hon {f : Fld} (hlo : f.lo < 32) (ha : f.addr < 0xA00000) (hk : f.key ≠ R.GLB_PWR_STATE.key) :
      (bootRelease s locks).on f = (bootShown s locks).on f := by rw [State.on, State.on, hrd hlo ha, inRun_rd s locks hk]
  refine ⟨?_, ?_, ?_, ?_, ?_⟩
  · rw [hon (by decide) (by decide) (by decide)]
    exact bootShown_done s locks
  · rw [hrd (by decide) (by decide), inRun_rd s locks (by decide)]
    exact bootShown_slot s locks h
  · rw [hon (by decide) (by decide) (by decide)]
    exact bootShown_fallback s locks
  · rw [hrd (by decide) (by decide)]
    exact setPwr_rd_self _ (by decide)
  · have hglb : (bootRelease s locks).glb = (inRun s locks).glb := congrArg (fun v => v.2.2.2) hf.shows
    rw [hglb, inRun, setPwr_glb]
    rfl

variable {s locks}

/-- Release starts the blocks of the image. -/
theorem bootRelease_blocks (hl : ∀ f ∈ locks, f ∈ lockFlds) (hg : ∀ e ∈ s.img.gsubs, e.1 < 1024)
    (hb : ∀ n : Fin 8, s.rd (R.ELCn_C0BOUND_BOUND n) = totalBound s.img n % 2 ^ (R.ELCn_C0BOUND_BOUND n).w) :
    (bootRelease s locks).img = s.img ∧ Spec.BlocksStarted (bootRelease s locks) := by
  have himg0 : (putLocks 0 0x1000000 locks s).img = s.img := congrArg Prod.fst (putLocks_imgGlb ..)
  have hpd : Pd8Frame (putLocks 0 0x1000000 locks s) (startPd8 (putLocks 0 0x1000000 locks s)) :=
    Pd8Frame.startPd8 (Frame.refl _) (by rwa [himg0])
  have himg : (startPd8 (putLocks 0 0x1000000 locks s)).img = s.img := hpd.shows.trans himg0
  have hup : Spec.BlocksStarted (blocksUp s locks) := startFab_blocks _ fun n _ => by
    rw [himg, hpd.rd_eq (by dsimp only [R.ELCn_C0BOUND_BOUND]; omega) (by dsimp only [R.ELCn_C0BOUND_BOUND]; omega)
      (by simp only [pd8Ranges, List.Forall, R.ELCn_C0BOUND_BOUND]; omega) trivial, putLocks_bound hl]
    exact hb n
  have hkeep : BlocksKeep (blocksUp s locks) (bootRelease s locks) := (inRun_blocksKeep s locks).trans (bootRelease_frame s locks).blocksKeep
  refine ⟨hkeep.img.trans ?_, blocksStarted_keep hkeep hup⟩
  rw [blocksUp, startFab_img, himg]

end Release

/-! ### Loading ends (R459 to R461) -/

section Loading
variable {s : State} {i : Image} {l : Load}

/-- The state with the image of slot `slot` placed. -/
def loadedFrom (s : State) (slot : Nat) (l : Load) (i : Image) : State :=
  l.flds.foldl (fun a e => prvRewrite a e.1.addr) (placeImage (imageOf s slot l i) l s)

section Loaded
variable (s : State) (slot : Nat) (l : Load) (i : Image)

theorem loadedFrom_imgGlb : imgGlb (loadedFrom s slot l i) = (imageOf s slot l i, s.glb) := (rewrites_imgGlb _ _).trans (placeImage_imgGlb ..)

theorem loadedFrom_low : LowKept 0x200000000 s (loadedFrom s slot l i) :=
  (placeImage_low s _ l).mem (foldl_mem (fun _ _ => prvRewrite_mem ..) _ _)

theorem loadedFrom_bound (n : Fin 8) : (loadedFrom s slot l i).rd (R.ELCn_C0BOUND_BOUND n) =
    totalBound (loadedFrom s slot l i).img n % 2 ^ (R.ELCn_C0BOUND_BOUND n).w := by
  have himg : (loadedFrom s slot l i).img = imageOf s slot l i := congrArg Prod.fst (loadedFrom_imgGlb ..)
  rw [himg, loadedFrom, rd_of_regs (rewrites_regs _ _), placeImage, showBounds_rd]

end Loaded

theorem loadChecks_gsubs {t : State} (h : loadChecks (startGrids t) = true) : ∀ e ∈ t.img.gsubs, e.1 < 1024 := by
  simp only [loadChecks, Bool.and_eq_true] at h
  obtain ⟨⟨⟨⟨⟨⟨⟨⟨⟨⟨⟨⟨-, -⟩, hgoose⟩, -⟩, -⟩, -⟩, -⟩, -⟩, -⟩, -⟩, -⟩, -⟩, -⟩ := h
  simp only [gooseOk, startGrids_img, Bool.and_eq_true, List.all_eq_true, decide_eq_true_eq] at hgoose
  exact hgoose.2

/-- A slot that passes is released. -/
theorem bootRelease_loaded (hslot : s.glb.trying < 2) (hl : loadAll s s.glb.trying (sections s s.glb.trying) {} = .ok l)
    (hgood : loadChecks (startGrids (loadedFrom s s.glb.trying l i)) = true) :
    let t := bootRelease (loadedFrom s s.glb.trying l i) l.locks
    t.on R.GLB_BOOT_DONE = true ∧ t.rd R.GLB_BOOT_SLOT = s.glb.trying ∧ t.on R.GLB_BOOT_FALLBACK = s.glb.second ∧
    t.rd R.GLB_PWR_STATE = 1 ∧ t.glb.step = 0 ∧ t.img = imageOf s s.glb.trying l i ∧ Spec.BlocksStarted t ∧
    WordKept (doneAddr (nextCopy s)) s t := by
  set u := loadedFrom s s.glb.trying l i with hu
  have hv : imgGlb u = (imageOf s s.glb.trying l i, s.glb) := loadedFrom_imgGlb ..
  have hglb : u.glb = s.glb := congrArg Prod.snd hv
  have hlow : LowKept 0x200000000 s u := loadedFrom_low s s.glb.trying l i
  obtain ⟨hdone, hsl, hfall, hpwr, hstep⟩ := bootRelease_shows u l.locks (hglb ▸ hslot)
  obtain ⟨himg, hblocks⟩ := bootRelease_blocks (loadAll_locks _ _ _ hl (fun f hf => absurd hf List.not_mem_nil)) (loadChecks_gsubs hgood)
    (loadedFrom_bound s s.glb.trying l i)
  rw [hglb] at hsl hfall
  refine ⟨hdone, hsl, hfall, hpwr, hstep, himg.trans (congrArg Prod.fst hv), hblocks, fun a ha hd => ?_⟩
  have hcopy : nextCopy u = nextCopy s := nextCopy_low (hlow.mono (by decide))
  exact (bootRelease_word u l.locks a ha (hcopy ▸ hd)).trans (hlow a ha)

end Loading

end Sys2Proof.Machine
end

section
/-! PROOFS. The ends of loading and of power transitions (R459 to R461, R469 to R473). -/
namespace Sys2Proof.Machine

/-! ### Loading -/

section Load
variable {s : State} {i : Image} {l : Load} {rd tab : Bool} {r : Nat}

/-- What a failed slot leaves: its reason, and the other slot to be tried. -/
def SlotFailed (s : State) (r : Nat) (t : State) : Prop :=
  t.rd (if s.glb.trying = 0 then R.GLB_BOOT_FAILA else R.GLB_BOOT_FAILB) = r ∧ t.glb.step = 3 ∧ t.glb.trying = 1 - s.glb.trying ∧
    t.glb.second = true ∧ SameBytes s t ∧ RegsKept s t [(0x10, 0x14)]

theorem bootFails_retries (h2 : s.glb.second = false) (hr : r < 8) : SlotFailed s r (bootFails s r) := by
  have hb : bootFails s r = retried s r := by
    simp only [bootFails, h2, Bool.false_eq_true, if_false]
    rfl
  have hfail : Within (if s.glb.trying = 0 then R.GLB_BOOT_FAILA else R.GLB_BOOT_FAILB) [(0x10, 0x14)] := by
    split <;> exact ⟨by decide, by decide, _, List.mem_singleton.mpr rfl, by decide⟩
  rw [hb]
  exact ⟨(rd_of_regs (retried_regs s r) _).trans (setFail_rd_self s _ hr), rfl, rfl, rfl, sameBytes_of_mem (retried_mem s r),
    regsKept_of_regs (regsKept_wr hfail (regsKept_refl s _) r) (retried_regs s r)⟩

variable (h0 : s.glb.hold = 0) (h6 : s.glb.step = 6) (hpg : (neededPds s false).all s.pg = true)
include h0 h6 hpg

theorem exec_load_base (hb : hdr s s.glb.trying 0x18 32 ≠ 0) : exec (.imageLoadDone rd tab i) s = .next (bootFails s 6) := by
  rw [exec, execImageLoadDone, if_neg (by simp [h0, h6, hpg]), if_pos hb]

theorem exec_load_error (hb : hdr s s.glb.trying 0x18 32 = 0)
    (hl : (if rd then loadAll s s.glb.trying (sections s s.glb.trying) {} else .error 5) = .error r) :
    exec (.imageLoadDone rd tab i) s = .next (bootFails s r) := by
  rw [exec, execImageLoadDone, if_neg (by simp [h0, h6, hpg]), if_neg (not_not.mpr hb), hl]

theorem exec_load_ok (hb : hdr s s.glb.trying 0x18 32 = 0) (hl : loadAll s s.glb.trying (sections s s.glb.trying) {} = .ok l) :
    exec (.imageLoadDone true tab i) s = .next (if tab && loadChecks (startGrids (loadedFrom s s.glb.trying l i)) then
      bootRelease (loadedFrom s s.glb.trying l i) l.locks else bootFails s 6) := by
  rw [exec, execImageLoadDone, if_neg (by simp [h0, h6, hpg]), if_neg (not_not.mpr hb), if_pos rfl, hl]
  rfl

/-- A slot that passes ends the boot. -/
theorem load_passes (htry : s.glb.trying < 2) (hb : hdr s s.glb.trying 0x18 32 = 0)
    (hl : loadAll s s.glb.trying (sections s s.glb.trying) {} = .ok l)
    (hgood : loadChecks (startGrids (loadedFrom s s.glb.trying l i)) = true) : Runs (.imageLoadDone true true i) s fun t =>
      t.on R.GLB_BOOT_DONE = true ∧ t.rd R.GLB_BOOT_SLOT = s.glb.trying ∧ t.on R.GLB_BOOT_FALLBACK = s.glb.second ∧
      t.rd R.GLB_PWR_STATE = 1 ∧ t.glb.step = 0 ∧ t.img = imageOf s s.glb.trying l i ∧ Spec.BlocksStarted t ∧
      WordKept (doneAddr (nextCopy s)) s t := by
  have he := exec_load_ok (tab := true) (i := i) h0 h6 hpg hb hl
  rw [Bool.true_and, if_pos hgood] at he
  exact ⟨_, he, bootRelease_loaded htry hl hgood⟩

/-- Every other end of loading fails the slot. -/
theorem load_fails (h2 : s.glb.second = false) (h : hdr s s.glb.trying 0x18 32 ≠ 0 ∧ r = 6 ∨
      hdr s s.glb.trying 0x18 32 = 0 ∧ (rd = false ∨ loadAll s s.glb.trying (sections s s.glb.trying) {} = .error 5) ∧ r = 5 ∨
      hdr s s.glb.trying 0x18 32 = 0 ∧ rd = true ∧ (loadAll s s.glb.trying (sections s s.glb.trying) {} = .error 6 ∨
        loadAll s s.glb.trying (sections s s.glb.trying) {} = .ok l ∧
          (tab = false ∨ loadChecks (startGrids (loadedFrom s s.glb.trying l i)) = false)) ∧ r = 6) :
    Runs (.imageLoadDone rd tab i) s (SlotFailed s r) := by
  suffices he : exec (.imageLoadDone rd tab i) s = .next (bootFails s r) ∧ r < 8 from
    ⟨_, he.1, bootFails_retries h2 he.2⟩
  rcases h with ⟨hb, rfl⟩ | ⟨hb, hrd | hl, rfl⟩ | ⟨hb, rfl, hl | ⟨hl, hbad⟩, rfl⟩
  · exact ⟨exec_load_base h0 h6 hpg hb, by decide⟩
  · exact ⟨exec_load_error h0 h6 hpg hb (by rw [hrd]; rfl), by decide⟩
  · exact ⟨exec_load_error h0 h6 hpg hb (by rw [hl, ite_self]), by decide⟩
  · exact ⟨exec_load_error h0 h6 hpg hb (by rw [hl]; rfl), by decide⟩
  · refine ⟨(exec_load_ok h0 h6 hpg hb hl).trans ?_, by decide⟩
    rw [if_neg (by rcases hbad with h | h <;> simp [h])]

end Load

/-! ### The return to RUN (R470) -/

section Resume
variable (s : State) (l : Load)

/-- The sections of a return stand in their blocks again. -/
def reloaded : State := showBounds s.img (startAfe (putCores s.img (putBanks l.banks (putFlds 0x600000 0xB00000 l.flds s))))

/-- The FAB blocks run again. -/
def fabUp : State := startFab (putLocks 0x600000 0xB00000 l.locks (reloaded s l))

/-- RUN is shown, and no transition is in progress. -/
def backInRun (u : State) : State := setGlb (movePwr u 1) { u.glb with trans := 0 }

theorem resume_eq : resume s l = scRestart (backInRun (fabUp s l)) 4 := by
  unfold resume fabUp reloaded backInRun
  rfl

theorem img_of_imgGlb {s t : State} (h : imgGlb t = imgGlb s) : t.img = s.img := congrArg Prod.fst h

theorem backInRun_blocksKeep (u : State) : BlocksKeep u (backInRun u) :=
  (setPwr_blocksKeep u 1).trans (blocksKeep_of_fields rfl rfl rfl fun _ _ _ => rfl)

theorem backInRun_mem (u : State) : (backInRun u).mem = u.mem := by rw [backInRun, setGlb_mem, movePwr, glbEvent_mem, setPwr_mem]

/-- The scheme's restart keeps what a return shows. -/
theorem restarted_shows {u t : State} (h : SchFrame (backInRun u) t) : t.rd R.GLB_PWR_STATE = 1 ∧ t.glb.trans = 0 := by
  have hglb : t.glb = (backInRun u).glb := congrArg (fun v => v.2.2.2) h.shows
  refine ⟨?_, by rw [hglb]; rfl⟩
  rw [h.rd_low (by decide) (by decide), backInRun, rd_of_regs (setGlb_regs ..)]
  exact movePwr_state _ (by decide)

theorem reloaded_img : (reloaded s l).img = s.img := by
  have hcores (i : Image) (t : State) : imgGlb (putCores i t) = imgGlb t := rfl
  refine img_of_imgGlb ?_
  rw [reloaded, showBounds_imgGlb, startAfe_imgGlb, hcores, putBanks_imgGlb, putFlds_imgGlb]

theorem fabUp_low : LowKept 0x200000000 s (fabUp s l) := by
  have h1 : LowKept 0x200000000 s (putBanks l.banks (putFlds 0x600000 0xB00000 l.flds s)) := LowKept.of_mem (by rw [putBanks_mem, putFlds_mem])
  exact (h1.trans (putCores_low _ s.img)).mem (by rw [fabUp, startFab_mem, putLocks_mem, reloaded, showBounds_mem, startAfe_mem])

theorem resume_word : WordKept (doneAddr (nextCopy s)) s (resume s l) := by
  rw [resume_eq]
  exact scRestart_word ((fabUp_low s l).mem (backInRun_mem _)) 4

theorem resume_frame : SchFrame (backInRun (fabUp s l)) (resume s l) := by
  rw [resume_eq]
  exact SchFrame.scRestart (Frame.refl _) 4

theorem resume_keeps : BlocksKeep (fabUp s l) (resume s l) := (backInRun_blocksKeep _).trans (resume_frame s l).blocksKeep

variable {s l}

/-- The end of a return, in O47's terms. -/
theorem resume_shows {slot : Nat} (hl : loadAll s slot (sections s slot) {} = .ok l) : (resume s l).rd R.GLB_PWR_STATE = 1 ∧
    (resume s l).glb.trans = 0 ∧ (resume s l).img = s.img ∧ Spec.BlocksStarted (resume s l) ∧ WordKept (doneAddr (nextCopy s)) s (resume s l) := by
  have hlocks : LocksOk l := loadAll_locks _ _ _ hl (fun f hf => absurd hf List.not_mem_nil)
  have himg : (putLocks 0x600000 0xB00000 l.locks (reloaded s l)).img = s.img :=
    (img_of_imgGlb (putLocks_imgGlb ..)).trans (reloaded_img s l)
  have hup : Spec.BlocksStarted (fabUp s l) := startFab_blocks _ fun n _ => by
    rw [himg, putLocks_bound hlocks, reloaded, showBounds_rd]
  obtain ⟨hpwr, htrans⟩ := restarted_shows (resume_frame s l)
  refine ⟨hpwr, htrans, ?_, blocksStarted_keep (resume_keeps s l) hup, resume_word s l⟩
  rw [(resume_keeps s l).img, fabUp, startFab_img, himg]

end Resume

/-! ### Power transitions end -/

section Transition
variable {s : State}

theorem exec_standbyEnd (ht : s.glb.trans = 1) (hq : quietNow s = true) : exec .powerTransitionDone s = .next (movePwr (standbySteps s) 2) := by
  rw [exec, execPowerTransitionDone, ht]
  exact congrArg _ (if_pos hq)

theorem exec_hibernateEnd (ht : s.glb.trans = 2) (hq : quietNow s = true) : exec .powerTransitionDone s = .next (hibernate s) := by
  rw [exec, execPowerTransitionDone, ht]
  exact congrArg _ (if_pos hq)

theorem exec_notQuiet (ht : s.glb.trans = 1 ∨ s.glb.trans = 2) (hq : quietNow s = false) : exec .powerTransitionDone s = .next s := by
  rw [exec, execPowerTransitionDone]
  rcases ht with ht | ht <;> rw [ht, hq] <;> rfl

theorem exec_returnEnd {l : Load} (ht : s.glb.trans = 3) (hpg : (neededPds s true).all s.pg = true)
    (hl : loadAll s (s.rd R.GLB_BOOT_SLOT) (sections s (s.rd R.GLB_BOOT_SLOT)) {} = .ok l) : exec .powerTransitionDone s = .next (resume s l) := by
  rw [exec, execPowerTransitionDone, ht, hpg]
  dsimp only
  rw [hl]
  rfl

theorem exec_returnFails {r : Nat} (ht : s.glb.trans = 3) (hpg : (neededPds s true).all s.pg = true)
    (hl : loadAll s (s.rd R.GLB_BOOT_SLOT) (sections s (s.rd R.GLB_BOOT_SLOT)) {} = .error r) : exec .powerTransitionDone s = .next (returnFailed s r) := by
  rw [exec, execPowerTransitionDone, ht, hpg]
  dsimp only
  rw [hl]
  rfl

theorem exec_noTransition (h : s.glb.trans = 0 ∨ (s.glb.trans = 3 ∧ (neededPds s true).all s.pg = false)) :
    exec .powerTransitionDone s = .next s := by
  rw [exec, execPowerTransitionDone]
  rcases h with ht | ⟨ht, hpg⟩
  · rw [ht]
    rfl
  · rw [ht, hpg]
    rfl

end Transition

/-- Settles O47: the slot released or failed, a request's answer, and the end of each transition, each by the lemma of that name. What the load
engine reads and the toolchain states (assumption 48), the handling of requests and of PWR_STATE (49) and the checkpoint's completion word (18)
are the model's choices. -/
theorem loadAndPowerStates : Obligations.LoadAndPowerStates := by
  unfold Obligations.LoadAndPowerStates
  refine ⟨fun s i h0 h6 htry hpg => ⟨fun l hb hl hgood => ?_, fun l rd tab r h2 h => load_fails h0 h6 hpg h2 h⟩, fun s => ?_, fun s ht hq => ?_,
    fun s ht hq => ?_, fun s ht hq => exec_notQuiet ht hq, fun s l ht hpg hl => ?_, fun s r ht hpg hl => ?_, fun s h => exec_noTransition h⟩
  · exact load_passes h0 h6 hpg htry hb hl hgood
  · exact ⟨powerRequest_asks (by decide) rfl, powerRequest_asks (by decide) rfl, powerRequest_asks (by decide) rfl⟩
  · exact ⟨_, exec_standbyEnd ht hq, standby_reached s⟩
  · exact ⟨_, exec_hibernateEnd ht hq, hibernate_reached s rfl rfl⟩
  · exact ⟨_, exec_returnEnd ht hpg hl, resume_shows hl⟩
  · exact ⟨_, exec_returnFails ht hpg hl, returnFailed_shows s r⟩

end Sys2Proof.Machine
end
